-- ==== Sys2Proof/Word.lean ====
section
/-! DEFINITION. The words of the model. Every control register, descriptor word and context word is 64 bits wide
(spec/00_scope.md, "Registers"), and every memory is addressed by bytes (R3). -/
namespace Sys2Proof

/-- A register, descriptor or context word (R6). -/
abbrev Word := BitVec 64

/-- One byte. -/
abbrev Byte := BitVec 8

end Sys2Proof
end

