-- ==== Sys2Proof/Syntax.lean ====
section
/-! DEFINITION. The commands of the block: one constructor per row of spec/opcode_table.json, in the table's order. The
table gives a row no fields, so the operands are the model's: they say which object the event concerns and carry what
comes from outside (an access, a packet, a reading, bytes read from flash). Numbers are indices unless said otherwise. -/
namespace Sys2Proof

/-- Who issues a control access (R11); `fn` stands for a write to the function page of a function (Table 4.7). -/
inductive Agent where
  | pf0 | core (c : Nat) | smbus | img | fn (f : Nat)
deriving DecidableEq, Repr

/-- How an access ended, as its requester sees it. -/
inductive Ans where
  | ok | poison | corrected | timeout | portDown | partnerReset | envelope | xlate | malformed
  | unsupported | abort | writeFailed | stale
deriving DecidableEq, Repr

/-- What an ECC decoder found: nothing, a corrected error, an uncorrectable error. -/
inductive Ecc where
  | ok | ce | ue
deriving DecidableEq, Repr

/-- A wake cause (R39). -/
inductive WakeSrc where
  | perst | ttWake (k : Nat) | prsnt (n : Nat) | attn (n : Nat) | icu (s : Nat)
deriving DecidableEq, Repr

/-- What a completed flash read returned (R34, R54): whether the SFDP table was answered, the 4 KiB header, or the bodies
of the header's sections in table order. -/
inductive FlashRead where
  | sfdp (answered : Bool)
  | header (bytes : List Byte)
  | early (bodies : List (List Byte))
deriving DecidableEq, Repr

/-- A configuration request of the host to a function by RID offset: `off` is the byte offset of the dword, `be` its byte
enables. -/
structure CfgReq where
  fn : Nat
  bus : Nat
  write : Bool
  off : Nat
  be : Nat
  data : Nat
  tag : Nat
deriving DecidableEq, Repr

/-- A memory request of the host to a BAR of a function: `kind` 0 is a read, 1 a write, 2 any request type the bridge does
not implement. `single` says that the access arrived as one TLP. -/
structure HostReq where
  fn : Nat
  bar : Nat
  off : Nat
  kind : Nat
  len : Nat
  data : List Byte
  tag : Nat
  poisoned : Bool
  single : Bool
deriving DecidableEq, Repr

/-- What unmasks (R328). -/
inductive Unmask where
  | entry (v : Nat) | function | msixEnable | msiEnable (mme : Nat) | msiVector (m : Nat)
deriving DecidableEq, Repr

/-- A packet of a GLL link (Table 12.4): `flags` holds SE in bit 0, POISON in bit 1 and LAST in bit 2, `len` the payload slots, `data`
the bytes that the packet is about (Table 12.5). `bad` says that a RSV bit is set or that LEN does not fit the packet (R295). -/
structure Pkt where
  op : Nat
  vc : Nat
  env : Nat
  tag : Nat
  addr : Nat
  len : Nat
  status : Nat
  flags : Nat
  data : List Byte
  bad : Bool := false
deriving DecidableEq, Repr

/-- A grant class of the current-ramp limiter (R50). -/
inductive Ramp where
  | mover | coreWake | hbmBurst | stepRelease
deriving DecidableEq, Repr

/-- An access of a Gondola core (R340): `kind` 0 load, 1 store, 2 AMO, 3 fetch, by core address; of an AMO, `data` is what it leaves in
memory. `kind` 4 reads and 5 writes the custom CSR numbered `addr` (R343). `machine` says that the core is in machine mode. -/
structure CoreReq where
  core : Nat
  kind : Nat
  addr : Nat
  len : Nat
  data : List Byte
  machine : Bool
deriving DecidableEq, Repr

/-- A request at SP2 (R368): `write`, HBM offset, length, data, and what the ECC decoder finds. -/
structure HbmReq where
  write : Bool
  off : Nat
  len : Nat
  data : List Byte
  ecc : Ecc
deriving DecidableEq, Repr

/-- A pair control or mirror packet (spec/17). Of a queue item, words 0 to 15 are the context, and words 16 to 21, where
present, a completion record not yet written: status, mask, steps, bytes, energy, operation number. -/
inductive PairMsg where
  | queueItem (q : Nat) (words : List Word)
  | recordMark (q : Nat)
  | atomMark (q : Nat)
  | xlate (entries : List (Nat × Word))
  | ack | safe
  | handover (envs : List Nat)
  | probe | probeAnswer
  /-- What the peer's check asks (R414). -/
  | checkAsk
  /-- The peer's answer: `PAIR_ID`, hashes of FUNCTION_TABLE and WINDOW_ENVELOPE, PAIR_MODE, `PRL_HOME`. -/
  | checkAnswer (pairId : Nat) (fnHash winHash : BitVec 384) (mode : Nat) (home : List Word)
  /-- The peer has PAIR_EN 1 and has passed its check. -/
  | syncBegin
  | syncItem (q : Nat) (words : List Word)
  /-- The peer has sent its sync; `own` is its `PRL_OWN`. -/
  | syncDone (own : List Word)
deriving DecidableEq, Repr

/-- The commands, one per row of the table. -/
inductive Instr where
  -- Power
  | tetherResetRelease
  | vddTtLoss
  | ttPgoodMainAssert
  | mainPowerLoss
  | mainPowerDownDone
  | mainOffTimeExpiry
  | wakeCause (src : WakeSrc)
  | ttWakeDebounced (k : Nat)
  | perstNAssert
  | perstNDeassert (strap pairId : Nat)
  | rootPllLock
  | pllUnlock (clkStopped : Bool)
  | refclkLoss (host : Bool)
  | droopThresholdCrossing (mv : Nat)
  | droopCauseEnd (th2 : Bool)
  | stretchReturnIncrement
  | lswRecognised
  | lswNRelease
  | lswHoldExpiry
  | lswStuck
  | rampGrant (k : Ramp)
  | temperatureReading (tj : Nat)
  | heartbeatToggle
  | pwrEnable (a : Agent) (v : Word)
  -- Startup
  | flashReadDone (rd : FlashRead)
  | enterConfig
  | lateSectionLoaded (i : Nat) (body : List Byte)
  | erase (a : Agent) (v : Word)
  | program (a : Agent) (v : Word)
  | verify (a : Agent) (v : Word)
  | flashOpDone (failed : Bool) (header : List Byte) (bodies : List (List Byte))
  | flashOpTimeout
  | status
  | ctlRead (off : Nat)
  | ctlWrite (off : Nat) (v : Word)
  | restart (src : Nat)
  | keyProgram (slot : Nat) (hash : BitVec 384)
  | keyRevoke (slot : Nat)
  | devEnable (a : Agent) (v : Word)
  | consistencyCheckEnd
  | devQuiesce (a : Agent) (v : Word)
  | sleep (a : Agent) (v : Word)
  | forceSafe (a : Agent) (v : Word)
  | quiesceDrained
  -- Host
  | configRequest (r : CfgReq)
  | vfEnableWrite (pf : Nat) (vfe : Bool)
  | initiateFlr (fn : Nat)
  | flrEnd (fn : Nat)
  | busMasterEnableClear (fn : Nat)
  | busMasterEnableSet (fn : Nat)
  | powerStateWrite (fn : Nat) (d3 : Bool) (pmeEn : Bool)
  | msixUnmask (fn : Nat) (what : Unmask)
  | pmeTurnOff
  | hostMemoryRequest (r : HostReq)
  | windowAccess (r : HostReq)
  | doorbell (fn : Nat) (v : Word)
  | dlDown
  | dlUp (speed width : Nat) (flit : Bool)
  | hostLinkRecovery (back : Bool) (speed width : Nat)
  | hostLinkRetrain (a : Agent) (v : Word)
  | l1Request
  | l0pNarrow
  | l0pWiden
  | tagIssue (tag : Nat)
  | hostCompletion (fn tag : Nat) (off : Nat) (data : List Byte) (ans : Ans)
  | completionTimeout (fn tag : Nat)
  | quarantineExpiry (fn tag : Nat)
  | getVersion (req : List Byte)
  | getCapabilities (req : List Byte)
  | negotiateAlgorithms (req : List Byte)
  | getDigests (req : List Byte)
  | getCertificate (off len : Nat)
  | challenge (req : List Byte)
  | getMeasurements (index : Nat) (req : List Byte)
  | doeDiscovery (index : Nat)
  | hepEnable (a : Agent) (v : Word)
  -- Windows
  | wxlEnable (a : Agent) (v : Word)
  | inboundWindowEnable (a : Agent) (w : Nat) (v : Word)
  | outboundWindowEnable (a : Agent) (m : Nat) (v : Word)
  | envelopeRangeEnable (a : Agent) (g : Nat) (v : Word)
  | tableWalkDone (i : Nat) (ecc : Ecc)
  | tcInv (a : Agent) (v : Word)
  | tcInvDone
  | writeBack (a : Agent) (v : Word)
  | writeBackInvalidate (a : Agent) (v : Word)
  | pcFlushDone
  | sediscardClear (a : Agent) (v : Word)
  | pfCfgWrite (a : Agent) (v : Word)
  | prefetchLifeExpiry (da : Nat)
  | translationCompletion (fn pasid page : Nat) (addr : Nat) (r w ok : Bool)
  | invalidationRequest (fn pasid page pages itag : Nat)
  | invalidationCompletion (fn itag : Nat)
  | migratePassEnd (q : Nat)
  | migrateRelease (q : Nat)
  | xlateUpdateDone (q : Nat)
  -- Queues
  | contextLoaded (q : Nat) (ecc : Ecc)
  | descriptorFetched (q : Nat)
  | operationStart (q : Nat)
  | completionRecordWrite (q : Nat)
  | cqModerationExpiry (q : Nat)
  | queueRead (k q : Nat) (a : Agent)
  | queueWrite (k q : Nat) (a : Agent)
  | queueEnable (k q : Nat) (a : Agent)
  | queueModify (k q : Nat) (a : Agent)
  | queueStop (k q : Nat) (a : Agent)
  | queueStart (k q : Nat) (a : Agent)
  | queueDrain (k q : Nat) (a : Agent)
  | queueDisable (k q : Nat) (a : Agent)
  | queuePrefetch (k q : Nat) (a : Agent)
  | qenEnable (a : Agent) (v : Word)
  -- Operations
  | stepRelease (path : Nat)
  | stepBoundary (q : Nat)
  | moverPipeError (pipe : Nat)
  | copy (q : Nat)
  | fill (q : Nat)
  | check (q : Nat)
  | copyCheck (q : Nat)
  | scrub (q : Nat)
  | migrate (q : Nat)
  | multicastWrite (q : Nat)
  | atomic (q : Nat)
  | fence (q : Nat)
  | fenceComplete (q : Nat)
  | notify (q : Nat)
  | xlateUpdate (q : Nat)
  | abort (q : Nat)
  | ctxPrefetch (q : Nat)
  | serviceCall (q : Nat)
  | nop (q : Nat)
  -- Spool
  | creditTick
  | reconciliationInterval (mw : List Nat) (uj : List Nat)
  | calibrationWindowEnd
  | envelopeDefine (a : Agent) (e : Nat) (v : Word)
  | envelopeUndefine (a : Agent) (e : Nat) (v : Word)
  | envCfgWrite (a : Agent) (e : Nat) (v : Word)
  | envQblkWrite (a : Agent) (i : Nat) (v : Word)
  | splEnable (a : Agent) (v : Word)
  | splStepWrite (a : Agent) (v : Word)
  | calFreeze (a : Agent) (v : Word)
  | calRestart (a : Agent) (v : Word)
  -- Switch
  | frameAdmit (i : Nat)
  | evictionRetry
  | outputGrant (p : Nat)
  | multicastGhlExpiry (p : Nat)
  | tailBatchWrite
  | tailEn (a : Agent) (v : Word)
  | tailSelWrite (a : Agent) (p : Nat) (v : Word)
  | swcEnable (a : Agent) (v : Word)
  | bankCellsReleased (b : Nat)
  -- Lanes
  | receiverDetection (p : Nat) (lanes : Nat)
  /-- One block of training ordered sets: the 16 symbols of each lane of the group, in logical order. -/
  | gtsReceived (p : Nat) (sets : List (List Byte))
  | trainingPhaseComplete (p rtt : Nat)
  | linkActiveEntry (p : Nat)
  | trainingLimitExpiry (p : Nat)
  | retrainLimitExpiry (p : Nat)
  | blockAlignmentLoss (p : Nat) (lane : Nat)
  | retrain (a : Agent) (p : Nat) (v : Word)
  | resize (a : Agent) (p : Nat) (v : Word)
  | restore (a : Agent) (p : Nat) (v : Word)
  | resizeSwitch (p : Nat) (ok : Bool)
  | laneTestEnd (p : Nat) (pass : Bool)
  | portEnable (a : Agent) (p : Nat) (v : Word)
  | holdDisable (a : Agent) (p : Nat) (v : Word)
  | graceExpiry (p : Nat)
  | requestDeadline (p tag : Nat)
  | portTagQuarantineExpiry (p tag : Nat)
  | presenceChange (p : Nat) (present : Bool)
  | attentionPress (p : Nat)
  | slotPowerFault (p : Nat)
  | pwrOnWrite (a : Agent) (p : Nat) (v : Word)
  | pwrDone (p : Nat)
  | cancelWindowExpiry (p : Nat)
  | slotQuiesceEnd (p : Nat)
  -- Protocol
  /-- The 256 bytes of a flit. -/
  | flitReceived (p : Nat) (flit : List Byte)
  | nakRepeatTimeout (p : Nat)
  | replayTimeout (p : Nat)
  | probeTick (p : Nat)
  | probeSampleTimeout (p : Nat)
  | mrd (p : Nat) (k : Pkt)
  | mwr (p : Nat) (k : Pkt)
  | cpl (p : Nat) (k : Pkt)
  | cpld (p : Nat) (k : Pkt)
  | atom (p : Nat) (k : Pkt)
  | msgInt (p : Nat) (k : Pkt)
  | msgIntEffect (p : Nat)
  | msgSb (p : Nat) (k : Pkt)
  | err (p : Nat) (k : Pkt)
  | cfg (p : Nat) (k : Pkt)
  | epoch (p : Nat) (k : Pkt)
  | sleepReq (p : Nat)
  | sleepAck (p : Nat)
  | sleepNak (p : Nat)
  | sleepIdleExpiry (p : Nat)
  | sleepHandshakeTimeout (p : Nat)
  | sleepEntry (p : Nat)
  | sleepExit (p : Nat)
  | portRearm (a : Agent) (p : Nat) (v : Word)
  | cfgCmd (a : Agent) (p : Nat) (v : Word)
  | cfgAnswerTimeout (p : Nat)
  | sidebandOut (a : Agent) (p : Nat) (v : Word)
  -- Interrupts
  | icuEnable (a : Agent) (v : Word)
  | sourceEnable (a : Agent) (n : Nat) (v : Word)
  | sourceMask (a : Agent) (n : Nat) (v : Word)
  | icuSwi (a : Agent) (v : Word)
  | claim (c : Nat) (a : Agent)
  | complete (c : Nat) (a : Agent) (n : Nat)
  | hostClaim (fn tag : Nat)
  | hostComplete (fn : Nat) (v : Word)
  | hostProxyEvent
  | msixEntryReadDone (fn vec : Nat) (ecc : Ecc)
  -- Gondola
  | fastEntry (c : Nat)
  | fastReturn (c : Nat) (v : Word)
  | gclaim (c : Nat)
  | gcomplete (c : Nat) (n : Nat)
  | gmbhead (c : Nat) (n : Nat)
  | gmbdone (c : Nat) (v : Word)
  | gyield (c : Nat) (v : Word)
  | gdoorbell (c : Nat) (v : Word)
  | gmbstatRead (c : Nat)
  | mailboxPlace (q : Nat)
  | envelopeViewAnswer (c : Nat)
  | loadBegin (a : Agent) (v : Word)
  | loadData (a : Agent) (v : Word)
  | loadEnd (a : Agent) (v : Word)
  | loadCancel (a : Agent) (v : Word)
  | gdcEnable (a : Agent) (v : Word)
  | coreEnable (a : Agent) (c : Nat) (v : Word)
  | coreQuiesce (a : Agent) (c : Nat) (v : Word)
  | coreQuiesceEnd (c : Nat)
  -- Hbm
  | hbmTrainingEnd (trained : Nat)
  | hbmFillEnd
  | hbmEnable (a : Agent) (v : Word)
  | hbmAccess (r : HbmReq)
  | refreshInterval
  | hbmTempReading (t : Nat)
  | rowTestEnd (pc bank row : Nat) (pass : Bool)
  | pcTestEnd (pc : Nat) (pass : Bool)
  | patrolScrub (off : Nat) (ecc : Ecc)
  | selfRefreshEntry
  | selfRefreshExit
  | selfRefreshPairExit (first : Nat)
  -- Faults
  | faultWindowClose (b id : Nat)
  | faultGraceExpiry (b id : Nat)
  | faultQuietExpiry (b id : Nat)
  | selfTestEnd (b id : Nat) (pass : Bool)
  | acknowledge (a : Agent) (b id : Nat)
  | acknowledgeAll (a : Agent) (b : Nat)
  | latchRearm (a : Agent) (b : Nat)
  | selftestGo (a : Agent) (b id : Nat)
  | sourceConfigWrite (a : Agent) (b id : Nat) (v : Word)
  | graceWrite (a : Agent) (b : Nat) (v : Word)
  -- Pair
  | prlEnable (a : Agent) (v : Word)
  | pairEn (a : Agent) (v : Word)
  | handover (a : Agent) (v : Word)
  | handback (a : Agent) (v : Word)
  | handoverGive
  | pairControlPacket (m : PairMsg)
  | syncComplete
  | syncTimeout
  | heartbeatEdge (level : Bool)
  | heartbeatSilence
  | pairProbeTimeout
  | failoverConfirmDelay
  -- registers without a row, and late rows
  | registerWrite (a : Agent) (off : Nat) (v : Word) (width : Nat)
  | coreMemoryAccess (r : CoreReq)
  | fastTrap (c : Nat)
  | trainingPhaseLimitExpiry (p : Nat)
  | dqRecalibrationEnd (pc : Nat) (ok : Bool)
deriving DecidableEq, Repr

end Sys2Proof
end

