-- ==== Sys2Proof/Config.lean ====
section
/-! DEFINITION. What the spec leaves to the device or to a standard, as constants without a body: no proof can see a value
of them. A free value for a result the spec leaves open is `Config.freeValue` at a counter that State advances. -/
namespace Sys2Proof.Config

open Sys2Proof

/-- A value the spec leaves open, one per use (log entry 3). -/
opaque freeValue : Nat → BitVec 64

/-- SHA-384 (FIPS 180-4), used by R54, R55, R65 and R94 and not retold by the spec. DESIGN CHOICE, log entry 4. -/
opaque sha384 : List Byte → BitVec 384

/-- Whether an ECDSA P-384 signature verifies: public key, signature, digest (R54 step 3). DESIGN CHOICE, log entry 4. -/
opaque ecdsaVerify : List Byte → List Byte → BitVec 384 → Bool

/-- The hash of the Edbex key in slot 0 as shipped (R55). -/
opaque edbexKeyHash : BitVec 384

/-- The body of an SPDM response, by request code and request, with the measurement hash it covers (R94). -/
opaque spdmBody : Nat → List Byte → List Byte

/-- Bank and row of an address within a pseudo-channel, which the spec does not state: 32 banks, 32,768 rows of 1 KiB. PRESUMED, log entry 100. -/
opaque hbmBank : Nat → Nat

/-- See `hbmBank`. PRESUMED, log entry 100. -/
opaque hbmRow : Nat → Nat

/-- The measurement of the bridge ROM (Table 4.8). -/
opaque romMeasurement : BitVec 384

/-- The certificate chain of slot 0 (R94). -/
opaque spdmChain : List Byte

end Sys2Proof.Config
end

