-- ==== Sys2Proof/Machine/Regs.lean ====
section
/-! DEFINITION. The registers and fields of control space by the names of the spec: each register's control-space
offset and each field's place in its register. Generated from the register tables of spec/02 to spec/17 (the header line gives
the offset, the field table the bits); R417 gives the offset as block base plus table offset. A fault-page register takes its
block's base `b`; a port register its port `p` (0 to 5 = LP0 to LP5, 6 = PL, whose block PRL lies where LP6 would). The
function page of function `f` (RID offset) has the pseudo-offset `fnPage f`, beyond the 64 MiB of control space. -/
namespace Sys2Proof.Machine

/-- A field: the offset of its register, its lowest bit and its width. -/
structure Field where
  off : Nat
  lo : Nat
  w : Nat
deriving DecidableEq, Repr

/-- Pseudo-offset of the page of the function with RID offset `f` (Table 4.7 gives a page 128 KiB). -/
def fnPage (f : Nat) : Nat := 0x100000000 + 0x20000 * f

/-- Base of port block `p`: LP0 to LP5, and PRL for `p = 6` (R417). -/
def portBase (p : Nat) : Nat := 0x800000 + 0x100000 * p

namespace R
def PWR_CTL : Nat := 0x40000
def PWR_LSW_HOLD : Nat := 0x40008
def PWR_DROOP_CFG : Nat := 0x40010
def PWR_STRETCH_STS : Nat := 0x40018
def PWR_RAMP_CFG : Nat := 0x40020
def PWR_THERM : Nat := 0x40028
def PWR_MON (n : Nat) : Nat := 0x40100 + 0x8 * n
def CLK_CFG : Nat := 0x41000
def CLK_STS : Nat := 0x41008
def TTH_CTL : Nat := 0x1000000
def TTH_STS : Nat := 0x1000008
def TTH_WAKE_EN : Nat := 0x1000010
def TTH_WAKE_STS : Nat := 0x1000018
def TTH_WAKE_ICU (n : Nat) : Nat := 0x1000100 + 0x8 * n
def IMG_CTL : Nat := 0x20000
def IMG_STS : Nat := 0x20008
def IMG_ADDR : Nat := 0x20010
def IMG_LEN : Nat := 0x20018
def IMG_BUF (n : Nat) : Nat := 0x21000 + 0x8 * n
def DEV_ENSTAT : Nat := 0x10018
def DEV_CTL : Nat := 0x10000
def DEV_MODE : Nat := 0x10008
def DEV_STS : Nat := 0x10010
def DEV_TIME : Nat := 0x10020
def DEV_FAULT_MAP : Nat := 0x10028
def DEV_ERRPIN_LEVEL : Nat := 0x10030
def DEV_MANIFEST : Nat := 0x10038
def HEP_FN_ENV (f : Nat) : Nat := fnPage f + 0x1000
def HEP_FN_FAULT (f : Nat) : Nat := fnPage f + 0x1010
def HEP_CTL : Nat := 0x80000
def HEP_ENSTAT : Nat := 0x80008
def HEP_LINK_CTL : Nat := 0x80010
def HEP_LINK_STS : Nat := 0x80018
def HEP_PM_CFG : Nat := 0x80020
def HEP_FN_STS (n : Nat) : Nat := 0x90000 + 0x8 * n
def HEP_TAG_STS : Nat := 0x80100
def HEP_LATE_CPL : Nat := 0x80108
def HEP_CTO_LOG : Nat := 0x80110
def HEP_FLR_LOG : Nat := 0x80118
def HEP_LINKLOSS : Nat := 0x80120
def HEP_AER_MAP : Nat := 0x80128
def WXL_CTL : Nat := 0x100000
def WXL_ENSTAT : Nat := 0x100008
def WXL_TBL_BASE : Nat := 0x100010
def WXL_TBL_SIZE : Nat := 0x100018
def WXL_TC_INV : Nat := 0x100020
def WXL_TC_STS : Nat := 0x100028
def WXL_PF_CFG : Nat := 0x100030
def WXL_PF_STS : Nat := 0x100038
def WXL_PC_CFG : Nat := 0x100040
def WXL_PC_STS : Nat := 0x100048
def WXL_PC_FLUSH : Nat := 0x100050
def WXL_SEDISCARD_LOG (i : Nat) : Nat := 0x100100 + 0x8 * i
def WXL_SEDISCARD_STS : Nat := 0x100180
def WXL_MIG_STS : Nat := 0x100188
def WXL_IWIN_CTL (w : Nat) : Nat := 0x110000 + 0x10 * w
def WXL_IWIN_BASE (w : Nat) : Nat := 0x110008 + 0x10 * w
def WXL_OWIN_CTL (m : Nat) : Nat := 0x120000 + 0x20 * m
def WXL_OWIN_DA (m : Nat) : Nat := 0x120008 + 0x20 * m
def WXL_OWIN_HOST (m : Nat) : Nat := 0x120010 + 0x20 * m
def WXL_ERNG_CTL (g : Nat) : Nat := 0x140000 + 0x10 * g
def WXL_ERNG_BASE (g : Nat) : Nat := 0x140008 + 0x10 * g
def QEN_CTL : Nat := 0x200000
def QEN_ENSTAT : Nat := 0x200008
def QEN_CTX_BASE : Nat := 0x200010
def QEN_CC_CFG : Nat := 0x200018
def QEN_CC_STS : Nat := 0x200020
def QEN_DB_STS : Nat := 0x200028
def QEN_DB_DROP : Nat := 0x200030
def QEN_STS : Nat := 0x200038
def QEN_QCMD (k : Nat) : Nat := 0x201000 + 0x100 * k
def QEN_QCMD_STS (k : Nat) : Nat := 0x201008 + 0x100 * k
def QEN_QBUF (k : Nat) (j : Nat) : Nat := 0x201080 + 0x100 * k + 0x8 * j
def QEN_MOVER_STS : Nat := 0x200040
def SPL_CTL : Nat := 0x400000
def SPL_ENSTAT : Nat := 0x400008
def SPL_STEP : Nat := 0x400010
def SPL_BUDGET : Nat := 0x400018
def SPL_CAL_STATE : Nat := 0x400020
def SPL_RESIDUAL : Nat := 0x400028
def SPL_STS : Nat := 0x400030
def SPL_COEF (i : Nat) : Nat := 0x400100 + 0x8 * i
def SPL_OPCOST : Nat := 0x400180
def ENV_QBLK (i : Nat) : Nat := 0x408000 + 0x8 * i
def ENV_CFG (e : Nat) : Nat := 0x410000 + 0x100 * e
def ENV_CREDIT (e : Nat) : Nat := 0x410008 + 0x100 * e
def ENV_ENERGY (e : Nat) : Nat := 0x410010 + 0x100 * e
def ENV_STS (e : Nat) : Nat := 0x410018 + 0x100 * e
def SWC_CTL : Nat := 0x600000
def SWC_ENSTAT : Nat := 0x600008
def SWC_BUF_CFG : Nat := 0x600010
def SWC_BUF_STS : Nat := 0x600018
def SWC_EVICT_STS : Nat := 0x600020
def SWC_MC_STS : Nat := 0x600028
def SWC_PORT_CFG (p : Nat) : Nat := 0x600100 + 0x8 * p
def SWC_PORT_STS (p : Nat) : Nat := 0x600200 + 0x8 * p
def SWC_INMAP (p : Nat) (v : Nat) : Nat := 0x600400 + 0x40 * (p - 4) + 0x8 * v
def SWC_OUTMAP (p : Nat) : Nat := 0x600600 + 0x8 * (p - 4)
def SWC_TAIL_BASE : Nat := 0x600700
def SWC_TAIL_SIZE : Nat := 0x600708
def SWC_TAIL_WR : Nat := 0x600710
def SWC_TAIL_RD : Nat := 0x600718
def SWC_TAIL_SEL (p : Nat) : Nat := 0x600720 + 0x8 * p
def SWC_TAIL_STS : Nat := 0x600778
def LPn_CTL (p : Nat) : Nat := portBase p + 0x0
def LPn_ENSTAT (p : Nat) : Nat := portBase p + 0x8
def LPn_LINK_CFG (p : Nat) : Nat := portBase p + 0x10
def LPn_IDENT (p : Nat) : Nat := portBase p + 0x18
def LPn_LINK_CMD (p : Nat) : Nat := portBase p + 0x20
def LPn_LINK_STS (p : Nat) : Nat := portBase p + 0x28
def LPn_LINK_CNT (p : Nat) : Nat := portBase p + 0x30
def LPn_PEER (p : Nat) : Nat := portBase p + 0x38
def LPn_PEER_BUF (p : Nat) (i : Nat) : Nat := portBase p + 0x40 + 0x8 * i
def LPn_LANE_STS (p : Nat) : Nat := portBase p + 0x50
def LPn_SLOT_CAP (p : Nat) : Nat := portBase p + 0x60
def LPn_SLOT_CTL (p : Nat) : Nat := portBase p + 0x68
def LPn_SLOT_STS (p : Nat) : Nat := portBase p + 0x70
def LPn_LANE_CNT (p : Nat) (k : Nat) : Nat := portBase p + 0x100 + 0x8 * k
def LPn_GRACE (p : Nat) : Nat := portBase p + 0x1000
def LPn_PROTO_CFG (p : Nat) : Nat := portBase p + 0x1008
def LPn_VC_ENV (p : Nat) (i : Nat) : Nat := portBase p + 0x1010 + 0x8 * i
def LPn_BALLAST (p : Nat) (i : Nat) : Nat := portBase p + 0x1020 + 0x8 * i
def LPn_RTT (p : Nat) : Nat := portBase p + 0x1030
def LPn_REARM (p : Nat) : Nat := portBase p + 0x1038
def LPn_REPLAY_STS (p : Nat) : Nat := portBase p + 0x1040
def LPn_FC_STS (p : Nat) : Nat := portBase p + 0x1048
def LPn_OUTAGE_STS (p : Nat) : Nat := portBase p + 0x1050
def LPn_FLUSH_ADDR (p : Nat) : Nat := portBase p + 0x1058
def LPn_CFG_CMD (p : Nat) : Nat := portBase p + 0x1060
def LPn_CFG_DATA (p : Nat) : Nat := portBase p + 0x1068
def LPn_SB (p : Nat) : Nat := portBase p + 0x1070
def LPn_PERR_STS (p : Nat) : Nat := portBase p + 0x1078
def LPn_ENV_ERRVEC (p : Nat) (e : Nat) : Nat := portBase p + 0x4000 + 0x8 * e
def ICU_CTL : Nat := 0xF00000
def ICU_ENSTAT : Nat := 0xF00008
def ICU_TGT_STS : Nat := 0xF00010
def ICU_STS : Nat := 0xF00018
def ICU_SWI : Nat := 0xF00020
def ICU_CLAIM (c : Nat) : Nat := 0xF00100 + 0x10 * c
def ICU_COMPLETE (c : Nat) : Nat := 0xF00108 + 0x10 * c
def ICU_SRC_CFG (s : Nat) : Nat := 0xF10000 + 0x8 * s
def ICU_SRC_STS (s : Nat) : Nat := 0xF20000 + 0x8 * s
def HEP_FN_CLAIM (f : Nat) : Nat := fnPage f + 0x1008
def GDC_CTL : Nat := 0x1400000
def GDC_ENSTAT : Nat := 0x1400008
def GDC_STS : Nat := 0x1400010
def GDC_LOAD_CTL : Nat := 0x1400020
def GDC_LOAD_ADDR : Nat := 0x1400028
def GDC_LOAD_DATA : Nat := 0x1400030
def GDC_CORE_CTL (c : Nat) : Nat := 0x1401000 + 0x40 * c
def GDC_CORE_BOOT (c : Nat) : Nat := 0x1401008 + 0x40 * c
def GDC_CORE_STS (c : Nat) : Nat := 0x1401010 + 0x40 * c
def HBM_CTL : Nat := 0x1100000
def HBM_ENSTAT : Nat := 0x1100008
def HBM_STS : Nat := 0x1100010
def HBM_SHARE : Nat := 0x1100018
def HBM_SR_CFG : Nat := 0x1100020
def HBM_SCRUB_CFG : Nat := 0x1100028
def HBM_ECC_STS : Nat := 0x1100030
def HBM_PM_STS : Nat := 0x1100038
def HBM_PART (k : Nat) : Nat := 0x1100100 + 0x8 * (k - 1)
def HBM_PC_STS (p : Nat) : Nat := 0x1100200 + 0x8 * p
def HBM_REPAIR_LOG (i : Nat) : Nat := 0x1100400 + 0x8 * i
def FLT_STATUS (b : Nat) : Nat := b + 0xF000
def FLT_FIRST (b : Nat) : Nat := b + 0xF008
def FLT_FIRST_TIME (b : Nat) : Nat := b + 0xF010
def FLT_FIRST_INFO (b : Nat) : Nat := b + 0xF018
def FLT_OVF (b : Nat) : Nat := b + 0xF020
def FLT_ACK (b : Nat) : Nat := b + 0xF028
def FLT_GRACE (b : Nat) : Nat := b + 0xF030
def FLT_QUIET (b : Nat) : Nat := b + 0xF040
def FLT_RECOV (b : Nat) : Nat := b + 0xF048
def FLT_SELFTEST (b : Nat) : Nat := b + 0xF050
def FLT_ENSTAT (b : Nat) : Nat := b + 0xF058
def FLT_SRC_CFG (b : Nat) (n : Nat) : Nat := b + 0xF100 + 0x8 * n
def FLT_SRC_CNT (b : Nat) (n : Nat) : Nat := b + 0xF800 + 0x8 * n
def PRL_CTL : Nat := 0xE00000
def PRL_PAIR_STS : Nat := 0xE02000
def PRL_HB : Nat := 0xE02008
def PRL_MIRROR : Nat := 0xE02010
def PRL_HOME (i : Nat) : Nat := 0xE02100 + 0x8 * i
def PRL_OWN (i : Nat) : Nat := 0xE02180 + 0x8 * i
def PRL_TAKE_VEC (e : Nat) : Nat := 0xE04000 + 0x8 * e
/-- Word `j` of entry `i` of the posted-error ring of port `p` (Table 18.10). -/
def LPn_PERR_RING (p i j : Nat) : Nat := portBase p + 0x2000 + 0x20 * i + 8 * j
end R

namespace F
def PWR_CTL_ENABLE : Field := ⟨R.PWR_CTL, 0, 1⟩
def PWR_CTL_LSW_RATIO : Field := ⟨R.PWR_CTL, 2, 2⟩
def PWR_LSW_HOLD_HOLD_US : Field := ⟨R.PWR_LSW_HOLD, 0, 6⟩
def PWR_DROOP_CFG_TH1 : Field := ⟨R.PWR_DROOP_CFG, 0, 6⟩
def PWR_DROOP_CFG_TH2 : Field := ⟨R.PWR_DROOP_CFG, 8, 6⟩
def PWR_DROOP_CFG_HYST : Field := ⟨R.PWR_DROOP_CFG, 16, 4⟩
def PWR_DROOP_CFG_HOLD : Field := ⟨R.PWR_DROOP_CFG, 24, 8⟩
def PWR_STRETCH_STS_RATIO : Field := ⟨R.PWR_STRETCH_STS, 0, 2⟩
def PWR_STRETCH_STS_DROOP : Field := ⟨R.PWR_STRETCH_STS, 2, 1⟩
def PWR_STRETCH_STS_LSW : Field := ⟨R.PWR_STRETCH_STS, 3, 1⟩
def PWR_STRETCH_STS_FREEZE : Field := ⟨R.PWR_STRETCH_STS, 4, 1⟩
def PWR_STRETCH_STS_DROOP_CNT : Field := ⟨R.PWR_STRETCH_STS, 16, 16⟩
def PWR_STRETCH_STS_LSW_CNT : Field := ⟨R.PWR_STRETCH_STS, 32, 16⟩
def PWR_STRETCH_STS_RAMP_CNT : Field := ⟨R.PWR_STRETCH_STS, 48, 16⟩
def PWR_RAMP_CFG_LIMIT : Field := ⟨R.PWR_RAMP_CFG, 0, 4⟩
def PWR_THERM_TJ : Field := ⟨R.PWR_THERM, 0, 8⟩
def PWR_THERM_LIMIT : Field := ⟨R.PWR_THERM, 8, 8⟩
def PWR_THERM_THERM : Field := ⟨R.PWR_THERM, 16, 1⟩
def PWR_MON_AVG_MW (n : Nat) : Field := ⟨(R.PWR_MON n), 0, 20⟩
def PWR_MON_ENERGY_UJ (n : Nat) : Field := ⟨(R.PWR_MON n), 20, 44⟩
def CLK_CFG_CORE_DIV : Field := ⟨R.CLK_CFG, 0, 4⟩
def CLK_CFG_GC_DIV : Field := ⟨R.CLK_CFG, 4, 4⟩
def CLK_CFG_HBM_DIV : Field := ⟨R.CLK_CFG, 8, 4⟩
def CLK_CFG_TIME_DIV : Field := ⟨R.CLK_CFG, 12, 4⟩
def CLK_CFG_ROOT_MUL : Field := ⟨R.CLK_CFG, 16, 7⟩
def CLK_STS_ROOT_LOCK : Field := ⟨R.CLK_STS, 0, 1⟩
def CLK_STS_SYS_CLK_OK : Field := ⟨R.CLK_STS, 1, 1⟩
def CLK_STS_H_REFCLK_OK : Field := ⟨R.CLK_STS, 2, 1⟩
def CLK_STS_LP_REFCLK_OK : Field := ⟨R.CLK_STS, 3, 1⟩
def CLK_STS_TT_OSC_OK : Field := ⟨R.CLK_STS, 4, 1⟩
def CLK_STS_LOCK_LOSS_CNT : Field := ⟨R.CLK_STS, 8, 8⟩
def TTH_CTL_AUTO_ON : Field := ⟨R.TTH_CTL, 0, 1⟩
def TTH_CTL_HOST_WAKE : Field := ⟨R.TTH_CTL, 1, 1⟩
def TTH_CTL_DEBOUNCE_MS : Field := ⟨R.TTH_CTL, 8, 8⟩
def TTH_STS_MAIN_ON : Field := ⟨R.TTH_STS, 0, 1⟩
def TTH_STS_PGOOD : Field := ⟨R.TTH_STS, 1, 1⟩
def TTH_STS_POWER_LOSS : Field := ⟨R.TTH_STS, 2, 1⟩
def TTH_STS_OSC_OK : Field := ⟨R.TTH_STS, 3, 1⟩
def TTH_STS_LAST_CAUSE : Field := ⟨R.TTH_STS, 8, 8⟩
def TTH_STS_CYCLES : Field := ⟨R.TTH_STS, 16, 16⟩
def TTH_STS_CONFIG : Field := ⟨R.TTH_STS, 32, 3⟩
def TTH_STS_CONFIG_VALID : Field := ⟨R.TTH_STS, 35, 1⟩
def TTH_WAKE_EN_TT_WAKE : Field := ⟨R.TTH_WAKE_EN, 0, 8⟩
def TTH_WAKE_EN_TT_POL : Field := ⟨R.TTH_WAKE_EN, 8, 8⟩
def TTH_WAKE_EN_PRSNT : Field := ⟨R.TTH_WAKE_EN, 16, 6⟩
def TTH_WAKE_EN_ATTN : Field := ⟨R.TTH_WAKE_EN, 24, 6⟩
def TTH_WAKE_EN_ICU : Field := ⟨R.TTH_WAKE_EN, 32, 1⟩
def TTH_WAKE_STS_TT_WAKE : Field := ⟨R.TTH_WAKE_STS, 0, 8⟩
def TTH_WAKE_STS_PRSNT : Field := ⟨R.TTH_WAKE_STS, 16, 6⟩
def TTH_WAKE_STS_ATTN : Field := ⟨R.TTH_WAKE_STS, 24, 6⟩
def TTH_WAKE_STS_ICU : Field := ⟨R.TTH_WAKE_STS, 32, 1⟩
def TTH_WAKE_STS_PERST : Field := ⟨R.TTH_WAKE_STS, 33, 1⟩
def TTH_WAKE_ICU_SOURCE (n : Nat) : Field := ⟨(R.TTH_WAKE_ICU n), 0, 10⟩
def TTH_WAKE_ICU_VALID (n : Nat) : Field := ⟨(R.TTH_WAKE_ICU n), 63, 1⟩
def IMG_CTL_COPY : Field := ⟨R.IMG_CTL, 0, 1⟩
def IMG_CTL_OP : Field := ⟨R.IMG_CTL, 8, 2⟩
def IMG_STS_BOOTED : Field := ⟨R.IMG_STS, 0, 2⟩
def IMG_STS_BUSY : Field := ⟨R.IMG_STS, 2, 1⟩
def IMG_STS_OP_FAIL : Field := ⟨R.IMG_STS, 3, 1⟩
def IMG_STS_FW_DONE : Field := ⟨R.IMG_STS, 4, 1⟩
def IMG_STS_FW_ERR : Field := ⟨R.IMG_STS, 5, 1⟩
def IMG_STS_RECOVERY : Field := ⟨R.IMG_STS, 6, 1⟩
def IMG_STS_OTHER_OK : Field := ⟨R.IMG_STS, 7, 1⟩
def IMG_STS_REASON_A : Field := ⟨R.IMG_STS, 8, 8⟩
def IMG_STS_REASON_B : Field := ⟨R.IMG_STS, 16, 8⟩
def IMG_STS_OP_REASON : Field := ⟨R.IMG_STS, 24, 8⟩
def IMG_ADDR_ADDR : Field := ⟨R.IMG_ADDR, 0, 26⟩
def IMG_LEN_LEN : Field := ⟨R.IMG_LEN, 0, 13⟩
def IMG_BUF_DATA (n : Nat) : Field := ⟨(R.IMG_BUF n), 0, 64⟩
def DEV_ENSTAT_REASON : Field := ⟨R.DEV_ENSTAT, 0, 8⟩
def DEV_ENSTAT_OBJECT : Field := ⟨R.DEV_ENSTAT, 8, 24⟩
def DEV_ENSTAT_REG : Field := ⟨R.DEV_ENSTAT, 32, 26⟩
def DEV_ENSTAT_BUSY : Field := ⟨R.DEV_ENSTAT, 62, 1⟩
def DEV_ENSTAT_REFUSED : Field := ⟨R.DEV_ENSTAT, 63, 1⟩
def DEV_CTL_ENABLE : Field := ⟨R.DEV_CTL, 0, 1⟩
def DEV_CTL_QUIESCE : Field := ⟨R.DEV_CTL, 1, 1⟩
def DEV_CTL_SLEEP : Field := ⟨R.DEV_CTL, 2, 1⟩
def DEV_CTL_D3COLD_SLEEP : Field := ⟨R.DEV_CTL, 3, 1⟩
def DEV_CTL_FORCE_SAFE : Field := ⟨R.DEV_CTL, 4, 1⟩
def DEV_MODE_MODE : Field := ⟨R.DEV_MODE, 0, 3⟩
def DEV_MODE_PREV : Field := ⟨R.DEV_MODE, 4, 3⟩
def DEV_MODE_CAUSE : Field := ⟨R.DEV_MODE, 8, 8⟩
def DEV_MODE_ENTRY_TIME : Field := ⟨R.DEV_MODE, 16, 48⟩
def DEV_STS_DRAINED : Field := ⟨R.DEV_STS, 0, 1⟩
def DEV_STS_D3HOT : Field := ⟨R.DEV_STS, 1, 1⟩
def DEV_STS_IMAGE_OK : Field := ⟨R.DEV_STS, 2, 1⟩
def DEV_STS_HBM_OK : Field := ⟨R.DEV_STS, 3, 1⟩
def DEV_STS_QCAUSE : Field := ⟨R.DEV_STS, 8, 3⟩
def DEV_STS_SAFE_SRC : Field := ⟨R.DEV_STS, 16, 8⟩
def DEV_TIME_TICKS : Field := ⟨R.DEV_TIME, 0, 64⟩
def DEV_FAULT_MAP_CORE : Field := ⟨R.DEV_FAULT_MAP, 0, 8⟩
def DEV_FAULT_MAP_LP : Field := ⟨R.DEV_FAULT_MAP, 8, 6⟩
def DEV_FAULT_MAP_OTHER : Field := ⟨R.DEV_FAULT_MAP, 14, 5⟩
def DEV_ERRPIN_LEVEL_LEVEL : Field := ⟨R.DEV_ERRPIN_LEVEL, 0, 3⟩
def DEV_MANIFEST_BASE : Field := ⟨R.DEV_MANIFEST, 0, 26⟩
def DEV_MANIFEST_SIZE : Field := ⟨R.DEV_MANIFEST, 32, 17⟩
def HEP_FN_ENV_ENV (f : Nat) : Field := ⟨(R.HEP_FN_ENV f), 0, 10⟩
def HEP_FN_ENV_VALID (f : Nat) : Field := ⟨(R.HEP_FN_ENV f), 10, 1⟩
def HEP_FN_ENV_MODE (f : Nat) : Field := ⟨(R.HEP_FN_ENV f), 16, 3⟩
def HEP_FN_FAULT_ENV_VIOL (f : Nat) : Field := ⟨(R.HEP_FN_FAULT f), 0, 1⟩
def HEP_FN_FAULT_DB_DROP (f : Nat) : Field := ⟨(R.HEP_FN_FAULT f), 1, 1⟩
def HEP_FN_FAULT_XLATE (f : Nat) : Field := ⟨(R.HEP_FN_FAULT f), 2, 1⟩
def HEP_FN_FAULT_POSTED_ERR (f : Nat) : Field := ⟨(R.HEP_FN_FAULT f), 3, 1⟩
def HEP_FN_FAULT_PORT_DOWN (f : Nat) : Field := ⟨(R.HEP_FN_FAULT f), 4, 1⟩
def HEP_FN_FAULT_DROP_CNT (f : Nat) : Field := ⟨(R.HEP_FN_FAULT f), 16, 16⟩
def HEP_CTL_ENABLE : Field := ⟨R.HEP_CTL, 0, 1⟩
def HEP_CTL_RETRAIN : Field := ⟨R.HEP_CTL, 1, 1⟩
def HEP_ENSTAT_REASON : Field := ⟨R.HEP_ENSTAT, 0, 8⟩
def HEP_ENSTAT_OBJECT : Field := ⟨R.HEP_ENSTAT, 8, 24⟩
def HEP_ENSTAT_REG : Field := ⟨R.HEP_ENSTAT, 32, 26⟩
def HEP_ENSTAT_BUSY : Field := ⟨R.HEP_ENSTAT, 62, 1⟩
def HEP_ENSTAT_REFUSED : Field := ⟨R.HEP_ENSTAT, 63, 1⟩
def HEP_LINK_CTL_MAX_SPEED : Field := ⟨R.HEP_LINK_CTL, 0, 3⟩
def HEP_LINK_CTL_MAX_WIDTH : Field := ⟨R.HEP_LINK_CTL, 8, 5⟩
def HEP_LINK_STS_SPEED : Field := ⟨R.HEP_LINK_STS, 0, 3⟩
def HEP_LINK_STS_WIDTH : Field := ⟨R.HEP_LINK_STS, 8, 5⟩
def HEP_LINK_STS_FLIT : Field := ⟨R.HEP_LINK_STS, 13, 1⟩
def HEP_LINK_STS_UP : Field := ⟨R.HEP_LINK_STS, 14, 1⟩
def HEP_LINK_STS_PSTATE : Field := ⟨R.HEP_LINK_STS, 16, 2⟩
def HEP_LINK_STS_DOWN_CNT : Field := ⟨R.HEP_LINK_STS, 24, 8⟩
def HEP_LINK_STS_RETRAIN_CNT : Field := ⟨R.HEP_LINK_STS, 32, 16⟩
def HEP_PM_CFG_L0P_EN : Field := ⟨R.HEP_PM_CFG, 0, 1⟩
def HEP_PM_CFG_L0P_MIN_WIDTH : Field := ⟨R.HEP_PM_CFG, 8, 5⟩
def HEP_PM_CFG_LTR_IDLE_US : Field := ⟨R.HEP_PM_CFG, 16, 16⟩
def HEP_PM_CFG_LTR_ACTIVE_US : Field := ⟨R.HEP_PM_CFG, 32, 16⟩
def HEP_FN_STS_PRESENT (n : Nat) : Field := ⟨(R.HEP_FN_STS n), 0, 1⟩
def HEP_FN_STS_BME (n : Nat) : Field := ⟨(R.HEP_FN_STS n), 1, 1⟩
def HEP_FN_STS_MEM (n : Nat) : Field := ⟨(R.HEP_FN_STS n), 2, 1⟩
def HEP_FN_STS_DSTATE (n : Nat) : Field := ⟨(R.HEP_FN_STS n), 3, 2⟩
def HEP_FN_STS_MSIX_EN (n : Nat) : Field := ⟨(R.HEP_FN_STS n), 5, 1⟩
def HEP_FN_STS_MSIX_MASK (n : Nat) : Field := ⟨(R.HEP_FN_STS n), 6, 1⟩
def HEP_FN_STS_MSI_EN (n : Nat) : Field := ⟨(R.HEP_FN_STS n), 7, 1⟩
def HEP_FN_STS_FLR (n : Nat) : Field := ⟨(R.HEP_FN_STS n), 8, 1⟩
def HEP_FN_STS_ATS_EN (n : Nat) : Field := ⟨(R.HEP_FN_STS n), 9, 1⟩
def HEP_FN_STS_PASID_EN (n : Nat) : Field := ⟨(R.HEP_FN_STS n), 10, 1⟩
def HEP_FN_STS_ENV (n : Nat) : Field := ⟨(R.HEP_FN_STS n), 16, 10⟩
def HEP_FN_STS_ENV_VALID (n : Nat) : Field := ⟨(R.HEP_FN_STS n), 26, 1⟩
def HEP_FN_STS_MSIX_BASE (n : Nat) : Field := ⟨(R.HEP_FN_STS n), 32, 16⟩
def HEP_FN_STS_MSIX_SIZE (n : Nat) : Field := ⟨(R.HEP_FN_STS n), 48, 12⟩
def HEP_TAG_STS_OUTSTANDING : Field := ⟨R.HEP_TAG_STS, 0, 14⟩
def HEP_TAG_STS_QUARANTINED : Field := ⟨R.HEP_TAG_STS, 16, 14⟩
def HEP_TAG_STS_PEAK : Field := ⟨R.HEP_TAG_STS, 32, 14⟩
def HEP_TAG_STS_STALL_CNT : Field := ⟨R.HEP_TAG_STS, 48, 16⟩
def HEP_LATE_CPL_LATE : Field := ⟨R.HEP_LATE_CPL, 0, 32⟩
def HEP_LATE_CPL_DISCARD : Field := ⟨R.HEP_LATE_CPL, 32, 16⟩
def HEP_LATE_CPL_LAST_FN : Field := ⟨R.HEP_LATE_CPL, 48, 11⟩
def HEP_CTO_LOG_COUNT : Field := ⟨R.HEP_CTO_LOG, 0, 32⟩
def HEP_CTO_LOG_LAST_FN : Field := ⟨R.HEP_CTO_LOG, 32, 11⟩
def HEP_CTO_LOG_LAST_TAG : Field := ⟨R.HEP_CTO_LOG, 48, 14⟩
def HEP_FLR_LOG_LAST_FN : Field := ⟨R.HEP_FLR_LOG, 0, 11⟩
def HEP_FLR_LOG_DURATION_US : Field := ⟨R.HEP_FLR_LOG, 16, 16⟩
def HEP_FLR_LOG_ABORTED : Field := ⟨R.HEP_FLR_LOG, 32, 16⟩
def HEP_FLR_LOG_DISCARDED : Field := ⟨R.HEP_FLR_LOG, 48, 16⟩
def HEP_LINKLOSS_LAST_TIMEOUT : Field := ⟨R.HEP_LINKLOSS, 0, 14⟩
def HEP_LINKLOSS_LAST_TIME : Field := ⟨R.HEP_LINKLOSS, 16, 48⟩
def HEP_AER_MAP_CORR_EN : Field := ⟨R.HEP_AER_MAP, 0, 1⟩
def HEP_AER_MAP_DEG_EN : Field := ⟨R.HEP_AER_MAP, 1, 1⟩
def HEP_AER_MAP_UNC_EN : Field := ⟨R.HEP_AER_MAP, 2, 1⟩
def HEP_AER_MAP_FATAL_EN : Field := ⟨R.HEP_AER_MAP, 3, 1⟩
def HEP_AER_MAP_ENV_FN : Field := ⟨R.HEP_AER_MAP, 4, 1⟩
def WXL_CTL_ENABLE : Field := ⟨R.WXL_CTL, 0, 1⟩
def WXL_CTL_PF_EN : Field := ⟨R.WXL_CTL, 1, 1⟩
def WXL_CTL_PC_EN : Field := ⟨R.WXL_CTL, 2, 1⟩
def WXL_CTL_ATC_WAYS : Field := ⟨R.WXL_CTL, 4, 3⟩
def WXL_ENSTAT_REASON : Field := ⟨R.WXL_ENSTAT, 0, 8⟩
def WXL_ENSTAT_OBJECT : Field := ⟨R.WXL_ENSTAT, 8, 24⟩
def WXL_ENSTAT_REG : Field := ⟨R.WXL_ENSTAT, 32, 26⟩
def WXL_ENSTAT_BUSY : Field := ⟨R.WXL_ENSTAT, 62, 1⟩
def WXL_ENSTAT_REFUSED : Field := ⟨R.WXL_ENSTAT, 63, 1⟩
def WXL_TBL_BASE_BASE : Field := ⟨R.WXL_TBL_BASE, 16, 18⟩
def WXL_TBL_SIZE_ENTRIES : Field := ⟨R.WXL_TBL_SIZE, 0, 29⟩
def WXL_TC_INV_FIRST : Field := ⟨R.WXL_TC_INV, 0, 28⟩
def WXL_TC_INV_COUNT : Field := ⟨R.WXL_TC_INV, 32, 28⟩
def WXL_TC_INV_GO : Field := ⟨R.WXL_TC_INV, 63, 1⟩
def WXL_TC_STS_LOOKUPS : Field := ⟨R.WXL_TC_STS, 0, 32⟩
def WXL_TC_STS_MISSES : Field := ⟨R.WXL_TC_STS, 32, 24⟩
def WXL_TC_STS_WAYS_RETIRED : Field := ⟨R.WXL_TC_STS, 56, 4⟩
def WXL_PF_CFG_TRAIN : Field := ⟨R.WXL_PF_CFG, 0, 8⟩
def WXL_PF_CFG_DEPTH : Field := ⟨R.WXL_PF_CFG, 8, 4⟩
def WXL_PF_CFG_LIFE_US : Field := ⟨R.WXL_PF_CFG, 16, 8⟩
def WXL_PF_CFG_MISS_LIMIT : Field := ⟨R.WXL_PF_CFG, 24, 8⟩
def WXL_PF_STS_ISSUED : Field := ⟨R.WXL_PF_STS, 0, 24⟩
def WXL_PF_STS_HITS : Field := ⟨R.WXL_PF_STS, 24, 24⟩
def WXL_PF_STS_UNUSED : Field := ⟨R.WXL_PF_STS, 48, 16⟩
def WXL_PC_CFG_MODE : Field := ⟨R.WXL_PC_CFG, 0, 2⟩
def WXL_PC_CFG_PINNED_64M : Field := ⟨R.WXL_PC_CFG, 16, 8⟩
def WXL_PC_STS_HITS : Field := ⟨R.WXL_PC_STS, 0, 24⟩
def WXL_PC_STS_MISSES : Field := ⟨R.WXL_PC_STS, 24, 24⟩
def WXL_PC_STS_DIRTY_LOST : Field := ⟨R.WXL_PC_STS, 48, 16⟩
def WXL_PC_FLUSH_ENV : Field := ⟨R.WXL_PC_FLUSH, 0, 10⟩
def WXL_PC_FLUSH_ALL : Field := ⟨R.WXL_PC_FLUSH, 10, 1⟩
def WXL_PC_FLUSH_OP : Field := ⟨R.WXL_PC_FLUSH, 11, 2⟩
def WXL_PC_FLUSH_GO : Field := ⟨R.WXL_PC_FLUSH, 63, 1⟩
def WXL_SEDISCARD_LOG_DA (i : Nat) : Field := ⟨(R.WXL_SEDISCARD_LOG i), 0, 48⟩
def WXL_SEDISCARD_LOG_ENV (i : Nat) : Field := ⟨(R.WXL_SEDISCARD_LOG i), 48, 10⟩
def WXL_SEDISCARD_LOG_VALID (i : Nat) : Field := ⟨(R.WXL_SEDISCARD_LOG i), 63, 1⟩
def WXL_SEDISCARD_STS_NEXT : Field := ⟨R.WXL_SEDISCARD_STS, 0, 4⟩
def WXL_SEDISCARD_STS_CLEAR : Field := ⟨R.WXL_SEDISCARD_STS, 4, 1⟩
def WXL_SEDISCARD_STS_COUNT : Field := ⟨R.WXL_SEDISCARD_STS, 16, 16⟩
def WXL_MIG_STS_ACTIVE : Field := ⟨R.WXL_MIG_STS, 0, 5⟩
def WXL_MIG_STS_HOLD_US_MAX : Field := ⟨R.WXL_MIG_STS, 8, 24⟩
def WXL_MIG_STS_PAGES : Field := ⟨R.WXL_MIG_STS, 32, 32⟩
def WXL_IWIN_CTL_ENABLE (w : Nat) : Field := ⟨(R.WXL_IWIN_CTL w), 0, 1⟩
def WXL_IWIN_CTL_MODE (w : Nat) : Field := ⟨(R.WXL_IWIN_CTL w), 1, 2⟩
def WXL_IWIN_CTL_PREF (w : Nat) : Field := ⟨(R.WXL_IWIN_CTL w), 3, 1⟩
def WXL_IWIN_CTL_PF (w : Nat) : Field := ⟨(R.WXL_IWIN_CTL w), 4, 1⟩
def WXL_IWIN_CTL_SE (w : Nat) : Field := ⟨(R.WXL_IWIN_CTL w), 5, 1⟩
def WXL_IWIN_CTL_HC (w : Nat) : Field := ⟨(R.WXL_IWIN_CTL w), 6, 1⟩
def WXL_IWIN_CTL_R (w : Nat) : Field := ⟨(R.WXL_IWIN_CTL w), 7, 1⟩
def WXL_IWIN_CTL_W (w : Nat) : Field := ⟨(R.WXL_IWIN_CTL w), 8, 1⟩
def WXL_IWIN_CTL_LOG2 (w : Nat) : Field := ⟨(R.WXL_IWIN_CTL w), 16, 6⟩
def WXL_IWIN_CTL_TRAINED (w : Nat) : Field := ⟨(R.WXL_IWIN_CTL w), 24, 8⟩
def WXL_IWIN_CTL_PRED (w : Nat) : Field := ⟨(R.WXL_IWIN_CTL w), 32, 1⟩
def WXL_IWIN_BASE_INDEX (w : Nat) : Field := ⟨(R.WXL_IWIN_BASE w), 0, 28⟩
def WXL_IWIN_BASE_BASE (w : Nat) : Field := ⟨(R.WXL_IWIN_BASE w), 16, 32⟩
def WXL_OWIN_CTL_ENABLE (m : Nat) : Field := ⟨(R.WXL_OWIN_CTL m), 0, 1⟩
def WXL_OWIN_CTL_PASID_EN (m : Nat) : Field := ⟨(R.WXL_OWIN_CTL m), 1, 1⟩
def WXL_OWIN_CTL_AT (m : Nat) : Field := ⟨(R.WXL_OWIN_CTL m), 2, 1⟩
def WXL_OWIN_CTL_R (m : Nat) : Field := ⟨(R.WXL_OWIN_CTL m), 3, 1⟩
def WXL_OWIN_CTL_W (m : Nat) : Field := ⟨(R.WXL_OWIN_CTL m), 4, 1⟩
def WXL_OWIN_CTL_FN (m : Nat) : Field := ⟨(R.WXL_OWIN_CTL m), 16, 11⟩
def WXL_OWIN_CTL_PASID (m : Nat) : Field := ⟨(R.WXL_OWIN_CTL m), 32, 20⟩
def WXL_OWIN_DA_LOG2 (m : Nat) : Field := ⟨(R.WXL_OWIN_DA m), 0, 6⟩
def WXL_OWIN_DA_BASE (m : Nat) : Field := ⟨(R.WXL_OWIN_DA m), 12, 32⟩
def WXL_OWIN_HOST_BASE (m : Nat) : Field := ⟨(R.WXL_OWIN_HOST m), 12, 52⟩
def WXL_ERNG_CTL_ENABLE (g : Nat) : Field := ⟨(R.WXL_ERNG_CTL g), 0, 1⟩
def WXL_ERNG_CTL_R (g : Nat) : Field := ⟨(R.WXL_ERNG_CTL g), 1, 1⟩
def WXL_ERNG_CTL_W (g : Nat) : Field := ⟨(R.WXL_ERNG_CTL g), 2, 1⟩
def WXL_ERNG_CTL_HC (g : Nat) : Field := ⟨(R.WXL_ERNG_CTL g), 3, 1⟩
def WXL_ERNG_CTL_ENV (g : Nat) : Field := ⟨(R.WXL_ERNG_CTL g), 16, 10⟩
def WXL_ERNG_CTL_LOG2 (g : Nat) : Field := ⟨(R.WXL_ERNG_CTL g), 32, 6⟩
def WXL_ERNG_BASE_BASE (g : Nat) : Field := ⟨(R.WXL_ERNG_BASE g), 16, 32⟩
def QEN_CTL_ENABLE : Field := ⟨R.QEN_CTL, 0, 1⟩
def QEN_ENSTAT_REASON : Field := ⟨R.QEN_ENSTAT, 0, 8⟩
def QEN_ENSTAT_OBJECT : Field := ⟨R.QEN_ENSTAT, 8, 24⟩
def QEN_ENSTAT_REG : Field := ⟨R.QEN_ENSTAT, 32, 26⟩
def QEN_ENSTAT_BUSY : Field := ⟨R.QEN_ENSTAT, 62, 1⟩
def QEN_ENSTAT_REFUSED : Field := ⟨R.QEN_ENSTAT, 63, 1⟩
def QEN_CTX_BASE_SIZE_64M : Field := ⟨R.QEN_CTX_BASE, 0, 8⟩
def QEN_CTX_BASE_BASE : Field := ⟨R.QEN_CTX_BASE, 29, 5⟩
def QEN_CC_CFG_PROTECT_US : Field := ⟨R.QEN_CC_CFG, 0, 8⟩
def QEN_CC_STS_HITS : Field := ⟨R.QEN_CC_STS, 0, 32⟩
def QEN_CC_STS_MISSES : Field := ⟨R.QEN_CC_STS, 32, 24⟩
def QEN_CC_STS_WAYS_RETIRED : Field := ⟨R.QEN_CC_STS, 56, 5⟩
def QEN_DB_STS_ACCEPTED : Field := ⟨R.QEN_DB_STS, 0, 32⟩
def QEN_DB_STS_LAST_DROP_Q : Field := ⟨R.QEN_DB_STS, 32, 22⟩
def QEN_DB_DROP_ENV : Field := ⟨R.QEN_DB_DROP, 0, 16⟩
def QEN_DB_DROP_STATE : Field := ⟨R.QEN_DB_DROP, 16, 16⟩
def QEN_DB_DROP_RANGE : Field := ⟨R.QEN_DB_DROP, 32, 16⟩
def QEN_DB_DROP_DRAINING : Field := ⟨R.QEN_DB_DROP, 48, 16⟩
def QEN_STS_ENABLED : Field := ⟨R.QEN_STS, 0, 23⟩
def QEN_STS_PIN_WAIT : Field := ⟨R.QEN_STS, 32, 16⟩
def QEN_STS_CQ_FULL_WAIT : Field := ⟨R.QEN_STS, 48, 16⟩
def QEN_QCMD_QUEUE (k : Nat) : Field := ⟨(R.QEN_QCMD k), 0, 22⟩
def QEN_QCMD_OP (k : Nat) : Field := ⟨(R.QEN_QCMD k), 32, 4⟩
def QEN_QCMD_STS_BUSY (k : Nat) : Field := ⟨(R.QEN_QCMD_STS k), 0, 1⟩
def QEN_QCMD_STS_RESULT (k : Nat) : Field := ⟨(R.QEN_QCMD_STS k), 4, 4⟩
def QEN_QCMD_STS_REASON (k : Nat) : Field := ⟨(R.QEN_QCMD_STS k), 8, 8⟩
def QEN_QCMD_STS_STATE (k : Nat) : Field := ⟨(R.QEN_QCMD_STS k), 16, 3⟩
def QEN_QCMD_STS_GEN (k : Nat) : Field := ⟨(R.QEN_QCMD_STS k), 32, 16⟩
def QEN_QBUF_DATA (k : Nat) (j : Nat) : Field := ⟨(R.QEN_QBUF k j), 0, 64⟩
def QEN_MOVER_STS_PIPES : Field := ⟨R.QEN_MOVER_STS, 0, 5⟩
def QEN_MOVER_STS_REEXEC : Field := ⟨R.QEN_MOVER_STS, 8, 24⟩
def QEN_MOVER_STS_MALFORMED_CNT : Field := ⟨R.QEN_MOVER_STS, 32, 16⟩
def QEN_MOVER_STS_STATE_CNT : Field := ⟨R.QEN_MOVER_STS, 48, 16⟩
def SPL_CTL_ENABLE : Field := ⟨R.SPL_CTL, 0, 1⟩
def SPL_CTL_SPARE_EN : Field := ⟨R.SPL_CTL, 1, 1⟩
def SPL_CTL_CAL_FREEZE : Field := ⟨R.SPL_CTL, 2, 1⟩
def SPL_CTL_CAL_RESTART : Field := ⟨R.SPL_CTL, 3, 1⟩
def SPL_ENSTAT_REASON : Field := ⟨R.SPL_ENSTAT, 0, 8⟩
def SPL_ENSTAT_OBJECT : Field := ⟨R.SPL_ENSTAT, 8, 24⟩
def SPL_ENSTAT_REG : Field := ⟨R.SPL_ENSTAT, 32, 26⟩
def SPL_ENSTAT_BUSY : Field := ⟨R.SPL_ENSTAT, 62, 1⟩
def SPL_ENSTAT_REFUSED : Field := ⟨R.SPL_ENSTAT, 63, 1⟩
def SPL_STEP_BYTES : Field := ⟨R.SPL_STEP, 0, 19⟩
def SPL_BUDGET_MW : Field := ⟨R.SPL_BUDGET, 0, 17⟩
def SPL_CAL_STATE_STATE : Field := ⟨R.SPL_CAL_STATE, 0, 2⟩
def SPL_CAL_STATE_INTERVALS : Field := ⟨R.SPL_CAL_STATE, 2, 10⟩
def SPL_CAL_STATE_WINDOWS : Field := ⟨R.SPL_CAL_STATE, 12, 16⟩
def SPL_CAL_STATE_K : Field := ⟨R.SPL_CAL_STATE, 28, 16⟩
def SPL_CAL_STATE_BASE_MW : Field := ⟨R.SPL_CAL_STATE, 44, 20⟩
def SPL_RESIDUAL_NJ : Field := ⟨R.SPL_RESIDUAL, 0, 64⟩
def SPL_STS_LSW_DEFER : Field := ⟨R.SPL_STS, 0, 16⟩
def SPL_STS_NEG_RESID : Field := ⟨R.SPL_STS, 16, 16⟩
def SPL_STS_SPARE_REL : Field := ⟨R.SPL_STS, 32, 32⟩
def SPL_COEF_PJB (i : Nat) : Field := ⟨(R.SPL_COEF i), 0, 16⟩
def SPL_COEF_OVH (i : Nat) : Field := ⟨(R.SPL_COEF i), 16, 16⟩
def SPL_OPCOST_OP : Field := ⟨R.SPL_OPCOST, 0, 16⟩
def ENV_QBLK_ENV (k : Nat) (i : Nat) : Field := ⟨(R.ENV_QBLK k), 0 + 16 * i, 10⟩
def ENV_QBLK_VALID (k : Nat) (i : Nat) : Field := ⟨(R.ENV_QBLK k), 15 + 16 * i, 1⟩
def ENV_CFG_DEFINE (e : Nat) : Field := ⟨(R.ENV_CFG e), 0, 1⟩
def ENV_CFG_SHARE (e : Nat) : Field := ⟨(R.ENV_CFG e), 16, 10⟩
def ENV_CFG_BW_CAP (e : Nat) : Field := ⟨(R.ENV_CFG e), 32, 11⟩
def ENV_CFG_BURST_256 (e : Nat) : Field := ⟨(R.ENV_CFG e), 48, 16⟩
def ENV_CREDIT_CREDIT (e : Nat) : Field := ⟨(R.ENV_CREDIT e), 0, 32⟩
def ENV_CREDIT_BW_TOK (e : Nat) : Field := ⟨(R.ENV_CREDIT e), 32, 32⟩
def ENV_ENERGY_NJ (e : Nat) : Field := ⟨(R.ENV_ENERGY e), 0, 64⟩
def ENV_STS_NOCREDIT (e : Nat) : Field := ⟨(R.ENV_STS e), 0, 16⟩
def ENV_STS_CAPPED (e : Nat) : Field := ⟨(R.ENV_STS e), 16, 16⟩
def ENV_STS_URGENT (e : Nat) : Field := ⟨(R.ENV_STS e), 32, 16⟩
def SWC_CTL_ENABLE : Field := ⟨R.SWC_CTL, 0, 1⟩
def SWC_CTL_TAIL_EN : Field := ⟨R.SWC_CTL, 1, 1⟩
def SWC_ENSTAT_REASON : Field := ⟨R.SWC_ENSTAT, 0, 8⟩
def SWC_ENSTAT_OBJECT : Field := ⟨R.SWC_ENSTAT, 8, 24⟩
def SWC_ENSTAT_REG : Field := ⟨R.SWC_ENSTAT, 32, 26⟩
def SWC_ENSTAT_BUSY : Field := ⟨R.SWC_ENSTAT, 62, 1⟩
def SWC_ENSTAT_REFUSED : Field := ⟨R.SWC_ENSTAT, 63, 1⟩
def SWC_BUF_CFG_EVICT : Field := ⟨R.SWC_BUF_CFG, 3, 5⟩
def SWC_BUF_CFG_MC_CELLS : Field := ⟨R.SWC_BUF_CFG, 16, 14⟩
def SWC_BUF_STS_CELLS : Field := ⟨R.SWC_BUF_STS, 0, 16⟩
def SWC_BUF_STS_FREE : Field := ⟨R.SWC_BUF_STS, 16, 16⟩
def SWC_BUF_STS_RETIRED : Field := ⟨R.SWC_BUF_STS, 32, 8⟩
def SWC_BUF_STS_SPARES : Field := ⟨R.SWC_BUF_STS, 40, 4⟩
def SWC_BUF_STS_MIN_FREE : Field := ⟨R.SWC_BUF_STS, 48, 16⟩
def SWC_EVICT_STS_REQ : Field := ⟨R.SWC_EVICT_STS, 0, 32⟩
def SWC_EVICT_STS_PREFETCH : Field := ⟨R.SWC_EVICT_STS, 32, 32⟩
def SWC_MC_STS_COPIES : Field := ⟨R.SWC_MC_STS, 0, 32⟩
def SWC_MC_STS_DROPPED : Field := ⟨R.SWC_MC_STS, 32, 16⟩
def SWC_MC_STS_RESIDUE : Field := ⟨R.SWC_MC_STS, 48, 14⟩
def SWC_PORT_CFG_MIN_CELLS (p : Nat) : Field := ⟨(R.SWC_PORT_CFG p), 0, 16⟩
def SWC_PORT_CFG_ALPHA (p : Nat) : Field := ⟨(R.SWC_PORT_CFG p), 16, 3⟩
def SWC_PORT_CFG_CT_EN (p : Nat) : Field := ⟨(R.SWC_PORT_CFG p), 20, 1⟩
def SWC_PORT_CFG_PRIV_MIN (p : Nat) : Field := ⟨(R.SWC_PORT_CFG p), 24, 4⟩
def SWC_PORT_CFG_HOLD_CELLS (p : Nat) : Field := ⟨(R.SWC_PORT_CFG p), 32, 16⟩
def SWC_PORT_CFG_GHL_MS (p : Nat) : Field := ⟨(R.SWC_PORT_CFG p), 48, 16⟩
def SWC_PORT_STS_QUEUED (p : Nat) : Field := ⟨(R.SWC_PORT_STS p), 0, 16⟩
def SWC_PORT_STS_STATE (p : Nat) : Field := ⟨(R.SWC_PORT_STS p), 16, 2⟩
def SWC_PORT_STS_RATE (p : Nat) : Field := ⟨(R.SWC_PORT_STS p), 19, 13⟩
def SWC_PORT_STS_FLUSHED (p : Nat) : Field := ⟨(R.SWC_PORT_STS p), 32, 16⟩
def SWC_PORT_STS_PEAK (p : Nat) : Field := ⟨(R.SWC_PORT_STS p), 48, 16⟩
def SWC_INMAP_PCLASS (p : Nat) (v : Nat) : Field := ⟨(R.SWC_INMAP p v), 0, 3⟩
def SWC_INMAP_NPCLASS (p : Nat) (v : Nat) : Field := ⟨(R.SWC_INMAP p v), 4, 3⟩
def SWC_OUTMAP_VC (p : Nat) (i : Nat) : Field := ⟨(R.SWC_OUTMAP p), 0 + 4 * i, 3⟩
def SWC_TAIL_BASE_BASE : Field := ⟨R.SWC_TAIL_BASE, 0, 22⟩
def SWC_TAIL_SIZE_LOG2 : Field := ⟨R.SWC_TAIL_SIZE, 0, 5⟩
def SWC_TAIL_SIZE_WRAP : Field := ⟨R.SWC_TAIL_SIZE, 8, 1⟩
def SWC_TAIL_WR_INDEX : Field := ⟨R.SWC_TAIL_WR, 0, 22⟩
def SWC_TAIL_RD_INDEX : Field := ⟨R.SWC_TAIL_RD, 0, 22⟩
def SWC_TAIL_SEL_V (p : Nat) (i : Nat) : Field := ⟨(R.SWC_TAIL_SEL p), 0 + 4 * i, 4⟩
def SWC_TAIL_SEL_EVT (p : Nat) : Field := ⟨(R.SWC_TAIL_SEL p), 32, 1⟩
def SWC_TAIL_STS_CAPTURED : Field := ⟨R.SWC_TAIL_STS, 0, 32⟩
def SWC_TAIL_STS_LOST_FULL : Field := ⟨R.SWC_TAIL_STS, 32, 16⟩
def SWC_TAIL_STS_LOST_STAGE : Field := ⟨R.SWC_TAIL_STS, 48, 16⟩
def LPn_CTL_ENABLE (p : Nat) : Field := ⟨(R.LPn_CTL p), 0, 1⟩
def LPn_CTL_HOLD_DISABLE (p : Nat) : Field := ⟨(R.LPn_CTL p), 1, 1⟩
def LPn_ENSTAT_REASON (p : Nat) : Field := ⟨(R.LPn_ENSTAT p), 0, 8⟩
def LPn_ENSTAT_OBJECT (p : Nat) : Field := ⟨(R.LPn_ENSTAT p), 8, 24⟩
def LPn_ENSTAT_REG (p : Nat) : Field := ⟨(R.LPn_ENSTAT p), 32, 26⟩
def LPn_ENSTAT_BUSY (p : Nat) : Field := ⟨(R.LPn_ENSTAT p), 62, 1⟩
def LPn_ENSTAT_REFUSED (p : Nat) : Field := ⟨(R.LPn_ENSTAT p), 63, 1⟩
def LPn_LINK_CFG_MAX_WIDTH (p : Nat) : Field := ⟨(R.LPn_LINK_CFG p), 0, 5⟩
def LPn_LINK_CFG_TX_PRESET (p : Nat) : Field := ⟨(R.LPn_LINK_CFG p), 8, 4⟩
def LPn_LINK_CFG_EQ_EVERY (p : Nat) : Field := ⟨(R.LPn_LINK_CFG p), 12, 1⟩
def LPn_IDENT_LINK_ID (p : Nat) : Field := ⟨(R.LPn_IDENT p), 0, 16⟩
def LPn_IDENT_LOCAL_EPOCH (p : Nat) : Field := ⟨(R.LPn_IDENT p), 32, 32⟩
def LPn_LINK_CMD_OP (p : Nat) : Field := ⟨(R.LPn_LINK_CMD p), 0, 2⟩
def LPn_LINK_CMD_EQ (p : Nat) : Field := ⟨(R.LPn_LINK_CMD p), 2, 1⟩
def LPn_LINK_CMD_WIDTH (p : Nat) : Field := ⟨(R.LPn_LINK_CMD p), 8, 5⟩
def LPn_LINK_STS_STATE (p : Nat) : Field := ⟨(R.LPn_LINK_STS p), 0, 4⟩
def LPn_LINK_STS_WIDTH (p : Nat) : Field := ⟨(R.LPn_LINK_STS p), 4, 5⟩
def LPn_LINK_STS_GROUP_LANE (p : Nat) : Field := ⟨(R.LPn_LINK_STS p), 9, 4⟩
def LPn_LINK_STS_EPOCH_CHANGED (p : Nat) : Field := ⟨(R.LPn_LINK_STS p), 13, 1⟩
def LPn_LINK_STS_CMD_BUSY (p : Nat) : Field := ⟨(R.LPn_LINK_STS p), 14, 1⟩
def LPn_LINK_STS_LAST_CAUSE (p : Nat) : Field := ⟨(R.LPn_LINK_STS p), 16, 8⟩
def LPn_LINK_STS_TRAIN_RTT_NS (p : Nat) : Field := ⟨(R.LPn_LINK_STS p), 24, 16⟩
def LPn_LINK_CNT_RETRAIN (p : Nat) : Field := ⟨(R.LPn_LINK_CNT p), 0, 16⟩
def LPn_LINK_CNT_RESIZE (p : Nat) : Field := ⟨(R.LPn_LINK_CNT p), 16, 16⟩
def LPn_LINK_CNT_HOLD (p : Nat) : Field := ⟨(R.LPn_LINK_CNT p), 32, 16⟩
def LPn_LINK_CNT_TRAIN_FAIL (p : Nat) : Field := ⟨(R.LPn_LINK_CNT p), 48, 16⟩
def LPn_PEER_LINK_ID (p : Nat) : Field := ⟨(R.LPn_PEER p), 0, 16⟩
def LPn_PEER_VCS (p : Nat) : Field := ⟨(R.LPn_PEER p), 16, 3⟩
def LPn_PEER_ROLES (p : Nat) : Field := ⟨(R.LPn_PEER p), 24, 8⟩
def LPn_PEER_EPOCH (p : Nat) : Field := ⟨(R.LPn_PEER p), 32, 32⟩
def LPn_PEER_BUF_RXBUF (p : Nat) (k : Nat) (i : Nat) : Field := ⟨(R.LPn_PEER_BUF p k), 0 + 16 * i, 16⟩
def LPn_LANE_STS_RETIRED (p : Nat) : Field := ⟨(R.LPn_LANE_STS p), 0, 16⟩
def LPn_LANE_STS_DETECTED (p : Nat) : Field := ⟨(R.LPn_LANE_STS p), 16, 16⟩
def LPn_LANE_STS_TEST_LANE (p : Nat) : Field := ⟨(R.LPn_LANE_STS p), 32, 4⟩
def LPn_LANE_STS_TESTING (p : Nat) : Field := ⟨(R.LPn_LANE_STS p), 36, 1⟩
def LPn_LANE_STS_UNATTRIB (p : Nat) : Field := ⟨(R.LPn_LANE_STS p), 40, 16⟩
def LPn_SLOT_CAP_PRSNT_PIN (p : Nat) : Field := ⟨(R.LPn_SLOT_CAP p), 0, 1⟩
def LPn_SLOT_CAP_ATTN_BTN (p : Nat) : Field := ⟨(R.LPn_SLOT_CAP p), 1, 1⟩
def LPn_SLOT_CAP_PWR_CTRL (p : Nat) : Field := ⟨(R.LPn_SLOT_CAP p), 2, 1⟩
def LPn_SLOT_CAP_IND_PWR (p : Nat) : Field := ⟨(R.LPn_SLOT_CAP p), 3, 1⟩
def LPn_SLOT_CAP_IND_ATTN (p : Nat) : Field := ⟨(R.LPn_SLOT_CAP p), 4, 1⟩
def LPn_SLOT_CAP_PWR_DELAY_MS (p : Nat) : Field := ⟨(R.LPn_SLOT_CAP p), 16, 10⟩
def LPn_SLOT_CTL_PWR_ON (p : Nat) : Field := ⟨(R.LPn_SLOT_CTL p), 0, 1⟩
def LPn_SLOT_CTL_IND_PWR (p : Nat) : Field := ⟨(R.LPn_SLOT_CTL p), 2, 2⟩
def LPn_SLOT_CTL_IND_ATTN (p : Nat) : Field := ⟨(R.LPn_SLOT_CTL p), 4, 2⟩
def LPn_SLOT_CTL_AUTO (p : Nat) : Field := ⟨(R.LPn_SLOT_CTL p), 6, 1⟩
def LPn_SLOT_CTL_PRSNT_IE (p : Nat) : Field := ⟨(R.LPn_SLOT_CTL p), 8, 1⟩
def LPn_SLOT_CTL_ATTN_IE (p : Nat) : Field := ⟨(R.LPn_SLOT_CTL p), 9, 1⟩
def LPn_SLOT_CTL_PWRFLT_IE (p : Nat) : Field := ⟨(R.LPn_SLOT_CTL p), 10, 1⟩
def LPn_SLOT_CTL_PWR_DONE_IE (p : Nat) : Field := ⟨(R.LPn_SLOT_CTL p), 11, 1⟩
def LPn_SLOT_STS_PRSNT (p : Nat) : Field := ⟨(R.LPn_SLOT_STS p), 0, 1⟩
def LPn_SLOT_STS_PWR (p : Nat) : Field := ⟨(R.LPn_SLOT_STS p), 1, 1⟩
def LPn_SLOT_STS_PWRFLT (p : Nat) : Field := ⟨(R.LPn_SLOT_STS p), 2, 1⟩
def LPn_SLOT_STS_PRSNT_CHG (p : Nat) : Field := ⟨(R.LPn_SLOT_STS p), 3, 1⟩
def LPn_SLOT_STS_ATTN (p : Nat) : Field := ⟨(R.LPn_SLOT_STS p), 4, 1⟩
def LPn_SLOT_STS_PWR_DONE (p : Nat) : Field := ⟨(R.LPn_SLOT_STS p), 5, 1⟩
def LPn_SLOT_STS_SEQ (p : Nat) : Field := ⟨(R.LPn_SLOT_STS p), 6, 2⟩
def LPn_LANE_CNT_SUSPECT (p : Nat) (k : Nat) : Field := ⟨(R.LPn_LANE_CNT p k), 0, 16⟩
def LPn_LANE_CNT_TESTS (p : Nat) (k : Nat) : Field := ⟨(R.LPn_LANE_CNT p k), 16, 8⟩
def LPn_LANE_CNT_LAST_FAIL (p : Nat) (k : Nat) : Field := ⟨(R.LPn_LANE_CNT p k), 24, 1⟩
def LPn_GRACE_GRACE_MS (p : Nat) : Field := ⟨(R.LPn_GRACE p), 0, 11⟩
def LPn_PROTO_CFG_VCS (p : Nat) : Field := ⟨(R.LPn_PROTO_CFG p), 0, 3⟩
def LPn_PROTO_CFG_ROLES (p : Nat) : Field := ⟨(R.LPn_PROTO_CFG p), 8, 8⟩
def LPn_PROTO_CFG_RTT_ASSUMED_NS (p : Nat) : Field := ⟨(R.LPn_PROTO_CFG p), 16, 16⟩
def LPn_PROTO_CFG_SLEEP_IDLE_US (p : Nat) : Field := ⟨(R.LPn_PROTO_CFG p), 32, 16⟩
def LPn_VC_ENV_ENV (p : Nat) (k : Nat) (i : Nat) : Field := ⟨(R.LPn_VC_ENV p k), 0 + 16 * i, 10⟩
def LPn_VC_ENV_BOUND (p : Nat) (k : Nat) (i : Nat) : Field := ⟨(R.LPn_VC_ENV p k), 15 + 16 * i, 1⟩
def LPn_BALLAST_KIB (p : Nat) (k : Nat) (i : Nat) : Field := ⟨(R.LPn_BALLAST p k), 0 + 16 * i, 16⟩
def LPn_RTT_GOVERN_NS (p : Nat) : Field := ⟨(R.LPn_RTT p), 0, 16⟩
def LPn_RTT_MEASURED_NS (p : Nat) : Field := ⟨(R.LPn_RTT p), 16, 16⟩
def LPn_RTT_SAMPLES (p : Nat) : Field := ⟨(R.LPn_RTT p), 32, 5⟩
def LPn_RTT_REQ_KIB (p : Nat) : Field := ⟨(R.LPn_RTT p), 40, 8⟩
def LPn_REARM_REARM (p : Nat) : Field := ⟨(R.LPn_REARM p), 0, 1⟩
def LPn_REARM_FENCED (p : Nat) : Field := ⟨(R.LPn_REARM p), 1, 1⟩
def LPn_REPLAY_STS_NAK_SENT (p : Nat) : Field := ⟨(R.LPn_REPLAY_STS p), 0, 16⟩
def LPn_REPLAY_STS_NAK_RCVD (p : Nat) : Field := ⟨(R.LPn_REPLAY_STS p), 16, 16⟩
def LPn_REPLAY_STS_REPLAYS (p : Nat) : Field := ⟨(R.LPn_REPLAY_STS p), 32, 16⟩
def LPn_REPLAY_STS_LIMIT (p : Nat) : Field := ⟨(R.LPn_REPLAY_STS p), 48, 8⟩
def LPn_FC_STS_XOFF_TX (p : Nat) : Field := ⟨(R.LPn_FC_STS p), 0, 8⟩
def LPn_FC_STS_XOFF_RX (p : Nat) : Field := ⟨(R.LPn_FC_STS p), 8, 8⟩
def LPn_FC_STS_XOFF_CNT (p : Nat) : Field := ⟨(R.LPn_FC_STS p), 16, 16⟩
def LPn_FC_STS_OVERRUN (p : Nat) : Field := ⟨(R.LPn_FC_STS p), 32, 16⟩
def LPn_OUTAGE_STS_FLUSHED_NP (p : Nat) : Field := ⟨(R.LPn_OUTAGE_STS p), 0, 16⟩
def LPn_OUTAGE_STS_FLUSHED_POSTED (p : Nat) : Field := ⟨(R.LPn_OUTAGE_STS p), 16, 16⟩
def LPn_OUTAGE_STS_DEADLINE (p : Nat) : Field := ⟨(R.LPn_OUTAGE_STS p), 32, 16⟩
def LPn_OUTAGE_STS_LATE (p : Nat) : Field := ⟨(R.LPn_OUTAGE_STS p), 48, 16⟩
def LPn_FLUSH_ADDR_DA (p : Nat) : Field := ⟨(R.LPn_FLUSH_ADDR p), 0, 48⟩
def LPn_FLUSH_ADDR_ENV (p : Nat) : Field := ⟨(R.LPn_FLUSH_ADDR p), 48, 10⟩
def LPn_FLUSH_ADDR_VALID (p : Nat) : Field := ⟨(R.LPn_FLUSH_ADDR p), 63, 1⟩
def LPn_CFG_CMD_OFFSET (p : Nat) : Field := ⟨(R.LPn_CFG_CMD p), 3, 29⟩
def LPn_CFG_CMD_WRITE (p : Nat) : Field := ⟨(R.LPn_CFG_CMD p), 32, 1⟩
def LPn_CFG_CMD_GO (p : Nat) : Field := ⟨(R.LPn_CFG_CMD p), 33, 1⟩
def LPn_CFG_CMD_RESULT (p : Nat) : Field := ⟨(R.LPn_CFG_CMD p), 36, 2⟩
def LPn_CFG_DATA_DATA (p : Nat) : Field := ⟨(R.LPn_CFG_DATA p), 0, 64⟩
def LPn_SB_OUT (p : Nat) : Field := ⟨(R.LPn_SB p), 0, 16⟩
def LPn_SB_IN (p : Nat) : Field := ⟨(R.LPn_SB p), 16, 16⟩
def LPn_SB_CHG (p : Nat) : Field := ⟨(R.LPn_SB p), 32, 16⟩
def LPn_PERR_STS_WR (p : Nat) : Field := ⟨(R.LPn_PERR_STS p), 0, 6⟩
def LPn_PERR_STS_RD (p : Nat) : Field := ⟨(R.LPn_PERR_STS p), 8, 6⟩
def LPn_PERR_STS_COUNT (p : Nat) : Field := ⟨(R.LPn_PERR_STS p), 16, 16⟩
def LPn_PERR_STS_LOST (p : Nat) : Field := ⟨(R.LPn_PERR_STS p), 32, 16⟩
def LPn_PERR_STS_UNATTRIB (p : Nat) : Field := ⟨(R.LPn_PERR_STS p), 48, 16⟩
def LPn_ENV_ERRVEC_FN (p : Nat) (e : Nat) : Field := ⟨(R.LPn_ENV_ERRVEC p e), 0, 11⟩
def LPn_ENV_ERRVEC_VECTOR (p : Nat) (e : Nat) : Field := ⟨(R.LPn_ENV_ERRVEC p e), 16, 11⟩
def LPn_ENV_ERRVEC_VALID (p : Nat) (e : Nat) : Field := ⟨(R.LPn_ENV_ERRVEC p e), 63, 1⟩
def ICU_CTL_ENABLE : Field := ⟨R.ICU_CTL, 0, 1⟩
def ICU_ENSTAT_REASON : Field := ⟨R.ICU_ENSTAT, 0, 8⟩
def ICU_ENSTAT_OBJECT : Field := ⟨R.ICU_ENSTAT, 8, 24⟩
def ICU_ENSTAT_REG : Field := ⟨R.ICU_ENSTAT, 32, 26⟩
def ICU_ENSTAT_BUSY : Field := ⟨R.ICU_ENSTAT, 62, 1⟩
def ICU_ENSTAT_REFUSED : Field := ⟨R.ICU_ENSTAT, 63, 1⟩
def ICU_TGT_STS_GC_ONLINE : Field := ⟨R.ICU_TGT_STS, 0, 8⟩
def ICU_TGT_STS_HP_ONLINE : Field := ⟨R.ICU_TGT_STS, 8, 1⟩
def ICU_STS_SPURIOUS : Field := ⟨R.ICU_STS, 0, 16⟩
def ICU_STS_ENV_DROP : Field := ⟨R.ICU_STS, 16, 16⟩
def ICU_STS_REOFFER : Field := ⟨R.ICU_STS, 32, 16⟩
def ICU_SWI_SET : Field := ⟨R.ICU_SWI, 0, 64⟩
def ICU_CLAIM_SOURCE (c : Nat) : Field := ⟨(R.ICU_CLAIM c), 0, 11⟩
def ICU_CLAIM_COUNT (c : Nat) : Field := ⟨(R.ICU_CLAIM c), 16, 8⟩
def ICU_CLAIM_LEVEL (c : Nat) : Field := ⟨(R.ICU_CLAIM c), 31, 1⟩
def ICU_COMPLETE_SOURCE (c : Nat) : Field := ⟨(R.ICU_COMPLETE c), 0, 11⟩
def ICU_SRC_CFG_ENABLE (s : Nat) : Field := ⟨(R.ICU_SRC_CFG s), 0, 1⟩
def ICU_SRC_CFG_MASK (s : Nat) : Field := ⟨(R.ICU_SRC_CFG s), 1, 1⟩
def ICU_SRC_CFG_FAST (s : Nat) : Field := ⟨(R.ICU_SRC_CFG s), 2, 1⟩
def ICU_SRC_CFG_LEVEL (s : Nat) : Field := ⟨(R.ICU_SRC_CFG s), 3, 1⟩
def ICU_SRC_CFG_TARGETS (s : Nat) : Field := ⟨(R.ICU_SRC_CFG s), 8, 9⟩
def ICU_SRC_CFG_HOST_FN (s : Nat) : Field := ⟨(R.ICU_SRC_CFG s), 32, 11⟩
def ICU_SRC_CFG_HOST_VEC (s : Nat) : Field := ⟨(R.ICU_SRC_CFG s), 48, 11⟩
def ICU_SRC_STS_COUNT (s : Nat) : Field := ⟨(R.ICU_SRC_STS s), 0, 8⟩
def ICU_SRC_STS_LEVEL (s : Nat) : Field := ⟨(R.ICU_SRC_STS s), 8, 1⟩
def ICU_SRC_STS_OFFERED (s : Nat) : Field := ⟨(R.ICU_SRC_STS s), 9, 1⟩
def ICU_SRC_STS_CLAIMED (s : Nat) : Field := ⟨(R.ICU_SRC_STS s), 10, 1⟩
def ICU_SRC_STS_CLAIMER (s : Nat) : Field := ⟨(R.ICU_SRC_STS s), 11, 4⟩
def ICU_SRC_STS_ENV (s : Nat) : Field := ⟨(R.ICU_SRC_STS s), 16, 10⟩
def HEP_FN_CLAIM_SOURCE (f : Nat) : Field := ⟨(R.HEP_FN_CLAIM f), 0, 11⟩
def HEP_FN_CLAIM_COUNT (f : Nat) : Field := ⟨(R.HEP_FN_CLAIM f), 16, 8⟩
def HEP_FN_CLAIM_LEVEL (f : Nat) : Field := ⟨(R.HEP_FN_CLAIM f), 31, 1⟩
def HEP_FN_CLAIM_VECTOR (f : Nat) : Field := ⟨(R.HEP_FN_CLAIM f), 32, 11⟩
def GDC_CTL_ENABLE : Field := ⟨R.GDC_CTL, 0, 1⟩
def GDC_CTL_CORES : Field := ⟨R.GDC_CTL, 8, 8⟩
def GDC_ENSTAT_REASON : Field := ⟨R.GDC_ENSTAT, 0, 8⟩
def GDC_ENSTAT_OBJECT : Field := ⟨R.GDC_ENSTAT, 8, 24⟩
def GDC_ENSTAT_REG : Field := ⟨R.GDC_ENSTAT, 32, 26⟩
def GDC_ENSTAT_BUSY : Field := ⟨R.GDC_ENSTAT, 62, 1⟩
def GDC_ENSTAT_REFUSED : Field := ⟨R.GDC_ENSTAT, 63, 1⟩
def GDC_STS_L2_RETIRED : Field := ⟨R.GDC_STS, 0, 9⟩
def GDC_STS_L2_SPARES : Field := ⟨R.GDC_STS, 16, 5⟩
def GDC_LOAD_CTL_CORE : Field := ⟨R.GDC_LOAD_CTL, 0, 3⟩
def GDC_LOAD_CTL_OP : Field := ⟨R.GDC_LOAD_CTL, 4, 2⟩
def GDC_LOAD_CTL_ACTIVE : Field := ⟨R.GDC_LOAD_CTL, 6, 1⟩
def GDC_LOAD_ADDR_OFFSET : Field := ⟨R.GDC_LOAD_ADDR, 3, 27⟩
def GDC_LOAD_ADDR_DEST : Field := ⟨R.GDC_LOAD_ADDR, 63, 1⟩
def GDC_LOAD_DATA_DATA : Field := ⟨R.GDC_LOAD_DATA, 0, 64⟩
def GDC_CORE_CTL_ENABLE (c : Nat) : Field := ⟨(R.GDC_CORE_CTL c), 0, 1⟩
def GDC_CORE_CTL_QUIESCE (c : Nat) : Field := ⟨(R.GDC_CORE_CTL c), 1, 1⟩
def GDC_CORE_CTL_BIND_DEV (c : Nat) : Field := ⟨(R.GDC_CORE_CTL c), 2, 1⟩
def GDC_CORE_CTL_ENV (c : Nat) : Field := ⟨(R.GDC_CORE_CTL c), 8, 10⟩
def GDC_CORE_CTL_QUIESCE_MS (c : Nat) : Field := ⟨(R.GDC_CORE_CTL c), 32, 10⟩
def GDC_CORE_BOOT_ENTRY (c : Nat) : Field := ⟨(R.GDC_CORE_BOOT c), 1, 55⟩
def GDC_CORE_STS_STATE (c : Nat) : Field := ⟨(R.GDC_CORE_STS c), 0, 3⟩
def GDC_CORE_STS_FW (c : Nat) : Field := ⟨(R.GDC_CORE_STS c), 3, 1⟩
def GDC_CORE_STS_FW_HOST (c : Nat) : Field := ⟨(R.GDC_CORE_STS c), 4, 1⟩
def GDC_CORE_STS_MBOX (c : Nat) : Field := ⟨(R.GDC_CORE_STS c), 8, 5⟩
def GDC_CORE_STS_HALT_REASON (c : Nat) : Field := ⟨(R.GDC_CORE_STS c), 16, 8⟩
def GDC_CORE_STS_DISCARDED (c : Nat) : Field := ⟨(R.GDC_CORE_STS c), 24, 8⟩
def GDC_CORE_STS_LATE_ERR (c : Nat) : Field := ⟨(R.GDC_CORE_STS c), 32, 16⟩
def GDC_CORE_STS_FAULTS (c : Nat) : Field := ⟨(R.GDC_CORE_STS c), 48, 16⟩
def HBM_CTL_ENABLE : Field := ⟨R.HBM_CTL, 0, 1⟩
def HBM_ENSTAT_REASON : Field := ⟨R.HBM_ENSTAT, 0, 8⟩
def HBM_ENSTAT_OBJECT : Field := ⟨R.HBM_ENSTAT, 8, 24⟩
def HBM_ENSTAT_REG : Field := ⟨R.HBM_ENSTAT, 32, 26⟩
def HBM_ENSTAT_BUSY : Field := ⟨R.HBM_ENSTAT, 62, 1⟩
def HBM_ENSTAT_REFUSED : Field := ⟨R.HBM_ENSTAT, 63, 1⟩
def HBM_STS_TRAINED : Field := ⟨R.HBM_STS, 0, 16⟩
def HBM_STS_RETIRED : Field := ⟨R.HBM_STS, 16, 16⟩
def HBM_STS_SET_N : Field := ⟨R.HBM_STS, 32, 5⟩
def HBM_STS_PLACED : Field := ⟨R.HBM_STS, 37, 1⟩
def HBM_STS_SR : Field := ⟨R.HBM_STS, 38, 1⟩
def HBM_STS_TEMP : Field := ⟨R.HBM_STS, 40, 8⟩
def HBM_STS_LOG_NEXT : Field := ⟨R.HBM_STS, 48, 5⟩
def HBM_SHARE_CTX : Field := ⟨R.HBM_SHARE, 0, 6⟩
def HBM_SHARE_XLT : Field := ⟨R.HBM_SHARE, 8, 6⟩
def HBM_SHARE_TAIL : Field := ⟨R.HBM_SHARE, 16, 6⟩
def HBM_SHARE_GDC : Field := ⟨R.HBM_SHARE, 24, 6⟩
def HBM_SHARE_PCACHE : Field := ⟨R.HBM_SHARE, 32, 6⟩
def HBM_SR_CFG_IDLE_US : Field := ⟨R.HBM_SR_CFG, 0, 16⟩
def HBM_SR_CFG_RECAL_C : Field := ⟨R.HBM_SR_CFG, 16, 8⟩
def HBM_SCRUB_CFG_PERIOD_H : Field := ⟨R.HBM_SCRUB_CFG, 0, 8⟩
def HBM_SCRUB_CFG_CE_ROW_LIMIT : Field := ⟨R.HBM_SCRUB_CFG, 8, 8⟩
def HBM_ECC_STS_CE : Field := ⟨R.HBM_ECC_STS, 0, 24⟩
def HBM_ECC_STS_UE : Field := ⟨R.HBM_ECC_STS, 24, 16⟩
def HBM_ECC_STS_SCRUB_FIX : Field := ⟨R.HBM_ECC_STS, 40, 16⟩
def HBM_PM_STS_SR_ENTRIES : Field := ⟨R.HBM_PM_STS, 0, 16⟩
def HBM_PM_STS_RECALS : Field := ⟨R.HBM_PM_STS, 16, 16⟩
def HBM_PM_STS_EXIT_NS_MAX : Field := ⟨R.HBM_PM_STS, 32, 16⟩
def HBM_PART_BASE_MIB (k : Nat) : Field := ⟨(R.HBM_PART k), 0, 16⟩
def HBM_PART_SIZE_MIB (k : Nat) : Field := ⟨(R.HBM_PART k), 16, 16⟩
def HBM_PART_PRESENT (k : Nat) : Field := ⟨(R.HBM_PART k), 32, 1⟩
def HBM_PC_STS_STATE (p : Nat) : Field := ⟨(R.HBM_PC_STS p), 0, 2⟩
def HBM_PC_STS_REPAIRS (p : Nat) : Field := ⟨(R.HBM_PC_STS p), 8, 7⟩
def HBM_PC_STS_CE (p : Nat) : Field := ⟨(R.HBM_PC_STS p), 32, 16⟩
def HBM_PC_STS_UE (p : Nat) : Field := ⟨(R.HBM_PC_STS p), 48, 16⟩
def HBM_REPAIR_LOG_PC (i : Nat) : Field := ⟨(R.HBM_REPAIR_LOG i), 0, 4⟩
def HBM_REPAIR_LOG_BANK (i : Nat) : Field := ⟨(R.HBM_REPAIR_LOG i), 5, 5⟩
def HBM_REPAIR_LOG_ROW (i : Nat) : Field := ⟨(R.HBM_REPAIR_LOG i), 16, 15⟩
def HBM_REPAIR_LOG_TIME (i : Nat) : Field := ⟨(R.HBM_REPAIR_LOG i), 32, 30⟩
def HBM_REPAIR_LOG_VALID (i : Nat) : Field := ⟨(R.HBM_REPAIR_LOG i), 63, 1⟩
def FLT_STATUS_LEVEL (b : Nat) : Field := ⟨(R.FLT_STATUS b), 0, 3⟩
def FLT_STATUS_ACTIVE (b : Nat) : Field := ⟨(R.FLT_STATUS b), 3, 1⟩
def FLT_STATUS_ACK_PEND (b : Nat) : Field := ⟨(R.FLT_STATUS b), 4, 1⟩
def FLT_STATUS_GRACE (b : Nat) : Field := ⟨(R.FLT_STATUS b), 5, 1⟩
def FLT_STATUS_IRQ (b : Nat) : Field := ⟨(R.FLT_STATUS b), 6, 1⟩
def FLT_STATUS_ACTIVE_CNT (b : Nat) : Field := ⟨(R.FLT_STATUS b), 8, 7⟩
def FLT_STATUS_GRACE_ID (b : Nat) : Field := ⟨(R.FLT_STATUS b), 16, 6⟩
def FLT_STATUS_GRACE_LEFT_US (b : Nat) : Field := ⟨(R.FLT_STATUS b), 24, 32⟩
def FLT_FIRST_ID (b : Nat) : Field := ⟨(R.FLT_FIRST b), 0, 6⟩
def FLT_FIRST_LEVEL (b : Nat) : Field := ⟨(R.FLT_FIRST b), 8, 3⟩
def FLT_FIRST_VALID (b : Nat) : Field := ⟨(R.FLT_FIRST b), 63, 1⟩
def FLT_FIRST_TIME_TICKS (b : Nat) : Field := ⟨(R.FLT_FIRST_TIME b), 0, 64⟩
def FLT_FIRST_INFO_INFO (b : Nat) : Field := ⟨(R.FLT_FIRST_INFO b), 0, 64⟩
def FLT_OVF_OVF (b : Nat) : Field := ⟨(R.FLT_OVF b), 0, 1⟩
def FLT_OVF_COUNT (b : Nat) : Field := ⟨(R.FLT_OVF b), 16, 32⟩
def FLT_ACK_ID (b : Nat) : Field := ⟨(R.FLT_ACK b), 0, 6⟩
def FLT_ACK_ALL (b : Nat) : Field := ⟨(R.FLT_ACK b), 8, 1⟩
def FLT_ACK_REARM (b : Nat) : Field := ⟨(R.FLT_ACK b), 9, 1⟩
def FLT_GRACE_DEG_MS (b : Nat) : Field := ⟨(R.FLT_GRACE b), 0, 16⟩
def FLT_GRACE_UNC_MS (b : Nat) : Field := ⟨(R.FLT_GRACE b), 16, 16⟩
def FLT_GRACE_FATAL_US (b : Nat) : Field := ⟨(R.FLT_GRACE b), 32, 16⟩
def FLT_QUIET_MS (b : Nat) : Field := ⟨(R.FLT_QUIET b), 0, 22⟩
def FLT_RECOV_COUNT (b : Nat) : Field := ⟨(R.FLT_RECOV b), 0, 16⟩
def FLT_SELFTEST_BUSY (b : Nat) : Field := ⟨(R.FLT_SELFTEST b), 0, 1⟩
def FLT_SELFTEST_LAST_FAIL (b : Nat) : Field := ⟨(R.FLT_SELFTEST b), 1, 1⟩
def FLT_SELFTEST_GO (b : Nat) : Field := ⟨(R.FLT_SELFTEST b), 2, 1⟩
def FLT_SELFTEST_ID (b : Nat) : Field := ⟨(R.FLT_SELFTEST b), 8, 6⟩
def FLT_SELFTEST_PASSES (b : Nat) : Field := ⟨(R.FLT_SELFTEST b), 16, 16⟩
def FLT_SELFTEST_FAILS (b : Nat) : Field := ⟨(R.FLT_SELFTEST b), 32, 16⟩
def FLT_SELFTEST_LAST_ID (b : Nat) : Field := ⟨(R.FLT_SELFTEST b), 48, 6⟩
def FLT_ENSTAT_REASON (b : Nat) : Field := ⟨(R.FLT_ENSTAT b), 0, 8⟩
def FLT_ENSTAT_OBJECT (b : Nat) : Field := ⟨(R.FLT_ENSTAT b), 8, 24⟩
def FLT_ENSTAT_REG (b : Nat) : Field := ⟨(R.FLT_ENSTAT b), 32, 26⟩
def FLT_ENSTAT_BUSY (b : Nat) : Field := ⟨(R.FLT_ENSTAT b), 62, 1⟩
def FLT_ENSTAT_REFUSED (b : Nat) : Field := ⟨(R.FLT_ENSTAT b), 63, 1⟩
def FLT_SRC_CFG_EN (b : Nat) (n : Nat) : Field := ⟨(R.FLT_SRC_CFG b n), 0, 1⟩
def FLT_SRC_CFG_IE (b : Nat) (n : Nat) : Field := ⟨(R.FLT_SRC_CFG b n), 1, 1⟩
def FLT_SRC_CFG_BASE (b : Nat) (n : Nat) : Field := ⟨(R.FLT_SRC_CFG b n), 4, 3⟩
def FLT_SRC_CFG_CEIL (b : Nat) (n : Nat) : Field := ⟨(R.FLT_SRC_CFG b n), 8, 3⟩
def FLT_SRC_CFG_N (b : Nat) (n : Nat) : Field := ⟨(R.FLT_SRC_CFG b n), 16, 8⟩
def FLT_SRC_CFG_W_MS (b : Nat) (n : Nat) : Field := ⟨(R.FLT_SRC_CFG b n), 32, 22⟩
def FLT_SRC_CNT_WIN_CNT (b : Nat) (n : Nat) : Field := ⟨(R.FLT_SRC_CNT b n), 0, 8⟩
def FLT_SRC_CNT_LEVEL (b : Nat) (n : Nat) : Field := ⟨(R.FLT_SRC_CNT b n), 8, 3⟩
def FLT_SRC_CNT_ACTIVE (b : Nat) (n : Nat) : Field := ⟨(R.FLT_SRC_CNT b n), 11, 1⟩
def FLT_SRC_CNT_ACK_PEND (b : Nat) (n : Nat) : Field := ⟨(R.FLT_SRC_CNT b n), 12, 1⟩
def FLT_SRC_CNT_GRACE (b : Nat) (n : Nat) : Field := ⟨(R.FLT_SRC_CNT b n), 13, 1⟩
def FLT_SRC_CNT_TESTING (b : Nat) (n : Nat) : Field := ⟨(R.FLT_SRC_CNT b n), 14, 1⟩
def FLT_SRC_CNT_TOTAL (b : Nat) (n : Nat) : Field := ⟨(R.FLT_SRC_CNT b n), 16, 32⟩
def PRL_CTL_ENABLE : Field := ⟨R.PRL_CTL, 0, 1⟩
def PRL_CTL_HOLD_DISABLE : Field := ⟨R.PRL_CTL, 1, 1⟩
def PRL_CTL_PAIR_EN : Field := ⟨R.PRL_CTL, 2, 1⟩
def PRL_CTL_HANDOVER : Field := ⟨R.PRL_CTL, 3, 1⟩
def PRL_CTL_HANDBACK : Field := ⟨R.PRL_CTL, 4, 1⟩
def PRL_PAIR_STS_STATE : Field := ⟨R.PRL_PAIR_STS, 0, 3⟩
def PRL_PAIR_STS_MODE : Field := ⟨R.PRL_PAIR_STS, 3, 1⟩
def PRL_PAIR_STS_PEER_ID : Field := ⟨R.PRL_PAIR_STS, 4, 1⟩
def PRL_PAIR_STS_HB_OK : Field := ⟨R.PRL_PAIR_STS, 5, 1⟩
def PRL_PAIR_STS_LAST_TRIGGER : Field := ⟨R.PRL_PAIR_STS, 8, 8⟩
def PRL_PAIR_STS_FAILOVERS : Field := ⟨R.PRL_PAIR_STS, 16, 16⟩
def PRL_PAIR_STS_TAKEOVER_US : Field := ⟨R.PRL_PAIR_STS, 32, 32⟩
def PRL_HB_TIMEOUT_US : Field := ⟨R.PRL_HB, 0, 11⟩
def PRL_HB_CONFIRM_US : Field := ⟨R.PRL_HB, 16, 8⟩
def PRL_HB_MISSED : Field := ⟨R.PRL_HB, 32, 16⟩
def PRL_MIRROR_LAG : Field := ⟨R.PRL_MIRROR, 0, 4⟩
def PRL_MIRROR_SENT : Field := ⟨R.PRL_MIRROR, 16, 32⟩
def PRL_MIRROR_LAG_WAIT : Field := ⟨R.PRL_MIRROR, 48, 16⟩
def PRL_HOME_HOME (i : Nat) : Field := ⟨(R.PRL_HOME i), 0, 64⟩
def PRL_OWN_OWN (i : Nat) : Field := ⟨(R.PRL_OWN i), 0, 64⟩
def PRL_TAKE_VEC_FN (e : Nat) : Field := ⟨(R.PRL_TAKE_VEC e), 0, 11⟩
def PRL_TAKE_VEC_VECTOR (e : Nat) : Field := ⟨(R.PRL_TAKE_VEC e), 16, 11⟩
def PRL_TAKE_VEC_VALID (e : Nat) : Field := ⟨(R.PRL_TAKE_VEC e), 63, 1⟩
end F

end Sys2Proof.Machine
end

