-- ==== Sys2Proof/Machine/RegTable.lean ====
section
/-! DEFINITION. The register table: every register of control space with its index ranges, its fields (place, access type
of Table 0.4, the legal values of an RW field with reserved encodings, R8) and the value of its Reset column (R9; an "image"
field reads 0 until the image is applied). Generated from the register tables of spec/02 to spec/17. -/
namespace Sys2Proof.Machine

/-- The access types of Table 0.4. -/
inductive Acc where
  | ro | rw | w1c | w1s | rwo | rc | wo | rsv
deriving DecidableEq, Repr

/-- One row of a register's field table; `legal` lists the ranges of legal values ([] = every value). -/
structure FieldDef where
  lo : Nat
  w : Nat
  acc : Acc
  legal : List (Nat × Nat)
deriving DecidableEq, Repr

/-- One register (array): base offset, dimensions as (count, stride), fields, reset value. -/
structure RegDef where
  base : Nat
  dims : List (Nat × Nat)
  fields : List FieldDef
  reset : Nat
deriving DecidableEq, Repr

namespace RegTable

def pwr0 : List RegDef := [
  /- PWR_CTL -/ ⟨0x0, [], [⟨0,1,.rw,[]⟩,⟨2,2,.rw,[(0,2)]⟩], 0x4⟩,
  /- PWR_LSW_HOLD -/ ⟨0x8, [], [⟨0,6,.rw,[(1,50)]⟩], 0xA⟩,
  /- PWR_DROOP_CFG -/ ⟨0x10, [], [⟨0,6,.rw,[(16,29)]⟩,⟨8,6,.rw,[(10,28)]⟩,⟨16,4,.rw,[(1,8)]⟩,⟨24,8,.rw,[(1,255)]⟩], 0x5021519⟩,
  /- PWR_STRETCH_STS -/ ⟨0x18, [], [⟨0,2,.ro,[]⟩,⟨2,1,.ro,[]⟩,⟨3,1,.ro,[]⟩,⟨4,1,.ro,[]⟩,⟨16,16,.rc,[]⟩,⟨32,16,.rc,[]⟩,⟨48,16,.rc,[]⟩], 0x0⟩,
  /- PWR_RAMP_CFG -/ ⟨0x20, [], [⟨0,4,.rw,[(2,8)]⟩], 0x8⟩,
  /- PWR_THERM -/ ⟨0x28, [], [⟨0,8,.ro,[]⟩,⟨8,8,.rw,[(70,115)]⟩,⟨16,1,.ro,[]⟩], 0x6900⟩,
  /- PWR_MON[n] -/ ⟨0x100, [(8,0x8)], [⟨0,20,.ro,[]⟩,⟨20,44,.ro,[]⟩], 0x0⟩,
  /- CLK_CFG -/ ⟨0x1000, [], [⟨0,4,.ro,[]⟩,⟨4,4,.ro,[]⟩,⟨8,4,.ro,[]⟩,⟨12,4,.ro,[]⟩,⟨16,7,.ro,[]⟩], 0x486400⟩,
  /- CLK_STS -/ ⟨0x1008, [], [⟨0,1,.ro,[]⟩,⟨1,1,.ro,[]⟩,⟨2,1,.ro,[]⟩,⟨3,1,.ro,[]⟩,⟨4,1,.ro,[]⟩,⟨8,8,.rc,[]⟩], 0x0⟩]

/-- Registers of PWR, offsets from its base. -/
def pwr : List RegDef := pwr0

def tth0 : List RegDef := [
  /- TTH_CTL -/ ⟨0x0, [], [⟨0,1,.rw,[]⟩,⟨1,1,.rw,[]⟩,⟨8,8,.rw,[]⟩], 0xA01⟩,
  /- TTH_STS -/ ⟨0x8, [], [⟨0,1,.ro,[]⟩,⟨1,1,.ro,[]⟩,⟨2,1,.w1c,[]⟩,⟨3,1,.ro,[]⟩,⟨8,8,.ro,[]⟩,⟨16,16,.ro,[]⟩,⟨32,3,.ro,[]⟩,⟨35,1,.ro,[]⟩], 0x0⟩,
  /- TTH_WAKE_EN -/ ⟨0x10, [], [⟨0,8,.rw,[]⟩,⟨8,8,.rw,[]⟩,⟨16,6,.rw,[]⟩,⟨24,6,.rw,[]⟩,⟨32,1,.rw,[]⟩], 0x0⟩,
  /- TTH_WAKE_STS -/ ⟨0x18, [], [⟨0,8,.w1c,[]⟩,⟨16,6,.w1c,[]⟩,⟨24,6,.w1c,[]⟩,⟨32,1,.w1c,[]⟩,⟨33,1,.w1c,[]⟩], 0x0⟩,
  /- TTH_WAKE_ICU[n] -/ ⟨0x100, [(32,0x8)], [⟨0,10,.rw,[]⟩,⟨63,1,.rw,[]⟩], 0x0⟩]

/-- Registers of TTH, offsets from its base. -/
def tth : List RegDef := tth0

def img0 : List RegDef := [
  /- IMG_CTL -/ ⟨0x0, [], [⟨0,1,.rw,[]⟩,⟨8,2,.wo,[]⟩], 0x0⟩,
  /- IMG_STS -/ ⟨0x8, [], [⟨0,2,.ro,[]⟩,⟨2,1,.ro,[]⟩,⟨3,1,.ro,[]⟩,⟨4,1,.ro,[]⟩,⟨5,1,.ro,[]⟩,⟨6,1,.ro,[]⟩,⟨7,1,.ro,[]⟩,⟨8,8,.ro,[]⟩,⟨16,8,.ro,[]⟩,⟨24,8,.ro,[]⟩], 0x0⟩,
  /- IMG_ADDR -/ ⟨0x10, [], [⟨0,26,.rw,[]⟩], 0x0⟩,
  /- IMG_LEN -/ ⟨0x18, [], [⟨0,13,.rw,[(1,4096)]⟩], 0x1000⟩,
  /- IMG_BUF[n] -/ ⟨0x1000, [(512,0x8)], [⟨0,64,.rw,[]⟩], 0x0⟩]

/-- Registers of IMG, offsets from its base. -/
def img : List RegDef := img0

def dev0 : List RegDef := [
  /- DEV_ENSTAT -/ ⟨0x18, [], [⟨0,8,.ro,[]⟩,⟨8,24,.ro,[]⟩,⟨32,26,.ro,[]⟩,⟨62,1,.ro,[]⟩,⟨63,1,.ro,[]⟩], 0x0⟩,
  /- DEV_CTL -/ ⟨0x0, [], [⟨0,1,.rw,[]⟩,⟨1,1,.rw,[]⟩,⟨2,1,.wo,[]⟩,⟨3,1,.rw,[]⟩,⟨4,1,.wo,[]⟩], 0x0⟩,
  /- DEV_MODE -/ ⟨0x8, [], [⟨0,3,.ro,[]⟩,⟨4,3,.ro,[]⟩,⟨8,8,.ro,[]⟩,⟨16,48,.ro,[]⟩], 0x2⟩,
  /- DEV_STS -/ ⟨0x10, [], [⟨0,1,.ro,[]⟩,⟨1,1,.ro,[]⟩,⟨2,1,.ro,[]⟩,⟨3,1,.ro,[]⟩,⟨8,3,.ro,[]⟩,⟨16,8,.ro,[]⟩], 0x0⟩,
  /- DEV_TIME -/ ⟨0x20, [], [⟨0,64,.ro,[]⟩], 0x0⟩,
  /- DEV_FAULT_MAP -/ ⟨0x28, [], [⟨0,8,.ro,[]⟩,⟨8,6,.ro,[]⟩,⟨14,5,.ro,[]⟩], 0x0⟩,
  /- DEV_ERRPIN_LEVEL -/ ⟨0x30, [], [⟨0,3,.rw,[(0,5)]⟩], 0x0⟩,
  /- DEV_MANIFEST -/ ⟨0x38, [], [⟨0,26,.ro,[]⟩,⟨32,17,.ro,[]⟩], 0x1000000000000⟩]

/-- Registers of DEV, offsets from its base. -/
def dev : List RegDef := dev0

def fn0 : List RegDef := [
  /- HEP_FN_ENV -/ ⟨0x1000, [], [⟨0,10,.ro,[]⟩,⟨10,1,.ro,[]⟩,⟨16,3,.ro,[]⟩], 0x20000⟩,
  /- HEP_FN_FAULT -/ ⟨0x1010, [], [⟨0,1,.w1c,[]⟩,⟨1,1,.w1c,[]⟩,⟨2,1,.w1c,[]⟩,⟨3,1,.w1c,[]⟩,⟨4,1,.w1c,[]⟩,⟨16,16,.rc,[]⟩], 0x0⟩,
  /- HEP_FN_CLAIM -/ ⟨0x1008, [], [⟨0,11,.ro,[]⟩,⟨16,8,.ro,[]⟩,⟨31,1,.ro,[]⟩,⟨32,11,.ro,[]⟩], 0x7FF⟩]

/-- Registers of FN, offsets from its base. -/
def fn : List RegDef := fn0

def hep0 : List RegDef := [
  /- HEP_CTL -/ ⟨0x0, [], [⟨0,1,.rw,[]⟩,⟨1,1,.w1s,[]⟩], 0x0⟩,
  /- HEP_ENSTAT -/ ⟨0x8, [], [⟨0,8,.ro,[]⟩,⟨8,24,.ro,[]⟩,⟨32,26,.ro,[]⟩,⟨62,1,.ro,[]⟩,⟨63,1,.ro,[]⟩], 0x0⟩,
  /- HEP_LINK_CTL -/ ⟨0x10, [], [⟨0,3,.rw,[(1,6)]⟩,⟨8,5,.rw,[(1,1),(2,2),(4,4),(8,8),(16,16)]⟩], 0x1006⟩,
  /- HEP_LINK_STS -/ ⟨0x18, [], [⟨0,3,.ro,[]⟩,⟨8,5,.ro,[]⟩,⟨13,1,.ro,[]⟩,⟨14,1,.ro,[]⟩,⟨16,2,.ro,[]⟩,⟨24,8,.rc,[]⟩,⟨32,16,.rc,[]⟩], 0x0⟩,
  /- HEP_PM_CFG -/ ⟨0x20, [], [⟨0,1,.rw,[]⟩,⟨8,5,.rw,[(1,1),(2,2),(4,4),(8,8)]⟩,⟨16,16,.rw,[]⟩,⟨32,16,.rw,[]⟩], 0x3203E80201⟩,
  /- HEP_FN_STS[n] -/ ⟨0x10000, [(2048,0x8)], [⟨0,1,.ro,[]⟩,⟨1,1,.ro,[]⟩,⟨2,1,.ro,[]⟩,⟨3,2,.ro,[]⟩,⟨5,1,.ro,[]⟩,⟨6,1,.ro,[]⟩,⟨7,1,.ro,[]⟩,⟨8,1,.ro,[]⟩,⟨9,1,.ro,[]⟩,⟨10,1,.ro,[]⟩,⟨16,10,.ro,[]⟩,⟨26,1,.ro,[]⟩,⟨32,16,.ro,[]⟩,⟨48,12,.ro,[]⟩], 0x0⟩,
  /- HEP_TAG_STS -/ ⟨0x100, [], [⟨0,14,.ro,[]⟩,⟨16,14,.ro,[]⟩,⟨32,14,.rc,[]⟩,⟨48,16,.rc,[]⟩], 0x0⟩,
  /- HEP_LATE_CPL -/ ⟨0x108, [], [⟨0,32,.rc,[]⟩,⟨32,16,.rc,[]⟩,⟨48,11,.ro,[]⟩], 0x0⟩,
  /- HEP_CTO_LOG -/ ⟨0x110, [], [⟨0,32,.rc,[]⟩,⟨32,11,.ro,[]⟩,⟨48,14,.ro,[]⟩], 0x0⟩,
  /- HEP_FLR_LOG -/ ⟨0x118, [], [⟨0,11,.ro,[]⟩,⟨16,16,.ro,[]⟩,⟨32,16,.ro,[]⟩,⟨48,16,.ro,[]⟩], 0x0⟩,
  /- HEP_LINKLOSS -/ ⟨0x120, [], [⟨0,14,.ro,[]⟩,⟨16,48,.ro,[]⟩], 0x0⟩,
  /- HEP_AER_MAP -/ ⟨0x128, [], [⟨0,1,.rw,[]⟩,⟨1,1,.rw,[]⟩,⟨2,1,.rw,[]⟩,⟨3,1,.rw,[]⟩,⟨4,1,.rw,[]⟩], 0x1F⟩]

/-- Registers of HEP, offsets from its base. -/
def hep : List RegDef := hep0

def wxl0 : List RegDef := [
  /- WXL_CTL -/ ⟨0x0, [], [⟨0,1,.rw,[]⟩,⟨1,1,.rw,[]⟩,⟨2,1,.rw,[]⟩,⟨4,3,.rw,[(0,4)]⟩], 0x26⟩,
  /- WXL_ENSTAT -/ ⟨0x8, [], [⟨0,8,.ro,[]⟩,⟨8,24,.ro,[]⟩,⟨32,26,.ro,[]⟩,⟨62,1,.ro,[]⟩,⟨63,1,.ro,[]⟩], 0x0⟩,
  /- WXL_TBL_BASE -/ ⟨0x10, [], [⟨16,18,.rw,[]⟩], 0x0⟩,
  /- WXL_TBL_SIZE -/ ⟨0x18, [], [⟨0,29,.rw,[]⟩], 0x0⟩,
  /- WXL_TC_INV -/ ⟨0x20, [], [⟨0,28,.rw,[]⟩,⟨32,28,.rw,[]⟩,⟨63,1,.w1s,[]⟩], 0x0⟩,
  /- WXL_TC_STS -/ ⟨0x28, [], [⟨0,32,.rc,[]⟩,⟨32,24,.rc,[]⟩,⟨56,4,.ro,[]⟩], 0x0⟩,
  /- WXL_PF_CFG -/ ⟨0x30, [], [⟨0,8,.rw,[(16,255)]⟩,⟨8,4,.rw,[(1,8)]⟩,⟨16,8,.rw,[(10,255)]⟩,⟨24,8,.rw,[(8,255)]⟩], 0x40640840⟩,
  /- WXL_PF_STS -/ ⟨0x38, [], [⟨0,24,.rc,[]⟩,⟨24,24,.rc,[]⟩,⟨48,16,.rc,[]⟩], 0x0⟩,
  /- WXL_PC_CFG -/ ⟨0x40, [], [⟨0,2,.ro,[]⟩,⟨16,8,.rw,[(0,128)]⟩], 0x0⟩,
  /- WXL_PC_STS -/ ⟨0x48, [], [⟨0,24,.rc,[]⟩,⟨24,24,.rc,[]⟩,⟨48,16,.rc,[]⟩], 0x0⟩,
  /- WXL_PC_FLUSH -/ ⟨0x50, [], [⟨0,10,.rw,[]⟩,⟨10,1,.rw,[]⟩,⟨11,2,.rw,[]⟩,⟨63,1,.w1s,[]⟩], 0x0⟩,
  /- WXL_SEDISCARD_LOG[i] -/ ⟨0x100, [(16,0x8)], [⟨0,48,.ro,[]⟩,⟨48,10,.ro,[]⟩,⟨63,1,.ro,[]⟩], 0x0⟩]

def wxl1 : List RegDef := [
  /- WXL_SEDISCARD_STS -/ ⟨0x180, [], [⟨0,4,.ro,[]⟩,⟨4,1,.wo,[]⟩,⟨16,16,.rc,[]⟩], 0x0⟩,
  /- WXL_MIG_STS -/ ⟨0x188, [], [⟨0,5,.ro,[]⟩,⟨8,24,.rc,[]⟩,⟨32,32,.rc,[]⟩], 0x0⟩,
  /- WXL_IWIN_CTL[w] -/ ⟨0x10000, [(4096,0x10)], [⟨0,1,.rw,[]⟩,⟨1,2,.ro,[]⟩,⟨3,1,.ro,[]⟩,⟨4,1,.rw,[]⟩,⟨5,1,.rw,[]⟩,⟨6,1,.rw,[]⟩,⟨7,1,.rw,[]⟩,⟨8,1,.rw,[]⟩,⟨16,6,.ro,[]⟩,⟨24,8,.ro,[]⟩,⟨32,1,.ro,[]⟩], 0x0⟩,
  /- WXL_IWIN_BASE[w] -/ ⟨0x10008, [(4096,0x10)], [⟨0,28,.rw,[]⟩,⟨16,32,.rw,[]⟩], 0x0⟩,
  /- WXL_OWIN_CTL[m] -/ ⟨0x20000, [(4096,0x20)], [⟨0,1,.rw,[]⟩,⟨1,1,.rw,[]⟩,⟨2,1,.rw,[]⟩,⟨3,1,.rw,[]⟩,⟨4,1,.rw,[]⟩,⟨16,11,.rw,[]⟩,⟨32,20,.rw,[]⟩], 0x0⟩,
  /- WXL_OWIN_DA[m] -/ ⟨0x20008, [(4096,0x20)], [⟨0,6,.rw,[]⟩,⟨12,32,.rw,[]⟩], 0x0⟩,
  /- WXL_OWIN_HOST[m] -/ ⟨0x20010, [(4096,0x20)], [⟨12,52,.rw,[]⟩], 0x0⟩,
  /- WXL_ERNG_CTL[g] -/ ⟨0x40000, [(8192,0x10)], [⟨0,1,.rw,[]⟩,⟨1,1,.rw,[]⟩,⟨2,1,.rw,[]⟩,⟨3,1,.rw,[]⟩,⟨16,10,.rw,[]⟩,⟨32,6,.rw,[]⟩], 0x0⟩,
  /- WXL_ERNG_BASE[g] -/ ⟨0x40008, [(8192,0x10)], [⟨16,32,.rw,[]⟩], 0x0⟩]

/-- Registers of WXL, offsets from its base. -/
def wxl : List RegDef := wxl0 ++ wxl1

def qen0 : List RegDef := [
  /- QEN_CTL -/ ⟨0x0, [], [⟨0,1,.rw,[]⟩], 0x0⟩,
  /- QEN_ENSTAT -/ ⟨0x8, [], [⟨0,8,.ro,[]⟩,⟨8,24,.ro,[]⟩,⟨32,26,.ro,[]⟩,⟨62,1,.ro,[]⟩,⟨63,1,.ro,[]⟩], 0x0⟩,
  /- QEN_CTX_BASE -/ ⟨0x10, [], [⟨0,8,.ro,[]⟩,⟨29,5,.ro,[]⟩], 0x0⟩,
  /- QEN_CC_CFG -/ ⟨0x18, [], [⟨0,8,.rw,[]⟩], 0xA⟩,
  /- QEN_CC_STS -/ ⟨0x20, [], [⟨0,32,.rc,[]⟩,⟨32,24,.rc,[]⟩,⟨56,5,.ro,[]⟩], 0x0⟩,
  /- QEN_DB_STS -/ ⟨0x28, [], [⟨0,32,.rc,[]⟩,⟨32,22,.ro,[]⟩], 0x0⟩,
  /- QEN_DB_DROP -/ ⟨0x30, [], [⟨0,16,.rc,[]⟩,⟨16,16,.rc,[]⟩,⟨32,16,.rc,[]⟩,⟨48,16,.rc,[]⟩], 0x0⟩,
  /- QEN_STS -/ ⟨0x38, [], [⟨0,23,.ro,[]⟩,⟨32,16,.rc,[]⟩,⟨48,16,.rc,[]⟩], 0x0⟩,
  /- QEN_QCMD[k] -/ ⟨0x1000, [(9,0x100)], [⟨0,22,.rw,[]⟩,⟨32,4,.wo,[]⟩], 0x0⟩,
  /- QEN_QCMD_STS[k] -/ ⟨0x1008, [(9,0x100)], [⟨0,1,.ro,[]⟩,⟨4,4,.ro,[]⟩,⟨8,8,.ro,[]⟩,⟨16,3,.ro,[]⟩,⟨32,16,.ro,[]⟩], 0x0⟩,
  /- QEN_QBUF[k][j] -/ ⟨0x1080, [(9,0x100), (16,0x8)], [⟨0,64,.rw,[]⟩], 0x0⟩,
  /- QEN_MOVER_STS -/ ⟨0x40, [], [⟨0,5,.ro,[]⟩,⟨8,24,.rc,[]⟩,⟨32,16,.rc,[]⟩,⟨48,16,.rc,[]⟩], 0x10⟩]

/-- Registers of QEN, offsets from its base. -/
def qen : List RegDef := qen0

def spl0 : List RegDef := [
  /- SPL_CTL -/ ⟨0x0, [], [⟨0,1,.rw,[]⟩,⟨1,1,.rw,[]⟩,⟨2,1,.rw,[]⟩,⟨3,1,.wo,[]⟩], 0x0⟩,
  /- SPL_ENSTAT -/ ⟨0x8, [], [⟨0,8,.ro,[]⟩,⟨8,24,.ro,[]⟩,⟨32,26,.ro,[]⟩,⟨62,1,.ro,[]⟩,⟨63,1,.ro,[]⟩], 0x0⟩,
  /- SPL_STEP -/ ⟨0x10, [], [⟨0,19,.rw,[]⟩], 0x0⟩,
  /- SPL_BUDGET -/ ⟨0x18, [], [⟨0,17,.rw,[(1,118000)]⟩], 0x0⟩,
  /- SPL_CAL_STATE -/ ⟨0x20, [], [⟨0,2,.ro,[]⟩,⟨2,10,.ro,[]⟩,⟨12,16,.ro,[]⟩,⟨28,16,.ro,[]⟩,⟨44,20,.ro,[]⟩], 0x0⟩,
  /- SPL_RESIDUAL -/ ⟨0x28, [], [⟨0,64,.ro,[]⟩], 0x0⟩,
  /- SPL_STS -/ ⟨0x30, [], [⟨0,16,.rc,[]⟩,⟨16,16,.rc,[]⟩,⟨32,32,.rc,[]⟩], 0x0⟩,
  /- SPL_COEF[i] -/ ⟨0x100, [(16,0x8)], [⟨0,16,.rw,[(1,65535)]⟩,⟨16,16,.rw,[]⟩], 0x0⟩,
  /- SPL_OPCOST -/ ⟨0x180, [], [⟨0,16,.rw,[]⟩], 0x0⟩,
  /- ENV_QBLK[i] -/ ⟨0x8000, [(1024,0x8)], [⟨0,10,.rw,[]⟩,⟨16,10,.rw,[]⟩,⟨32,10,.rw,[]⟩,⟨48,10,.rw,[]⟩,⟨15,1,.rw,[]⟩,⟨31,1,.rw,[]⟩,⟨47,1,.rw,[]⟩,⟨63,1,.rw,[]⟩], 0x0⟩,
  /- ENV_CFG[e] -/ ⟨0x10000, [(1024,0x100)], [⟨0,1,.rw,[]⟩,⟨16,10,.rw,[(0,1000)]⟩,⟨32,11,.rw,[]⟩,⟨48,16,.rw,[(16,65535)]⟩], 0x0⟩,
  /- ENV_CREDIT[e] -/ ⟨0x10008, [(1024,0x100)], [⟨0,32,.ro,[]⟩,⟨32,32,.ro,[]⟩], 0x0⟩]

def spl1 : List RegDef := [
  /- ENV_ENERGY[e] -/ ⟨0x10010, [(1024,0x100)], [⟨0,64,.ro,[]⟩], 0x0⟩,
  /- ENV_STS[e] -/ ⟨0x10018, [(1024,0x100)], [⟨0,16,.rc,[]⟩,⟨16,16,.rc,[]⟩,⟨32,16,.rc,[]⟩], 0x0⟩]

/-- Registers of SPL, offsets from its base. -/
def spl : List RegDef := spl0 ++ spl1

def swc0 : List RegDef := [
  /- SWC_CTL -/ ⟨0x0, [], [⟨0,1,.rw,[]⟩,⟨1,1,.rw,[]⟩], 0x0⟩,
  /- SWC_ENSTAT -/ ⟨0x8, [], [⟨0,8,.ro,[]⟩,⟨8,24,.ro,[]⟩,⟨32,26,.ro,[]⟩,⟨62,1,.ro,[]⟩,⟨63,1,.ro,[]⟩], 0x0⟩,
  /- SWC_BUF_CFG -/ ⟨0x10, [], [⟨3,5,.rw,[]⟩,⟨16,14,.rw,[(256,8192)]⟩], 0x8000080⟩,
  /- SWC_BUF_STS -/ ⟨0x18, [], [⟨0,16,.ro,[]⟩,⟨16,16,.ro,[]⟩,⟨32,8,.ro,[]⟩,⟨40,4,.ro,[]⟩,⟨48,16,.rc,[]⟩], 0x8000⟩,
  /- SWC_EVICT_STS -/ ⟨0x20, [], [⟨0,32,.rc,[]⟩,⟨32,32,.rc,[]⟩], 0x0⟩,
  /- SWC_MC_STS -/ ⟨0x28, [], [⟨0,32,.rc,[]⟩,⟨32,16,.rc,[]⟩,⟨48,14,.ro,[]⟩], 0x0⟩,
  /- SWC_PORT_CFG[p] -/ ⟨0x100, [(11,0x8)], [⟨0,16,.rw,[(0,16384)]⟩,⟨16,3,.rw,[(0,6)]⟩,⟨20,1,.rw,[]⟩,⟨24,4,.rw,[]⟩,⟨32,16,.rw,[(256,16384)]⟩,⟨48,16,.rw,[(1,2000)]⟩], 0x5100000030400⟩,
  /- SWC_PORT_STS[p] -/ ⟨0x200, [(11,0x8)], [⟨0,16,.ro,[]⟩,⟨16,2,.ro,[]⟩,⟨19,13,.ro,[]⟩,⟨32,16,.rc,[]⟩,⟨48,16,.rc,[]⟩], 0x20000⟩,
  /- SWC_INMAP[p][v] -/ ⟨0x400, [(7,0x40), (8,0x8)], [⟨0,3,.rw,[]⟩,⟨4,3,.rw,[]⟩], 0x0⟩,
  /- SWC_OUTMAP[p] -/ ⟨0x600, [(7,0x8)], [⟨0,3,.rw,[]⟩,⟨4,3,.rw,[]⟩,⟨8,3,.rw,[]⟩,⟨12,3,.rw,[]⟩,⟨16,3,.rw,[]⟩,⟨20,3,.rw,[]⟩,⟨24,3,.rw,[]⟩,⟨28,3,.rw,[]⟩], 0x0⟩,
  /- SWC_TAIL_BASE -/ ⟨0x700, [], [⟨0,22,.rw,[]⟩], 0x0⟩,
  /- SWC_TAIL_SIZE -/ ⟨0x708, [], [⟨0,5,.rw,[]⟩,⟨8,1,.rw,[]⟩], 0x6⟩]

def swc1 : List RegDef := [
  /- SWC_TAIL_WR -/ ⟨0x710, [], [⟨0,22,.ro,[]⟩], 0x0⟩,
  /- SWC_TAIL_RD -/ ⟨0x718, [], [⟨0,22,.rw,[]⟩], 0x0⟩,
  /- SWC_TAIL_SEL[p] -/ ⟨0x720, [(11,0x8)], [⟨0,4,.rw,[]⟩,⟨4,4,.rw,[]⟩,⟨8,4,.rw,[]⟩,⟨12,4,.rw,[]⟩,⟨16,4,.rw,[]⟩,⟨20,4,.rw,[]⟩,⟨24,4,.rw,[]⟩,⟨28,4,.rw,[]⟩,⟨32,1,.rw,[]⟩], 0x0⟩,
  /- SWC_TAIL_STS -/ ⟨0x778, [], [⟨0,32,.rc,[]⟩,⟨32,16,.rc,[]⟩,⟨48,16,.rc,[]⟩], 0x0⟩]

/-- Registers of SWC, offsets from its base. -/
def swc : List RegDef := swc0 ++ swc1

def lp0 : List RegDef := [
  /- LPn_CTL -/ ⟨0x0, [], [⟨0,1,.rw,[]⟩,⟨1,1,.rw,[]⟩], 0x0⟩,
  /- LPn_ENSTAT -/ ⟨0x8, [], [⟨0,8,.ro,[]⟩,⟨8,24,.ro,[]⟩,⟨32,26,.ro,[]⟩,⟨62,1,.ro,[]⟩,⟨63,1,.ro,[]⟩], 0x0⟩,
  /- LPn_LINK_CFG -/ ⟨0x10, [], [⟨0,5,.rw,[(1,1),(2,2),(4,4),(8,8),(16,16)]⟩,⟨8,4,.rw,[(0,10)]⟩,⟨12,1,.rw,[]⟩], 0x0⟩,
  /- LPn_IDENT -/ ⟨0x18, [], [⟨0,16,.rw,[]⟩,⟨32,32,.ro,[]⟩], 0x0⟩,
  /- LPn_LINK_CMD -/ ⟨0x20, [], [⟨0,2,.wo,[]⟩,⟨2,1,.wo,[]⟩,⟨8,5,.wo,[]⟩], 0x0⟩,
  /- LPn_LINK_STS -/ ⟨0x28, [], [⟨0,4,.ro,[]⟩,⟨4,5,.ro,[]⟩,⟨9,4,.ro,[]⟩,⟨13,1,.ro,[]⟩,⟨14,1,.ro,[]⟩,⟨16,8,.ro,[]⟩,⟨24,16,.ro,[]⟩], 0x0⟩,
  /- LPn_LINK_CNT -/ ⟨0x30, [], [⟨0,16,.rc,[]⟩,⟨16,16,.rc,[]⟩,⟨32,16,.rc,[]⟩,⟨48,16,.rc,[]⟩], 0x0⟩,
  /- LPn_PEER -/ ⟨0x38, [], [⟨0,16,.ro,[]⟩,⟨16,3,.ro,[]⟩,⟨24,8,.ro,[]⟩,⟨32,32,.ro,[]⟩], 0x0⟩,
  /- LPn_PEER_BUF[i] -/ ⟨0x40, [(2,0x8)], [⟨0,16,.ro,[]⟩,⟨16,16,.ro,[]⟩,⟨32,16,.ro,[]⟩,⟨48,16,.ro,[]⟩], 0x0⟩,
  /- LPn_LANE_STS -/ ⟨0x50, [], [⟨0,16,.ro,[]⟩,⟨16,16,.ro,[]⟩,⟨32,4,.ro,[]⟩,⟨36,1,.ro,[]⟩,⟨40,16,.rc,[]⟩], 0x0⟩,
  /- LPn_SLOT_CAP -/ ⟨0x60, [], [⟨0,1,.ro,[]⟩,⟨1,1,.ro,[]⟩,⟨2,1,.ro,[]⟩,⟨3,1,.ro,[]⟩,⟨4,1,.ro,[]⟩,⟨16,10,.ro,[]⟩], 0x0⟩,
  /- LPn_SLOT_CTL -/ ⟨0x68, [], [⟨0,1,.rw,[]⟩,⟨2,2,.rw,[(0,2)]⟩,⟨4,2,.rw,[(0,2)]⟩,⟨6,1,.rw,[]⟩,⟨8,1,.rw,[]⟩,⟨9,1,.rw,[]⟩,⟨10,1,.rw,[]⟩,⟨11,1,.rw,[]⟩], 0x0⟩]

def lp1 : List RegDef := [
  /- LPn_SLOT_STS -/ ⟨0x70, [], [⟨0,1,.ro,[]⟩,⟨1,1,.ro,[]⟩,⟨2,1,.w1c,[]⟩,⟨3,1,.w1c,[]⟩,⟨4,1,.w1c,[]⟩,⟨5,1,.w1c,[]⟩,⟨6,2,.ro,[]⟩], 0x0⟩,
  /- LPn_LANE_CNT[k] -/ ⟨0x100, [(16,0x8)], [⟨0,16,.rc,[]⟩,⟨16,8,.rc,[]⟩,⟨24,1,.ro,[]⟩], 0x0⟩,
  /- LPn_GRACE -/ ⟨0x1000, [], [⟨0,11,.rw,[]⟩], 0x0⟩,
  /- LPn_PROTO_CFG -/ ⟨0x1008, [], [⟨0,3,.rw,[]⟩,⟨8,8,.rw,[]⟩,⟨16,16,.rw,[(100,10000)]⟩,⟨32,16,.rw,[]⟩], 0x0⟩,
  /- LPn_VC_ENV[i] -/ ⟨0x1010, [(2,0x8)], [⟨0,10,.rw,[]⟩,⟨16,10,.rw,[]⟩,⟨32,10,.rw,[]⟩,⟨48,10,.rw,[]⟩,⟨15,1,.rw,[]⟩,⟨31,1,.rw,[]⟩,⟨47,1,.rw,[]⟩,⟨63,1,.rw,[]⟩], 0x0⟩,
  /- LPn_BALLAST[i] -/ ⟨0x1020, [(2,0x8)], [⟨0,16,.rw,[(0,0),(8,56)]⟩,⟨16,16,.rw,[(0,0),(8,56)]⟩,⟨32,16,.rw,[(0,0),(8,56)]⟩,⟨48,16,.rw,[(0,0),(8,56)]⟩], 0x0⟩,
  /- LPn_RTT -/ ⟨0x1030, [], [⟨0,16,.ro,[]⟩,⟨16,16,.ro,[]⟩,⟨32,5,.ro,[]⟩,⟨40,8,.ro,[]⟩], 0x0⟩,
  /- LPn_REARM -/ ⟨0x1038, [], [⟨0,1,.wo,[]⟩,⟨1,1,.ro,[]⟩], 0x0⟩,
  /- LPn_REPLAY_STS -/ ⟨0x1040, [], [⟨0,16,.rc,[]⟩,⟨16,16,.rc,[]⟩,⟨32,16,.rc,[]⟩,⟨48,8,.rc,[]⟩], 0x0⟩,
  /- LPn_FC_STS -/ ⟨0x1048, [], [⟨0,8,.ro,[]⟩,⟨8,8,.ro,[]⟩,⟨16,16,.rc,[]⟩,⟨32,16,.rc,[]⟩], 0x0⟩,
  /- LPn_OUTAGE_STS -/ ⟨0x1050, [], [⟨0,16,.rc,[]⟩,⟨16,16,.rc,[]⟩,⟨32,16,.rc,[]⟩,⟨48,16,.rc,[]⟩], 0x0⟩,
  /- LPn_FLUSH_ADDR -/ ⟨0x1058, [], [⟨0,48,.ro,[]⟩,⟨48,10,.ro,[]⟩,⟨63,1,.w1c,[]⟩], 0x0⟩]

def lp2 : List RegDef := [
  /- LPn_CFG_CMD -/ ⟨0x1060, [], [⟨3,29,.rw,[]⟩,⟨32,1,.rw,[]⟩,⟨33,1,.w1s,[]⟩,⟨36,2,.ro,[]⟩], 0x0⟩,
  /- LPn_CFG_DATA -/ ⟨0x1068, [], [⟨0,64,.rw,[]⟩], 0x0⟩,
  /- LPn_SB -/ ⟨0x1070, [], [⟨0,16,.rw,[]⟩,⟨16,16,.ro,[]⟩,⟨32,16,.w1c,[]⟩], 0x0⟩,
  /- LPn_PERR_STS -/ ⟨0x1078, [], [⟨0,6,.ro,[]⟩,⟨8,6,.rw,[]⟩,⟨16,16,.rc,[]⟩,⟨32,16,.rc,[]⟩,⟨48,16,.rc,[]⟩], 0x0⟩,
  /- LPn_ENV_ERRVEC[e] -/ ⟨0x4000, [(1024,0x8)], [⟨0,11,.rw,[]⟩,⟨16,11,.rw,[]⟩,⟨63,1,.rw,[]⟩], 0x0⟩]

/-- Registers of LP, offsets from its base. -/
def lp : List RegDef := lp0 ++ lp1 ++ lp2 ++ [/- posted-error ring, Table 12.8 -/ ⟨0x2000, [(256,0x8)], [⟨0,64,.ro,[]⟩], 0⟩]

def icu0 : List RegDef := [
  /- ICU_CTL -/ ⟨0x0, [], [⟨0,1,.rw,[]⟩], 0x0⟩,
  /- ICU_ENSTAT -/ ⟨0x8, [], [⟨0,8,.ro,[]⟩,⟨8,24,.ro,[]⟩,⟨32,26,.ro,[]⟩,⟨62,1,.ro,[]⟩,⟨63,1,.ro,[]⟩], 0x0⟩,
  /- ICU_TGT_STS -/ ⟨0x10, [], [⟨0,8,.ro,[]⟩,⟨8,1,.ro,[]⟩], 0x0⟩,
  /- ICU_STS -/ ⟨0x18, [], [⟨0,16,.rc,[]⟩,⟨16,16,.rc,[]⟩,⟨32,16,.rc,[]⟩], 0x0⟩,
  /- ICU_SWI -/ ⟨0x20, [], [⟨0,64,.wo,[]⟩], 0x0⟩,
  /- ICU_CLAIM[c] -/ ⟨0x100, [(8,0x10)], [⟨0,11,.ro,[]⟩,⟨16,8,.ro,[]⟩,⟨31,1,.ro,[]⟩], 0x7FF⟩,
  /- ICU_COMPLETE[c] -/ ⟨0x108, [(8,0x10)], [⟨0,11,.wo,[]⟩], 0x0⟩,
  /- ICU_SRC_CFG[s] -/ ⟨0x10000, [(1024,0x8)], [⟨0,1,.rw,[]⟩,⟨1,1,.rw,[]⟩,⟨2,1,.rw,[]⟩,⟨3,1,.rw,[]⟩,⟨8,9,.rw,[]⟩,⟨32,11,.rw,[]⟩,⟨48,11,.rw,[]⟩], 0x0⟩,
  /- ICU_SRC_STS[s] -/ ⟨0x20000, [(1024,0x8)], [⟨0,8,.ro,[]⟩,⟨8,1,.ro,[]⟩,⟨9,1,.ro,[]⟩,⟨10,1,.ro,[]⟩,⟨11,4,.ro,[]⟩,⟨16,10,.ro,[]⟩], 0x0⟩]

/-- Registers of ICU, offsets from its base. -/
def icu : List RegDef := icu0

def gdc0 : List RegDef := [
  /- GDC_CTL -/ ⟨0x0, [], [⟨0,1,.rw,[]⟩,⟨8,8,.rw,[]⟩], 0x0⟩,
  /- GDC_ENSTAT -/ ⟨0x8, [], [⟨0,8,.ro,[]⟩,⟨8,24,.ro,[]⟩,⟨32,26,.ro,[]⟩,⟨62,1,.ro,[]⟩,⟨63,1,.ro,[]⟩], 0x0⟩,
  /- GDC_STS -/ ⟨0x10, [], [⟨0,9,.ro,[]⟩,⟨16,5,.ro,[]⟩], 0x100000⟩,
  /- GDC_LOAD_CTL -/ ⟨0x20, [], [⟨0,3,.rw,[]⟩,⟨4,2,.wo,[]⟩,⟨6,1,.ro,[]⟩], 0x0⟩,
  /- GDC_LOAD_ADDR -/ ⟨0x28, [], [⟨3,27,.rw,[]⟩,⟨63,1,.rw,[]⟩], 0x0⟩,
  /- GDC_LOAD_DATA -/ ⟨0x30, [], [⟨0,64,.wo,[]⟩], 0x0⟩,
  /- GDC_CORE_CTL[c] -/ ⟨0x1000, [(8,0x40)], [⟨0,1,.rw,[]⟩,⟨1,1,.w1s,[]⟩,⟨2,1,.rw,[]⟩,⟨8,10,.rw,[]⟩,⟨32,10,.rw,[(1,1000)]⟩], 0x0⟩,
  /- GDC_CORE_BOOT[c] -/ ⟨0x1008, [(8,0x40)], [⟨1,55,.rw,[]⟩], 0x0⟩,
  /- GDC_CORE_STS[c] -/ ⟨0x1010, [(8,0x40)], [⟨0,3,.ro,[]⟩,⟨3,1,.ro,[]⟩,⟨4,1,.ro,[]⟩,⟨8,5,.ro,[]⟩,⟨16,8,.ro,[]⟩,⟨24,8,.rc,[]⟩,⟨32,16,.rc,[]⟩,⟨48,16,.rc,[]⟩], 0x0⟩]

/-- Registers of GDC, offsets from its base. -/
def gdc : List RegDef := gdc0

def hbm0 : List RegDef := [
  /- HBM_CTL -/ ⟨0x0, [], [⟨0,1,.rw,[]⟩], 0x0⟩,
  /- HBM_ENSTAT -/ ⟨0x8, [], [⟨0,8,.ro,[]⟩,⟨8,24,.ro,[]⟩,⟨32,26,.ro,[]⟩,⟨62,1,.ro,[]⟩,⟨63,1,.ro,[]⟩], 0x0⟩,
  /- HBM_STS -/ ⟨0x10, [], [⟨0,16,.ro,[]⟩,⟨16,16,.ro,[]⟩,⟨32,5,.ro,[]⟩,⟨37,1,.ro,[]⟩,⟨38,1,.ro,[]⟩,⟨40,8,.ro,[]⟩,⟨48,5,.ro,[]⟩], 0x0⟩,
  /- HBM_SHARE -/ ⟨0x18, [], [⟨0,6,.rw,[(1,63)]⟩,⟨8,6,.rw,[(1,63)]⟩,⟨16,6,.rw,[(1,63)]⟩,⟨24,6,.rw,[(1,63)]⟩,⟨32,6,.rw,[(1,63)]⟩], 0x1E08040A0C⟩,
  /- HBM_SR_CFG -/ ⟨0x20, [], [⟨0,16,.rw,[]⟩,⟨16,8,.rw,[(2,50)]⟩], 0xA0064⟩,
  /- HBM_SCRUB_CFG -/ ⟨0x28, [], [⟨0,8,.rw,[(0,168)]⟩,⟨8,8,.rw,[(1,255)]⟩], 0x418⟩,
  /- HBM_ECC_STS -/ ⟨0x30, [], [⟨0,24,.rc,[]⟩,⟨24,16,.rc,[]⟩,⟨40,16,.rc,[]⟩], 0x0⟩,
  /- HBM_PM_STS -/ ⟨0x38, [], [⟨0,16,.rc,[]⟩,⟨16,16,.rc,[]⟩,⟨32,16,.rc,[]⟩], 0x0⟩,
  /- HBM_PART[k] -/ ⟨0x100, [(6,0x8)], [⟨0,16,.ro,[]⟩,⟨16,16,.ro,[]⟩,⟨32,1,.ro,[]⟩], 0x0⟩,
  /- HBM_PC_STS[p] -/ ⟨0x200, [(16,0x8)], [⟨0,2,.ro,[]⟩,⟨8,7,.ro,[]⟩,⟨32,16,.rc,[]⟩,⟨48,16,.rc,[]⟩], 0x0⟩,
  /- HBM_REPAIR_LOG[i] -/ ⟨0x400, [(32,0x8)], [⟨0,4,.ro,[]⟩,⟨5,5,.ro,[]⟩,⟨16,15,.ro,[]⟩,⟨32,30,.ro,[]⟩,⟨63,1,.ro,[]⟩], 0x0⟩]

/-- Registers of HBM, offsets from its base. -/
def hbm : List RegDef := hbm0

def flt0 : List RegDef := [
  /- FLT_STATUS -/ ⟨0x0, [], [⟨0,3,.ro,[]⟩,⟨3,1,.ro,[]⟩,⟨4,1,.ro,[]⟩,⟨5,1,.ro,[]⟩,⟨6,1,.ro,[]⟩,⟨8,7,.ro,[]⟩,⟨16,6,.ro,[]⟩,⟨24,32,.ro,[]⟩], 0x0⟩,
  /- FLT_FIRST -/ ⟨0x8, [], [⟨0,6,.ro,[]⟩,⟨8,3,.ro,[]⟩,⟨63,1,.ro,[]⟩], 0x0⟩,
  /- FLT_FIRST_TIME -/ ⟨0x10, [], [⟨0,64,.ro,[]⟩], 0x0⟩,
  /- FLT_FIRST_INFO -/ ⟨0x18, [], [⟨0,64,.ro,[]⟩], 0x0⟩,
  /- FLT_OVF -/ ⟨0x20, [], [⟨0,1,.ro,[]⟩,⟨16,32,.ro,[]⟩], 0x0⟩,
  /- FLT_ACK -/ ⟨0x28, [], [⟨0,6,.wo,[]⟩,⟨8,1,.wo,[]⟩,⟨9,1,.wo,[]⟩], 0x0⟩,
  /- FLT_GRACE -/ ⟨0x30, [], [⟨0,16,.rw,[]⟩,⟨16,16,.rw,[]⟩,⟨32,16,.rw,[]⟩], 0x3E8000A000A⟩,
  /- FLT_QUIET -/ ⟨0x40, [], [⟨0,22,.rw,[(1,3600000)]⟩], 0x2710⟩,
  /- FLT_RECOV -/ ⟨0x48, [], [⟨0,16,.ro,[]⟩], 0x0⟩,
  /- FLT_SELFTEST -/ ⟨0x50, [], [⟨0,1,.ro,[]⟩,⟨1,1,.ro,[]⟩,⟨2,1,.w1s,[]⟩,⟨8,6,.rw,[]⟩,⟨16,16,.rc,[]⟩,⟨32,16,.rc,[]⟩,⟨48,6,.ro,[]⟩], 0x0⟩,
  /- FLT_ENSTAT -/ ⟨0x58, [], [⟨0,8,.ro,[]⟩,⟨8,24,.ro,[]⟩,⟨32,26,.ro,[]⟩,⟨62,1,.ro,[]⟩,⟨63,1,.ro,[]⟩], 0x0⟩,
  /- FLT_SRC_CFG[n] -/ ⟨0x100, [(64,0x8)], [⟨0,1,.rw,[]⟩,⟨1,1,.rw,[]⟩,⟨4,3,.rw,[]⟩,⟨8,3,.rw,[]⟩,⟨16,8,.rw,[]⟩,⟨32,22,.rw,[]⟩], 0x3E800040323⟩]

def flt1 : List RegDef := [
  /- FLT_SRC_CNT[n] -/ ⟨0x800, [(64,0x8)], [⟨0,8,.ro,[]⟩,⟨8,3,.ro,[]⟩,⟨11,1,.ro,[]⟩,⟨12,1,.ro,[]⟩,⟨13,1,.ro,[]⟩,⟨14,1,.ro,[]⟩,⟨16,32,.rc,[]⟩], 0x0⟩]

/-- Registers of FLT, offsets from its base. -/
def flt : List RegDef := flt0 ++ flt1

def prl0 : List RegDef := [
  /- PRL_CTL -/ ⟨0x0, [], [⟨0,1,.rw,[]⟩,⟨1,1,.rw,[]⟩,⟨2,1,.rw,[]⟩,⟨3,1,.wo,[]⟩,⟨4,1,.wo,[]⟩], 0x0⟩,
  /- PRL_PAIR_STS -/ ⟨0x2000, [], [⟨0,3,.ro,[]⟩,⟨3,1,.ro,[]⟩,⟨4,1,.ro,[]⟩,⟨5,1,.ro,[]⟩,⟨8,8,.ro,[]⟩,⟨16,16,.rc,[]⟩,⟨32,32,.ro,[]⟩], 0x0⟩,
  /- PRL_HB -/ ⟨0x2008, [], [⟨0,11,.rw,[(200,2000)]⟩,⟨16,8,.rw,[(10,255)]⟩,⟨32,16,.rc,[]⟩], 0x6403E8⟩,
  /- PRL_MIRROR -/ ⟨0x2010, [], [⟨0,4,.rw,[(1,8)]⟩,⟨16,32,.rc,[]⟩,⟨48,16,.rc,[]⟩], 0x2⟩,
  /- PRL_HOME[i] -/ ⟨0x2100, [(16,0x8)], [⟨0,64,.ro,[]⟩], 0x0⟩,
  /- PRL_OWN[i] -/ ⟨0x2180, [(16,0x8)], [⟨0,64,.ro,[]⟩], 0x0⟩,
  /- PRL_TAKE_VEC[e] -/ ⟨0x4000, [(1024,0x8)], [⟨0,11,.rw,[]⟩,⟨16,11,.rw,[]⟩,⟨63,1,.rw,[]⟩], 0x0⟩]

/-- Registers of PRL, offsets from its base. -/
def prl : List RegDef := prl0

end RegTable

end Sys2Proof.Machine
end

