-- ==== Sys2Proof/Machine/Bits.lean ====
section
/-! DEFINITION. Fields of words and numbers in bytes: bits are numbered from 0 at the least significant end and every
multi-byte value is little-endian (R3). -/
namespace Sys2Proof.Machine

open Sys2Proof

/-- Field [lo + w - 1 : lo] of a word, as a number. -/
def fieldOf (x : Word) (lo w : Nat) : Nat := (x.toNat >>> lo) % 2 ^ w

/-- The mask of field [lo + w - 1 : lo]. -/
def fieldMask (lo w : Nat) : Word := BitVec.ofNat 64 ((2 ^ w - 1) <<< lo)

/-- `x` with field [lo + w - 1 : lo] set to `v` (its low `w` bits). -/
def withField (x : Word) (lo w v : Nat) : Word :=
  (x &&& ~~~ fieldMask lo w) ||| BitVec.ofNat 64 ((v % 2 ^ w) <<< lo)

/-- Bit `i` of a number. -/
def bitOf (n i : Nat) : Bool := n.testBit i

/-- A number with bit `i` set. -/
def bitSet (n i : Nat) : Nat := n ||| (1 <<< i)

/-- A number with bit `i` cleared. -/
def bitClr (n i : Nat) : Nat := if n.testBit i then n - 2 ^ i else n

/-- 1 for true, 0 for false. -/
def b2n (b : Bool) : Nat := if b then 1 else 0

/-- `k` bytes of a number, least significant first (R3). -/
def toBytes (k n : Nat) : List Byte :=
  match k with
  | 0 => []
  | k + 1 => BitVec.ofNat 8 n :: toBytes k (n / 256)

/-- The number that bytes spell, least significant first (R3). -/
def ofBytes (l : List Byte) : Nat :=
  match l with
  | [] => 0
  | b :: r => b.toNat + 256 * ofBytes r

/-- The `len`-byte number at `off` in a byte string; bytes beyond its end read 0. -/
def bytesAt (l : List Byte) (off len : Nat) : Nat := ofBytes ((l.drop off).take len)

/-- The 64-bit word at `off`. -/
def wordAt (l : List Byte) (off : Nat) : Word := BitVec.ofNat 64 (bytesAt l off 8)

/-- Saturating addition under a `w`-bit counter. -/
def satAdd (w a b : Nat) : Nat := min (a + b) (2 ^ w - 1)

/-- The least element of a list that satisfies `p`. -/
def firstWhere (l : List Nat) (p : Nat → Bool) : Option Nat := l.find? p

end Sys2Proof.Machine
end

