-- ==== Sys2Proof/Machine/Map.lean ====
section
/-! DEFINITION. Sparse maps keyed by a natural number, as lists in one canonical form: keys strictly rising, and no
entry equal to what an unlisted key reads as (the default). Registers, per-function, per-port, per-queue and per-envelope
records, and the bytes of memory are such maps, so equal contents are equal data. -/
namespace Sys2Proof.Machine

/-- A sparse map from keys to values. -/
abbrev KMap (α : Type) := List (Nat × α)

/-- The listed value at `k`, if any. -/
def KMap.find {α : Type} (m : KMap α) (k : Nat) : Option α :=
  match m with
  | [] => none
  | (j, v) :: r => if j = k then some v else KMap.find r k

/-- The value at `k`, `d` where nothing is listed. -/
def KMap.get {α : Type} (m : KMap α) (d : α) (k : Nat) : α := (KMap.find m k).getD d

/-- `m` without `k`. -/
def KMap.erase {α : Type} (m : KMap α) (k : Nat) : KMap α := m.filter (fun e => e.1 != k)

/-- `m` with `(k, v)` placed before the first larger key. -/
def KMap.insert {α : Type} (m : KMap α) (k : Nat) (v : α) : KMap α :=
  match m with
  | [] => [(k, v)]
  | (j, w) :: r => if k < j then (k, v) :: (j, w) :: r else (j, w) :: KMap.insert r k v

/-- `m` with the value `v` at `k`; the default is not listed. -/
def KMap.set {α : Type} [DecidableEq α] (m : KMap α) (d : α) (k : Nat) (v : α) : KMap α :=
  if v = d then KMap.erase m k else KMap.insert (KMap.erase m k) k v

/-- Keys strictly rising and no default listed (`d` gives the default at each key). -/
def KMap.wf {α : Type} [DecidableEq α] (d : Nat → α) : KMap α → Bool
  | [] => true
  | [(k, v)] => v != d k
  | (k, v) :: (j, w) :: r => v != d k && Nat.blt k j && KMap.wf d ((j, w) :: r)

end Sys2Proof.Machine
end

