-- ==== Sys2Proof/Machine/Types.lean ====
section
/-! DEFINITION. The plain data that State holds and that commands carry: modes, blocks, agents, frames, and the records of
the blocks' internal state that no register shows. -/
namespace Sys2Proof.Machine

open Sys2Proof

/-- The operating modes (spec/03, Table 3.11). -/
inductive Mode where
  | off | tether | boot | config | run | degraded | quiesce | safe
deriving DecidableEq, Repr

/-- The code of a mode in `DEV_MODE`. -/
def Mode.code : Mode → Nat
  | .off => 0 | .tether => 1 | .boot => 2 | .config => 3
  | .run => 4 | .degraded => 5 | .quiesce => 6 | .safe => 7

/-- The blocks, each with its own registers and fault page (spec/01, Table 1.1). -/
inductive Blk where
  | dev | img | pwr | hep | wxl | qen | spl | swc | lp (n : Nat) | prl | icu | tth | hbm | gdc
deriving DecidableEq, Repr

/-- The block's bit in `DEV_FAULT_MAP`, which is also its ICU source (R392, Table 13.2). -/
def Blk.bit : Blk → Nat
  | .dev => 0 | .img => 1 | .pwr => 2 | .hep => 3 | .wxl => 4 | .qen => 5 | .spl => 6 | .swc => 7
  | .lp n => 8 + n | .prl => 14 | .icu => 15 | .tth => 16 | .hbm => 17 | .gdc => 18

/-- Control-space base of the block (Table 18.1). -/
def Blk.base : Blk → Nat
  | .dev => 0x10000 | .img => 0x20000 | .pwr => 0x40000 | .hep => 0x80000 | .wxl => 0x100000
  | .qen => 0x200000 | .spl => 0x400000 | .swc => 0x600000 | .lp n => 0x800000 + 0x100000 * n
  | .prl => 0xE00000 | .icu => 0xF00000 | .tth => 0x1000000 | .hbm => 0x1100000 | .gdc => 0x1400000

/-- The manifest ID of the block (Table 3.10), used as block ID in reason and SAFE_SRC fields. -/
def Blk.id : Blk → Nat
  | .dev => 1 | .img => 2 | .pwr => 3 | .hep => 4 | .wxl => 5 | .qen => 6 | .spl => 7 | .swc => 8
  | .lp _ => 9 | .prl => 10 | .icu => 11 | .tth => 12 | .hbm => 13 | .gdc => 14

/-- Every block instance, in the order of `DEV_FAULT_MAP`. -/
def Blk.all : List Blk :=
  [.dev, .img, .pwr, .hep, .wxl, .qen, .spl, .swc, .lp 0, .lp 1, .lp 2, .lp 3, .lp 4, .lp 5,
   .prl, .icu, .tth, .hbm, .gdc]

/-- Port block `p`: LP0 to LP5, and PRL for 6. -/
def portBlk (p : Nat) : Blk := if p = 6 then .prl else .lp p

/-- Frame types of Table 10.2. -/
inductive FTyp where
  | read | write | resp | respData | atomic | msi | control | tailBatch | prefData
deriving DecidableEq, Repr

/-- The TYPE code of a frame (Table 10.2). -/
def FTyp.code : FTyp → Nat
  | .read => 1 | .write => 2 | .resp => 3 | .respData => 4 | .atomic => 5 | .msi => 6
  | .control => 7 | .tailBatch => 8 | .prefData => 9

/-- Who made an access and what its answer is for. -/
inductive Origin where
  | none
  | host (fn tag : Nat)
  | step (q gen off : Nat)
  | fetch (q : Nat)
  | record (q : Nat)
  | result (q : Nat)
  | list (q : Nat)
  /-- A request of the partner of port `p`; `ser` numbers the packets of VC `vc` in their order of receipt. -/
  | partner (p vc tag ser env : Nat)
  | core (c : Nat)
  | prefetch (w : Nat)
  | msi (fn vec : Nat)
  | tail
  | writeBack (da : Nat)
  | pcFill (da : Nat)
  | report (q : Nat)
  | msg (vc vector action : Nat)
deriving DecidableEq, Repr

/-- The part of the switch buffer that holds a frame (spec/10, "Buffer and admission"). -/
inductive Pool where
  | reserve | class01 | multicast | shared
deriving DecidableEq, Repr

/-- Where the copy for target `t` of a multicast frame goes: output, address, and function and PASID toward the host. -/
structure McDst where
  t : Nat
  out : Nat
  addr : Nat
  fn : Nat := 0
  pasid : Option Nat := none
deriving DecidableEq, Repr

/-- A switch frame: the header fields of Table 10.2 and its payload. `outMask` pairs each output still owed with the
multicast target it serves; `data` is the payload; `origin` says what the answer is for. -/
structure Frame where
  typ : FTyp
  cls : Nat
  inp : Nat
  out : Nat
  ivc : Nat := 0
  env : Nat := 0
  addr : Nat := 0
  /-- The DA of a request whose `addr` is the host address it maps to; of a host window access, its host address. -/
  da : Nat := 0
  len : Nat := 0
  data : List Byte := []
  tag : Nat := 0
  fn : Nat := 0
  pasid : Option Nat := none
  ans : Ans := .ok
  origin : Origin := .none
  atop : Nat := 0
  noEvict : Bool := false
  poison : Bool := false
  se : Bool := false
  outMask : List (Nat × Nat) := []
  mcDst : List McDst := []
  admTime : Nat := 0
  pool : Pool := .shared
  /-- A response to an ATOM. -/
  atom : Bool := false
deriving DecidableEq, Repr

/-- A transaction-layer packet or message on the host link, as far as the spec fixes it. -/
inductive Tlp where
  | memWrite (fn : Nat) (addr : Nat) (data : List Byte)
  | memRead (fn tag : Nat) (addr len : Nat) (pasid : Option Nat)
  | completion (fn tag : Nat) (ans : Ans) (data : List Byte) (ep : Bool)
  | configCompletion (fn tag : Nat) (crs : Bool) (ur : Bool) (data : Nat)
  | msix (fn vec : Nat) (addr data : Nat)
  | msi (fn msg addr data : Nat)
  | intx (assert : Bool)
  | ltr (us : Nat)
  | pmPme | pmeToAck
  | translationRequest (fn tag : Nat) (pasid : Option Nat) (addr : Nat)
  | invalidationCompletion (fn itag : Nat)
  | err (fn : Nat) (corr : Bool)
deriving DecidableEq, Repr

/-- What leaves the device: the log of everything the outside can see it send. -/
inductive Out where
  | tlp (t : Tlp)
  | aer (fn : Nat) (fatal : Bool) (err : String)
  | gll (p : Nat) (k : Pkt)
  | eios (p : Nat)
  /-- A flit that carries NAK 1 with its ACK (R277). -/
  | nak (p ack : Nat)
  | epochTs (p : Nat) (epoch : Nat)
  | smbus (data : List Byte)
  | smbusNack
  | flash (copy : Nat) (op : Nat) (addr len : Nat)
  | ctlData (a : Agent) (v : Nat)
  | hostRead (fn tag : Nat) (v : Nat)
  | spdm (code : Nat) (data : List Byte)
  | rampGrant (k : Nat)
  | hostLane (req : Nat)
  | core (c : Nat) (cause : Nat) (val : Nat)
deriving DecidableEq, Repr

/-- The hash in a key slot: the Edbex hash of slot 0 as shipped (R55), or one programmed. -/
inductive KeyHash where
  | edbex
  | programmed (h : BitVec 384)
deriving DecidableEq, Repr

/-- One of the four key slots (R55). -/
structure KeySlot where
  hash : Option KeyHash := none
  revoked : Bool := false
deriving DecidableEq, Repr

/-- Tether state that no TTH register shows (spec/02, R38 to R42; spec/04, R93; spec/11, R249). -/
structure Tether where
  /-- TTH drove the main-rail enable low and `TT_PGOOD_MAIN` has not fallen yet. -/
  downReq : Bool := false
  /-- The 20 ms off time of R40 runs. -/
  offTime : Bool := false
  /-- A wake cause that will power the main rails up, as LAST_CAUSE codes it. -/
  wake : Option Nat := none
  /-- `WAKE_N` driven low. -/
  wakeN : Bool := false
  /-- The main rails came up since the last BOOT (R66). -/
  railsUp : Bool := false
  /-- The next wake from TETHER sets PME_Status (R93). -/
  wokeFromTether : Bool := false
  pmeEn : Bool := false
  pmeStatus : Bool := false
  keys : List KeySlot := [{ hash := some .edbex }, {}, {}, {}]
  /-- Boot counter from which LOCAL_EPOCH is taken (R249). -/
  boots : Nat := 0
deriving DecidableEq, Repr

/-- Pins as the device last saw them or drives them. Levels are electrical: `perstN = true` is deasserted (R10). DESIGN CHOICE, log entry 118. -/
structure Pins where
  perstN : Bool := false
  strapBoot : Nat := 0
  pairId : Nat := 0
  lswN : Bool := true
  thermN : Bool := true
  hbOut : Bool := false
  hbIn : Bool := false
  clkreqN : Bool := true
  /-- Presence of each slot, debounced. -/
  prsnt : List Bool := [false, false, false, false, false, false]
  pwren : List Bool := [false, false, false, false, false, false]
deriving DecidableEq, Repr

/-- DEV: the mode machine. `up` says that the main domain is out of reset, `stage1` that PWR/CLK is (R38). DEDUCED, log entry 110. -/
structure Dev where
  mode : Mode := .off
  up : Bool := false
  stage1 : Bool := false
  prev : Nat := 0
  cause : Nat := 0
  entry : Nat := 0
  time : Nat := 0
  /-- The present QUIESCE was entered from RUN. -/
  qFromRun : Bool := false
  /-- A retirement of transition 5's kind happened during this QUIESCE. -/
  qRetired : Bool := false
  /-- A retirement in CONFIG that makes DEV take transition 5 after transition 4 (R386). -/
  degradePending : Bool := false
deriving DecidableEq, Repr

/-- PWR/CLK state beside its registers: the ratio in 1/64 steps (64 full, 56 = 7/8, 48 = 3/4), the droop causes, the ratio
the load-step cause demands, whether the hold runs. -/
structure Pwr where
  ratio : Nat := 64
  droop1 : Bool := false
  droop2 : Bool := false
  lswRatio : Nat := 64
  lswHold : Bool := false
  read : Bool := false
deriving DecidableEq, Repr

/-- A running consistency check (R71): the offset of the register written, the value written, and the enable bit that is to
set; without one, the whole value governs once the check passes (R200, R217, R394). -/
structure Check where
  off : Nat
  val : Word
  bit : Option Nat := none
deriving DecidableEq, Repr

/-- Timers and raising event of one fault source (R379, R383, R384, R391). -/
structure FltSrc where
  winEnd : Nat := 0
  graceEnd : Nat := 0
  info : Nat := 0
  last : Nat := 0
  /-- The resource that the running self-test concerns, as FLT_FIRST_INFO names it (R387). -/
  test : Nat := 0
  /-- Resources of further events, tested next. -/
  more : List Nat := []
deriving DecidableEq, Repr

/-- One host-proxy event (R326); `direct` tells QEN's and the ports' events from the offers of ICU sources. -/
structure HpEvent where
  fn : Nat
  vec : Nat
  direct : Bool := true
deriving DecidableEq, Repr

/-- A MSG_INT waiting for the writes before it on its VC (R330). -/
structure MsgInt where
  port : Nat
  vc : Nat
  vector : Nat
  action : Nat
  env : Nat
  /-- Its place among the packets received on the VC. -/
  ser : Nat := 0
deriving DecidableEq, Repr

/-- ICU state beside its registers: for each offered source, the mask of targets; the queue of host-proxy events; direct
events held for PF0 while INTA delivers them, with merge counts; events held under rule 4 of R87; waiting MSG_INTs. -/
structure Icu where
  offer : KMap Nat := []
  hpq : List HpEvent := []
  intaHeld : List (Nat × Nat) := []
  held : List HpEvent := []
  inta : Bool := false
  msgs : List MsgInt := []
  msixRead : List HpEvent := []
deriving DecidableEq, Repr

/-- One PF entry of the function table (Table 4.3). -/
structure PfEnt where
  vendor : Nat := 0
  device : Nat := 0
  subVendor : Nat := 0
  subId : Nat := 0
  cls : Nat := 0
  rev : Nat := 0
  envelope : Nat := 0
  msixSize : Nat := 0
  msiLog2 : Nat := 0
  flags : Nat := 0
  pasidWidth : Nat := 0
  bar2Mode : Nat := 0
  bar2Log2 : Nat := 0
  bar4Mode : Nat := 0
  bar4Log2 : Nat := 0
  totalVfs : Nat := 0
  vfDevice : Nat := 0
  vfBar2Mode : Nat := 0
  vfBar2Log2 : Nat := 0
  vfFlags : Nat := 0
deriving DecidableEq, Repr

/-- The configuration-space state of one function that the spec gives an effect (spec/04). BARs hold the address written;
`vfBar*` and `numVfs` are the PF's SR-IOV fields. -/
structure Fn where
  bme : Bool := false
  mse : Bool := false
  intxDis : Bool := false
  d3 : Bool := false
  msixEn : Bool := false
  msixMask : Bool := false
  msiEn : Bool := false
  msiMme : Nat := 0
  msiMask : Nat := 0
  msiPend : Nat := 0
  flr : Bool := false
  flrStart : Nat := 0
  flrDiscard : Nat := 0
  flrAborted : Nat := 0
  atsEn : Bool := false
  pasidEn : Bool := false
  vfe : Bool := false
  numVfs : Nat := 0
  extTag : Bool := false
  tag10 : Bool := false
  tag14 : Bool := false
  cto : Nat := 0
  bar0 : Nat := 0
  bar2 : Nat := 0
  bar4 : Nat := 0
  ltrEn : Bool := false
  targetSpeed : Nat := 6
  pmeEn : Bool := false
  vfMse : Bool := false
  vfBar0 : Nat := 0
  vfBar2 : Nat := 0
  msiAddr : Nat := 0
  msiData : Nat := 0
deriving DecidableEq, Repr

/-- One MSI-X table entry of the pool in HBM, with its pending bit (R86, R328). Written masked by the fill (R361). -/
structure MsixEnt where
  addr : Nat := 0
  data : Nat := 0
  masked : Bool := true
  pending : Bool := false
deriving DecidableEq, Repr

/-- State of one of the 8,192 tag entries (R102, R105, R109, R113). -/
inductive TagSt where
  | inUse | quarantined | discard
deriving DecidableEq, Repr

/-- A tag entry in use or held, with the request it serves. `got` lists the byte ranges received (offset, bytes); `poison` says that
one of them carried EP. -/
structure TagEnt where
  fn : Nat
  tag : Nat
  st : TagSt := .inUse
  sent : Nat := 0
  timeout : Nat := 0
  f : Frame
  got : List (Nat × List Byte) := []
  poison : Bool := false
  deadline : Nat := 0
  heldDl : Bool := false
deriving DecidableEq, Repr

/-- HEP state beside its registers and the functions' configuration space. -/
structure Hep where
  tags : List TagEnt := []
  /-- Non-posted requests of the bridge that have reached HEP and have no tag yet (R102). -/
  wait : List Frame := []
  recovery : Bool := false
  training : Bool := false
  bus : Nat := 0
  idle : Bool := false
  idleTime : Nat := 0
  l0pWidth : Nat := 0
  pmeMsg : Bool := false
  /-- Width of the configuration for which the link was first trained in this BOOT, 0 before. -/
  firstWidth : Nat := 0
  /-- Completion records whose function may not issue requests (R108, R159). -/
  heldRec : List Frame := []
deriving DecidableEq, Repr

/-- An access that waits in WXL: its request as a frame whose address is a DA, or, through inbound window `win`, an offset;
`dev` says that no envelope is checked (device-bound agents, PF0's window). -/
structure Access where
  f : Frame
  win : Option Nat := none
  dev : Bool := false
deriving DecidableEq, Repr

/-- Held prefetched data (R136). `arrived` is false while the read is outstanding; `fda` is the DA of the frame that holds
it. -/
structure PfData where
  w : Nat
  da : Nat
  len : Nat
  idx : Nat
  gen : Nat
  se : Bool := false
  arrived : Bool := false
  data : List Byte := []
  fda : Nat := 0
deriving DecidableEq, Repr

/-- A line of the partner cache (R139 to R141): 4 KiB at `da`. -/
structure PcLine where
  da : Nat
  env : Nat
  dirty : Bool := false
  data : List Byte := []
  /-- Being written back. -/
  out : Bool := false
  /-- Way of its set. -/
  way : Nat := 0
deriving DecidableEq, Repr

/-- A MIGRATE in progress (R144 to R146). `pass` counts from 1; `hold` is the final hold; `dirty` lists 4 KiB blocks. -/
structure Mig where
  q : Nat
  first : Nat
  count : Nat
  dst : Nat
  /-- DA of each page's source frame. -/
  srcs : List Nat
  /-- Blocks (DA) the present pass copies; the first pass copies every page. -/
  copy : List Nat := []
  pass : Nat := 1
  further : Nat := 0
  dirty : List Nat := []
  hold : Bool := false
  holdStart : Nat := 0
  /-- The entries have been retargeted, and the change waits for its mirror. -/
  done : Bool := false
deriving DecidableEq, Repr

/-- A translation obtained by ATS (R128). -/
structure Atc where
  fn : Nat
  pasid : Nat
  page : Nat
  addr : Nat
  r : Bool
  w : Bool
deriving DecidableEq, Repr

/-- An invalidation request being served (R128), with the requests toward the host that were on their way when it arrived, by origin and
host address. -/
structure Inval where
  fn : Nat
  itag : Nat
  wait : List (Origin × Nat)
deriving DecidableEq, Repr

/-- An XLATE_UPDATE whose report waits for old frames (R121). -/
structure XlWait where
  q : Nat
  das : List Nat
deriving DecidableEq, Repr

/-- WXL state beside its registers. `tc` is the translation cache, most recently used first; `walks` the indices being
walked with the accesses that wait for them; `lastEnd` the end of the previous demand read of a window; `unused` the
prefetches discarded unused in a row. -/
structure Wxl where
  tc : List (Nat × Word) := []
  walks : List (Nat × List Access) := []
  atc : List Atc := []
  invals : List Inval := []
  atsWait : List (Atc × Access) := []
  lastEnd : KMap Nat := []
  unused : KMap Nat := []
  pf : List PfData := []
  pc : List PcLine := []
  migs : List Mig := []
  heldAcc : List Access := []
  fenced : List Nat := []
  xlWaits : List XlWait := []
  /-- Partner-cache lines being read for an allocation, with the accesses that wait (R140). -/
  fills : List (Nat × List Access) := []
  /-- Accesses beyond the 256 outstanding walks. -/
  walkWait : List Access := []
  /-- Write-backs a flush still waits for, by DA. -/
  flushing : List Nat := []
  /-- Ranges (DA, length) that WXL holds for a SCRUB repair or an ATOM (R184, R189). -/
  blockHold : List (Nat × Nat) := []
  /-- Retired ways of the translation cache (R123). -/
  waysOut : List Nat := []
deriving DecidableEq, Repr

/-- A finished operation's completion record, before it is written (R168). -/
structure Record where
  status : Nat
  mask : Nat := 0
  steps : Nat := 0
  bytes : Nat := 0
  energy : Nat := 0
  opSeq : Nat := 0
  /-- Its place in the order in which operations finished. -/
  ord : Nat := 0
deriving DecidableEq, Repr

/-- A queue command, doorbell or state change waiting for a context (R154, R166). -/
inductive QAct where
  | doorbell (fn idx : Nat)
  | command (k op : Nat)
  | prefetch (byQ : Option Nat)
  /-- The context itself, for a start or a record. -/
  | need
deriving DecidableEq, Repr

/-- Where the operation of an SQ stands between start and record. -/
inductive OpPhase where
  | idle
  /-- Handed to SPL, waiting for a release. -/
  | waiting
  /-- A step or control operation is released and has not ended. -/
  | released
  /-- A control operation waits for its own end (FENCE, XLATE_UPDATE report, mailbox, list read). -/
  | ctl
deriving DecidableEq, Repr

/-- The step of an operation that the movers execute (R174, R175): its bytes from `off`, reads and writes still open, the
bytes read by offset in the step, the pipeline, the cause that ended it early (a status of Table 7.8). -/
structure Step where
  on : Bool := false
  off : Nat := 0
  len : Nat := 0
  reads : Nat := 0
  writes : Nat := 0
  chunks : KMap (List Byte) := []
  pipe : Nat := 0
  fail : Option Nat := none
  /-- Bytes issued before BME of the function was cleared (R108). -/
  cut : Option Nat := none
  result : Option (List Byte) := none
deriving DecidableEq, Repr

/-- QEN's per-queue state beside the context (spec/07, spec/08). DEDUCED, log entry 50. -/
structure QAux where
  fetched : List (List Byte) := []
  fetchOut : Nat := 0
  fetchAns : Option (Ans × List Byte) := none
  /-- The answer of the fetch in progress is to be discarded (R158). -/
  fetchDrop : Bool := false
  phase : OpPhase := .idle
  /-- Attempt number: answers of an earlier attempt or operation are discarded. -/
  gen : Nat := 0
  step : Step := {}
  /-- Bytes of the operation (of the pass, for MIGRATE) released so far. -/
  relOff : Nat := 0
  /-- Per-operation charge taken at the first release (R207). -/
  opCharge : Nat := 0
  opReleased : Bool := false
  /-- SERVICE_CALL: the estimate of the unit that a `gyield` waits for (R348). -/
  unit : Nat := 0
  /-- Target list, update list or queue list of the operation, once read. -/
  list : List Byte := []
  listOut : Bool := false
  listAns : Option Ans := none
  stopReq : Bool := false
  drainTail : Nat := 0
  held : Option Record := none
  /-- The wait for a CQ slot, or for the mirror, has been counted. -/
  slotWait : Bool := false
  /-- The record's CQ was not cached when it was looked up. -/
  cqMiss : Bool := false
  /-- The context was replaced by zeros after an uncorrectable read: START is barred until a DISABLE (R167). -/
  lost : Bool := false
  lagWait : Bool := false
  /-- Writes that a FENCE waits for, by origin and address, and the partner-cache lines it writes back. -/
  fence : List (Origin × Nat) := []
  fenceLines : List Nat := []
  /-- The moderation timer of a CQ runs. -/
  modTimer : Bool := false
  /-- SCRUB: first and last bad DA, and whether a field changed since the last report. -/
  firstBad : Nat := 0
  lastBad : Nat := 0
  scrubNew : Bool := false
  /-- MULTICAST_WRITE: status of each dropped target by number. -/
  drops : List (Nat × Nat) := []
  /-- The ATOM packet of the operation has been sent; the mark before it (R403). -/
  atomSent : Bool := false
  atomMark : Bool := false
  /-- Completes with RESUMED_ON_PEER in place of OK (R408). -/
  resumed : Bool := false
  abortBy : Option Nat := none
  /-- The pipeline under test on which the discarded step is to run again (R180). -/
  pipeWait : Option Nat := none
  loads : List Nat := []
  /-- The loads of a CTX_PREFETCH have been asked for. -/
  asked : Bool := false
  /-- The slot whose command on this queue is in progress, and what arrived after it (R154, R162). -/
  cmd : Option Nat := none
  acts : List QAct := []
deriving DecidableEq, Repr

/-- A released step that has not ended (R176). -/
structure Rel where
  path : Nat
  q : Nat
  off : Nat
  len : Nat
  est : Nat
  row : Nat
  started : Bool := false
deriving DecidableEq, Repr

/-- QEN state beside its registers. `cache` lists the cached contexts, most recently used first, with their time of use;
`loads` the contexts being read with the actions that wait. -/
structure Qen where
  cache : List (Nat × Nat) := []
  loads : List (Nat × List QAct) := []
  pipes : List Nat := [0, 1, 2, 3, 4, 5, 6, 7, 8, 9, 10, 11, 12, 13, 14, 15]
  /-- Retired ways of the context cache (R166), and pipelines whose self-test runs (R180). -/
  waysOut : List Nat := []
  ptest : List Nat := []
  /-- Operations that have finished, and queues whose wait for a way has been counted. -/
  finished : Nat := 0
  pinWait : List Nat := []
deriving DecidableEq, Repr

/-- SPL state beside its registers: fractions carried, per-operation remainders, round-robin pointers, the reference
coefficients, the calibration window's samples, the energy charged in this interval. -/
structure Spl where
  carry : KMap Nat := []
  opRem : KMap Nat := []
  rrEnv : KMap Nat := []
  rrQ : KMap Nat := []
  /-- Released and not ended, in release order (R176). -/
  rels : List Rel := []
  refCoef : List Word := []
  refOp : Word := 0
  imgCoef : List Word := []
  imgOp : Word := 0
  samples : List (Nat × Nat) := []
  charged : Nat := 0
  accepted : Bool := false
  deferred : Bool := false
  /-- The device has been in RUN or DEGRADED throughout the present interval (R210). -/
  intervalOk : Bool := false
deriving DecidableEq, Repr

/-- SWC state beside its registers: frames waiting at the inputs, frames in the buffer in admission order, the classes of the
last 16 grants of each output, Tail staging and counters, retired banks. -/
structure Swc where
  inject : List Frame := []
  queued : List Frame := []
  grants : KMap (List Nat) := []
  staged : List (List Byte) := []
  tailCnt : KMap Nat := []
  tailSeq : Nat := 0
  tailLost : Nat := 0
  tailRun : Bool := false
  /-- Retired banks without a spare whose cells have not left yet, and every retired bank (R239). -/
  banksOut : List Nat := []
  banksDead : List Nat := []
  spares : List Nat := [1, 1, 1, 1, 1, 1, 1, 1]
  retry : List Frame := []
deriving DecidableEq, Repr

/-- Where IMG stands in the boot of a copy (R53 to R57). -/
inductive ImgStage where
  | idle | sfdp | header | early | waitFill | done
deriving DecidableEq, Repr

/-- One entry of the image's section table (Table 3.4). -/
structure Section where
  typ : Nat
  flags : Nat
  offset : Nat
  length : Nat
  rsv : Nat
  hash : BitVec 384
deriving DecidableEq, Repr

/-- IMG state beside its registers: the copy being tried and those left, the header and the early section bodies held until
they are applied, the late sections not yet handled, the flash operation in progress (1 ERASE, 2 PROGRAM, 3 VERIFY), the
values of the CONFIG section and of the header that the manifest reports. -/
structure Img where
  stage : ImgStage := .idle
  copy : Nat := 0
  next : List Nat := []
  header : List Byte := []
  secs : List Section := []
  bodies : List (List Byte) := []
  late : List Nat := []
  op : Nat := 0
  opCopy : Nat := 0
  cfg : Nat := 2
  ctoMs : Nat := 0
  pairMode : Nat := 0
  imageId : Nat := 0
  imageVer : Nat := 0
  imageHash : BitVec 384 := 0
  cfgHash : BitVec 384 := 0
  fnHash : BitVec 384 := 0
  winHash : BitVec 384 := 0
  dsn : Nat := 0
  hbmPart : List Byte := []
  /-- Window registers as the image left them (R110, R133). -/
  wins : KMap Word := []
deriving DecidableEq, Repr

/-- A packet sent and not yet acknowledged: the sequence numbers of its flits (`first`, `n` flits) and the packet
(R274, R278). -/
structure TxPkt where
  first : Nat
  n : Nat
  pkt : Pkt
  origin : Origin := .none
deriving DecidableEq, Repr

/-- A non-posted request outstanding at the partner, or its quarantined tag (R292, R305, R306), with the
data received in order and what its completions reported: POISON, CORRECTED, SE. -/
structure LinkNp where
  tag : Nat
  frame : Frame
  quarantined : Bool := false
  data : List Byte := []
  poison : Bool := false
  corrected : Bool := false
  se : Bool := false
  deadline : Nat := 0
deriving DecidableEq, Repr

/-- An entry of the write-attribution cache (R301): the write tag and the ORIGIN, FN and WHERE a ring entry shows. -/
structure Attrib where
  tag : Nat
  origin : Nat
  fn : Nat
  loc : Nat
  /-- The core whose store it is. -/
  core : Option Nat := none
deriving DecidableEq, Repr

/-- A retrain (`kind` 1) or resize (2) request of one end (R256). -/
structure LinkReq where
  kind : Nat
  eq : Bool := false
  test : Option Nat := none
  width : Nat := 0
deriving DecidableEq, Repr

/-- One block of training ordered sets as read (Tables 11.1 and 11.2). `lane` is 31 where the lanes are not numbered 0, 1, … in order;
`ok` says that no set is to be discarded (R246). -/
structure Gts where
  kind : Nat
  lane : Nat
  width : Nat
  eq : Bool
  test : Bool
  txp : Nat := 0
  reqp : Nat := 15
  testLane : Nat
  index : Nat
  linkId : Nat
  epoch : Nat
  vcs : Nat
  roles : Nat
  rxbuf : Nat
  probe : Nat
  echo : Nat
  ok : Bool
deriving DecidableEq, Repr

/-- State of a port block that no register shows (spec/11, spec/12): the training, the recorded epoch, the link layer, the
requests of both ends, the sleep handshake, the slot. -/
structure Port where
  /-- Training phase of Table 11.5, 0 outside training. -/
  phase : Nat := 0
  group : Nat := 0
  width : Nat := 0
  gtsLast : Option Gts := none
  gtsCount : Nat := 0
  gts2 : Option Gts := none
  gts3 : KMap Nat := []
  eqDone : Bool := false
  eqNow : Bool := false
  lockFails : Nat := 0
  testLane : Option Nat := none
  testDue : List Nat := []
  /-- Recorded partner epoch (R250); none at the first entry after BOOT. -/
  epochRec : Option Nat := none
  epochLost : Bool := false
  /-- Identity found at the last entry to L.ACTIVE, compared by R255. -/
  paired : Option Gts := none
  pairedBuf : KMap Nat := []
  -- link layer (R280)
  hasLl : Bool := false
  rxSeq : Nat := 0
  rxAny : Bool := false
  discarding : Bool := false
  framing : Bool := false
  nakTime : Nat := 0
  txSeq : Nat := 0
  acked : Nat := 4095
  unacked : List TxPkt := []
  nakAck : Option (Nat × Nat) := none
  replays : Nat := 0
  ackTime : Nat := 0
  rx : List Pkt := []
  /-- Header and payload received so far of a packet that the next DATA_CONT flit continues (R274). -/
  part : List Byte := []
  /-- Packets of the port block itself that wait to be sent. -/
  txq : List Pkt := []
  np : List LinkNp := []
  npIn : List Nat := []
  /-- Packets received so far on each VC. -/
  ser : KMap Nat := []
  writeTag : Nat := 0x1000
  attrib : KMap Attrib := []
  -- probes (R285)
  probe : Nat := 0
  /-- Probe values sent and not returned, with the time of the first flit that carried each. -/
  probes : List (Nat × Nat) := []
  rxProbe : Nat := 0
  samples : List Nat := []
  -- requests
  req : Option LinkReq := none
  peerReq : Option LinkReq := none
  held : Option LinkReq := none
  resizeTo : Nat := 0
  -- sleep (R299): 0 none, 1 SLEEP_REQ sent, 2 HOLD
  sleep : Nat := 0
  peerHold : Bool := false
  graceEnd : Nat := 0
  cfgTag : Option Nat := none
  msgSb : Nat := 0
  -- slot
  prsnt : Bool := false
  powered : Bool := false
  /-- The power indicator turns on at PWR_DONE (R264). -/
  indDue : Bool := false
  slotQuiesce : Bool := false
deriving DecidableEq, Repr

/-- HBM controller state beside its registers (spec/15). -/
structure Hbm where
  training : Bool := false
  filled : Bool := false
  /-- Pseudo-channels of the interleave set, ascending (R358). -/
  set : List Nat := []
  pcCount : Nat := 0
  read : Bool := false
  /-- The refresh interval is 1.95 µs (R367). -/
  hotRefresh : Bool := true
  /-- Refresh intervals that have passed since training (the model's own count). -/
  refreshes : Nat := 0
  /-- Row error tracker, most recently charged first: pseudo-channel, bank, row, count (R370). -/
  tracker : List (Nat × Nat × Nat × Nat) := []
  /-- Row tests running: pseudo-channel, bank, row, fault source that started it. -/
  rowTests : List (Nat × Nat × Nat × Nat) := []
  pcTests : List Nat := []
  /-- Spare rows used, by 32 × pseudo-channel + bank. -/
  spareRows : KMap Nat := []
  /-- 8-byte words that read as uncorrectable, by HBM offset ÷ 8 (R368). -/
  poison : KMap Bool := []
  /-- Frames that SP2 has accepted and the controller has not served. -/
  wait : List Frame := []
  scrubPos : Nat := 0
  calTemp : Nat := 0
  exiting : Bool := false
  exitStart : Nat := 0
  /-- Pseudo-channels in self-refresh, ascending, and those being recalibrated in an exit (R375). -/
  sr : List Nat := []
  recal : List Nat := []
  out : List Nat := []
deriving DecidableEq, Repr

/-- A mailbox entry (Table 14.4): 0 free, 1 placed, 2 taken; the core's completion area in `area`. -/
structure MboxEnt where
  st : Nat := 0
  desc : List Byte := []
  sq : Nat := 0
  opSeq : Nat := 0
  env : Nat := 0
  abort : Bool := false
  time : Nat := 0
  area : List Byte := []
deriving DecidableEq, Repr

/-- A Gondola core's state beside its registers (spec/14): CSRs of Table 14.3, FAST entry, mailbox ring, memory access in
progress. `x` and `shadow` are the two banks of x1 to x15. PRESUMED, log entry 91. -/
structure Core where
  pc : Nat := 0
  machine : Bool := true
  x : KMap Word := []
  shadow : KMap Word := []
  fastVec : Word := 0
  fastEn : Bool := false
  fastActive : Bool := false
  fastEpc : Word := 0
  fastFrom : Bool := true
  mbox : KMap MboxEnt := []
  head : Nat := 0
  tail : Nat := 0
  /-- ABORT_PEND of `gmbstat` (R350). -/
  mboxAbort : Bool := false
  gafault : Nat := 0
  mtval : Nat := 0
  mtimecmp : Word := 0
  /-- An envelope-view load that waits for its answer: core address and length. -/
  load : Option (Nat × Nat) := none
  /-- The answer that has reached the core (R342). -/
  loadAns : Option (Ans × List Byte) := none
  /-- The entry whose `gyield` waits for the operation's next unit. -/
  yield : Option Nat := none
  loadLog : List Byte := []
  meas : BitVec 384 := 0
  started : Bool := false
deriving DecidableEq, Repr

/-- GDC state beside its registers. -/
structure Gdc where
  /-- Core that the load in progress names (R352). -/
  loadCore : Nat := 0
  l2Out : List Nat := []
  tcmOut : KMap (List Nat) := []
deriving DecidableEq, Repr

/-- A mirror item sent and not yet mirrored: the operation's queue, and whether it is a step boundary (R404). -/
structure MirItem where
  q : Nat
  boundary : Bool
deriving DecidableEq, Repr

/-- PRL state beside its registers (spec/17). `detected` is the time a trigger was detected. -/
structure Prl where
  peerAnswered : Bool := false
  /-- The peer has PAIR_EN 1 and has passed its check. -/
  peerReady : Bool := false
  peerFnHash : BitVec 384 := 0
  peerWinHash : BitVec 384 := 0
  peerMode : Nat := 0
  peerHome : List Word := []
  peerOwn : List Word := []
  /-- The check of R414 has passed here. -/
  ready : Bool := false
  sentSync : Bool := false
  gotSync : Bool := false
  unmirrored : List MirItem := []
  atomMark : List Nat := []
  hbSilent : Bool := false
  probing : Bool := false
  confirm : Bool := false
  detected : Nat := 0
  giving : List Nat := []
  formed : Bool := false
deriving DecidableEq, Repr

end Sys2Proof.Machine
end

