-- ==== Sys2Proof/Machine/State.lean ====
section
/-! DEFINITION. The state of the block: every register of control space and of the function pages, the internal state the
spec describes, the memories, the pins, the log of what leaves the device, and the queue of waiting commands. -/
namespace Sys2Proof.Machine

open Sys2Proof

/-- The state. `regs` holds every register at its control-space offset (function pages at pseudo-offsets), with the value
of its Reset column where nothing is listed. -/
structure State where
  /-- Commands waiting, first in first out. -/
  pending : List Instr := []
  regs : KMap Word := []
  tt : Tether := {}
  pins : Pins := {}
  dev : Dev := {}
  pwr : Pwr := {}
  img : Img := {}
  checks : List Check := []
  flt : KMap FltSrc := []
  icu : Icu := {}
  pf : KMap PfEnt := []
  vf : KMap (Nat × Nat) := []
  fns : KMap Fn := []
  msix : KMap MsixEnt := []
  hep : Hep := {}
  wxl : Wxl := {}
  /-- The translation table in HBM, by index. -/
  xt : KMap Word := []
  qen : Qen := {}
  /-- The context store in HBM, by 16 × queue + word. -/
  ctx : KMap Word := []
  qaux : KMap QAux := []
  spl : Spl := {}
  swc : Swc := {}
  ports : KMap Port := []
  hbm : Hbm := {}
  /-- HBM bytes by offset; an unlisted byte reads 0, as the fill of R361 leaves it. -/
  mem : List Host.Cell := []
  gdc : Gdc := {}
  cores : KMap Core := []
  /-- Retired SRAM banks of SPL, HEP and ICU, by the block's bit (Table 16.3). -/
  sram : KMap (List Nat) := []
  /-- TCM bytes, at 0x40000 × core + offset. -/
  tcm : List Host.Cell := []
  prl : Prl := {}
  /-- What left the device, oldest first. -/
  out : List Out := []
  /-- Number of free values used so far. -/
  free : Nat := 0
deriving DecidableEq, Repr

/-- Why the machine stops with a fault. -/
inductive Fault where
  /-- Raised by HBM_ACCESS for a range that reaches the capacity of the interleave set (R358): no such byte exists. Safe: the spec
  lets no access through with such an address (R15). -/
  | hbmOutOfRange
deriving DecidableEq, Repr

/-- Why a command has no meaning. -/
inductive Refusal where
  /-- No meaning yet for this command. Safe. -/
  | notModelled (mnemonic : String)
deriving DecidableEq, Repr

/-- The machine right after `VDD_TT` has come up: the Tether in its reset, the main rails off (mode OFF), every register
at its Reset column, nothing in any memory.
DESIGN CHOICE, log entry 1; DESIGN CHOICE, log entry 6, DESIGN CHOICE, log entry 99; DESIGN CHOICE, log entry 118. -/
def State.reset : State := {}

end Sys2Proof.Machine
end

