-- ==== Sys2Proof/Machine/Ops.lean ====
section
/-! DEFINITION. The named operations over registers, time, outputs and the objects every block asks about: reset values,
reading and writing a register field, the configuration, the functions, envelopes and cores. -/
namespace Sys2Proof.Machine

open Sys2Proof

/-! ### Register addresses -/

/-- The block whose region holds a control-space offset (Table 18.1). -/
def blockAt (off : Nat) : Option Blk :=
  if off < 0x10000 then none
  else if off < 0x20000 then some .dev
  else if off < 0x40000 then some .img
  else if off < 0x80000 then some .pwr
  else if off < 0x100000 then some .hep
  else if off < 0x200000 then some .wxl
  else if off < 0x400000 then some .qen
  else if off < 0x600000 then some .spl
  else if off < 0x800000 then some .swc
  else if off < 0xE00000 then some (.lp ((off - 0x800000) / 0x100000))
  else if off < 0xF00000 then some .prl
  else if off < 0x1000000 then some .icu
  else if off < 0x1100000 then some .tth
  else if off < 0x1200000 then some .hbm
  else if off < 0x1400000 then none
  else if off < 0x1800000 then some .gdc
  else none

/-- Registers of a block, offsets from its base. PRL has its own and those of LPn that Table 18.11 names. -/
def blockRegs : Blk → List RegDef
  | .dev => RegTable.dev | .img => RegTable.img | .pwr => RegTable.pwr | .hep => RegTable.hep
  | .wxl => RegTable.wxl | .qen => RegTable.qen | .spl => RegTable.spl | .swc => RegTable.swc
  | .lp _ => RegTable.lp
  | .prl => RegTable.prl ++ RegTable.lp.filter fun r =>
      (8 ≤ r.base && r.base ≤ 0x50) || r.base == 0x100 || r.base == 0x1000 || r.base == 0x1008
        || r.base == 0x1020 || r.base == 0x1030 || r.base == 0x1040 || r.base == 0x1048 || r.base == 0x1050
  | .icu => RegTable.icu | .tth => RegTable.tth | .hbm => RegTable.hbm | .gdc => RegTable.gdc

/-- Whether a register array holds the block offset `d`. -/
def RegDef.covers (r : RegDef) (d : Nat) : Bool :=
  if d < r.base then false
  else match r.dims with
    | [] => d == r.base
    | [(c, s)] => (d - r.base) % s == 0 && (d - r.base) / s < c
    | (c1, s1) :: (c2, s2) :: _ =>
      (d - r.base) / s1 < c1 && ((d - r.base) % s1) % s2 == 0 && ((d - r.base) % s1) / s2 < c2

/-- LP fault sources (Tables 11.9, 12.10). -/
def lpSrcLevel (i : Nat) : Nat :=
  if i < 16 then 2 else if i = 16 then 4 else if i = 18 then 2 else if i < 21 then 1
  else if i = 33 || i = 36 || i = 37 then 2 else if 32 ≤ i && i ≤ 40 then 1 else 0

/-- PRL pair fault sources (Table 17.6). -/
def prlSrcLevel (i : Nat) : Nat :=
  if i = 49 || i = 50 || i = 51 then 2 else if i = 48 || i = 52 then 1 else 0

/-- HBM fault sources (Table 15.8). -/
def hbmSrcLevel (i : Nat) : Nat :=
  if i = 4 then 4 else if i = 2 || i = 6 || i = 7 then 1 else if i < 6 then 2 else 0

/-- GDC fault sources (Table 14.7). -/
def gdcSrcLevel (i : Nat) : Nat :=
  if i < 2 then 2 else if i = 3 then 3 else if i < 6 then 1 else 0

/-- Level-triggered pair sources (Table 17.5). -/
def icuPairLevel (s : Nat) : Bool := s == 60 || s == 62

/-- Base level that the owning chapter gives fault source `id` of a block; 0 where the block lists none (Tables 16.5, 6.7,
7.9, 9.5, 10.6, 11.9, 12.10, 13.4, 14.9, 15.8, 17.5). -/
def srcLevel : Blk → Nat → Nat
  | .dev, 0 => 1
  | .img, i => if i < 3 then 1 else 0
  | .pwr, i => if i = 2 then 2 else if i = 4 then 1 else if i < 4 then 5 else 0
  | .hep, i => if i < 3 then 2 else if i < 5 then 1 else 0
  | .tth, i => if i = 0 then 2 else if i = 1 then 1 else 0
  | .wxl, i => if i = 0 || i = 1 || i = 6 || i = 7 then 2 else if i < 9 then 1 else 0
  | .qen, i => if i = 0 || i = 1 || i = 4 then 2 else if i < 6 then 1 else 0
  | .spl, i => if i = 0 then 2 else if i < 4 then 1 else 0
  | .swc, i => if i = 0 then 2 else if i = 1 then 4 else if i = 2 then 5 else if i < 7 then 1 else 0
  | .icu, i => if i = 0 || i = 3 then 2 else if i < 5 then 1 else 0
  | .lp _, i => lpSrcLevel i
  | .prl, i => if 48 ≤ i then prlSrcLevel i else if i = 18 || i = 19 || i = 36 then 0 else lpSrcLevel i
  | .hbm, i => hbmSrcLevel i
  | .gdc, i => gdcSrcLevel i
  | _, _ => 0

/-- Reset of `FLT_SRC_CFG[n]` by the source's base level (Table 16.6). -/
def srcCfgReset : Nat → Nat
  | 1 => 0x000003E800040113
  | 2 => 0x000003E800040323
  | 3 => 0x000003E800040433
  | 4 => 0x000003E800040543
  | 5 => 0x000003E800040553
  | _ => 0

/-- Sources below 256 that Table 13.2 makes level-triggered. -/
def icuLevelSrc (s : Nat) : Bool :=
  s ≤ 18 || (32 ≤ s && s ≤ 37) || (40 ≤ s && s ≤ 45) || (48 ≤ s && s ≤ 53) || s == 58 || (64 ≤ s && s ≤ 71)
    || icuPairLevel s

/-- Value of the Reset column of the register at block offset `d` of block `b` (R9). -/
def blockReset (b : Blk) (d : Nat) : Nat :=
  if 0xF000 ≤ d && d < 0x10000 then
    let e := d - 0xF000
    if e == 0x30 then 0x000003E8000A000A
    else if e == 0x40 then 0x2710
    else if 0x100 ≤ e && e < 0x300 && e % 8 == 0 then srcCfgReset (srcLevel b ((e - 0x100) / 8))
    else 0
  else
    match b with
    | .icu =>
      if 0x10000 ≤ d && d < 0x10800 && icuLevelSrc ((d - 0x10000) / 8) then 8
      else match (blockRegs b).find? (fun r => r.covers d) with
        | some r => r.reset
        | none => 0
    | .swc =>
      if 0x200 ≤ d && d < 0x258 then
        (if d == 0x208 || d == 0x210 || d == 0x218 then 0 else 0x20000)
      else match (blockRegs b).find? (fun r => r.covers d) with
        | some r => r.reset
        | none => 0
    | _ => match (blockRegs b).find? (fun r => r.covers d) with
      | some r => r.reset
      | none => 0

/-- Value of the Reset column of the register at a control-space offset; 0 for function-page registers. DESIGN CHOICE, log entry 1. -/
def resetOf (off : Nat) : Word :=
  match blockAt off with
  | some b => BitVec.ofNat 64 (blockReset b (off - b.base))
  | none => 0

/-! ### Register fields -/

/-- The stored value of the register at `off`. -/
def State.reg (s : State) (off : Nat) : Word := KMap.get s.regs (resetOf off) off

/-- `s` with the register at `off` holding `v`. -/
def State.setReg (s : State) (off : Nat) (v : Word) : State :=
  { s with regs := KMap.set s.regs (resetOf off) off v }

/-- The value of a field. -/
def State.get (s : State) (f : Field) : Nat := fieldOf (s.reg f.off) f.lo f.w

/-- `s` with a field set to `v` (its low bits). -/
def State.put (s : State) (f : Field) (v : Nat) : State :=
  s.setReg f.off (withField (s.reg f.off) f.lo f.w v)

/-- Whether a one-bit field is set. -/
def State.is (s : State) (f : Field) : Bool := s.get f != 0

/-- A counter field plus `n`, stopping at its maximum ("a counter that reaches its maximum stays there until read"). -/
def State.bumpBy (s : State) (f : Field) (n : Nat) : State := s.put f (satAdd f.w (s.get f) n)

/-- A counter field plus 1, stopping at its maximum. -/
def State.bump (s : State) (f : Field) : State := s.bumpBy f 1

/-- A field raised to `v` if it is lower (peak counters). DESIGN CHOICE, log entry 116. -/
def State.peak (s : State) (f : Field) (v : Nat) : State := if s.get f < v then s.put f (min v (2 ^ f.w - 1)) else s

/-- Something leaves the device. DESIGN CHOICE, log entry 119. -/
def State.emit (s : State) (o : Out) : State := { s with out := s.out ++ [o] }

/-- The next free value (a value the spec leaves open). DESIGN CHOICE, log entry 3. -/
def State.freeVal (s : State) : Word := Config.freeValue s.free

/-- The free values advance by one. -/
def State.useFree (s : State) : State := { s with free := s.free + 1 }

/-- `n` bytes that the spec leaves open, and the state that has used them. -/
def State.freeBytes (s : State) (n : Nat) : List Byte :=
  (List.range n).map fun i => BitVec.ofNat 8 ((Config.freeValue (s.free + i / 8)).toNat / 2 ^ (8 * (i % 8)))

/-- The free values behind `n` free bytes are used up. -/
def State.useFreeBytes (s : State) (n : Nat) : State := { s with free := s.free + (n + 7) / 8 }

/-! ### Time -/

/-- TIME ticks of a number of microseconds, at 1.2 GHz (R5). -/
def usTicks (us : Nat) : Nat := 1200 * us

/-- TIME ticks of a number of milliseconds. -/
def msTicks (ms : Nat) : Nat := 1200000 * ms

/-! ### Configuration, modes, switch ports -/

/-- The configuration of the booted image: 0 S, 1 M, 2 L, 3 PAIR (R18). -/
def State.cfg (s : State) : Nat := s.img.cfg

/-- Local ports of a configuration (Table 1.4). -/
def cfgPorts : Nat → List Nat
  | 0 => [2, 3]
  | 1 => [0, 2, 3, 4]
  | _ => [0, 1, 2, 3, 4, 5]

/-- Whether port block `p` (6 = PL) is in the configuration (Table 1.4). -/
def State.hasPort (s : State) (p : Nat) : Bool :=
  if p = 6 then s.cfg == 3 else (cfgPorts s.cfg).contains p

/-- Host width of a configuration (Table 1.4). -/
def cfgWidth : Nat → Nat
  | 0 => 4
  | 1 => 8
  | _ => 16

/-- Lanes of port block `p` (Table 1.5). -/
def portLanes (p : Nat) : Nat := if p = 0 || p = 1 || p = 6 then 16 else 8

/-- Switch port of port block `p` (Table 1.1). -/
def portSp (p : Nat) : Nat := 4 + p

/-- Whether a block is in the configuration (R20). -/
def State.hasBlk (s : State) : Blk → Bool
  | .lp n => s.hasPort n
  | .prl => s.hasPort 6
  | _ => true

/-- Switch ports of the configuration. -/
def State.switchPorts (s : State) : List Nat :=
  [0, 1, 2, 3] ++ ((List.range 7).filter s.hasPort).map portSp

/-- Modes in which the device serves in full: RUN, DEGRADED and QUIESCE (Table 3.12). -/
def Mode.serving (m : Mode) : Bool :=
  match m with
  | .run | .degraded | .quiesce => true
  | _ => false

/-- RUN or DEGRADED. -/
def Mode.running (m : Mode) : Bool :=
  match m with
  | .run | .degraded => true
  | _ => false

/-- CONFIG and later: the main domain is up and has left BOOT. -/
def Mode.configured (m : Mode) : Bool :=
  match m with
  | .config | .run | .degraded | .quiesce | .safe => true
  | _ => false

/-! ### Functions (spec/04) -/

/-- PF entry `p` of the function table. -/
def State.pfEnt (s : State) (p : Nat) : PfEnt := KMap.get s.pf {} p

/-- VF slot of RID offset `f`: ENVELOPE and MSIX_SIZE. -/
def State.vfEnt (s : State) (f : Nat) : Nat × Nat := KMap.get s.vf (0, 0) f

/-- Configuration state of function `f`. -/
def State.fnOf (s : State) (f : Nat) : Fn := KMap.get s.fns {} f

/-- `s` with the configuration state of `f`. -/
def State.setFn (s : State) (f : Nat) (x : Fn) : State := { s with fns := KMap.set s.fns {} f x }

/-- S(p): the VF slots of the PFs before `p` (R78). -/
def State.vfBase (s : State) (p : Nat) : Nat :=
  match p with
  | 0 => 0
  | 1 => 0
  | p + 1 => s.vfBase p + (s.pfEnt p).totalVfs

/-- The PF of RID offset `f`: itself below 8, otherwise the PF whose VF slots hold it (R78). -/
def State.pfOf (s : State) (f : Nat) : Option Nat :=
  if f < 8 then some f
  else [1, 2, 3, 4, 5, 6, 7].find? fun p =>
    8 + s.vfBase p ≤ f && f < 8 + s.vfBase p + (s.pfEnt p).totalVfs

/-- The PF whose fields govern function `f` (itself for a PF). -/
def State.pfIdx (s : State) (f : Nat) : Nat := (s.pfOf f).getD 0

/-- Whether a function exists (R79): the PFs from CONFIG on, a VF while its PF's VF Enable is 1 and j ≤ NumVFs. -/
def State.fnExists (s : State) (f : Nat) : Bool :=
  if f < 8 then s.dev.mode.configured
  else match s.pfOf f with
    | some p => s.dev.mode.configured && (s.fnOf p).vfe && decide (f < 8 + s.vfBase p + (s.fnOf p).numVfs)
    | none => false

/-- Memory Space Enable of a function; a VF has VF MSE of its PF. -/
def State.fnMse (s : State) (f : Nat) : Bool := if f < 8 then (s.fnOf f).mse else (s.fnOf (s.pfIdx f)).vfMse

/-- The envelope of a function; none for ENVELOPE 0x0400 to 0xFFFF (Table 4.3). -/
def State.fnEnv (s : State) (f : Nat) : Option Nat :=
  let e := if f < 8 then (s.pfEnt f).envelope else (s.vfEnt f).1
  if e < 1024 then some e else none

/-- MSIX_SIZE of a function. -/
def State.fnMsix (s : State) (f : Nat) : Nat := if f < 8 then (s.pfEnt f).msixSize else (s.vfEnt f).2

/-- Whether a function is in D3hot; the VFs of a PF in D3hot behave as in D3hot (R90). -/
def State.fnD3 (s : State) (f : Nat) : Bool :=
  (s.fnOf f).d3 || (decide (8 ≤ f) && (s.fnOf (s.pfIdx f)).d3)

/-- The RID offsets with a VF slot within its PF's TOTAL_VFS, after PF0 to PF7: the order of the MSI-X slices (R86). -/
def State.fnCount (s : State) : Nat := 8 + s.vfBase 8

/-- First pool entry of the slice of `f`: the sum of the slices before it (R86). -/
def State.msixBase (s : State) (f : Nat) : Nat :=
  (List.range f).foldl (fun n g => n + (s.fnMsix g + 1)) 0

/-- Whether RID offset `f` is PF0 to PF7 or a VF slot within its PF's TOTAL_VFS. -/
def State.fnSlot (s : State) (f : Nat) : Bool := (s.pfOf f).isSome

/-- Functions that exist in this state. -/
def State.fnsExisting (s : State) : List Nat := (List.range (8 + s.vfBase 8)).filter s.fnExists

/-! ### Envelopes and queue blocks (spec/09) -/

/-- Whether envelope `e` is defined. -/
def State.envDefined (s : State) (e : Nat) : Bool := decide (e < 1024) && s.is (F.ENV_CFG_DEFINE e)

/-- The envelope that owns queue number `q` by its block (R199). -/
def State.qblkEnv (s : State) (q : Nat) : Option Nat :=
  let b := q / 1024
  if s.is (F.ENV_QBLK_VALID (b / 4) (b % 4)) then some (s.get (F.ENV_QBLK_ENV (b / 4) (b % 4))) else none

/-! ### Gondola cores (spec/14) -/

/-- The record of core `c`. -/
def State.coreOf (s : State) (c : Nat) : Core := KMap.get s.cores {} c

/-- `s` with the record of core `c`. -/
def State.setCore (s : State) (c : Nat) (x : Core) : State := { s with cores := KMap.set s.cores {} c x }

/-- Whether a core is bound to the device (BIND_DEV). -/
def State.coreDev (s : State) (c : Nat) : Bool := s.is (F.GDC_CORE_CTL_BIND_DEV c)

/-! ### Ports -/

/-- The record of port block `p` (6 = PL). -/
def State.port (s : State) (p : Nat) : Port := KMap.get s.ports {} p

/-- `s` with the record of port `p`. -/
def State.setPort (s : State) (p : Nat) (x : Port) : State := { s with ports := KMap.set s.ports {} p x }

/-- The port's CTL.ENABLE; PRL has its own register. -/
def portEnFld (p : Nat) : Field := if p = 6 then F.PRL_CTL_ENABLE else F.LPn_CTL_ENABLE p

/-- Whether a port is enabled. -/
def State.portOn (s : State) (p : Nat) : Bool := s.is (portEnFld p)

/-! ### Queues -/

/-- Word `j` of the context of queue `q` (Table 7.3). -/
def State.ctxW (s : State) (q j : Nat) : Word := KMap.get s.ctx 0 (16 * q + j)

/-- `s` with word `j` of the context of `q`. -/
def State.setCtxW (s : State) (q j : Nat) (v : Word) : State := { s with ctx := KMap.set s.ctx 0 (16 * q + j) v }

/-- A field of a context: word, lowest bit, width. -/
structure CtxF where
  j : Nat
  lo : Nat
  w : Nat
deriving DecidableEq, Repr

namespace C
def RING_BASE : CtxF := ⟨0, 12, 36⟩
def LOG2_ENTRIES : CtxF := ⟨0, 48, 5⟩
def KIND : CtxF := ⟨0, 53, 1⟩
def STATE : CtxF := ⟨0, 56, 3⟩
def PRIORITY : CtxF := ⟨0, 60, 2⟩
def ENV : CtxF := ⟨1, 0, 10⟩
def OWNER_FN : CtxF := ⟨1, 16, 11⟩
def HEAD : CtxF := ⟨1, 32, 16⟩
def TAIL : CtxF := ⟨1, 48, 16⟩
def CQ : CtxF := ⟨2, 0, 22⟩
def CQ_GEN : CtxF := ⟨2, 32, 16⟩
def FETCH_BATCH : CtxF := ⟨2, 48, 4⟩
def STOP_ON_ERR : CtxF := ⟨2, 52, 1⟩
def VECTOR : CtxF := ⟨2, 0, 11⟩
def IRQ_EN : CtxF := ⟨2, 11, 1⟩
def ERR_IMM : CtxF := ⟨2, 12, 1⟩
def MOD_COUNT : CtxF := ⟨2, 16, 8⟩
def MOD_TIME_US : CtxF := ⟨2, 24, 12⟩
def PHASE : CtxF := ⟨2, 36, 1⟩
def RESERVED : CtxF := ⟨2, 48, 16⟩
def GEN : CtxF := ⟨3, 0, 16⟩
def ERR_STATUS : CtxF := ⟨3, 16, 8⟩
def CQ_WAIT : CtxF := ⟨3, 24, 1⟩
def OP_ACTIVE : CtxF := ⟨3, 25, 1⟩
def CK_STEPS : CtxF := ⟨3, 32, 29⟩
def PENDING : CtxF := ⟨3, 24, 8⟩
def BOUND : CtxF := ⟨3, 32, 16⟩
def CK_BYTES : CtxF := ⟨4, 0, 41⟩
def CK_ACC : CtxF := ⟨5, 0, 64⟩
def CK_ENERGY : CtxF := ⟨6, 0, 40⟩
def CK_SEQ : CtxF := ⟨6, 40, 16⟩
def ENERGY_ACC : CtxF := ⟨7, 0, 64⟩
end C

/-- A field of the context of queue `q`. -/
def State.cget (s : State) (q : Nat) (f : CtxF) : Nat := fieldOf (s.ctxW q f.j) f.lo f.w

/-- `s` with a field of the context of `q` set. -/
def State.cput (s : State) (q : Nat) (f : CtxF) (v : Nat) : State :=
  s.setCtxW q f.j (withField (s.ctxW q f.j) f.lo f.w v)

/-- QEN's record of queue `q` beside its context. -/
def State.qa (s : State) (q : Nat) : QAux := KMap.get s.qaux {} q

/-- `s` with QEN's record of `q`. -/
def State.setQa (s : State) (q : Nat) (x : QAux) : State := { s with qaux := KMap.set s.qaux {} q x }

/-- The block idles: `DEV_TIME` counts one tick of the 1.2 GHz clock once the main domain is out of reset (R5), and
nothing else happens (log entry 5). -/
def State.idle (s : State) : State :=
  if s.dev.up then { s with dev := { s.dev with time := s.dev.time + 1 } } else s

/-! ### Bytes of HBM -/

/-- The byte of HBM at offset `a`; a byte nothing has written reads 0, as the fill leaves it (R361). -/
def State.hbmByte (s : State) (a : Nat) : Byte := KMap.get s.mem 0 a

/-- `s` with the byte of HBM at `a` written. -/
def State.setHbmByte (s : State) (a : Nat) (b : Byte) : State := { s with mem := KMap.set s.mem 0 a b }

/-- `len` bytes of HBM from `a` on. -/
def State.hbmRead (s : State) (a len : Nat) : List Byte := (List.range len).map fun i => s.hbmByte (a + i)

/-- `s` with bytes of HBM written from `a` on. -/
def State.hbmWrite (s : State) (a : Nat) (l : List Byte) : State :=
  match l with
  | [] => s
  | b :: r => (s.setHbmByte a b).hbmWrite (a + 1) r

/-- Send a frame to the switch: it waits at its input until FRAME_ADMIT takes it. -/
def State.inject (s : State) (f : Frame) : State := { s with swc := { s.swc with inject := s.swc.inject ++ [f] } }

end Sys2Proof.Machine
end

