-- ==== Sys2Proof/Machine/Flags.lean ====
section
/-! DEFINITION. The flags every block shares: the fault page (levels, counting, escalation, latch, grace timers, AER report:
spec/16 and R114) and the sources and offers of the interrupt controller (spec/13). -/
namespace Sys2Proof.Machine

open Sys2Proof

/-! ### ICU sources and offers -/

/-- Whether core `c` is online: RUNNING or QUIESCING (R317, R354). -/
def State.coreOnline (s : State) (c : Nat) : Bool :=
  let st := s.get (F.GDC_CORE_STS_STATE c)
  st == 1 || st == 2

/-- Whether the host proxy is online: HEP enabled (R317). -/
def State.hpOnline (s : State) : Bool := s.is F.HEP_CTL_ENABLE

/-- Whether source `s'` is pending (R316). -/
def State.icuPending (s : State) (n : Nat) : Bool :=
  s.get (F.ICU_SRC_STS_COUNT n) != 0 || (s.is (F.ICU_SRC_CFG_LEVEL n) && s.is (F.ICU_SRC_STS_LEVEL n))

/-- Whether a source counts: its ENABLE and the ICU's. -/
def State.icuOn (s : State) (n : Nat) : Bool := s.is (F.ICU_SRC_CFG_ENABLE n) && s.is F.ICU_CTL_ENABLE

/-- The eligible targets of source `n` as a mask: bits 0 to 7 cores, bit 8 host proxy (R318). DEDUCED, log entry 89. -/
def State.icuEligible (s : State) (n : Nat) : Nat :=
  let m := s.get (F.ICU_SRC_CFG_TARGETS n)
  let cores := (List.range 8).foldl (fun acc c =>
    if bitOf m c && s.coreOnline c &&
        (s.coreDev c || (decide (256 ≤ n) && s.get (F.ICU_SRC_STS_ENV n) == s.get (F.GDC_CORE_CTL_ENV c)))
    then bitSet acc c else acc) 0
  if bitOf m 8 && s.hpOnline && s.fnExists (s.get (F.ICU_SRC_CFG_HOST_FN n)) then bitSet cores 8 else cores

/-- Modes in which the ICU makes offers (R333). -/
def icuOffersIn : Mode → Bool
  | .run | .degraded | .quiesce | .safe => true
  | _ => false

/-- Offer source `n` if R317 allows it; an offer to the host proxy raises its event at once (R319). -/
def icuOffer (n : Nat) (s : State) : State :=
  if s.icuPending n && s.icuOn n && !s.is (F.ICU_SRC_CFG_MASK n) && !s.is (F.ICU_SRC_STS_OFFERED n)
      && !s.is (F.ICU_SRC_STS_CLAIMED n) && icuOffersIn s.dev.mode && s.icuEligible n != 0 then
    let m := s.icuEligible n
    let s1 := s.put (F.ICU_SRC_STS_OFFERED n) 1
    let s2 := { s1 with icu := { s1.icu with offer := KMap.set s1.icu.offer 0 n m } }
    if bitOf m 8 then
      { s2 with icu := { s2.icu with
          hpq := s2.icu.hpq ++ [⟨s.get (F.ICU_SRC_CFG_HOST_FN n), s.get (F.ICU_SRC_CFG_HOST_VEC n), false⟩] } }
    else s2
  else s

/-- Withdraw the offer of source `n` from every target. -/
def icuWithdraw (n : Nat) (s : State) : State :=
  { s.put (F.ICU_SRC_STS_OFFERED n) 0 with icu := { s.icu with offer := KMap.set s.icu.offer 0 n 0 } }

/-- An enabled wake cause drives `WAKE_N` low where the Tether knows the configuration, it is L or PAIR, and HOST_WAKE is 1 (R39). -/
def wakeNLow (s : State) : State :=
  if s.is F.TTH_STS_CONFIG_VALID && decide (2 ≤ s.get F.TTH_STS_CONFIG) && s.is F.TTH_CTL_HOST_WAKE then
    { s with tt := { s.tt with wakeN := true } }
  else s

/-- Report a pending source of the wake list to TTH during transition 9 (R334). -/
def icuWake (n : Nat) (s : State) : State :=
  if s.tt.downReq && s.icuPending n && s.icuOn n && (List.range 32).any (fun i =>
      s.is (F.TTH_WAKE_ICU_VALID i) && s.get (F.TTH_WAKE_ICU_SOURCE i) == n) then
    let s1 := s.put F.TTH_WAKE_STS_ICU 1
    if s1.is F.TTH_WAKE_EN_ICU then wakeNLow { s1 with tt := { s1.tt with wake := some (s1.tt.wake.getD 5) } } else s1
  else s

/-- COUNT + 1 where the source is enabled, then wake report and offer (R315). Answers whether R318's HOST_UNBOUND holds. -/
def icuCount (n : Nat) (s : State) : State × Bool :=
  if s.icuOn n then
    let s1 := s.bump (F.ICU_SRC_STS_COUNT n)
    let unbound := bitOf (s1.get (F.ICU_SRC_CFG_TARGETS n)) 8 && !s1.fnExists (s1.get (F.ICU_SRC_CFG_HOST_FN n))
    (icuOffer n (icuWake n s1), unbound)
  else (s, false)

/-- LEVEL of an internal level source follows its condition; each rise counts (R315). -/
def icuInput (n : Nat) (lvl : Bool) (s : State) : State × Bool :=
  if lvl == s.is (F.ICU_SRC_STS_LEVEL n) then (s, false)
  else
    let s1 := s.put (F.ICU_SRC_STS_LEVEL n) (b2n lvl)
    if lvl then icuCount n s1 else (s1, false)

/-! ### Fault pages -/

/-- Key of a fault source's record. -/
def fltKey (b : Blk) (id : Nat) : Nat := 64 * b.bit + id

/-- The record of a fault source. -/
def State.fltOf (s : State) (b : Blk) (id : Nat) : FltSrc := KMap.get s.flt {} (fltKey b id)

/-- `s` with the record of a fault source. -/
def State.setFlt (s : State) (b : Blk) (id : Nat) (x : FltSrc) : State :=
  { s with flt := KMap.set s.flt {} (fltKey b id) x }

/-- Whether the page of `b` requests an interrupt (R392). -/
def State.fltIrq (s : State) (b : Blk) : Bool :=
  (List.range 64).any fun i =>
    s.is (F.FLT_SRC_CNT_ACK_PEND b.base i) && s.is (F.FLT_SRC_CNT_ACTIVE b.base i) && s.is (F.FLT_SRC_CFG_IE b.base i)

/-- Highest level of the active sources of a page; 0 with none. -/
def State.fltLevel (s : State) (b : Blk) : Nat :=
  (List.range 64).foldl (fun m i => max m (s.get (F.FLT_SRC_CNT_LEVEL b.base i))) 0

/-- Whether a page has an active source. -/
def State.fltActive (s : State) (b : Blk) : Bool :=
  (List.range 64).any fun i => s.is (F.FLT_SRC_CNT_ACTIVE b.base i)

/-- `ERR_N` asserted: a page at or above the pin level, or the recovery hold (R393, R75). -/
def State.errN (s : State) : Bool :=
  s.is F.IMG_STS_RECOVERY ||
    (s.get F.DEV_ERRPIN_LEVEL_LEVEL != 0 && Blk.all.any fun b => decide (s.get F.DEV_ERRPIN_LEVEL_LEVEL ≤ s.fltLevel b))

/-- Sources whose self-test runs after every event (Table 16.3). -/
def testsEveryEvent : Blk → Nat → Bool
  | .swc, 0 => true
  | .hep, 2 => true
  | .icu, 0 => true
  | .spl, 0 => true
  | .wxl, 0 => true
  | .qen, 0 => true
  | .qen, 4 => true
  | .gdc, 0 => true
  | .gdc, 1 => true
  | _, _ => false

/-- Modes in which self-tests start (R386). -/
def testModes : Mode → Bool
  | .config | .run | .degraded | .quiesce => true
  | _ => false

/-- Begin the targeted self-test of a source's resource `res`, or let it wait for the test that the source's earlier event runs
(R387). -/
def startTest (b : Blk) (id res : Nat) (s : State) : State :=
  let x := s.fltOf b id
  if !testModes s.dev.mode then s
  else if b != .hbm && s.is (F.FLT_SRC_CNT_TESTING b.base id) then
    (if x.more.contains res then s else s.setFlt b id { x with more := x.more ++ [res] })
  else
    ((s.put (F.FLT_SRC_CNT_TESTING b.base id) 1).put (F.FLT_SELFTEST_BUSY b.base) 1).setFlt b id { x with test := res }

/-- Grace of a level, in ticks (`FLT_GRACE`). -/
def State.graceOf (s : State) (b : Blk) (lvl : Nat) : Nat :=
  if lvl = 3 then msTicks (s.get (F.FLT_GRACE_DEG_MS b.base))
  else if lvl = 4 then msTicks (s.get (F.FLT_GRACE_UNC_MS b.base))
  else usTicks (s.get (F.FLT_GRACE_FATAL_US b.base))

/-- Envelope that the object named by FLT_FIRST_INFO belongs to, where the source names a queue, window, vector, core or
envelope (R114). -/
def State.fltEnv (s : State) (b : Blk) (id info : Nat) : Option Nat :=
  match b, id with
  | .qen, 2 => some (s.cget (info % 2 ^ 22) C.ENV)
  | .qen, 3 => some (s.cget (info % 2 ^ 22) C.ENV)
  | .icu, 1 => some (info / 65536 % 1024)
  | .icu, 3 => ((List.range 2048).find? fun f => decide (s.msixBase f ≤ info) && decide (info ≤ s.msixBase f + s.fnMsix f)).bind s.fnEnv
  | .prl, 52 => some (info % 1024)
  | .gdc, 0 => if s.coreDev (info / 65536 % 8) then none else some (s.get (F.GDC_CORE_CTL_ENV (info / 65536 % 8)))
  | .gdc, 2 => if s.coreDev (info % 8) then none else some (s.get (F.GDC_CORE_CTL_ENV (info % 8)))
  | .gdc, 3 => if s.coreDev (info % 8) then none else some (s.get (F.GDC_CORE_CTL_ENV (info % 8)))
  | _, _ => none

/-- Report a level reached through AER (R114, Table 5.5); nothing is sent in SAFE. DESIGN CHOICE, log entry 122. -/
def aerReport (b : Blk) (id info lvl : Nat) (s : State) : State :=
  let en := if lvl = 2 then s.is F.HEP_AER_MAP_CORR_EN else if lvl = 3 then s.is F.HEP_AER_MAP_DEG_EN
    else if lvl = 4 then s.is F.HEP_AER_MAP_UNC_EN else if lvl = 5 then s.is F.HEP_AER_MAP_FATAL_EN else false
  if !en || s.dev.mode == .safe then s
  else
    let err := if lvl ≤ 3 then "Corrected Internal Error" else "Uncorrectable Internal Error"
    let fns := match s.fltEnv b id info with
      | some e => if s.is F.HEP_AER_MAP_ENV_FN then
          s.fnsExisting.filter (fun f => f != 0 && s.fnEnv f == some e) else []
      | none => []
    (0 :: fns).foldl (fun t f => t.emit (.aer f (decide (4 ≤ lvl)) err)) s

/-- Offer an event or raise to the first-error latch (R382); `event` also counts what is not latched. -/
def fltLatch (b : Blk) (id info lvl : Nat) (event : Bool) (s : State) : State :=
  if !s.is (F.FLT_FIRST_VALID b.base) || decide (s.get (F.FLT_FIRST_LEVEL b.base) < lvl) then
    ((((s.put (F.FLT_FIRST_ID b.base) id).put (F.FLT_FIRST_LEVEL b.base) lvl).put (F.FLT_FIRST_VALID b.base) 1).setReg
      (R.FLT_FIRST_TIME b.base) (BitVec.ofNat 64 s.dev.time)).setReg (R.FLT_FIRST_INFO b.base) (BitVec.ofNat 64 info)
  else if event then (s.put (F.FLT_OVF_OVF b.base) 1).bump (F.FLT_OVF_COUNT b.base)
  else s

/-- Start or shorten the grace timer on a rise to `lvl` (R384). -/
def fltGrace (b : Blk) (id lvl : Nat) (s : State) : State :=
  if 3 ≤ lvl then
    let t := s.dev.time + s.graceOf b lvl
    let x := s.fltOf b id
    if s.is (F.FLT_SRC_CNT_GRACE b.base id) then s.setFlt b id { x with graceEnd := min x.graceEnd t }
    else (s.put (F.FLT_SRC_CNT_GRACE b.base id) 1).setFlt b id { x with graceEnd := t }
  else s

/-- What a rise of a source to `lvl` does (Table 16.2): raising event, grace timer, AER report. -/
def fltRise (b : Blk) (id info lvl : Nat) (s : State) : State :=
  aerReport b id info lvl
    (fltGrace b id lvl (s.setFlt b id { s.fltOf b id with info := info }))

/-- Count an event in the window of an active source (R379): the new count, and whether it completes N. -/
def fltWindow (cnt n : Nat) : Nat × Bool := if n ≤ cnt + 1 then (0, true) else (cnt + 1, false)

/-- One event on a source without the interrupt request: the order of R378, counting R379, escalation R380, latch R382. -/
def faultCore (b : Blk) (id info : Nat) (s : State) : State :=
  let base := b.base
  if !s.is (F.FLT_SRC_CFG_EN base id) then s.bump (F.FLT_SRC_CNT_TOTAL base id)
  else
    let lvl0 := s.get (F.FLT_SRC_CNT_LEVEL base id)
    let active := s.is (F.FLT_SRC_CNT_ACTIVE base id)
    let n := s.get (F.FLT_SRC_CFG_N base id)
    let cnt0 := s.get (F.FLT_SRC_CNT_WIN_CNT base id)
    let w := fltWindow cnt0 n
    let up := active && (w.2 || s.is (F.FLT_SRC_CNT_ACK_PEND base id))
    let lvl := if !active then s.get (F.FLT_SRC_CFG_BASE base id)
      else if up && decide (lvl0 < s.get (F.FLT_SRC_CFG_CEIL base id)) then lvl0 + 1 else lvl0
    let s1 := ((s.put (F.FLT_SRC_CNT_ACTIVE base id) 1).put (F.FLT_SRC_CNT_LEVEL base id) lvl).put
      (F.FLT_SRC_CNT_WIN_CNT base id) w.1
    let x := s1.fltOf b id
    let s2 := s1.setFlt b id { x with
      last := s.dev.time,
      winEnd := if cnt0 = 0 then s.dev.time + msTicks (s.get (F.FLT_SRC_CFG_W_MS base id)) else x.winEnd }
    let s3 := if 2 ≤ lvl then s2.put (F.FLT_SRC_CNT_ACK_PEND base id) 1 else s2
    let s4 := if lvl0 < lvl then fltRise b id info lvl s3 else s3
    let s5 := (fltLatch b id info lvl true s4).bump (F.FLT_SRC_CNT_TOTAL base id)
    if testsEveryEvent b id then startTest b id info s5 else s5

/-- The interrupt request of a page follows its sources (R392); a HOST_UNBOUND this meets is an event of the ICU page,
whose own request then follows (`n` bounds the chain ICU page, ICU source). -/
def irqSync (n : Nat) (b : Blk) (s : State) : State :=
  match n with
  | 0 => s
  | n + 1 =>
    let r := icuInput b.bit (s.fltIrq b) s
    if r.2 then irqSync n .icu (faultCore .icu 2 b.bit r.1) else r.1

/-- One event on fault source `id` of block `b`, with what FLT_FIRST_INFO holds for it (R378). DESIGN CHOICE, log entry 124. -/
def faultEvent (b : Blk) (id info : Nat) (s : State) : State := irqSync 3 b (faultCore b id info s)

/-- Raise a source directly to a stated level (R381). DESIGN CHOICE, log entry 124. -/
def faultRaise (b : Blk) (id info lvl : Nat) (s : State) : State :=
  let lvl0 := s.get (F.FLT_SRC_CNT_LEVEL b.base id)
  if lvl ≤ lvl0 then s
  else
    let s1 := ((s.put (F.FLT_SRC_CNT_ACTIVE b.base id) 1).put (F.FLT_SRC_CNT_LEVEL b.base id) lvl).put
      (F.FLT_SRC_CNT_ACK_PEND b.base id) 1
    irqSync 3 b (fltLatch b id info lvl false (fltRise b id info lvl s1))

/-- One event on ICU source `n`, with HOST_UNBOUND raised where R318 says so. -/
def icuEvent (n : Nat) (s : State) : State :=
  let r := icuCount n s
  if r.2 then faultEvent .icu 2 n r.1 else r.1

/-- An internal level source follows its condition. -/
def icuLevel (n : Nat) (lvl : Bool) (s : State) : State :=
  let r := icuInput n lvl s
  if r.2 then faultEvent .icu 2 n r.1 else r.1

/-- Offer every pending source again (a target came online, the mode changed). -/
def icuOfferAll (s : State) : State :=
  (s.regs.filterMap (fun e =>
    if 0xF20000 ≤ e.1 && e.1 < 0xF22000 then some ((e.1 - 0xF20000) / 8) else none)).foldl (fun t n => icuOffer n t) s

/-- Sources whose status register is not at its reset value. -/
def State.icuLive (s : State) : List Nat :=
  s.regs.filterMap fun e => if 0xF20000 ≤ e.1 && e.1 < 0xF22000 then some ((e.1 - 0xF20000) / 8) else none

/-- End claim of source `n` and offer it again if it is pending (R322). -/
def icuEndClaim (n : Nat) (s : State) : State :=
  let s1 := (s.put (F.ICU_SRC_STS_CLAIMED n) 0).put (F.ICU_SRC_STS_CLAIMER n) 0
  let s2 := icuOffer n s1
  if s2.is (F.ICU_SRC_STS_OFFERED n) then s2.bump F.ICU_STS_REOFFER else s2

/-- A target goes offline (R324): its claims end as completed, its offers are withdrawn, pending sources are offered to the
targets that remain. Target 8 is the host proxy, on behalf of function `fn` alone. -/
def icuTargetOff (t : Nat) (fn : Option Nat) (s : State) : State :=
  s.icuLive.foldl (fun s n =>
    let mine := match fn with
      | some f => s.get (F.ICU_SRC_CFG_HOST_FN n) == f
      | none => true
    let s1 := if s.is (F.ICU_SRC_STS_CLAIMED n) && s.get (F.ICU_SRC_STS_CLAIMER n) == t && mine then
        icuEndClaim n s else s
    let m := KMap.get s1.icu.offer 0 n
    if s1.is (F.ICU_SRC_STS_OFFERED n) && bitOf m t && mine then
      let m' := bitClr m t
      if m' = 0 then icuOffer n (icuWithdraw n s1)
      else { s1 with icu := { s1.icu with offer := KMap.set s1.icu.offer 0 n m' } }
    else s1) s

/-- A claim by target `t` (R320): the source taken, its COUNT and LEVEL, or none. -/
def icuClaim (t : Nat) (p : Nat → Bool) (s : State) : State × Option (Nat × Nat × Bool) :=
  let cand := s.icuLive.filter fun n =>
    s.is (F.ICU_SRC_STS_OFFERED n) && bitOf (KMap.get s.icu.offer 0 n) t && p n
  let pick := match cand.find? (fun n => s.is (F.ICU_SRC_CFG_FAST n)) with
    | some n => some n
    | none => cand.head?
  match pick with
  | none => (s, none)
  | some n =>
    let cnt := s.get (F.ICU_SRC_STS_COUNT n)
    let s1 := (((icuWithdraw n s).put (F.ICU_SRC_STS_CLAIMED n) 1).put (F.ICU_SRC_STS_CLAIMER n) t).put
      (F.ICU_SRC_STS_COUNT n) 0
    (s1, some (n, cnt, s.is (F.ICU_SRC_STS_LEVEL n)))

/-! ### NOTICEs of ignored register writes (R6) -/

/-- The REG_WRITE source of a block. -/
def regWriteId : Blk → Nat
  | .dev => 0 | .img => 2 | .pwr => 4 | .hep => 4 | .wxl => 8 | .qen => 5 | .spl => 3 | .swc => 6
  | .lp _ => 20 | .prl => 20 | .icu => 4 | .tth => 1 | .hbm => 7 | .gdc => 5

/-- An ignored control-space write: a NOTICE in its block with the register offset in [25:0] and [63] 0 (R6). -/
def notice (b : Blk) (off : Nat) (s : State) : State := faultEvent b (regWriteId b) (off % 2 ^ 26) s

/-- An ignored function-page write: recorded by HEP with [16:0] offset, [42:32] RID offset, [63] 1 (R6). -/
def noticePage (fn off : Nat) (s : State) : State :=
  faultEvent .hep 4 (2 ^ 63 + (fn % 2048) * 2 ^ 32 + off % 2 ^ 17) s

end Sys2Proof.Machine
end

