-- ==== Sys2Proof/Machine/SwcOps.lean ====
section
/-! DEFINITION. The switch: cells, pools, the frame header, admission, eviction, ordering and arbitration, the Tail (spec/10). -/
namespace Sys2Proof.Machine

open Sys2Proof

/-! ### Cells and queues -/

/-- Cells of a frame of `len` payload bytes (R218). -/
def cellsOf (len : Nat) : Nat := (32 + len + 255) / 256

/-- Payload bytes of a frame, the LEN of its header; a read request and a response without data carry none (Table 10.2). DEDUCED, log entry 123. -/
def Frame.payload (f : Frame) : Nat :=
  match f.typ with
  | .read => 0
  | .resp => 0
  | .atomic => f.data.length
  | _ => f.len

/-- Cells of a frame. DEDUCED, log entry 123. -/
def Frame.cells (f : Frame) : Nat := cellsOf f.payload

/-- Whether a frame is a multicast frame. -/
def Frame.mcast (f : Frame) : Bool := !f.outMask.isEmpty

/-- Whether output `p` still owes the frame. -/
def Frame.owes (f : Frame) (p : Nat) : Bool := if f.mcast then f.outMask.any (fun x => x.1 == p) else f.out == p

/-- Sum of a list of numbers. -/
def sumList (l : List Nat) : Nat := l.foldl (· + ·) 0

/-- Cells of the buffered frames that satisfy `p`. -/
def State.cellsWhere (s : State) (p : Frame → Bool) : Nat := sumList ((s.swc.queued.filter p).map Frame.cells)

/-- Cells of frames queued to output `p` (`SWC_PORT_STS[p]`.QUEUED). -/
def State.queuedTo (s : State) (p : Nat) : Nat := s.cellsWhere fun f => f.owes p

/-- Cells of the shared part: those in service less the reserves and the multicast pool. -/
def State.sharedSize (s : State) : Nat :=
  s.get F.SWC_BUF_STS_CELLS - (sumList (s.switchPorts.map fun p => s.get (F.SWC_PORT_CFG_MIN_CELLS p))
    + 512 + s.get F.SWC_BUF_CFG_MC_CELLS)

/-- Free shared cells (F of Table 10.4, `SWC_BUF_STS`.FREE). -/
def State.sharedFree (s : State) : Nat := s.sharedSize - s.cellsWhere fun f => f.pool == .shared

/-- Shared cells that frames to `p` hold (U(p) of Table 10.4). -/
def State.sharedUse (s : State) (p : Nat) : Nat := s.cellsWhere fun f => f.pool == .shared && f.out == p

/-- The state of an output (`SWC_PORT_STS[p]`.STATE): 0 OPEN, 1 HELD, 2 CLOSED, 3 ABSENT. -/
def State.outState (s : State) (p : Nat) : Nat := s.get (F.SWC_PORT_STS_STATE p)

/-- `s` with the state of output `p`. -/
def State.setOut (s : State) (p v : Nat) : State := s.put (F.SWC_PORT_STS_STATE p) v

/-- Tenths of GT/s of a speed code of `HEP_LINK_STS`. -/
def speedOf (c : Nat) : Nat := [0, 25, 50, 80, 160, 320, 640].getD c 0

/-- RATE of a port (Table 10.1), scaled by width and speed. -/
def State.rateOf (s : State) (p : Nat) : Nat :=
  if p = 0 then
    2 * speedOf (s.get F.HEP_LINK_STS_SPEED) * s.get F.HEP_LINK_STS_WIDTH / 16
  else if p = 2 then 4608
  else if p = 1 || p = 3 then 1536
  else 552 * s.get (F.LPn_LINK_STS_WIDTH (p - 4)) / 16

/-! ### Frames by mode and class -/

/-- Whether a switch port lies inside the bridge: SP1, SP2, SP3 (R12). -/
def innerPort (p : Nat) : Bool := p == 1 || p == 2 || p == 3

/-- The block behind a switch port. -/
def spBlk (p : Nat) : Blk :=
  if p = 0 then .hep else if p = 1 then .qen else if p = 2 then .hbm else if p = 3 then .gdc else portBlk (p - 4)

/-- The enable bit of the block behind a switch port. -/
def State.spEnabled (s : State) (p : Nat) : Bool :=
  if p = 0 then s.is F.HEP_CTL_ENABLE else if p = 1 then s.is F.QEN_CTL_ENABLE
  else if p = 2 then s.is F.HBM_CTL_ENABLE else if p = 3 then s.is F.GDC_CTL_ENABLE else s.portOn (p - 4)

/-- Whether the present mode carries a frame (R239, Table 3.12). -/
def State.carries (s : State) (f : Frame) : Bool :=
  s.dev.mode.serving || f.cls == 0 || (innerPort f.inp && innerPort f.out)
    || (s.dev.mode == .safe && f.typ == .msi && f.fn == 0 && f.out == 0)

/-- Whether both ends of a frame are enabled, or need not be (R12). -/
def State.endsEnabled (s : State) (f : Frame) : Bool :=
  (innerPort f.inp && innerPort f.out) || (s.spEnabled f.inp && s.spEnabled f.out)

/-- Whether a class is evictable by its EVICT bit (Table 10.3). -/
def State.evictable (s : State) (f : Frame) : Bool :=
  (f.typ == .prefData || (decide (3 ≤ f.cls) && bitOf (s.get F.SWC_BUF_CFG_EVICT) (f.cls - 3) &&
    (f.typ == .read || f.typ == .atomic))) && !f.noEvict && !f.mcast && f.typ != .tailBatch && f.pool == .shared

/-! ### Tail (R235 to R238) -/

/-- The header of a frame in bytes (Table 10.2). -/
def Frame.header (f : Frame) : List Byte :=
  let st := match f.ans with
    | .ok => 0 | .poison => 1 | .corrected => 2 | .timeout => 3 | .portDown => 4 | .partnerReset => 5 | .envelope => 6
    | .xlate => 7 | .malformed => 8 | .unsupported => 9 | .abort => 10 | .writeFailed => 11 | .stale => 12
  let w0 := f.typ.code + f.cls * 2 ^ 8 + b2n f.noEvict * 2 ^ 11 + b2n f.poison * 2 ^ 12 + b2n f.se * 2 ^ 13
    + b2n f.mcast * 2 ^ 14 + f.inp * 2 ^ 16 + f.out * 2 ^ 20 + f.ivc * 2 ^ 24 + f.payload * 2 ^ 32 + f.env * 2 ^ 48
  let w2 := f.tag % 65536 + f.fn * 2 ^ 16 + (f.pasid.getD 0) * 2 ^ 32 + b2n f.pasid.isSome * 2 ^ 52 + st * 2 ^ 56
  let mask := if f.mcast then f.outMask.foldl (fun m x => bitSet m x.1) 0 else 2 ^ f.out
  toBytes 8 w0 ++ toBytes 8 f.addr ++ toBytes 8 w2 ++ toBytes 8 (f.admTime % 2 ^ 48 + mask * 2 ^ 48)

/-- A Tail record (Table 10.5); SEQ is filled in when it is written. -/
def tailRec (s : State) (kind p : Nat) (f : Frame) : List Byte :=
  toBytes 8 (s.dev.time % 2 ^ 48 + kind * 2 ^ 48 + p * 2 ^ 52)
    ++ toBytes 8 ((s.dev.time - f.admTime) % 2 ^ 32 + (s.queuedTo p % 65536) * 2 ^ 32 + (s.sharedFree % 65536) * 2 ^ 48)
    ++ toBytes 8 0 ++ toBytes 8 0 ++ f.header

/-- `n` records lost: the first loss after a record has been written raises TAIL_LOSS (R237). -/
def tailLoss (n : Nat) (fld : Field) (s : State) : State :=
  let s1 := (s.bumpBy fld n)
  let s2 := { s1 with swc := { s1.swc with tailLost := s1.swc.tailLost + n } }
  if s.swc.tailLost = 0 && n != 0 then faultEvent .swc 5 0 s2 else s2

/-- A record enters the staging buffer of 64 records, or is lost (R236, R237). -/
def tailStage (r : List Byte) (s : State) : State :=
  if s.swc.staged.length < 64 then { s with swc := { s.swc with staged := s.swc.staged ++ [r] } }
  else tailLoss 1 F.SWC_TAIL_STS_LOST_STAGE s

/-- Whether capture runs (R238). -/
def State.tailOn (s : State) : Bool := s.swc.tailRun && s.is F.SWC_CTL_TAIL_EN && s.dev.mode.serving

/-- Sampling of a frame that leaves output `p` (R235). -/
def tailSample (p : Nat) (f : Frame) (s : State) : State :=
  let v := s.get (F.SWC_TAIL_SEL_V p f.cls)
  if !s.tailOn || v = 0 then s
  else
    let k := 8 * p + f.cls
    let c := KMap.get s.swc.tailCnt 0 k
    if c = 2 ^ (v - 1) - 1 then
      tailStage (tailRec s (if v = 1 then 1 else 0) p f)
        { s with swc := { s.swc with tailCnt := KMap.set s.swc.tailCnt 0 k 0 } }
    else { s with swc := { s.swc with tailCnt := KMap.set s.swc.tailCnt 0 k (c + 1) } }

/-- A record for an eviction (kind 2) or a drop or flush (3) on output `p`. -/
def tailEvent (kind p : Nat) (f : Frame) (s : State) : State :=
  if s.tailOn && s.is (F.SWC_TAIL_SEL_EVT p) then tailStage (tailRec s kind p f) s else s

/-! ### Multicast drops -/

/-- Status code of Table 7.8 for an answer that ends an operation early (R178). -/
def ansStatus : Ans → Nat
  | .ok => 0x00 | .corrected => 0x00 | .poison => 0x08 | .timeout => 0x07 | .portDown => 0x05 | .partnerReset => 0x06
  | .envelope => 0x03 | .xlate => 0x04 | .malformed => 0x0B | .abort => 0x08 | .unsupported => 0x0B
  | .writeFailed => 0x08 | .stale => 0x0D

/-- SWC reports the drop of the copy for target `t` of an operation step to QEN (R229, R187). -/
def mcReport (o : Origin) (t : Nat) (cause : Ans) (s : State) : State :=
  match o with
  | .step q _ _ =>
    let x := s.qa q
    if x.drops.any (fun d => d.1 == t) then s
    else s.setQa q { x with drops := x.drops ++ [(t, ansStatus cause)] }
  | _ => s

/-- The copy of frame `f` owed to output `p` is dropped with a cause (R229). -/
def mcDropOne (p : Nat) (cause : Ans) (f : Frame) (s : State) : State :=
  (f.outMask.filter (fun x => x.1 == p)).foldl (fun t x =>
    faultEvent .swc 3 (p + x.2 * 256) (tailEvent 3 p f (mcReport f.origin x.2 cause (t.bump F.SWC_MC_STS_DROPPED)))) s

/-- The frame without its copies to `p`; none left frees it. -/
def Frame.without (f : Frame) (p : Nat) : Option Frame :=
  let m := f.outMask.filter fun x => x.1 != p
  if m.isEmpty then none else some { f with outMask := m, out := (m.map (·.1)).foldl min 15 }

/-! ### Flush of an output (R232) -/

/-- Every frame queued to `p` is removed: copies of multicast frames dropped, the removed unicast frames answered by the
caller. -/
def swcFlush (p : Nat) (cause : Ans) (s : State) : State × List Frame :=
  let mc := s.swc.queued.filter fun f => f.mcast && f.owes p
  let uni := s.swc.queued.filter fun f => !f.mcast && f.out == p
  let s1 := mc.foldl (fun t f => mcDropOne p cause f t) s
  let s2 := uni.foldl (fun t f => tailEvent 3 p f t) s1
  let s3 := { s2 with swc := { s2.swc with queued := s2.swc.queued.filterMap (fun (f : Frame) =>
    if f.mcast then f.without p else if f.out == p then none else some f) } }
  let s4 := s3.bumpBy (F.SWC_PORT_STS_FLUSHED p) (uni.length + mc.length)
  (faultEvent .swc 4 p s4, uni)

/-! ### Admission (Table 10.4) -/

/-- What Table 10.4 does with a frame. -/
inductive Admit where
  | flushed | fallback | into (p : Pool) | evict (victims : List Frame) | dropped | wait
deriving DecidableEq, Repr

/-- Whether an output admits nothing of `f`: CLOSED, ABSENT, or quiescing for a removal, which the write-backs of its
partner-cache lines pass (R233, R264). -/
def State.closedTo (s : State) (f : Frame) : Bool :=
  decide (2 ≤ s.outState f.out) || (decide (4 ≤ f.out) && (s.port (f.out - 4)).slotQuiesce && (match f.origin with
    | .writeBack _ => false
    | _ => true))

/-- Step 6 for given free cells and use. -/
def fitsShared (alpha free use n : Nat) : Bool := decide (n ≤ free) && decide (8 * (use + n) ≤ 2 ^ alpha * (free - n))

/-- Eviction candidates for a frame of class `c` to `p` in the order of R226. -/
def State.victims (s : State) (p c : Nat) : List Frame :=
  let cand := s.swc.queued.filter fun f => decide (c < f.cls) && s.evictable f
  let order := fun (l : List Frame) => [7, 6, 5, 4, 3].flatMap fun k => (l.filter fun f => f.cls == k).reverse
  order (cand.filter fun f => f.out == p) ++ order (cand.filter fun f => f.out != p)

/-- Evict victims one at a time until step 6 takes `n` cells (R226); none where they do not suffice. -/
def evictFor (alpha p n free use : Nat) (vs : List Frame) : Option (List Frame) :=
  if fitsShared alpha free use n then some []
  else match vs with
    | [] => none
    | v :: r =>
      match evictFor alpha p n (free + v.cells) (if v.out = p then use - v.cells else use) r with
      | some l => some (v :: l)
      | none => none

/-- The first step of Table 10.4 that takes the frame. -/
def State.admission (s : State) (f : Frame) : Admit :=
  let n := f.cells
  let p := f.out
  let alpha := s.get (F.SWC_PORT_CFG_ALPHA p)
  if !f.mcast && (s.closedTo f || !s.carries f) then .flushed
  else if !f.mcast && s.outState p = 1 && decide (s.get (F.SWC_PORT_CFG_HOLD_CELLS p) < s.queuedTo p + n) then .fallback
  else if f.mcast then
    (if s.cellsWhere (fun g => g.pool == .multicast) + n ≤ s.get F.SWC_BUF_CFG_MC_CELLS then .into .multicast else .wait)
  else if s.cellsWhere (fun g => g.pool == .reserve && g.out == p) + n ≤ s.get (F.SWC_PORT_CFG_MIN_CELLS p) then
    .into .reserve
  else if f.cls ≤ 1 && decide (s.cellsWhere (fun g => g.pool == .class01) + n ≤ 512) then .into .class01
  else if fitsShared alpha s.sharedFree (s.sharedUse p) n then .into .shared
  else match evictFor alpha p n s.sharedFree (s.sharedUse p) (s.victims p f.cls) with
    | some vs => .evict vs
    | none => if f.typ == .prefData || f.typ == .tailBatch then .dropped else .wait

/-- Lowest FREE and highest QUEUED since the last read. DESIGN CHOICE, log entry 116. -/
def swcPeaks (p : Nat) (s : State) : State :=
  let s1 := if s.sharedFree < s.get F.SWC_BUF_STS_MIN_FREE then s.put F.SWC_BUF_STS_MIN_FREE s.sharedFree else s
  s1.peak (F.SWC_PORT_STS_PEAK p) (s1.queuedTo p)

/-- A frame enters the buffer. DEDUCED, log entry 66. -/
def enqueue (f : Frame) (pl : Pool) (s : State) : State :=
  swcPeaks f.out { s with swc := { s.swc with queued := s.swc.queued ++ [{ f with pool := pl, admTime := s.dev.time }] } }

/-- Remove one victim from the buffer and count it; requests return to their injector for retry (R227). -/
def evictOne (v : Frame) (s : State) : State :=
  let s1 := tailEvent 2 v.out v { s with swc := { s.swc with queued := s.swc.queued.erase v } }
  let s2 := if v.typ == .prefData then s1.bump F.SWC_EVICT_STS_PREFETCH else s1.bump F.SWC_EVICT_STS_REQ
  { s2 with swc := { s2.swc with retry := s2.swc.retry ++ [{ v with noEvict := true }] } }

/-! ### Ordering and arbitration (R222, R223) -/

/-- Whether the older frame `a` must leave output `p` before `b`. -/
def mustPrecede (a b : Frame) : Bool :=
  a.inp == b.inp && (a.cls == b.cls || (a.ivc == b.ivc && (a.typ == .write || a.typ == .msi)))

/-- Frames queued to `p` that no older frame of R222 holds back, oldest first. -/
def orderedAt (p : Nat) (older : List Frame) : List Frame → List Frame
  | [] => []
  | f :: r =>
    if f.owes p then
      (if older.any (fun a => mustPrecede a f) then [] else [f]) ++ orderedAt p (older ++ [f]) r
    else orderedAt p older r

/-- The frame that output `p` grants among `el`, eligible frames oldest first (R223). -/
def State.grantPick (s : State) (p : Nat) (el : List Frame) : Option Frame :=
  let first := fun (cs : List Nat) => (cs.filterMap fun c => el.find? fun f => f.cls == c).head?
  let hist := KMap.get s.swc.grants [] p
  let priv := (hist.filter fun c => 4 ≤ c && c ≤ 6).length
  match first [0, 1] with
  | some f => some f
  | none =>
    match (if priv < s.get (F.SWC_PORT_CFG_PRIV_MIN p) then first [4, 5, 6] else none) with
    | some f => some f
    | none => first [2, 3, 4, 5, 6, 7]

/-- Remember the class of a grant among the last 16 of the output. -/
def grantNote (p c : Nat) (s : State) : State :=
  { s with swc := { s.swc with grants := KMap.set s.swc.grants [] p ((c :: KMap.get s.swc.grants [] p).take 16) } }

/-- A granted frame leaves output `p`: out of the queue, counted, sampled. -/
def depart (p : Nat) (f : Frame) (s : State) : State :=
  let s1 := tailSample p f (grantNote p f.cls s)
  if f.mcast then
    let rest := f.without p
    let s2 := { s1 with swc := { s1.swc with queued := s1.swc.queued.filterMap (fun (g : Frame) => if g = f then rest else some g) } }
    s2.bumpBy F.SWC_MC_STS_COPIES (f.outMask.filter fun x => x.1 == p).length
  else { s1 with swc := { s1.swc with queued := s1.swc.queued.erase f } }

/-- The response frame of a request frame served at switch port `inp`. -/
def Frame.answer (f : Frame) (inp : Nat) (ans : Ans) (data : List Byte) : Frame :=
  { typ := if data.isEmpty then .resp else .respData, cls := 1, inp := inp, out := f.inp, env := f.env, addr := f.addr,
    len := data.length, data := data, tag := f.tag, fn := f.fn, ans := ans, origin := f.origin,
    atom := f.typ == .atomic }

end Sys2Proof.Machine
end

