-- ==== Sys2Proof/Machine/Operands.lean ====
section
/-! DEFINITION. The operand forms: device addresses (R14 to R17), the partitions of HBM (spec/15), descriptors and their checks
(R172, R173), translation entries (Table 6.2), CRCs (R182) and completion records (Table 7.7). -/
namespace Sys2Proof.Machine

open Sys2Proof

/-! ### Device addresses -/

/-- Target of a DA. -/
def daT (da : Nat) : Nat := da / 2 ^ 44 % 16

/-- Byte offset of a DA within its target. -/
def daOff (da : Nat) : Nat := da % 2 ^ 44

/-- Valid offsets of a target (Table 1.3). -/
def targetSize (t : Nat) : Nat :=
  if t ≤ 6 then 2 ^ 44 else if t = 7 then 2 ^ 34 else if t = 8 then 2 ^ 26 else if t = 15 then 2 ^ 44 else 0

/-- Whether a DA range is valid under R15. -/
def daValid (da len : Nat) : Bool :=
  decide (da < 2 ^ 48) && decide (daOff da + len ≤ targetSize (daT da)) && decide (0 < targetSize (daT da))

/-- Whether two byte ranges share a byte. -/
def overlap (a la b lb : Nat) : Bool := decide (a < b + lb) && decide (b < a + la)

/-- Whether the configuration has the target of a DA (R17). -/
def State.hasTarget (s : State) (da : Nat) : Bool := if daT da ≤ 6 then s.hasPort (daT da) else true

/-- Energy kind of a DA: host 0, local 1, HBM 2, peer 3. -/
def daKind (da : Nat) : Nat :=
  if daT da = 15 then 0 else if daT da ≤ 5 then 1 else if daT da = 7 then 2 else 3

/-- Bit of a DA's target in a path: targets 0 to 7, host 8. -/
def daPath (da : Nat) : Nat := if daT da = 15 then 8 else daT da

/-- Cut a range at 4 KiB address boundaries, of either address: (offset, length) pairs (R174). `n` bounds the number of
pieces. -/
def cutFrames (n a b off len : Nat) : List (Nat × Nat) :=
  match n with
  | 0 => []
  | n + 1 =>
    if len = 0 then []
    else
      let k := min len (min (4096 - (a + off) % 4096) (4096 - (b + off) % 4096))
      (off, k) :: cutFrames n a b (off + k) (len - k)

/-! ### Partitions of HBM (R362, R365) -/

/-- A MiB. -/
def mib : Nat := 2 ^ 20

/-- Capacity C (R358). -/
def State.hbmCap (s : State) : Nat := s.get F.HBM_STS_SET_N * 2 ^ 30

/-- Pseudo-channel of an HBM offset (R358). -/
def State.pcAt (s : State) (o : Nat) : Nat := s.hbm.set.getD (o / 4096 % s.hbm.set.length) 0

/-- Base and size in bytes of partition `k`, if present. -/
def State.part (s : State) (k : Nat) : Option (Nat × Nat) :=
  if s.is (F.HBM_PART_PRESENT k) then
    some (s.get (F.HBM_PART_BASE_MIB k) * mib, s.get (F.HBM_PART_SIZE_MIB k) * mib)
  else none

/-- Whether a range of HBM offsets lies in partition `k`. -/
def State.inPart (s : State) (k off len : Nat) : Bool :=
  match s.part k with
  | some (b, z) => decide (b ≤ off) && decide (off + len ≤ b + z)
  | none => false

/-- Whether a range of HBM offsets lies in the pinned migration frames (R363). -/
def State.pinned (s : State) (off len : Nat) : Bool :=
  match s.part 6 with
  | some (b, _) => decide (b ≤ off) && decide (off + len ≤ b + s.get F.WXL_PC_CFG_PINNED_64M * 64 * mib)
      && decide (off + len ≤ s.hbmCap)
  | none => false

/-- Size of a core's slice of Gondola memory and the HBM offset of the partition (R339). -/
def State.slice (s : State) : Option (Nat × Nat) :=
  match s.part 5 with
  | some (b, z) => some (b, z / 8)
  | none => none

/-! ### Translation entries (Table 6.2) -/

/-- Whether the partition rules and R119 make an entry valid. -/
def State.xtValid (s : State) (e : Word) : Bool :=
  let t := fieldOf e 16 4
  let fr := fieldOf e 20 28 * 65536
  fieldOf e 0 1 = 1 && fieldOf e 56 8 = 0 && decide (t ≤ 7) && (t != 7 || (decide (fr + 65536 ≤ 2 ^ 34) && s.pinned fr 65536))

/-- DA of the first byte of an entry's page. -/
def xtDa (e : Word) : Nat := fieldOf e 16 4 * 2 ^ 44 + fieldOf e 20 28 * 65536

/-- Entry `i` of the translation table. -/
def State.xtE (s : State) (i : Nat) : Word := KMap.get s.xt 0 i

/-! ### Descriptors (spec/08) -/

/-- Word `j` of the descriptor of the operation in progress (CUR_DESC). -/
def State.dw (s : State) (q j : Nat) : Word := s.ctxW q (8 + j)

/-- A field of that descriptor. -/
def State.df (s : State) (q j lo w : Nat) : Nat := fieldOf (s.dw q j) lo w

/-- OPCODE. -/
def State.opc (s : State) (q : Nat) : Nat := s.df q 0 0 8

/-- Bits a descriptor's word `j` may hold, by opcode (Tables 8.4 to 8.10); NOTIFY's second word depends on DEST. -/
def descMask (op dest : Nat) : List Nat :=
  let all := 2 ^ 64 - 1
  let da := 2 ^ 48 - 1
  let ln := 2 ^ 41 - 1
  match op with
  | 0x01 => [0xFF, da, da, ln, 0, 0, 0, 0]
  | 0x02 => [0xFF, 0, da, ln, all, 0, 0, 0]
  | 0x03 => [0xFFF, da, 0, ln, all, da, all, 0]
  | 0x04 => [0xFFF, da, da, ln, all, da, all, 0]
  | 0x05 => [0x1FF, da, 0, ln, 0, da, 0, 0]
  | 0x06 => [0xFF, 0x7FF0FFFFFFF, da, 0, 0, 0, 0, 0]
  | 0x07 => [0xFFF, da, da, ln, 0, 0, 0, 0]
  | 0x08 => [0x3FF, da, all, all, da, 0, 0, 0]
  | 0x09 => [0x3FFFF, 0, 0, 0, 0, 0, 0, 0]
  | 0x0A => [0x7FF, if dest = 0 then 0x7FF07FF else 0x77F07, 0, 0, 0, 0, 0, 0]
  | 0x0B => [0x7FFF, da, 0, 0, 0, 0, 0, 0]
  | 0x0C => [0xFF, 0xFFFF003FFFFF, 0, 0, 0, 0, 0, 0]
  | 0x0D => [0x7FF00FF, da, 0, 0, 0, 0, 0, 0]
  | 0x0E => [0xFFFF07FF, all, all, all, all, all, all, all]
  | 0x0F => [0xFF, 0, 0, 0, 0, 0, 0, 0]
  | _ => []

/-- Operand addresses of a descriptor with their lengths: every byte the operation will touch through them (R173). A target
list's own targets follow when it has been read. DEDUCED, log entry 52. -/
def State.descRanges (s : State) (q : Nat) : List (Nat × Nat) :=
  let src := s.df q 1 0 48
  let dst := s.df q 2 0 48
  let ln := s.df q 3 0 41
  match s.opc q with
  | 0x01 => [(src, ln), (dst, ln)]
  | 0x02 => [(dst, ln)]
  | 0x03 => [(src, ln)] ++ (if s.df q 0 10 1 = 1 then [(s.df q 5 0 48, 8)] else [])
  | 0x04 => [(src, ln), (dst, ln)] ++ (if s.df q 0 10 1 = 1 then [(s.df q 5 0 48, 8)] else [])
  | 0x05 => [(src, ln), (s.df q 5 0 48, 32)]
  | 0x06 => [(dst, s.df q 1 32 11 * 65536)]
  | 0x07 => [(src, ln), (dst, 8 * s.df q 0 8 4)]
  | 0x08 => [(src, 8), (s.df q 4 0 48, 8)]
  | 0x0B => [(src, 16 * s.df q 0 8 7)]
  | 0x0D => [(src, 4 * s.df q 0 16 11)]
  | _ => []

/-- Order 1 of Table 8.2: opcode listed, RSV bits 0, lengths, counts, alignments and codes within their ranges. -/
def State.descForm (s : State) (q : Nat) : Bool :=
  let op := s.opc q
  let m := descMask op (s.df q 0 8 1)
  let ln := s.df q 3 0 41
  let lenOk := decide (1 ≤ ln) && decide (ln ≤ 2 ^ 40)
  decide (m.length = 8) && (List.range 8).all (fun j => (s.dw q j).toNat &&& (2 ^ 64 - 1 - m.getD j 0) == 0) &&
    (match op with
    | 0x01 => lenOk
    | 0x02 => lenOk
    | 0x03 => lenOk && s.df q 5 0 3 = 0 && (s.df q 0 8 1 = 1 || (s.df q 4 32 32 = 0 && s.df q 6 32 32 = 0))
    | 0x04 => lenOk && s.df q 5 0 3 = 0 && (s.df q 0 8 1 = 1 || (s.df q 4 32 32 = 0 && s.df q 6 32 32 = 0))
    | 0x05 => lenOk && ln % 64 = 0 && s.df q 1 0 6 = 0 && s.df q 5 0 5 = 0
    | 0x06 => decide (1 ≤ s.df q 1 32 11) && decide (s.df q 1 32 11 ≤ 1024) && s.df q 2 0 16 = 0
    | 0x07 => lenOk && decide (1 ≤ s.df q 0 8 4) && decide (s.df q 0 8 4 ≤ 8) && s.df q 2 0 6 = 0
    | 0x08 => s.df q 0 8 2 != 3 && s.df q 1 0 3 = 0 && s.df q 4 0 3 = 0 && (s.df q 0 8 2 = 2 || s.dw q 3 = 0)
    | 0x0A => if s.df q 0 8 1 = 0 then s.df q 0 9 2 = 0 && decide (s.df q 1 16 11 ≤ s.fnMsix (s.df q 1 0 11))
        else s.df q 0 9 2 != 3 && decide (s.df q 1 0 3 ≤ 5)
    | 0x0B => decide (1 ≤ s.df q 0 8 7) && decide (s.df q 0 8 7 ≤ 64) && s.df q 1 0 4 = 0
    | 0x0D => decide (1 ≤ s.df q 0 16 11) && decide (s.df q 0 16 11 ≤ 1024) && s.df q 1 0 2 = 0
    | _ => true)

/-- Overlaps that order 2 of Table 8.2 forbids. -/
def State.descOverlap (s : State) (q : Nat) : Bool :=
  let src := s.df q 1 0 48
  let dst := s.df q 2 0 48
  let ln := s.df q 3 0 41
  match s.opc q with
  | 0x01 => overlap src ln dst ln
  | 0x04 => overlap src ln dst ln
  | _ => false

/-- Targets that SCRUB and ATOMIC do not take (Tables 8.5 and 8.9): a code outside the range their layout gives. -/
def State.descTarget (s : State) (q : Nat) : Bool :=
  let t := s.df q 1 44 4
  match s.opc q with
  | 0x05 => t ≤ 5 || t = 7 || t = 8
  | 0x08 => t ≤ 5 || t = 8
  | _ => true

/-- Orders 1 to 4 of Table 8.2: the status of the first failure. DEDUCED, log entry 52. -/
def State.descCheck (s : State) (q : Nat) : Option Nat :=
  let rs := s.descRanges q
  if !s.descForm q then some 0x0B
  else if !s.descTarget q || !rs.all (fun r => daValid r.1 r.2) || s.descOverlap q then some 0x0B
  else if rs.any (fun r => daT r.1 == 8) then some 0x03
  else if rs.any (fun r => !s.hasTarget r.1) || (s.opc q = 0x0A && s.df q 0 8 1 = 1 && !s.hasPort (s.df q 1 0 3)) then
    some 0x05
  else none

/-- Whether an opcode is a data operation (Table 8.1). -/
def isData (op : Nat) : Bool := decide (1 ≤ op) && decide (op ≤ 8)

/-- Destination of target `t` of a MULTICAST_WRITE, from its list. -/
def mcDst (l : List Byte) (t : Nat) : Nat := bytesAt l (8 * t) 6

/-- Bytes of an operation (of one full pass, for MIGRATE). -/
def State.opLen (s : State) (q : Nat) : Nat :=
  match s.opc q with
  | 0x06 => s.df q 1 32 11 * 65536
  | 0x08 => 8
  | op => if isData op then s.df q 3 0 41 else 0

/-- The path of an operation: its set of targets as a mask; a SERVICE_CALL runs on {SP3}, bit 9 (R176, R348). -/
def State.opPath (s : State) (q : Nat) : Nat :=
  if s.opc q = 0x0E then 2 ^ 9
  else
    let own := (s.descRanges q).foldl (fun m r => bitSet m (daPath r.1)) 0
    if s.opc q = 0x07 then
      (List.range (s.df q 0 8 4)).foldl (fun m t => bitSet m (daPath (mcDst (s.qa q).list t))) own
    else if s.opc q = 0x06 then bitSet own (daPath (xtDa (s.xtE (s.df q 1 0 28))))
    else own

/-! ### CRC (R182) -/

/-- One byte into a reflected CRC register. -/
def crcByte (poly reg : Nat) (b : Byte) : Nat :=
  (List.range 8).foldl (fun r _ => if r % 2 = 1 then (r / 2) ^^^ poly else r / 2) (reg ^^^ b.toNat)

/-- Bytes into a CRC register. -/
def crcBytes (poly reg : Nat) (l : List Byte) : Nat := l.foldl (crcByte poly) reg

/-- Reflected polynomial: ALG 0 CRC-32C, 1 CRC-64. -/
def crcPoly (alg : Nat) : Nat := if alg = 0 then 0x82F63B78 else 0x9A6C9329AC4BC9B5

/-- Initial register and final XOR. -/
def crcXor (alg : Nat) : Nat := if alg = 0 then 2 ^ 32 - 1 else 2 ^ 64 - 1

/-- CRC of a byte string. -/
def crcOf (alg : Nat) (l : List Byte) : Nat := crcBytes (crcPoly alg) (crcXor alg) l ^^^ crcXor alg

/-! ### Completion records (Table 7.7) -/

/-- The 32 bytes of a record. -/
def recordBytes (r : Record) (q phase time : Nat) : List Byte :=
  toBytes 8 (r.status + r.mask * 2 ^ 8 + phase * 2 ^ 16 + (r.energy % 2 ^ 40) * 2 ^ 24)
    ++ toBytes 8 (q + r.steps % 2 ^ 32 * 2 ^ 32)
    ++ toBytes 8 (r.bytes % 2 ^ 41)
    ++ toBytes 8 (time % 2 ^ 48 + r.opSeq * 2 ^ 48)

end Sys2Proof.Machine
end

