-- ==== Sys2Proof/Machine/Answer.lean ====
section
/-! DEFINITION. What a requester gets when its access ends without data: a synthetic answer, a refused check, a flush
(Tables 5.1, 5.4, 12.9; R342), and the acceptance of a write by its target (R175). -/
namespace Sys2Proof.Machine

open Sys2Proof

/-- L1 is left at once when there is a TLP to send (R88). -/
def l1Exit (s : State) : State := if s.get F.HEP_LINK_STS_PSTATE = 2 then s.put F.HEP_LINK_STS_PSTATE 0 else s

/-- A TLP leaves HEP. -/
def hepTlp (t : Tlp) (s : State) : State := (l1Exit s).emit (.tlp t)

/-- A request leaves HEP, in S and M behind the active LTR message if it is the first after the idle condition (R89). -/
def hepRequest (t : Tlp) (s : State) : State :=
  if s.hep.idle then
    let s1 : State := { s with hep := { s.hep with idle := false } }
    hepTlp t (if s.cfg ≤ 1 && (s.fnOf 0).ltrEn then hepTlp (.ltr (s.get F.HEP_PM_CFG_LTR_ACTIVE_US)) s1 else s1)
  else hepTlp t s

/-- A completion to the host; nothing is sent while the host link is down (R113). -/
def hostDone (fn tag : Nat) (ans : Ans) (data : List Byte) (ep : Bool) (s : State) : State :=
  if s.is F.HEP_LINK_STS_UP then hepTlp (.completion fn tag ans data ep) s else s

/-- Mark a fault bit of a function's page. -/
def fnFault (f : Nat → Field) (fn : Nat) (s : State) : State := s.put (f fn) 1

/-- The completion answer of Table 5.1 for a cause. -/
def hostAns : Ans → Ans
  | .portDown => .abort | .partnerReset => .abort | .envelope => .abort | .timeout => .abort | .stale => .abort
  | .xlate => .unsupported | .malformed => .unsupported
  | a => a

/-- An access fault of core `c`: `gafault`, `mtval`, the FAULTS count, and the precise trap (R342, Table 14.6). `cause` is the
privileged architecture's code: 1 fetch, 5 load, 7 store. -/
def coreFault (c reason cause addr : Nat) (s : State) : State :=
  let x := s.coreOf c
  ((s.setCore c { x with gafault := reason, mtval := addr, machine := true, load := none, loadAns := none }).bump (F.GDC_CORE_STS_FAULTS c)).emit
    (.core c cause addr)

/-- `gafault` reason of an answer that fails a load. -/
def coreReason : Ans → Nat
  | .timeout => 0x07 | .poison => 0x08 | .portDown => 0x06 | .partnerReset => 0x06 | .envelope => 0x03
  | .xlate => 0x04 | _ => 0x05

/-- The step of queue `q` fails with a status; the first cause stands (R178). -/
def stepFail (q st : Nat) (s : State) : State :=
  let x := s.qa q
  s.setQa q { x with step := { x.step with fail := some (x.step.fail.getD st) } }

/-- One read of the step of attempt `gen` of `q` is over. -/
def stepReadEnd (q gen : Nat) (s : State) : State :=
  let x := s.qa q
  if x.gen = gen then s.setQa q { x with step := { x.step with reads := x.step.reads - 1 } } else s

/-- One write of the step of attempt `gen` of `q` is over. -/
def stepWriteEnd (q gen : Nat) (s : State) : State :=
  let x := s.qa q
  if x.gen = gen then s.setQa q { x with step := { x.step with writes := x.step.writes - 1 } } else s

/-- Whether attempt `gen` of queue `q` is the present one. -/
def State.isGen (s : State) (q gen : Nat) : Bool := (s.qa q).gen == gen && (s.qa q).step.on

/-- A non-posted access other than the read of a partner-cache line ends without data. -/
def failReadOne (o : Origin) (ans : Ans) (s : State) : State :=
  match o with
  | .host fn tag =>
    let s1 := if ans == .portDown || ans == .partnerReset then fnFault F.HEP_FN_FAULT_PORT_DOWN fn s else s
    hostDone fn tag (hostAns ans) [] false s1
  | .step q gen _ =>
    if s.isGen q gen then stepReadEnd q gen (stepFail q (ansStatus ans) s) else s
  | .fetch q => s.setQa q { s.qa q with fetchAns := some (ans, []) }
  | .list q => s.setQa q { s.qa q with listAns := some ans, listOut := false }
  | .partner p vc tag _ env =>
    s.inject { typ := .resp, cls := 1, inp := 0, out := 4 + p, ivc := vc, env := env, tag := tag, ans := ans, origin := o }
  | .core c =>
    if (s.coreOf c).load.isSome then s.setCore c { s.coreOf c with loadAns := some (ans, []) } else s
  | .prefetch w =>
    { s with wxl := { s.wxl with pf := s.wxl.pf.filter fun e => !(e.w == w && !e.arrived) } }
  | _ => s

/-- A posted write, or a message, does not reach its target. -/
def failWrite (o : Origin) (ans : Ans) (s : State) : State :=
  match o with
  | .host fn _ => if ans == .portDown || ans == .partnerReset then fnFault F.HEP_FN_FAULT_PORT_DOWN fn s else s
  | .step q gen _ =>
    if s.isGen q gen then stepWriteEnd q gen (stepFail q (ansStatus ans) s) else s
  | .core c => s.bump (F.GDC_CORE_STS_LATE_ERR c)
  | .writeBack da =>
    { s with wxl := { s.wxl with pc := s.wxl.pc.map fun l => if (l.da == da) then { l with out := false, dirty := true } else l } }
  | _ => s

/-- The requester's answer to an access that will not be served, by its kind. -/
def failAccess (typ : FTyp) (o : Origin) (ans : Ans) (s : State) : State :=
  match typ with
  | .read => failReadOne o ans s
  | .atomic => failReadOne o ans s
  | .write => failWrite o ans s
  | .msi => failWrite o ans s
  | _ => s

/-- A non-posted access ends without data; the accesses that wait for a partner-cache line end with its read (R140). -/
def failRead (o : Origin) (ans : Ans) (s : State) : State :=
  match o with
  | .pcFill da =>
    let mine := s.wxl.fills.filter fun e => e.1 == da
    mine.foldl (fun t e => e.2.foldl (fun u a => failAccess a.f.typ a.f.origin ans u) t)
      { s with wxl := { s.wxl with fills := s.wxl.fills.filter fun e => e.1 != da } }
  | _ => failReadOne o ans s

/-- A frame that will not be served: its requester's answer, by the kind of frame. -/
def failFrame (f : Frame) (ans : Ans) (s : State) : State :=
  match f.typ with
  | .read => failRead f.origin ans s
  | .atomic =>
    let l := f.addr / 4096 * 4096
    failReadOne f.origin ans { s with wxl := { s.wxl with blockHold := s.wxl.blockHold.erase (l, 4096) } }
  | _ => failAccess f.typ f.origin ans s

/-- A write has been accepted by the switch port of its target, or by the partner cache (R140, R175). -/
def writeDone (o : Origin) (s : State) : State :=
  match o with
  | .step q gen _ => stepWriteEnd q gen s
  | _ => s

end Sys2Proof.Machine
end

