-- ==== Sys2Proof/Machine/LinkOps.lean ====
section
/-! DEFINITION. The link layer of a port block: virtual channels, round trip and Ballast, the receive buffers and XOFF, sending a
packet (spec/12), and the items a bridge sends its pair peer (R403). -/
namespace Sys2Proof.Machine

open Sys2Proof

/-! ### Link states (Table 11.3) -/

/-- STATE of a port's link: 0 L.DOWN, 1 L.DETECT, 2 L.TRAIN, 3 L.ACTIVE, 4 L.RETRAIN, 5 L.RESIZE, 6 L.HOLD, 7 L.SLEEP. -/
def State.lst (s : State) (p : Nat) : Nat := s.get (F.LPn_LINK_STS_STATE p)

/-- Whether a port carries flits: L.ACTIVE or L.RESIZE. -/
def State.flits (s : State) (p : Nat) : Bool := s.lst p == 3 || s.lst p == 5

/-- Present width of a link. -/
def State.width (s : State) (p : Nat) : Nat := s.get (F.LPn_LINK_STS_WIDTH p)

/-! ### Virtual channels (R287) -/

/-- Number of VCs of a port. -/
def State.vcs (s : State) (p : Nat) : Nat := s.get (F.LPn_PROTO_CFG_VCS p) + 1

/-- Whether VC `v` is a RSP VC. -/
def State.isRsp (s : State) (p v : Nat) : Bool := bitOf (s.get (F.LPn_PROTO_CFG_ROLES p)) v

/-- Lowest-numbered REQ VC (R288, R297). -/
def State.reqVc (s : State) (p : Nat) : Nat := ((List.range (s.vcs p)).find? fun v => !s.isRsp p v).getD 0

/-- VC on which frames of a class leave (R220, R288). -/
def State.classVc (s : State) (p c : Nat) : Nat := s.get (F.SWC_OUTMAP_VC (4 + p) c)

/-- ENV_v and BOUND_v of a VC (R291). -/
def State.vcBound (s : State) (p v : Nat) : Option Nat :=
  if p < 6 && s.is (F.LPn_VC_ENV_BOUND p (v / 4) (v % 4)) then some (s.get (F.LPn_VC_ENV_ENV p (v / 4) (v % 4))) else none

/-! ### Round trip and Ballast (R284, R285) -/

/-- The governing round trip of a port in ns. -/
def State.rtt (s : State) (p : Nat) : Nat :=
  let sm := (s.port p).samples
  if 16 ≤ sm.length then sm.foldl max 0 else s.get (F.LPn_PROTO_CFG_RTT_ASSUMED_NS p)

/-- Q at a round trip and width: ⌈T × 3.45 × w⌉ + 4,112 B. -/
def ballastQ (t w : Nat) : Nat := (t * 345 * w + 99) / 100 + 4112

/-- Width used for Q: the present one, MAX_WIDTH without a link. DEDUCED, log entry 78. -/
def State.qWidth (s : State) (p : Nat) : Nat :=
  if s.width p = 0 then s.get (F.LPn_LINK_CFG_MAX_WIDTH p) else s.width p

/-- Q of a port in whole KiB. DEDUCED, log entry 78. -/
def State.reqKib (s : State) (p : Nat) : Nat := (ballastQ (s.rtt p) (s.qWidth p) + 1023) / 1024

/-- KIB_v of a VC. -/
def State.kib (s : State) (p v : Nat) : Nat := s.get (F.LPn_BALLAST_KIB p (v / 4) (v % 4))

/-- Effective Ballast B(v) in bytes. -/
def State.ballast (s : State) (p v : Nat) : Nat := min (56 * 1024) (max (s.kib p v * 1024) (s.reqKib p * 1024))

/-! ### Receive buffers and XOFF (R281) -/

/-- Bytes of a packet: header slot and payload slots. -/
def pktBytes (k : Pkt) : Nat := 16 * (1 + k.len)

/-- Bytes of VC `v` in use: accepted packets not yet acted on, and frames not yet admitted to SWC. -/
def State.rxUse (s : State) (p v : Nat) : Nat :=
  sumList (((s.port p).rx.filter fun k => k.vc == v && k.op != 0x0B && k.op != 0x0C).map pktBytes)
    + sumList ((s.swc.inject.filter fun f => f.inp == 4 + p && f.ivc == v).map fun f => 16 + (f.data.length + 15) / 16 * 16)

/-- Free bytes of VC `v`. -/
def State.rxFree (s : State) (p v : Nat) : Nat := 65536 - s.rxUse p v

/-- XOFF of one VC follows its free space. -/
def xoffOne (p v : Nat) (s : State) : State :=
  let on := bitOf (s.get (F.LPn_FC_STS_XOFF_TX p)) v
  let free := s.rxFree p v
  if !on && decide (free ≤ s.ballast p v) then
    (s.put (F.LPn_FC_STS_XOFF_TX p) (bitSet (s.get (F.LPn_FC_STS_XOFF_TX p)) v)).bump (F.LPn_FC_STS_XOFF_CNT p)
  else if on && decide (s.ballast p v + 8192 ≤ free) then
    s.put (F.LPn_FC_STS_XOFF_TX p) (bitClr (s.get (F.LPn_FC_STS_XOFF_TX p)) v)
  else s

/-- XOFF of every VC of a port follows its free space. -/
def xoffSync (p : Nat) (s : State) : State := (List.range (s.vcs p)).foldl (fun t v => xoffOne p v t) s

/-- `LPn_RTT` follows the samples and the width; BALLAST_RAISED when Q first exceeds a KIB_v (R284). -/
def rttSync (p : Nat) (s : State) : State :=
  let sm := (s.port p).samples
  let old := s.get (F.LPn_RTT_REQ_KIB p)
  let s1 := (((s.put (F.LPn_RTT_GOVERN_NS p) (s.rtt p)).put (F.LPn_RTT_MEASURED_NS p) (min 65535 (sm.foldl max 0))).put
    (F.LPn_RTT_SAMPLES p) (min 16 sm.length)).put (F.LPn_RTT_REQ_KIB p) (s.reqKib p)
  let up := (List.range (s.vcs p)).any fun v => decide (s.kib p v < s.reqKib p) && decide (old ≤ s.kib p v)
  if s.portOn p && up then faultEvent (portBlk p) 40 (s.reqKib p) s1 else s1

/-! ### Sending -/

/-- Flits that a packet fills when it begins a DATA flit of its own (R274). DEDUCED, log entry 81. -/
def flitsOf (k : Pkt) : Nat := (1 + k.len + 13) / 14

/-- Flits that are sent and unacknowledged. -/
def State.unackedFlits (s : State) (p : Nat) : Nat := sumList ((s.port p).unacked.map (·.n))

/-- Whether the port may start a packet on VC `v` (R278, R282, R299). PM packets pass XOFF. -/
def State.maySend (s : State) (p : Nat) (k : Pkt) : Bool :=
  s.flits p && (s.port p).sleep != 2 && decide (s.unackedFlits p + flitsOf k ≤ 256)
    && (k.op == 0x0B || k.op == 0x0C || !bitOf (s.get (F.LPn_FC_STS_XOFF_RX p)) k.vc)

/-- Send a packet: its flits take the next sequence numbers and enter the replay buffer (R273, R278). -/
def sendAs (o : Origin) (p : Nat) (k : Pkt) (s : State) : State :=
  let x := s.port p
  (s.setPort p { x with
    txSeq := (x.txSeq + flitsOf k) % 4096
    unacked := x.unacked ++ [{ first := x.txSeq, n := flitsOf k, pkt := k, origin := o }]
    ackTime := if x.unacked.isEmpty then s.dev.time else x.ackTime }).emit (.gll p k)

/-- Send a packet of the port block itself. -/
def sendNow (p : Nat) (k : Pkt) (s : State) : State := sendAs .none p k s

/-- Packets of the port block itself that may be sent leave in order, as far as their VCs allow (R282, R290). -/
def txDrain (p : Nat) (s : State) : State :=
  (s.port p).txq.foldl (fun t k =>
    let y := t.port p
    if y.txq.head? == some k && t.maySend p k then
      sendNow p k (t.setPort p { y with txq := y.txq.drop 1 })
    else t) s

/-- Send a packet of the port block: behind those that wait. -/
def sendPkt (p : Nat) (k : Pkt) (s : State) : State :=
  txDrain p (s.setPort p { s.port p with txq := (s.port p).txq ++ [k] })

/-- The partner's request with `tag` has its answer (R292). -/
def npAnswered (p tag : Nat) (s : State) : State :=
  s.setPort p { s.port p with npIn := (s.port p).npIn.filter fun t => t != tag }

/-- ERR packet under a request's tag (R13, Table 12.7), on the VC of class 1; `np` says that the request is non-posted. -/
def errPkt (p tag : Nat) (np : Bool) (env da status : Nat) (s : State) : State :=
  let s1 := if np then npAnswered p tag s else s
  sendPkt p { op := 0x08, vc := s1.classVc p 1, env := env, tag := tag, addr := da % 2 ^ 48, len := 0,
              status := status, flags := 4, data := [] } s1

/-! ### Pair items -/

/-- Whether envelope `e` is served by this bridge (R401). DEDUCED, log entry 88. -/
def State.owns (s : State) (e : Nat) : Bool :=
  s.cfg != 3 || bitOf (s.reg (R.PRL_OWN (e / 64))).toNat (e % 64)

/-- Whether the pair is PAIRED. -/
def State.paired (s : State) : Bool := s.cfg == 3 && s.get F.PRL_PAIR_STS_STATE == 2

/-- A pair control or mirror packet (opcodes 0x0D, 0x0E); its contents are private to the bridges (R399). -/
def pairPkt (op tag : Nat) (s : State) : State :=
  sendPkt 6 { op := op, vc := s.reqVc 6, env := 0, tag := tag, addr := 0, len := 1, status := 0, flags := 4, data := [] } s

/-- The pair state changes: 0 DOWN, 1 SYNCING, 2 PAIRED, 3 SURVIVOR, 4 DETACHED; ICU source 60 follows, and outside PAIRED
nothing waits for the mirror (R404, R405). -/
def pairState (v : Nat) (s : State) : State :=
  let s1 := s.put F.PRL_PAIR_STS_STATE v
  let s2 : State := if v = 2 then s1 else { s1 with prl := { s1.prl with unmirrored := [] } }
  icuLevel 60 (s2.is F.PRL_CTL_PAIR_EN && v != 2) s2

/-- At PL in L.ACTIVE, a SURVIVOR or DETACHED bridge with PAIR_EN 1 repeats the check of R414 (Table 17.2). -/
def pairRecheck (s : State) : State :=
  let st := s.get F.PRL_PAIR_STS_STATE
  if (st == 3 || st == 4) && s.is F.PRL_CTL_PAIR_EN && s.lst 6 == 3 && !s.checks.any (fun c => c.off == R.PRL_CTL && c.bit == some 2) then
    pairPkt 0x0D 0 { s.put (F.LPn_ENSTAT_BUSY 6) 1 with
      checks := s.checks ++ [{ off := R.PRL_CTL, val := s.reg R.PRL_CTL, bit := some 2 }]
      prl := { s.prl with peerAnswered := false } }
  else s

/-- SYNCING fails (Table 17.2). -/
def pairSyncFail (s : State) : State :=
  if s.get F.PRL_PAIR_STS_STATE = 1 then pairRecheck (pairState 4 (faultEvent .prl 51 0 s)) else s

/-- PAIRED ends in DETACHED (Table 17.2). -/
def pairDetach (s : State) : State :=
  if s.paired then pairRecheck (pairState 4 (faultEvent .prl 50 0 s)) else s

/-- While PAIRED, send a mirror item about queue `q` (R403). PRESUMED, log entry 114. -/
def mirror (q : Nat) (boundary : Bool) (s : State) : State :=
  if s.paired then
    let s1 : State := { s with prl := { s.prl with unmirrored := s.prl.unmirrored ++ [{ q := q, boundary := boundary }] } }
    pairPkt 0x0E 0 s1
  else s

/-- Unmirrored step boundaries of queue `q`. -/
def State.lagOf (s : State) (q : Nat) : Nat := (s.prl.unmirrored.filter fun m => m.q == q && m.boundary).length

end Sys2Proof.Machine
end

