-- ==== Sys2Proof/Machine/WxlOps.lean ====
section
/-! DEFINITION. WXL: the checks of windows, ranges and targets (Tables 6.3, 6.4, 15.6; R401), outbound windows and ATS, the
migration hold, the prefetch engine, the partner cache, entry changes and fences (spec/06). -/
namespace Sys2Proof.Machine

open Sys2Proof

/-! ### Windows and ranges -/

/-- Indices of the listed registers of an array at `base`, `stride`, below `top`. -/
def State.listed (s : State) (base top stride : Nat) : List Nat :=
  s.regs.filterMap fun e =>
    if base ≤ e.1 && e.1 < top && (e.1 - base) % stride == 0 then some ((e.1 - base) / stride) else none

/-- Whether WXL is enabled. -/
def State.wxlOn (s : State) : Bool := s.is F.WXL_CTL_ENABLE

/-- First offset of the range of outbound window `m` (R126). -/
def State.owinLo (s : State) (m : Nat) : Nat := s.get (F.WXL_OWIN_DA_BASE m) * 4096

/-- Whether the enabled outbound window `m` covers offsets `off` to `off + len - 1`. -/
def State.owinHit (s : State) (off len m : Nat) : Bool :=
  s.is (F.WXL_OWIN_CTL_ENABLE m) && decide (s.owinLo m ≤ off)
    && decide (off + len ≤ s.owinLo m + 2 ^ s.get (F.WXL_OWIN_DA_LOG2 m))

/-- The one enabled outbound window that covers a range of target 0xF (R126). -/
def State.owinOf (s : State) (off len : Nat) : Option Nat :=
  if s.wxlOn then (s.listed 0x120000 0x140000 32).find? (s.owinHit off len) else none

/-- First DA of envelope range `g`. -/
def State.erngLo (s : State) (g : Nat) : Nat := s.get (F.WXL_ERNG_BASE_BASE g) * 65536

/-- Whether the enabled range `g` of envelope `e` covers a DA range with the permission (R124). -/
def State.erngHit (s : State) (e : Nat) (wr : Bool) (da len g : Nat) : Bool :=
  s.is (F.WXL_ERNG_CTL_ENABLE g) && s.get (F.WXL_ERNG_CTL_ENV g) == e
    && (if wr then s.is (F.WXL_ERNG_CTL_W g) else s.is (F.WXL_ERNG_CTL_R g))
    && decide (s.erngLo g ≤ da) && decide (da + len ≤ s.erngLo g + 2 ^ s.get (F.WXL_ERNG_CTL_LOG2 g))

/-- An enabled range of envelope `e` that covers the access (R124). -/
def State.erngOf (s : State) (e : Nat) (wr : Bool) (da len : Nat) : Option Nat :=
  if s.wxlOn then (s.listed 0x140000 0x160000 16).find? (s.erngHit e wr da len) else none

/-- Whether a port is fenced (R147). -/
def State.portFenced (s : State) (p : Nat) : Bool := s.wxl.fenced.contains p

/-- Whether a function may issue requests: it exists, has BME 1, is in D0 and is not in function-level reset (R127). -/
def State.fnReady (s : State) (f : Nat) : Bool :=
  s.fnExists f && (s.fnOf f).bme && !s.fnD3 f && !(s.fnOf f).flr

/-- PASID Enable of a function, of its PF for a VF. -/
def State.fnPasid (s : State) (f : Nat) : Bool := (s.fnOf (s.pfIdx f)).pasidEn

/-! ### The checks of Table 6.4 -/

/-- The check that an access failed. -/
inductive Refuse where
  | address | space | portOut | unmapped | envelope | hbm | owin | fnStop | fenced
deriving DecidableEq, Repr

/-- Where a checked access goes: switch port, address (the host address for target 0xF), partner-cache bit, function and
PASID of an outbound window. -/
structure Route where
  out : Nat
  addr : Nat
  hc : Bool := false
  fn : Nat := 0
  pasid : Option Nat := none
  owin : Option Nat := none
deriving DecidableEq, Repr

/-- Result of a check. -/
inductive Checked where
  | ok (r : Route)
  | no (r : Refuse)
deriving DecidableEq, Repr

/-- Table 15.6 for device-bound agents and PF0's window: Tail ring read only, Gondola memory and pinned frames. -/
def State.hbmDev (s : State) (wr : Bool) (off len : Nat) : Bool :=
  (s.inPart 4 off len && !wr) || s.inPart 5 off len || s.pinned off len

/-- Whether the requester belongs to the envelope of an outbound window's function (R127). -/
def State.owinEnv (s : State) (dev : Bool) (env m : Nat) : Bool :=
  match s.fnEnv (s.get (F.WXL_OWIN_CTL_FN m)) with
  | some e => !dev && e == env
  | none => dev

/-- Whether the function conditions of R127 hold for outbound window `m`. -/
def State.owinFn (s : State) (m : Nat) : Bool :=
  let f := s.get (F.WXL_OWIN_CTL_FN m)
  s.fnReady f && (!s.is (F.WXL_OWIN_CTL_PASID_EN m) || s.fnPasid f)

/-- Target 0xF (R126, R127). -/
def State.hostRoute (s : State) (dev : Bool) (env : Nat) (wr : Bool) (da len : Nat) : Checked :=
  match s.owinOf (daOff da) len with
  | none => .no .unmapped
  | some m =>
    if !s.owinEnv dev env m || !(if wr then s.is (F.WXL_OWIN_CTL_W m) else s.is (F.WXL_OWIN_CTL_R m)) then .no .owin
    else if !s.owinFn m then .no .fnStop
    else .ok { out := 0, addr := s.get (F.WXL_OWIN_HOST_BASE m) * 4096 + (daOff da - s.owinLo m),
               fn := s.get (F.WXL_OWIN_CTL_FN m),
               pasid := if s.is (F.WXL_OWIN_CTL_PASID_EN m) then some (s.get (F.WXL_OWIN_CTL_PASID m)) else none,
               owin := some m }

/-- Switch port of targets 0x0 to 0x7. -/
def daSp (da : Nat) : Nat := if daT da = 7 then 2 else 4 + daT da

/-- Targets 0x0 to 0x7: R124, Table 15.6, fences (R21 in S). DEDUCED, log entry 35; DEDUCED, log entry 126. -/
def State.rangeRoute (s : State) (dev : Bool) (env : Nat) (wr : Bool) (da len : Nat) (peer : Bool := false) : Checked :=
  let g := s.erngOf env wr da len
  if daT da = 7 && !(if dev then s.hbmDev wr (daOff da) len else s.pinned (daOff da) len) then .no .hbm
  else if !dev && (g == none || !(peer || s.owns env)) then .no .envelope
  else if daT da ≤ 6 && s.portFenced (daT da) then .no .fenced
  else .ok { out := daSp da, addr := da,
             hc := match g with
               | some g => !dev && s.is (F.WXL_ERNG_CTL_HC g)
               | none => false }

/-- The checks of Table 6.4 in order; `peer` says that the pair peer made the request, which ownership does not bind (R399, R401).
DEDUCED, log entry 36. -/
def State.daCheck (s : State) (dev : Bool) (env : Nat) (wr : Bool) (da len : Nat) (peer : Bool := false) : Checked :=
  if !daValid da len then .no .address
  else if daT da = 8 then .no .space
  else if !s.hasTarget da then .no .portOut
  else if daT da = 15 then (if !dev && !peer && !s.owns env then .no .envelope else s.hostRoute dev env wr da len)
  else s.rangeRoute dev env wr da len peer

/-! ### Answers to refused accesses -/

/-- Whether a refusal is the failure of an envelope check, which WXL records (R13, R129, R130). A fence counts only for a
host access (Table 6.3). -/
def Refuse.env (r : Refuse) (host : Bool) : Bool :=
  match r with
  | .envelope => true
  | .hbm => true
  | .owin => true
  | .fnStop => true
  | .fenced => host
  | _ => false

/-- ERR status of a refused partner packet (Table 12.7). -/
def Refuse.errCode : Refuse → Nat
  | .address => 2 | .space => 2 | .portOut => 2 | .unmapped => 3 | .fenced => 4 | _ => 1

/-- `gafault` reason of a refused core access (Table 14.6). DEDUCED, log entry 37. -/
def Refuse.coreCode : Refuse → Nat
  | .address => 5 | .space => 5 | .portOut => 5 | .unmapped => 4 | .owin => 4 | .fnStop => 4 | .fenced => 6 | _ => 3

/-- Answer that stands for a refusal toward descriptors and hosts (Tables 6.3, 6.4). -/
def Refuse.ans : Refuse → Ans
  | .address => .malformed | .space => .envelope | .portOut => .portDown | .unmapped => .xlate | .fenced => .partnerReset
  | _ => .envelope

/-- A host access refused: a completion, or for a posted request the error of the standard (R99). -/
def hostRefuse (fn tag : Nat) (posted : Bool) (ca : Bool) (s : State) : State :=
  if posted then s.emit (.aer fn false (if ca then "Completer Abort" else "Unsupported Request"))
  else hostDone fn tag (if ca then .abort else .unsupported) [] false s

/-- A function's condition stops a queue's access: it leaves the step where it is, to be cut there (R108, R127). -/
def stepCut (q gen off : Nat) (wr : Bool) (s : State) : State :=
  let x := s.qa q
  if s.isGen q gen then
    let c := min off (x.step.cut.getD off)
    (if wr then stepWriteEnd q gen else stepReadEnd q gen) (s.setQa q { x with step := { x.step with cut := some c }, stopReq := true })
  else s

/-- The record of a refusal: ENV_VIOL, PROT_VIOL and the function's bits (R129, R365). DEDUCED, log entry 36; DEDUCED, log entry 37. -/
def refuseNote (f : Frame) (r : Refuse) (s : State) : State :=
  let host := match f.origin with
    | .host _ _ => true
    | _ => false
  let s1 := if r.env host then faultEvent .wxl 2 0 s else s
  let s2 := if r == .hbm then faultEvent .hbm 6 f.addr s1 else s1
  if host && r.env true then fnFault F.HEP_FN_FAULT_ENV_VIOL f.fn s2 else s2

/-- DA that a request named. -/
def Frame.reqDa (f : Frame) : Nat := if f.da = 0 then f.addr else f.da

/-- The answer to a refused access, by its origin (Tables 6.3 and 6.4). -/
def wxlRefuse (f : Frame) (r : Refuse) (s : State) : State :=
  let wr := f.typ == .write
  match f.origin with
  | .host fn tag => hostRefuse fn tag wr (r.env true) (refuseNote f r s)
  | .step q gen off =>
    if r == .fnStop then stepCut q gen off wr s else failAccess f.typ f.origin r.ans (refuseNote f r s)
  | .partner p _ tag _ _ =>
    let s1 := refuseNote f r s
    errPkt p tag (!wr) f.env f.reqDa r.errCode (if (r.env false) then faultEvent (portBlk p) 35 0 s1 else s1)
  | .core c => coreFault c r.coreCode (if f.typ == .read then 5 else 7) f.tag (refuseNote f r s)
  | .fetch q => if r == .fnStop then s.setQa q { s.qa q with fetchOut := 0 } else failAccess f.typ f.origin r.ans (refuseNote f r s)
  | .record _ => if r == .fnStop then s else failAccess f.typ f.origin r.ans (refuseNote f r s)
  | _ => failAccess f.typ f.origin r.ans (refuseNote f r s)

/-! ### Prefetched data (R135 to R138) -/

/-- The window returns to training (R137). -/
def retrain (w : Nat) (s : State) : State :=
  let s1 := (s.put (F.WXL_IWIN_CTL_TRAINED w) 0).put (F.WXL_IWIN_CTL_PRED w) 0
  { s1 with wxl := { s1.wxl with unused := KMap.set s1.wxl.unused 0 w 0 } }

/-- The record of a discarded side-effect read (R138). -/
def seDiscard (e : PfData) (s : State) : State :=
  let n := s.get F.WXL_SEDISCARD_STS_NEXT
  let env := (s.fnEnv (e.w / 2)).getD 0
  let s1 := (((s.put (F.WXL_SEDISCARD_LOG_DA n) e.da).put (F.WXL_SEDISCARD_LOG_ENV n) env).put
    (F.WXL_SEDISCARD_LOG_VALID n) 1).put F.WXL_SEDISCARD_STS_NEXT ((n + 1) % 16)
  retrain e.w (faultEvent .wxl 4 0 (s1.bump F.WXL_SEDISCARD_STS_COUNT))

/-- One prefetched datum discarded unused: counted, logged if it had a side effect, retraining at MISS_LIMIT. -/
def pfUnused (log : Bool) (e : PfData) (s : State) : State :=
  let n := KMap.get s.wxl.unused 0 e.w + 1
  let s1 := (s.bump F.WXL_PF_STS_UNUSED)
  let s2 : State := { s1 with wxl := { s1.wxl with unused := KMap.set s1.wxl.unused 0 e.w n } }
  let s3 := if s.get F.WXL_PF_CFG_MISS_LIMIT ≤ n then retrain e.w s2 else s2
  if e.se && log then seDiscard e s3 else s3

/-- Class 7 frames whose data is no longer held leave the buffer. -/
def pfFrames (s : State) : State :=
  let live := fun (f : Frame) => f.typ != .prefData || s.wxl.pf.any fun e => e.arrived && e.fda == f.addr
  { s with swc := { s.swc with queued := s.swc.queued.filter live, inject := s.swc.inject.filter live, retry := s.swc.retry.filter live } }

/-- Whether the frame that holds a datum is in the buffer, or on its way into it. -/
def State.pfHeld (s : State) (e : PfData) : Bool :=
  e.arrived && !s.swc.retry.any fun f => f.typ == .prefData && f.addr == e.fda

/-- Discard unused every prefetched datum that satisfies `p` (R136). -/
def pfDiscard (log : Bool) (p : PfData → Bool) (s : State) : State :=
  let gone := s.wxl.pf.filter p
  let s1 : State := { s with wxl := { s.wxl with pf := s.wxl.pf.filter fun e => !p e } }
  pfFrames (gone.foldl (fun t e => pfUnused log e t) s1)

/-- A write from any path discards the data it overlaps (R136). -/
def pfOnWrite (da len : Nat) (s : State) : State := pfDiscard true (fun e => overlap da len e.da e.len) s

/-- Bytes `da` to `da + len - 1` out of held data with a current GEN; none if not wholly held. `n` bounds the pieces. -/
def State.pfCover (s : State) (n da len : Nat) : Option (List Byte) :=
  match n with
  | 0 => if len = 0 then some [] else none
  | n + 1 =>
    if len = 0 then some []
    else match s.wxl.pf.find? (fun e => s.pfHeld e && decide (e.da ≤ da) && decide (da < e.da + e.len)
        && e.gen == fieldOf (s.xtE e.idx) 48 8) with
      | none => none
      | some e =>
        let k := min len (e.da + e.len - da)
        (s.pfCover n (da + k) (len - k)).map fun r => (e.data.drop (da - e.da)).take k ++ r

/-- What is left of a datum after the bytes `da` to `da + len - 1` are used. -/
def pfRest (da len : Nat) (e : PfData) : List PfData :=
  if !(e.arrived && overlap da len e.da e.len) then [e]
  else
    (if e.da < da then [{ e with len := da - e.da, data := e.data.take (da - e.da) }] else [])
      ++ (if da + len < e.da + e.len then
            [{ e with da := da + len, len := e.da + e.len - (da + len), data := e.data.drop (da + len - e.da) }] else [])

/-- Data is used and released. -/
def pfUse (w da len : Nat) (s : State) : State :=
  pfFrames { s with wxl := { s.wxl with pf := s.wxl.pf.flatMap (pfRest da len), unused := KMap.set s.wxl.unused 0 w 0 } }

/-! ### Partner cache (R139 to R143) -/

/-- First byte of the 4 KiB line of a DA. -/
def lineDa (da : Nat) : Nat := da / 4096 * 4096

/-- Whether the configuration has a partner cache. -/
def State.hasPc (s : State) : Bool := s.cfg != 0

/-- Number of sets: 16 lines of 4 KiB each, above the pinned frames. DESIGN CHOICE, log entry 24. -/
def State.pcSets (s : State) : Nat :=
  match s.part 6 with
  | some (_, z) => (z - s.get F.WXL_PC_CFG_PINNED_64M * 64 * mib) / 65536
  | none => 0

/-- Set of a line. DESIGN CHOICE, log entry 24. -/
def State.pcSet (s : State) (da : Nat) : Nat := da / 4096 % (s.pcSets)

/-- Pseudo-channel that holds the line of a set and way: lines lie above the pinned frames, the ways of a set in a row (log
entry 24). -/
def State.pcLinePc (s : State) (set way : Nat) : Nat :=
  match s.part 6 with
  | some (b, _) => s.pcAt (b + s.get F.WXL_PC_CFG_PINNED_64M * 64 * mib + (16 * set + way) * 4096)
  | none => 0

/-- The line that holds a DA. -/
def State.pcFind (s : State) (da : Nat) : Option PcLine := s.wxl.pc.find? fun l => l.da == lineDa da

/-- Whether the port of a line carries write-backs: its link is in L.ACTIVE or L.RESIZE. -/
def State.pcPortUp (s : State) (da : Nat) : Bool := s.flits (daT da)

/-- Bytes written into a byte string at an offset. -/
def patch (l : List Byte) (off : Nat) (d : List Byte) : List Byte := l.take off ++ d ++ l.drop (off + d.length)

/-- The frame that writes back a line. -/
def wbFrame (l : PcLine) : Frame :=
  { typ := .write, cls := 2, inp := 0, out := daSp l.da, env := l.env, addr := l.da, len := 4096, data := l.data,
    origin := .writeBack l.da }

/-- A line's data is replaced and the line becomes the most recently used. -/
def pcPut (l : PcLine) (s : State) : State :=
  { s with wxl := { s.wxl with pc := l :: s.wxl.pc.filter fun k => k.da != l.da } }

/-- A line leaves the cache without write-back. -/
def pcDrop (p : PcLine → Bool) (s : State) : State :=
  { s with wxl := { s.wxl with pc := s.wxl.pc.filter fun l => !p l } }

/-- The victim of a set, least recently used first among clean lines and dirty lines whose port is up (R140). -/
def State.pcVictim (s : State) (set : Nat) : Option PcLine :=
  (s.wxl.pc.filter fun l => s.pcSet l.da == set).reverse.find? fun l => !l.out && (!l.dirty || s.pcPortUp l.da)

/-- Make room for a line: some way of its set, its old line written back if dirty; none when all 16 ways must stay. -/
def pcRoom (da : Nat) (s : State) : Option (Nat × State) :=
  if s.pcSets = 0 then none
  else
    let set := s.pcSet da
    let used := (s.wxl.pc.filter fun l => s.pcSet l.da == set).map (·.way)
    match (List.range 16).find? (fun w => !used.contains w && !s.hbm.out.contains (s.pcLinePc set w)) with
    | some w => some (w, s)
    | none =>
      match s.pcVictim set with
      | none => none
      | some v =>
        let s1 := pcDrop (fun l => l.da == v.da) s
        some (v.way, if v.dirty then s1.inject (wbFrame v) else s1)

/-- Install a line. -/
def pcInstall (da env : Nat) (dirty : Bool) (data : List Byte) (s : State) : Option State :=
  match pcRoom (lineDa da) s with
  | none => none
  | some (w, s1) => some (pcPut { da := lineDa da, env := env, dirty := dirty, data := data, way := w } s1)

/-- An access is answered out of the bridge: the response leaves SP2 toward the requester's input. -/
def respond (f : Frame) (ans : Ans) (data : List Byte) (s : State) : State := s.inject (f.answer 2 ans data)

/-- Whether a miss may allocate (R139, R140, R141, R401). -/
def State.pcMayAlloc (s : State) (f : Frame) (hc se : Bool) : Bool :=
  s.is F.WXL_CTL_PC_EN && hc && !se && s.owns f.env && (s.cfg != 3 || f.typ == .read) && f.typ != .atomic

/-- Write back a dirty line and drop it, before an ATOM goes to it (R189). -/
def pcPurge (da : Nat) (s : State) : State :=
  match s.pcFind da with
  | some l =>
    let s1 := pcDrop (fun k => k.da == l.da) s
    if l.dirty then s1.inject (wbFrame l) else s1
  | none => s

/-- A hit (R140, R141). -/
def pcHit (f : Frame) (l : PcLine) (s : State) : State :=
  let s1 := s.bump F.WXL_PC_STS_HITS
  if f.typ == .read then respond f .ok ((l.data.drop (f.addr - l.da)).take f.len) (pcPut l s1)
  else
    let l' := { l with data := patch l.data (f.addr - l.da) f.data }
    if s.cfg = 3 then (pcPut l' s1).inject f else writeDone f.origin (pcPut { l' with dirty := true } s1)

/-- A miss: to the target, or allocate (R140). DEDUCED, log entry 41. -/
def pcMiss (f : Frame) (hc se : Bool) (s : State) : State :=
  let s1 := s.bump F.WXL_PC_STS_MISSES
  if !s.pcMayAlloc f hc se then s1.inject f
  else if f.typ == .write && f.len == 4096 then
    match pcInstall f.addr f.env true f.data s1 with
    | some s2 => writeDone f.origin s2
    | none => s1.inject f
  else match pcRoom (lineDa f.addr) s1 with
    | none => s1.inject f
    | some _ =>
      let s2 : State := { s1 with wxl := { s1.wxl with
        fills := s1.wxl.fills ++ [(lineDa f.addr, [{ f := f }])] } }
      s2.inject { typ := .read, cls := 3, inp := f.inp, out := daSp f.addr, env := f.env, addr := lineDa f.addr, len := 4096,
                  origin := .pcFill (lineDa f.addr) }

/-- The partner cache on the way to the target (R139). -/
def pcAccess (f : Frame) (hc se : Bool) (s : State) : State :=
  if !s.hasPc || 5 < daT f.addr then s.inject f
  else if s.wxl.fills.any (fun e => e.1 == lineDa f.addr) then
    { s with wxl := { s.wxl with fills := s.wxl.fills.map fun e =>
        if (e.1 = lineDa f.addr) then (e.1, e.2 ++ [{ f := f }]) else e } }
  else if f.typ == .atomic then
    let s1 := (pcPurge f.addr s).inject f
    { s1 with wxl := { s1.wxl with blockHold := s1.wxl.blockHold ++ [(lineDa f.addr, 4096)] } }
  else match s.pcFind f.addr with
    | some l => pcHit f l s
    | none => pcMiss f hc se s

/-- The line of a fill has arrived: install it and let the waiting accesses through in order (R140). DEDUCED, log entry 41. -/
def pcFilled (da env : Nat) (data : List Byte) (s : State) : State :=
  let wait := (s.wxl.fills.filter fun e => e.1 == da).flatMap (·.2)
  let s1 : State := { s with wxl := { s.wxl with fills := s.wxl.fills.filter fun e => e.1 != da } }
  let s2 := (pcInstall da env false data s1).getD s1
  wait.foldl (fun t a => pcAccess a.f false false t) s2

/-! ### Forwarding (Table 6.3, step 8) -/

/-- A checked access on its way: the frame with its DA, output and host address, whether it may allocate, whether it has side
effects, and for a host read that may be prefetched from the window, entry index and GEN (R135). -/
structure Fwd where
  f : Frame
  route : Route
  se : Bool := false
  win : Option (Nat × Nat × Nat) := none
  pfOk : Bool := false
  acc : Access
deriving DecidableEq, Repr

/-- The stream of an access: its function for the host, its input otherwise (R145). -/
def streamOf (f : Frame) : Nat := match f.origin with
  | .host fn _ => 16 + fn
  | _ => f.inp

/-- Whether a DA range lies in a source frame of a migration. -/
def Mig.covers (m : Mig) (da len : Nat) : Bool := m.srcs.any fun p => overlap p 65536 da len

/-- Whether an access waits: a final hold, a held block, or behind a held access of its stream (R145, R184, R189). -/
def State.mustHold (s : State) (f : Frame) : Bool :=
  s.wxl.blockHold.any (fun b => overlap b.1 b.2 f.addr f.len)
    || (s.wxl.migs.any (·.hold) && (s.wxl.migs.any (fun m => m.hold && m.covers f.addr f.len)
        || s.wxl.heldAcc.any fun a => streamOf a.f == streamOf f))

/-- A write to a source frame marks its 4 KiB block dirty (R145). -/
def migDirty (da len : Nat) (s : State) : State :=
  { s with wxl := { s.wxl with migs := s.wxl.migs.map fun m =>
      if (m.covers da len && !m.dirty.contains (lineDa da)) then { m with dirty := m.dirty ++ [lineDa da] } else m } }

/-- Where an access leaves toward its target. -/
def toTarget (x : Fwd) (s : State) : State :=
  if x.route.out = 0 then
    s.inject { x.f with out := 0, addr := x.route.addr, da := x.f.addr, fn := x.route.fn, pasid := x.route.pasid }
  else pcAccess { x.f with out := x.route.out } x.route.hc x.se s

/-- Reads ahead of a demand read that ended at `fin` (R135): up to DEPTH × 512 B, never past its 64 KiB page. DEDUCED, log entry 40. -/
def pfIssue (x : Fwd) (w idx gen fin : Nat) (s : State) : State :=
  let page := (fin - 1) / 65536 * 65536 + 65536
  let hi := min page (fin + s.get F.WXL_PF_CFG_DEPTH * 512)
  let lo := (s.wxl.pf.filter fun e => e.w == w && decide (fin ≤ e.da + e.len) && decide (e.da ≤ hi)).foldl
    (fun m e => max m (e.da + e.len)) fin
  (cutFrames 4 lo lo 0 (hi - lo)).foldl (fun t c =>
    let f : Frame := { typ := .read, cls := 3, inp := 0, out := x.route.out, env := x.f.env, addr := lo + c.1, len := c.2,
                       fn := x.f.fn, origin := .prefetch w }
    let t1 := t.bump F.WXL_PF_STS_ISSUED
    pcAccess f false x.se { t1 with wxl := { t1.wxl with pf := t1.wxl.pf ++
      [{ w := w, da := lo + c.1, len := c.2, idx := idx, gen := gen, fda := lo + c.1 }] } }) s

/-- A demand read of window `w` trains it, and prefetches once it predicts (R135). DEDUCED, log entry 40. -/
def pfTrain (x : Fwd) (w idx gen : Nat) (s : State) : State :=
  let fin := x.f.addr + x.f.len
  let seq := s.wxl.lastEnd.any fun e => e.1 == w && e.2 == x.f.addr
  let n := min (s.get (F.WXL_IWIN_CTL_TRAINED w) + 1) (s.get F.WXL_PF_CFG_TRAIN)
  let s1 := (s.put (F.WXL_IWIN_CTL_TRAINED w) n).put (F.WXL_IWIN_CTL_PRED w) (b2n (n == s.get F.WXL_PF_CFG_TRAIN))
  let s2 : State := { s1 with wxl := { s1.wxl with lastEnd := KMap.set s1.wxl.lastEnd 0 w fin } }
  if x.pfOk && seq && n == s.get F.WXL_PF_CFG_TRAIN && s.is F.WXL_CTL_PF_EN && s.dev.mode != .quiesce then
    pfIssue x w idx gen fin s2
  else s2

/-- Step 8 of Table 6.3: migration hold, prefetched data, partner cache, target. -/
def wxlForward (x : Fwd) (s : State) : State :=
  let da := x.f.addr
  if x.route.out != 0 && s.mustHold x.f then
    { s with wxl := { s.wxl with heldAcc := s.wxl.heldAcc ++ [x.acc] } }
  else if x.route.out = 0 then toTarget x s
  else if x.f.typ == .read then
    match x.win with
    | none => toTarget x s
    | some (w, idx, gen) =>
      match s.pfCover 32 da x.f.len with
      | some d =>
        pfTrain x w idx gen (respond x.f .ok d (pfUse w da x.f.len (s.bump F.WXL_PF_STS_HITS)))
      | none =>
        pfTrain x w idx gen (toTarget x (pfDiscard true (fun e => e.w == w && overlap da x.f.len e.da e.len) s))
  else toTarget x (pfOnWrite da x.f.len (migDirty da x.f.len s))

/-! ### DA accesses and ATS (R126 to R128) -/

/-- Whether outbound window `m` uses ATS now. -/
def State.owinAts (s : State) (m : Nat) : Bool :=
  s.is (F.WXL_OWIN_CTL_AT m) && (s.fnOf (s.get (F.WXL_OWIN_CTL_FN m))).atsEn

/-- The cached translation of a host address for a route. DESIGN CHOICE, log entry 38. -/
def State.atcFind (s : State) (r : Route) : Option Atc :=
  s.wxl.atc.find? fun a => a.fn == r.fn && a.pasid == r.pasid.getD (2 ^ 20) && a.page == r.addr / 4096

/-- An access of target 0xF goes out with the translation, waits for one, or fails as if no window covered it (R128). -/
def atsStep (x : Fwd) (m : Nat) (s : State) : State :=
  if !s.owinAts m then wxlForward x s
  else match s.atcFind x.route with
    | some a =>
      if ((x.f.typ == .write && a.w) || (x.f.typ != .write && a.r)) then
        wxlForward { x with route := { x.route with addr := a.addr * 4096 + x.route.addr % 4096 } } s
      else wxlRefuse x.f .unmapped s
    | none =>
      let want : Atc := { fn := x.route.fn, pasid := x.route.pasid.getD (2 ^ 20), page := x.route.addr / 4096, addr := 0,
                          r := false, w := false }
      let asked := s.wxl.atsWait.any fun e => e.1 == want
      let s1 : State := { s with wxl := { s.wxl with atsWait := s.wxl.atsWait ++ [(want, x.acc)] } }
      if asked then s1
      else hepRequest (.translationRequest x.route.fn 0 x.route.pasid (x.route.addr / 4096 * 4096)) s1

/-- The checks of an access: an ATOM both reads and writes. DEDUCED, log entry 35. -/
def State.accessCheck (s : State) (a : Access) : Checked :=
  let peer := a.f.inp == 10
  let w := s.daCheck a.dev a.f.env (a.f.typ != .read) a.f.addr a.f.len peer
  if a.f.typ == .atomic then
    (match w, s.daCheck a.dev a.f.env false a.f.addr a.f.len peer with
    | .ok _, .no r => .no r
    | _, _ => w)
  else w

/-- An access by DA (R130). -/
def daAccess (a : Access) (s : State) : State :=
  match s.accessCheck a with
  | .no r => wxlRefuse a.f r s
  | .ok r =>
    match r.owin with
    | some m => atsStep { f := a.f, route := r, acc := a } m s
    | none => wxlForward { f := a.f, route := r, acc := a } s

/-! ### Inbound windows (R116 to R118, Table 6.3) -/

/-- Whether an inbound window is in translated mode. -/
def State.winXlt (s : State) (w : Nat) : Bool := s.get (F.WXL_IWIN_CTL_MODE w) == 2

/-- Steps 3 to 8 of Table 6.3: entry ENV `own`, permissions `rd` and `wr`, then target, fence and ranges. -/
def windowChecked (a : Access) (w da : Nat) (own rd wr hc se pf : Bool) (idx gen : Nat) (s : State) : State :=
  let f := { a.f with addr := da }
  let store := f.typ != .read
  if !own then wxlRefuse f .envelope s
  else if !((store && wr) || (!store && rd)) then wxlRefuse f .envelope s
  else if !daValid da f.len || 8 ≤ daT da then wxlRefuse f .address s
  else if !s.hasTarget da then wxlRefuse f .portOut s
  else if daT da ≤ 6 && s.portFenced (daT da) then wxlRefuse f .fenced s
  else match s.rangeRoute a.dev f.env store da f.len with
    | .no r => wxlRefuse f r s
    | .ok r =>
      if f.poison then s.emit (.aer f.fn false "Poisoned TLP Received")
      else wxlForward { f := f, route := { r with hc := hc }, se := se, win := some (w, idx, gen), pfOk := pf && !se, acc := a } s

/-- An access through a translated window with the entry it resolves to; `e` none is not valid for it (R119, R122). -/
def windowEntry (a : Access) (w : Nat) (e : Option Word) (s : State) : State :=
  let k := a.f.addr / 65536
  let i := s.get (F.WXL_IWIN_BASE_INDEX w) + k
  match e with
  | some v =>
    if s.xtValid v then
      windowChecked a w (xtDa v + a.f.addr % 65536) (a.dev || fieldOf v 6 10 == a.f.env) (fieldOf v 1 1 == 1) (fieldOf v 2 1 == 1)
        (fieldOf v 5 1 == 1) (fieldOf v 4 1 == 1) (fieldOf v 3 1 == 1) i (fieldOf v 48 8) s
    else wxlRefuse a.f .unmapped (fnFault F.HEP_FN_FAULT_XLATE a.f.fn (faultEvent .wxl 3 0 s))
  | none => wxlRefuse a.f .unmapped (fnFault F.HEP_FN_FAULT_XLATE a.f.fn (faultEvent .wxl 3 0 s))

/-- Ways per set for table entries (R123). DEDUCED, log entry 39. -/
def State.tcWays (s : State) : Nat := 8 - s.get F.WXL_CTL_ATC_WAYS - s.get F.WXL_TC_STS_WAYS_RETIRED

/-- Entry `i` becomes the most recently used of its set, the least recently used beyond the ways leaving. DEDUCED, log entry 39. -/
def tcUse (i : Nat) (v : Word) (s : State) : State :=
  let set := i % 4096
  let mine := s.wxl.tc.filter fun e => e.1 % 4096 == set && e.1 != i
  let rest := s.wxl.tc.filter fun e => e.1 % 4096 != set
  let keep := ((i, v) :: mine).take s.tcWays
  { s with wxl := { s.wxl with tc := keep ++ rest } }

/-- The walk of entry `i` for an access: it joins the walk in progress, begins one, or waits beyond 256 walks. -/
def walkFor (i : Nat) (a : Access) (s : State) : State :=
  if s.wxl.walks.any (fun e => e.1 == i) then
    { s with wxl := { s.wxl with walks := s.wxl.walks.map fun e => if e.1 = i then (i, e.2 ++ [a]) else e } }
  else if s.wxl.walks.length < 256 then { s with wxl := { s.wxl with walks := s.wxl.walks ++ [(i, [a])] } }
  else { s with wxl := { s.wxl with walkWait := s.wxl.walkWait ++ [a] } }

/-- A host access through window `w` (R129); the frame's address is the BAR offset. -/
def windowAccessOps (a : Access) (w : Nat) (s : State) : State :=
  let off := a.f.addr
  if !s.wxlOn || !s.is (F.WXL_IWIN_CTL_ENABLE w) || 2 ^ s.get (F.WXL_IWIN_CTL_LOG2 w) < off + a.f.len then
    wxlRefuse a.f .unmapped s
  else if s.winXlt w then
    let i := s.get (F.WXL_IWIN_BASE_INDEX w) + off / 65536
    let s1 := s.bump F.WXL_TC_STS_LOOKUPS
    match s.wxl.tc.find? (fun e => e.1 == i) with
    | some (_, v) => windowEntry a w (some v) (tcUse i v s1)
    | none => walkFor i a (s1.bump F.WXL_TC_STS_MISSES)
  else
    windowChecked a w (s.get (F.WXL_IWIN_BASE_BASE w) * 65536 + off) true (s.is (F.WXL_IWIN_CTL_R w)) (s.is (F.WXL_IWIN_CTL_W w))
      (s.is (F.WXL_IWIN_CTL_HC w)) (s.is (F.WXL_IWIN_CTL_SE w)) (s.is (F.WXL_IWIN_CTL_PF w)) (2 ^ 28) 0 s

/-- Any access that enters WXL. -/
def wxlAccess (a : Access) (s : State) : State :=
  match a.win with
  | some w => windowAccessOps a w s
  | none => daAccess a s

/-- The held accesses run again in their arrival order; those still held stay held (R145). -/
def releaseHeld (s : State) : State :=
  s.wxl.heldAcc.foldl (fun t a => wxlAccess a t) { s with wxl := { s.wxl with heldAcc := [] } }

/-! ### Entry changes (R120, R121, R132) and fences (R147) -/

/-- Window numbers whose translated range holds entry `i`. -/
def State.winsOf (s : State) (i : Nat) : List Nat :=
  (s.listed 0x110000 0x120000 16).filter fun w => s.winXlt w && decide (s.get (F.WXL_IWIN_BASE_INDEX w) ≤ i)
    && decide (i < s.get (F.WXL_IWIN_BASE_INDEX w) + 2 ^ (s.get (F.WXL_IWIN_CTL_LOG2 w) - 16))

/-- The cached copy of entry `i` and the data prefetched through it are invalidated (R121). -/
def xtInval (i : Nat) (s : State) : State :=
  pfDiscard true (fun e => e.idx == i) { s with wxl := { s.wxl with tc := s.wxl.tc.filter fun e => e.1 != i } }

/-- Entry `i` is changed to `v`, with GEN one above the old (R120); SE_UNDER_PREF where R132 says so. -/
def xtChange (i : Nat) (v : Word) (s : State) : State :=
  let g := (fieldOf (s.xtE i) 48 8 + 1) % 256
  let s1 := xtInval i s
  let s2 : State := { s1 with xt := KMap.set s1.xt 0 i (withField v 48 8 g) }
  if fieldOf v 4 1 = 1 && (s.winsOf i).any (fun w => s.is (F.WXL_IWIN_CTL_ENABLE w) && s.is (F.WXL_IWIN_CTL_PREF w)) then
    faultEvent .wxl 5 0 s2
  else s2

/-- WXL fences port `p`: prefetched data discarded without logging, its cache lines lost (R147). -/
def wxlFence (p : Nat) (s : State) : State :=
  let s1 := pfDiscard false (fun e => daT e.da == p) s
  let lines := s1.wxl.pc.filter fun l => daT l.da == p
  let lost := lines.filter (·.dirty)
  let s2 := (pcDrop (fun l => daT l.da == p) s1).bumpBy F.WXL_PC_STS_DIRTY_LOST lost.length
  let s3 : State := { s2 with wxl := { s2.wxl with
    fenced := if s2.wxl.fenced.contains p then s2.wxl.fenced else s2.wxl.fenced ++ [p]
    flushing := s2.wxl.flushing.filter fun d => daT d != p } }
  let s4 := match lost.map (·.da) with
    | [] => s3
    | d :: r => faultEvent .wxl 6 (r.foldl min d) s3
  if p < 6 then s4.put (F.LPn_REARM_FENCED p) 1 else s4

/-- WXL's fence of port `p` ends (R310). -/
def wxlUnfence (p : Nat) (s : State) : State :=
  let s1 : State := { s with wxl := { s.wxl with fenced := s.wxl.fenced.filter fun q => q != p } }
  if p < 6 then s1.put (F.LPn_REARM_FENCED p) 0 else s1

/-- The hold of a block ends and held accesses go on (R184, R189). -/
def unhold (da len : Nat) (s : State) : State :=
  if s.wxl.blockHold.contains (da, len) then
    releaseHeld { s with wxl := { s.wxl with blockHold := s.wxl.blockHold.filter fun b => b != (da, len) } }
  else s

/-- The lines of an envelope leave the cache before a bridge serves it, or ceases to (R141). -/
def pcDropEnv (e : Nat) (s : State) : State := pcDrop (fun l => l.env == e) s

end Sys2Proof.Machine
end

