-- ==== Sys2Proof/Machine/SplOps.lean ====
section
/-! DEFINITION. SPL: credits, tokens and charges of envelopes, the energy estimate of a step (R206), the candidates of a path and
the release order of Table 9.2 (spec/09). -/
namespace Sys2Proof.Machine

open Sys2Proof

/-! ### Signed fields -/

/-- A field as a two's complement number. -/
def State.sget (s : State) (f : Field) : Int :=
  let n := s.get f
  if n < 2 ^ (f.w - 1) then (n : Int) else (n : Int) - 2 ^ f.w

/-- A field set to a two's complement number. -/
def State.sput (s : State) (f : Field) (v : Int) : State := s.put f (v % 2 ^ f.w).toNat

/-- A number held between two bounds. -/
def clampInt (lo hi v : Int) : Int := max lo (min hi v)

/-- The limit of CREDIT of an envelope: BURST_256 × 256 nJ (R201). -/
def State.creditMax (s : State) (e : Nat) : Int := ((s.get (F.ENV_CFG_BURST_256 e) * 256 : Nat) : Int)

/-- The limit of BW_TOK: 1,048,576 B (R202). -/
def tokMax : Int := 1048576

/-- CREDIT of an envelope changes by `d`, within its limits (R201). -/
def creditAdd (e : Nat) (d : Int) (s : State) : State :=
  if s.envDefined e then
    s.sput (F.ENV_CREDIT_CREDIT e) (clampInt (-(s.creditMax e)) (s.creditMax e) (s.sget (F.ENV_CREDIT_CREDIT e) + d))
  else s

/-- BW_TOK of an envelope changes by `d`, within its limits (R202). -/
def tokAdd (e : Nat) (d : Int) (s : State) : State :=
  if s.envDefined e then
    s.sput (F.ENV_CREDIT_BW_TOK e) (clampInt (-tokMax) tokMax (s.sget (F.ENV_CREDIT_BW_TOK e) + d))
  else s

/-- A charge reaches the counters: `ENV_ENERGY` and the interval's sum (R208, R209). -/
def chargeEnv (e nj : Nat) (s : State) : State :=
  let s1 := if s.envDefined e then
      s.setReg (R.ENV_ENERGY e) (s.reg (R.ENV_ENERGY e) + BitVec.ofNat 64 nj) else s
  { s1 with spl := { s1.spl with charged := s1.spl.charged + nj } }

/-- DEFINE sets: CREDIT at its maximum if SHARE is above 0, BW_TOK at its maximum, counter 0 (R201, R202, R208). DEDUCED, log entry 63. -/
def envBegin (e : Nat) (s : State) : State :=
  let s1 := s.sput (F.ENV_CREDIT_CREDIT e) (if s.get (F.ENV_CFG_SHARE e) = 0 then 0 else s.creditMax e)
  let s2 := (s1.sput (F.ENV_CREDIT_BW_TOK e) tokMax).setReg (R.ENV_ENERGY e) 0
  { s2 with spl := { s2.spl with carry := KMap.set s2.spl.carry 0 e 0, opRem := KMap.set s2.spl.opRem 0 e 0 } }

/-- DEFINE clears: credit, tokens and counter read 0 (R200). -/
def envEnd (e : Nat) (s : State) : State :=
  (s.setReg (R.ENV_CREDIT e) 0).setReg (R.ENV_ENERGY e) 0

/-! ### The energy model (R206, Table 9.3) -/

/-- The per-byte part of an estimate: ⌈B × PJB ÷ 100,000⌉ for a kind pair. -/
def State.pjb (s : State) (i b : Nat) : Nat := (b * s.get (F.SPL_COEF_PJB i) + 99999) / 100000

/-- The estimate for `b` bytes of one kind pair: the per-byte part and OVH. -/
def State.pairEst (s : State) (i b : Nat) : Nat := s.pjb i b + s.get (F.SPL_COEF_OVH i)

/-- The migration of queue `q`. -/
def State.migOf (s : State) (q : Nat) : Option Mig := s.wxl.migs.find? fun m => m.q == q

/-- Bytes of an operation that its steps cover: of the present pass, for MIGRATE. -/
def State.opTotal (s : State) (q : Nat) : Nat :=
  if s.opc q = 0x06 then
    match s.migOf q with
    | some m => m.copy.length * (if m.pass = 1 then 65536 else 4096)
    | none => s.opLen q
  else s.opLen q

/-- Source addresses of the units (pages in the first pass, blocks later) that bytes `off` to `off + len - 1` of a pass
touch, with the bytes of each. -/
def Mig.units (m : Mig) (off len : Nat) : List (Nat × Nat) :=
  let u := if m.pass = 1 then 65536 else 4096
  ((List.range m.copy.length).filter fun i => overlap (i * u) u off len).map fun i =>
    (m.copy.getD i 0, min (i * u + u) (off + len) - max (i * u) off)

/-- Estimate of a MIGRATE step: its bytes grouped by the kind of the present frames. -/
def State.migEst (s : State) (m : Mig) (off len : Nat) : Nat :=
  (List.range 4).foldl (fun n k =>
    let b := sumList (((m.units off len).filter fun x => daKind x.1 == k).map (·.2))
    if b = 0 then n else n + s.pairEst (4 * k + daKind m.dst) b) 0

/-- Targets of a MULTICAST_WRITE not yet dropped. -/
def State.mcAlive (s : State) (q : Nat) : List Nat :=
  (List.range (s.df q 0 8 4)).filter fun t => !bitOf (s.cget q C.CK_ACC) t && !(s.qa q).drops.any fun d => d.1 == t

/-- Estimate of a MULTICAST_WRITE step for the targets not yet dropped. -/
def State.mcEst (s : State) (q b : Nat) : Nat :=
  let k := daKind (s.df q 1 0 48)
  let kinds := (s.mcAlive q).map fun t => daKind (mcDst (s.qa q).list t)
  sumList (kinds.map fun d => s.pjb (4 * k + d) b) + (match kinds with
    | [] => 0
    | d :: _ => s.get (F.SPL_COEF_OVH (4 * k + d)))

/-- The estimate of the step of queue `q` at `off` of `len` bytes, with the coefficients in force (R206, Table 9.3). -/
def State.stepEst (s : State) (q off len : Nat) : Nat :=
  let src := daKind (s.df q 1 0 48)
  let dst := daKind (s.df q 2 0 48)
  match s.opc q with
  | 0x01 => s.pairEst (4 * src + dst) len
  | 0x04 => s.pairEst (4 * src + dst) len
  | 0x02 => s.pairEst (4 * dst + dst) len
  | 0x03 => s.pairEst (4 * src + src) len
  | 0x05 => s.pairEst (4 * src + src) len
  | 0x06 => (match s.migOf q with
    | some m => s.migEst m off len
    | none => 0)
  | 0x07 => s.mcEst q len
  | 0x08 => s.pairEst (4 * src + src) 8
  | _ => 0

/-- The per-operation charge of envelope `e` and the remainder it leaves (R207). -/
def State.opCost (s : State) (e : Nat) : Nat × Nat :=
  let t := KMap.get s.spl.opRem 0 e + s.get F.SPL_OPCOST_OP
  (t / 100, t % 100)

/-! ### Candidates and order (R203, R204) -/

/-- Whether an SQ's operation runs: the SQ is ACTIVE or DRAINING and no stop is asked for. -/
def State.sqRuns (s : State) (q : Nat) : Bool :=
  let st := s.cget q C.STATE
  (st == 1 || st == 3) && !(s.qa q).stopReq

/-- Whether the operation of queue `q` waits for a release: a control operation not yet released, or a data operation with
bytes not yet released. -/
def State.waits (s : State) (q : Nat) : Bool :=
  let x := s.qa q
  s.sqRuns q && s.cget q C.OP_ACTIVE = 1 &&
    (if isData (s.opc q) then (x.phase == .waiting || x.phase == .released) && decide (x.relOff < s.opTotal q)
     else x.phase == .waiting)

/-- Releases of a path that have not ended. -/
def State.relsOn (s : State) (path : Nat) : List Rel := s.spl.rels.filter fun r => r.path == path

/-- Whether a path can accept a release (R176). -/
def State.pathOpen (s : State) (path : Nat) : Bool := decide ((s.relsOn path).length < 2)

/-- Whether the mirror lets the operation of `q` have another release: with LAG boundaries not yet mirrored it waits
(R404). -/
def State.mirrorOk (s : State) (q : Nat) : Bool := !s.paired || decide (s.lagOf q < s.get F.PRL_MIRROR_LAG)

/-- Queues whose operations wait on a path; only ABORT during a freeze (R212). DEDUCED, log entry 61. -/
def State.waiters (s : State) (path : Nat) : List Nat :=
  (s.qaux.map (·.1)).filter fun q => s.waits q && s.opPath q == path
    && (!s.is F.PWR_STRETCH_STS_FREEZE || s.opc q == 0x0C) && s.mirrorOk q

/-- Whether row `r` of Table 9.2 can release the operation of `q`. -/
def State.rowTakes (s : State) (r q : Nat) : Bool :=
  let e := s.cget q C.ENV
  let tok := decide (0 < s.sget (F.ENV_CREDIT_BW_TOK e)) || !isData (s.opc q)
  let cr := decide (0 < s.sget (F.ENV_CREDIT_CREDIT e))
  if r = 1 then cr && tok && s.cget q C.PRIORITY == 0
  else if r = 2 then cr && tok
  else s.is F.SPL_CTL_SPARE_EN && tok

/-- The smallest element at or after a pointer, in cyclic order. -/
def fromPtr (l : List Nat) (ptr : Nat) : Option Nat :=
  match l.filter fun x => ptr ≤ x with
  | [] => (match l with
    | [] => none
    | x :: r => some (r.foldl min x))
  | x :: r => some (r.foldl min x)

/-- Key of the envelope pointer of a path and row; a pointer holds the number after the last candidate. -/
def rrEnvKey (path row : Nat) : Nat := path * 4 + row

/-- Key of the queue pointer of an envelope, path and priority. -/
def rrQKey (e path prio : Nat) : Nat := (e * 1024 + path) * 4 + prio

/-- The release of a row on a path: the envelope after the pointer, its highest priority, the queue after the pointer. -/
def State.rowPick (s : State) (path row : Nat) (ws : List Nat) : Option Nat :=
  let c := ws.filter (s.rowTakes row)
  match fromPtr (c.map fun q => s.cget q C.ENV) (KMap.get s.spl.rrEnv 0 (rrEnvKey path row)) with
  | none => none
  | some e =>
    let mine := c.filter fun q => s.cget q C.ENV == e
    match (List.range 4).find? (fun p => mine.any fun q => s.cget q C.PRIORITY == p) with
    | none => none
    | some p => fromPtr (mine.filter fun q => s.cget q C.PRIORITY == p) (KMap.get s.spl.rrQ 0 (rrQKey e path p))

/-- The first row of Table 9.2 with a candidate, and its choice (R203). -/
def State.pickRelease (s : State) (path : Nat) (ws : List Nat) : Option (Nat × Nat) :=
  [1, 2, 3].findSome? fun r => (s.rowPick path r ws).map fun q => (r, q)

/-- A release (R205, R207): credit, tokens, pointers, the released step; a control operation occupies no step (R172). -/
def doRelease (path row q : Nat) (s : State) : State :=
  let e := s.cget q C.ENV
  let p := s.cget q C.PRIORITY
  let x := s.qa q
  let data := isData (s.opc q)
  let len := if data then min (s.get F.SPL_STEP_BYTES) (s.opTotal q - x.relOff) else 0
  let est := if data then s.stepEst q x.relOff len else x.unit
  let oc := if x.opReleased then (0, KMap.get s.spl.opRem 0 e) else s.opCost e
  let s1 := if row = 3 then s else creditAdd e (-((est + oc.1 : Nat) : Int)) s
  let s2 := if data then tokAdd e (-(len : Int)) s1 else s1
  let s3 : State := { s2 with spl := { s2.spl with
    opRem := KMap.set s2.spl.opRem 0 e oc.2
    rrEnv := KMap.set s2.spl.rrEnv 0 (rrEnvKey path row) (e + 1)
    rrQ := KMap.set s2.spl.rrQ 0 (rrQKey e path p) (q + 1)
    rels := if data then s2.spl.rels ++ [{ path := path, q := q, off := x.relOff, len := len, est := est, row := row }]
      else s2.spl.rels } }
  let s4 := s3.setQa q { x with phase := .released, relOff := x.relOff + len, opReleased := true, lagWait := false, unit := 0,
                                opCharge := if x.opReleased then x.opCharge else oc.1 }
  let s5 := if row = 3 then s4.bump F.SPL_STS_SPARE_REL else s4
  if row = 1 then s5.bump (F.ENV_STS_URGENT e) else s5

/-- A released step that will not start is returned whole (R205). -/
def returnRel (r : Rel) (s : State) : State :=
  let e := s.cget r.q C.ENV
  let s1 := if r.row = 3 then s else creditAdd e ((r.est : Nat) : Int) s
  tokAdd e ((r.len : Nat) : Int) s1

/-- Every release of queue `q` that has not started is returned (R205). -/
def returnUnstarted (q : Nat) (s : State) : State :=
  let mine := s.spl.rels.filter fun r => r.q == q && !r.started
  mine.foldl (fun t r => returnRel r t)
    { s with spl := { s.spl with rels := s.spl.rels.filter fun r => !(r.q == q && !r.started) } }

/-- Every release of queue `q` leaves its path. -/
def dropRels (q : Nat) (s : State) : State :=
  { s with spl := { s.spl with rels := s.spl.rels.filter fun r => r.q != q } }

/-- The step that the movers execute next for queue `q`: its released one, first on its path among those not ended. -/
def State.headRel (s : State) (q : Nat) : Option Rel :=
  match s.spl.rels.find? (fun r => r.q == q) with
  | none => none
  | some r => if (s.relsOn r.path).head? == some r then some r else none

end Sys2Proof.Machine
end

