-- ==== Sys2Proof/Machine/QenOps.lean ====
section
/-! DEFINITION. QEN: the context cache, descriptor fetch, doorbells, queue states and their transitions, the end of an
operation, and the queue commands (spec/07). -/
namespace Sys2Proof.Machine

open Sys2Proof

/-! ### Contexts -/

/-- STATE of queue `q`: 0 DISABLED, 1 ACTIVE, 2 STOPPED, 3 DRAINING, 4 ERROR, 5 STALE. -/
def State.qst (s : State) (q : Nat) : Nat := s.cget q C.STATE

/-- Ring entries of queue `q`: 2^n. -/
def State.ringN (s : State) (q : Nat) : Nat := 2 ^ s.cget q C.LOG2_ENTRIES

/-- DA of ring entry 0. -/
def State.ringDa (s : State) (q : Nat) : Nat := s.cget q C.RING_BASE * 4096

/-- Whether queue `q` is a CQ. -/
def State.isCq (s : State) (q : Nat) : Bool := s.cget q C.KIND == 1

/-- Whether the context of `q` is cached. -/
def State.cached (s : State) (q : Nat) : Bool := s.qen.cache.any fun e => e.1 == q

/-- Whether the context of `q` is pinned (R165). -/
def State.pinnedCtx (s : State) (q : Nat) : Bool :=
  let x := s.qa q
  x.phase == .waiting || x.phase == .released || x.cmd.isSome || (x.modTimer && s.isCq q && decide (0 < s.cget q C.PENDING))

/-- The context becomes the most recently used. -/
def ctxTouch (q : Nat) (s : State) : State :=
  { s with qen := { s.qen with cache := (q, s.dev.time) :: s.qen.cache.filter fun e => e.1 != q } }

/-- Fetched descriptors are discarded, and the answer of a fetch in progress will be (R158). -/
def dropFetched (q : Nat) (s : State) : State :=
  let x := s.qa q
  s.setQa q { x with fetched := [], fetchDrop := x.fetchOut != 0 || x.fetchDrop }

/-- Contexts cached in the set of `q`, most recently used first. -/
def State.ctxSet (s : State) (q : Nat) : List (Nat × Nat) := s.qen.cache.filter fun e => e.1 % 4096 == q % 4096

/-- Ways of a set in service. -/
def State.ctxWays (s : State) : Nat := 16 - s.get F.QEN_CC_STS_WAYS_RETIRED

/-- A way for the context of `q`: a free one, or that of the least recently used context that is neither pinned nor, for a
prefetch, used within PROTECT_US (R165, R166). -/
def ctxRoom (q : Nat) (pre : Bool) (s : State) : Option State :=
  let mine := s.ctxSet q
  if !pre && decide (min 12 (s.ctxWays - 4) ≤ (mine.filter fun e => s.pinnedCtx e.1).length) then none
  else if mine.length < s.ctxWays then some s
  else match mine.reverse.find? (fun e => !s.pinnedCtx e.1
      && (!pre || decide (e.2 + usTicks (s.get F.QEN_CC_CFG_PROTECT_US) ≤ s.dev.time))) with
    | none => none
    | some v => some (dropFetched v.1 { s with qen := { s.qen with cache := s.qen.cache.filter fun e => e.1 != v.1 } })

/-- The state of a queue changes; QEN_STS.ENABLED counts the queues not DISABLED; PRL mirrors it (R156, R403). -/
def setQst (q v : Nat) (s : State) : State :=
  let old := s.qst q
  let s1 := s.cput q C.STATE v
  let n := s.get F.QEN_STS_ENABLED
  let s2 := if old = 0 && v != 0 then s1.put F.QEN_STS_ENABLED (n + 1)
    else if old != 0 && v = 0 then s1.put F.QEN_STS_ENABLED (n - 1) else s1
  mirror q false s2

/-! ### Descriptor fetch (R158) -/

/-- Descriptors posted and neither started nor fetched. -/
def State.available (s : State) (q : Nat) : Nat :=
  let n := s.ringN q
  let stop := if s.qst q = 3 then (s.qa q).drainTail else s.cget q C.TAIL
  (stop + n - s.cget q C.HEAD % n) % n

/-- Whether QEN fetches and starts: enabled, in RUN or DEGRADED (R157, R161). -/
def State.qenRuns (s : State) : Bool := s.is F.QEN_CTL_ENABLE && s.dev.mode.running

/-- Fetch ahead for SQ `q` if R158 allows it: one read, never past TAIL, across the end of the ring or a 4 KiB boundary. -/
def fetchTry (q : Nat) (s : State) : State :=
  let x := s.qa q
  let st := s.qst q
  let n := s.ringN q
  let have_ := x.fetched.length
  let idx := (s.cget q C.HEAD + have_) % n
  let k := min (min (s.available q - have_) (s.cget q C.FETCH_BATCH + 1 - have_)) (min (n - idx) (64 - idx % 64))
  if !s.qenRuns || s.isCq q || !(st == 1 || st == 3) || x.stopReq || x.fetchOut != 0 || k = 0 || !s.cached q then s
  else wxlAccess { f := { typ := .read, cls := 3, inp := 1, out := 0, env := s.cget q C.ENV, addr := s.ringDa q + 64 * idx,
                          len := 64 * k, origin := .fetch q } }
    (s.setQa q { x with fetchOut := k, fetchDrop := false, fetchAns := none })

/-! ### Operations: end, stop, failure -/

/-- Status that completes an operation of `q`, RESUMED_ON_PEER in place of OK where R408 says so. -/
def State.endStatus (s : State) (q st : Nat) : Nat := if st = 0 && (s.qa q).resumed then 0x0C else st

/-- BYTES_DONE of the operation of `q` for a status (Table 8.1, R169). -/
def State.doneBytes (s : State) (q st : Nat) : Nat :=
  if st ≤ 1 then (if s.opc q = 0x0B then 16 * s.df q 0 8 7 else s.opLen q) else s.cget q C.CK_BYTES

/-- A migration of `q` leaves WXL: its hold ends, the run unchanged unless it was released (R145, R146). -/
def migEnd (q : Nat) (s : State) : State :=
  if (s.migOf q).isSome then
    let s1 : State := { s with wxl := { s.wxl with migs := s.wxl.migs.filter fun m => m.q != q } }
    releaseHeld (s1.put F.WXL_MIG_STS_ACTIVE (s1.wxl.migs.length))
  else s

/-- Whether a step of `q` is in flight: released and started. -/
def State.inFlight (s : State) (q : Nat) : Bool := (s.qa q).step.on

/-- A command slot ends its command (R162). -/
def slotDone (k q result reason : Nat) (s : State) : State :=
  ((((s.put (F.QEN_QCMD_STS_BUSY k) 0).put (F.QEN_QCMD_STS_RESULT k) result).put (F.QEN_QCMD_STS_REASON k) reason).put
    (F.QEN_QCMD_STS_STATE k) (s.qst q)).put (F.QEN_QCMD_STS_GEN k) (s.cget q C.GEN)

/-- The command in progress on `q` has ended. -/
def cmdFree (q result reason : Nat) (s : State) : State :=
  match (s.qa q).cmd with
  | some k => slotDone k q result reason (s.setQa q { s.qa q with cmd := none })
  | none => s

/-- Transition 2 once no step is in flight: STOPPED, unstarted releases returned, the checkpoint kept (R156, R179). DEDUCED, log entry 55. -/
def stopSettle (q : Nat) (s : State) : State :=
  if (s.qa q).stopReq && !s.inFlight q then
    let s1 := dropFetched q (returnUnstarted q s)
    let x := s1.qa q
    let s2 := s1.setQa q { x with stopReq := false, phase := if x.phase == .waiting || x.phase == .released then .idle else x.phase,
                                  relOff := s1.cget q C.CK_BYTES }
    let st := s.qst q
    let s3 := migEnd q s2
    cmdFree q 0 0 (if st = 1 || st = 3 then setQst q 2 s3 else s3)
  else s

/-- Later answers to the present attempt are discarded (R178); the blocks that WXL holds for it are let go (R184). -/
def nextGen (q : Nat) (s : State) : State :=
  let x := s.qa q
  let lo := s.df q 1 0 48
  let mine := if x.step.on && s.opc q == 0x05 then
      s.wxl.blockHold.filter fun b => b.2 == 64 && decide (lo + x.step.off ≤ b.1) && decide (b.1 < lo + x.step.off + x.step.len)
    else []
  mine.foldl (fun t b => unhold b.1 b.2 t) (s.setQa q { x with gen := x.gen + 1, step := {} })

/-- The operation of `q` ends with a record, held until it is written (R168, R169, R178). -/
def endOp (q st mask steps bytes : Nat) (s : State) : State :=
  let s1 := nextGen q (migEnd q (dropRels q (returnUnstarted q s)))
  let x := s1.qa q
  let s2 := { s1 with qen := { s1.qen with finished := s1.qen.finished + 1 } }.setQa q { x with
    phase := .idle
    held := some { status := s.endStatus q st, mask := mask, steps := steps, bytes := bytes,
                   energy := s.cget q C.CK_ENERGY + x.opCharge, opSeq := s.cget q C.CK_SEQ, ord := s1.qen.finished }
    fence := [], fenceLines := [], loads := [], pipeWait := none,
    list := [], listOut := false, listAns := none, drops := [], scrubNew := false, resumed := false,
    relOff := 0 }
  let s3 := s2.cput q C.OP_ACTIVE 0
  let s4 := if st = 0x0B then s3.bump F.QEN_MOVER_STS_MALFORMED_CNT
    else if st = 0x02 then s3.bump F.QEN_MOVER_STS_STATE_CNT else s3
  stopSettle q (mirror q true s4)

/-- The operation ends with a status, with the checkpoint's steps and bytes. -/
def finishOp (q st mask : Nat) (s : State) : State := endOp q st mask (s.cget q C.CK_STEPS) (s.doneBytes q st) s

/-- The operation of `q` is lost without a record (R110, R156, R164). -/
def abandonOp (q : Nat) (s : State) : State :=
  let s1 := nextGen q (migEnd q (dropRels q (returnUnstarted q s)))
  let x := s1.qa q
  (s1.setQa q { ({} : QAux) with gen := x.gen, cmd := x.cmd, acts := x.acts, fetchOut := x.fetchOut,
                                 fetchDrop := x.fetchOut != 0 || x.fetchDrop }).cput q C.OP_ACTIVE 0

/-- STOP and the other causes of transition 2. DEDUCED, log entry 55. -/
def stopQueue (q : Nat) (s : State) : State :=
  if s.qst q = 1 || s.qst q = 3 then stopSettle q (s.setQa q { s.qa q with stopReq := true }) else s

/-- A queue-level failure (R159): ERROR with a status code, QUEUE_ERROR; the step in flight ends, the checkpoint stays. -/
def queueFail (q st : Nat) (s : State) : State :=
  if s.qst q = 1 || s.qst q = 3 then
    let s1 := faultEvent .qen 3 q ((setQst q 4 s).cput q C.ERR_STATUS st)
    if s.isCq q then s1 else stopSettle q ((dropFetched q s1).setQa q { (dropFetched q s1).qa q with stopReq := true })
  else s

/-- Transition 8: STALE (R160). -/
def queueStale (q : Nat) (s : State) : State :=
  if s.qst q = 0 || s.qst q = 5 then s
  else
    let s1 := faultEvent .qen 3 q (setQst q 5 s)
    if s.isCq q then s1 else stopSettle q ((dropFetched q s1).setQa q { (dropFetched q s1).qa q with stopReq := true })

/-- Transition 4: every descriptor up to the TAIL held at DRAIN has completed. -/
def drainCheck (q : Nat) (s : State) : State :=
  let x := s.qa q
  if s.qst q = 3 && s.available q = 0 && s.cget q C.OP_ACTIVE = 0 && x.held.isNone then setQst q 2 (dropFetched q s) else s

/-- An SQ leaves the count of its CQ if CQ_GEN still equals the CQ's GEN (R156). DEDUCED, log entry 44. -/
def unbind (q : Nat) (s : State) : State :=
  let c := s.cget q C.CQ
  if s.cget q C.CQ_GEN = s.cget c C.GEN && s.isCq c then s.cput c C.BOUND (s.cget c C.BOUND - 1) else s

/-- Slot held in the CQ by an operation or record that is abandoned. -/
def unreserve (q : Nat) (s : State) : State :=
  let c := s.cget q C.CQ
  if (s.cget q C.OP_ACTIVE = 1 || (s.qa q).held.isSome) && s.cget q C.CQ_GEN = s.cget c C.GEN && s.isCq c then
    s.cput c C.RESERVED (s.cget c C.RESERVED - 1)
  else s

/-- Transition 9: DISABLED, GEN advances, the operation and any held record abandoned (R156). DEDUCED, log entry 44. -/
def disableQueue (q : Nat) (s : State) : State :=
  let s1 := if s.isCq q then s else unbind q (unreserve q s)
  let s2 := abandonOp q s1
  setQst q 0 ((s2.setQa q { s2.qa q with lost := false }).cput q C.GEN (s2.cget q C.GEN + 1))

/-- Transition 10: every field 0 but GEN, which advances (R156); answers whether an accepted operation was lost. -/
def wipeQueue (q : Nat) (s : State) : State :=
  if s.qst q = 0 then s
  else
    let g := s.cget q C.GEN + 1
    let s1 := if s.isCq q then s else unbind q (unreserve q s)
    let s2 := setQst q 0 (abandonOp q s1)
    ((List.range 16).foldl (fun t j => t.setCtxW q j 0) s2).cput q C.GEN g

/-! ### Doorbells (R152 to R154) -/

/-- A dropped doorbell: counted, DB_DROP raised, the function's bits set (R153); `fn` from 4096 on stands for core
`fn - 4096`, which has no function page (R349). DEDUCED, log entry 43. -/
def dbDrop (q fn : Nat) (cnt : Field) (s : State) : State :=
  let s1 := (s.bump cnt).put F.QEN_DB_STS_LAST_DROP_Q q
  if fn < 4096 then
    faultEvent .qen 2 (q + fn * 2 ^ 32) ((fnFault F.HEP_FN_FAULT_DB_DROP fn s1).bump (F.HEP_FN_FAULT_DROP_CNT fn))
  else faultEvent .qen 2 q s1

/-- Whether the sender of a doorbell may ring a queue of this context (R153, R349). -/
def State.dbOwner (s : State) (q fn : Nat) : Bool :=
  if fn = 0 then s.cget q C.OWNER_FN == 0
  else if fn < 4096 then s.fnEnv fn == some (s.cget q C.ENV)
  else s.coreDev (fn - 4096) || s.get (F.GDC_CORE_CTL_ENV (fn - 4096)) == s.cget q C.ENV

/-- A doorbell with a loaded context (R153, Table 7.2). DEDUCED, log entry 43. -/
def doorbellAct (q fn idx : Nat) (s : State) : State :=
  let st := s.qst q
  let n := s.ringN q
  let cq := s.isCq q
  let bad := if cq then decide ((s.cget q C.TAIL + n - s.cget q C.HEAD % n) % n < (idx + n - s.cget q C.HEAD % n) % n) || decide (n ≤ idx)
    else decide (n ≤ idx)
  if !s.dbOwner q fn then dbDrop q fn F.QEN_DB_DROP_ENV s
  else if st = 0 then dbDrop q fn F.QEN_DB_DROP_STATE s
  else if bad then dbDrop q fn F.QEN_DB_DROP_RANGE s
  else if st = 3 then s.bump F.QEN_DB_DROP_DRAINING
  else if cq then mirror q false ((s.bump F.QEN_DB_STS_ACCEPTED).cput q C.HEAD idx)
  else
    let s1 := (s.bump F.QEN_DB_STS_ACCEPTED).cput q C.TAIL idx
    let s2 := if s1.available q < (s1.qa q).fetched.length then dropFetched q s1 else s1
    fetchTry q (mirror q false s2)

/-! ### Commands (R162, R163) -/

/-- RSV bits of a context image, by kind (Table 7.3). -/
def ctxRsv (cq : Bool) : List Nat :=
  if cq then [0xF8C0000000000FFF, 0xF800FC00, 0x0000FFE00000E000,
    0xFFFF000000000000, 2 ^ 64 - 1, 2 ^ 64 - 1, 2 ^ 64 - 1, 2 ^ 64 - 1, 2 ^ 64 - 1, 2 ^ 64 - 1, 2 ^ 64 - 1, 2 ^ 64 - 1,
    2 ^ 64 - 1, 2 ^ 64 - 1, 2 ^ 64 - 1, 2 ^ 64 - 1]
  else [0xC8C0000000000FFF, 0xF800FC00, 0xFFE00000FFC00000, 0xE0000000FC000000, 0xFFFFFE0000000000, 0,
    0xFF00000000000000, 0, 0, 0, 0, 0, 0, 0, 0, 0]

/-- Bits that WRITE takes, by kind: fields marked W and M. -/
def ctxWMask (cq : Bool) : List Nat :=
  if cq then [0x003FFFFFFFFFF000, 0xFFFFFFFF07FF03FF, 0x0000000FFFFF1FFF]
  else [0x303FFFFFFFFFF000, 0xFFFFFFFF07FF03FF, 0x001F0000003FFFFF]

/-- Bits that MODIFY takes, by kind: fields marked M. DEDUCED, log entry 117. -/
def ctxMMask (cq : Bool) : List Nat :=
  if cq then [0, 0, 0x0000000FFFFF1FFF] else [0x3000000000000000, 0, 0x001F000000000000]

/-- Word `j` of the buffer of slot `k`. -/
def State.qbuf (s : State) (k j : Nat) : Word := s.reg (R.QEN_QBUF k j)

/-- Whether the buffer of slot `k` sets an RSV bit of a context of the kind. DEDUCED, log entry 47. -/
def State.qbufBad (s : State) (k : Nat) (cq : Bool) : Bool :=
  (List.range 16).any fun j => (s.qbuf k j).toNat &&& (ctxRsv cq).getD j 0 != 0

/-- Context fields taken from the buffer under masks. DEDUCED, log entry 117. -/
def ctxTake (k q : Nat) (masks : List Nat) (s : State) : State :=
  (List.range 3).foldl (fun t j =>
    let m := BitVec.ofNat 64 (masks.getD j 0)
    t.setCtxW q j ((t.ctxW q j &&& ~~~ m) ||| (s.qbuf k j &&& m))) s

/-- A command that the state does not allow. DEDUCED, log entry 46. -/
def cmdState (k q : Nat) (s : State) : State := slotDone k q 1 0 s

/-- START of an SQ whose operation is in progress: it resumes from its checkpoint (R179). -/
def resumeOp (q : Nat) (s : State) : State :=
  if s.cget q C.OP_ACTIVE = 1 then
    let s1 := nextGen q s
    let x := s1.qa q
    if s.opc q = 0x06 then
      (s1.cput q C.CK_BYTES 0).setQa q { x with phase := .ctl, relOff := 0 }
    else if x.phase == .ctl then s1
    else s1.setQa q { x with phase := .waiting, relOff := s.cget q C.CK_BYTES }
  else s

/-- Whether START of SQ `q` completes with STATE (R159, R160). -/
def State.startBars (s : State) (q : Nat) : Bool :=
  let c := s.cget q C.CQ
  s.cget q C.CQ_GEN != s.cget c C.GEN || (s.qst q == 5 && (s.portFenced (daT (s.ringDa q)) || s.qst c != 1))

/-- START (transitions 5 and 6). -/
def startQueue (k q : Nat) (s : State) : State :=
  let st := s.qst q
  if (s.qa q).lost then cmdState k q s
  else if s.isCq q then (if st = 4 then slotDone k q 0 0 (setQst q 1 s) else cmdState k q s)
  else if !(st == 2 || st == 4 || st == 5) || s.startBars q then cmdState k q s
  else
    let s1 := setQst q 1 s
    let s2 := if st = 5 && s.cget q C.OP_ACTIVE = 1 then finishOp q 0x0D 0 s1 else resumeOp q s1
    slotDone k q 0 0 (fetchTry q s2)

/-- What OP does on a loaded context (Table 7.6). -/
def qCommand (k q op : Nat) (s : State) : State :=
  let st := s.qst q
  let cq := s.isCq q
  if op = 1 then
    slotDone k q 0 0 ((List.range 16).foldl (fun t j => t.setReg (R.QEN_QBUF k j) (s.ctxW q j)) s)
  else if op = 9 then slotDone k q 0 0 s
  else if !s.owns (s.cget q C.ENV) || (s.fnOf (s.cget q C.OWNER_FN)).flr then cmdState k q s
  else if op = 2 then
    (if st != 0 then cmdState k q s
     else if s.qbufBad k (fieldOf (s.qbuf k 0) 53 1 == 1) then notice .qen (0x1000 + 0x100 * k) (slotDone k q 3 0 s)
     else slotDone k q 0 0 (mirror q false (ctxTake k q (ctxWMask (fieldOf (s.qbuf k 0) 53 1 == 1)) s)))
  else if !s.is F.QEN_CTL_ENABLE then cmdState k q s
  else if op = 3 then
    (if st != 0 then cmdState k q s
     else
       let s1 := (s.setQa q { s.qa q with cmd := some k }).put F.QEN_ENSTAT_BUSY 1
       { s1 with checks := s1.checks ++ [{ off := R.QEN_QCMD k, val := BitVec.ofNat 64 (3 * 2 ^ 32 + q) }] })
  else if op = 4 then
    (if st = 0 then cmdState k q s
     else if s.qbufBad k cq then notice .qen (0x1000 + 0x100 * k) (slotDone k q 3 0 s)
     else slotDone k q 0 0 (mirror q false (ctxTake k q (ctxMMask cq) s)))
  else if op = 5 then
    (if cq || !(st == 1 || st == 3) then cmdState k q s
     else stopQueue q (s.setQa q { s.qa q with cmd := some k }))
  else if op = 6 then startQueue k q s
  else if op = 7 then
    (if cq || st != 1 then cmdState k q s
     else
       let s1 := s.setQa q { s.qa q with drainTail := s.cget q C.TAIL }
       slotDone k q 0 0 (drainCheck q (setQst q 3 s1)))
  else
    (if !(st == 2 || st == 4 || st == 5) || (cq && s.cget q C.BOUND != 0) then cmdState k q s
     else slotDone k q 0 0 (disableQueue q s))

/-- Carry out what arrived for a queue whose context is loaded and that has no command in progress. -/
def qDo (q : Nat) (a : QAct) (s : State) : State :=
  match a with
  | .doorbell fn idx => doorbellAct q fn idx s
  | .command k op => qCommand k q op s
  | .prefetch by_ => (match by_ with
    | some p => s.setQa p { s.qa p with loads := (s.qa p).loads.filter fun x => x != q }
    | none => s)
  | .need => s

/-- Doorbells that arrive before the context is loaded merge, the latest governing (R153). -/
def mergeAct (l : List QAct) (a : QAct) : List QAct :=
  match a, l.getLast? with
  | .doorbell f i, some (.doorbell _ _) => l.dropLast ++ [.doorbell f i]
  | a, _ => l ++ [a]

/-- A doorbell, command or prefetch arrives at QEN: carried out, behind the command in progress, or after the context's
load (R154, R166). -/
def qArrive (q : Nat) (a : QAct) (s : State) : State :=
  if s.cached q then
    let s1 := ctxTouch q (s.bump F.QEN_CC_STS_HITS)
    if (s.qa q).cmd.isSome then s1.setQa q { s1.qa q with acts := (s1.qa q).acts ++ [a] } else qDo q a s1
  else if s.qen.loads.any (fun e => e.1 == q) then
    { s with qen := { s.qen with loads := s.qen.loads.map fun e => if e.1 = q then (q, mergeAct e.2 a) else e } }
  else
    let s1 := s.bump F.QEN_CC_STS_MISSES
    { s1 with qen := { s1.qen with loads := s1.qen.loads ++ [(q, [a])] } }

/-- Whatever arrived behind a command that has ended is carried out in order (R154). -/
def qResume (q : Nat) (s : State) : State :=
  if (s.qa q).cmd.isSome then s
  else
    let l := (s.qa q).acts
    l.foldl (fun t a => qArrive q a t) (s.setQa q { s.qa q with acts := [] })

/-- Queues that are not DISABLED and satisfy `p`. -/
def State.queuesWhere (s : State) (p : Nat → Bool) : List Nat :=
  (s.ctx.filterMap fun e => if e.1 % 16 == 0 && s.qst (e.1 / 16) != 0 then some (e.1 / 16) else none).filter p

/-- Host-proxy event of a function and vector (R326). -/
def hpEvent (fn vec : Nat) (s : State) : State :=
  { s with icu := { s.icu with hpq := s.icu.hpq ++ [⟨fn, vec, true⟩] } }

/-- ENABLE's effect on the context once its check has passed (R162). -/
def enableQueue (q : Nat) (s : State) : State :=
  let c := s.cget q C.CQ
  let s0 := (((List.range 12).foldl (fun t j => t.setCtxW q (4 + j) 0) s).cput q C.ERR_STATUS 0).cput q C.GEN (s.cget q C.GEN + 1)
  let s1 := if s.isCq q then
      ((((s0.cput q C.PHASE 1).cput q C.RESERVED 0).cput q C.BOUND 0).cput q C.PENDING 0)
    else
      ((((s0.cput q C.CQ_WAIT 0).cput q C.OP_ACTIVE 0).cput q C.CK_STEPS 0).cput q C.CQ_GEN (s.cget c C.GEN)).cput c C.BOUND
        (s.cget c C.BOUND + 1)
  setQst q 1 (s1.setQa q { s1.qa q with gen := (s1.qa q).gen + 1, lost := false })

end Sys2Proof.Machine
end

