-- ==== Sys2Proof/Machine/OpOps.lean ====
section
/-! DEFINITION. The movers: what a released step reads and writes (R174, R181, R184, R186, R189), what its data does when it
returns, and the step boundary (R175, R183, R185, R187, R205) (spec/08). -/
namespace Sys2Proof.Machine

open Sys2Proof

/-! ### Starting a step -/

/-- Pipelines that run a step. -/
def State.pipesBusy (s : State) : List Nat := (s.qaux.filter fun e => e.2.step.on).map fun e => e.2.step.pipe

/-- A mover pipeline in service that runs no step and no test. -/
def State.freePipe (s : State) : Option Nat :=
  s.qen.pipes.find? fun p => !s.pipesBusy.contains p && !s.qen.ptest.contains p

/-- The pipeline for the next step of queue `q`: a free one, or the one under test whose step it was (R180, R387). -/
def State.pipeFor (s : State) (q : Nat) : Option Nat :=
  match (s.qa q).pipeWait with
  | some p =>
    if s.qen.ptest.contains p || (s.qen.pipes.contains p && s.pipesBusy.contains p) then none
    else if s.qen.pipes.contains p then some p else s.freePipe
  | none => s.freePipe

/-- The step that the movers can begin for queue `q`: its release at the head of the path, not begun, with a pipeline. -/
def State.beginable (s : State) (q : Nat) : Option (Rel × Nat) :=
  match s.headRel q, s.pipeFor q with
  | some r, some p => if r.started || (s.qa q).step.on then none else some (r, p)
  | _, _ => none

/-- A release begins on a pipeline; one whose attempt was discarded is counted (R180). -/
def beginStep (r : Rel) (p : Nat) (s : State) : State :=
  let x := s.qa r.q
  let s1 : State := { s with spl := { s.spl with rels := s.spl.rels.map fun k => if k = r then { k with started := true } else k } }
  let s2 := if x.pipeWait.isSome then s1.bump F.QEN_MOVER_STS_REEXEC else s1
  s2.setQa r.q { x with pipeWait := none, step := { on := true, off := r.off, len := r.len, pipe := p } }

/-- Cut bytes `off` to `off + len - 1` so that no piece crosses a 4 KiB boundary of any of the addresses (R174). -/
def cutMany (n : Nat) (as : List Nat) (off len : Nat) : List (Nat × Nat) :=
  match n with
  | 0 => []
  | n + 1 =>
    if len = 0 then []
    else
      let k := as.foldl (fun m a => min m (4096 - (a + off) % 4096)) (min len 4096)
      (off, k) :: cutMany n as (off + k) (len - k)

/-- Number of reads and writes of a step that are open is set. -/
def stepOpen (q reads writes : Nat) (s : State) : State :=
  let x := s.qa q
  s.setQa q { x with step := { x.step with reads := reads, writes := writes } }

/-- The access of a mover for queue `q`: `off` names the step's bytes by their offset in the operation. -/
def moverFrame (s : State) (q off da : Nat) (typ : FTyp) (len : Nat) (data : List Byte) : Frame :=
  { typ := typ, cls := if typ == .write then 2 else 3, inp := 1, out := 0, env := s.cget q C.ENV, addr := da, len := len,
    data := data, origin := .step q (s.qa q).gen off }

/-- Whether the step of `q` goes on at offset `off`: it has not met its end, nor been cut before (R108, R178). -/
def State.stepGoes (s : State) (q off : Nat) : Bool :=
  let st := (s.qa q).step
  st.fail.isNone && (match st.cut with
    | some c => decide (off < c)
    | none => true)

/-- One read of a step; none is made after the operation has met its end, and the read then counts as over (R178). -/
def moverRead (q off da len : Nat) (s : State) : State :=
  if !s.stepGoes q off then stepReadEnd q (s.qa q).gen s
  else wxlAccess { f := moverFrame s q off da .read len [] } s

/-- One write of a step. -/
def moverWrite (q off da : Nat) (data : List Byte) (s : State) : State :=
  if !s.stepGoes q off then stepWriteEnd q (s.qa q).gen s
  else wxlAccess { f := moverFrame s q off da .write data.length data } s

/-- The reads of a step, as (offset, DA, length). -/
def issueReads (q : Nat) (l : List (Nat × Nat × Nat)) (s : State) : State :=
  l.foldl (fun t r => moverRead q r.1 r.2.1 r.2.2 t) (stepOpen q l.length 0 s)

/-- Pieces of a step of a source-reading operation, cut for every address it will touch. -/
def State.pieces (s : State) (q : Nat) (as : List Nat) : List (Nat × Nat) :=
  let st := (s.qa q).step
  cutMany (2 * (st.len / 4096) * as.length + 2 * as.length + 4) as st.off st.len

/-- Byte `i` of the pattern at a destination address (R181). -/
def patternByte (pat : Word) (da : Nat) : Byte := BitVec.ofNat 8 (pat.toNat >>> (8 * (da % 8)))

/-- Unit of a MIGRATE pass that holds offset `off`: the source DA of the byte and its destination. -/
def Mig.at (m : Mig) (off : Nat) : Nat × Nat :=
  let u := if m.pass = 1 then 65536 else 4096
  let src := m.copy.getD (off / u) 0 + off % u
  let page := src / 65536 * 65536
  let j := m.srcs.findIdx fun p => p == page
  (src, m.dst + j * 65536 + src % 65536)

/-- The access of a MIGRATE: checked like any other, but past its own final hold (R145). -/
def migAccess (f : Frame) (s : State) : State :=
  match s.daCheck false f.env (f.typ != .read) f.addr f.len with
  | .no r => wxlRefuse f r s
  | .ok r => toTarget { f := f, route := r, acc := { f := f } } (if f.typ == .write then pfOnWrite f.addr f.len s else s)

/-! ### Data returned to a step -/

/-- A chunk of source data is kept for the check accumulator. -/
def keepChunk (q off : Nat) (data : List Byte) (s : State) : State :=
  let x := s.qa q
  s.setQa q { x with step := { x.step with chunks := KMap.set x.step.chunks [] off data } }

/-- A read is over and a write takes its place. -/
def readToWrite (q off da : Nat) (data : List Byte) (s : State) : State :=
  let x := s.qa q
  moverWrite q off da data (s.setQa q { x with step := { x.step with reads := x.step.reads - 1, writes := x.step.writes + 1 } })

/-- Whether a multicast copy goes alone: a cached line or a held access concerns it. -/
def State.mcAlone (s : State) (f : Frame) : Bool := (s.pcFind f.addr).isSome || s.mustHold f

/-- One target of a replicated write: dropped where its check fails, alone, or as part of the multicast frame (R186, R187). -/
def mcTarget (q off : Nat) (data : List Byte) (acc : State × List McDst) (t : Nat) : State × List McDst :=
  let s := acc.1
  let da := mcDst (s.qa q).list t + off
  let f := moverFrame s q off da .write data.length data
  match s.daCheck false f.env true da data.length with
  | .no r =>
    (faultEvent .swc 3 (daSp da % 16 + t * 256) (mcReport f.origin t r.ans ((refuseNote f r s).bump F.SWC_MC_STS_DROPPED)), acc.2)
  | .ok r =>
    if (r.out != 0 && s.mcAlone f) || (r.owin.map s.owinAts).getD false then
      let x := s.qa q
      (wxlAccess { f := f } (s.setQa q { x with step := { x.step with writes := x.step.writes + 1 } }), acc.2)
    else (if r.out = 0 then s else pfOnWrite da data.length (migDirty da data.length s), acc.2 ++ [{ t := t, out := r.out, addr := r.addr, fn := r.fn, pasid := r.pasid }])

/-- Source data of a MULTICAST_WRITE is replicated to the targets not yet dropped. -/
def mcSend (q off : Nat) (data : List Byte) (s : State) : State :=
  let r := (s.mcAlive q).foldl (mcTarget q off data) (s, [])
  let s1 := r.1
  let x := s1.qa q
  let s2 := s1.setQa q { x with step := { x.step with reads := x.step.reads - 1, writes := x.step.writes + (if r.2.isEmpty then 0 else 1) } }
  if r.2.isEmpty then s2
  else s2.inject { moverFrame s2 q off (s2.df q 1 0 48 + off) .write data.length data with
      out := (r.2.map (·.out)).foldl min 15, outMask := r.2.map fun d => (d.out, d.t), mcDst := r.2, pool := .multicast }

/-- A 64 B block of SCRUB has been read: `bad` uncorrectable, `fixed` corrected (R184). -/
def scrubBlock (q off : Nat) (data : List Byte) (bad fixed : Bool) (s : State) : State :=
  let x := s.qa q
  let da := s.df q 1 0 48 + off
  let s1 := s.setQa q { x with
    firstBad := if bad && x.lastBad = 0 then da else x.firstBad
    lastBad := if bad then da else x.lastBad
    step := { x.step with chunks := if bad then KMap.set x.step.chunks [] off [1] else if fixed then KMap.set x.step.chunks [] off [2]
                else x.step.chunks } }
  if fixed && s.df q 0 8 1 = 1 && daT da ≤ 5 then
    let f := moverFrame s1 q off da .write 64 data
    let y := s1.qa q
    let s2 := s1.setQa q { y with step := { y.step with reads := y.step.reads - 1, writes := y.step.writes + 1 } }
    let s3 : State := { s2 with wxl := { s2.wxl with blockHold := s2.wxl.blockHold ++ [(da, 64)] } }
    toTarget { f := f, route := { out := daSp da, addr := da }, acc := { f := f } } s3
  else stepReadEnd q x.gen s1

/-- Data of a read of the step of attempt `gen` of `q` arrives (R175, R178, R181, R184, R186, R189). -/
def stepData (q gen off : Nat) (data : List Byte) (ans : Ans) (s : State) : State :=
  let x := s.qa q
  let bad := ans == .poison
  if !s.isGen q gen then s
  else if s.opc q = 0x05 then
    (if x.step.fail.isSome then stepReadEnd q gen s else scrubBlock q off data bad (ans == .corrected) s)
  else if bad then stepReadEnd q gen (stepFail q 0x08 s)
  else if !s.stepGoes q off then stepReadEnd q gen s
  else match s.opc q with
    | 0x01 => readToWrite q off (s.df q 2 0 48 + off) data s
    | 0x03 => stepReadEnd q gen (keepChunk q off data s)
    | 0x04 => readToWrite q off (s.df q 2 0 48 + off) data (keepChunk q off data s)
    | 0x06 => (match s.migOf q with
      | some m =>
        let s1 := s.setQa q { x with step := { x.step with reads := x.step.reads - 1, writes := x.step.writes + 1 } }
        migAccess (moverFrame s1 q off (m.at off).2 .write data.length data) s1
      | none => stepReadEnd q gen s)
    | 0x07 => mcSend q off data s
    | 0x08 => readToWrite q off (s.df q 4 0 48) (data.take 8) s
    | _ => stepReadEnd q gen s

/-! ### Step boundary -/

/-- CK_ACC after the step (Table 8.3). -/
def State.ckAcc (s : State) (q : Nat) : Nat :=
  let x := s.qa q
  let acc := s.cget q C.CK_ACC
  let alg := s.df q 0 8 1
  match s.opc q with
  | 0x05 =>
    let bad := (x.step.chunks.filter fun c => c.2 == [1]).length
    let fix_ := (x.step.chunks.filter fun c => c.2 == [2]).length
    (acc % 2 ^ 32 + fix_) % 2 ^ 32 + (acc / 2 ^ 32 + bad) % 2 ^ 32 * 2 ^ 32
  | 0x06 => (match s.migOf q with
    | some m => min 3 (m.pass - 1)
    | none => 0)
  | 0x07 => x.drops.foldl (fun m d => bitSet m d.1) acc
  | op =>
    if op = 0x03 || op = 0x04 then
      let init := if s.cget q C.CK_STEPS != 0 then acc
        else if s.df q 0 11 1 = 1 then s.df q 6 0 64 ^^^ crcXor alg else crcXor alg
      x.step.chunks.foldl (fun r c => crcBytes (crcPoly alg) r c.2) init
    else 0

/-- A charge is added to the operation, the queue and the envelope (R175, R208). -/
def chargeOp (q nj : Nat) (s : State) : State :=
  let s1 := (s.cput q C.CK_ENERGY ((s.cget q C.CK_ENERGY + nj) % 2 ^ 40)).setCtxW q 7 (s.ctxW q 7 + BitVec.ofNat 64 nj)
  chargeEnv (s.cget q C.ENV) nj s1

/-- The charge of the step that ends, for the bytes it completed; the difference to its estimate returns (R205). -/
def settleStep (q done : Nat) (s : State) : State :=
  match s.spl.rels.find? (fun r => r.q == q && r.started) with
  | none => s
  | some r =>
    let e := s.cget q C.ENV
    let nj := if done = r.len then r.est else min r.est (s.stepEst q r.off done)
    let s1 : State := { s with spl := { s.spl with rels := s.spl.rels.filter fun k => !(k = r) } }
    let s2 := if r.row = 3 then s1 else creditAdd e ((r.est - nj : Nat) : Int) s1
    chargeOp q nj (tokAdd e ((r.len - done : Nat) : Int) s2)

/-- The report of SCRUB (Table 8.6). -/
def State.scrubReport (s : State) (q : Nat) : List Byte :=
  toBytes 8 (s.cget q C.CK_ACC) ++ toBytes 8 (s.qa q).firstBad ++ toBytes 8 (s.qa q).lastBad
    ++ toBytes 8 (s.cget q C.CK_BYTES)

/-- A posted write of QEN for queue `q`, checked under Table 6.4: the status of a failed check, or the write made (R183). -/
def qenWrite (q da : Nat) (data : List Byte) (o : Origin) (s : State) : State × Option Nat :=
  let f : Frame := { typ := .write, cls := 2, inp := 1, out := 0, env := s.cget q C.ENV, addr := da, len := data.length,
                     data := data, origin := o }
  match s.daCheck false f.env true da data.length with
  | .no r => (refuseNote f r s, some (ansStatus r.ans))
  | .ok _ => (wxlAccess { f := f } s, none)

/-- The SCRUB report is written; a failed check ends the operation (R185). -/
def writeReport (q : Nat) (s : State) : State × Option Nat := qenWrite q (s.df q 5 0 48) (s.scrubReport q) (.report q) s

/-- End of a CHECK or COPY_CHECK (R183). -/
def endCheck (q : Nat) (s : State) : State :=
  let alg := s.df q 0 8 1
  let res := s.cget q C.CK_ACC ^^^ crcXor alg
  let r := if s.df q 0 10 1 = 1 then qenWrite q (s.df q 5 0 48) (toBytes 8 res) (.result q) s else (s, none)
  match r.2 with
  | some st => finishOp q st 0 r.1
  | none => finishOp q (if s.df q 0 9 1 = 1 && res != (s.dw q 4).toNat then 0x09 else 0) 0 r.1

/-- End of a SCRUB: the report once more, then OK or DATA_ERROR (R185). -/
def endScrub (q : Nat) (s : State) : State :=
  let r := writeReport q s
  match r.2 with
  | some st => finishOp q st 0 r.1
  | none => finishOp q (if s.cget q C.CK_ACC / 2 ^ 32 = 0 then 0 else 0x08) 0 r.1

/-- End of a MULTICAST_WRITE (R187). -/
def endMulticast (q : Nat) (s : State) : State :=
  let n := s.df q 0 8 4
  let lost := s.cget q C.CK_ACC % 256
  let ok := (List.range n).foldl (fun m t => if bitOf lost t then m else bitSet m t) 0
  if lost = 0 then finishOp q 0 ok s
  else if ok != 0 then finishOp q 1 ok s
  else finishOp q (((s.qa q).drops.find? fun d => d.1 == 0).map (·.2) |>.getD 0x05) 0 s

/-- The last boundary of an operation ends it. -/
def endData (q : Nat) (s : State) : State :=
  match s.opc q with
  | 0x03 => endCheck q s
  | 0x04 => endCheck q s
  | 0x05 => endScrub q s
  | 0x07 => endMulticast q s
  | _ => finishOp q 0 0 s

/-- The step of `q` ends early (R178): its charge, then the record with the last boundary. DEDUCED, log entry 53. -/
def earlyEnd (q st : Nat) (s : State) : State := finishOp q st 0 (settleStep q 0 s)

/-- The step of `q` is cut where BME was cleared (R108): the boundary is the last byte issued. -/
def cutBoundary (q c : Nat) (s : State) : State :=
  let x := s.qa q
  let done := min x.step.len (c - x.step.off)
  let s0 := s.setQa q { x with step := { x.step with chunks := x.step.chunks.filter fun e => e.1 < c } }
  let s1 := settleStep q done s0
  let s2 := if done = 0 then s1
    else ((s1.cput q C.CK_STEPS (s1.cget q C.CK_STEPS + 1)).cput q C.CK_BYTES (s1.cget q C.CK_BYTES + done)).cput q C.CK_ACC (s0.ckAcc q)
  mirror q true (stopSettle q (nextGen q s2))

/-- An ordinary boundary (R175): checkpoint, charge, then the report, the stop asked for, or the end. -/
def goodBoundary (q : Nat) (s : State) : State :=
  let x := s.qa q
  let acc := s.ckAcc q
  let s1 := settleStep q x.step.len s
  let s2 := ((s1.cput q C.CK_STEPS (s1.cget q C.CK_STEPS + 1)).cput q C.CK_BYTES (s1.cget q C.CK_BYTES + x.step.len)).cput q C.CK_ACC acc
  let y := s2.qa q
  let s3 := mirror q true (s2.setQa q { y with step := {}, phase := if (s2.spl.rels.any fun r => r.q == q) then .released else .waiting })
  let r := if s.opc q = 0x05 then writeReport q s3 else (s3, none)
  match r.2 with
  | some st => finishOp q st 0 r.1
  | none =>
    if s.opc q != 0x06 && (decide (s.opLen q ≤ r.1.cget q C.CK_BYTES) || (s.opc q == 0x07 && (r.1.mcAlive q).isEmpty)) then
      endData q r.1
    else stopSettle q r.1

/-- A step boundary of queue `q` (in a STALE queue a failed step only ends, R160), when its reads and writes are over, or its failure leaves no read open.
DEDUCED, log entry 53. -/
def boundary (q : Nat) (s : State) : State :=
  let x := s.qa q
  if !x.step.on then s
  else match x.step.fail with
    | some st => if x.step.reads != 0 then s
      else if s.qst q = 5 then cutBoundary q x.step.off s else earlyEnd q st s
    | none =>
      if x.step.reads != 0 || x.step.writes != 0 then s
      else match x.step.cut with
        | some c => cutBoundary q c s
        | none => goodBoundary q s

/-! ### Early ends from outside -/

/-- The operation of `q` ends at once with a status and its last boundary, whatever is in flight (R146, R178, R193). -/
def killOp (q st : Nat) (s : State) : State :=
  if s.cget q C.OP_ACTIVE = 1 then
    qResume q (stopSettle q (earlyEnd q st s))
  else s

end Sys2Proof.Machine
end

