-- ==== Sys2Proof/Machine/PortOps.lean ====
section
/-! DEFINITION. Port blocks: link states and transitions, the flush and its answers (Table 12.9), fresh and discarded link-layer
state, the return with a changed partner epoch (spec/11, spec/12, R231 to R233). -/
namespace Sys2Proof.Machine

open Sys2Proof

/-! ### Fields that LPn and PRL share -/

/-- CTL.HOLD_DISABLE of a port. -/
def holdDisFld (p : Nat) : Field := if p = 6 then F.PRL_CTL_HOLD_DISABLE else F.LPn_CTL_HOLD_DISABLE p

/-- Whether presence is asserted: the pin, where there is one (R262). -/
def State.present (s : State) (p : Nat) : Bool :=
  p == 6 || !s.is (F.LPn_SLOT_CAP_PRSNT_PIN p) || s.is (F.LPn_SLOT_STS_PRSNT p)

/-- Whether hold is permitted (R252). -/
def State.holdOk (s : State) (p : Nat) : Bool :=
  !s.is (holdDisFld p) && s.dev.mode != .safe && s.present p

/-- GRACE_MS + 4 ms in ticks (R305). -/
def State.npLimit (s : State) (p : Nat) : Nat := msTicks (s.get (F.LPn_GRACE_GRACE_MS p) + 4)

/-! ### Link states -/

/-- The link takes transition `n` to a state (Table 11.4); PL leaving L.ACTIVE ends a SYNCING (Table 17.2). -/
def linkTo (p st n : Nat) (s : State) : State :=
  let s1 := (s.put (F.LPn_LINK_STS_STATE p) st).put (F.LPn_LINK_STS_LAST_CAUSE p) n
  if p = 6 && s.lst 6 = 3 && st != 3 then pairSyncFail s1 else s1

/-- The width in effect (0 without a link) and the lowest lane of the group. -/
def setWidth (p w lane : Nat) (s : State) : State :=
  rttSync p ((s.put (F.LPn_LINK_STS_WIDTH p) w).put (F.LPn_LINK_STS_GROUP_LANE p) lane)

/-- The port's record changes. -/
def State.modPort (s : State) (p : Nat) (f : Port → Port) : State := s.setPort p (f (s.port p))

/-- Training begins at phase 1 (Table 11.5). -/
def trainBegin (p : Nat) (s : State) : State :=
  s.modPort p fun x => { x with phase := 1, gtsLast := none, gtsCount := 0, gts2 := none, gts3 := [], eqNow := false, testDue := x.testDue }

/-- L.RETRAIN by transition `n` (5, 9 or 11): phase 1, counted. DEDUCED, log entry 73. -/
def toRetrain (p n : Nat) (s : State) : State :=
  trainBegin p ((linkTo p 4 n s).bump (F.LPn_LINK_CNT_RETRAIN p))

/-! ### Link-layer state (R280) -/

/-- Fresh link-layer state: partner levels of the ICU fall and waiting MSG_INTs of the port are discarded (R332), side-band
inputs read 0 (R297). -/
def freshLl (p : Nat) (s : State) : State :=
  let s1 := s.modPort p fun x => { x with
    hasLl := true, rxSeq := 0, rxAny := false, discarding := false, framing := false, part := [],
    txSeq := 0, acked := 4095, unacked := [], nakAck := none, replays := 0, rx := [], txq := [], np := [], npIn := [],
    writeTag := 0x1000, attrib := [], probe := 0, probes := [], rxProbe := 0, ser := [], sleep := 0, peerHold := false, cfgTag := none }
  let s2 := (s1.put (F.LPn_FC_STS_XOFF_RX p) 0).put (F.LPn_FC_STS_XOFF_TX p) 0
  if p = 6 then s2
  else
    let s3 := (s2.put (F.LPn_SB_IN p) 0)
    let s4 : State := { s3 with icu := { s3.icu with msgs := s3.icu.msgs.filter fun m => m.port != p } }
    s4.icuLive.foldl (fun t n => if 256 + 128 * p ≤ n && n < 384 + 128 * p then t.put (F.ICU_SRC_STS_LEVEL n) 0 else t) s4

/-- LOCAL_EPOCH[15:0] advances (R249); it is never 0 as [31:16] and [15:0] start above 0. -/
def epochAdvance (p : Nat) (s : State) : State :=
  let e := s.get (F.LPn_IDENT_LOCAL_EPOCH p)
  let n := e / 65536 * 65536 + (e + 1) % 65536
  s.put (F.LPn_IDENT_LOCAL_EPOCH p) (if n = 0 then 1 else n)

/-! ### Flush (R232, R307, Table 12.9) -/

/-- A posted write or MSG_INT that a flush ends is counted (R307). -/
def flushCount (p : Nat) (s : State) : State := s.bump (F.LPn_OUTAGE_STS_FLUSHED_POSTED p)

/-- A posted write that a flush ends: counted, the first one logged (R307). -/
def flushPosted (p : Nat) (da env : Nat) (s : State) : State :=
  let s1 := flushCount p s
  if s.is (F.LPn_FLUSH_ADDR_VALID p) then s1
  else ((s1.put (F.LPn_FLUSH_ADDR_DA p) (da % 2 ^ 48)).put (F.LPn_FLUSH_ADDR_ENV p) env).put (F.LPn_FLUSH_ADDR_VALID p) 1

/-- The answer to one frame that a flush of port `p` ends; a response to a partner's request is discarded. -/
def flushFrame (p : Nat) (ans : Ans) (f : Frame) (s : State) : State :=
  match f.typ with
  | .read => failRead f.origin ans (s.bump (F.LPn_OUTAGE_STS_FLUSHED_NP p))
  | .atomic => unhold (lineDa f.addr) 4096 (failRead f.origin ans (s.bump (F.LPn_OUTAGE_STS_FLUSHED_NP p)))
  | .write => failWrite f.origin ans (flushPosted p f.addr f.env s)
  | .msi => flushCount p s
  | .resp => npAnswered p f.tag s
  | .respData => npAnswered p f.tag s
  | _ => s

/-- A write frame of an operation step whose last copy is gone counts as over (R175). -/
def mcOver (before : List Frame) (s : State) : State :=
  before.foldl (fun t f => if (f.mcast && !t.swc.queued.any fun g => g.mcast && g.origin == f.origin && g.addr == f.addr) then
    writeDone f.origin t else t) s

/-- Queues whose ring lies on port `p`. -/
def State.ringsOn (s : State) (p : Nat) : List Nat := s.queuesWhere fun q => daT (s.ringDa q) == p

/-- FENCE operations in progress that wait for port `p` end (R190). -/
def fenceKill (p st : Nat) (s : State) : State :=
  if s.dev.mode == .safe then s else (s.queuesWhere fun q => !s.isCq q && s.cget q C.OP_ACTIVE == 1 && s.opc q == 0x09 && (s.qa q).phase == .ctl
    && bitOf (s.df q 0 8 8) p).foldl (fun t q => qResume q (finishOp q st 0 t)) s

/-- Outstanding requests of port `p` are answered; their tags are quarantined while the link-layer state is kept, and freed
with a changed epoch (R306, R309). -/
def flushNp (p : Nat) (ans : Ans) (quar : Bool) (s : State) : State :=
  let live := (s.port p).np.filter fun n => !n.quarantined
  let s1 := s.modPort p fun x => { x with
    np := if quar then x.np.map fun n => if n.quarantined then n else
        { n with quarantined := true, deadline := s.dev.time + 2 * s.npLimit p } else [] }
  live.foldl (fun t n => flushFrame p ans n.frame t) s1

/-- Posted writes in flits that are discarded unacknowledged (R307); a core's is counted at the core (R342). -/
def flushUnacked (p : Nat) (s : State) : State :=
  (s.port p).unacked.foldl (fun t k =>
    if k.pkt.op = 0x02 then
      (match k.origin with
      | .core c => (flushPosted p k.pkt.addr k.pkt.env t).bump (F.GDC_CORE_STS_LATE_ERR c)
      | _ => flushPosted p k.pkt.addr k.pkt.env t)
    else if k.pkt.op = 0x06 then flushCount p t else t) s

/-- Flush of port `p` (R232, R307): frames queued, requests outstanding, writes in a replay buffer that is discarded; queue
failures and FENCEs; GRACE_FLUSH once, with the DA logged. `gone` says that the link-layer state is discarded with it. -/
def portFlush (p : Nat) (ans : Ans) (gone : Bool) (s : State) : State :=
  let mc := s.swc.queued.filter fun f => f.mcast && f.owes (4 + p)
  let r := swcFlush (4 + p) ans s
  let s1 := r.2.foldl (fun t f => flushFrame p ans f t) (mcOver mc r.1)
  let s2 := flushNp p ans (!gone && ans != .partnerReset) s1
  let s3 := if gone || ans == .partnerReset then flushUnacked p s2 else s2
  let s4 := fenceKill p (ansStatus ans) s3
  let s5 := if ans == .partnerReset || s4.dev.mode == .safe then s4 else (s4.ringsOn p).foldl (fun t q => qResume q (queueFail q 0x05 t)) s4
  faultEvent (portBlk p) 37 (s5.get (F.LPn_FLUSH_ADDR_DA p)) s5

/-- The link-layer state is discarded: LOCAL_EPOCH advances, fresh state (R252). -/
def discardLl (p : Nat) (s : State) : State :=
  if (s.port p).hasLl then epochAdvance p (freshLl p s) else s

/-- End of an outage without return (transitions 13, 15, 16): flush, discard, output CLOSED. A port without link-layer state
has nothing to flush. A lane test not ended is due again. -/
def portLost (p st n : Nat) (s : State) : State :=
  let had := (s.port p).hasLl
  let s1 := if had then portFlush p .portDown true s else s
  let s2 := (discardLl p s1).modPort p fun x => { x with hasLl := false, phase := 0, req := none, peerReq := none, held := none,
                                                         testLane := none, testDue := x.testLane.toList ++ x.testDue, gts2 := none, gts3 := [] }
  let s3 := ((linkTo p st n s2).put (F.LPn_LANE_STS_TESTING p) 0).put (F.LPn_LINK_STS_CMD_BUSY p) 0
  let s4 := setWidth p 0 0 (if s.hasPort p then s3.setOut (4 + p) 2 else s3)
  if p = 6 && had && s.is F.PRL_PAIR_STS_HB_OK then pairDetach s4 else s4

/-- Fall-back while the link keeps its state (SAFE): flush at once, output CLOSED, tags quarantined (R304). -/
def portFallback (p : Nat) (s : State) : State :=
  (portFlush p .portDown false s).setOut (4 + p) 2

/-- The hold begins (transition 12): grace runs, and the output becomes HELD unless it is CLOSED still (R231, R303, R310). -/
def enterHold (p : Nat) (s : State) : State :=
  let s0 := (linkTo p 6 12 s).bump (F.LPn_LINK_CNT_HOLD p)
  let s1 := if s0.outState (4 + p) = 2 then s0 else s0.setOut (4 + p) 1
  trainBegin p (s1.modPort p fun x => { x with graceEnd := s.dev.time + msTicks (s.get (F.LPn_GRACE_GRACE_MS p)) })

/-- The limit of L.RETRAIN or L.RESIZE expires (transitions 12, 13). -/
def retrainOver (p : Nat) (s : State) : State := if s.holdOk p then enterHold p s else portLost p 1 13 s

/-- Fall-back of a port, whatever its link state (R304): L.HOLD by transition 15, elsewhere with the link kept. -/
def portDrop (p : Nat) (s : State) : State :=
  if s.lst p = 6 then portLost p 1 15 s else if (s.port p).hasLl then portFallback p s else s

/-- Transition 16: L.DOWN. -/
def portOff (p : Nat) (s : State) : State := if s.lst p = 0 then s else portLost p 0 16 s

/-! ### Changed partner epoch (R309) -/

/-- MIGRATEs with a page on port `p` end with PARTNER_RESET (R147). -/
def migFence (p : Nat) (s : State) : State :=
  (s.wxl.migs.filter fun m => m.srcs.any (fun d => daT d == p) || daT m.dst == p).foldl (fun t m => killOp m.q 0x06 t) s

/-- Queues with rings on port `p` go STALE, and SQs bound to a CQ that does (R160). -/
def staleQueues (p : Nat) (s : State) : State :=
  let own := s.ringsOn p
  let cqs := own.filter s.isCq
  let bound := s.queuesWhere fun q => !s.isCq q && cqs.contains (s.cget q C.CQ)
  (own ++ bound).foldl (fun t q => qResume q (queueStale q t)) s

/-- The partner epoch is found changed (R309): fence, STALE queues, flush, fresh state, EPOCH_CHANGE; on PL the
end of the pair state in place of a fence (R399, Table 17.2). -/
def epochChanged (p epoch : Nat) (s : State) : State :=
  let s1 := if p = 6 then pairDetach s else wxlFence p s
  let s2 := freshLl p (portFlush p .partnerReset true (staleQueues p (migFence p s1)))
  faultEvent (portBlk p) 39 epoch s2

/-- MSG_SB for every OUT bit that is 1, with fresh state (R297). -/
def sbAnnounce (p : Nat) (s : State) : State :=
  if p = 6 then s
  else
    let o := s.get (F.LPn_SB_OUT p)
    (List.range 16).foldl (fun t i => if bitOf o i then
      sendPkt p { op := 0x07, vc := t.reqVc p, env := 0, tag := 0, addr := i + 256, len := 0, status := 0, flags := 4, data := [] } t
      else t) s

/-- One MSG_SB for each bit of OUT that changes from `old`, in ascending order (R297). -/
def sbChanges (p old new : Nat) (s : State) : State :=
  (List.range 16).foldl (fun t i => if bitOf old i != bitOf new i then
    sendPkt p { op := 0x07, vc := t.reqVc p, env := 0, tag := 0, addr := i + b2n (bitOf new i) * 256, len := 0, status := 0,
                flags := 4, data := [] } t
    else t) s

/-- Sends what was sent and not acknowledged again, after the last acknowledged flit (R278, R280). -/
def resend (p : Nat) (s : State) : State :=
  (s.port p).unacked.foldl (fun t k => t.emit (.gll p k.pkt)) s

/-! ### DEGRADED and side-band of the pair -/

/-- The envelopes of `PRL_HOME[i]` whose home is this bridge: HOME names the home's PAIR_ID. -/
def State.homeMask (s : State) (i : Nat) : Word :=
  if s.pins.pairId % 2 = 1 then s.reg (R.PRL_HOME i) else ~~~ (s.reg (R.PRL_HOME i))

/-- TAKEOVER: whether the bridge owns an envelope whose home is its peer (R402). -/
def State.takeover (s : State) : Bool :=
  s.cfg == 3 && (List.range 16).any fun i => (s.reg (R.PRL_OWN i)) &&& ~~~ (s.homeMask i) != 0

/-- Side-band signals 14 and 15 of every local port follow PAIR_ID and TAKEOVER (R402). -/
def sbPair (s : State) : State :=
  if s.cfg != 3 then s
  else (List.range 6).foldl (fun t p =>
    let old := t.get (F.LPn_SB_OUT p)
    let new := old % 2 ^ 14 + t.pins.pairId % 2 * 2 ^ 14 + b2n t.takeover * 2 ^ 15
    let t1 := t.put (F.LPn_SB_OUT p) new
    if (t1.port p).hasLl then sbChanges p old new t1 else t1) s

end Sys2Proof.Machine
end

