-- ==== Sys2Proof/Machine/HostOps.lean ====
section
/-! DEFINITION. HEP: delivery of host-proxy events (R87, R326 to R328), requests of a function that may not be issued (R108, R109),
function-level reset (R109 to R111), tags (R102, R105, R106), host link loss (R113) (spec/04, spec/05). -/
namespace Sys2Proof.Machine

open Sys2Proof

/-! ### The link -/

/-- The host link retrains; it passes no TLP until HOST_LINK_RECOVERY brings it back (R95, R419). -/
def hostRetrain (s : State) : State :=
  let s1 := s.bump F.HEP_LINK_STS_RETRAIN_CNT
  if s.is F.HEP_LINK_STS_UP then { s1 with hep := { s1.hep with recovery := true } } else s1

/-! ### Message interrupts -/

/-- Entry `i` of the MSI-X pool. -/
def State.msixE (s : State) (i : Nat) : MsixEnt := KMap.get s.msix {} i

/-- `s` with entry `i` of the MSI-X pool. -/
def State.setMsixE (s : State) (i : Nat) (e : MsixEnt) : State := { s with msix := KMap.set s.msix {} i e }

/-- Whether a message of function `f` may be sent now: in D0, Bus Master Enable 1, no reset in progress (R87, R109). DEDUCED, log entry 23. -/
def State.mayMsg (s : State) (f : Nat) : Bool := (s.fnOf f).bme && !s.fnD3 f && !(s.fnOf f).flr

/-- Hold an event under rule 4 of R87; equal events merge into one message. DEDUCED, log entry 25. -/
def holdEvent (f v : Nat) (s : State) : State :=
  if s.icu.held.any (fun e => e.fn == f && e.vec == v) then s
  else { s with icu := { s.icu with held := s.icu.held ++ [⟨f, v, true⟩] } }

/-- A host-proxy message enters the switch at HEP's own input (R326); `atop` 1 marks an MSI message of number `vec`. -/
def msgFrame (f vec addr data : Nat) (msi : Bool) (s : State) : State :=
  s.inject { typ := .msi, cls := 2, inp := 0, out := 0, fn := f, addr := addr, len := 4, data := toBytes 4 data, tag := vec,
             atop := b2n msi, env := (s.fnEnv f).getD 0, origin := .msi f vec }

/-- MSI messages allocated to PF `f`. -/
def State.msiCount (s : State) (f : Nat) : Nat := 2 ^ min (s.fnOf f).msiMme (min 5 (s.pfEnt f).msiLog2)

/-- MSI message `m` of PF `f` is sent, or its pending bit set while it is masked (rule 2 of R87). -/
def msiSend (f m : Nat) (s : State) : State :=
  let x := s.fnOf f
  if bitOf x.msiMask m then s.setFn f { x with msiPend := bitSet x.msiPend m }
  else
    let n := s.msiCount f
    msgFrame f m x.msiAddr (x.msiData / n * n + m % n) true (s.setFn f { x with msiPend := bitClr x.msiPend m })

/-- INTA follows what it stands for (rule 3 of R87, R327): an ICU source offered for PF0 or a held direct event unclaimed. DEDUCED, log entry 26. -/
def intaSync (s : State) : State :=
  let means := s.is F.HEP_LINK_STS_UP && !(s.fnOf 0).msixEn && !(s.fnOf 0).msiEn && !(s.fnOf 0).intxDis
  let on := means && (!s.icu.intaHeld.isEmpty || s.icuLive.any fun n =>
    s.is (F.ICU_SRC_STS_OFFERED n) && bitOf (KMap.get s.icu.offer 0 n) 8 && s.get (F.ICU_SRC_CFG_HOST_FN n) == 0)
  if on == s.icu.inta then s
  else hepTlp (.intx on) { s with icu := { s.icu with inta := on } }

/-- INTA falls once nothing is left that it stands for (R327). DEDUCED, log entry 26. -/
def intaFall (s : State) : State := if s.icu.inta then intaSync s else s

/-- A direct event is held for PF0 while INTA delivers it; events of one vector merge (R327). -/
def intaHold (v : Nat) (s : State) : State :=
  let l := s.icu.intaHeld
  let l' := if l.any (fun e => e.1 == v) then l.map (fun e => if e.1 = v then (v, e.2 + 1) else e) else l ++ [(v, 1)]
  { s with icu := { s.icu with intaHeld := l' } }

/-- A host-proxy event for vector `v` of function `f` is delivered by the first rule of R87 that applies. DEDUCED, log entry 23. -/
def hpDeliver (e : HpEvent) (s : State) : State :=
  let f := e.fn
  let v := e.vec
  let x := s.fnOf f
  if !s.fnExists f || (s.dev.mode == .safe && f != 0) then s
  else if !s.mayMsg f then holdEvent f v s
  else if x.msixEn then
    (if s.fnMsix f < v then s
     else if x.msixMask then
       s.setMsixE (s.msixBase f + v) { s.msixE (s.msixBase f + v) with pending := true }
     else { s with icu := { s.icu with msixRead := s.icu.msixRead ++ [e] } })
  else if f < 8 && x.msiEn then msiSend f (if v < s.msiCount f then v else s.msiCount f - 1) s
  else if f = 0 && !x.intxDis then intaSync (if e.direct then intaHold v s else s)
  else holdEvent f v s

/-- The held events of `f` are delivered again, in order (R87, R328). DEDUCED, log entry 25. -/
def redeliver (f : Nat) (s : State) : State :=
  let mine := s.icu.held.filter fun e => e.fn == f
  mine.foldl (fun t e => hpDeliver e t) { s with icu := { s.icu with held := s.icu.held.filter fun e => e.fn != f } }

/-- Pending entries of `f` that are unmasked are read again, to be sent (R328). -/
def msixPendGo (f : Nat) (s : State) : State :=
  let x := s.fnOf f
  if !x.msixEn || x.msixMask || !s.mayMsg f then s
  else
    let b := s.msixBase f
    let vs := s.msix.filterMap fun e =>
      if b ≤ e.1 && e.1 ≤ b + s.fnMsix f && e.2.pending && !e.2.masked then some (e.1 - b) else none
    let new := vs.filter fun v => !s.icu.msixRead.any fun e => e.fn == f && e.vec == v
    { s with icu := { s.icu with msixRead := s.icu.msixRead ++ new.map fun v => ⟨f, v, true⟩ } }

/-- Pending MSI messages of PF `f` that are unmasked are sent once each. -/
def msiPendGo (f : Nat) (s : State) : State :=
  if !(s.fnOf f).msiEn || (s.fnOf f).msixEn || !s.mayMsg f then s
  else (List.range 32).foldl (fun t m =>
    if bitOf (t.fnOf f).msiPend m && !bitOf (t.fnOf f).msiMask m then msiSend f m t else t) s

/-- Whatever of `f` is held goes on: record writes, held events, pending messages (R87, R108). -/
def fnGo (f : Nat) (s : State) : State :=
  if !s.mayMsg f then s
  else
    let recs := s.hep.heldRec.filter fun g => g.fn == f
    let s1 : State := { s with hep := { s.hep with heldRec := s.hep.heldRec.filter fun g => g.fn != f } }
    msiPendGo f (msixPendGo f (redeliver f (recs.foldl (fun t g => t.inject g) s1)))

/-! ### Requests of a function that are not issued any more -/

/-- Whether a frame is a request or message toward the host with the Requester ID of `f`. -/
def Frame.ofFn (g : Frame) (f : Nat) : Bool :=
  g.out == 0 && g.fn == f && (g.typ == .read || g.typ == .write || g.typ == .msi)

/-- Take frames out of the switch and of HEP's queue. -/
def pullFrames (p : Frame → Bool) (s : State) : State × List Frame :=
  let all := s.swc.queued ++ s.swc.inject ++ s.hep.wait
  ({ s with swc := { s.swc with queued := s.swc.queued.filter fun g => !p g, inject := s.swc.inject.filter fun g => !p g }
            hep := { s.hep with wait := s.hep.wait.filter fun w => !p w } }, all.filter p)

/-- An unsent request of a function whose Bus Master Enable was cleared, or that is in D3hot (R108): records and messages are held,
anything else is discarded with its requester told. -/
def unsent (g : Frame) (s : State) : State :=
  match g.origin with
  | .record _ => { s with hep := { s.hep with heldRec := s.hep.heldRec ++ [g] } }
  | .result _ => { s with hep := { s.hep with heldRec := s.hep.heldRec ++ [g] } }
  | .report _ => { s with hep := { s.hep with heldRec := s.hep.heldRec ++ [g] } }
  | .msi f v => if g.atop = 1 then s.setFn f { s.fnOf f with msiPend := bitSet (s.fnOf f).msiPend v }
                else holdEvent f v s
  | .list q => s.setQa q { s.qa q with listOut := false, stopReq := true }
  | .core _ => if g.typ == .write then failWrite g.origin .envelope s else wxlRefuse g .fnStop s
  | _ => wxlRefuse g .fnStop s

/-- SQs of function `f` that are not DISABLED. -/
def State.sqsOf (s : State) (f : Nat) : List Nat :=
  s.queuesWhere fun q => !s.isCq q && s.cget q C.OWNER_FN == f

/-- A step in flight ends early: at the last byte issued, its end if all were (R108). DEDUCED, log entry 54. -/
def stepCutEnd (q : Nat) (s : State) : State :=
  let x := s.qa q
  if x.step.on then
    s.setQa q { x with step := { x.step with cut := some (min (x.step.off + x.step.len) (x.step.cut.getD (x.step.off + x.step.len))) } }
  else s

/-- What clearing Bus Master Enable of `f`, or its D3hot, stops (R90, R108, R161). DEDUCED, log entry 54. -/
def fnStop (f : Nat) (s : State) : State :=
  let r := pullFrames (fun g => g.ofFn f) s
  let s1 := r.2.foldl (fun t g => unsent g t) r.1
  (s1.sqsOf f).foldl (fun t q => qResume q (stopQueue q (stepCutEnd q t))) s1

/-! ### Tags (R102 to R106) -/

/-- First and last tag value of function `f` (Table 5.2). -/
def State.tagRange (s : State) (f : Nat) : Nat × Nat :=
  let x := s.fnOf (s.pfIdx f)
  if x.tag14 && s.is F.HEP_LINK_STS_FLIT then (0x100, 0x20FF)
  else if x.tag10 then (0x100, 0x3FF)
  else if x.extTag then (0, 0xFF) else (0, 0x1F)

/-- Whether tag value `t` is one that function `f` may use now: in its range, unique for it, and the pool of 8,192 entries has room. -/
def State.tagFree (s : State) (f t : Nat) : Bool :=
  decide (s.hep.tags.length < 8192) && decide ((s.tagRange f).1 ≤ t) && decide (t ≤ (s.tagRange f).2)
    && !s.hep.tags.any fun e => e.fn == f && e.tag == t

/-- Whether a request that reaches HEP now waits for a tag entry or a tag value, counting the requests that wait before it (R102). -/
def State.tagStall (s : State) (f : Nat) : Bool :=
  decide (8192 ≤ s.hep.tags.length + s.hep.wait.length)
    || decide ((s.tagRange f).2 + 1 - (s.tagRange f).1 ≤
        (s.hep.tags.filter fun t => t.fn == f).length + (s.hep.wait.filter fun g => g.fn == f).length)

/-- Timeout of function `f` in TIME ticks (Table 5.3). -/
def State.ctoTicks (s : State) (f : Nat) : Nat :=
  match (s.fnOf (s.pfIdx f)).cto with
  | 1 => usTicks 100
  | 2 => msTicks 10
  | 6 => msTicks 200
  | 9 => msTicks 900
  | 10 => msTicks 3500
  | 13 => msTicks 13000
  | 14 => msTicks 64000
  | _ => msTicks 50

/-- Highest OUTSTANDING + QUARANTINED since the last read. -/
def tagPeak (s : State) : State := s.peak F.HEP_TAG_STS_PEAK s.hep.tags.length

/-- The entry of a function and tag. -/
def State.tagOf (s : State) (f t : Nat) : Option TagEnt := s.hep.tags.find? fun e => e.fn == f && e.tag == t

/-- An entry changes. -/
def setTag (e : TagEnt) (s : State) : State :=
  { s with hep := { s.hep with tags := s.hep.tags.map fun o => if o.fn == e.fn && o.tag == e.tag then e else o } }

/-- An entry leaves the pool. -/
def dropTag (e : TagEnt) (s : State) : State :=
  { s with hep := { s.hep with tags := s.hep.tags.filter fun o => !(o.fn == e.fn && o.tag == e.tag) } }

/-! ### Function-level reset (R109 to R111, R133) -/

/-- Host requests of `f` held for a local port in grace: Unsupported Request; held writes discarded (R109). -/
def flrHeld (f : Nat) (s : State) : State :=
  let mine := fun (g : Frame) => 4 ≤ g.out && s.outState g.out == 1 && (match g.origin with
    | .host fn _ => fn == f
    | _ => false)
  let r := pullFrames mine s
  let s1 := r.2.foldl (fun t g => match g.origin with
    | .host fn tag => if g.typ == .read then hostDone fn tag .unsupported [] false t else t
    | _ => t) r.1
  (List.range 6).foldl (fun t p =>
    if t.lst p = 6 then
      let held := (t.port p).np.filter fun n => !n.quarantined && (match n.frame.origin with
        | .host fn _ => fn == f
        | _ => false)
      let t1 := t.modPort p fun x => { x with np := x.np.map fun n =>
        if (held.contains n) then { n with quarantined := true, deadline := t.dev.time + 2 * t.npLimit p } else n }
      held.foldl (fun u n => match n.frame.origin with
        | .host fn tag => hostDone fn tag .unsupported [] false u
        | _ => u) t1
    else t) s1

/-- Outstanding reads of `f` are marked discard, with their deadline; requesters outside `f`'s queues get the refusal of R127. -/
def flrTags (f : Nat) (s : State) : State :=
  let mine := s.hep.tags.filter fun e => e.fn == f && e.st == .inUse
  let s1 : State := { s with hep := { s.hep with tags := s.hep.tags.map fun e =>
    if (e.fn == f && e.st == .inUse) then { e with st := .discard, deadline := s.dev.time + 2 * e.timeout } else e } }
  let s2 := mine.foldl (fun t e => match e.f.origin with
    | .partner p _ tag _ _ => errPkt p tag true e.f.env e.f.reqDa 1 t
    | .core c => failReadOne (.core c) .envelope t
    | .step q gen off => stepCut q gen off false t
    | .fetch q => t.setQa q { t.qa q with fetchOut := 0 }
    | _ => t) s1
  s2.setFn f { s2.fnOf f with flrDiscard := (s2.fnOf f).flrDiscard + mine.length }

/-- The movers stop the step of queue `q` without a boundary; nothing of it is fetched or released (R109). -/
def flrQueue (q : Nat) (s : State) : State :=
  let s1 := nextGen q (migEnd q (dropRels q (returnUnstarted q (dropFetched q s))))
  s1.setQa q { s1.qa q with phase := .idle, stopReq := true }

/-- A function-level reset of `f` begins (R109, R324). DEDUCED, log entry 28. -/
def flrBegin (f : Nat) (s : State) : State :=
  let x := s.fnOf f
  let s1 := s.setFn f { x with flr := true, flrStart := s.dev.time, flrDiscard := if x.flr then x.flrDiscard else 0 }
  let r := pullFrames (fun g => g.ofFn f) s1
  let s2 := r.2.foldl (fun t g => match g.origin with
    | .partner p _ tag _ _ => errPkt p tag (g.typ != .write) g.env g.reqDa 1 t
    | .core c => failAccess g.typ (.core c) .envelope t
    | .step q gen off => stepCut q gen off (g.typ == .write) t
    | .fetch q => t.setQa q { t.qa q with fetchOut := 0 }
    | _ => t) r.1
  let s3 : State := { s2 with hep := { s2.hep with heldRec := s2.hep.heldRec.filter fun g => g.fn != f } }
  let s4 := flrHeld f (flrTags f s3)
  let s5 := if f = 0 then s4 else (s4.sqsOf f).foldl (fun t q => flrQueue q t) s4
  icuTargetOff 8 (some f) s5

/-- Operations of queue `q` accepted and not completed (R110). -/
def State.acceptedOps (s : State) (q : Nat) : Nat :=
  if s.isCq q then 0 else s.available q + s.cget q C.OP_ACTIVE + b2n (s.qa q).held.isSome

/-- A window register takes the value the image gave it, with ENABLE 0 (R110, R133). -/
def winImage (off : Nat) (ctl : Bool) (s : State) : State :=
  let v := KMap.get s.img.wins 0 off
  s.setReg off (if ctl then withField v 0 1 0 else v)

/-- The windows of `f` return to their image values; what was prefetched through them is discarded (R133). -/
def flrWindows (f : Nat) (s : State) : State :=
  let s1 := [2 * f, 2 * f + 1].foldl (fun t w =>
    pfDiscard true (fun e => e.w == w) (winImage (R.WXL_IWIN_BASE w) false (winImage (R.WXL_IWIN_CTL w) true t))) s
  let ms := (s1.listed 0x120000 0x140000 32).filter fun m => s1.get (F.WXL_OWIN_CTL_FN m) == f && s1.reg (R.WXL_OWIN_CTL m) != 0
  ms.foldl (fun t m => winImage (R.WXL_OWIN_HOST m) false (winImage (R.WXL_OWIN_DA m) false (winImage (R.WXL_OWIN_CTL m) true t))) s1

/-- The MSI-X slice of `f` is masked, its pending bits clear, its held events discarded (R110). -/
def flrMsix (f : Nat) (s : State) : State :=
  let b := s.msixBase f
  let s1 : State := { s with
    msix := s.msix.filter fun e => !(b ≤ e.1 && e.1 ≤ b + s.fnMsix f)
    icu := { s.icu with
      held := s.icu.held.filter fun e => e.fn != f
      hpq := s.icu.hpq.filter fun e => e.fn != f
      msixRead := s.icu.msixRead.filter fun e => e.fn != f
      intaHeld := if f = 0 then [] else s.icu.intaHeld } }
  if f = 0 then intaSync s1 else s1

/-- What a function-level reset returns to image values (R110, R111); answers with the log of R115. DEDUCED, log entry 28. -/
def flrFinish (f : Nat) (s : State) : State :=
  let x := s.fnOf f
  let qs := s.queuesWhere fun q => s.cget q C.OWNER_FN == f
  let lost := if f = 0 then 0 else sumList (qs.map s.acceptedOps)
  let s1 := if f = 0 then s else flrWindows f (qs.foldl (fun t q => qResume q (cmdFree q 1 0 (wipeQueue q t))) s)
  let s2 := (flrMsix f s1).setFn f {}
  let s3 : State := { s2 with wxl := { s2.wxl with atc := s2.wxl.atc.filter fun a => a.fn != f } }
  (((s3.put F.HEP_FLR_LOG_LAST_FN f).put F.HEP_FLR_LOG_DURATION_US (min 10000 ((s.dev.time - x.flrStart) / 1200))).put
    F.HEP_FLR_LOG_ABORTED (min 65535 lost)).put F.HEP_FLR_LOG_DISCARDED (min 65535 x.flrDiscard)

/-- Existing VFs of PF `p`. -/
def State.vfsOf (s : State) (p : Nat) : List Nat :=
  if p = 0 || !(s.fnOf p).vfe then []
  else (List.range (min (s.fnOf p).numVfs (s.pfEnt p).totalVfs)).map fun j => 8 + s.vfBase p + j

/-- Each VF of PF `p` is reset, and then the VFs are removed (R79, R111, R329). -/
def vfsRemove (p : Nat) (s : State) : State :=
  let vs := s.vfsOf p
  let s1 := vs.foldl (fun t v => flrFinish v (flrBegin v t)) s
  let s2 := s1.setFn p { s1.fnOf p with vfe := false }
  vs.foldl (fun t v => icuTargetOff 8 (some v) t) s2

/-! ### Data link layer down and up (R113, R234) -/

/-- The non-posted requests of the bridge that hold a tag, or wait for one, complete with TIMEOUT (R113); in a PAIRED pair each
step ends at its last boundary, and fetches and records wait (R410). -/
def dlFail (paired : Bool) (o : Origin) (s : State) : State :=
  match o with
  | .step q gen _ =>
    if paired && s.isGen q gen then
      let s1 := nextGen q (dropRels q (returnUnstarted q s))
      s1.setQa q { s1.qa q with phase := .waiting, relOff := s1.cget q C.CK_BYTES }
    else failRead o .timeout s
  | .fetch q => if paired then s.setQa q { s.qa q with fetchOut := 0 } else failRead o .timeout s
  | _ => failRead o .timeout s

/-- Requests to the host that have not completed (R113, step 1) and the hold of every entry (step 2). -/
def dlTags (paired : Bool) (s : State) : State :=
  let live := s.hep.tags.filter fun e => e.st == .inUse
  let s1 : State := { s with hep := { s.hep with tags := s.hep.tags.map fun e =>
    { e with st := if e.st == .inUse then .quarantined else e.st, heldDl := true } } }
  let s2 := (s1.put F.HEP_LINKLOSS_LAST_TIMEOUT live.length).put F.HEP_LINKLOSS_LAST_TIME (s.dev.time % 2 ^ 48)
  live.foldl (fun t e => dlFail paired e.f.origin t) s2

/-- Prefetched data on its way to HEP is discarded with a response that cannot leave. -/
def dlPrefetch (f : Frame) (s : State) : State :=
  match f.origin with
  | .prefetch _ => failReadOne f.origin .timeout s
  | _ => s

/-- SWC flushes SP0 and closes it: requests complete as R113 states, writes and responses are discarded (R234). In a PAIRED
pair the records among them wait (R410). -/
def dlFlush (paired : Bool) (s : State) : State :=
  let recs := (s.swc.queued ++ s.swc.inject).filter fun g => g.out == 0 && paired && (match g.origin with
    | .record _ => true
    | _ => false)
  let mc := s.swc.queued.filter fun g => g.mcast && g.owes 0
  let waiting := s.swc.inject.filter fun g => g.out == 0 && !g.mcast
  let r := swcFlush 0 .timeout { s with swc := { s.swc with inject := s.swc.inject.filter fun g => !(g.out == 0 && !g.mcast) } }
  let all := r.2 ++ waiting ++ r.1.hep.wait
  let s1 : State := { mcOver mc r.1 with hep := { r.1.hep with wait := [], heldRec := r.1.hep.heldRec ++ recs } }
  let s2 := all.foldl (fun t g => if g.typ == .read then dlFail paired g.origin t
    else if g.typ == .write && !recs.contains g then failWrite g.origin .timeout t else dlPrefetch g t) s1
  s2.setOut 0 2

/-- Every function's configuration space returns to its reset values (R113, step 3). -/
def dlConfig (s : State) : State := { s with fns := [] }

end Sys2Proof.Machine
end

