-- ==== Sys2Proof/Machine/ModeOps.lean ====
section
/-! DEFINITION. Core states and mailboxes (R345 to R347, R354), the mode machine of DEV with its quiesce causes (Table 3.11, R66 to
R69), the entry to SAFE (Table 3.12, R161, R304) and the reset of the main domain (spec/03, spec/14). -/
namespace Sys2Proof.Machine

open Sys2Proof

/-! ### Mailboxes (R345 to R347) -/

/-- Entry `i` of the mailbox of core `c`. -/
def State.mbox (s : State) (c i : Nat) : MboxEnt := KMap.get (s.coreOf c).mbox {} i

/-- `s` with a mailbox entry. -/
def State.setMbox (s : State) (c i : Nat) (e : MboxEnt) : State :=
  s.setCore c { s.coreOf c with mbox := KMap.set (s.coreOf c).mbox {} i e }

/-- Entries of the mailbox of core `c` in a state (1 placed, 2 taken). -/
def State.mboxIn (s : State) (c st : Nat) : List Nat := (List.range 16).filter fun i => (s.mbox c i).st == st

/-- ICU source 64 + c and MBOX of core `c` follow its mailbox (R345). -/
def mboxSync (c : Nat) (s : State) : State :=
  let placed := s.mboxIn c 1
  let s1 := s.put (F.GDC_CORE_STS_MBOX c) (placed.length + (s.mboxIn c 2).length)
  icuLevel (64 + c) (!placed.isEmpty || (s.coreOf c).mboxAbort) s1

/-- Whether the operation that entry `e` was placed for is still in progress (R347). -/
def State.mboxLive (s : State) (e : MboxEnt) : Bool :=
  s.cget e.sq C.OP_ACTIVE == 1 && s.opc e.sq == 0x0E && s.cget e.sq C.CK_SEQ == e.opSeq && (s.qst e.sq == 1 || s.qst e.sq == 2
    || s.qst e.sq == 3 || s.qst e.sq == 4)

/-- An entry completes: the caller's record, or a discarded completion; the entry is free (R347). -/
def mboxDone (c i st steps bytes : Nat) (s : State) : State :=
  let e := s.mbox c i
  let s1 := s.setMbox c i { area := e.area }
  mboxSync c (if s.mboxLive e then qResume e.sq (endOp e.sq st 0 steps bytes s1) else s1.bump (F.GDC_CORE_STS_DISCARDED c))

/-- Every occupied entry completes with ABORTED (R354, R356). DEDUCED, log entry 94. -/
def mboxAbortAll (c : Nat) (s : State) : State :=
  let s1 := (List.range 16).foldl (fun t i => if (t.mbox c i).st = 0 then t else mboxDone c i 0x0A 0 0 t) s
  mboxSync c (s1.setCore c { s1.coreOf c with head := 0, tail := 0, mboxAbort := false, yield := none })

/-! ### Core states (R354) -/

/-- Core `c` leaves RUNNING and QUIESCING for DISABLED, HALTED (3) or RETIRED (4), with a HALT_REASON (R324, R354, R356). DEDUCED, log entry 98. -/
def coreLeave (c st reason : Nat) (s : State) : State :=
  let online := s.coreOnline c
  let s1 := (s.put (F.GDC_CORE_STS_STATE c) st).put (F.GDC_CORE_CTL_QUIESCE c) 0
  let s2 := if st = 0 then s1 else s1.put (F.GDC_CORE_STS_HALT_REASON c) reason
  let s3 := s2.setCore c { s2.coreOf c with load := none, loadAns := none, yield := none, fastActive := false }
  let s4 := if online then icuTargetOff c none s3 else s3
  let s5 := mboxAbortAll c s4
  if st = 3 && reason != 0 then faultEvent .gdc 2 c s5 else s5

/-- A core starts at ENTRY in machine mode (R354); its registers hold free values except those the spec gives. -/
def coreStart (c : Nat) (s : State) : State :=
  let x := s.coreOf c
  let s1 := ((s.put (F.GDC_CORE_STS_STATE c) 1).put (F.GDC_CORE_STS_HALT_REASON c) 0).setCore c
    { ({} : Core) with pc := 2 * s.get (F.GDC_CORE_BOOT_ENTRY c), meas := x.meas, loadLog := x.loadLog, started := true }
  icuOfferAll s1

/-! ### Modes (Table 3.11) -/

/-- DEV takes transition `n` to a mode; a change of MODE is ICU source 57. -/
def setMode (m : Mode) (n : Nat) (s : State) : State :=
  let d := s.dev
  let s1 : State := { s with
    dev := { d with mode := m, prev := d.mode.code, cause := n, entry := d.time % 2 ^ 48 }
    spl := { s.spl with intervalOk := s.spl.intervalOk && m.running } }
  icuOfferAll (if d.mode == m then s1 else icuEvent 57 s1)

/-- A retirement or fence that reduces service (transition 5; R68, R386, R388). DEDUCED, log entry 110. -/
def reduceService (s : State) : State :=
  match s.dev.mode with
  | .run => setMode .degraded 5 s
  | .quiesce => { s with dev := { s.dev with qRetired := true } }
  | .config => { s with dev := { s.dev with degradePending := true } }
  | .boot => { s with dev := { s.dev with degradePending := true } }
  | _ => s

/-- Transition 4, and transition 5 at once after it where a retirement happened before (R386). -/
def enterRun (s : State) : State :=
  let s1 := setMode .run 4 s
  if s.dev.degradePending then setMode .degraded 5 { s1 with dev := { s1.dev with degradePending := false } } else s1

/-- A quiesce cause (0 `DEV_CTL`, 1 D3hot, 2 PRL) sets: transition 6 from RUN and DEGRADED. DEDUCED, log entry 11. -/
def quiesceSet (i : Nat) (s : State) : State :=
  let s1 := s.put F.DEV_STS_QCAUSE (bitSet (s.get F.DEV_STS_QCAUSE) i)
  if s.dev.mode.running then
    setMode .quiesce 6 { s1 with dev := { s1.dev with qFromRun := s.dev.mode == .run, qRetired := false } }
  else s1

/-- A quiesce cause clears: DRAINED clears, and transition 7 or 8 follows the last (R69). DEDUCED, log entry 11. -/
def quiesceClear (i : Nat) (s : State) : State :=
  let q := bitClr (s.get F.DEV_STS_QCAUSE) i
  let s1 := s.put F.DEV_STS_QCAUSE q
  if bitOf (s.get F.DEV_STS_QCAUSE) i && s.dev.mode == .quiesce then
    let s2 := s1.put F.DEV_STS_DRAINED 0
    if q = 0 then (if s.dev.qFromRun && !s.dev.qRetired then setMode .run 7 s2 else setMode .degraded 8 s2) else s2
  else s1

/-- Whether SWC holds a frame of class 1 to 3 that originated in QEN (R69). -/
def State.qenFrames (s : State) : Bool :=
  (s.swc.queued ++ s.swc.inject ++ s.swc.retry).any fun f => f.inp == 1 && 1 ≤ f.cls && f.cls ≤ 3

/-- Whether a request issued by the device's own movers, fetches, cores or ports is outstanding (R69). -/
def State.npOut (s : State) : Bool :=
  s.hep.tags.any (fun e => e.st == .inUse) || !s.hep.wait.isEmpty
    || (List.range 7).any (fun p => (s.port p).np.any fun n => !n.quarantined && (match n.frame.origin with
      | .host _ _ => false
      | .partner _ _ _ _ _ => false
      | _ => true))
    || s.qaux.any (fun e => e.2.fetchOut != 0 || e.2.listOut)

/-- The conditions of DRAINED (R69). DEDUCED, log entry 12. -/
def State.drained (s : State) : Bool := !s.qaux.any (fun e => e.2.step.on) && !s.npOut && !s.qenFrames

/-! ### Frames that the mode does not carry (R239) -/

/-- The answer to a frame refused because of the mode: nothing is counted or logged; a partner gets ERR MODE, a host read
Completer Abort. -/
def modeRefuse (g : Frame) (s : State) : State :=
  match g.origin with
  | .partner p _ tag _ _ => errPkt p tag (g.typ != .write) g.env g.reqDa 7 s
  | .host fn tag => if g.typ == .write then s else hostDone fn tag .abort [] false s
  | _ => failFrame g .portDown s

/-! ### SAFE -/

/-- QEN stops where it stands; states and checkpoints are unchanged (R161). DEDUCED, log entry 45. -/
def qenSafe (s : State) : State :=
  (s.qaux.map (·.1)).foldl (fun t q =>
    let t1 := nextGen q (dropRels q (returnUnstarted q t))
    let x := t1.qa q
    t1.setQa q { x with
      phase := if x.phase == .released then .waiting else x.phase
      relOff := if isData (t.opc q) then t.cget q C.CK_BYTES else 0
      fetched := [], fetchOut := 0, fetchAns := none, fetchDrop := false, listOut := false }) s

/-- Accesses that wait in WXL, which stops. -/
def wxlSafe (s : State) : State :=
  let w := s.wxl
  let all := w.walks.flatMap (·.2) ++ w.walkWait ++ w.heldAcc ++ w.atsWait.map (·.2) ++ w.fills.flatMap (·.2)
  all.foldl (fun t a => modeRefuse a.f t)
    { s with wxl := { w with walks := [], walkWait := [], heldAcc := [], atsWait := [], fills := [], blockHold := [] } }

/-- Frames in the switch and at HEP that SAFE does not carry. -/
def swcSafe (s : State) : State :=
  let r := pullFrames (fun g => !s.carries g) s
  r.2.foldl (fun t g => if g.mcast then t else modeRefuse g t) r.1

/-- Envelope-bound cores are halted (Table 3.12, R354). -/
def coresSafe (s : State) : State :=
  (List.range 8).foldl (fun t c => if t.coreOnline c && !t.coreDev c then coreLeave c 3 2 t else t) s

/-- Transition 10: SAFE, with the block whose FATAL caused it, 0 if forced. DEDUCED, log entry 111. -/
def enterSafe (src : Nat) (s : State) : State :=
  let s1 := if s.cfg = 3 && s.flits 6 && s.dev.mode.serving then pairPkt 0x0D 0 s else s
  let s2 := setMode .safe 10 (((wxlSafe (qenSafe s1)).put F.DEV_STS_SAFE_SRC src).put F.DEV_STS_DRAINED 0)
  let s3 := (List.range 7).foldl (fun t p => if t.hasPort p then portDrop p t else t) s2
  coresSafe (swcSafe s3)

/-! ### Main-domain reset and power-down (R38, R40, R41) -/

/-- Registers that survive a reset of the main domain: those of the Tether, but for its fault page (R42, R396). -/
def tetherReg (off : Nat) : Bool := decide (0x1000000 ≤ off) && decide (off < 0x100F000)

/-- The main domain in reset: everything but the Tether, the pins' levels and the log is lost. -/
def mainReset (s : State) : State :=
  { ({} : State) with
    pending := s.pending
    regs := s.regs.filter fun e => tetherReg e.1
    tt := s.tt
    pins := { s.pins with hbOut := false, clkreqN := true, thermN := true, pwren := [false, false, false, false, false, false] }
    out := s.out
    free := s.free }

/-- TTH drives `TT_PWREN_MAIN` low; sources of the wake list that are pending are reported (R334). -/
def powerDown (s : State) : State :=
  let s1 : State := { s.put F.TTH_STS_MAIN_ON 0 with tt := { s.tt with downReq := true } }
  ((List.range 32).filterMap fun i =>
    if s.is (F.TTH_WAKE_ICU_VALID i) then some (s.get (F.TTH_WAKE_ICU_SOURCE i)) else none).foldl (fun t n => icuWake n t) s1

/-- Transition 9: QUIESCE to TETHER. -/
def enterTether (s : State) : State := powerDown (setMode .tether 9 s)

/-- TTH drives `TT_PWREN_MAIN` high for a cause as LAST_CAUSE codes it (R39, R40). -/
def powerUp (cause : Nat) (s : State) : State :=
  let s1 := ((s.put F.TTH_STS_MAIN_ON 1).put F.TTH_STS_LAST_CAUSE cause)
  { s1 with tt := { s1.tt with wake := none, offTime := false } }

end Sys2Proof.Machine
end

