-- ==== Sys2Proof/Machine/LaneOps.lean ====
section
/-! DEFINITION. Lanes and slots of a port block: groups, training, requests, the entry to L.ACTIVE, the lane test, slot power
(spec/11), and the outcome of a targeted self-test (R387). -/
namespace Sys2Proof.Machine

open Sys2Proof

/-! ### Outcome of a self-test -/

/-- A targeted self-test of source `id` of a page ends: recorded in `FLT_SELFTEST`, and a reaction has ended (R387, R391). -/
def testDone (b : Blk) (id : Nat) (pass : Bool) (s : State) : State :=
  let s1 := s.put (F.FLT_SRC_CNT_TESTING b.base id) 0
  let busy := (List.range 64).any fun i => s1.is (F.FLT_SRC_CNT_TESTING b.base i)
  let s2 := ((s1.put (F.FLT_SELFTEST_BUSY b.base) (b2n busy)).put (F.FLT_SELFTEST_LAST_FAIL b.base) (b2n (!pass))).put
    (F.FLT_SELFTEST_LAST_ID b.base) id
  let s3 := s2.bump (if pass then F.FLT_SELFTEST_PASSES b.base else F.FLT_SELFTEST_FAILS b.base)
  s3.setFlt b id { s3.fltOf b id with last := s.dev.time }

/-! ### Slot (R262 to R265) -/

/-- Whether the slot of port `p` counts as powered (R262). -/
def State.slotPowered (s : State) (p : Nat) : Bool :=
  p == 6 || !s.is (F.LPn_SLOT_CAP_PWR_CTRL p) || (s.port p).powered

/-- ICU source 32 + p follows the slot's events (R265). -/
def slotSync (p : Nat) (s : State) : State :=
  icuLevel (32 + p) ((s.is (F.LPn_SLOT_STS_PRSNT_CHG p) && s.is (F.LPn_SLOT_CTL_PRSNT_IE p))
    || (s.is (F.LPn_SLOT_STS_ATTN p) && s.is (F.LPn_SLOT_CTL_ATTN_IE p))
    || (s.is (F.LPn_SLOT_STS_PWRFLT p) && s.is (F.LPn_SLOT_CTL_PWRFLT_IE p))
    || (s.is (F.LPn_SLOT_STS_PWR_DONE p) && s.is (F.LPn_SLOT_CTL_PWR_DONE_IE p))) s

/-- Lane numbers of port `p`. -/
def laneList (p : Nat) : List Nat := List.range (portLanes p)

/-- Whether a lane of port `p` is in service. -/
def State.laneIn (s : State) (p k : Nat) : Bool := decide (k < portLanes p) && !bitOf (s.get (F.LPn_LANE_STS_RETIRED p)) k

/-- Transition 1 of Table 11.4, where its conditions hold. -/
def portTry1 (p : Nat) (s : State) : State :=
  if s.lst p = 0 && s.hasPort p && s.portOn p && s.dev.mode.configured && s.present p && s.slotPowered p
      && (laneList p).any (s.laneIn p) then
    (linkTo p 1 1 s).modPort p fun x => { x with eqDone := false, lockFails := 0, phase := 0 }
  else s

/-- `LPn_PWREN` is driven, where PWR_CTRL gives it power (R262, R263). -/
def pwrenDrive (p : Nat) (on : Bool) (s : State) : State :=
  if s.is (F.LPn_SLOT_CAP_PWR_CTRL p) then
    { s.put (F.LPn_SLOT_STS_PWR p) (b2n on) with pins := { s.pins with pwren := s.pins.pwren.set p on } }
  else s

/-- PWR_ON rises: power is driven, and PWR_DONE follows after PWR_DELAY_MS (R263). -/
def slotOn (p : Nat) (s : State) : State :=
  if s.is (F.LPn_SLOT_CTL_PWR_ON p) then s else pwrenDrive p true (s.put (F.LPn_SLOT_CTL_PWR_ON p) 1)

/-- PWR_ON falls: power goes off and transition 16 follows at once (R263). -/
def slotOff (p : Nat) (s : State) : State :=
  if s.is (F.LPn_SLOT_CTL_PWR_ON p) then
    let s1 := pwrenDrive p false (s.put (F.LPn_SLOT_CTL_PWR_ON p) 0)
    if s.is (F.LPn_SLOT_CAP_PWR_CTRL p) then
      portOff p (s1.modPort p fun x => { x with powered := false, indDue := false, epochLost := true })
    else s1
  else s

/-- Any sequence of the slot controller ends (R264). -/
def seqEnd (p : Nat) (s : State) : State :=
  (s.put (F.LPn_SLOT_STS_SEQ p) 0).modPort p fun x => { x with slotQuiesce := false }

/-- Debounced presence changes (R263). -/
def presence (p : Nat) (now : Bool) (s : State) : State :=
  let s1 := (s.put (F.LPn_SLOT_STS_PRSNT p) (b2n now)).put (F.LPn_SLOT_STS_PRSNT_CHG p) 1
  let s2 := if now then
      portTry1 p (if s1.is (F.LPn_SLOT_CTL_AUTO p) then slotOn p s1 else s1)
    else
      let s3 := slotOff p (seqEnd p (s1.modPort p fun x => { x with epochLost := true }))
      faultEvent (.lp p) 19 0 (portOff p s3)
  slotSync p s2

/-- Partner-cache lines of port `p` are written back and invalidated (R264): clean lines go, dirty ones once written. -/
def pcFlushPort (p : Nat) (s : State) : State :=
  let mine := s.wxl.pc.filter fun l => daT l.da == p
  let s1 := pcDrop (fun l => daT l.da == p) s
  mine.foldl (fun t l => if l.dirty then t.inject (wbFrame l) else t) s1

/-! ### Groups and requests (R245, R256, R257) -/

/-- Whether a lane can be used: a receiver was detected on it and it is not retired. -/
def State.laneOk (s : State) (p k : Nat) : Bool := s.laneIn p k && bitOf (s.get (F.LPn_LANE_STS_DETECTED p)) k

/-- The widest aligned group of usable lanes no wider than `cap`: width and lowest lane (R245). -/
def State.groupOf (s : State) (p cap : Nat) : Option (Nat × Nat) :=
  [16, 8, 4, 2, 1].findSome? fun w =>
    if w ≤ cap && w ≤ portLanes p then
      ((List.range (portLanes p / w)).find? fun g => (List.range w).all fun i => s.laneOk p (g * w + i)).map fun g => (w, g * w)
    else none

/-- The bridge's proposal. -/
def State.proposal (s : State) (p : Nat) : Option (Nat × Nat) := s.groupOf p (s.get (F.LPn_LINK_CFG_MAX_WIDTH p))

/-- Width at which a resize to `w` is carried out, as far as the bridge decides (R256). -/
def State.resizeWidth (s : State) (p w : Nat) : Nat := min w ((s.proposal p).map (·.1) |>.getD 0)

/-- A retrain of the bridge's own begins (transition 5, or 9 from L.RESIZE). -/
def ownRetrain (p : Nat) (r : LinkReq) (s : State) : State :=
  let n := if s.lst p = 5 then 9 else 5
  (toRetrain p n s).modPort p fun x => { x with req := some r, eqNow := r.eq, testLane := r.test }

/-- A resize begins (transition 6), unless it resolves to the present width. -/
def beginResize (p w : Nat) (own : Bool) (s : State) : State :=
  let w' := s.resizeWidth p w
  if w' = s.width p || w' = 0 then s
  else (linkTo p 5 6 s).modPort p fun x => { x with resizeTo := w', req := if own then some { kind := 2, width := w } else x.req }

/-- A request of the bridge's own begins in L.ACTIVE. -/
def startReq (p : Nat) (r : LinkReq) (s : State) : State :=
  if r.kind = 1 then ownRetrain p r s else beginResize p r.width true s

/-- In L.ACTIVE, what waits for it begins: a dropped request of the bridge's own, or a lane test that is due (R256, R257,
R260). CMD_BUSY falls once no command is left. -/
def linkPend (p : Nat) (s : State) : State :=
  if s.lst p != 3 then s
  else
    let x := s.port p
    match x.held with
    | some r => startReq p r (s.setPort p { x with held := none })
    | none =>
      let g := s.get (F.LPn_LINK_STS_GROUP_LANE p)
      let s1 := s.put (F.LPn_LINK_STS_CMD_BUSY p) 0
      match x.testDue.find? (fun k => g ≤ k && k < g + s.width p) with
      | some k =>
        ownRetrain p { kind := 1, test := some k } (s1.setPort p { x with testDue := x.testDue.filter fun j => j != k })
      | none => s1

/-- A test of physical lane `k` falls due (R260). -/
def laneTestDue (p k : Nat) (s : State) : State :=
  linkPend p (s.modPort p fun x => { x with testDue := if x.testDue.contains k then x.testDue else x.testDue ++ [k] })

/-- A request of the bridge's own that a merged outcome drops is repeated from L.ACTIVE (R257). -/
def holdReq (r : Option LinkReq) (x : Port) : Port :=
  match r with
  | some r => (match r.test with
    | some k => { x with req := none, testDue := x.testDue ++ [k] }
    | none => { x with req := none, held := some r })
  | none => x

/-- Whether the bridge leads where two retrain requests coincide (R241, R257). DEDUCED, log entry 74. -/
def State.leads (s : State) (p : Nat) : Bool :=
  let own := s.get (F.LPn_IDENT_LINK_ID p)
  let peer := s.get (F.LPn_PEER_LINK_ID p)
  decide (own < peer) || (own == peer && (p != 6 || s.pins.pairId == 0))

/-- The partner's request in a flit: it begins, or coincides with the bridge's own (Table 11.6). DEDUCED, log entry 74. -/
def peerRequest (p : Nat) (r : LinkReq) (s : State) : State :=
  let x := s.port p
  let st := s.lst p
  let s0 := s.setPort p { x with peerReq := some r }
  if x.peerReq = some r then s
  else match x.req with
  | none =>
    if r.kind = 1 && (st == 3 || st == 5) then
      (toRetrain p (if st = 5 then 9 else 5) s0).modPort p fun y => { y with eqNow := r.eq }
    else if r.kind = 2 && st == 3 then beginResize p r.width false s0
    else s
  | some o =>
    if o.kind = 2 && r.kind = 1 && st == 5 then
      ((toRetrain p 9 s0).modPort p fun y => { y with eqNow := r.eq }).modPort p (holdReq (some o))
    else if o.kind = 2 && r.kind = 2 then
      s0.modPort p fun y => { y with resizeTo := min y.resizeTo (s.resizeWidth p r.width) }
    else if o.kind = 1 && r.kind = 1 && !s.leads p then
      s0.modPort p fun y =>
        let z := { y with eqNow := r.eq, testLane := none }
        if o.test.isSome then holdReq (some o) z else { z with req := none }
    else s0

/-! ### Training (R246, R254, R255) -/

/-- Whether the encodings of a GTS are valid (Table 11.1, R246). DEDUCED, log entry 71. -/
def gtsValid (g : Gts) : Bool :=
  g.ok && decide (1 ≤ g.kind) && decide (g.kind ≤ 3) && (g.lane ≤ 15 || g.lane == 31) && decide (g.width ≤ 4) && decide (g.index ≤ 8)
    && (g.kind == 3 || g.index == 0)

/-- Whether the link is in training: a phase runs in L.TRAIN, L.RETRAIN or L.HOLD. -/
def State.trains (s : State) (p : Nat) : Bool :=
  (s.lst p == 2 || s.lst p == 4 || s.lst p == 6) && (s.port p).phase != 0

/-- A GTS is received: discarded, or counted (R246). It answers the bridge's own request (R256). DEDUCED, log entry 71. -/
def gtsNote (p : Nat) (g : Gts) (s : State) : State :=
  if s.lst p = 5 then s.modPort p fun x => { x with req := none }
  else if !s.trains p then s
  else if !gtsValid g then s.modPort p fun x => { x with gtsLast := none, gtsCount := 0 }
  else s.modPort p fun x =>
    let y := { x with req := none }
    if g.kind = 3 then { y with gts3 := KMap.insert (KMap.erase y.gts3 g.index) g.index g.rxbuf }
    else
      let same := match y.gtsLast with
        | some l => { l with lane := 0 } == { g with lane := 0 } && (l.lane == 31) == (g.lane == 31)
        | none => false
      let n := if same then y.gtsCount + 1 else 1
      { y with gtsLast := some g, gtsCount := n, gts2 := if g.kind = 2 && 8 ≤ n then some g else y.gts2 }

/-- Receive buffer announced for VC `v`, in KiB. -/
def bufOf (l : KMap Nat) (v : Nat) : Nat := (KMap.find l v).getD 0

/-- Whether the link pairs (R287). DEDUCED, log entry 72. -/
def State.pairsWith (s : State) (p : Nat) (g : Gts) (buf : KMap Nat) : Bool :=
  g.vcs == s.get (F.LPn_PROTO_CFG_VCS p) && g.roles == s.get (F.LPn_PROTO_CFG_ROLES p)
    && (List.range (s.vcs p)).all fun v => decide (8 ≤ bufOf buf v)

/-- Whether a retrain or hold finds the partner changed without a changed epoch (R255). -/
def State.peerSwapped (s : State) (p : Nat) (g : Gts) (buf : KMap Nat) : Bool :=
  let x := s.port p
  match x.paired with
  | some o => x.hasLl && g.epoch != 0 && x.epochRec == some g.epoch && !x.epochLost
      && !(g.linkId == o.linkId && g.vcs == o.vcs && g.roles == o.roles && (List.range 8).all fun v => bufOf buf v == bufOf x.pairedBuf v)
  | none => false

/-- Training fails as at its limit, counted (R255, transition 4): L.DETECT, L.HOLD or no link, or again from detection. DEDUCED, log entry 72. -/
def trainFail (p : Nat) (s : State) : State :=
  let s1 := faultEvent (portBlk p) 17 0 (s.bump (F.LPn_LINK_CNT_TRAIN_FAIL p))
  if s.lst p = 2 then (linkTo p 1 4 s1).modPort p fun x => { x with phase := 0 }
  else if s.lst p = 4 then retrainOver p s1
  else s1.modPort p fun x => { x with phase := 0 }

/-- Training goes on with phase `n`: GTS are counted afresh. -/
def toPhase (p n : Nat) (s : State) : State := s.modPort p fun x => { x with phase := n, gtsLast := none, gtsCount := 0 }

/-- Phase 2 over the bridge's proposal, once phase 1 is complete and no lane test runs. -/
def propose (p : Nat) (s : State) : State :=
  match s.proposal p with
  | some (w, k) => toPhase p 2 (s.modPort p fun x => { x with width := w, group := k })
  | none => s

/-- Whether phase 3 runs in this training (R252, R254). DEDUCED, log entry 73. -/
def State.eqWanted (s : State) (p : Nat) : Bool :=
  let x := s.port p
  !x.eqDone || (s.lst p != 4 && s.is (F.LPn_LINK_CFG_EQ_EVERY p)) || x.eqNow

/-- A phase meets its end condition (Table 11.5); `rtt` is the training round trip measured in phase 4. -/
def phaseDone (p rtt : Nat) (s : State) : State :=
  let x := s.port p
  if !s.trains p then s
  else match x.phase, x.gtsLast with
    | 1, some g =>
      if g.kind = 1 && 8 ≤ x.gtsCount then
        (match x.testLane with
        | some k =>
          if s.is (F.LPn_LANE_STS_TESTING p) then s
          else startTest (portBlk p) k k ((s.put (F.LPn_LANE_STS_TEST_LANE p) k).put (F.LPn_LANE_STS_TESTING p) 1)
        | none => propose p s)
      else s
    | 2, some g =>
      if g.kind = 1 && 8 ≤ x.gtsCount && g.lane ≤ 15 && 2 ^ g.width ≤ x.width then
        toPhase p (if s.eqWanted p then 3 else 4) (s.setPort p { x with width := 2 ^ g.width })
      else s
    | 3, some g =>
      if g.kind = 1 && !g.eq then toPhase p 4 (s.setPort p { x with eqDone := true, eqNow := false }) else s
    | 4, _ =>
      (match x.gts2 with
      | some g =>
        if (List.range 9).all (fun i => (KMap.find x.gts3 i).isSome) then
          (if !s.pairsWith p g x.gts3 || s.peerSwapped p g x.gts3 then trainFail p s
           else (s.put (F.LPn_LINK_STS_TRAIN_RTT_NS p) (min rtt 65535)).setPort p { x with phase := 5 })
        else s
      | none => s)
    | _, _ => s

/-- A phase reaches its own limit: in L.HOLD detection and training repeat, with a full equalization after two failures of
phase 1 (R252, R254). -/
def phaseLimit (p : Nat) (s : State) : State :=
  if s.lst p = 6 && s.trains p then
    s.modPort p fun x =>
      let n := if x.phase = 1 then x.lockFails + 1 else x.lockFails
      { x with phase := 0, lockFails := n, eqDone := x.eqDone && decide (n < 2) }
  else s

/-! ### Entry to L.ACTIVE (R250, R280, R309) -/

/-- `LPn_PEER` and `LPn_PEER_BUF` show what the partner announced. -/
def peerNote (p : Nat) (g : Gts) (buf : KMap Nat) (s : State) : State :=
  let s1 := (((s.put (F.LPn_PEER_LINK_ID p) g.linkId).put (F.LPn_PEER_VCS p) g.vcs).put (F.LPn_PEER_ROLES p) g.roles).put
    (F.LPn_PEER_EPOCH p) g.epoch
  (List.range 8).foldl (fun t v => t.put (F.LPn_PEER_BUF_RXBUF p (v / 4) (v % 4)) (bufOf buf v)) s1

/-- Whether the partner epoch counts as changed (R250). -/
def State.epochDiffers (s : State) (p epoch : Nat) : Bool :=
  match (s.port p).epochRec with
  | none => false
  | some e => epoch == 0 || epoch != e || (s.port p).epochLost

/-- The output of port `p` at an entry to L.ACTIVE: a CLOSED output opens with an unchanged epoch and no fence, any other
opens (R231 to R233). -/
def openOut (p : Nat) (changed : Bool) (s : State) : State :=
  if s.outState (4 + p) = 2 && (changed || s.portFenced p) then s else s.setOut (4 + p) 0

/-- Training, retrain or hold completes: the epoch is compared and recorded, and the port enters L.ACTIVE (transitions 3, 7,
14). -/
def activeEntry (p : Nat) (s : State) : State :=
  let x := s.port p
  let st := s.lst p
  match x.gts2 with
  | none => s
  | some g =>
    if x.phase != 5 || !s.trains p then s
    else
      let changed := s.epochDiffers p g.epoch
      let s1 := (peerNote p g x.gts3 s).put (F.LPn_LINK_STS_EPOCH_CHANGED p) (b2n changed)
      let fresh := changed || !x.hasLl
      let s2 := if changed then epochChanged p g.epoch s1 else if !x.hasLl then freshLl p s1 else s1
      let s3 := s2.modPort p fun y => { y with
        phase := 0, epochRec := some g.epoch, epochLost := false, paired := some g, pairedBuf := x.gts3, peerReq := none, req := none
        eqNow := false, lockFails := 0, replays := 0, sleep := 0, peerHold := false, samples := if st = 2 then [] else y.samples
        ackTime := s.dev.time }
      let s4 := linkTo p 3 (if st = 2 then 3 else if st = 4 then 7 else 14) (openOut p changed s3)
      let s5 := setWidth p x.width x.group s4
      let s6 := if fresh then sbAnnounce p s5 else resend p s5
      let s7 := txDrain p (linkPend p s6)
      if p = 6 then pairRecheck s7 else s7

/-! ### Lane test (R260, R261) -/

/-- A lane test ends: the lane stays, or is retired and the retrain repeats phase 2; with no lane left, transition 16. -/
def laneTested (p : Nat) (pass : Bool) (s : State) : State :=
  match (s.port p).testLane with
  | none => s
  | some k =>
    let s1 := ((s.put (F.LPn_LANE_STS_TESTING p) 0).bump (F.LPn_LANE_CNT_TESTS p k)).put (F.LPn_LANE_CNT_LAST_FAIL p k) (b2n (!pass))
    let s2 := (testDone (portBlk p) k pass s1).modPort p fun x => { x with testLane := none }
    if pass then propose p s2
    else
      let s3 := s2.put (F.LPn_LANE_STS_RETIRED p) (bitSet (s2.get (F.LPn_LANE_STS_RETIRED p)) k)
      if (laneList p).any (s3.laneIn p) then
        let narrower := match s3.proposal p with
          | some (w, _) => decide (w < s.width p)
          | none => true
        propose p (if narrower then reduceService s3 else s3)
      else reduceService (portOff p (faultEvent (portBlk p) 16 0 s3))

/-- A resize takes effect, or fails at the old width (R258, transition 8). -/
def resizeEnd (p : Nat) (ok : Bool) (s : State) : State :=
  let x := s.port p
  let s1 := (linkTo p 3 8 s).bump (F.LPn_LINK_CNT_RESIZE p)
  let s2 := s1.modPort p fun y => { y with req := none, peerReq := none, resizeTo := 0 }
  let lane := if x.resizeTo < s.width p then s.get (F.LPn_LINK_STS_GROUP_LANE p)
    else (s.groupOf p x.resizeTo).map (·.2) |>.getD 0
  let s3 := if ok then setWidth p x.resizeTo lane s2 else s2
  linkPend p s3

/-! ### Commands of `LPn_LINK_CMD` and the enable bits -/

/-- A write of `LPn_LINK_CMD` with OP, EQ and WIDTH (R256, R268). -/
def linkCmd (p off op : Nat) (eq : Bool) (w : Nat) (s : State) : State :=
  let widthOk := (w == 1 || w == 2 || w == 4 || w == 8 || w == 16)
  if op = 0 then s
  else if s.is (F.LPn_LINK_STS_CMD_BUSY p) then notice (portBlk p) off s
  else if op = 1 && s.lst p = 3 then ownRetrain p { kind := 1, eq := eq } (s.put (F.LPn_LINK_STS_CMD_BUSY p) 1)
  else if op = 2 && s.lst p = 3 && widthOk then
    (if s.resizeWidth p w = s.width p || s.resizeWidth p w = 0 then s
     else beginResize p w true (s.put (F.LPn_LINK_STS_CMD_BUSY p) 1))
  else if op = 3 && s.lst p = 0 then portTry1 p (s.put (F.LPn_LANE_STS_RETIRED p) 0)
  else notice (portBlk p) off s

/-- `LPn_REARM` ends the fence (R310): a CLOSED output opens, HELD where the link is in L.HOLD. -/
def portRearmed (p : Nat) (s : State) : State :=
  let s1 := wxlUnfence p s
  if s1.outState (4 + p) = 2 then
    (if s1.lst p = 6 then s1.setOut (4 + p) 1 else if 3 ≤ s1.lst p then s1.setOut (4 + p) 0 else s1)
  else s1

/-- CTL.ENABLE of a port falls, by software or by the fence of R389: transition 16 and the fall-back flush; on PL the pair goes
DOWN (Table 17.2). -/
def portDisable (p : Nat) (s : State) : State :=
  let s1 := portOff p (s.put (portEnFld p) 0)
  if p = 6 then pairState 0 s1 else s1

/-- CTL.HOLD_DISABLE is written 1: a port in L.HOLD falls back (R304). -/
def holdDisable (p : Nat) (s : State) : State :=
  let s1 := s.put (holdDisFld p) 1
  if s.lst p = 6 then portLost p 1 15 s1 else s1

/-- Receivers are detected on lanes `lanes`: the port begins training (transition 2), or repeats it in L.HOLD (R252). -/
def detection (p lanes : Nat) (s : State) : State :=
  let s1 := s.put (F.LPn_LANE_STS_DETECTED p) (lanes % 2 ^ portLanes p)
  if !(laneList p).any (s1.laneOk p) then s1
  else if s.lst p = 1 then trainBegin p (linkTo p 2 2 s1)
  else trainBegin p s1

end Sys2Proof.Machine
end

