-- ==== Sys2Proof/Machine/PairOps.lean ====
section
/-! DEFINITION. The pair (spec/17): forming, synchronization, takeover by Table 17.4, hand-over, what a control packet does. -/
namespace Sys2Proof.Machine

open Sys2Proof

/-! ### Ownership -/

/-- Every envelope number. -/
def envList : List Nat := List.range 1024

/-- Whether this bridge is the home of an envelope (R400). -/
def State.isHome (s : State) (e : Nat) : Bool := bitOf (s.homeMask (e / 64)).toNat (e % 64)

/-- This bridge begins or ceases to serve an envelope; its lines leave the cache first (R141, R401). -/
def setOwn (e : Nat) (v : Bool) (s : State) : State :=
  let s1 := pcDropEnv e s
  let w := s1.reg (R.PRL_OWN (e / 64))
  s1.setReg (R.PRL_OWN (e / 64)) (withField w (e % 64) 1 (b2n v))

/-- Envelopes that this bridge serves. -/
def State.owned (s : State) : List Nat := envList.filter s.owns

/-- Queues of envelope `e` that are not DISABLED. -/
def State.queuesOf (s : State) (e : Nat) : List Nat := s.queuesWhere fun q => s.cget q C.ENV == e

/-! ### Mirrored items -/

/-- A word of an item. -/
def itemWord (l : List Word) (j : Nat) : Word := l.getD j 0

/-- A context arrives from the peer, with the record not yet written, if any (R403). PRESUMED, log entry 114. -/
def mirrorCtx (q : Nat) (words : List Word) (s : State) : State :=
  let old := s.qst q
  let s1 := (List.range 16).foldl (fun t j => t.setCtxW q j (itemWord words j)) s
  let n := s.get F.QEN_STS_ENABLED
  let new := s1.qst q
  let s2 := if old = 0 && new != 0 then s1.put F.QEN_STS_ENABLED (n + 1)
    else if old != 0 && new = 0 then s1.put F.QEN_STS_ENABLED (n - 1) else s1
  if words.length < 22 then s2
  else
    let r : Record :=
      { status := (itemWord words 16).toNat, mask := (itemWord words 17).toNat, steps := (itemWord words 18).toNat,
        bytes := (itemWord words 19).toNat, energy := (itemWord words 20).toNat, opSeq := (itemWord words 21).toNat }
    s2.setQa q { s2.qa q with held := some r }

/-- Translation entries arrive from the peer as one item (R403). -/
def mirrorXlate (l : List (Nat × Word)) (s : State) : State :=
  l.foldl (fun t e => let t1 := xtInval e.1 t; { t1 with xt := KMap.set t1.xt 0 e.1 e.2 }) s

/-- The answer of the bridge to an item, a probe or a question. -/
def pairReply (s : State) : State := pairPkt 0x0D 0 s

/-! ### Takeover (R408, Table 17.4) -/

/-- The survivor finds queue `q`; `fail` tells a failover from a hand-over (R408, R409). -/
def takeQueue (fail : Bool) (q : Nat) (s : State) : State :=
  let x := s.qa q
  let y : QAux := { ({} : QAux) with gen := x.gen + 1, held := x.held, drainTail := s.cget q C.TAIL }
  let s1 := s.setQa q y
  let st := s.qst q
  if s.isCq q || s.cget q C.OP_ACTIVE = 0 || !(st == 1 || st == 3) then s1
  else
    let run := fun (ph : OpPhase) (off : Nat) => s1.setQa q { y with phase := ph, relOff := off, resumed := fail }
    match s.opc q with
    | 0x06 => (run .ctl 0).cput q C.CK_BYTES 0
    | 0x07 => run .ctl (s.cget q C.CK_BYTES)
    | 0x08 => if s.prl.atomMark.contains q then endOp q 0x08 0 0 0 s1 else run .waiting 0
    | op => run .waiting (if isData op then s.cget q C.CK_BYTES else 0)

/-- The bridge takes envelopes over (R408, steps 1 to 4). -/
def takeEnvs (fail : Bool) (es : List Nat) (s : State) : State :=
  let s1 := sbPair (es.foldl (fun t e => setOwn e true t) s)
  let s2 := es.foldl (fun t e =>
    if t.is (F.PRL_TAKE_VEC_VALID e) then hpEvent (t.get (F.PRL_TAKE_VEC_FN e)) (t.get (F.PRL_TAKE_VEC_VECTOR e)) t else t)
    (icuEvent 59 s1)
  let s3 := es.foldl (fun t e => (t.queuesOf e).foldl (fun u q => takeQueue fail q u) t) s2
  s3.put F.PRL_PAIR_STS_TAKEOVER_US ((s.dev.time - s.prl.detected) / 1200)

/-- A failover trigger of Table 17.3 in PAIRED (R407). -/
def failover (code : Nat) (s : State) : State :=
  if !s.paired then s
  else
    let es := envList.filter fun e => !s.owns e
    let s1 := ((s.put F.PRL_PAIR_STS_LAST_TRIGGER code).bump F.PRL_PAIR_STS_FAILOVERS)
    let s2 := takeEnvs true es { s1 with prl := { s1.prl with probing := false, confirm := false } }
    pairRecheck (pairState 3 (faultEvent .prl 49 code s2))

/-! ### Forming the pair (R405, R406, R411) -/

/-- The copy of the bridge's own contexts and entries is sent (R406). -/
def sendSync (s : State) : State :=
  let qs := s.queuesWhere fun q => s.owns (s.cget q C.ENV)
  let s1 := pairReply (qs.foldl (fun t _ => pairPkt 0x0E 0 t) s)
  { s1 with prl := { s1.prl with sentSync := true } }

/-- SYNCING begins. -/
def toSyncing (s : State) : State :=
  let s1 := pairState 1 { s with prl := { s.prl with sentSync := false, gotSync := false } }
  sendSync s1

/-- The check of R414 has passed: PAIR_EN is set, and SYNCING follows once the peer is ready too (Table 17.2). -/
def pairReady (s : State) : State :=
  let s1 := s.put F.PRL_CTL_PAIR_EN 1
  let st := s1.get F.PRL_PAIR_STS_STATE
  let s2 : State := { s1 with prl := { s1.prl with ready := true } }
  if st = 3 || st = 4 || s2.prl.peerReady then toSyncing (pairReply s2) else pairState st (pairReply s2)

/-- PAIR_EN is cleared: DOWN (Table 17.2). -/
def pairEnd (s : State) : State :=
  let s1 := s.put F.PRL_CTL_PAIR_EN 0
  pairState 0 { s1 with prl := { s1.prl with ready := false, sentSync := false, gotSync := false } }

/-- Envelope `e` as the peer's `PRL_OWN` has it. -/
def State.peerOwns (s : State) (e : Nat) : Bool := bitOf (itemWord s.prl.peerOwn (e / 64)).toNat (e % 64)

/-- Envelopes that both bridges claim. -/
def State.claimed (s : State) : List Nat := envList.filter fun e => s.owns e && s.peerOwns e

/-- The operations of an envelope that the peer keeps are discarded without records (R411). -/
def discardClaim (e : Nat) (s : State) : State :=
  (s.queuesOf e).foldl (fun t q => if t.isCq q then t else abandonOp q t) (setOwn e false s)

/-- The pair is formed: envelopes of neither bridge go home, source 63 fires (R406). -/
def pairFormed (s : State) : State :=
  let s1 := (envList.filter fun e => !s.owns e && !s.peerOwns e && s.isHome e).foldl (fun t e => setOwn e true t) s
  let s2 := sbPair { s1 with prl := { s1.prl with formed := true } }
  icuEvent 63 (pairState 2 s2)

/-- Both bridges have sent their sync and agree (R406). The bridge strapped `PAIR_ID` 1 quiesces before it gives up what both
claim. -/
def syncAgreed (s : State) : State :=
  if s.get F.PRL_PAIR_STS_STATE != 1 || !s.prl.sentSync || !s.prl.gotSync then s
  else
    let both := s.claimed
    if both.isEmpty then pairFormed s
    else if s.pins.pairId = 0 then pairFormed (both.foldl (fun t e => faultEvent .prl 52 e t) s)
    else if s.dev.mode == .quiesce then
      (if s.is F.DEV_STS_DRAINED then
        pairFormed (quiesceClear 2 (both.foldl (fun t e => discardClaim e t) s))
      else s)
    else if s.dev.mode.running then quiesceSet 2 (both.foldl (fun t e => faultEvent .prl 52 e t) s)
    else pairFormed (both.foldl (fun t e => discardClaim e (faultEvent .prl 52 e t)) s)

/-! ### Hand-over (R409) -/

/-- A hand-over of envelopes is caused: the PRL quiesce cause sets (R409). -/
def giveBegin (es : List Nat) (s : State) : State :=
  if s.paired then quiesceSet 2 { s with prl := { s.prl with giving := es } } else s

/-- The giver is drained and mirrored: ownership passes to the peer, the quiesce cause clears, source 61 fires. -/
def giveEnd (s : State) : State :=
  if s.prl.giving.isEmpty || !s.paired || !s.is F.DEV_STS_DRAINED || !s.prl.unmirrored.isEmpty then s
  else
    let s1 := sbPair (s.prl.giving.foldl (fun t e => setOwn e false t) s)
    let s2 := pairReply { s1 with prl := { s1.prl with giving := [] } }
    icuEvent 61 (quiesceClear 2 s2)

/-! ### Control packets -/

/-- Source 62 follows a silent heartbeat with an answering peer (Table 17.5). -/
def hbSource (v : Bool) (s : State) : State := icuLevel 62 v s

/-- A pair control or mirror packet arrives on PL (R399, R403 to R409, R414). -/
def pairMsg (m : PairMsg) (s : State) : State :=
  match m with
  | .queueItem q w => pairReply (mirrorCtx q w s)
  | .syncItem q w => pairReply (mirrorCtx q w s)
  | .recordMark q =>
    let x := s.qa q
    pairReply { s.setQa q { x with held := none } with prl := { s.prl with atomMark := s.prl.atomMark.filter fun k => k != q } }
  | .atomMark q =>
    pairReply { s with prl := { s.prl with atomMark := if s.prl.atomMark.contains q then s.prl.atomMark else s.prl.atomMark ++ [q] } }
  | .xlate l => pairReply (mirrorXlate l s)
  | .ack =>
    if s.prl.unmirrored.isEmpty then s
    else
      let s1 := s.bump F.PRL_MIRROR_SENT
      { s1 with prl := { s1.prl with unmirrored := s1.prl.unmirrored.drop 1 } }
  | .safe => failover 1 { s with prl := { s.prl with detected := s.dev.time } }
  | .handover es => takeEnvs false es { s with prl := { s.prl with detected := s.dev.time } }
  | .probe => pairReply s
  | .probeAnswer =>
    if s.prl.probing || s.prl.confirm then
      let s1 : State := { s with prl := { s.prl with probing := false, confirm := false } }
      if s.prl.hbSilent then hbSource true (faultEvent .prl 48 0 s1) else s1
    else s
  | .checkAsk => pairReply s
  | .checkAnswer id fh wh mode home =>
    { s.put F.PRL_PAIR_STS_PEER_ID id with prl := { s.prl with
        peerAnswered := true, peerFnHash := fh, peerWinHash := wh, peerMode := mode, peerHome := home } }
  | .syncBegin =>
    let s1 : State := { s with prl := { s.prl with peerReady := true } }
    if s.get F.PRL_PAIR_STS_STATE = 0 && s.prl.ready && s.is F.PRL_CTL_PAIR_EN then toSyncing s1 else s1
  | .syncDone own =>
    if s.get F.PRL_PAIR_STS_STATE = 1 then { s with prl := { s.prl with gotSync := true, peerOwn := own } } else s

/-- A heartbeat edge on `PAIR_HB_IN` (R407). -/
def hbEdge (level : Bool) (s : State) : State :=
  let s1 : State := { s.put F.PRL_PAIR_STS_HB_OK 1 with
    pins := { s.pins with hbIn := level }
    prl := { s.prl with hbSilent := false, probing := false, confirm := false } }
  hbSource false s1

/-- No edge for TIMEOUT_US (R407): in PAIRED a probe is sent. -/
def hbSilence (s : State) : State :=
  let s1 := (s.put F.PRL_PAIR_STS_HB_OK 0).bump F.PRL_HB_MISSED
  let s2 : State := { s1 with prl := { s1.prl with hbSilent := true } }
  if s2.paired then pairReply { s2 with prl := { s2.prl with probing := true, detected := s.dev.time } } else s2

/-- The probe has no answer within CONFIRM_US: a failover, after a further 2 ms on the bridge strapped `PAIR_ID` 1. -/
def probeSilent (s : State) : State :=
  if !s.prl.probing then s
  else if s.pins.pairId % 2 = 0 then failover 2 s
  else { s with prl := { s.prl with probing := false, confirm := true } }

/-- The further 2 ms have passed with both silent. -/
def confirmDelay (s : State) : State := if s.prl.confirm then failover 2 s else s

end Sys2Proof.Machine
end

