-- ==== Sys2Proof/Machine/Checks.lean ====
section
/-! DEFINITION. The consistency checks (R71 to R73): for each enable bit or checked register, the first reason that refuses it and
the offending object; and what a pass does (R62 aside, which the image loader applies). -/
namespace Sys2Proof.Machine

open Sys2Proof

/-- Reason code and object of a refusal. -/
abbrev Refusal? := Option (Nat × Nat)

/-- The first refusal of a list of conditions with reasons and objects. -/
def firstBad (l : List (Bool × Nat × Nat)) : Refusal? := (l.find? fun x => x.1).map (·.2)

/-! ### DEV, HEP -/

/-- `DEV_CTL.ENABLE`: the first core block that is not enabled. -/
def checkDev (s : State) : Refusal? :=
  firstBad [(!s.is F.HEP_CTL_ENABLE, 1, 4), (!s.is F.WXL_CTL_ENABLE, 1, 5), (!s.is F.QEN_CTL_ENABLE, 1, 6), (!s.is F.SPL_CTL_ENABLE, 1, 7),
    (!s.is F.SWC_CTL_ENABLE, 1, 8), (!s.is F.ICU_CTL_ENABLE, 1, 11), (!s.is F.HBM_CTL_ENABLE, 1, 13)]

/-- Whether a window mode byte and its LOG2 conflict (R81). -/
def barBad (m l : Nat) : Bool :=
  m % 4 == 3 || ((m % 4 == 1 || m % 4 == 2) && (decide (l < 16) || decide (44 < l))) || (m % 4 == 0 && l != 0)
    || (m % 4 != 0 && m / 4 % 2 == 0 && decide (30 < l))

/-- Whether PF entry `p` breaks the BAR rules. -/
def State.pfBarBad (s : State) (p : Nat) : Bool :=
  let x := s.pfEnt p
  barBad x.bar2Mode x.bar2Log2 || barBad x.bar4Mode x.bar4Log2 || barBad x.vfBar2Mode x.vfBar2Log2 || (p == 0 && x.bar2Mode != 0)

/-- First function whose MSI-X table breaks the pool (R81). -/
def State.msixBad (s : State) (f sum : Nat) (n : Nat) : Option Nat :=
  match n with
  | 0 => none
  | n + 1 =>
    let z := sum + s.fnMsix f + 1
    if 2047 < s.fnMsix f || 65536 < z then some f else s.msixBad (f + 1) z n

/-- `HEP_CTL.ENABLE` (R81). -/
def checkHep (s : State) : Refusal? :=
  let busy := if (s.pfEnt 0).totalVfs != 0 then some 0
    else (List.range 8).find? fun p => decide (2040 < s.vfBase (p + 1))
  match busy with
  | some p => some (0x12, p)
  | none =>
    match (List.range 8).find? s.pfBarBad with
    | some p => some (0x11, p)
    | none =>
      match s.msixBad 0 0 s.fnCount with
      | some f => some (0x13, f)
      | none => if cfgWidth s.cfg < s.get F.HEP_LINK_CTL_MAX_WIDTH then some (0x14, 0) else none

/-! ### WXL (Table 6.5) -/

/-- `WXL_CTL.ENABLE`. -/
def checkWxl (s : State) : Refusal? :=
  if s.inPart 2 (s.get F.WXL_TBL_BASE_BASE * 65536) (8 * s.get F.WXL_TBL_SIZE_ENTRIES) then none else some (0x23, 0)

/-- An inbound window. -/
def checkIwin (w : Nat) (s : State) : Refusal? :=
  let z := 2 ^ s.get (F.WXL_IWIN_CTL_LOG2 w)
  let pf := s.is (F.WXL_IWIN_CTL_PF w)
  let pref := s.is (F.WXL_IWIN_CTL_PREF w)
  if s.winXlt w then
    let i := s.get (F.WXL_IWIN_BASE_INDEX w)
    let bad := s.xt.any fun e => decide (i ≤ e.1) && decide (e.1 < i + z / 65536) && fieldOf e.2 0 1 == 1 && fieldOf e.2 4 1 == 1
      && (pref || fieldOf e.2 3 1 == 1)
    firstBad [(decide (s.get F.WXL_TBL_SIZE_ENTRIES < i + z / 65536), 0x23, w), (bad, 0x22, w)]
  else
    let b := s.get (F.WXL_IWIN_BASE_BASE w) * 65536
    firstBad [(b % z != 0 || !daValid b z || decide (8 ≤ daT b), 0x24, w), (s.is (F.WXL_IWIN_CTL_SE w) && (pf || pref), 0x22, w)]

/-- Max PASID Width of a function's PF; 0 without the capability. -/
def State.pasidWidth (s : State) (f : Nat) : Nat :=
  let x := s.pfEnt (s.pfIdx f)
  if bitOf x.flags 1 then min 20 x.pasidWidth else 0

/-- An outbound window. -/
def checkOwin (m : Nat) (s : State) : Refusal? :=
  let l := s.get (F.WXL_OWIN_DA_LOG2 m)
  let lo := s.owinLo m
  let other := (s.listed 0x120000 0x140000 32).any fun k => k != m && s.is (F.WXL_OWIN_CTL_ENABLE k)
    && overlap lo (2 ^ l) (s.owinLo k) (2 ^ s.get (F.WXL_OWIN_DA_LOG2 k))
  let pw := s.pasidWidth (s.get (F.WXL_OWIN_CTL_FN m))
  firstBad [(decide (l < 12) || decide (44 < l) || lo % 2 ^ l != 0 || decide (2 ^ 44 < lo + 2 ^ l), 0x24, m), (other, 0x21, m),
    (s.is (F.WXL_OWIN_CTL_PASID_EN m) && (pw == 0 || decide (2 ^ pw ≤ s.get (F.WXL_OWIN_CTL_PASID m))), 0x25, m)]

/-- An envelope range. -/
def checkErng (g : Nat) (s : State) : Refusal? :=
  let l := s.get (F.WXL_ERNG_CTL_LOG2 g)
  let lo := s.erngLo g
  let other := (s.listed 0x140000 0x160000 16).any fun k => k != g && s.is (F.WXL_ERNG_CTL_ENABLE k)
    && s.get (F.WXL_ERNG_CTL_ENV k) != s.get (F.WXL_ERNG_CTL_ENV g) && overlap lo (2 ^ l) (s.erngLo k) (2 ^ s.get (F.WXL_ERNG_CTL_LOG2 k))
  firstBad [(decide (l < 16) || decide (44 < l) || lo % 2 ^ l != 0 || decide (7 < daT lo) || !daValid lo (2 ^ l)
      || (daT lo == 7 && !s.pinned (daOff lo) (2 ^ l)), 0x24, g), (other, 0x21, g)]

/-! ### QEN (R163), SPL (R200, R217) -/

/-- `QEN_CTL.ENABLE`. -/
def checkQen (s : State) : Refusal? :=
  match s.part 1 with
  | some (_, z) => if z < 512 * mib then some (0x31, 0) else none
  | none => some (0x31, 0)

/-- ENABLE of queue `q`. DEDUCED, log entry 47. -/
def checkQueue (q : Nat) (s : State) : Refusal? :=
  let e := s.cget q C.ENV
  let f := s.cget q C.OWNER_FN
  let l := s.cget q C.LOG2_ENTRIES
  let c := s.cget q C.CQ
  let env := !s.envDefined e || s.qblkEnv q != some e || (f != 0 && s.fnEnv f != some e)
  let bind := if s.isCq q then s.cget q C.IRQ_EN == 1 && decide (s.fnMsix f < s.cget q C.VECTOR)
    else !s.isCq c || s.qst c != 1 || s.cget c C.ENV != e || s.cget c C.BOUND == 65535
  firstBad [(env, 0x32, q), (decide (l < 4) || decide (16 < l), 0x33, q), (bind, 0x34, q)]

/-- Whether a step size breaks its range (R217). -/
def stepBad (b : Nat) : Bool := decide (b < 4096) || decide (262144 < b) || b % 4096 != 0

/-- Whether a bandwidth cap breaks its range (R200). -/
def capBad (c : Nat) : Bool := c == 0 || decide (1536 < c)

/-- Defined envelopes, ascending. -/
def State.envsDefined (s : State) : List Nat := envList.filter s.envDefined

/-- First envelope of a list at which the sum of SHAREs exceeds 1,000. -/
def State.shareOver (s : State) (sum : Nat) (l : List Nat) : Option Nat :=
  match l with
  | [] => none
  | e :: r =>
    let z := sum + s.get (F.ENV_CFG_SHARE e)
    if 1000 < z then some e else s.shareOver z r

/-- `SPL_CTL.ENABLE`. -/
def checkSpl (s : State) : Refusal? :=
  if stepBad (s.get F.SPL_STEP_BYTES) then some (0x42, 0)
  else match s.envsDefined.find? fun e => capBad (s.get (F.ENV_CFG_BW_CAP e)) with
    | some e => some (0x43, e)
    | none => (s.shareOver 0 s.envsDefined).map fun e => (0x41, e)

/-- `ENV_CFG[e]` with the value `v`. -/
def checkEnv (e : Nat) (v : Word) (s : State) : Refusal? :=
  let others := sumList ((s.envsDefined.filter fun k => k != e).map fun k => s.get (F.ENV_CFG_SHARE k))
  firstBad [(capBad (fieldOf v 32 11), 0x43, e), (decide (1000 < fieldOf v 16 10 + others), 0x41, e)]

/-! ### SWC (R221, R224, R238) -/

/-- Whether the ingress map of VC `v` of port block `p` breaks R221. -/
def State.inmapBad (s : State) (p v : Nat) : Bool :=
  let pc := s.get (F.SWC_INMAP_PCLASS (4 + p) v)
  let nc := s.get (F.SWC_INMAP_NPCLASS (4 + p) v)
  let priv := fun (c : Nat) => decide (4 ≤ c) && decide (c ≤ 6)
  !(pc == 2 || priv pc) || !(nc == 3 || priv nc || nc == 7) || (pc == 2 && priv nc) || (priv pc && nc == 3)
    || (decide (3 ≤ pc) && bitOf (s.get F.SWC_BUF_CFG_EVICT) (pc - 3))

/-- Whether the egress map of port block `p` breaks R221. -/
def State.outmapBad (s : State) (p : Nat) : Bool :=
  (List.range 8).any fun c =>
    let v := s.classVc p c
    decide (s.vcs p ≤ v) || (if c = 1 then !s.isRsp p v else s.isRsp p v)

/-- `SWC_CTL.ENABLE`. -/
def checkSwc (s : State) : Refusal? :=
  let ports := (List.range 7).filter s.hasPort
  let bad := ports.findSome? fun p =>
    match (List.range (s.vcs p)).find? (s.inmapBad p) with
    | some v => some (8 * (4 + p) + v)
    | none => if s.outmapBad p then some (8 * (4 + p)) else none
  match bad with
  | some o => some (0x51, o)
  | none =>
    let sum := sumList (s.switchPorts.map fun p => s.get (F.SWC_PORT_CFG_MIN_CELLS p)) + 512 + s.get F.SWC_BUF_CFG_MC_CELLS
    if s.get F.SWC_BUF_STS_CELLS < sum + 2048 then some (0x52, 0) else none

/-- `SWC_CTL.TAIL_EN`. -/
def checkTail (s : State) : Refusal? :=
  let l := s.get F.SWC_TAIL_SIZE_LOG2
  let b := s.get F.SWC_TAIL_BASE_BASE * 4096
  firstBad [(s.cfg == 0 || decide (l < 6) || decide (22 < l) || b % (64 * 2 ^ l) != 0 || !s.inPart 4 b (64 * 2 ^ l), 0x53, 0)]

/-! ### Ports (R267, R311, R414) -/

/-- Whether the VC count or roles of port `p` break R287. -/
def State.rolesBad (s : State) (p : Nat) : Bool :=
  let n := s.vcs p
  let r := s.get (F.LPn_PROTO_CFG_ROLES p)
  decide (n < 2) || (portLanes p == 8 && n != 2) || decide (2 ^ n ≤ r) || r % 2 ^ n == 0 || r % 2 ^ n == 2 ^ n - 1

/-- CTL.ENABLE of port block `p`. -/
def checkPort (p : Nat) (s : State) : Refusal? :=
  let g := s.get (F.LPn_GRACE_GRACE_MS p)
  if g < 1 || 2000 < g then some (0x65, p)
  else if s.img.ctoMs < g + 5 then some (0x62, p)
  else if s.rolesBad p then some (0x63, p)
  else ((List.range (s.vcs p)).find? fun v =>
    decide (s.kib p v * 1024 < ballastQ (s.rtt p) (s.get (F.LPn_LINK_CFG_MAX_WIDTH p)))).map fun v => (0x61, 8 * p + v)

/-- `PRL_CTL.PAIR_EN` (R414). -/
def checkPair (s : State) : Refusal? :=
  let up := s.is F.PRL_CTL_ENABLE && s.lst 6 == 3 && s.prl.peerAnswered
  let same := s.prl.peerFnHash == s.img.fnHash && s.prl.peerWinHash == s.img.winHash && s.prl.peerMode == s.img.pairMode
    && (List.range 16).all fun i => itemWord s.prl.peerHome i == s.reg (R.PRL_HOME i)
  firstBad [(up && s.get F.PRL_PAIR_STS_PEER_ID == s.pins.pairId % 2, 0xA3, 0), (!up, 0xA2, 0), (!same, 0xA1, 0)]

/-! ### ICU (R335), GDC (R355), HBM (R364), fault pages (R394) -/

/-- `ICU_SRC_CFG[n].ENABLE`. -/
def checkSrc (n : Nat) (s : State) : Refusal? :=
  let f := s.get (F.ICU_SRC_CFG_HOST_FN n)
  firstBad [(s.get (F.ICU_SRC_CFG_TARGETS n) == 0, 0x71, n),
    (bitOf (s.get (F.ICU_SRC_CFG_TARGETS n)) 8 && (!s.fnSlot f || decide (s.fnMsix f < s.get (F.ICU_SRC_CFG_HOST_VEC n))), 0x72, n)]

/-- `GDC_CORE_CTL[c].ENABLE`. -/
def checkCore (c : Nat) (s : State) : Refusal? :=
  let loading := s.is F.GDC_LOAD_CTL_ACTIVE && s.gdc.loadCore == c
  firstBad [(!s.is (F.GDC_CORE_STS_FW c) || loading, 0x81, c), (!s.coreDev c && !s.envDefined (s.get (F.GDC_CORE_CTL_ENV c)), 0x82, c)]

/-- Cores named in `GDC_CTL`.CORES. -/
def coresIn (v : Word) : List Nat := (List.range 8).filter fun c => bitOf (fieldOf v 8 8) c

/-- Whether two partitions share a byte; the partner cache counts as reaching 16 GiB. -/
def State.partOverlap (s : State) (j k : Nat) : Bool :=
  let sz := fun (i : Nat) (x : Nat × Nat) => if i = 6 then 2 ^ 34 - x.1 else x.2
  match s.part j, s.part k with
  | some a, some b => overlap a.1 (sz j a) b.1 (sz k b)
  | _, _ => false

/-- The KIND with the higher base of the first pair of partitions that overlap. -/
def State.overlapKind (s : State) : Option Nat :=
  [(1, 2), (1, 3), (1, 4), (1, 5), (1, 6), (2, 3), (2, 4), (2, 5), (2, 6), (3, 4), (3, 5), (3, 6), (4, 5), (4, 6), (5, 6)].findSome?
    fun x => if s.partOverlap x.1 x.2 then
      some (if s.get (F.HBM_PART_BASE_MIB x.1) < s.get (F.HBM_PART_BASE_MIB x.2) then x.2 else x.1) else none

/-- Whether the map fits the trained pseudo-channels (R364). -/
def State.placeable (s : State) : Bool :=
  let c := s.hbmCap
  [1, 2, 3, 4, 5].all (fun k => match s.part k with
    | some (b, z) => decide (b + z ≤ c)
    | none => true) &&
  (match s.part 6 with
  | some (b, _) => s.cfg == 0 || decide (b + 12288 * mib ≤ c)
  | none => true)

/-- `HBM_CTL.ENABLE`. -/
def checkHbm (s : State) : Refusal? :=
  match s.overlapKind with
  | some k => some (0xB1, k)
  | none =>
    if (s.part 3).isNone then some (0xB2, 3)
    else if s.cfg != 0 && (match s.part 6 with
        | some (b, _) => decide (2 ^ 34 < b + 12288 * mib)
        | none => true) then some (0xB2, 6)
    else if s.placeable then none else some (0xB3, s.get F.HBM_STS_SET_N)

/-- `FLT_SRC_CFG[n]` with the value `v`. -/
def checkFltSrc (n : Nat) (v : Word) : Refusal? :=
  let w := fieldOf v 32 22
  firstBad [(fieldOf v 16 8 == 0 || w == 0 || decide (3600000 < w) || decide (fieldOf v 8 3 < fieldOf v 4 3), 0x91, n)]

/-- `FLT_GRACE` with the value `v`. -/
def checkGrace (v : Word) : Refusal? :=
  let out := fun (x lo hi : Nat) => decide (x < lo) || decide (hi < x)
  firstBad [(out (fieldOf v 0 16) 1 60000, 0x92, 3), (out (fieldOf v 16 16) 1 60000, 0x92, 4), (out (fieldOf v 32 16) 10 10000, 0x92, 5)]

/-! ### Where a result goes, and the check of a register -/

/-- Offset of a register within its fault page, where it lies in one. -/
def pageOff (off : Nat) : Option (Blk × Nat) :=
  match blockAt off with
  | some b => if 0xF000 ≤ off - b.base && off - b.base < 0x10000 then some (b, off - b.base - 0xF000) else none
  | none => none

/-- The `*_ENSTAT` register that the check of a register reports in; that of PWR reports to `DEV_ENSTAT` (Table 18.1). -/
def enstatOf (off : Nat) : Option Nat :=
  match blockAt off with
  | none => none
  | some b =>
    if (pageOff off).isSome then some (b.base + 0xF058)
    else match b with
      | .dev => some (b.base + 0x18)
      | .pwr => some R.DEV_ENSTAT
      | .img => none
      | .tth => none
      | _ => some (b.base + 8)

/-- Register array index. -/
def idx (off base stride : Nat) : Nat := (off - base) / stride

/-- The check of a register of a block outside the fault page. -/
def checkBlock (b : Blk) (c : Check) (s : State) : Refusal? :=
  let d := c.off - b.base
  match b with
  | .dev => checkDev s
  | .hep => checkHep s
  | .wxl => if d = 0 then checkWxl s else if d < 0x20000 then checkIwin (idx d 0x10000 16) s
    else if d < 0x40000 then checkOwin (idx d 0x20000 32) s else checkErng (idx d 0x40000 16) s
  | .qen => if d = 0 then checkQen s else checkQueue (c.val.toNat % 2 ^ 22) s
  | .spl => if d = 0 then checkSpl s
    else if d = 0x10 then (if stepBad (fieldOf c.val 0 19) then some (0x42, 0) else none)
    else checkEnv (idx d 0x10000 0x100) (if c.bit.isSome then s.reg c.off else c.val) s
  | .swc => if c.bit = some 1 then checkTail s else checkSwc s
  | .lp n => checkPort n s
  | .prl => if c.bit = some 2 then checkPair s else checkPort 6 s
  | .icu => if d = 0 then none else checkSrc (idx d 0x10000 8) s
  | .hbm => checkHbm s
  | .gdc => if d = 0 then (coresIn (s.reg R.GDC_CTL)).findSome? fun i => checkCore i s else checkCore (idx d 0x1000 0x40) s
  | _ => none

/-- The result of a check: a refusal, or none. -/
def checkResult (c : Check) (s : State) : Refusal? :=
  match pageOff c.off with
  | some (_, d) => if d = 0x30 then checkGrace c.val else checkFltSrc ((d - 0x100) / 8) (if c.bit.isSome then s.reg c.off else c.val)
  | none => match blockAt c.off with
    | some b => checkBlock b c s
    | none => none

/-! ### Passes -/

/-- Every counting window of a page is emptied (R379). -/
def fltEmpty (b : Blk) (s : State) : State :=
  (List.range 64).foldl (fun t i => t.put (F.FLT_SRC_CNT_WIN_CNT b.base i) 0) s

/-- Capture begins (R235 to R238). -/
def tailBegin (s : State) : State :=
  { (s.put F.SWC_TAIL_WR_INDEX 0).put F.SWC_TAIL_RD_INDEX 0 with swc := { s.swc with tailRun := true, tailCnt := [], tailSeq := 0, tailLost := 0, staged := [] } }

/-- What follows in a block once an enable bit has set. -/
def passBlock (b : Blk) (c : Check) (s : State) : State :=
  let d := c.off - b.base
  match b with
  | .dev => if s.dev.mode == .config then enterRun (fltEmpty b s) else s
  | .hep => icuOfferAll (fltEmpty b s)
  | .wxl => if d = 0 then fltEmpty b s else if d < 0x20000 then retrain (idx d 0x10000 16) s else s
  | .qen => if d = 0 then fltEmpty b s
    else
      let q := c.val.toNat % 2 ^ 22
      qResume q (cmdFree q 0 0 (enableQueue q s))
  | .spl => if d = 0 then fltEmpty b s else if d = 0x10 then s else if c.bit.isSome then envBegin (idx d 0x10000 0x100) s else s
  | .swc => if c.bit = some 1 then tailBegin s else fltEmpty b s
  | .lp n => portTry1 n (fltEmpty b s)
  | .prl => if c.bit = some 2 then pairReady s else portTry1 6 (fltEmpty b s)
  | .icu => if d = 0 then icuOfferAll (fltEmpty b s) else icuOffer (idx d 0x10000 8) s
  | .hbm => fltEmpty b s
  | .gdc => if d = 0 then
      (coresIn (s.reg R.GDC_CTL)).foldl (fun t i => coreStart i (t.put (F.GDC_CORE_CTL_ENABLE i) 1)) (fltEmpty b s)
    else coreStart (idx d 0x1000 0x40) s
  | _ => fltEmpty b s

/-- Whether two values of `FLT_SRC_CFG` have the same N and W. -/
def fltSame (a b : Word) : Bool := fieldOf a 16 8 == fieldOf b 16 8 && fieldOf a 32 22 == fieldOf b 32 22

/-- A check passes: the bit sets, or the whole value governs, and what follows from it. -/
def checkPass (c : Check) (s : State) : State :=
  match pageOff c.off with
  | some (b, d) =>
    if d = 0x30 then s.setReg c.off c.val
    else
      let s1 := match c.bit with
        | some i => (s.setReg c.off (withField (s.reg c.off) i 1 1)).put (F.FLT_SRC_CNT_WIN_CNT b.base ((d - 0x100) / 8)) 0
        | none =>
          let t := s.setReg c.off c.val
          if fltSame (s.reg c.off) c.val then t else t.put (F.FLT_SRC_CNT_WIN_CNT b.base ((d - 0x100) / 8)) 0
      irqSync 3 b s1
  | none =>
    match blockAt c.off with
    | none => s
    | some b =>
      if b == .qen && c.off != R.QEN_CTL then passBlock b c s
      else
        let s1 := match c.bit with
          | some i => s.setReg c.off (withField (s.reg c.off) i 1 1)
          | none => s.setReg c.off c.val
        passBlock b c s1

/-- A check refuses: the bit or value stays; a queue's command ends with the reason, and a repeated pair check ends the pair
(R163, R414). -/
def checkRefuse (c : Check) (reason : Nat) (s : State) : State :=
  match blockAt c.off with
  | some .qen =>
    if c.off = R.QEN_CTL || (pageOff c.off).isSome then s
    else
      let q := c.val.toNat % 2 ^ 22
      qResume q (cmdFree q 2 reason s)
  | some .prl => if c.bit = some 2 && s.is F.PRL_CTL_PAIR_EN then pairEnd s else s
  | _ => s

/-- The running check ends (R71). -/
def checkEnd (s : State) : State :=
  match s.checks with
  | [] => s
  | c :: rest =>
    let s1 : State := { s with checks := rest }
    let r := checkResult c s1
    let s2 := match enstatOf c.off with
      | none => s1
      | some e =>
        let more := rest.any fun k => enstatOf k.off == some e
        let obj := match r with
          | some (x, o) => x + o % 2 ^ 24 * 2 ^ 8 + 2 ^ 63
          | none => 0
        s1.setReg e (BitVec.ofNat 64 (obj + c.off % 2 ^ 26 * 2 ^ 32 + b2n more * 2 ^ 62))
    match r with
    | some (x, _) => checkRefuse c x s2
    | none => checkPass c s2

/-- A check is queued behind those that run (R71). DEDUCED, log entry 9. -/
def pushCheck (off : Nat) (v : Word) (bit : Option Nat) (s : State) : State :=
  let s1 : State := { s with checks := s.checks ++ [{ off := off, val := v, bit := bit }] }
  match enstatOf off with
  | some e => s1.setReg e (withField (s1.reg e) 62 1 1)
  | none => s1

end Sys2Proof.Machine
end

