-- ==== Sys2Proof/Machine/FaultOps.lean ====
section
/-! DEFINITION. Reactions of fault sources: retirement of what a targeted self-test fails (R387, R388), the fence at UNCORRECTED
(R389), SAFE at FATAL (R390), the quiet clear (R391) (spec/16, with R123, R166, R180, R239, R339, R373). -/
namespace Sys2Proof.Machine

open Sys2Proof

/-! ### Retirements -/

/-- An SRAM bank of SPL, HEP or ICU: one spare for each 32 banks (Table 16.3). DEDUCED, log entry 68. -/
def sramRetire (b : Blk) (bank : Nat) (s : State) : State :=
  let l := KMap.get s.sram [] b.bit
  if l.contains bank then s
  else
    let s1 : State := { s with sram := KMap.set s.sram [] b.bit (l ++ [bank]) }
    if l.any (fun k => k / 32 == bank / 32) then reduceService s1 else s1

/-- A bank of the switch buffer, 256 to 263 the spares (R239). DEDUCED, log entry 67. -/
def swcRetire (k : Nat) (s : State) : State :=
  if s.swc.banksDead.contains k then s
  else
    let g := if k < 256 then k / 32 else k - 256
    let s1 := { s with swc := { s.swc with banksDead := s.swc.banksDead ++ [k] } }.bump F.SWC_BUF_STS_RETIRED
    if s.swc.spares.getD g 0 = 1 then
      let sp := s.swc.spares.set g 0
      { s1 with swc := { s1.swc with spares := sp } }.put F.SWC_BUF_STS_SPARES (sumList sp)
    else
      let s2 := reduceService { s1 with swc := { s1.swc with banksOut := s1.swc.banksOut ++ [k] } }
      if s2.sharedSize < 2048 + 128 * s2.swc.banksOut.length then faultEvent .swc 2 0 s2 else s2

/-- Elements of a list, most recently used first, that stay when each set (keys modulo 4,096) keeps `n` of those that `pin` does
not hold. -/
def trimSets {α : Type} (n : Nat) (pin : Nat → Bool) (l : List (Nat × α)) : List (Nat × α) :=
  l.foldl (fun acc e =>
    if (pin e.1 || decide ((acc.filter fun k => k.1 % 4096 == e.1 % 4096).length < n)) then acc ++ [e] else acc) []

/-- A way of the translation cache (R123). -/
def tcRetire (k : Nat) (s : State) : State :=
  if s.wxl.waysOut.contains k then s
  else
    let s1 := { s with wxl := { s.wxl with waysOut := s.wxl.waysOut ++ [k] } }.put F.WXL_TC_STS_WAYS_RETIRED
      (min 8 (s.wxl.waysOut.length + 1))
    reduceService { s1 with wxl := { s1.wxl with tc := trimSets s1.tcWays (fun _ => false) s1.wxl.tc } }

/-- A way of the context cache: contexts beyond the ways left leave the cache (R166). -/
def ccRetire (k : Nat) (s : State) : State :=
  if s.qen.waysOut.contains k then s
  else
    let s1 := { s with qen := { s.qen with waysOut := s.qen.waysOut ++ [k] } }.put F.QEN_CC_STS_WAYS_RETIRED
      (min 16 (s.qen.waysOut.length + 1))
    let keep := trimSets s1.ctxWays s1.pinnedCtx s1.qen.cache
    let gone := s1.qen.cache.filter fun e => !keep.any fun k => k.1 == e.1
    reduceService (gone.foldl (fun t e => dropFetched e.1 t) { s1 with qen := { s1.qen with cache := keep } })

/-- A mover pipeline; the last one raises MOVER_PIPE to FATAL (R180). -/
def pipeRetire (k : Nat) (s : State) : State :=
  if !s.qen.pipes.contains k then s
  else
    let l := s.qen.pipes.filter fun p => p != k
    let s1 := reduceService ({ s with qen := { s.qen with pipes := l } }.put F.QEN_MOVER_STS_PIPES l.length)
    if l.isEmpty then faultRaise .qen 4 k 5 s1 else s1

/-- Core `c` is retired for a TCM bank without spare (R339, R354). -/
def coreRetire (c : Nat) (s : State) : State :=
  if s.get (F.GDC_CORE_STS_STATE c) = 4 then s
  else reduceService (faultEvent .gdc 3 c (coreLeave c 4 3 (s.put (F.GDC_CORE_CTL_ENABLE c) 0)))

/-- A TCM bank, 32 the spare, of the core that FLT_FIRST_INFO names (R339). -/
def tcmRetire (info : Nat) (s : State) : State :=
  let c := info / 65536 % 8
  let l := KMap.get s.gdc.tcmOut [] c
  if l.contains (info % 64) then s
  else
    let s1 : State := { s with gdc := { s.gdc with tcmOut := KMap.set s.gdc.tcmOut [] c (l ++ [info % 64]) } }
    if l.isEmpty then s1 else coreRetire c s1

/-- An L2 bank (R339). -/
def l2Retire (bank : Nat) (s : State) : State :=
  if s.gdc.l2Out.contains bank then s
  else
    let s1 : State := { s with gdc := { s.gdc with l2Out := s.gdc.l2Out ++ [bank] } }
    let n := s.get F.GDC_STS_L2_SPARES
    if 0 < n then s1.put F.GDC_STS_L2_SPARES (n - 1) else reduceService (s1.bump F.GDC_STS_L2_RETIRED)

/-- A pseudo-channel at run time (R373). -/
def hbmRetire (p : Nat) (s : State) : State :=
  if s.hbm.out.contains p then s
  else
    let s1 : State := ({ s with hbm := { s.hbm with out := s.hbm.out ++ [p] } }.put (F.HBM_PC_STS_STATE p) 3).put F.HBM_STS_RETIRED
      (bitSet (s.get F.HBM_STS_RETIRED) p)
    let gone := s1.wxl.pc.filter fun l => s1.pcLinePc (s1.pcSet l.da) l.way == p
    let s2 := pcDrop (fun l => gone.any fun g => g.da == l.da) s1
    let s3 : State := { s2 with wxl := { s2.wxl with flushing := s2.wxl.flushing.filter fun d => !gone.any fun g => g.da == d } }
    reduceService (faultEvent .hbm 4 p s3)

/-- What the failed test of a source's resource retires (Table 16.3). DEDUCED, log entry 68. -/
def retireRes (b : Blk) (id res : Nat) (s : State) : State :=
  match b, id with
  | .swc, 0 => swcRetire res s
  | .hep, 2 => sramRetire .hep res s
  | .icu, 0 => sramRetire .icu res s
  | .spl, 0 => sramRetire .spl res s
  | .wxl, 0 => tcRetire res s
  | .qen, 0 => ccRetire res s
  | .qen, 4 => pipeRetire res s
  | .gdc, 0 => tcmRetire res s
  | .gdc, 1 => l2Retire res s
  | .hbm, 3 => hbmRetire res s
  | _, _ => s

/-- The end of a targeted self-test that no row of its own covers (R387). -/
def selfTested (b : Blk) (id : Nat) (pass : Bool) (s : State) : State :=
  let own := match b with
    | .lp _ => true
    | .prl => true
    | .hbm => true
    | _ => false
  if own || 64 ≤ id || !s.is (F.FLT_SRC_CNT_TESTING b.base id) then s
  else
    let x := s.fltOf b id
    let res := x.test
    let s0 := testDone b id pass (s.setFlt b id { x with more := x.more.drop 1 })
    let s1 := match x.more with
      | r :: _ => startTest b id r s0
      | [] => s0
    let s2 : State := if b == .qen && id == 4 && !x.more.contains res then { s1 with qen := { s1.qen with ptest := s1.qen.ptest.filter fun p => p != res } } else s1
    if pass then s2 else retireRes b id res s2

/-! ### Reactions (Table 16.2) -/

/-- Fence of the unit that a raising event names (Table 16.4). -/
def fenceUnit (b : Blk) (id info : Nat) (s : State) : State :=
  match b, id with
  | .lp n, _ => if s.portOn n then portDisable n s else s
  | .prl, _ => if s.portOn 6 then portDisable 6 s else s
  | .swc, 0 => swcRetire info s
  | .wxl, 0 => tcRetire info s
  | .qen, 0 => ccRetire info s
  | .qen, 4 => pipeRetire info s
  | .hbm, 3 => hbmRetire info s
  | .hbm, 4 => hbmRetire info s
  | .gdc, 0 =>
    let c := info / 65536 % 8
    if s.is (F.GDC_CORE_CTL_ENABLE c) then coreLeave c 0 0 (s.put (F.GDC_CORE_CTL_ENABLE c) 0) else s
  | .gdc, k =>
    let c := info % 8
    if (k == 2 || k == 3) && s.is (F.GDC_CORE_CTL_ENABLE c) then coreLeave c 0 0 (s.put (F.GDC_CORE_CTL_ENABLE c) 0) else s
  | _, _ => s

/-- The targeted test at a DEGRADED expiry, where the raising event names a testable resource. -/
def degradedTest (b : Blk) (id info : Nat) (s : State) : State :=
  match b with
  | .lp n => if id < 16 then laneTestDue n id s else s
  | .prl => if id < 16 then laneTestDue 6 id s else s
  | .hbm => if id = 3 then startTest .hbm 3 info { s with hbm := { s.hbm with pcTests := s.hbm.pcTests ++ [info] } } else s
  | _ => if testsEveryEvent b id then startTest b id info s else s

/-- A source's grace ends, with the reaction of the level it holds (R384, R386). In BOOT the reactions below FATAL wait; in SAFE
there are none. DEDUCED, log entry 109. -/
def graceEnd (b : Blk) (id : Nat) (s : State) : State :=
  let lvl := s.get (F.FLT_SRC_CNT_LEVEL b.base id)
  let x := s.fltOf b id
  if 64 ≤ id || !s.is (F.FLT_SRC_CNT_GRACE b.base id) || (s.dev.mode == .boot && lvl != 5) then s
  else
    let s1 := s.put (F.FLT_SRC_CNT_GRACE b.base id) 0
    if s.dev.mode == .safe then s1
    else if lvl = 5 then enterSafe b.id s1
    else if lvl = 4 then
      let s2 := reduceService (fenceUnit b id x.info s1)
      s2.setFlt b id { s2.fltOf b id with last := s.dev.time }
    else if lvl = 3 then degradedTest b id x.info s1
    else s1

/-- A source clears: LEVEL, ACTIVE, ACK_PEND 0, its window empty (R391). -/
def faultClear (b : Blk) (id : Nat) (s : State) : State :=
  irqSync 3 b ((((s.put (F.FLT_SRC_CNT_LEVEL b.base id) 0).put (F.FLT_SRC_CNT_ACTIVE b.base id) 0).put
    (F.FLT_SRC_CNT_ACK_PEND b.base id) 0).put (F.FLT_SRC_CNT_WIN_CNT b.base id) 0)

/-- A source has been quiet for the page's period (R391). -/
def quietEnd (b : Blk) (id : Nat) (s : State) : State :=
  if 64 ≤ id || !s.is (F.FLT_SRC_CNT_ACTIVE b.base id) || s.get (F.FLT_SRC_CNT_LEVEL b.base id) = 5 || s.is (F.FLT_SRC_CNT_GRACE b.base id)
      || s.is (F.FLT_SRC_CNT_TESTING b.base id) then s
  else (faultClear b id s).bump (F.FLT_RECOV_COUNT b.base)

/-- `FLT_ACK` (R381, R382). -/
def faultAck (b : Blk) (v : Word) (s : State) : State :=
  if fieldOf v 9 1 = 1 then
    ((s.put (F.FLT_FIRST_VALID b.base) 0).put (F.FLT_OVF_OVF b.base) 0).put (F.FLT_OVF_COUNT b.base) 0
  else if fieldOf v 8 1 = 1 then
    irqSync 3 b ((List.range 64).foldl (fun t i => t.put (F.FLT_SRC_CNT_ACK_PEND b.base i) 0) s)
  else irqSync 3 b (s.put (F.FLT_SRC_CNT_ACK_PEND b.base (fieldOf v 0 6)) 0)

end Sys2Proof.Machine
end

