-- ==== Sys2Proof/Machine/CtlRules.lean ====
section
/-! DEFINITION. When a control-space write is ignored and recorded as a NOTICE (R6, R8, R9, R68, R72 and the rules of the owning
chapters): the register at an offset, its enable bits, the modes that accept it, what is locked while enabled. -/
namespace Sys2Proof.Machine

open Sys2Proof

/-! ### The register at an offset -/

/-- The register (array) that holds a control-space offset; none for reserved offsets, for blocks outside the configuration (R20),
for fault sources that the block does not list and for windows without a BAR (R116). -/
def State.regDef (s : State) (off : Nat) : Option RegDef :=
  match blockAt off with
  | none => none
  | some b =>
    let d := off - b.base
    if !s.hasBlk b then none
    else if 0xF000 ≤ d && d < 0x10000 then
      let e := d - 0xF000
      let src := if 0x100 ≤ e && e < 0x300 then srcLevel b ((e - 0x100) / 8)
        else if 0x800 ≤ e && e < 0xA00 then srcLevel b ((e - 0x800) / 8) else 1
      if src = 0 then none else RegTable.flt.find? fun r => r.covers e
    else if b == .wxl && decide (0x10000 ≤ d) && decide (d < 0x20000) && s.get (F.WXL_IWIN_CTL_MODE (idx d 0x10000 16)) == 0 then none
    else (blockRegs b).find? fun r => r.covers d

/-- Bits of the fields of a register whose access type satisfies `p`. -/
def RegDef.bits (r : RegDef) (p : Acc → Bool) : Word :=
  r.fields.foldl (fun m f => if p f.acc then m ||| fieldMask f.lo f.w else m) 0

/-- Bits of every field that is not RSV. -/
def RegDef.known (r : RegDef) : Word := r.bits fun a => a != .rsv

/-- Whether some field of a register can be written (R62). -/
def RegDef.writable (r : RegDef) : Bool := r.bits (fun a => !(a == .ro || a == .rc || a == .rsv)) != 0

/-- Whether a value places a reserved encoding in an RW field (R8). -/
def RegDef.reserved (r : RegDef) (v : Word) : Bool :=
  r.fields.any fun f => f.acc == .rw && !f.legal.isEmpty &&
    !f.legal.any fun l => decide (l.1 ≤ fieldOf v f.lo f.w) && decide (fieldOf v f.lo f.w ≤ l.2)

/-- Enable bits of the register at block offset `d` (R71). -/
def enBits (b : Blk) (d : Nat) : List Nat :=
  if 0xF100 ≤ d && d < 0xF300 then [0]
  else if 0xF000 ≤ d && d < 0x10000 then []
  else match b with
    | .img => []
    | .tth => []
    | .swc => if d = 0 then [0, 1] else []
    | .prl => if d = 0 then [0, 2] else []
    | .wxl => if d = 0 then [0] else if d < 0x10000 then []
        else if d < 0x20000 then (if d % 16 = 0 then [0] else []) else if d < 0x40000 then (if d % 32 = 0 then [0] else [])
        else if d % 16 = 0 then [0] else []
    | .spl => if d = 0 || (0x10000 ≤ d && d % 0x100 = 0) then [0] else []
    | .icu => if d = 0 || (0x10000 ≤ d && d < 0x12000) then [0] else []
    | .gdc => if d = 0 || (0x1000 ≤ d && d < 0x1200 && d % 0x40 = 0) then [0] else []
    | _ => if d = 0 then [0] else []

/-- Bits of a word as a mask. -/
def bitsMask (l : List Nat) : Word := l.foldl (fun m i => m ||| BitVec.ofNat 64 (1 <<< i)) 0

/-- The value that a write would place: fields that a mode of the register makes RSV or RO keep 0 or their value (R117, Tables 6.2
and 13.2). DEDUCED, log entry 34. -/
def State.shaped (s : State) (b : Blk) (d : Nat) (v : Word) : Word :=
  match b with
  | .wxl =>
    if d = 0x18 then v &&& ~~~ 0x1FFF
    else if 0x10000 ≤ d && d < 0x20000 && d % 16 = 8 then
      let w := idx d 0x10000 16
      if s.winXlt w then BitVec.ofNat 64 (fieldOf v 0 28 / 2 ^ (s.get (F.WXL_IWIN_CTL_LOG2 w) - 16) * 2 ^ (s.get (F.WXL_IWIN_CTL_LOG2 w) - 16))
      else v &&& fieldMask 16 32
    else v
  | .icu => if 0x10000 ≤ d && d < 0x10800 then withField v 3 1 (fieldOf (s.reg (b.base + d)) 3 1) else v
  | _ => v

/-! ### Modes -/

/-- Whether a register accepts writes in a mode (the owning chapters' write rules; R396 for fault pages). -/
def modeTakes (b : Blk) (d : Nat) (m : Mode) (v : Word) : Bool :=
  if 0xF000 ≤ d && d < 0x10000 then true
  else match b with
    | .img => true
    | .tth => true
    | .pwr => m == .config || m.running
    | .qen => (m == .config || m.serving) || (m == .safe && ((decide (0x1000 ≤ d) && d % 0x100 == 0 && fieldOf v 32 4 == 1)
        || (decide (0x1000 ≤ d) && decide (0x80 ≤ d % 0x100))))
    | .hep => m == .config || m.serving
    | .wxl => m == .config || m.serving
    | .spl => m == .config || m.serving
    | .swc => m == .config || m.serving
    | .hbm => m == .config || m.serving
    | _ => m.configured

/-- Whether a write would set an enable bit that SAFE does not take (R268, R355, R415). -/
def safeEnable (b : Blk) (d : Nat) (m : Mode) (old v : Word) : Bool :=
  let rise := fun (i : Nat) => fieldOf v i 1 == 1 && fieldOf old i 1 == 0
  m == .safe && (match b with
    | .lp _ => d == 0 && rise 0
    | .prl => d == 0 && (rise 0 || rise 2)
    | .gdc => d != 0 && (enBits b d).contains 0 && rise 0 && fieldOf v 2 1 == 0
    | _ => false)

/-! ### Locked fields (R72) -/

/-- Bits of the register at block offset `d` that its object's enable locks now. DEDUCED, log entry 70. -/
def State.locked (s : State) (b : Blk) (d : Nat) : Word :=
  let all : Word := BitVec.allOnes 64
  let rest : Word := ~~~ 1
  match b with
  | .wxl =>
    if d < 0x10000 then
      (if !s.wxlOn then 0 else if d = 0 then 0x74 else if d = 0x10 || d = 0x18 || d = 0x40 then all else 0)
    else if d < 0x20000 then
      (if s.is (F.WXL_IWIN_CTL_ENABLE (idx d 0x10000 16)) then (if d % 16 = 0 then rest else all) else 0)
    else if d < 0x40000 then
      (if s.is (F.WXL_OWIN_CTL_ENABLE (idx d 0x20000 32)) then (if d % 32 = 0 then rest else all) else 0)
    else (if s.is (F.WXL_ERNG_CTL_ENABLE (idx d 0x40000 16)) then (if d % 16 = 0 then rest else all) else 0)
  | .swc =>
    if !s.is F.SWC_CTL_ENABLE then 0
    else if d = 0x10 || (0x400 ≤ d && d < 0x700) then all
    else if 0x100 ≤ d && d < 0x158 then fieldMask 0 16 else 0
  | .lp n =>
    if s.portOn n && (d == 0x18 || d == 0x1000 || d == 0x1008 || d == 0x1010 || d == 0x1018 || d == 0x1020 || d == 0x1028) then all else 0
  | .prl =>
    if s.portOn 6 && (d == 0x10 || d == 0x18 || d == 0x1000 || d == 0x1008 || d == 0x1020 || d == 0x1028) then all else 0
  | .icu =>
    if 0x10000 ≤ d && d < 0x12000 then
      (if s.is F.ICU_CTL_ENABLE || s.is (F.ICU_SRC_CFG_ENABLE (idx d 0x10000 8)) then ~~~ 3 else 0)
    else 0
  | .gdc =>
    if 0x1000 ≤ d && d < 0x1200 then
      let c := idx d 0x1000 0x40
      if s.get (F.GDC_CORE_STS_STATE c) = 0 then 0 else if d % 0x40 = 0 then ~~~ 3 else all
    else 0
  | _ => 0

/-! ### Grounds of the owning chapters -/

/-- Whether OP and WIDTH of a link command make it one that is ignored and recorded (R268). -/
def State.linkBad (s : State) (p op w : Nat) : Bool :=
  op != 0 && (s.is (F.LPn_LINK_STS_CMD_BUSY p) || !((op == 1 && s.lst p == 3)
    || (op == 2 && s.lst p == 3 && (w == 1 || w == 2 || w == 4 || w == 8 || w == 16)) || (op == 3 && s.lst p == 0)))

/-- Whether a block of queues holds a queue that is not DISABLED. -/
def State.qblkBusy (s : State) (b : Nat) : Bool := !(s.queuesWhere fun q => q / 1024 == b).isEmpty

/-- Whether a write of `ENV_QBLK[i]` is ignored (R199). -/
def State.qblkBad (s : State) (i : Nat) (v : Word) : Bool :=
  (List.range 4).any fun j =>
    let o := s.reg (R.ENV_QBLK i)
    let same := fieldOf o (16 * j) 10 == fieldOf v (16 * j) 10 && fieldOf o (16 * j + 15) 1 == fieldOf v (16 * j + 15) 1
    !same && (s.qblkBusy (4 * i + j) || (fieldOf v (16 * j + 15) 1 == 1 && !s.envDefined (fieldOf v (16 * j) 10)))

/-- Whether envelope `e` may not be undefined (R200). -/
def State.envInUse (s : State) (e : Nat) : Bool :=
  ((List.range (8 + s.vfBase 8)).any fun f => s.fnSlot f && s.fnEnv f == some e)
    || !(s.queuesWhere fun q => s.cget q C.ENV == e).isEmpty
    || ((s.listed 0x140000 0x160000 16).any fun g => s.is (F.WXL_ERNG_CTL_ENABLE g) && s.get (F.WXL_ERNG_CTL_ENV g) == e)
    || (List.range 8).any fun c => !s.coreDev c && s.get (F.GDC_CORE_CTL_ENV c) == e

/-- Whether the core that a load names may be loaded: DISABLED or HALTED (R352). -/
def State.loadable (s : State) (c : Nat) : Bool :=
  s.get (F.GDC_CORE_STS_STATE c) == 0 || s.get (F.GDC_CORE_STS_STATE c) == 3

/-- Core that the load in progress names. -/
def State.loadCore (s : State) : Nat := s.gdc.loadCore

/-- Whether the loader's offset lies beyond the TCM or the slice. -/
def State.loadBeyond (s : State) : Bool :=
  let o := 8 * s.get F.GDC_LOAD_ADDR_OFFSET
  if s.is F.GDC_LOAD_ADDR_DEST then (match s.slice with
    | some (_, z) => decide (z < o + 8)
    | none => true)
  else decide (0x40000 < o + 8)

/-- Whether a write to the loader is ignored (R352, R357). -/
def State.loaderBad (s : State) (d : Nat) (v : Word) : Bool :=
  let act := s.is F.GDC_LOAD_CTL_ACTIVE
  if d = 0x20 then
    let op := fieldOf v 4 2
    (op == 1 && (act || !s.loadable (fieldOf v 0 3))) || (decide (2 ≤ op) && (!act || fieldOf v 0 3 != s.loadCore))
  else if d = 0x30 then !act || s.loadBeyond
  else false

/-- Grounds in a fault page (R387, R394): offset `e` within the page. -/
def State.pageBad (s : State) (b : Blk) (e : Nat) (old v : Word) : Bool :=
  if 0x100 ≤ e && e < 0x300 then
    let n := (e - 0x100) / 8
    let drop := fieldOf old 0 1 == 1 && fieldOf v 0 1 == 0
    decide (fieldOf v 4 3 < srcLevel b n) || decide (5 < fieldOf v 4 3) || decide (5 < fieldOf v 8 3)
      || (drop && (srcLevel b n == 5 || decide (3 ≤ s.get (F.FLT_SRC_CNT_LEVEL b.base n))))
  else if e = 0x50 then fieldOf v 2 1 == 1 && !(decide (srcLevel b (fieldOf v 8 6) != 0) && s.is (F.FLT_SRC_CNT_GRACE b.base (fieldOf v 8 6)))
  else false

/-- Grounds in the command slots of QEN (R162). DEDUCED, log entry 34. -/
def State.slotBad (s : State) (d : Nat) (v : Word) : Bool :=
  let k := idx d 0x1000 0x100
  if d < 0x1000 then false
  else if d % 0x100 = 0 then s.is (F.QEN_QCMD_STS_BUSY k) || fieldOf v 32 4 == 0 || decide (0xA ≤ fieldOf v 32 4)
  else s.is (F.QEN_QCMD_STS_BUSY k)

/-- Grounds of the owning chapter for the register at block offset `d`. -/
def State.chapterBad (s : State) (b : Blk) (d : Nat) (m : Mode) (old v : Word) : Bool :=
  let fall := fieldOf old 0 1 == 1 && fieldOf v 0 1 == 0
  let rise := fieldOf old 0 1 == 0 && fieldOf v 0 1 == 1
  let leave := d == 0 && fall && m != .config
  match b with
  | .img => s.is F.IMG_STS_BUSY
  | .pwr => d == 0x10 && decide (fieldOf v 0 6 ≤ fieldOf v 8 6)
  | .hep => leave || (d == 0x10 && s.is F.HEP_CTL_ENABLE && decide (cfgWidth s.cfg < fieldOf v 8 5))
  | .wxl => leave || (d == 0x18 && decide (2 ^ 28 < fieldOf v 0 29))
      || (d == 0x50 && (s.is F.WXL_PC_FLUSH_GO || fieldOf v 11 2 == 0 || fieldOf v 11 2 == 3))
      || (d != 0 && (enBits b d).contains 0 && rise && !s.wxlOn)
  | .qen => leave || s.slotBad d v
  | .spl => leave || (((decide (0x100 ≤ d) && decide (d < 0x180)) || d == 0x180) && s.is F.SPL_CTL_ENABLE && s.get F.SPL_CAL_STATE_STATE != 2)
      || (decide (0x8000 ≤ d) && decide (d < 0xA000) && s.qblkBad (idx d 0x8000 8) v)
      || (decide (0x10000 ≤ d) && d % 0x100 == 0 && fall && s.envInUse (idx d 0x10000 0x100))
  | .swc => leave || ((d == 0x700 || d == 0x708) && s.is F.SWC_CTL_TAIL_EN)
  | .lp n => (d == 0x10 && decide (portLanes n < fieldOf v 0 5)) || (d == 0x20 && s.linkBad n (fieldOf v 0 2) (fieldOf v 8 5))
      || (d == 0x1038 && !s.is (F.LPn_REARM_FENCED n)) || (d == 0x1060 && s.is (F.LPn_CFG_CMD_GO n))
  | .prl => d == 0x20 && s.linkBad 6 (fieldOf v 0 2) (fieldOf v 8 5)
  | .icu => leave || (decide (0x10000 ≤ d) && decide (d < 0x12000) && rise && !s.is F.ICU_CTL_ENABLE)
  | .gdc => s.loaderBad d v || (d != 0 && (enBits b d).contains 0 && rise &&
      (!s.is F.GDC_CTL_ENABLE || s.get (F.GDC_CORE_STS_STATE (idx d 0x1000 0x40)) == 4))
  | .hbm => leave
  | _ => false

/-- Whether a 64-bit write of `v` at `off` is ignored as a whole and recorded as a NOTICE, in mode `m`.
DEDUCED, log entry 10; DEDUCED, log entry 46. -/
def State.ctlRefused (s : State) (m : Mode) (off : Nat) (v : Word) : Bool :=
  match blockAt off, s.regDef off with
  | some b, some r =>
    let d := off - b.base
    let old := s.reg off
    if !r.writable then false
    else if 0xF000 ≤ d && d < 0x10000 then r.reserved v || s.pageBad b (d - 0xF000) old v
    else !modeTakes b d m v || r.reserved v || safeEnable b d m old v || s.chapterBad b d m old v
      || ((old ^^^ s.shaped b d v) &&& s.locked b d &&& r.bits (fun a => a == .rw)) != 0
  | _, _ => false

end Sys2Proof.Machine
end

