-- ==== Sys2Proof/Machine/CtlWrite.lean ====
section
/-! DEFINITION. What a control-space write does once it is taken: the value stored by the access types of R7, the enable bits and
their checks (R71), and the effects that the registers' descriptions state (spec/03 to spec/17). -/
namespace Sys2Proof.Machine

open Sys2Proof

/-! ### Storing (R7) -/

/-- The register after a plain write: RW fields take the value, RW1C bits written 1 clear, RW1S bits written 1 set; enable bits that
would rise keep 0. -/
def RegDef.store (r : RegDef) (en : Word) (old v : Word) : Word :=
  let rw := r.bits fun a => a == .rw
  let c := r.bits fun a => a == .w1c
  let st := r.bits fun a => a == .w1s
  let nv := (old &&& ~~~ rw) ||| (v &&& rw &&& ~~~ (en &&& ~~~ old))
  (nv &&& ~~~ (v &&& c)) ||| (v &&& st)

/-- A check is queued unless the same one waits already. DEDUCED, log entry 9. -/
def pushOnce (off : Nat) (v : Word) (bit : Option Nat) (s : State) : State :=
  if s.checks.any (fun c => c.off == off && c.bit == bit && bit.isSome) then s else pushCheck off v bit s

/-- One more NOTICE where a field of a write that is otherwise taken is ignored. -/
def noticeIf (c : Bool) (b : Blk) (off : Nat) (s : State) : State := if c then notice b off s else s

/-! ### DEV (R68) -/

/-- `DEV_CTL`: each field acts, or is ignored and recorded; transition 10 before 9, before the quiesce causes. -/
def devCtl (off : Nat) (old v : Word) (s : State) : State :=
  let m := s.dev.mode
  let one := fun (x : Word) (i : Nat) => fieldOf x i 1 == 1
  let s1 := s.put F.DEV_CTL_D3COLD_SLEEP (fieldOf v 3 1)
  let s2 := if one v 0 && !one old 0 then (if m == .config then pushOnce off v (some 0) s1 else notice .dev off s1)
    else noticeIf (!one v 0 && one old 0) .dev off s1
  let badQ := one v 1 && (m == .config || m == .safe)
  let s3 := noticeIf badQ .dev off s2
  let badS := one v 2 && !(m == .quiesce && s.is F.DEV_STS_DRAINED)
  let s4 := noticeIf badS .dev off s3
  let s5 := noticeIf (one v 4 && m == .safe) .dev off s4
  let s6 := if badQ then s5 else s5.put F.DEV_CTL_QUIESCE (fieldOf v 1 1)
  if one v 4 && m != .safe then enterSafe 0 s6
  else if one v 2 && !badS then enterTether s6
  else if one v 1 && !one old 1 && !badQ then quiesceSet 0 s6
  else if !one v 1 && one old 1 then quiesceClear 0 s6
  else s6

/-! ### IMG (R63) -/

/-- A flash operation ends at once with a reason; FLASH_OP is raised and source 56 fires. -/
def imgFail (reason : Nat) (s : State) : State :=
  icuEvent 56 (faultEvent .img 1 reason ((s.put F.IMG_STS_OP_FAIL 1).put F.IMG_STS_OP_REASON reason))

/-- `IMG_CTL`.OP starts a flash operation: 1 ERASE, 2 PROGRAM, 3 VERIFY. -/
def imgOp (op : Nat) (s : State) : State :=
  let copy := s.get F.IMG_CTL_COPY
  let a := s.get F.IMG_ADDR_ADDR
  if op = 0 then s
  else if op != 3 && copy == s.get F.IMG_STS_BOOTED && !s.is F.IMG_STS_OTHER_OK then imgFail 0x0A s
  else if (op = 1 && a % 65536 != 0) || (op = 2 && a % 256 != 0) then imgFail 0x0B s
  else
    let s1 := s.put F.IMG_STS_BUSY 1
    let s2 := if op != 3 && copy != s.get F.IMG_STS_BOOTED then s1.put F.IMG_STS_OTHER_OK 0 else s1
    { s2 with img := { s2.img with op := op, opCopy := copy } }.emit (.flash copy op a (s.get F.IMG_LEN_LEN))

/-! ### WXL (R137, R138, R143) -/

/-- `WXL_PC_FLUSH` starts: the dirty lines of the envelope, or of all, are written back, those of ports that carry write-backs at
once; clean lines are invalidated by OP 2. GO clears at once without a dirty line. -/
def flushStart (s : State) : State :=
  let mine := fun (l : PcLine) => s.is F.WXL_PC_FLUSH_ALL || l.env == s.get F.WXL_PC_FLUSH_ENV
  let dirty := s.wxl.pc.filter fun l => mine l && l.dirty
  let s1 := if s.get F.WXL_PC_FLUSH_OP = 2 then pcDrop (fun l => mine l && !l.dirty && !l.out) s else s
  if dirty.isEmpty then s1.put F.WXL_PC_FLUSH_GO 0
  else
    let up := dirty.filter fun l => s.pcPortUp l.da
    let s2 : State := { s1 with wxl := { s1.wxl with
      flushing := dirty.map (·.da)
      pc := s1.wxl.pc.map fun l => if up.any (fun k => k.da == l.da) then { l with out := true, dirty := false } else l } }
    up.foldl (fun t l => t.inject (wbFrame l)) s2

/-- `WXL_SEDISCARD_STS`.CLEAR. -/
def sediscardClr (s : State) : State :=
  ((List.range 16).foldl (fun t i => t.put (F.WXL_SEDISCARD_LOG_VALID i) 0) s).put F.WXL_SEDISCARD_STS_NEXT 0

/-- Every window returns to training (R137). -/
def retrainAll (s : State) : State := (s.listed 0x110000 0x120000 16).foldl (fun t w => retrain w t) s

/-! ### SPL (R211) -/

/-- The coefficients in force. -/
def State.coefs (s : State) : List Word := (List.range 16).map fun i => s.reg (R.SPL_COEF i)

/-- A new calibration window begins, with the present coefficients as reference. -/
def calWindow (s : State) : State :=
  { s.put F.SPL_CAL_STATE_INTERVALS 0 with spl := { s.spl with samples := [], refCoef := s.coefs, refOp := s.reg R.SPL_OPCOST } }

/-- CAL_RESTART: image or built-in coefficients, no window accepted, PROVISIONAL unless frozen. -/
def calReload (s : State) : State :=
  let s1 := ((List.range 16).foldl (fun t i => t.setReg (R.SPL_COEF i) (s.spl.imgCoef.getD i 0)) s).setReg R.SPL_OPCOST s.spl.imgOp
  let s2 := s1.put F.SPL_CAL_STATE_WINDOWS 0
  let s3 := if s2.is F.SPL_CTL_CAL_FREEZE then s2 else s2.put F.SPL_CAL_STATE_STATE 0
  calWindow { s3 with spl := { s3.spl with accepted := false } }

/-- `SPL_CTL` beside its ENABLE. -/
def splCtl (old v : Word) (s : State) : State :=
  let f0 := fieldOf old 2 1
  let f1 := fieldOf v 2 1
  let s1 := if f0 = 0 && f1 = 1 then s.put F.SPL_CAL_STATE_STATE 2
    else if f0 = 1 && f1 = 0 then calWindow (s.put F.SPL_CAL_STATE_STATE (b2n s.spl.accepted)) else s
  if fieldOf v 3 1 = 1 then calReload s1 else s1

/-! ### Ports (R256, R263, R297, R298, R310) -/

/-- `LPn_SLOT_CTL` (R263, R264): PWR_ON and the indicators are left alone by a running sequence, PWR_ON by a power fault. -/
def slotCtl (p off : Nat) (old v : Word) (s : State) : State :=
  let seq := s.get (F.LPn_SLOT_STS_SEQ p) != 0
  let fl := s.is (F.LPn_SLOT_STS_PWRFLT p)
  let chg := fieldOf old 0 1 != fieldOf v 0 1 || fieldOf old 2 4 != fieldOf v 2 4
  let badSeq := seq && chg
  let badFlt := !seq && fl && fieldOf v 0 1 == 1 && fieldOf old 0 1 == 0
  let s1 := noticeIf (badSeq || badFlt) (.lp p) off s
  let w := if seq then withField (withField v 0 1 (fieldOf old 0 1)) 2 4 (fieldOf old 2 4)
    else if badFlt then withField v 0 1 0 else v
  let s2 := s1.setReg off ((s1.reg off &&& 1) ||| (w &&& 0xF7C))
  let s3 := if fieldOf w 0 1 = 1 then portTry1 p (slotOn p s2) else slotOff p s2
  slotSync p s3

/-- The side-band event of port `p` follows CHG (R297). -/
def sbSync (p : Nat) (s : State) : State := icuLevel (40 + p) (s.get (F.LPn_SB_CHG p) != 0) s

/-- The posted-error event of port `p` follows the ring (R302). -/
def perrSync (p : Nat) (s : State) : State := icuLevel (48 + p) (s.get (F.LPn_PERR_STS_WR p) != s.get (F.LPn_PERR_STS_RD p)) s

/-- `LPn_SB`: OUT changes, with one MSG_SB a bit; in PAIR, bits 14 and 15 are the device's (R402). -/
def sbOut (p off : Nat) (old v : Word) (s : State) : State :=
  let o := fieldOf old 0 16
  let n := fieldOf v 0 16
  let pair := s.cfg == 3
  let s1 := noticeIf (pair && o / 2 ^ 14 != n / 2 ^ 14) (.lp p) off s
  let n' := if pair then n % 2 ^ 14 + o / 2 ^ 14 * 2 ^ 14 else n
  let s2 := s1.put (F.LPn_SB_OUT p) n'
  sbSync p (if (s2.port p).hasLl then sbChanges p o n' s2 else s2)

/-- `LPn_CFG_CMD`.GO sends one CFG packet, or answers 3 without a link (R298). -/
def cfgGo (p : Nat) (s : State) : State :=
  if !s.flits p then (s.put (F.LPn_CFG_CMD_GO p) 0).put (F.LPn_CFG_CMD_RESULT p) 3
  else
    let used := (s.port p).np.map (·.tag)
    let tag := ((List.range 4096).find? fun t => !used.contains t).getD 0
    let wr := s.is (F.LPn_CFG_CMD_WRITE p)
    let k : Pkt := { op := 0x0A, vc := s.reqVc p, env := 0, tag := tag, addr := s.get (F.LPn_CFG_CMD_OFFSET p) * 8 + b2n wr * 2 ^ 32,
                     len := b2n wr, status := 0, flags := 4, data := if wr then toBytes 8 (s.reg (R.LPn_CFG_DATA p)).toNat else [] }
    sendPkt p k (s.modPort p fun x => { x with cfgTag := some tag })

/-- `PRL_CTL` beside its enable bits (R409): HANDOVER and HANDBACK outside PAIRED are ignored and recorded. -/
def prlCtl (off : Nat) (old v : Word) (s : State) : State :=
  let bad := (fieldOf v 3 1 == 1 || fieldOf v 4 1 == 1) && !s.paired
  let s1 := noticeIf bad .prl off s
  let s2 := if fieldOf v 1 1 = 1 && fieldOf old 1 1 = 0 then holdDisable 6 s1 else s1
  let es := if fieldOf v 3 1 = 1 then s2.owned else if fieldOf v 4 1 = 1 then s2.owned.filter fun e => !s2.isHome e else []
  if bad || es.isEmpty then s2 else giveBegin es s2

/-! ### ICU (R322, R325) -/

/-- `ICU_SWI`: one event on source 128 + i for each bit. -/
def icuSwiAct (v : Word) (s : State) : State :=
  (List.range 64).foldl (fun t i => if fieldOf v i 1 = 1 then icuEvent (128 + i) t else t) s

/-- `ICU_COMPLETE[c]` ends core `c`'s claim on a source, or records what was named. -/
def icuDone (c n : Nat) (s : State) : State :=
  if n < 1024 && s.is (F.ICU_SRC_STS_CLAIMED n) && s.get (F.ICU_SRC_STS_CLAIMER n) == c then icuEndClaim n s
  else faultEvent .icu 4 (n % 2 ^ 11 + c * 2 ^ 11) s

/-- MASK and ENABLE of a source have changed. -/
def icuCfg (n : Nat) (old : Word) (s : State) : State :=
  let off := fieldOf old 0 1 == 1 && !s.is (F.ICU_SRC_CFG_ENABLE n)
  if (off || s.is (F.ICU_SRC_CFG_MASK n)) && s.is (F.ICU_SRC_STS_OFFERED n) then intaFall (icuWithdraw n s)
  else icuOffer n s

/-! ### GDC (R352 to R354) -/

/-- ENABLE of core `c` written 0: DISABLED at once, unless it is retired. DEDUCED, log entry 98. -/
def coreDisable (c : Nat) (s : State) : State :=
  let st := s.get (F.GDC_CORE_STS_STATE c)
  let s1 := s.put (F.GDC_CORE_CTL_ENABLE c) 0
  if st = 0 || st = 4 then s1 else coreLeave c 0 0 s1

/-- `GDC_LOAD_CTL`.OP. DEDUCED, log entry 97. -/
def loadOp (op c : Nat) (s : State) : State :=
  let x := s.coreOf s.loadCore
  if op = 1 then
    let s1 := ((s.put F.GDC_LOAD_CTL_ACTIVE 1).put (F.GDC_CORE_STS_FW c) 0).put (F.GDC_CORE_STS_FW_HOST c) 0
    { s1 with gdc := { s1.gdc with loadCore := c } }.setCore c { s1.coreOf c with loadLog := [], meas := 0 }
  else if op = 2 then
    (((s.put F.GDC_LOAD_CTL_ACTIVE 0).put (F.GDC_CORE_STS_FW s.loadCore) 1).put (F.GDC_CORE_STS_FW_HOST s.loadCore) 1).setCore s.loadCore
      { x with meas := Config.sha384 x.loadLog, loadLog := [] }
  else if op = 3 then
    ((s.put F.GDC_LOAD_CTL_ACTIVE 0).put (F.GDC_CORE_STS_FW s.loadCore) 0).setCore s.loadCore { x with loadLog := [] }
  else s

/-- A value written to `GDC_LOAD_ADDR` or `GDC_LOAD_DATA` during a load enters its measurement. -/
def loadMeas (v : Word) (s : State) : State :=
  if s.is F.GDC_LOAD_CTL_ACTIVE then
    let x := s.coreOf s.loadCore
    s.setCore s.loadCore { x with loadLog := x.loadLog ++ toBytes 8 v.toNat }
  else s

/-- Bytes written to the TCM of core `c`. -/
def tcmWrite (c a : Nat) (l : List Byte) (s : State) : State :=
  match l with
  | [] => s
  | b :: r => tcmWrite c (a + 1) r { s with tcm := KMap.set s.tcm 0 (0x40000 * c + a) b }

/-- `GDC_LOAD_DATA`: one word at OFFSET, which advances by 8. -/
def loadWord (v : Word) (s : State) : State :=
  let o := 8 * s.get F.GDC_LOAD_ADDR_OFFSET
  let c := s.loadCore
  let s1 := if s.is F.GDC_LOAD_ADDR_DEST then
      (match s.slice with
      | some (b, z) => s.hbmWrite (b + c * z + o) (toBytes 8 v.toNat)
      | none => s)
    else tcmWrite c o (toBytes 8 v.toNat) s
  loadMeas v (s1.put F.GDC_LOAD_ADDR_OFFSET (o / 8 + 1))

/-! ### Enable bits written 0 -/

/-- What follows an enable bit that is cleared. -/
def fallAct (b : Blk) (d i : Nat) (s : State) : State :=
  match b with
  | .wxl => if 0x10000 ≤ d && d < 0x20000 then (let w := idx d 0x10000 16; pfDiscard true (fun e => e.w == w) s) else s
  | .spl => if d = 0 then s else envEnd (idx d 0x10000 0x100) s
  | .lp n => portDisable n s
  | .prl => if i = 0 then portDisable 6 s else pairEnd s
  | .gdc => if d = 0 then (List.range 8).foldl (fun t c => coreDisable c t) s else coreDisable (idx d 0x1000 0x40) s
  | _ => s

/-- The enable bits of a register: checks for those that would rise, effects of those that fall. -/
def enableActs (b : Blk) (d off : Nat) (old v : Word) (s : State) : State :=
  (enBits b d).foldl (fun t i =>
    if fieldOf old i 1 = 0 && fieldOf v i 1 = 1 then pushOnce off v (some i) t
    else if fieldOf old i 1 = 1 && fieldOf v i 1 = 0 then fallAct b d i t else t) s

/-! ### Fault pages -/

/-- A write to offset `e` of the fault page of a block. -/
def pageWrite (b : Blk) (off e : Nat) (r : RegDef) (old v : Word) (s : State) : State :=
  if e = 0x28 then faultAck b v s
  else if e = 0x30 then pushCheck off (v &&& r.known) none s
  else if e = 0x50 then
    let s1 := s.put (F.FLT_SELFTEST_ID b.base) (fieldOf v 8 6)
    if fieldOf v 2 1 = 1 then graceEnd b (fieldOf v 8 6) s1 else s1
  else if 0x100 ≤ e && e < 0x300 then
    let n := (e - 0x100) / 8
    let on := fieldOf old 0 1 == 1
    let same := fltSame old v && fieldOf old 4 3 == fieldOf v 4 3 && fieldOf old 8 3 == fieldOf v 8 3
    if on && fieldOf v 0 1 == 1 && !same then pushCheck off (v &&& r.known) none s
    else
      let s1 := s.setReg off (r.store 1 old v)
      let s2 := if fltSame old v then s1 else s1.put (F.FLT_SRC_CNT_WIN_CNT b.base n) 0
      let s3 := if on && fieldOf v 0 1 == 0 && s2.is (F.FLT_SRC_CNT_ACTIVE b.base n) then faultClear b n s2 else s2
      let s4 := irqSync 3 b s3
      if !on && fieldOf v 0 1 == 1 then pushOnce off v (some 0) s4 else s4
  else s.setReg off (r.store 0 old v)

/-! ### Registers of the blocks -/

/-- What a register of a block does beside storing its value; `off` is its control-space offset, `s` holds the stored value. -/
def regActs (b : Blk) (d off : Nat) (old v : Word) (s : State) : State :=
  match b with
  | .img => if d = 0 then imgOp (fieldOf v 8 2) s else s
  | .hep => if d = 0 && fieldOf v 1 1 = 1 && fieldOf old 1 1 = 0 then hostRetrain s else s
  | .wxl =>
    if d = 0x30 then retrainAll s
    else if d = 0x50 then (if fieldOf v 63 1 = 1 then flushStart s else s)
    else if d = 0x180 then (if fieldOf v 4 1 = 1 then sediscardClr s else s)
    else s
  | .qen =>
    if 0x1000 ≤ d && d % 0x100 = 0 then
      let k := idx d 0x1000 0x100
      qArrive (fieldOf v 0 22) (.command k (fieldOf v 32 4)) (s.put (F.QEN_QCMD_STS_BUSY k) 1)
    else s
  | .spl => if d = 0 then splCtl old v s else s
  | .lp p =>
    if d = 0 then (if fieldOf v 1 1 = 1 && fieldOf old 1 1 = 0 then holdDisable p s else s)
    else if d = 0x10 || d = 0x1008 || d = 0x1020 || d = 0x1028 then rttSync p s
    else if d = 0x20 then linkCmd p off (fieldOf v 0 2) (fieldOf v 2 1 == 1) (fieldOf v 8 5) s
    else if d = 0x70 then portTry1 p (slotSync p s)
    else if d = 0x1038 then (if fieldOf v 0 1 = 1 then portRearmed p s else s)
    else if d = 0x1060 then (if fieldOf v 33 1 = 1 then cfgGo p s else s)
    else if d = 0x1078 then perrSync p s
    else s
  | .prl =>
    if d = 0 then
      let s1 := prlCtl off old v s
      if fieldOf old 2 1 = 0 && fieldOf v 2 1 = 1 && s1.flits 6 then
        pairPkt 0x0D 0 { s1 with prl := { s1.prl with peerAnswered := false } }
      else s1
    else if d = 0x10 || d = 0x1008 || d = 0x1020 || d = 0x1028 then rttSync 6 s
    else if d = 0x20 then linkCmd 6 off (fieldOf v 0 2) (fieldOf v 2 1 == 1) (fieldOf v 8 5) s
    else s
  | .icu =>
    if d = 0x20 then icuSwiAct v s
    else if 0x108 ≤ d && d < 0x188 && d % 16 = 8 then icuDone (idx d 0x108 16) (fieldOf v 0 11) s
    else if 0x10000 ≤ d && d < 0x12000 then icuCfg (idx d 0x10000 8) old s
    else s
  | .gdc =>
    if d = 0x20 then loadOp (fieldOf v 4 2) (fieldOf v 0 3) s
    else if d = 0x28 then loadMeas v s
    else if d = 0x30 then loadWord v s
    else if 0x1000 ≤ d && d < 0x1200 && d % 0x40 = 0 && fieldOf v 1 1 = 1 then
      let c := idx d 0x1000 0x40
      if s.get (F.GDC_CORE_STS_STATE c) = 1 then s.put (F.GDC_CORE_STS_STATE c) 2
      else s.put (F.GDC_CORE_CTL_QUIESCE c) (fieldOf old 1 1)
    else s
  | _ => s

/-- Whether the whole value of a register that governs is checked before it does (R200, R217). -/
def State.valueChecked (s : State) (b : Blk) (d : Nat) (old v : Word) : Bool :=
  b == .spl && ((d == 0x10 && s.is F.SPL_CTL_ENABLE) || (decide (0x10000 ≤ d) && d % 0x100 == 0 && fieldOf old 0 1 == 1
    && fieldOf v 0 1 == 1 && (old ^^^ v) &&& (fieldMask 16 10 ||| fieldMask 32 11 ||| fieldMask 48 16) != 0))

/-- A 64-bit write that is taken. DEDUCED, log entry 10. -/
def ctlTake (b : Blk) (off : Nat) (r : RegDef) (v0 : Word) (s : State) : State :=
  let d := off - b.base
  let old := s.reg off
  let v := s.shaped b d v0
  if 0xF000 ≤ d && d < 0x10000 then pageWrite b off (d - 0xF000) r old v s
  else if off = R.DEV_CTL then devCtl off old v s
  else if s.valueChecked b d old v then pushCheck off (v &&& r.known) none s
  else match b with
    | .lp p =>
      if d = 0x68 then slotCtl p off old v s
      else if d = 0x1070 then sbOut p off old v (s.setReg off (r.store 0 (s.reg off) (withField v 0 16 (fieldOf old 0 16))))
      else enableActs b d off old v (regActs b d off old v (s.setReg off (r.store (bitsMask (enBits b d)) old v)))
    | _ => enableActs b d off old v (regActs b d off old v (s.setReg off (r.store (bitsMask (enBits b d)) old v)))

/-! ### The write as it arrives (R6, R11, R20) -/

/-- Whether an agent reaches a block's region in the present mode (R11, R64, R70). -/
def State.reaches (s : State) (a : Agent) (b : Blk) : Bool :=
  s.dev.up && (if s.dev.mode.configured then true
    else s.dev.mode == .boot && a == .smbus && (b == .dev || b == .img || b == .pwr || b == .tth))

/-- An enable of a port block outside the configuration (R20, Table 3.13). -/
def absentEnable (off : Nat) (v : Word) (s : State) : State :=
  match blockAt off with
  | some (.lp n) =>
    if off = R.LPn_CTL n && fieldOf v 0 1 = 1 then
      s.setReg R.DEV_ENSTAT (BitVec.ofNat 64 (0x64 + n * 2 ^ 8 + off * 2 ^ 32 + 2 ^ 63 + b2n (s.is F.DEV_ENSTAT_BUSY) * 2 ^ 62))
    else s
  | _ => s

/-- A write to the TCM of a core: 64 bits wide, while the core is DISABLED (R357). -/
def tcmCtl (off : Nat) (v : Word) (width : Nat) (s : State) : State :=
  let o := off - 0x1600000
  let c := o / 0x40000
  if width = 64 && off % 8 = 0 && s.get (F.GDC_CORE_STS_STATE c) = 0 then tcmWrite c (o % 0x40000) (toBytes 8 v.toNat) s
  else notice .gdc off s

/-- A write of `v` at control-space offset `off`, `width` bits wide, by an agent. -/
def ctlWriteAs (a : Agent) (off : Nat) (v : Word) (width : Nat) (s : State) : State :=
  match blockAt off with
  | none => s
  | some b =>
    if !s.reaches a b then s
    else if !s.hasBlk b then absentEnable off v s
    else if 0x1600000 ≤ off && off < 0x1800000 then tcmCtl off v width s
    else
      match s.regDef (off / 8 * 8) with
      | none => s
      | some r =>
        if width != 64 || off % 8 != 0 then notice b (off / 8 * 8) s
        else if s.ctlRefused s.dev.mode off v then notice b off s
        else ctlTake b off r v s

/-- A write by an agent; a core that is not bound to the device faults (R11, R340). DESIGN CHOICE, log entry 8. -/
def ctlWriteBy (a : Agent) (off : Nat) (v : Word) (width : Nat) (s : State) : State :=
  match a with
  | .core c =>
    if 8 ≤ c || !s.coreOnline c then s
    else if s.coreDev c then ctlWriteAs a off v width s else coreFault c 2 7 (0x200000000 + off) s
  | .img => s
  | .fn _ => s
  | _ => ctlWriteAs a off v width s

end Sys2Proof.Machine
end

