-- ==== Sys2Proof/Machine/Faults.lean ====
section
/-! DEFINITION. The Faults commands: windows, graces, quiet periods, targeted self-tests, acknowledgement and the configuration of
sources (spec/16). A command's `b` is the block's bit in `DEV_FAULT_MAP` (Table 13.2), `id` a source of its fault page. -/
namespace Sys2Proof.Machine

open Sys2Proof

/-- `k` on block number `b`, where the configuration has that block (R397). -/
def withBlk (b : Nat) (k : Blk → State → State) (s : State) : State :=
  match Blk.all.find? fun x => x.bit == b with
  | some x => if s.dev.up && s.hasBlk x then k x s else s
  | none => s

/-- `k` on source `id` of block number `b`, where the block lists that source. -/
def withSource (b id : Nat) (k : Blk → State → State) (s : State) : State :=
  withBlk b (fun x t => if srcLevel x id = 0 then t else k x t) s

/-- A write of `v` at offset `e` of the fault page of block number `b`, by an agent. -/
def pageWriteBy (a : Agent) (b e : Nat) (v : Word) (s : State) : State :=
  match Blk.all.find? fun x => x.bit == b with
  | some x => ctlWriteBy a (x.base + 0xF000 + e) v 64 s
  | none => s

/-- FAULT_WINDOW_CLOSE: the counting window closes below N and empties (R379). -/
def doFaultWindowClose (b id : Nat) (s : State) : State :=
  withSource b id (fun x t => t.put (F.FLT_SRC_CNT_WIN_CNT x.base id) 0) s

/-- FAULT_GRACE_EXPIRY (R384, R386). DEDUCED, log entry 109. -/
def doFaultGraceExpiry (b id : Nat) (s : State) : State := withSource b id (fun x t => graceEnd x id t) s

/-- FAULT_QUIET_EXPIRY (R391). -/
def doFaultQuietExpiry (b id : Nat) (s : State) : State := withSource b id (fun x t => quietEnd x id t) s

/-- SELF_TEST_END (R387). -/
def doSelfTestEnd (b id : Nat) (pass : Bool) (s : State) : State := withSource b id (fun x t => selfTested x id pass t) s

/-- ACKNOWLEDGE: `FLT_ACK` written with ID `id`, ALL 0, REARM 0 (R381). -/
def doAcknowledge (a : Agent) (b id : Nat) (s : State) : State := pageWriteBy a b 0x28 (BitVec.ofNat 64 (id % 64)) s

/-- ACKNOWLEDGE_ALL: `FLT_ACK` written with ALL 1, REARM 0 (R381). -/
def doAcknowledgeAll (a : Agent) (b : Nat) (s : State) : State := pageWriteBy a b 0x28 0x100 s

/-- LATCH_REARM: `FLT_ACK` written with REARM 1 (R381, R382). -/
def doLatchRearm (a : Agent) (b : Nat) (s : State) : State := pageWriteBy a b 0x28 0x200 s

/-- SELFTEST_GO: `FLT_SELFTEST` written with GO 1 and ID `id` (R384). -/
def doSelftestGo (a : Agent) (b id : Nat) (s : State) : State :=
  pageWriteBy a b 0x50 (BitVec.ofNat 64 (4 + id % 64 * 256)) s

/-- SOURCE_CONFIG_WRITE: `FLT_SRC_CFG[id]` written (R394). -/
def doSourceConfigWrite (a : Agent) (b id : Nat) (v : Word) (s : State) : State :=
  if id < 64 then pageWriteBy a b (0x100 + 8 * id) v s else s

/-- GRACE_WRITE: `FLT_GRACE` written (R394). -/
def doGraceWrite (a : Agent) (b : Nat) (v : Word) (s : State) : State := pageWriteBy a b 0x30 v s

/-! ### The meanings -/

/-- FAULT_WINDOW_CLOSE. -/
def execFaultWindowClose (b id : Nat) (s : State) : Host.Outcome State Fault Refusal := .next (doFaultWindowClose b id s)
/-- FAULT_GRACE_EXPIRY. -/
def execFaultGraceExpiry (b id : Nat) (s : State) : Host.Outcome State Fault Refusal := .next (doFaultGraceExpiry b id s)
/-- FAULT_QUIET_EXPIRY. -/
def execFaultQuietExpiry (b id : Nat) (s : State) : Host.Outcome State Fault Refusal := .next (doFaultQuietExpiry b id s)
/-- SELF_TEST_END. -/
def execSelfTestEnd (b id : Nat) (pass : Bool) (s : State) : Host.Outcome State Fault Refusal := .next (doSelfTestEnd b id pass s)
/-- ACKNOWLEDGE. -/
def execAcknowledge (a : Agent) (b id : Nat) (s : State) : Host.Outcome State Fault Refusal := .next (doAcknowledge a b id s)
/-- ACKNOWLEDGE_ALL. -/
def execAcknowledgeAll (a : Agent) (b : Nat) (s : State) : Host.Outcome State Fault Refusal := .next (doAcknowledgeAll a b s)
/-- LATCH_REARM. -/
def execLatchRearm (a : Agent) (b : Nat) (s : State) : Host.Outcome State Fault Refusal := .next (doLatchRearm a b s)
/-- SELFTEST_GO. -/
def execSelftestGo (a : Agent) (b id : Nat) (s : State) : Host.Outcome State Fault Refusal := .next (doSelftestGo a b id s)
/-- SOURCE_CONFIG_WRITE. -/
def execSourceConfigWrite (a : Agent) (b id : Nat) (v : Word) (s : State) : Host.Outcome State Fault Refusal := .next (doSourceConfigWrite a b id v s)
/-- GRACE_WRITE. -/
def execGraceWrite (a : Agent) (b : Nat) (v : Word) (s : State) : Host.Outcome State Fault Refusal := .next (doGraceWrite a b v s)

end Sys2Proof.Machine
end

