-- ==== Sys2Proof/Machine/CtlRead.lean ====
section
/-! DEFINITION. What a read of control space or of a function page returns and does (R6, R7, R9, R20, R65, R70, R320, R327, R357): the
registers whose value follows from the state, the access types, the claim registers, the manifest, the TCM. -/
namespace Sys2Proof.Machine

open Sys2Proof

/-! ### Registers whose value follows from the state -/

/-- Bit `i` of a word. -/
def bitAt (i : Nat) (b : Bool) : Nat := b2n b * 2 ^ i

/-- The grace timer of a page that expires first: its source and the time left in ticks. -/
def State.graceFirst (s : State) (b : Blk) : Option (Nat × Nat) :=
  ((List.range 64).filter fun i => s.is (F.FLT_SRC_CNT_GRACE b.base i)).foldl (fun m i =>
    let t := (s.fltOf b i).graceEnd - s.dev.time
    match m with
    | some (j, u) => if t < u then some (i, t) else some (j, u)
    | none => some (i, t)) none

/-- `FLT_STATUS` of a block. -/
def State.fltStatus (s : State) (b : Blk) : Word :=
  let any := fun (f : Nat → Field) => (List.range 64).any fun i => s.is (f i)
  let cnt := ((List.range 64).filter fun i => s.is (F.FLT_SRC_CNT_ACTIVE b.base i)).length
  let g := (s.graceFirst b).getD (0, 0)
  BitVec.ofNat 64 (s.fltLevel b + bitAt 3 (s.fltActive b) + bitAt 4 (any (F.FLT_SRC_CNT_ACK_PEND b.base))
    + bitAt 5 (s.graceFirst b).isSome + bitAt 6 (s.fltIrq b) + cnt * 2 ^ 8 + g.1 * 2 ^ 16 + (g.2 / 1200) % 2 ^ 32 * 2 ^ 24)

/-- `DEV_MODE`; in the recovery hold it reads BOOT (R75). -/
def State.devMode (s : State) : Word :=
  BitVec.ofNat 64 (s.dev.mode.code + s.dev.prev * 2 ^ 4 + s.dev.cause * 2 ^ 8 + s.dev.entry % 2 ^ 48 * 2 ^ 16)

/-- `DEV_FAULT_MAP`. -/
def State.faultMap (s : State) : Word :=
  BitVec.ofNat 64 (Blk.all.foldl (fun m b => m + bitAt b.bit (s.fltActive b)) 0)

/-- `HEP_FN_STS[f]`. -/
def State.fnSts (s : State) (f : Nat) : Word :=
  let x := s.fnOf f
  let slot := s.fnSlot f
  let ex := s.fnExists f
  BitVec.ofNat 64 (b2n ex + (if ex then bitAt 1 x.bme + bitAt 2 (s.fnMse f) + (if s.fnD3 f then 3 * 2 ^ 3 else 0) + bitAt 5 x.msixEn
      + bitAt 6 x.msixMask + bitAt 7 x.msiEn + bitAt 8 x.flr + bitAt 9 x.atsEn
      + bitAt 10 (s.fnOf (s.pfIdx f)).pasidEn else 0)
    + (if slot then (s.fnEnv f).getD 0 * 2 ^ 16 + bitAt 26 (s.fnEnv f).isSome + s.msixBase f % 2 ^ 16 * 2 ^ 32
      + s.fnMsix f % 2 ^ 12 * 2 ^ 48 else 0))

/-- `HEP_FN_ENV` of function `f`. -/
def State.fnEnvReg (s : State) (f : Nat) : Word :=
  BitVec.ofNat 64 ((s.fnEnv f).getD 0 + bitAt 10 (s.fnEnv f).isSome + s.dev.mode.code * 2 ^ 16)

/-- Tag entries of HEP in one of the two counts of `HEP_TAG_STS`. -/
def State.tagCount (s : State) (inUse : Bool) : Nat := (s.hep.tags.filter fun e => (e.st == .inUse) == inUse).length

/-- Cells of the multicast pool in use. -/
def State.mcResidue (s : State) : Nat := s.cellsWhere fun f => f.pool == .multicast

/-- `SWC_PORT_STS[p]`. -/
def State.portSts (s : State) (p : Nat) (w : Word) : Word :=
  let q := min (s.queuedTo p) 65535
  withField (withField (withField w 0 16 q) 19 13 (if s.outState p = 3 then 0 else s.rateOf p)) 48 16 (max (fieldOf w 48 16) q)

/-- The present value of the register at `off`. -/
def State.live (s : State) (off : Nat) : Word :=
  let w := s.reg off
  match blockAt off with
  | none => w
  | some b =>
    let d := off - b.base
    if d = 0xF000 then s.fltStatus b
    else match b with
      | .dev =>
        if d = 0x8 then s.devMode
        else if d = 0x10 then withField w 1 1 (b2n (s.fnOf 0).d3)
        else if d = 0x20 then BitVec.ofNat 64 s.dev.time
        else if d = 0x28 then s.faultMap else w
      | .hep =>
        if d = 0x100 then
          let o := s.tagCount true
          let q := s.tagCount false
          withField (withField (withField w 0 14 o) 16 14 q) 32 14 (max (fieldOf w 32 14) (o + q))
        else if 0x10000 ≤ d && d < 0x14000 then s.fnSts ((d - 0x10000) / 8) else w
      | .wxl => if d = 0x188 then withField w 0 5 s.wxl.migs.length else w
      | .swc =>
        if d = 0x18 then withField (withField w 16 16 s.sharedFree) 48 16 (min (fieldOf w 48 16) s.sharedFree)
        else if d = 0x28 then withField w 48 14 s.mcResidue
        else if 0x200 ≤ d && d < 0x258 then s.portSts ((d - 0x200) / 8) w else w
      | .icu =>
        if d = 0x10 then BitVec.ofNat 64 ((List.range 8).foldl (fun m c => m + bitAt c (s.coreOnline c)) 0 + bitAt 8 s.hpOnline) else w
      | .prl => if d = 0x2000 then withField w 3 1 s.img.pairMode else w
      | .lp n => if portLanes n = 8 && 0x140 ≤ d && d < 0x180 then 0 else w
      | _ => w

/-! ### Access types on reads -/

/-- Bits that a read returns: neither RSV nor WO. -/
def RegDef.readable (r : RegDef) : Word := r.bits fun a => !(a == .rsv || a == .wo)

/-- The RC fields that a read of the bits from `lo`, `n` of them, clears. -/
def RegDef.cleared (r : RegDef) (lo n : Nat) : Word :=
  r.fields.foldl (fun m f => if f.acc == .rc && decide (lo ≤ f.lo) && decide (f.lo + f.w ≤ lo + n) then m ||| fieldMask f.lo f.w else m) 0

/-- The RC fields that a read returned whole clear; `MIN_FREE` starts again from the present FREE. -/
def readClear (off : Nat) (r : RegDef) (lo n : Nat) (s : State) : State :=
  let m := r.cleared lo n
  let s1 := if m = 0 then s else s.setReg off (s.reg off &&& ~~~ m)
  if off = R.SWC_BUF_STS && m != 0 then s1.put F.SWC_BUF_STS_MIN_FREE s.sharedFree else s1

/-- The half of a 64-bit value that a read of `width` bits at `off` returns. -/
def halfOf (off width : Nat) (v : Word) : Word :=
  if width = 32 then BitVec.ofNat 64 (fieldOf v (8 * (off % 8)) 32) else v

/-! ### Claims -/

/-- A claim that finds nothing. -/
def spurious (s : State) : State := s.bump F.ICU_STS_SPURIOUS

/-- Read of `ICU_CLAIM[c]` (R320). -/
def coreClaim (c : Nat) (s : State) : State × Word :=
  match icuClaim c (fun _ => true) s with
  | (t, some (n, cnt, lv)) => (intaFall t, BitVec.ofNat 64 (n + cnt * 2 ^ 16 + bitAt 31 lv))
  | (t, none) => (spurious t, 0x7FF)

/-- Read of `HEP_FN_CLAIM` of function `f` (R327). -/
def fnClaim (f : Nat) (s : State) : State × Word :=
  match icuClaim 8 (fun n => s.get (F.ICU_SRC_CFG_HOST_FN n) == f) s with
  | (t, some (n, cnt, lv)) =>
    (intaFall t, BitVec.ofNat 64 (n + cnt * 2 ^ 16 + bitAt 31 lv + s.get (F.ICU_SRC_CFG_HOST_VEC n) * 2 ^ 32))
  | (t, none) =>
    match f, t.icu.intaHeld with
    | 0, (v, cnt) :: rest =>
      (intaFall { t with icu := { t.icu with intaHeld := rest } }, BitVec.ofNat 64 (0x7FE + min cnt 255 * 2 ^ 16 + v * 2 ^ 32))
    | _, _ => (spurious t, 0x7FF)

/-! ### Manifest (R65) -/

/-- A block's descriptor (Table 3.10). -/
def State.blockDesc (s : State) (b : Blk) : List Byte :=
  let lp := b.id == 9
  let present := match b with
    | .lp _ => (List.range 6).foldl (fun m n => m + bitAt n (s.hasPort n)) 0
    | _ => b2n (s.hasBlk b)
  let size := match b with
    | .dev => 0x10000 | .img => 0x20000 | .pwr => 0x40000 | .hep => 0x80000
    | .qen => 0x200000 | .spl => 0x200000 | .swc => 0x200000 | .gdc => 0x400000 | _ => 0x100000
  let en := match b with
    | .dev => 0x18 | .img => 0xFFFFFFFF | .pwr => 0xFFFFFFFF | .tth => 0xFFFFFFFF | _ => 8
  toBytes 2 b.id ++ toBytes 2 0x100 ++ toBytes 2 (if lp then 6 else 1) ++ toBytes 2 present ++ toBytes 4 b.base
    ++ toBytes 4 (if lp then 0x100000 else 0) ++ toBytes 4 size ++ toBytes 4 en ++ toBytes 8 0

/-- The manifest's bytes up to its last descriptor. -/
def State.manifest (s : State) : List Byte :=
  toBytes 8 0x464D303834365848 ++ toBytes 4 1 ++ toBytes 2 0x100 ++ toBytes 2 14 ++ toBytes 1 s.cfg
    ++ toBytes 1 (s.get F.IMG_STS_BOOTED % 2) ++ toBytes 1 s.pins.pairId ++ toBytes 5 0 ++ toBytes 16 s.img.imageId
    ++ toBytes 4 s.img.imageVer ++ toBytes 4 0 ++ toBytes 48 s.img.imageHash.toNat ++ toBytes 160 0
    ++ [Blk.dev, .img, .pwr, .hep, .wxl, .qen, .spl, .swc, .lp 0, .prl, .icu, .tth, .hbm, .gdc].flatMap s.blockDesc

/-! ### The read as it arrives -/

/-- Eight bytes of the TCM from `a` on. -/
def State.tcmWord (s : State) (a : Nat) : Word :=
  BitVec.ofNat 64 (ofBytes ((List.range 8).map fun i => KMap.get s.tcm 0 (a + i)))

/-- A read of `width` bits (32 or 64) at control-space offset `off`, naturally aligned: the value, or none where the region answers
with an error (Table 5.1). -/
def ctlRead (a : Agent) (off width : Nat) (s : State) : State × Option Word :=
  let o8 := off / 8 * 8
  if o8 < 0x10000 then (s, if s.dev.up && s.dev.mode.configured then some (halfOf off width (wordAt s.manifest o8)) else none)
  else if 0x1200000 ≤ off && off < 0x1400000 then (s, none)
  else match blockAt off with
    | none => (s, if s.dev.up && s.dev.mode.configured then some 0 else none)
    | some b =>
      if !s.reaches a b then (s, none)
      else if !s.hasBlk b then (s, some 0)
      else if 0x1600000 ≤ off && off < 0x1800000 then (s, some (halfOf off width (s.tcmWord (o8 - 0x1600000))))
      else match s.regDef o8 with
        | none => (s, some 0)
        | some r =>
          if b == .icu && decide (0x100 ≤ o8 - b.base) && decide (o8 - b.base < 0x180) && o8 % 16 == 0 then
            if width = 32 && off % 8 = 4 then (s, some 0)
            else
              let c := coreClaim ((o8 - b.base - 0x100) / 16) s
              (c.1, some (halfOf off width c.2))
          else
            (readClear o8 r (8 * (off % 8)) width s, some (halfOf off width (s.live o8 &&& r.readable)))

/-- A read of `width` bits at offset `off` of the function page of `f`: the three registers, the MSI-X table and its pending bits;
reserved offsets read 0 (Table 4.7). -/
def pageRead (f off width : Nat) (s : State) : State × Word :=
  let o8 := off / 8 * 8
  if o8 = 0x1000 then (s, halfOf off width (s.fnEnvReg f))
  else if o8 = 0x1008 then
    if width = 32 && off % 8 = 4 then (s, 0)
    else
      let c := fnClaim f s
      (c.1, halfOf off width c.2)
  else if o8 = 0x1010 then
    let reg := R.HEP_FN_FAULT f
    let v := s.reg reg
    let s1 := if width = 64 || off % 8 = 0 then s.put (F.HEP_FN_FAULT_DROP_CNT f) 0 else s
    (s1, halfOf off width v)
  else if 0x10000 ≤ o8 && o8 < 0x18000 then
    let v := (o8 - 0x10000) / 16
    if v ≤ s.fnMsix f then
      let e := s.msixE (s.msixBase f + v)
      (s, halfOf off width (BitVec.ofNat 64 (if o8 % 16 = 0 then e.addr else e.data + bitAt 32 e.masked)))
    else (s, 0)
  else if 0x18000 ≤ o8 && o8 < 0x18100 then
    let v0 := 8 * (o8 - 0x18000)
    (s, halfOf off width (BitVec.ofNat 64 ((List.range 64).foldl (fun m i =>
      m + bitAt i (decide (v0 + i ≤ s.fnMsix f) && (s.msixE (s.msixBase f + v0 + i)).pending)) 0)))
  else (s, 0)

end Sys2Proof.Machine
end

