-- ==== Sys2Proof/Machine/Deliver.lean ====
section
/-! DEFINITION. What a frame does when it has left the switch: responses reach their requesters (R98, R131, R136, R140, R293), requests
become packets (Tables 12.4 to 12.6, R292, R301), TLPs (R101, R102) or accesses of the HBM controller. -/
namespace Sys2Proof.Machine

open Sys2Proof

/-! ### Responses -/

/-- Whether an answer brings usable data. -/
def ansGood : Ans → Bool
  | .ok => true
  | .corrected => true
  | _ => false

/-- The answer to a core's load reaches the core (R342). -/
def coreNote (c addr : Nat) (ans : Ans) (data : List Byte) (s : State) : State :=
  match (s.coreOf c).load with
  | some (a, _) => if a = addr then s.setCore c { s.coreOf c with loadAns := some (ans, data) } else s
  | none => s

/-- A core's load ends with its answer: data, or a load access fault (R342). -/
def coreAnswer (c : Nat) (s : State) : State :=
  let x := s.coreOf c
  match x.load, x.loadAns with
  | some (addr, _), some (ans, data) =>
    if ansGood ans then (s.setCore c { x with load := none, loadAns := none }).emit (.core c 0 (ofBytes data))
    else coreFault c (coreReason ans) 5 addr s
  | _, _ => s

/-- Data of a prefetch read arrives: it is held as a class 7 frame; data with an error is not held (R136). -/
def prefetched (w da : Nat) (ans : Ans) (data : List Byte) (se : Bool) (s : State) : State :=
  if s.wxl.pf.any fun e => e.w == w && e.da == da && !e.arrived then
    if ansGood ans then
      ({ s with wxl := { s.wxl with pf := s.wxl.pf.map fun (e : PfData) =>
          if (e.w == w && e.da == da && !e.arrived) then { e with arrived := true, data := data, se := e.se || se } else e } } : State).inject
        { typ := .prefData, cls := 7, inp := 0, out := 0, addr := da, len := data.length, env := (s.fnEnv (w / 2)).getD 0 }
    else { s with wxl := { s.wxl with pf := s.wxl.pf.filter fun e => !(e.w == w && e.da == da && !e.arrived) } }
  else s

/-- A response reaches its requester. -/
def deliverAns (f : Frame) (s : State) : State :=
  match f.origin with
  | .host fn tag =>
    if f.ans == .poison then hostDone fn tag .ok f.data true s
    else if ansGood f.ans then hostDone fn tag .ok f.data false s
    else failReadOne f.origin f.ans s
  | .step q gen off =>
    if ansGood f.ans || f.ans == .poison then stepData q gen off f.data f.ans s else failReadOne f.origin f.ans s
  | .fetch q => s.setQa q { s.qa q with fetchAns := some (f.ans, f.data) }
  | .list q =>
    if ansGood f.ans then s.setQa q { s.qa q with list := f.data, listOut := false, listAns := some .ok }
    else failReadOne f.origin f.ans s
  | .core c => coreNote c f.tag f.ans f.data s
  | .prefetch w => prefetched w f.addr f.ans f.data f.se s
  | .pcFill da => if ansGood f.ans then pcFilled da f.env f.data s else failRead f.origin f.ans s
  | _ => s

/-! ### Accepted writes -/

/-- A line's write-back has been accepted: the line is clean, leaves the cache under OP 2, or is dirty again (R140, R143). -/
def wroteBack (da : Nat) (s : State) : State :=
  let flushed := s.wxl.flushing.contains da && s.get F.WXL_PC_FLUSH_OP == 2
  { s with wxl := { s.wxl with
    flushing := s.wxl.flushing.filter fun d => d != da
    pc := (s.wxl.pc.filter fun l => !(l.da == da && l.out && !l.dirty && flushed)).map fun l => if l.da = da then { l with out := false } else l } }

/-- A write frame has been accepted by the switch port of its target (R175, R184). -/
def writeAccepted (f : Frame) (s : State) : State :=
  match f.origin with
  | .writeBack da => wroteBack da s
  | .step _ _ _ => unhold f.addr 64 (if f.mcast then mcOver [f] s else writeDone f.origin s)
  | _ => writeDone f.origin s

/-! ### Frames as packets (SP4 to SP10) -/

/-- STATUS of the CPL that carries an answer to a partner (Table 12.6). -/
def cplStatus : Ans → Nat
  | .timeout => 2 | .portDown => 4 | .partnerReset => 5 | _ => 3

/-- The packet that answers a partner's request (R293). -/
def ansPkt (s : State) (p : Nat) (f : Frame) : Pkt :=
  let vc := s.classVc p 1
  let base : Pkt := { op := 3, vc := vc, env := f.env, tag := f.tag, addr := 0, len := 0, status := 0, flags := 4, data := [] }
  if ansGood f.ans || f.ans == .poison then
    (if f.data.isEmpty then base
     else { base with op := 4, addr := f.data.length * 2 ^ 48, len := (f.data.length + 15) / 16, data := f.data,
                      flags := b2n f.se + 2 * b2n (f.ans == .poison || f.poison) + 4 })
  else match f.ans with
    | .envelope => { base with op := 8, status := 1, addr := f.addr % 2 ^ 48 }
    | .malformed => { base with op := 8, status := 2, addr := f.addr % 2 ^ 48 }
    | .xlate => { base with op := 8, status := 3, addr := f.addr % 2 ^ 48 }
    | a => { base with status := cplStatus a }

/-- Lowest free non-posted tag of a port (R292). -/
def State.npTag (s : State) (p : Nat) : Option Nat :=
  let x := s.port p
  let used := x.np.map (·.tag) ++ x.cfgTag.toList
  if 4096 ≤ used.length then none else (List.range 4096).find? fun t => !used.contains t

/-- The packet of a request frame to DA `da`, with its tag. -/
def reqPkt (s : State) (p tag da : Nat) (f : Frame) : Pkt :=
  let base : Pkt := { op := 1, vc := s.classVc p f.cls, env := f.env, tag := tag, addr := da % 2 ^ 48 + f.len * 2 ^ 48, len := 0,
                      status := 0, flags := 4, data := [] }
  match f.typ with
  | .write => { base with op := 2, len := (da % 16 + f.len + 15) / 16, data := f.data, flags := 4 + 2 * b2n f.poison }
  | .atomic => { base with op := 5, len := 1, addr := da % 2 ^ 48 + f.atop * 2 ^ 48, data := f.data }
  | _ => base

/-- The MSG_INT of a frame (Table 12.4). -/
def msgPkt (f : Frame) : Pkt :=
  match f.origin with
  | .msg vc v act => { op := 6, vc := vc, env := f.env, tag := 0, addr := v + act * 256, len := 0, status := 0, flags := 4, data := [] }
  | _ => { op := 6, vc := f.ivc, env := f.env, tag := 0, addr := 0, len := 0, status := 0, flags := 4, data := [] }

/-- Whether a frame may leave toward the partner now: a packet may start on its VC, and a non-posted request has a tag. -/
def State.mayLeave (s : State) (p : Nat) (f : Frame) : Bool :=
  match f.typ with
  | .resp => s.maySend p (ansPkt s p f)
  | .respData => s.maySend p (ansPkt s p f)
  | .read => s.maySend p (reqPkt s p 0 f.addr f) && (s.npTag p).isSome
  | .atomic => s.maySend p (reqPkt s p 0 f.addr f) && (s.npTag p).isSome
  | .msi => s.maySend p (msgPkt f)
  | _ => s.maySend p (reqPkt s p 0 f.addr f)

/-- The write-attribution entry of a write (R301). -/
def State.attribOf (s : State) (tag : Nat) (f : Frame) : Attrib :=
  match f.origin with
  | .host fn _ => { tag := tag, origin := 1, fn := fn, loc := f.da }
  | .step q _ _ => { tag := tag, origin := 2, fn := s.cget q C.OWNER_FN, loc := q + s.cget q C.CK_SEQ % 2 ^ 16 * 2 ^ 32 }
  | .core c => { tag := tag, origin := 3, fn := 0, loc := c, core := some c }
  | .partner p _ t _ _ => { tag := tag, origin := 3, fn := 0, loc := p * 2 ^ 8 + t % 2 ^ 14 * 2 ^ 16 }
  | _ => { tag := tag, origin := 0, fn := 0, loc := 0 }

/-- A write leaves as an MWR under the next write tag (R292, R301). DEDUCED, log entry 87. -/
def sendWrite (p da : Nat) (f : Frame) (s : State) : State :=
  let x := s.port p
  let t := x.writeTag
  let s1 := s.setPort p { x with
    writeTag := if t = 0x3FFF then 0x1000 else t + 1
    attrib := KMap.insert (KMap.erase x.attrib ((t - 0x1000) % 1024)) ((t - 0x1000) % 1024) (s.attribOf t f) }
  sendAs f.origin p (reqPkt s p t da f) s1

/-- A frame leaves output 4 + `p` as packets. -/
def toPartner (p : Nat) (f : Frame) (s : State) : State :=
  match f.typ with
  | .write =>
    if f.mcast then
      writeAccepted f ((f.mcDst.filter fun d => d.out == 4 + p).foldl (fun t d => sendWrite p d.addr f t) s)
    else writeAccepted f (sendWrite p f.addr f s)
  | .resp => npAnswered p f.tag (sendAs .none p (ansPkt s p f) s)
  | .respData => npAnswered p f.tag (sendAs .none p (ansPkt s p f) s)
  | .msi => sendNow p (msgPkt f) s
  | _ =>
    match s.npTag p with
    | none => s
    | some t =>
      let s1 := sendAs f.origin p (reqPkt s p t f.addr f) s
      s1.setPort p { s1.port p with np := (s1.port p).np ++ [{ tag := t, frame := f, deadline := f.admTime + s.npLimit p }] }

/-! ### Frames as TLPs (SP0) -/

/-- Whether a request of a function may be issued now (R108, R109). -/
def State.mayIssue (s : State) (fn : Nat) : Bool := s.fnReady fn

/-- One write copy leaves as a memory write, or its function may not issue it. -/
def hostWrite (f : Frame) (fn addr : Nat) (s : State) : State :=
  if s.mayIssue fn then hepRequest (.memWrite fn addr f.data) s else unsent { f with fn := fn, addr := addr } s

/-- A frame leaves output 0. -/
def toHost (f : Frame) (s : State) : State :=
  match f.typ with
  | .write =>
    if f.mcast then
      writeAccepted f ((f.mcDst.filter fun d => d.out == 0).foldl (fun t d => hostWrite f d.fn d.addr t) s)
    else if s.mayIssue f.fn then writeAccepted f (hepRequest (.memWrite f.fn f.addr f.data) s)
    else unsent f s
  | .read =>
    if s.mayIssue f.fn then
      let s1 := if s.tagStall f.fn then s.bump F.HEP_TAG_STS_STALL_CNT else s
      { s1 with hep := { s1.hep with wait := s1.hep.wait ++ [f] } }
    else unsent f s
  | .msi =>
    if s.mayMsg f.fn then
      hepRequest (if f.atop = 1 then .msi f.fn f.tag f.addr (ofBytes f.data) else .msix f.fn f.tag f.addr (ofBytes f.data)) s
    else unsent f s
  | .resp => deliverAns f s
  | .respData => deliverAns f s
  | _ => s

/-! ### Frames at SP1, SP2, SP3 -/

/-- `SWC_TAIL_WR` advances past `n` records; with WRAP 1 `SWC_TAIL_RD` keeps one record ahead of it (R236, R237). -/
def tailAdvance (n : Nat) (s : State) : State :=
  let z := 2 ^ s.get F.SWC_TAIL_SIZE_LOG2
  (List.range n).foldl (fun t _ =>
    let wr := (t.get F.SWC_TAIL_WR_INDEX + 1) % z
    let t1 := t.put F.SWC_TAIL_WR_INDEX wr
    if t.is F.SWC_TAIL_SIZE_WRAP && wr == t.get F.SWC_TAIL_RD_INDEX then t1.put F.SWC_TAIL_RD_INDEX ((wr + 1) % z) else t1) s

/-- A request accepted at SP2 waits for the HBM controller; a write counts as accepted (R175, R368). -/
def toHbm (f : Frame) (s : State) : State :=
  let one := fun (g : Frame) (t : State) => ({ t with hbm := { t.hbm with wait := t.hbm.wait ++ [g] } } : State)
  match f.typ with
  | .write =>
    writeAccepted f (if f.mcast then
        (f.mcDst.filter fun d => d.out == 2).foldl (fun t d => one { f with addr := d.addr, outMask := [], mcDst := [], origin := .none } t) s
      else one f s)
  | .read => one f s
  | .atomic => one f s
  | .tailBatch => tailAdvance (f.len / 64) (one f s)
  | _ => deliverAns f s

/-- A granted frame has left output `p`. -/
def leave (p : Nat) (f : Frame) (s : State) : State :=
  let s1 := if f.atom then unhold (lineDa f.addr) 4096 s else s
  if p = 0 then toHost f s1
  else if p = 2 then toHbm f s1
  else if 4 ≤ p then toPartner (p - 4) f s1
  else deliverAns f s1

end Sys2Proof.Machine
end

