-- ==== Sys2Proof/Machine/HostLink.lean ====
section
/-! DEFINITION. The host link as a whole: DL_Down (R113, R234, R410), DL_Up, retraining (R59, R95, R419), PM_PME (R93), and whether the
host can reach the bridge. -/
namespace Sys2Proof.Machine

open Sys2Proof

/-- Whether a TLP can pass on the host link: the data link layer is active and the link is not in Recovery. -/
def State.hostUp (s : State) : Bool := s.is F.HEP_LINK_STS_UP && !s.hep.recovery

/-- A host request whose completion can no longer be returned is forgotten (R113). -/
def Frame.forget (f : Frame) : Frame :=
  match f.origin with
  | .host _ _ => if f.typ == .write then f else { f with origin := .none }
  | _ => f

/-- The outstanding requests of a port, with the host's forgotten. -/
def Port.forget (x : Port) : Port :=
  { x with np := x.np.map fun n => { n with frame := n.frame.forget } }

/-- Host requests accepted before DL_Down and still unanswered are discarded. -/
def hostForget (s : State) : State :=
  let g := fun (a : Access) => ({ a with f := a.f.forget } : Access)
  { s with
    swc := { s.swc with
      inject := s.swc.inject.map Frame.forget
      queued := s.swc.queued.map Frame.forget
      retry := s.swc.retry.map Frame.forget }
    hbm := { s.hbm with wait := s.hbm.wait.map Frame.forget }
    wxl := { s.wxl with
      walks := s.wxl.walks.map fun w => (w.1, w.2.map g)
      fills := s.wxl.fills.map fun w => (w.1, w.2.map g)
      walkWait := s.wxl.walkWait.map g
      heldAcc := s.wxl.heldAcc.map g }
    ports := s.ports.map fun p => (p.1, p.2.forget) }

/-- PM_PME after a wake from TETHER, once the link is up and PME_En of PF0 is 1 (R93). -/
def pmeSend (s : State) : State :=
  if s.tt.wokeFromTether && s.tt.pmeEn && s.hostUp then hepTlp .pmPme { s with tt := { s.tt with wokeFromTether := false } } else s

/-- What `HEP_LINK_STS` shows of a link that is down. -/
def linkClear (s : State) : State :=
  ((((s.put F.HEP_LINK_STS_SPEED 0).put F.HEP_LINK_STS_WIDTH 0).put F.HEP_LINK_STS_FLIT 0).put F.HEP_LINK_STS_UP 0).put
    F.HEP_LINK_STS_PSTATE 0

/-- The functions after DL_Down: outside PAIR each is reset as by R109 and R110; the configuration space of all returns to its reset
values (R113, steps 3 and 4). -/
def dlFunctions (s : State) : State :=
  let fs := s.fnsExisting
  let s1 := if s.cfg = 3 then s else fs.foldl (fun t f => flrFinish f (flrBegin f t)) s
  let d3 := (s.fnOf 0).d3
  let s2 := dlConfig s1
  let s3 := (fs.filter fun f => decide (8 ≤ f)).foldl (fun t f => icuTargetOff 8 (some f) t) s2
  if d3 then quiesceClear 1 s3 else s3

/-- DL_Down of the host link (R113, R234, R410). DEDUCED, log entry 29. -/
def hostLinkDown (s : State) : State :=
  if !s.is F.HEP_LINK_STS_UP then s
  else
    let paired := s.paired
    let s1 := (linkClear s).bump F.HEP_LINK_STS_DOWN_CNT
    let s2 : State := { s1 with
      hep := { s1.hep with recovery := false, training := true, l0pWidth := 0, idle := false }
      icu := { s1.icu with inta := false } }
    let s3 := dlFunctions (dlFlush paired (dlTags paired (hostForget (faultEvent .hep 1 0 s2))))
    if paired then giveBegin s3.owned s3 else s3

/-- Fastest rate and widest link that HEP trains to now (R77). -/
def State.hostLimits (s : State) : Nat × Nat :=
  (min (s.get F.HEP_LINK_CTL_MAX_SPEED) (s.fnOf 0).targetSpeed, s.get F.HEP_LINK_CTL_MAX_WIDTH)

/-- Whether a rate and a width are ones that HEP may have trained to. -/
def State.hostTrains (s : State) (speed width : Nat) : Bool :=
  decide (1 ≤ speed) && decide (speed ≤ s.hostLimits.1) && decide (width ≤ s.hostLimits.2)
    && (width == 1 || width == 2 || width == 4 || width == 8 || width == 16)

/-- The rate and width of a trained link; RETRAIN clears, since training has ended. -/
def linkTrained (speed width : Nat) (s : State) : State :=
  ((s.put F.HEP_LINK_STS_SPEED speed).put F.HEP_LINK_STS_WIDTH width).put F.HEP_CTL_RETRAIN 0

/-- DL_Up: SP0 opens, the held tag entries are freed, and what waited for the link goes on (R113, R234). -/
def hostLinkUp (speed width : Nat) (flit : Bool) (s : State) : State :=
  if s.is F.HEP_LINK_STS_UP || !s.hep.training || !s.hostTrains speed width then s
  else
    let s1 := (((linkTrained speed width s).put F.HEP_LINK_STS_FLIT (b2n flit)).put F.HEP_LINK_STS_UP 1).put F.CLK_STS_H_REFCLK_OK 1
    let s2 : State := { s1 with hep := { s1.hep with
      training := false
      tags := s1.hep.tags.filter fun e => !e.heldDl } }
    pmeSend (intaSync (s2.setOut 0 0))

/-- HEP stops the link: the recovery hold (R56). -/
def hostLinkStop (s : State) : State :=
  let s1 := hostLinkDown s
  { s1 with hep := { s1.hep with training := false, firstWidth := 0 } }

end Sys2Proof.Machine
end

