-- ==== Sys2Proof/Machine/BootOps.lean ====
section
/-! DEFINITION. The boot: choice of the copy, the checks of R54, what each early section writes (R60 to R62, R80, R134, R214, R215, R266,
R362, R363, R400), the recovery hold (R56) and the entry to CONFIG (R58, R358, R364). -/
namespace Sys2Proof.Machine

open Sys2Proof

/-! ### Copies (R53, R54, R56) -/

/-- Copies tried for a source: 0 A, 1 B, 2 A then B, 3 none (Table 3.1). -/
def bootCopies : Nat → List Nat
  | 0 => [0] | 1 => [1] | 2 => [0, 1] | _ => []

/-- The recovery hold. -/
def recoveryHold (s : State) : State :=
  let s1 := ((hostLinkStop s).put F.IMG_STS_BOOTED 3).put F.IMG_STS_RECOVERY 1
  { s1 with img := { s1.img with stage := .idle, next := [], header := [], secs := [], bodies := [] } }

/-- The next copy is tried from its SFDP read, or none remains. -/
def nextCopy (s : State) : State :=
  match s.img.next with
  | [] => recoveryHold s
  | c :: r => { s with img := { s.img with stage := .sfdp, copy := c, next := r, header := [], secs := [], bodies := [] } }

/-- BOOT begins from a source. -/
def bootFrom (src : Nat) (s : State) : State :=
  nextCopy { s.setReg R.IMG_STS (s.reg R.IMG_STS &&& ~~~ 0xFFFFF3) with
    img := { op := s.img.op, opCopy := s.img.opCopy, next := bootCopies src } }

/-- The present copy fails a check; an invalid register default is named by its index (R62). -/
def copyFail (reason : Nat) (entry : Option Nat) (s : State) : State :=
  let s1 := s.put (if s.img.copy = 0 then F.IMG_STS_REASON_A else F.IMG_STS_REASON_B) reason
  nextCopy (match entry with
    | some i => s1.setReg R.DEV_ENSTAT (withField (s1.reg R.DEV_ENSTAT) 8 24 i)
    | none => s1)

/-! ### Header and section table (R54 steps 1 to 4, R60) -/

/-- Entry `i` of the section table (Table 3.4). -/
def secOf (h : List Byte) (i : Nat) : Section :=
  let o := 0x40 + 64 * i
  { typ := bytesAt h o 2, flags := bytesAt h (o + 2) 2, offset := bytesAt h (o + 4) 4, length := bytesAt h (o + 8) 4,
    rsv := bytesAt h (o + 12) 4, hash := BitVec.ofNat 384 (bytesAt h (o + 16) 48) }

/-- Entries used by a header. -/
def secsOf (h : List Byte) : List Section := (List.range (bytesAt h 0xC 2)).map (secOf h)

/-- Step 1: magic, format, configuration, length, sections, reserved bytes. -/
def headerBad (h : List Byte) : Bool :=
  let len := bytesAt h 8 4
  let n := bytesAt h 0xC 2
  h.length != 4096 || bytesAt h 0 4 != 0x4D495848 || bytesAt h 4 2 != 1 || decide (3 < bytesAt h 6 1)
    || decide (len < 4096) || decide (2 ^ 26 < len) || len % 4096 != 0 || n == 0 || decide (32 < n)
    || bytesAt h 7 1 != 0 || bytesAt h 0xE 2 != 0 || bytesAt h 0x24 28 != 0 || bytesAt h 0x900 1792 != 0

/-- Step 2: the key's hash is in a programmed, unrevoked slot (R55). -/
def State.keyTrusted (s : State) (h : List Byte) : Bool :=
  let d := Config.sha384 ((h.drop 0x840).take 96)
  s.tt.keys.any fun k => !k.revoked && (match k.hash with
    | some .edbex => Config.edbexKeyHash == d
    | some (.programmed x) => x == d
    | none => false)

/-- SHA-384 of header bytes 0x000 to 0x89F, as signed. -/
def signedHash (h : List Byte) : BitVec 384 := Config.sha384 (h.take 0x8A0)

/-- Step 3: the signature verifies. -/
def signatureOk (h : List Byte) : Bool :=
  Config.ecdsaVerify ((h.drop 0x840).take 96) ((h.drop 0x8A0).take 96) (signedHash h)

/-- Maximum length of a section type, 0 for an unlisted one (Table 3.5). -/
def secMax : Nat → Nat
  | 1 => 64 | 2 => 0x80000 | 3 => 0x100000 | 4 => 0x1000 | 5 => 0x1000 | 6 => 0x1000 | 7 => 0x10000
  | 0x10 => 0x1000000 | 0x20 => 0x2000000 | _ => 0

/-- Whether a section is loaded early. -/
def Section.early (x : Section) : Bool := decide (x.typ < 0x10)

/-- Whether one entry breaks R60. -/
def secBad (len : Nat) (x : Section) : Bool :=
  x.length == 0 || decide (secMax x.typ < x.length) || x.offset % 4096 != 0 || decide (x.offset < 0x1000) || decide (len < x.offset + x.length)
    || x.rsv != 0 || (x.typ != 0x10 && x.flags != 0)

/-- Whether some two elements of a list satisfy `p`. -/
def anyPair {α : Type} (p : α → α → Bool) : List α → Bool
  | [] => false
  | a :: r => r.any (p a) || anyPair p r

/-- Step 4: whether the section table breaks R60. -/
def tableBad (h : List Byte) : Bool :=
  let l := secsOf h
  let n := fun (t : Nat) => (l.filter fun x => x.typ == t).length
  l.any (secBad (bytesAt h 8 4)) || anyPair (fun x y => overlap x.offset x.length y.offset y.length) l
    || decide (2 ^ 21 < sumList ((l.filter Section.early).map fun x => x.length))
    || n 1 != 1 || n 2 != 1 || n 4 != 1 || decide (1 < n 3) || decide (1 < n 5) || decide (1 < n 6) || decide (1 < n 7)
    || anyPair (fun x y => x.typ == 0x10 && y.typ == 0x10 && (x.flags &&& y.flags) % 256 != 0) l
    || bytesAt h (0x40 + 64 * bytesAt h 0xC 2) (64 * (32 - bytesAt h 0xC 2)) != 0

/-- The first of steps 1 to 4 that a header fails. -/
def State.headerFails (s : State) (h : List Byte) : Option Nat :=
  if headerBad h then some 9 else if !s.keyTrusted h then some 7 else if !signatureOk h then some 6 else if tableBad h then some 3 else none

/-! ### Early sections (R54 steps 5 and 6, R61) -/

/-- The body of an early section type, if the copy has one. -/
def State.body (s : State) (t : Nat) : Option (List Byte) :=
  (((s.img.secs.filter Section.early).zip s.img.bodies).find? fun x => x.1.typ == t).map (·.2)

/-- A record of the WINDOW_ENVELOPE section (Table 6.6). -/
structure WinRec where
  typ : Nat
  count : Nat
  first : Nat
  items : List Byte
deriving DecidableEq, Repr

/-- Size of an item of a record type; 0 for an unlisted type. -/
def itemSize : Nat → Nat
  | 1 => 16 | 2 => 24 | 3 => 16 | 4 => 8 | 5 => 24 | 0x10 => 8 | 0x11 => 8 | 0x12 => 8 | 0x13 => 8 | _ => 0

/-- The records of a section in order, and whether what follows the last of them is no record. `n` bounds their number. -/
def winRecs (n : Nat) (l : List Byte) : List WinRec × Bool :=
  match n with
  | 0 => ([], !l.isEmpty)
  | n + 1 =>
    if l.isEmpty then ([], false)
    else
      let z := itemSize (bytesAt l 0 2) * bytesAt l 2 2
      if itemSize (bytesAt l 0 2) = 0 || l.length < 8 + z then ([], true)
      else
        let r := winRecs n (l.drop (8 + z))
        (⟨bytesAt l 0 2, bytesAt l 2 2, bytesAt l 4 4, (l.drop 8).take z⟩ :: r.1, r.2)

/-- Records of the copy's WINDOW_ENVELOPE section. -/
def State.winRecords (s : State) : List WinRec × Bool :=
  match s.body 3 with
  | some l => winRecs l.length l
  | none => ([], false)

/-- Entries of an HBM_PARTITION section (Table 15.3): KIND, BASE_MIB, SIZE_MIB. -/
def partEntries (l : List Byte) : List (Nat × Nat × Nat) :=
  (List.range (bytesAt l 0 1)).map fun i =>
    (bytesAt l (16 + 16 * i) 1, bytesAt l (20 + 16 * i) 4, bytesAt l (24 + 16 * i) 4)

/-- Whether the copy's sections name a resource absent from configuration `c` (R61, R266, R362, R400). -/
def State.absentNamed (s : State) (c pairMode : Nat) : Bool :=
  let gll := (s.body 5).getD []
  let recs := s.winRecords.1.filter fun r => r.typ == 0x13
  ((List.range 6).any fun n => !(cfgPorts c).contains n && bytesAt gll (128 * n) 128 != 0)
    || (c == 0 && (partEntries ((s.body 4).getD [])).any fun e => decide (4 ≤ e.1) && decide (e.1 ≤ 6))
    || (c != 3 && !recs.isEmpty) || (pairMode == 0 && recs.any fun r => ofBytes r.items != 0)

/-- Step 5: the CONFIG section against the header and its ranges, absent resources, then the divisors (R43). -/
def State.configFails (s : State) : Option Nat :=
  let b := (s.body 1).getD []
  let c := bytesAt s.img.header 6 1
  let core := bytesAt b 1 1
  let gc := bytesAt b 2 1
  let cto := bytesAt b 4 4
  let mode := bytesAt b 0xC 1
  if bytesAt b 0 1 != c || decide (5 < bytesAt b 3 1) || cto == 0 || decide (64000 < cto) || stepBad (bytesAt b 8 4) || decide (1 < mode)
      || (c != 3 && mode != 0) || s.absentNamed c mode then some 2
  else if !((core == 6 && gc == 3) || (core == 8 && gc == 4)) then some 5
  else none

/-- The CONFIG section's values are applied, and link training starts (R54, Table 3.2, R419). -/
def configApply (s : State) : State :=
  let b := (s.body 1).getD []
  let h := s.img.header
  let c := bytesAt h 6 1
  let s1 : State := { s with
    img := { s.img with cfg := c, ctoMs := bytesAt b 4 4, pairMode := bytesAt b 0xC 1 }
    hep := { s.hep with training := !s.is F.HEP_LINK_STS_UP, firstWidth := if (s.hep.firstWidth = 0) then cfgWidth c else s.hep.firstWidth } }
  (((s1.setReg R.CLK_CFG (BitVec.ofNat 64 (0x486400 + bytesAt b 1 1 + 16 * bytesAt b 2 1))).put F.DEV_ERRPIN_LEVEL_LEVEL (bytesAt b 3 1)).put
    F.SPL_STEP_BYTES (bytesAt b 8 4)).setReg R.HEP_LINK_CTL (BitVec.ofNat 64 (6 + 256 * cfgWidth c))

/-- Step 6: whether some early section's hash differs, or its bytes are not LENGTH. -/
def State.hashBad (s : State) : Bool :=
  let early := s.img.secs.filter Section.early
  early.length != s.img.bodies.length || (early.zip s.img.bodies).any fun x => x.1.length != x.2.length || Config.sha384 x.2 != x.1.hash

/-! ### Step 7 and the application of the early sections -/

/-- The state after an application, or the failure of step 7 with the index of an invalid register default. -/
abbrev Applied := Except (Option Nat) State

/-- Apply in order, up to the first failure. -/
def applyAll {α : Type} (f : α → State → Applied) : List α → State → Applied
  | [], s => .ok s
  | x :: r, s => match f x s with
    | .ok t => applyAll f r t
    | .error e => .error e

/-- Numbers of ignored writes that the pages have counted (R6). -/
def State.notices (s : State) : List Nat := Blk.all.map fun b => s.get (F.FLT_SRC_CNT_TOTAL b.base (regWriteId b))

/-- The state as IMG's writes see it: in CONFIG. DEDUCED, log entry 14. -/
def State.asConfig (s : State) : State := { s with dev := { s.dev with mode := .config } }

/-- Whether R62 makes an entry invalid on grounds of its register and bits alone. DEDUCED, log entry 13; DEDUCED, log entry 77. -/
def State.entryBad (s : State) (off : Nat) (v : Word) (enOk : Bool) : Bool :=
  match blockAt off, s.regDef off with
  | some b, some r =>
    let d := off - b.base
    off % 8 != 0 || b == .tth || !r.writable || v &&& ~~~ r.known != 0 || r.reserved v
      || (!enOk && (enBits b d).any fun i => fieldOf v i 1 == 1 && fieldOf (s.reg off) i 1 == 0)
  | _, _ => true

/-- One write of IMG, as PF0's in CONFIG (R62, R134). A check it causes is run at once. -/
def imgWrite (off : Nat) (v : Word) (s : State) : Applied :=
  let t := s.asConfig
  if t.entryBad off v false then .error none
  else
    let u := ctlWriteAs .pf0 off v 64 t
    if u.notices != t.notices || (u.checks.any fun c => (checkResult c u).isSome) then .error none
    else
      let w := u.checks.foldl (fun x _ => checkEnd x) u
      .ok { w with dev := { w.dev with mode := if w.dev.mode == .config then s.dev.mode else w.dev.mode } }

/-- Writes in order. -/
def imgWrites (l : List (Nat × Word)) (s : State) : Applied := applyAll (fun x t => imgWrite x.1 x.2 t) l s

/-- PF entry `p` of a function table (Table 4.3). -/
def pfEntry (l : List Byte) (p : Nat) : PfEnt :=
  let o := 0x40 + 64 * p
  { vendor := bytesAt l o 2, device := bytesAt l (o + 2) 2, subVendor := bytesAt l (o + 4) 2, subId := bytesAt l (o + 6) 2,
    cls := bytesAt l (o + 8) 3, rev := bytesAt l (o + 0xB) 1, envelope := bytesAt l (o + 0xC) 2, msixSize := bytesAt l (o + 0xE) 2,
    msiLog2 := bytesAt l (o + 0x10) 1, flags := bytesAt l (o + 0x11) 1, pasidWidth := bytesAt l (o + 0x12) 1,
    bar2Mode := bytesAt l (o + 0x14) 1, bar2Log2 := bytesAt l (o + 0x15) 1, bar4Mode := bytesAt l (o + 0x16) 1,
    bar4Log2 := bytesAt l (o + 0x17) 1, totalVfs := bytesAt l (o + 0x18) 2, vfDevice := bytesAt l (o + 0x1A) 2,
    vfBar2Mode := bytesAt l (o + 0x1C) 1, vfBar2Log2 := bytesAt l (o + 0x1D) 1, vfFlags := bytesAt l (o + 0x1E) 1 }

/-- `WXL_IWIN_CTL[w]` reports the mode, PREF and size of its BAR (R116). -/
def iwinReport (w mode log2 : Nat) (s : State) : State :=
  if mode % 4 = 0 then s
  else ((s.put (F.WXL_IWIN_CTL_MODE w) mode).put (F.WXL_IWIN_CTL_PREF w) (mode / 4)).put (F.WXL_IWIN_CTL_LOG2 w) log2

/-- The windows of function `f`. -/
def iwinReports (f : Nat) (s : State) : State :=
  if f < 8 then
    let x := s.pfEnt f
    iwinReport (2 * f + 1) x.bar4Mode x.bar4Log2 (if f = 0 then s else iwinReport (2 * f) x.bar2Mode x.bar2Log2 s)
  else match s.pfOf f with
    | some p => iwinReport (2 * f) (s.pfEnt p).vfBar2Mode (s.pfEnt p).vfBar2Log2 s
    | none => s

/-- FUNCTION_TABLE (R80). -/
def applyFns (s : State) : State :=
  let l := (s.body 2).getD []
  let s1 : State := { s with
    img := { s.img with dsn := bytesAt l 0 8 }
    pf := (List.range 8).foldl (fun m p => KMap.set m {} p (pfEntry l p)) []
    vf := (List.range 2040).foldl (fun m j => KMap.set m (0, 0) (8 + j) (bytesAt l (0x240 + 16 * j) 2, bytesAt l (0x242 + 16 * j) 2)) [] }
  (List.range (min 2048 s1.fnCount)).foldl (fun t f => iwinReports f t) s1

/-- Size and alignment of a partition (Table 15.4). -/
def partBad (e : Nat × Nat × Nat) : Bool :=
  let b := e.2.1
  let z := e.2.2
  match e.1 with
  | 1 => z % 64 != 0 || decide (z < 512) || decide (1024 < z) || b % 512 != 0
  | 2 => z == 0 || decide (2048 < z)
  | 3 => z != 1
  | 4 => z == 0 || decide (256 < z)
  | 5 => z % 64 != 0 || decide (z < 64) || decide (1024 < z) || b % 64 != 0
  | 6 => z != 0 || b % 64 != 0
  | _ => true

/-- Whether an HBM_PARTITION section fails R362 in configuration `c`. -/
def mapBad (c : Nat) (l : List Byte) : Bool :=
  let n := bytesAt l 0 1
  let pcs := bytesAt l 1 1
  let es := partEntries l
  l.length != 16 + 16 * n || decide (n < 3) || decide (6 < n) || bytesAt l 2 14 != 0
    || (if c = 0 then pcs == 0 || decide (16 < pcs) else pcs != 0)
    || es.any partBad || anyPair (fun x y => x.1 == y.1) es
    || (List.range n).any (fun i => bytesAt l (17 + 16 * i) 3 != 0 || bytesAt l (28 + 16 * i) 4 != 0)
    || es.any fun e => decide ((if c = 0 then 1024 * pcs else 16384) < e.2.1 + e.2.2)

/-- HBM_PARTITION (R362, R363). -/
def applyMap (s : State) : Applied :=
  let l := (s.body 4).getD []
  if mapBad s.cfg l then .error none
  else
    let s1 : State := { s with hbm := { s.hbm with pcCount := bytesAt l 1 1 }, img := { s.img with hbmPart := l } }
    .ok ((partEntries l).foldl (fun t e =>
      let t1 := ((t.put (F.HBM_PART_BASE_MIB e.1) e.2.1).put (F.HBM_PART_SIZE_MIB e.1) e.2.2).put (F.HBM_PART_PRESENT e.1) 1
      if e.1 = 1 then (t1.put F.QEN_CTX_BASE_BASE (e.2.1 / 512)).put F.QEN_CTX_BASE_SIZE_64M (e.2.2 / 64) else t1) s1)

/-- Built-in per-byte coefficients (Table 9.4): source kind × 4 + destination kind, host, local, HBM, peer. DEDUCED, log entry 17. -/
def builtinPjb : List Nat := [7000, 6200, 3800, 6400, 6200, 5600, 3400, 5800, 3800, 3400, 1400, 3600, 6400, 5800, 3600, 6000]

/-- Coefficients become those in force and those that CAL_RESTART returns to. -/
def setCoefs (l : List Word) (op : Word) (s : State) : State :=
  let s1 := ((List.range 16).foldl (fun t i => t.setReg (R.SPL_COEF i) (l.getD i 0)) s).setReg R.SPL_OPCOST op
  { s1 with spl := { s1.spl with imgCoef := l, imgOp := op, refCoef := l, refOp := op } }

/-- ENERGY_COEFF, or the built-in coefficients without one (R214, Table 9.4). -/
def applyCoefs (s : State) : Applied :=
  match s.body 6 with
  | none => .ok (setCoefs (builtinPjb.map fun p => BitVec.ofNat 64 (p + 20 * 65536)) 110 s)
  | some l =>
    let cs := (List.range 16).map fun i => wordAt l (8 * i)
    let op := wordAt l 128
    if l.length != 136 || (cs.any fun c => fieldOf c 0 16 == 0 || fieldOf c 32 32 != 0) || fieldOf op 16 48 != 0 then .error none
    else .ok (setCoefs cs op s)

/-- An item of TYPE 0x0010: `ENV_CFG[e]`, DEFINE applied directly (R215). -/
def applyEnv (e : Nat) (v : Word) (s : State) : Applied :=
  let off := R.ENV_CFG e
  if 1024 ≤ e || s.asConfig.entryBad off v true || capBad (fieldOf v 32 11) then .error none
  else
    let s1 := s.setReg off v
    .ok (if fieldOf v 0 1 = 1 then envBegin e s1 else s1)

/-- Item `k` of a record. DEDUCED, log entry 13. -/
def applyItem (r : WinRec) (k : Nat) (s : State) : Applied :=
  let i := r.first + k
  let w := fun (j : Nat) => wordAt r.items (itemSize r.typ * k + 8 * j)
  let bound := fun (n : Nat) (l : List (Nat × Word)) => if n ≤ i then (.error none : Applied) else imgWrites l s
  match r.typ with
  | 1 => bound 4096 [(R.WXL_IWIN_CTL i, w 0), (R.WXL_IWIN_BASE i, w 1)]
  | 2 => bound 4096 [(R.WXL_OWIN_CTL i, w 0), (R.WXL_OWIN_DA i, w 1), (R.WXL_OWIN_HOST i, w 2)]
  | 3 => bound 8192 [(R.WXL_ERNG_CTL i, w 0), (R.WXL_ERNG_BASE i, w 1)]
  | 4 => if s.get F.WXL_TBL_SIZE_ENTRIES ≤ i || fieldOf (w 0) 56 8 != 0 then .error none else .ok { s with xt := KMap.set s.xt 0 i (w 0) }
  | 5 => bound 1 [(R.WXL_TBL_BASE, w 0), (R.WXL_TBL_SIZE, w 1), (R.WXL_PC_CFG, w 2)]
  | 0x10 => applyEnv i (w 0) s
  | 0x11 => bound 256 [(R.ENV_QBLK i, w 0)]
  | 0x12 => bound 1 [(R.SPL_BUDGET, w 0)]
  | _ => if 16 < r.first + r.count then .error none else .ok (s.setReg (R.PRL_HOME i) (w 0))

/-- One record. -/
def applyRec (r : WinRec) (s : State) : Applied := applyAll (applyItem r) (List.range r.count) s

/-- WINDOW_ENVELOPE (R134, R215, R400); without a record for it, the energy budget is the built-in one. -/
def applyWins (s : State) : Applied :=
  let rs := s.winRecords
  if rs.2 then .error none
  else match applyAll applyRec rs.1 s with
    | .ok t => if (t.shareOver 0 t.envsDefined).isSome then .error none else .ok t
    | .error e => .error e

/-- The block of port `p` in GLL_PORT (Table 11.8). The slot registers are stored without acting before CONFIG. DEDUCED, log entry 77. -/
def applyPort (l : List Byte) (p : Nat) (s : State) : Applied :=
  let w := fun (o : Nat) => wordAt l (128 * p + o)
  let slotBad := fun (off : Nat) (v : Word) => match s.regDef off with
    | some r => v &&& ~~~ r.known != 0 || r.reserved v
    | none => true
  if slotBad (R.LPn_SLOT_CAP p) (w 0x10) || slotBad (R.LPn_SLOT_CTL p) (w 0x18) then .error none
  else
    match imgWrites [(R.LPn_LINK_CFG p, w 0), (R.LPn_IDENT p, w 8)] s with
    | .error e => .error e
    | .ok t =>
      imgWrites [(R.LPn_GRACE p, w 0x40), (R.LPn_PROTO_CFG p, w 0x48), (R.LPn_VC_ENV p 0, w 0x50), (R.LPn_VC_ENV p 1, w 0x58),
        (R.LPn_BALLAST p 0, w 0x60), (R.LPn_BALLAST p 1, w 0x68)]
        ((t.setReg (R.LPn_SLOT_CAP p) (w 0x10)).setReg (R.LPn_SLOT_CTL p) (w 0x18))

/-- GLL_PORT (R266). -/
def applyPorts (s : State) : Applied :=
  match s.body 5 with
  | none => .ok s
  | some l => if l.length != 768 then .error none else applyAll (applyPort l) ((List.range 6).filter s.hasPort) s

/-- Entry `i` of REGISTER_DEFAULTS (Table 3.7). -/
def applyDefault (l : List Byte) (i : Nat) (s : State) : Applied :=
  if l.length < 16 * i + 16 then .error (some i)
  else match imgWrite (bytesAt l (16 * i) 4) (wordAt l (16 * i + 8)) s with
    | .ok t => .ok t
    | .error _ => .error (some i)

/-- REGISTER_DEFAULTS (R62). -/
def applyDefaults (s : State) : Applied :=
  let l := (s.body 7).getD []
  applyAll (applyDefault l) (List.range ((l.length + 15) / 16)) s

/-- Every early section but CONFIG, in the order of their application. DEDUCED, log entry 17. -/
def imgApply (s : State) : Applied :=
  applyAll (fun f t => f t) [applyMap, applyCoefs, applyWins, applyPorts, applyDefaults] ((applyFns s).put F.SPL_BUDGET_MW 3000)

/-- What IMG keeps of the accepted copy: for the manifest, the pair check and function-level resets. -/
def imgKeep (s : State) : State :=
  let h := s.img.header
  let hash := fun (t : Nat) => Config.sha384 ((s.body t).getD [])
  { s with img := { s.img with
    imageId := bytesAt h 0x10 16, imageVer := bytesAt h 0x20 4, imageHash := signedHash h, cfgHash := hash 1, fnHash := hash 2, winHash := hash 3
    wins := s.regs.filter fun e => decide (0x110000 ≤ e.1) && decide (e.1 < 0x140000) } }

/-- The early sections are applied once step 7 has passed and the HBM fill has ended (Table 3.2, R361). -/
def imgInstall (s : State) : State :=
  if s.img.stage == .waitFill && s.hbm.filled then
    match imgApply s with
    | .ok t => let u := imgKeep t
               { u with img := { u.img with stage := .done } }
    | .error _ => s
  else s

/-- Steps 5 to 7 on the early sections' bodies. -/
def earlyRead (bodies : List (List Byte)) (s : State) : State :=
  let s1 : State := { s with img := { s.img with bodies := bodies } }
  match s1.configFails with
  | some r => copyFail r none s1
  | none =>
    let s2 := configApply s1
    if s2.hashBad then copyFail 8 none s2
    else match imgApply s2 with
      | .error e => copyFail 4 e s2
      | .ok _ => imgInstall { s2 with img := { s2.img with stage := .waitFill } }

/-- A flash read of the boot has completed. -/
def flashRead (rd : FlashRead) (s : State) : State :=
  match s.img.stage, rd with
  | .sfdp, .sfdp true => { s with img := { s.img with stage := .header } }
  | .sfdp, .sfdp false => copyFail 9 none s
  | .header, .header h =>
    match s.headerFails h with
    | some r => copyFail r none s
    | none => { s with img := { s.img with stage := .early, header := h, secs := secsOf h } }
  | .early, .early bodies => earlyRead bodies s
  | _, _ => s

/-! ### The entry to CONFIG -/

/-- The interleave set of the trained pseudo-channels (R21, R358). DEDUCED, log entry 101. -/
def State.pcSet0 (s : State) : List Nat :=
  let l := (List.range 16).filter fun p => bitOf (s.get F.HBM_STS_TRAINED) p
  if s.cfg = 0 then l.take s.hbm.pcCount else l

/-- The set is chosen and the map judged (R358, R359, R363, R364). DEDUCED, log entry 101. -/
def hbmPlace (s : State) : State :=
  let set := s.pcSet0
  let n := set.length
  let s1 := ({ s with hbm := { s.hbm with set := set } } : State).put F.HBM_STS_SET_N n
  let s2 := (List.range 16).foldl (fun t p =>
    t.put (F.HBM_PC_STS_STATE p) (if set.contains p then 0 else if bitOf (s.get F.HBM_STS_TRAINED) p then 1 else 2)) s1
  let s3 := if s2.is (F.HBM_PART_PRESENT 6) then s2.put (F.HBM_PART_SIZE_MIB 6) (1024 * n - s2.get (F.HBM_PART_BASE_MIB 6)) else s2
  if s3.placeable then (s3.put F.HBM_STS_PLACED 1).put F.DEV_STS_HBM_OK 1
  else s3.setReg (Blk.hbm.base + 8) (BitVec.ofNat 64 (0xB3 + n * 2 ^ 8 + 2 ^ 63))

/-- The slot controller of port `p` begins (R262, R263). DEDUCED, log entry 18. -/
def slotBegin (p : Nat) (s : State) : State :=
  let here := !s.is (F.LPn_SLOT_CAP_PRSNT_PIN p) || s.pins.prsnt.getD p false
  let s1 := s.put (F.LPn_SLOT_STS_PRSNT p) (b2n here)
  if s1.is (F.LPn_SLOT_CAP_PWR_CTRL p) then (if s1.is (F.LPn_SLOT_CTL_PWR_ON p) then pwrenDrive p true s1 else s1)
  else { (s1.put (F.LPn_SLOT_STS_PWR p) 1).modPort p fun x => { x with powered := true } with
    pins := { s1.pins with pwren := s1.pins.pwren.set p true } }

/-- Late sections still to be loaded, as entries of the section table. DEDUCED, log entry 19. -/
def State.lateSecs (s : State) : List Nat := (List.range s.img.secs.length).filter fun i => match s.img.secs[i]? with
  | some x => !x.early
  | none => false

/-- Transition 3 (R58, R59, R66, R239, R401, R419). DEDUCED, log entry 18; DEDUCED, log entry 19. -/
def enterConfigMode (s : State) : State :=
  let s1 := hbmPlace s
  let s2 := (((s1.put F.TTH_STS_CONFIG s.cfg).put F.TTH_STS_CONFIG_VALID 1).put F.DEV_STS_IMAGE_OK 1).put F.IMG_STS_BOOTED s.img.copy
  let s3 := (s2.put F.SWC_BUF_STS_SPARES 8).put F.SWC_BUF_STS_MIN_FREE s2.sharedFree
  let s4 := (List.range 7).foldl (fun t p => if t.hasPort p then t else t.setOut (portSp p) 3) s3
  let s5 := if s4.cfg = 3 then (List.range 16).foldl (fun t i => t.setReg (R.PRL_OWN i) (t.homeMask i)) s4 else s4
  let s6 := ((List.range 6).filter s5.hasPort).foldl (fun t p => slotBegin p t) s5
  let late := s6.lateSecs
  let s7 := ({ s6 with img := { s6.img with late := late }
                       pins := { s6.pins with clkreqN := !decide (2 ≤ s6.cfg) } } : State).put F.IMG_STS_FW_DONE (b2n late.isEmpty)
  let wide := s7.is F.HEP_LINK_STS_UP && (decide (s7.hostLimits.1 < s7.get F.HEP_LINK_STS_SPEED)
    || s7.hep.firstWidth != cfgWidth s7.cfg || decide (s7.get F.HEP_LINK_CTL_MAX_WIDTH < s7.get F.HEP_LINK_STS_WIDTH))
  sbPair (setMode .config 3 (if wide then hostRetrain s7 else s7))

end Sys2Proof.Machine
end

