-- ==== Sys2Proof/Machine/HbmOps.lean ====
section
/-! DEFINITION. The HBM controller: where an offset lies (R358), ECC outcomes and the row tracker (R368, R370), row and pseudo-channel
tests (R371 to R373), serving a request (R368), self-refresh (R374, R375) (spec/15). -/
namespace Sys2Proof.Machine

open Sys2Proof

/-! ### Where an offset lies -/

/-- Address within its pseudo-channel of HBM offset `o` (R358). -/
def State.pcAddr (s : State) (o : Nat) : Nat := o / 4096 / s.hbm.set.length * 4096 + o % 4096

/-- Pseudo-channel, bank and row of an HBM offset. -/
def State.hbmLoc (s : State) (o : Nat) : Nat × Nat × Nat :=
  (s.pcAt o, Config.hbmBank (s.pcAddr o) % 32, Config.hbmRow (s.pcAddr o) % 2 ^ 15)

/-- Whether a word of HBM reads as uncorrectable: poisoned, or in a retired pseudo-channel (R368, R373). -/
def State.hbmPoison (s : State) (o : Nat) : Bool := KMap.get s.hbm.poison false (o / 8) || s.hbm.out.contains (s.pcAt o)

/-- A word takes, or loses, the poison code (R368). -/
def setPoison (o : Nat) (p : Bool) (s : State) : State :=
  { s with hbm := { s.hbm with poison := KMap.set s.hbm.poison false (o / 8) p } }

/-! ### Row tests -/

/-- A row test starts, in the modes that test (R370, R371, R386). DEDUCED, log entry 104. -/
def rowTestStart (src : Nat) (loc : Nat × Nat × Nat) (s : State) : State :=
  if !testModes s.dev.mode || s.hbm.rowTests.any (fun t => t.1 == loc.1 && t.2.1 == loc.2.1 && t.2.2.1 == loc.2.2) then s
  else startTest .hbm src 0 { s with hbm := { s.hbm with rowTests := s.hbm.rowTests ++ [(loc.1, loc.2.1, loc.2.2, src)] } }

/-- The tracker charges a row; of 256 entries the one least recently charged gives way. Answers with the row's count. -/
def trackRow (loc : Nat × Nat × Nat) (s : State) : State × Nat :=
  let is := fun (e : Nat × Nat × Nat × Nat) => e.1 == loc.1 && e.2.1 == loc.2.1 && e.2.2.1 == loc.2.2
  let n := ((s.hbm.tracker.find? is).map (·.2.2.2)).getD 0 + 1
  ({ s with hbm := { s.hbm with tracker := ((loc.1, loc.2.1, loc.2.2, n) :: s.hbm.tracker.filter fun e => !is e).take 256 } }, n)

/-- The tracker forgets a row. -/
def untrackRow (pc bank row : Nat) (s : State) : State :=
  { s with hbm := { s.hbm with tracker := s.hbm.tracker.filter fun e => !(e.1 == pc && e.2.1 == bank && e.2.2.1 == row) } }

/-! ### ECC outcomes -/

/-- A corrected error at an offset (R368, R370). DEDUCED, log entry 103. -/
def eccCe (o : Nat) (s : State) : State :=
  let loc := s.hbmLoc o
  let s1 := faultEvent .hbm 0 o ((s.bump F.HBM_ECC_STS_CE).bump (F.HBM_PC_STS_CE loc.1))
  let t := trackRow loc s1
  if t.1.get F.HBM_SCRUB_CFG_CE_ROW_LIMIT ≤ t.2 then rowTestStart 0 loc t.1 else t.1

/-- An uncorrectable error at an offset: the word stays uncorrectable, and its row is tested (R368, R370). DEDUCED, log entry 103. -/
def eccUe (o : Nat) (s : State) : State :=
  let loc := s.hbmLoc o
  rowTestStart 1 loc (setPoison o true (faultEvent .hbm 1 o ((s.bump F.HBM_ECC_STS_UE).bump (F.HBM_PC_STS_UE loc.1))))

/-- What the decoder finds at an offset. -/
def eccFound (o : Nat) (e : Ecc) (s : State) : State :=
  match e with
  | .ok => s
  | .ce => eccCe o s
  | .ue => eccUe o s

/-! ### Serving a request -/

/-- Whether the controller may serve an access to an offset now: its pseudo-channel is neither in self-refresh nor being recalibrated
or tested, and no row of its bank is under test (R371, R372, R375). -/
def State.hbmReady (s : State) (o : Nat) : Bool :=
  let loc := s.hbmLoc o
  !s.hbm.sr.contains loc.1 && !s.hbm.recal.contains loc.1 && !s.hbm.pcTests.contains loc.1
    && !s.hbm.rowTests.any fun t => t.1 == loc.1 && t.2.1 == loc.2.1

/-- Offsets of the 8-byte words that a range touches. -/
def wordsOf (o len : Nat) : List Nat := (List.range ((o % 8 + len + 7) / 8)).map fun i => o / 8 * 8 + 8 * i

/-- Whether a range covers the whole word at `w`. -/
def wholeWord (o len w : Nat) : Bool := decide (o ≤ w) && decide (w + 8 ≤ o + len)

/-- The outcome of a read of a range: uncorrectable if a word of it is, corrected if the decoder corrected. -/
def hbmAns (bad : Bool) (e : Ecc) : Ans := if bad then .poison else if e == .ce then .corrected else .ok

/-- A read of a range, with what the decoder finds at its first word: data and answer. -/
def hbmServeRead (o len : Nat) (e : Ecc) (s : State) : State × List Byte × Ans :=
  let dead := s.hbm.out.contains (s.pcAt o)
  let s1 := if dead then s.bump (F.HBM_PC_STS_UE (s.pcAt o)) else eccFound o e s
  let bad := (wordsOf o len).any s1.hbmPoison
  (s1, s1.hbmRead o len, hbmAns bad e)

/-- A write of a range: whole words are replaced; a word written in part is read and merged, and a poisoned one stays so. A retired
pseudo-channel discards it. -/
def hbmServeWrite (o : Nat) (data : List Byte) (e : Ecc) (s : State) : State :=
  if s.hbm.out.contains (s.pcAt o) then s.bump (F.HBM_PC_STS_UE (s.pcAt o))
  else
    let ws := wordsOf o data.length
    let part := ws.filter fun w => !wholeWord o data.length w
    let s1 := match part with
      | [] => s
      | w :: _ => eccFound w e s
    ((ws.filter fun w => wholeWord o data.length w).foldl (fun t w => setPoison w false t) s1).hbmWrite o data

/-- The value that an ATOM leaves, by its code (Table 12.4). -/
def atomValue (code old operand compare : Nat) : Nat :=
  if code = 0 then (old + operand) % 2 ^ 64 else if code = 1 then operand else if old = compare then operand else old

/-- A request that SP2 accepted is served (R175, R368). -/
def hbmServe (f : Frame) (e : Ecc) (s : State) : State :=
  let o := daOff f.addr
  match f.typ with
  | .write => hbmServeWrite o f.data e s
  | .tailBatch => hbmServeWrite o f.data e s
  | .atomic =>
    let r := hbmServeRead o 8 e s
    if r.2.2 == .poison then (r.1.useFreeBytes 16).inject (f.answer 2 .poison (r.1.freeBytes 16))
    else
      let old := ofBytes r.2.1
      let s1 := hbmServeWrite o (toBytes 8 (atomValue f.atop old (bytesAt f.data 0 8) (bytesAt f.data 8 8))) .ok r.1
      s1.inject (f.answer 2 .ok (toBytes 16 old))
  | _ =>
    let r := hbmServeRead o f.len e s
    r.1.inject (f.answer 2 r.2.2 r.2.1)

/-- The waiting frame that a served request stands for: the first of its direction at its offset. DESIGN CHOICE, log entry 102. -/
def State.hbmPick (s : State) (write : Bool) (off : Nat) : Option Frame :=
  s.hbm.wait.find? fun f => daOff f.addr == off && (f.typ == .write || f.typ == .tailBatch) == write

/-! ### Self-refresh -/

/-- Whether the set is in self-refresh, or on its way out. -/
def State.inSr (s : State) : Bool := s.is F.HBM_STS_SR

/-- The exit from self-refresh is complete. -/
def srDone (s : State) : State :=
  if s.hbm.exiting && s.hbm.sr.isEmpty && s.hbm.recal.isEmpty then
    let s1 : State := { s with hbm := { s.hbm with exiting := false } }
    (s1.put F.HBM_STS_SR 0).peak F.HBM_PM_STS_EXIT_NS_MAX ((s.dev.time - s.hbm.exitStart) * 5 / 6)
  else s

/-- Whether the temperature has moved by RECAL_C since the last calibration (R375). -/
def State.recalDue (s : State) : Bool :=
  let t := s.get F.HBM_STS_TEMP
  decide (s.get F.HBM_SR_CFG_RECAL_C ≤ max t s.hbm.calTemp - min t s.hbm.calTemp)

/-- The pseudo-channel test of `p` starts (R372). DEDUCED, log entry 104. -/
def pcTestStart (p : Nat) (s : State) : State :=
  if !testModes s.dev.mode || s.hbm.pcTests.contains p then s
  else startTest .hbm 3 p { s with hbm := { s.hbm with pcTests := s.hbm.pcTests ++ [p] } }

end Sys2Proof.Machine
end

