-- ==== Sys2Proof/Machine/Queues.lean ====
section
/-! DEFINITION. The commands of the family Queues (spec/07). -/
namespace Sys2Proof.Machine

open Sys2Proof

/-- After what happens to queue `q`: a stop asked for takes effect, then whatever arrived behind a command goes on (R154, R156). -/
def qEnd (q : Nat) (s : State) : State := qResume q (stopSettle q s)

/-! ### Contexts (R165 to R167) -/

/-- HBM offset of the context of `q` (R155). -/
def State.ctxOff (s : State) (q : Nat) : Nat := s.get F.QEN_CTX_BASE_BASE * 2 ^ 29 + 128 * q

/-- Whether what waits for a context only wants it in the cache. -/
def QAct.pre : QAct → Bool
  | .prefetch _ => true
  | .command _ op => op == 9
  | _ => false

/-- A context with an uncorrectable error: zeros but for ERROR with DATA_ERROR; its operation is lost without a record (R167).
DEDUCED, log entry 50. -/
def ctxLost (q : Nat) (s : State) : State :=
  let s0 := setQst q 4 (abandonOp q s)
  let s1 := s0.setQa q { s0.qa q with lost := true }
  let s2 := (((List.range 16).foldl (fun t j => t.setCtxW q j 0) s1).cput q C.STATE 4).cput q C.ERR_STATUS 0x08
  let o := s.ctxOff q
  let s3 := (List.range 16).foldl (fun t j => setPoison (o + 8 * j) false t) s2
  mirror q false (faultEvent .qen 3 q (faultEvent .qen 1 q s3))

/-- What waited for a context is carried out, behind a command in progress. -/
def qRun (q : Nat) (a : QAct) (s : State) : State :=
  if (s.qa q).cmd.isSome then s.setQa q { s.qa q with acts := (s.qa q).acts ++ [a] } else qDo q a s

/-- CONTEXT_LOADED: one of the 1,024 oldest reads returns. A prefetch that finds no way is skipped; anything else waits for one. -/
def doContextLoaded (q : Nat) (ecc : Ecc) (s : State) : State :=
  match (s.qen.loads.take 1024).find? fun e => e.1 == q with
  | none => s
  | some e =>
    let pre := e.2.all QAct.pre
    let gone := fun (t : State) => ({ t with qen := { t.qen with loads := t.qen.loads.filter (fun x => x.1 != q)
                                                                 pinWait := t.qen.pinWait.filter (fun x => x != q) } } : State)
    match ctxRoom q pre s with
    | none =>
      if pre then qResume q (e.2.foldl (fun t a => qRun q a t) (gone s))
      else if s.qen.pinWait.contains q then s
      else { s with qen := { s.qen with pinWait := s.qen.pinWait ++ [q] } }.bump F.QEN_STS_PIN_WAIT
    | some s1 =>
      let o := s.ctxOff q
      let bad := ecc == .ue || (List.range 16).any fun j => s.hbmPoison (o + 8 * j)
      let s2 := eccFound o ecc (ctxTouch q (gone s1))
      let s3 := if bad then ctxLost q s2 else s2
      fetchTry q (qResume q (e.2.foldl (fun t a => qRun q a t) s3))

/-- The context of `q` is asked for, if it is not cached; answers whether it is. -/
def ctxNeed (q : Nat) (s : State) : State × Bool :=
  if s.cached q then (s, true)
  else if s.qen.loads.any fun e => e.1 == q then (s, false)
  else (qArrive q .need s, false)

/-! ### Descriptors (R158, R159) -/

/-- The byte string in pieces of 64 bytes. -/
def descs (n : Nat) (l : List Byte) : List (List Byte) := (List.range n).map fun i => (l.drop (64 * i)).take 64

/-- DESCRIPTOR_FETCHED: the answer of the fetch in progress is taken. -/
def doDescriptorFetched (q : Nat) (s : State) : State :=
  let x := s.qa q
  match x.fetchAns with
  | none => s
  | some (ans, data) =>
    let s1 := s.setQa q { x with fetchOut := 0, fetchAns := none, fetchDrop := false }
    if x.fetchDrop then fetchTry q s1
    else if ansGood ans then
      fetchTry q (s1.setQa q { s1.qa q with fetched := x.fetched ++ descs x.fetchOut data })
    else qEnd q (queueFail q (ansStatus ans) s1)

/-! ### Start of an operation (R157, R173) -/

/-- Free slots of CQ `c`. -/
def State.cqFree (s : State) (c : Nat) : Nat :=
  let n := s.ringN c
  n - 1 - (s.cget c C.TAIL + n - s.cget c C.HEAD % n) % n - s.cget c C.RESERVED

/-- Pages of the run of a MIGRATE: entry and source DA. -/
def State.migRun (s : State) (q : Nat) : List (Nat × Word) :=
  (List.range (s.df q 1 32 11)).map fun j => (s.df q 1 0 28 + j, s.xtE (s.df q 1 0 28 + j))

/-- Whether a destination run of a MIGRATE is one that R188 allows. -/
def State.migDst (s : State) (q : Nat) : Bool :=
  let dst := s.df q 2 0 48
  let n := s.df q 1 32 11 * 65536
  if daT dst = 7 then s.pinned (daOff dst) n
  else decide (daT dst ≤ 5) && (s.migRun q).all (fun e => fieldOf e.2 16 4 == 7) && (s.erngOf (s.cget q C.ENV) true dst n).isSome

/-- The conditions of R144 and R188 on a MIGRATE: the status of the first that fails. -/
def State.migCheck (s : State) (q : Nat) : Option Nat :=
  let run := s.migRun q
  let dst := s.df q 2 0 48
  let n := s.df q 1 32 11 * 65536
  if run.any (fun e => decide (e.1 < s.get F.WXL_TBL_SIZE_ENTRIES) && fieldOf e.2 6 10 != s.cget q C.ENV) then some 0x03
  else if run.any (fun e => decide (s.get F.WXL_TBL_SIZE_ENTRIES ≤ e.1) || !s.xtValid e.2) then some 0x02
  else if s.wxl.migs.any (fun m => overlap m.first m.count (s.df q 1 0 28) (s.df q 1 32 11)) then some 0x02
  else if run.any (fun e => s.portFenced (daT (xtDa e.2)) || overlap (xtDa e.2) 65536 dst n) || s.portFenced (daT dst) then some 0x02
  else if !s.migDst q then some 0x02
  else none

/-- WXL takes a MIGRATE, of which it runs 16 at most; the others start no step until one ends (R144, R145). -/
def migTake (q : Nat) (s : State) : State :=
  if 16 ≤ s.wxl.migs.length then s.setQa q { s.qa q with phase := .ctl }
  else
    let srcs := (s.migRun q).map fun e => xtDa e.2
    let m : Mig := { q := q, first := s.df q 1 0 28, count := s.df q 1 32 11, dst := s.df q 2 0 48, srcs := srcs, copy := srcs }
    let s1 : State := { s with wxl := { s.wxl with migs := s.wxl.migs ++ [m] } }
    (s1.put F.WXL_MIG_STS_ACTIVE s1.wxl.migs.length).setQa q { s1.qa q with phase := .waiting, relOff := 0 }

/-- Order 5 of a NOTIFY (R191, R291). DEDUCED, log entry 58. -/
def State.notifyCheck (s : State) (q : Nat) : Option Nat :=
  let e := s.cget q C.ENV
  if s.df q 0 8 1 = 0 then (if s.fnEnv (s.df q 1 0 11) == some e then none else some 0x03)
  else match s.vcBound (s.df q 1 0 3) (s.df q 1 16 3) with
    | some b => if b = e then none else some 0x03
    | none => none

/-- Whether the operation that an ABORT names is in progress; an ABORT that names itself is not (R193). -/
def State.abortHits (s : State) (q : Nat) : Bool :=
  let t := s.df q 1 0 22
  t != q && s.cget t C.OP_ACTIVE == 1 && s.cget t C.CK_SEQ == s.df q 1 32 16 && !s.isCq t

/-- Order 5 of an ABORT (R193). DEDUCED, log entry 58. -/
def State.abortCheck (s : State) (q : Nat) : Option Nat :=
  if s.cget (s.df q 1 0 22) C.ENV != s.cget q C.ENV then some 0x03
  else if s.abortHits q then none else some 0x02

/-- Order 5 of a SERVICE_CALL: the core's binding and state (R195). DEDUCED, log entry 94. -/
def State.callCheck (s : State) (q : Nat) : Option Nat :=
  let c := s.df q 0 8 3
  if !s.coreDev c && s.get (F.GDC_CORE_CTL_ENV c) != s.cget q C.ENV then some 0x03
  else if s.get (F.GDC_CORE_STS_STATE c) = 1 then none else some 0x02

/-- Order 5 of Table 8.2: ownership and state conditions of the opcode (R188, R191, R193, R195, R196). -/
def State.descState (s : State) (q : Nat) : Option Nat :=
  match s.opc q with
  | 0x06 => s.migCheck q
  | 0x0A => s.notifyCheck q
  | 0x0C => s.abortCheck q
  | 0x0E => s.callCheck q
  | op => if isData op && (s.descRanges q).any (fun r => decide (daT r.1 ≤ 6) && s.portFenced (daT r.1)) then some 0x02 else none

/-- An operand list is read in one read (R186, R192, R194). -/
def listRead (q len : Nat) (s : State) : State :=
  let x := s.qa q
  let da := if s.opc q = 0x07 then s.df q 2 0 48 else s.df q 1 0 48
  wxlAccess { f := { typ := .read, cls := 3, inp := 1, out := 0, env := s.cget q C.ENV, addr := da, len := len, origin := .list q } }
    (s.setQa q { x with phase := .ctl, listOut := true, listAns := none, list := [] })

/-- The operation in CUR_DESC begins: its checks in order, then SPL, WXL or its list (R157, R173, R186). -/
def opBegin (q : Nat) (s : State) : State :=
  match s.descCheck q with
  | some st => endOp q st 0 0 0 s
  | none => match s.descState q with
    | some st => endOp q st 0 0 0 s
    | none => match s.opc q with
      | 0x06 => migTake q s
      | 0x07 => listRead q (8 * s.df q 0 8 4) s
      | _ => s.setQa q { s.qa q with phase := .waiting }

/-- QEN starts the operation at HEAD with its fetched descriptor, in one action (R157). -/
def opStart (q : Nat) (d : List Byte) (s : State) : State :=
  let c := s.cget q C.CQ
  let x := s.qa q
  let s1 := (List.range 8).foldl (fun t j => t.setCtxW q (8 + j) (BitVec.ofNat 64 (bytesAt d (8 * j) 8))) s
  let s2 := (((s1.cput q C.CK_SEQ (s.cget q C.HEAD)).cput q C.OP_ACTIVE 1).cput q C.HEAD (s.cget q C.HEAD + 1)).cput c C.RESERVED
    (s.cget c C.RESERVED + 1)
  let s3 := (((s2.cput q C.CK_STEPS 0).cput q C.CK_BYTES 0).cput q C.CK_ACC 0).cput q C.CK_ENERGY 0
  let s4 := s3.setQa q { x with
    fetched := x.fetched.drop 1, phase := .idle, relOff := 0, opCharge := 0, opReleased := false, list := [], listOut := false,
    listAns := none, firstBad := 0, lastBad := 0, scrubNew := false, drops := [], atomSent := false, atomMark := false, resumed := false,
    slotWait := false, lagWait := false, loads := [], asked := false, fence := [], fenceLines := [] }
  opBegin q (mirror c false (mirror q false s4))

/-- Whether a start of SQ `q` would pin more contexts of its set than R165 lets it. DEDUCED, log entry 49. -/
def State.pinFull (s : State) (q : Nat) : Bool :=
  !s.pinnedCtx q && decide (min 12 (s.ctxWays - 4) ≤ ((s.ctxSet q).filter fun e => s.pinnedCtx e.1).length)

/-- Whether everything but the CQ lets SQ `q` start an operation (R157, R161, R401). DEDUCED, log entry 49. -/
def State.mayStart (s : State) (q : Nat) : Bool :=
  let x := s.qa q
  s.qenRuns && !s.isCq q && (s.qst q == 1 || (s.qst q == 3 && decide (0 < s.available q))) && !x.stopReq && s.cget q C.OP_ACTIVE == 0
    && x.held.isNone && s.owns (s.cget q C.ENV)

/-- OPERATION_START. A context that has left the cache, or a descriptor not yet fetched, is fetched first; waits for a way and for a CQ
slot are counted once each. -/
def doOperationStart (q : Nat) (s : State) : State :=
  if !s.mayStart q then s
  else if !(ctxNeed q s).2 then (ctxNeed q s).1
  else if (s.qa q).fetched.isEmpty then fetchTry q s
  else
    let c := s.cget q C.CQ
    let r := ctxNeed c s
    if !r.2 then r.1
    else if !s.isCq c || s.qst c != 1 then s
    else if s.cqFree c = 0 then
      (if (s.qa q).slotWait then s else (s.setQa q { s.qa q with slotWait := true }).bump F.QEN_STS_CQ_FULL_WAIT)
    else if s.pinFull q then
      (if s.qen.pinWait.contains q then s
       else { s with qen := { s.qen with pinWait := s.qen.pinWait ++ [q] } }.bump F.QEN_STS_PIN_WAIT)
    else match (s.qa q).fetched with
      | [] => s
      | d :: _ =>
        let s1 : State := { s with qen := { s.qen with pinWait := s.qen.pinWait.filter fun x => x != q } }
        fetchTry q (qEnd q (opStart q d (ctxTouch q (ctxTouch c s1))))

/-! ### Completion records (R168 to R170) -/

/-- A pending-record event of CQ `c` (R170). -/
def cqEvent (c : Nat) (s : State) : State :=
  let s1 := hpEvent (s.cget c C.OWNER_FN) (s.cget c C.VECTOR) s
  (s1.setQa c { s1.qa c with modTimer := false }).cput c C.PENDING 0

/-- PENDING after a record with status `st` (R170). -/
def cqPending (c st : Nat) (s : State) : State :=
  let p := s.cget c C.PENDING
  let n := satAdd 8 p 1
  let s1 := s.cput c C.PENDING n
  let s2 := if p = 0 && s.cget c C.MOD_TIME_US != 0 then s1.setQa c { s1.qa c with modTimer := true } else s1
  if s.cget c C.IRQ_EN = 1 && (decide (max 1 (s.cget c C.MOD_COUNT) ≤ n) || (st != 0 && s.cget c C.ERR_IMM = 1)) then cqEvent c s2 else s2

/-- The record takes slot TAIL of CQ `c` with its PHASE. DEDUCED, log entry 45. -/
def recordPut (q c : Nat) (r : Record) (s : State) : State :=
  let n := s.ringN c
  let tail := s.cget c C.TAIL % n
  let f : Frame := { typ := .write, cls := 2, inp := 1, out := 0, env := s.cget q C.ENV, addr := s.ringDa c + 32 * tail, len := 32,
                     data := recordBytes r q (s.cget c C.PHASE) s.dev.time, origin := .record q }
  let s1 := wxlAccess { f := f } s
  let next := (tail + 1) % n
  let s2 := ((s1.cput c C.TAIL next).cput c C.RESERVED (s.cget c C.RESERVED - 1)).cput c C.PHASE
    (if next = 0 then 1 - s.cget c C.PHASE else s.cget c C.PHASE)
  let x := s2.qa q
  let s3 := ((s2.setCtxW q 7 (s2.ctxW q 7 + BitVec.ofNat 64 x.opCharge)).cput q C.CQ_WAIT 0).setQa q { x with held := none, opCharge := 0 }
  let s4 := cqPending c r.status (chargeEnv (s.cget q C.ENV) x.opCharge s3)
  let s5 := mirror c false (mirror q false s4)
  drainCheck q (if r.status != 0 && s.cget q C.STOP_ON_ERR = 1 then stopQueue q s5 else s5)

/-- Whether a record that finished before `r` still waits for the same CQ. DEDUCED, log entry 51. -/
def State.recordAhead (s : State) (c : Nat) (r : Record) : Bool :=
  s.qaux.any fun e => e.1 != c && s.cget e.1 C.CQ == c && !s.isCq e.1 && s.cget e.1 C.CQ_GEN == s.cget c C.GEN && (match e.2.held with
    | some k => decide (k.ord < r.ord)
    | none => false)

/-- The record of `q` is held for its CQ (R159). DEDUCED, log entry 51. -/
def recordWait (q : Nat) (s : State) : State := if s.cget q C.CQ_WAIT = 1 then s else mirror q false (s.cput q C.CQ_WAIT 1)

/-- The record's lookup of its CQ in the context cache: a hit, unless the context had to be loaded for it. DEDUCED, log entry 48. -/
def cqLookup (q c : Nat) (s : State) : State :=
  let x := s.qa q
  ctxTouch c (if x.cqMiss then s.setQa q { x with cqMiss := false } else s.bump F.QEN_CC_STS_HITS)

/-- COMPLETION_RECORD_WRITE: the record is written, waits, or meets a queue-level failure. DEDUCED, log entry 48. -/
def doCompletionRecordWrite (q : Nat) (s : State) : State :=
  match (s.qa q).held with
  | none => s
  | some r =>
    let c := s.cget q C.CQ
    if !s.dev.mode.serving || !s.owns (s.cget q C.ENV) || s.lagOf q != 0 then s
    else if !(ctxNeed q s).2 then (ctxNeed q s).1
    else if !(ctxNeed c s).2 then (ctxNeed c (s.setQa q { s.qa q with cqMiss := true })).1
    else if !s.isCq c || s.cget c C.GEN != s.cget q C.CQ_GEN then qEnd q (queueFail q 0x0D s)
    else if s.qst c != 1 then recordWait q s
    else if s.recordAhead c r then s
    else
      let da := s.ringDa c + 32 * (s.cget c C.TAIL % s.ringN c)
      match s.daCheck false (s.cget q C.ENV) true da 32 with
      | .no .fnStop => recordWait q s
      | .no k =>
        let f : Frame := { typ := .write, cls := 2, inp := 1, out := 0, env := s.cget q C.ENV, addr := da, len := 32, origin := .record q }
        recordWait q (queueFail c (ansStatus k.ans) (refuseNote f k s))
      | .ok _ => fetchTry q (qEnd q (recordPut q c r (cqLookup q c s)))

/-- CQ_MODERATION_EXPIRY: the moderation timer of CQ `q` expires. -/
def doCqModerationExpiry (q : Nat) (s : State) : State :=
  if !(s.qa q).modTimer || !s.isCq q || !s.dev.mode.serving then s
  else
    let s1 := s.setQa q { s.qa q with modTimer := false }
    if 0 < s.cget q C.PENDING && s.cget q C.IRQ_EN = 1 then mirror q false (cqEvent q s1) else s1

/-! ### Queue commands (R162) -/

/-- `QEN_QCMD[k]` written with OP `op` for queue `q`. -/
def queueCmd (op k q : Nat) (a : Agent) (s : State) : State :=
  if k < 9 && q < 2 ^ 22 then ctlWriteBy a (R.QEN_QCMD k) (BitVec.ofNat 64 (op * 2 ^ 32 + q)) 64 s else s

/-- QUEUE_READ. -/
def doQueueRead (k q : Nat) (a : Agent) (s : State) : State := queueCmd 1 k q a s
/-- QUEUE_WRITE. -/
def doQueueWrite (k q : Nat) (a : Agent) (s : State) : State := queueCmd 2 k q a s
/-- QUEUE_ENABLE. -/
def doQueueEnable (k q : Nat) (a : Agent) (s : State) : State := queueCmd 3 k q a s
/-- QUEUE_MODIFY. -/
def doQueueModify (k q : Nat) (a : Agent) (s : State) : State := queueCmd 4 k q a s
/-- QUEUE_STOP. -/
def doQueueStop (k q : Nat) (a : Agent) (s : State) : State := queueCmd 5 k q a s
/-- QUEUE_START. -/
def doQueueStart (k q : Nat) (a : Agent) (s : State) : State := queueCmd 6 k q a s
/-- QUEUE_DRAIN. -/
def doQueueDrain (k q : Nat) (a : Agent) (s : State) : State := queueCmd 7 k q a s
/-- QUEUE_DISABLE. -/
def doQueueDisable (k q : Nat) (a : Agent) (s : State) : State := queueCmd 8 k q a s
/-- QUEUE_PREFETCH. -/
def doQueuePrefetch (k q : Nat) (a : Agent) (s : State) : State := queueCmd 9 k q a s

/-- QEN_ENABLE: `QEN_CTL` written with ENABLE 1. -/
def doQenEnable (a : Agent) (v : Word) (s : State) : State := ctlWriteBy a R.QEN_CTL (withField v 0 1 1) 64 s

/-! ### The meanings -/

/-- CONTEXT_LOADED. -/
def execContextLoaded (q : Nat) (ecc : Ecc) (s : State) : Host.Outcome State Fault Refusal := .next (doContextLoaded q ecc s)
/-- DESCRIPTOR_FETCHED. -/
def execDescriptorFetched (q : Nat) (s : State) : Host.Outcome State Fault Refusal := .next (doDescriptorFetched q s)
/-- OPERATION_START. -/
def execOperationStart (q : Nat) (s : State) : Host.Outcome State Fault Refusal := .next (doOperationStart q s)
/-- COMPLETION_RECORD_WRITE. -/
def execCompletionRecordWrite (q : Nat) (s : State) : Host.Outcome State Fault Refusal := .next (doCompletionRecordWrite q s)
/-- CQ_MODERATION_EXPIRY. -/
def execCqModerationExpiry (q : Nat) (s : State) : Host.Outcome State Fault Refusal := .next (doCqModerationExpiry q s)
/-- QUEUE_READ. -/
def execQueueRead (k q : Nat) (a : Agent) (s : State) : Host.Outcome State Fault Refusal := .next (doQueueRead k q a s)
/-- QUEUE_WRITE. -/
def execQueueWrite (k q : Nat) (a : Agent) (s : State) : Host.Outcome State Fault Refusal := .next (doQueueWrite k q a s)
/-- QUEUE_ENABLE. -/
def execQueueEnable (k q : Nat) (a : Agent) (s : State) : Host.Outcome State Fault Refusal := .next (doQueueEnable k q a s)
/-- QUEUE_MODIFY. -/
def execQueueModify (k q : Nat) (a : Agent) (s : State) : Host.Outcome State Fault Refusal := .next (doQueueModify k q a s)
/-- QUEUE_STOP. -/
def execQueueStop (k q : Nat) (a : Agent) (s : State) : Host.Outcome State Fault Refusal := .next (doQueueStop k q a s)
/-- QUEUE_START. -/
def execQueueStart (k q : Nat) (a : Agent) (s : State) : Host.Outcome State Fault Refusal := .next (doQueueStart k q a s)
/-- QUEUE_DRAIN. -/
def execQueueDrain (k q : Nat) (a : Agent) (s : State) : Host.Outcome State Fault Refusal := .next (doQueueDrain k q a s)
/-- QUEUE_DISABLE. -/
def execQueueDisable (k q : Nat) (a : Agent) (s : State) : Host.Outcome State Fault Refusal := .next (doQueueDisable k q a s)
/-- QUEUE_PREFETCH. -/
def execQueuePrefetch (k q : Nat) (a : Agent) (s : State) : Host.Outcome State Fault Refusal := .next (doQueuePrefetch k q a s)
/-- QEN_ENABLE. -/
def execQenEnable (a : Agent) (v : Word) (s : State) : Host.Outcome State Fault Refusal := .next (doQenEnable a v s)

end Sys2Proof.Machine
end

