-- ==== Sys2Proof/Machine/Operations.lean ====
section
/-! DEFINITION. The commands of the family Operations (spec/08, and the releases of spec/09). -/
namespace Sys2Proof.Machine

open Sys2Proof

/-! ### Releases (R203 to R205, R212, R348, R404) -/

/-- Queues whose operation on a path waits for nothing but the mirror (R404). -/
def State.lagging (s : State) (path : Nat) : List Nat :=
  (s.qaux.map (·.1)).filter fun q => s.waits q && s.opPath q == path && !s.mirrorOk q

/-- Waits for the mirror are counted once each (R404). -/
def lagNote (path : Nat) (s : State) : State :=
  ((s.lagging path).filter fun q => !(s.qa q).lagWait).foldl (fun t q =>
    (t.setQa q { t.qa q with lagWait := true }).bump F.PRL_MIRROR_LAG_WAIT) s

/-- Envelopes that a release of another envelope passes over for want of credit or tokens (ENV_STS). DEDUCED, log entry 61. -/
def passNote (e : Nat) (ws : List Nat) (s : State) : State :=
  let es := ((ws.map fun q => s.cget q C.ENV).eraseDups).filter fun k => k != e
  es.foldl (fun t k =>
    let t1 := if s.sget (F.ENV_CREDIT_CREDIT k) ≤ 0 then t.bump (F.ENV_STS_NOCREDIT k) else t
    if s.sget (F.ENV_CREDIT_BW_TOK k) ≤ 0 && ws.any (fun q => s.cget q C.ENV == k && isData (s.opc q)) then
      t1.bump (F.ENV_STS_CAPPED k)
    else t1) s

/-- The released unit of a SERVICE_CALL whose core waits in `gyield`: the write retires (R348). -/
def callReleased (q : Nat) (s : State) : State :=
  (List.range 8).foldl (fun t c =>
    match (t.coreOf c).yield with
    | none => t
    | some i =>
      if (t.mbox c i).sq = q && (t.mbox c i).st = 2 then
        (t.setCore c { t.coreOf c with yield := none }).setQa q { t.qa q with phase := .ctl }
      else t) s

/-- STEP_RELEASE: SPL releases to the path, if it can accept a release, the choice of Table 9.2. -/
def doStepRelease (path : Nat) (s : State) : State :=
  if !s.dev.mode.running || !s.is F.SPL_CTL_ENABLE || !s.pathOpen path then s
  else
    let ws := s.waiters path
    let s1 := lagNote path s
    match s.pickRelease path ws with
    | some (row, q) =>
      let s2 := doRelease path row q (passNote (s.cget q C.ENV) ws s1)
      if s.opc q = 0x0E then callReleased q s2 else s2
    | none =>
      let t := s.put F.PWR_STRETCH_STS_FREEZE 0
      if s.is F.PWR_STRETCH_STS_FREEZE && (t.pickRelease path (t.waiters path)).isSome then
        { s1 with spl := { s1.spl with deferred := true } }
      else s1

/-! ### Steps (R174, R175, R180) -/

/-- STEP_BOUNDARY. -/
def doStepBoundary (q : Nat) (s : State) : State :=
  if !s.dev.mode.serving then s
  else
    let s1 := boundary q s
    qEnd q (if s.opc q = 0x08 then releaseHeld s1 else s1)

/-- The step in flight on a pipeline that has failed: it runs again from its checkpoint; an ATOMIC whose packet was sent ends with
DATA_ERROR. DEDUCED, log entry 56. -/
def pipeDiscard (pipe q : Nat) (s : State) : State :=
  if s.opc q = 0x08 && (s.qa q).atomSent then qEnd q (earlyEnd q 0x08 s)
  else
    let s1 := nextGen q s
    let s2 : State := { s1 with spl := { s1.spl with rels := s1.spl.rels.map fun (r : Rel) => if r.q = q then { r with started := false } else r } }
    qEnd q (s2.setQa q { s2.qa q with pipeWait := some pipe, phase := .released })

/-- MOVER_PIPE_ERROR. DEDUCED, log entry 56. -/
def doMoverPipeError (pipe : Nat) (s : State) : State :=
  if !s.qen.pipes.contains pipe || !testModes s.dev.mode then s
  else
    let s1 := faultEvent .qen 4 pipe s
    let s2 : State := { s1 with qen := { s1.qen with
      ptest := if s1.qen.ptest.contains pipe then s1.qen.ptest else s1.qen.ptest ++ [pipe] } }
    match s.qaux.find? (fun e => e.2.step.on && e.2.step.pipe == pipe) with
    | none => s2
    | some e => pipeDiscard pipe e.1 s2

/-- The released step of queue `q`, with opcode `op`, begins on a pipeline and issues its accesses. -/
def stepGo (op q : Nat) (act : State → State) (s : State) : State :=
  if s.opc q != op || s.cget q C.OP_ACTIVE != 1 || !s.dev.mode.serving then s
  else match s.beginable q with
    | none => s
    | some (r, p) => act (beginStep r p s)

/-- The reads of a step from SRC, cut also for the other addresses `as`. -/
def srcReads (q : Nat) (as : List Nat) (s : State) : State :=
  let src := s.df q 1 0 48
  issueReads q ((s.pieces q (src :: as)).map fun c => (c.1, src + c.1, c.2)) s

/-- COPY: a released step begins. -/
def doCopy (q : Nat) (s : State) : State := stepGo 0x01 q (fun t => srcReads q [t.df q 2 0 48] t) s

/-- The writes of a FILL step. -/
def fillWrites (q : Nat) (s : State) : State :=
  let dst := s.df q 2 0 48
  let l := s.pieces q [dst]
  l.foldl (fun t c => moverWrite q c.1 (dst + c.1) ((List.range c.2).map fun i => patternByte (s.dw q 4) (dst + c.1 + i)) t)
    (stepOpen q 0 l.length s)

/-- FILL. -/
def doFill (q : Nat) (s : State) : State := stepGo 0x02 q (fillWrites q) s

/-- CHECK. -/
def doCheck (q : Nat) (s : State) : State := stepGo 0x03 q (srcReads q []) s

/-- COPY_CHECK. -/
def doCopyCheck (q : Nat) (s : State) : State := stepGo 0x04 q (fun t => srcReads q [t.df q 2 0 48] t) s

/-- SCRUB: the step's 64-byte blocks are read. -/
def scrubReads (q : Nat) (s : State) : State :=
  let st := (s.qa q).step
  let src := s.df q 1 0 48
  issueReads q ((List.range (st.len / 64)).map fun i => (st.off + 64 * i, src + st.off + 64 * i, 64)) s

/-- SCRUB. -/
def doScrub (q : Nat) (s : State) : State := stepGo 0x05 q (scrubReads q) s

/-- The reads of a MIGRATE step, 4 KiB each. -/
def migReads (q : Nat) (s : State) : State :=
  match s.migOf q with
  | none => s
  | some m =>
    let st := (s.qa q).step
    let n := st.len / 4096
    (List.range n).foldl (fun t i =>
      let off := st.off + 4096 * i
      if !t.stepGoes q off then stepReadEnd q (t.qa q).gen t
      else migAccess (moverFrame t q off (m.at off).1 .read 4096 []) t) (stepOpen q n 0 s)

/-- MIGRATE: one that WXL has not taken is taken, under the conditions of R144, when fewer than 16 run; otherwise its released step
begins. -/
def doMigrate (q : Nat) (s : State) : State :=
  let x := s.qa q
  if s.opc q = 0x06 && s.cget q C.OP_ACTIVE = 1 && x.phase == .ctl && (s.migOf q).isNone && s.sqRuns q && s.qenRuns then
    match s.migCheck q with
    | some st => qEnd q (finishOp q st 0 s)
    | none => migTake q s
  else stepGo 0x06 q (migReads q) s

/-- Destinations of a MULTICAST_WRITE by target, once the list is read. -/
def State.mcRanges (s : State) (q : Nat) : List Nat := (List.range (s.df q 0 8 4)).map (mcDst (s.qa q).list)

/-- Whether two of a list of ranges of one length share a byte. -/
def anyOverlap (n : Nat) : List Nat → Bool
  | [] => false
  | a :: r => r.any (fun b => overlap a n b n) || anyOverlap n r

/-- The checks of a target list in the order of Table 8.2 (R173, R186, R196). -/
def State.mcCheck (s : State) (q : Nat) : Option Nat :=
  let l := (s.qa q).list
  let ds := s.mcRanges q
  let ln := s.df q 3 0 41
  if (List.range (s.df q 0 8 4)).any (fun t => bytesAt l (8 * t + 6) 2 != 0) then some 0x0B
  else if ds.any (fun d => !daValid d ln) || anyOverlap ln (s.df q 1 0 48 :: ds) then some 0x0B
  else if ds.any (fun d => daT d == 8) then some 0x03
  else if ds.any (fun d => !s.hasTarget d) then some 0x05
  else if ds.any (fun d => decide (daT d ≤ 6) && s.portFenced (daT d)) then some 0x02
  else none

/-- Where an operation stands whose operand list is read first: not asked for, outstanding, failed with a status, or here. -/
inductive ListSt where
  | ask | out | bad (st : Nat) | here
deriving DecidableEq, Repr

/-- That of queue `q`. -/
def State.listSt (s : State) (q : Nat) : ListSt :=
  let x := s.qa q
  if x.listOut then .out
  else match x.listAns with
    | none => .ask
    | some a => if ansGood a then .here else .bad (ansStatus a)

/-- MULTICAST_WRITE: its list first, then its released step. -/
def doMulticastWrite (q : Nat) (s : State) : State :=
  let x := s.qa q
  if s.opc q = 0x07 && s.cget q C.OP_ACTIVE = 1 && x.phase == .ctl && s.sqRuns q && s.qenRuns then
    match s.listSt q with
    | .out => s
    | .ask => listRead q (8 * s.df q 0 8 4) s
    | .bad st => qEnd q (finishOp q st 0 s)
    | .here => match s.mcCheck q with
      | some st => qEnd q (finishOp q st 0 s)
      | none => s.setQa q { x with phase := .waiting, relOff := s.cget q C.CK_BYTES }
  else stepGo 0x07 q (fun t => srcReads q ((t.mcAlive q).map (mcDst (t.qa q).list)) t) s

/-- The ATOM of an ATOMIC goes out (R189). -/
def atomSend (q : Nat) (s : State) : State :=
  let da := s.df q 1 0 48
  let f : Frame := { moverFrame s q 0 da .atomic 8 (toBytes 8 (s.dw q 2).toNat ++ toBytes 8 (s.dw q 3).toNat) with atop := s.df q 0 8 2 }
  wxlAccess { f := f } (s.setQa q { s.qa q with atomSent := true })

/-- The step of an ATOMIC begins: in a PAIRED pair the mark goes first, and the packet at a further command once it is mirrored (R403,
R404). -/
def atomBegin (q : Nat) (s : State) : State :=
  let s1 := stepOpen q 1 0 s
  if s.paired then mirror q false (s1.setQa q { s1.qa q with atomMark := true }) else atomSend q s1

/-- ATOMIC. -/
def doAtomic (q : Nat) (s : State) : State :=
  let x := s.qa q
  if s.opc q = 0x08 && x.step.on && x.atomMark && !x.atomSent && s.dev.mode.serving then
    (if s.prl.unmirrored.any (fun i => i.q == q) then s else atomSend q s)
  else stepGo 0x08 q (atomBegin q) s

/-! ### Control operations (R190 to R195) -/

/-- Whether the control operation of queue `q`, with opcode `op`, has been released and has not begun. -/
def State.ctlReady (s : State) (op q : Nat) : Bool :=
  s.opc q == op && s.cget q C.OP_ACTIVE == 1 && (s.qa q).phase == .released && s.sqRuns q && s.dev.mode.serving

/-- Whether it has begun and waits for its own end. -/
def State.ctlWaits (s : State) (op q : Nat) : Bool :=
  s.opc q == op && s.cget q C.OP_ACTIVE == 1 && (s.qa q).phase == .ctl && s.sqRuns q && s.dev.mode.serving

/-- The operation of `q` ends with a status. -/
def opDone (q st : Nat) (s : State) : State := qEnd q (finishOp q st 0 s)

/-- Outputs that a FENCE masks: LP0 to LP5 and the pair peer, HBM, the host. -/
def State.fenceOuts (s : State) (q : Nat) : List Nat :=
  ((List.range 7).filter fun p => bitOf (s.df q 0 8 8) p && s.hasPort p).map portSp
    ++ (if s.df q 0 15 1 = 1 then [2] else []) ++ (if s.df q 0 17 1 = 1 then [0] else [])

/-- Writes of envelope `e` on their way to the outputs `outs`, by origin and address: in the switch, in unacknowledged flits, and held in
HEP (R190). -/
def State.envWrites (s : State) (e : Nat) (outs : List Nat) : List (Origin × Nat) :=
  let mine := fun (f : Frame) => f.typ == .write && f.env == e && (if f.mcast then f.outMask.any fun m => outs.contains m.1 else outs.contains f.out)
  ((s.swc.inject ++ s.swc.queued ++ s.swc.retry ++ s.hep.heldRec).filter mine).map (fun f => (f.origin, f.addr % 2 ^ 48))
    ++ ((List.range 7).filter fun p => outs.contains (portSp p)).flatMap fun p =>
      ((s.port p).unacked.filter fun k => k.pkt.op == 2 && k.pkt.env == e).map fun k => (k.origin, k.pkt.addr % 2 ^ 48)

/-- Whether an accepted write of envelope `e` still waits inside WXL. -/
def State.wxlWaits (s : State) (e : Nat) : Bool :=
  (s.wxl.heldAcc ++ s.wxl.fills.flatMap (·.2) ++ s.wxl.atsWait.map (·.2)).any fun a => a.f.typ == .write && a.f.env == e

/-- Lines of a FENCE's list whose port is up are written back, and leave the list for the writes it waits for. -/
def fenceFlush (q : Nat) (s : State) : State :=
  let x := s.qa q
  let mine := s.wxl.pc.filter fun l => x.fenceLines.contains l.da && l.dirty && !l.out && s.pcPortUp l.da
  let left := x.fenceLines.filter fun d => s.wxl.pc.any (fun l => l.da == d && l.dirty && !l.out) && !mine.any fun l => l.da == d
  let s1 : State := { s with wxl := { s.wxl with pc := s.wxl.pc.map fun l =>
    if (mine.any fun k => k.da == l.da) then { l with out := true, dirty := false } else l } }
  let s2 := mine.foldl (fun t l => t.inject (wbFrame l)) s1
  s2.setQa q { x with fenceLines := left, fence := x.fence ++ mine.map fun l => (Origin.writeBack l.da, l.da) }

/-- The status that a masked port's state gives a FENCE at once (R190). DEDUCED, log entry 57. -/
def State.fencePort (s : State) (q : Nat) : Option Nat :=
  let ps := (List.range 7).filter fun p => bitOf (s.df q 0 8 8) p && s.hasPort p
  if ps.any s.portFenced then some 0x06 else if ps.any (fun p => s.outState (4 + p) == 2) then some 0x05 else none

/-- FENCE: what it waits for is recorded. DEDUCED, log entry 57. -/
def doFence (q : Nat) (s : State) : State :=
  if !s.ctlReady 0x09 q || s.wxlWaits (s.cget q C.ENV) then s
  else match s.fencePort q with
    | some st => opDone q st s
    | none =>
      let e := s.cget q C.ENV
      let outs := s.fenceOuts q
      let lines := if s.df q 0 16 1 = 1 then
          (s.wxl.pc.filter fun l => l.env == e && l.dirty && outs.contains (daSp l.da)).map (·.da) else []
      fenceFlush q (s.setQa q { s.qa q with phase := .ctl, fence := s.envWrites e outs, fenceLines := lines })

/-- FENCE_COMPLETE: nothing it waits for is left; lines that wait for their port are written back first. -/
def doFenceComplete (q : Nat) (s : State) : State :=
  if !s.ctlWaits 0x09 q then s
  else
    let s1 := fenceFlush q s
    let x := s1.qa q
    let now := s1.envWrites (s.cget q C.ENV) (s.fenceOuts q)
    if x.fenceLines.isEmpty && !x.fence.any (fun w => now.contains w) then opDone q 0 s1 else s1

/-- Whether a write by which an operation of SQ `q` told its end has not entered HEP's egress (R191). -/
def State.ownWrites (s : State) (q : Nat) : Bool :=
  (s.swc.inject ++ s.swc.queued ++ s.swc.retry ++ s.hep.heldRec ++ s.wxl.atsWait.map (·.2.f)).any fun f =>
    (f.out == 0 || f.mcast) && f.typ == .write && (match f.origin with
    | .step k _ _ => k == q
    | .record k => k == q
    | .result k => k == q
    | .report k => k == q
    | _ => false)

/-- NOTIFY to a partner: a message frame behind the SQ's writes (R191, R222, R296). -/
def notifyPartner (q : Nat) (s : State) : State :=
  let p := s.df q 1 0 3
  if s.portFenced p then opDone q 0x06 s
  else if s.outState (4 + p) = 2 then opDone q 0x05 s
  else
    let f : Frame := { typ := .msi, cls := 2, inp := 1, out := 4 + p, env := s.cget q C.ENV,
                       origin := .msg (s.df q 1 16 3) (s.df q 1 8 7) (s.df q 0 9 2) }
    opDone q 0 (s.inject f)

/-- NOTIFY. -/
def doNotify (q : Nat) (s : State) : State :=
  if !s.ctlReady 0x0A q then s
  else match s.notifyCheck q with
    | some st => opDone q st s
    | none =>
      if s.df q 0 8 1 = 1 then notifyPartner q s
      else if s.ownWrites q then s
      else opDone q 0 (hpEvent (s.df q 1 0 11) (s.df q 1 16 11) s)

/-- Entries of the list of an XLATE_UPDATE: first and second word (Table 8.11). -/
def State.xlList (s : State) (q : Nat) : List (Word × Word) :=
  (List.range (s.df q 0 8 7)).map fun i =>
    (BitVec.ofNat 64 (bytesAt (s.qa q).list (16 * i) 8), BitVec.ofNat 64 (bytesAt (s.qa q).list (16 * i + 8) 8))

/-- Whether an entry lies in a translated window of a function of envelope `e` (R120). -/
def State.xlOwned (s : State) (e i : Nat) : Bool := (s.winsOf i).any fun w => s.fnEnv (w / 2) == some e

/-- The checks of R192 on the list. -/
def State.xlCheck (s : State) (q : Nat) : Option Nat :=
  let l := s.xlList q
  let e := s.cget q C.ENV
  let ix := l.map fun x => fieldOf x.1 0 28
  if ix.any (fun i => decide (s.get F.WXL_TBL_SIZE_ENTRIES ≤ i)) || ix.eraseDups.length != ix.length
      || l.any (fun x => fieldOf x.1 28 4 != 0 || fieldOf x.1 41 23 != 0 || fieldOf x.2 56 8 != 0 || (fieldOf x.2 0 1 == 1 && !s.xtValid x.2)) then
    some 0x0B
  else if l.any (fun x => !s.xlOwned e (fieldOf x.1 0 28) || fieldOf x.2 6 10 != e) then some 0x03
  else if l.any (fun x => (fieldOf x.1 40 1 == 1 && fieldOf (s.xtE (fieldOf x.1 0 28)) 48 8 != fieldOf x.1 32 8)
      || s.wxl.migs.any fun m => decide (m.first ≤ fieldOf x.1 0 28) && decide (fieldOf x.1 0 28 < m.first + m.count)) then some 0x02
  else none

/-- The batch is changed as one, and the report waits for the frames that the old entries translated (R121, R192). -/
def xlApply (q : Nat) (s : State) : State :=
  let l := s.xlList q
  let old := (l.map fun x => s.xtE (fieldOf x.1 0 28)).filter s.xtValid
  let s1 := l.foldl (fun t x => xtChange (fieldOf x.1 0 28) x.2 t) s
  let s2 : State := { s1 with wxl := { s1.wxl with xlWaits := s1.wxl.xlWaits ++ [{ q := q, das := old.map xtDa }] } }
  mirror q false (s2.setQa q { s2.qa q with phase := .ctl })

/-- XLATE_UPDATE: its list is read, then the batch is checked and changed. -/
def doXlateUpdate (q : Nat) (s : State) : State :=
  if s.ctlReady 0x0B q then listRead q (16 * s.df q 0 8 7) s
  else if !s.ctlWaits 0x0B q || s.wxl.xlWaits.any (fun x => x.q == q) then s
  else match s.listSt q with
    | .out => s
    | .ask => listRead q (16 * s.df q 0 8 7) s
    | .bad st => opDone q st s
    | .here => match s.xlCheck q with
      | some st => opDone q st s
      | none => xlApply q s

/-- The mailbox entry of the SERVICE_CALL of SQ `t`, placed or taken: core and entry. -/
def State.callEntry (s : State) (t : Nat) : Option (Nat × Nat) :=
  ((List.range 8).flatMap fun c => (List.range 16).map fun i => (c, i)).find? fun e =>
    (s.mbox e.1 e.2).st != 0 && (s.mbox e.1 e.2).sq == t && (s.mbox e.1 e.2).opSeq == s.cget t C.CK_SEQ

/-- The operation of SQ `t` is aborted: a SERVICE_CALL in a mailbox only learns of it (R193, R350). DEDUCED, log entry 59. -/
def abortOp (t : Nat) (s : State) : State :=
  match (if s.opc t = 0x0E then s.callEntry t else none) with
  | some (c, i) =>
    let s1 := s.setMbox c i { s.mbox c i with abort := true }
    mboxSync c (s1.setCore c { s1.coreOf c with mboxAbort := true })
  | none => killOp t 0x0A { s with wxl := { s.wxl with xlWaits := s.wxl.xlWaits.filter fun x => x.q != t } }

/-- ABORT. DEDUCED, log entry 59. -/
def doAbort (q : Nat) (s : State) : State :=
  if !s.ctlReady 0x0C q then s
  else match s.abortCheck q with
    | some st => opDone q st s
    | none => opDone q 0 (abortOp (s.df q 1 0 22) s)

/-- Queue numbers of the list of a CTX_PREFETCH, with the reserved bits of each entry. -/
def State.pfList (s : State) (q : Nat) : List (Nat × Nat) :=
  (List.range (s.df q 0 16 11)).map fun i =>
    (bytesAt (s.qa q).list (4 * i) 4 % 2 ^ 22, bytesAt (s.qa q).list (4 * i) 4 / 2 ^ 22)

/-- The listed contexts are loaded (R194). -/
def pfLoad (q : Nat) (s : State) : State :=
  let l := (s.pfList q).map (·.1)
  let miss := (l.filter fun k => !s.cached k).eraseDups
  let s1 := s.setQa q { s.qa q with phase := .ctl, loads := miss }
  let s2 := l.foldl (fun t k => qArrive k (.prefetch (some q)) t) s1
  if miss.isEmpty then opDone q 0 s2 else s2

/-- CTX_PREFETCH: its list is read, its contexts loaded, and it completes once each load has ended or been skipped. -/
def doCtxPrefetch (q : Nat) (s : State) : State :=
  let n := 4 * s.df q 0 16 11
  if s.ctlReady 0x0D q then listRead q n s
  else if !s.ctlWaits 0x0D q then s
  else match s.listSt q with
    | .out => s
    | .ask => listRead q n s
    | .bad st => opDone q st s
    | .here =>
      if (s.pfList q).any (fun e => e.2 != 0) then opDone q 0x0B s
      else if (s.pfList q).any (fun e => s.qblkEnv e.1 != some (s.cget q C.ENV)) then opDone q 0x03 s
      else
        let x := s.qa q
        if !x.asked then pfLoad q (s.setQa q { x with asked := true })
        else if x.loads.isEmpty then opDone q 0 s else s

/-- SERVICE_CALL: checked, and passed on to the core's mailbox. -/
def doServiceCall (q : Nat) (s : State) : State :=
  if !s.ctlReady 0x0E q then s
  else match s.callCheck q with
    | some st => opDone q st s
    | none => s.setQa q { s.qa q with phase := .ctl }

/-- NOP. -/
def doNop (q : Nat) (s : State) : State := if s.ctlReady 0x0F q then opDone q 0 s else s

/-! ### The meanings -/

/-- STEP_RELEASE. -/
def execStepRelease (path : Nat) (s : State) : Host.Outcome State Fault Refusal := .next (doStepRelease path s)
/-- STEP_BOUNDARY. -/
def execStepBoundary (q : Nat) (s : State) : Host.Outcome State Fault Refusal := .next (doStepBoundary q s)
/-- MOVER_PIPE_ERROR. -/
def execMoverPipeError (pipe : Nat) (s : State) : Host.Outcome State Fault Refusal := .next (doMoverPipeError pipe s)
/-- COPY. -/
def execCopy (q : Nat) (s : State) : Host.Outcome State Fault Refusal := .next (doCopy q s)
/-- FILL. -/
def execFill (q : Nat) (s : State) : Host.Outcome State Fault Refusal := .next (doFill q s)
/-- CHECK. -/
def execCheck (q : Nat) (s : State) : Host.Outcome State Fault Refusal := .next (doCheck q s)
/-- COPY_CHECK. -/
def execCopyCheck (q : Nat) (s : State) : Host.Outcome State Fault Refusal := .next (doCopyCheck q s)
/-- SCRUB. -/
def execScrub (q : Nat) (s : State) : Host.Outcome State Fault Refusal := .next (doScrub q s)
/-- MIGRATE. -/
def execMigrate (q : Nat) (s : State) : Host.Outcome State Fault Refusal := .next (doMigrate q s)
/-- MULTICAST_WRITE. -/
def execMulticastWrite (q : Nat) (s : State) : Host.Outcome State Fault Refusal := .next (doMulticastWrite q s)
/-- ATOMIC. -/
def execAtomic (q : Nat) (s : State) : Host.Outcome State Fault Refusal := .next (doAtomic q s)
/-- FENCE. -/
def execFence (q : Nat) (s : State) : Host.Outcome State Fault Refusal := .next (doFence q s)
/-- FENCE_COMPLETE. -/
def execFenceComplete (q : Nat) (s : State) : Host.Outcome State Fault Refusal := .next (doFenceComplete q s)
/-- NOTIFY. -/
def execNotify (q : Nat) (s : State) : Host.Outcome State Fault Refusal := .next (doNotify q s)
/-- XLATE_UPDATE. -/
def execXlateUpdate (q : Nat) (s : State) : Host.Outcome State Fault Refusal := .next (doXlateUpdate q s)
/-- ABORT. -/
def execAbort (q : Nat) (s : State) : Host.Outcome State Fault Refusal := .next (doAbort q s)
/-- CTX_PREFETCH. -/
def execCtxPrefetch (q : Nat) (s : State) : Host.Outcome State Fault Refusal := .next (doCtxPrefetch q s)
/-- SERVICE_CALL. -/
def execServiceCall (q : Nat) (s : State) : Host.Outcome State Fault Refusal := .next (doServiceCall q s)
/-- NOP. -/
def execNop (q : Nat) (s : State) : Host.Outcome State Fault Refusal := .next (doNop q s)

end Sys2Proof.Machine
end

