-- ==== Sys2Proof/Machine/Gondola.lean ====
section
/-! DEFINITION. The commands of the family Gondola (spec/14). -/
namespace Sys2Proof.Machine

open Sys2Proof

/-! ### Cores -/

/-- A NOTICE of the cluster that no register offset belongs to (R346 to R348). -/
def gdcNotice (s : State) : State := faultEvent .gdc 5 0 s

/-- Whether the access that led from `s` to `t` raised an exception in core `c`. -/
def faulted (c : Nat) (s t : State) : Bool :=
  (t.out.drop s.out.length).any fun o => match o with
    | .core d k _ => d == c && k != 0
    | _ => false

/-- What a running core does; an exception while ACTIVE is 1 halts it with FAST_TRAP (R344). PRESUMED, log entry 91. -/
def coreAct (c : Nat) (f : State → State) (s : State) : State :=
  if 8 ≤ c || !s.coreOnline c then s
  else
    let t := f s
    if (s.coreOf c).fastActive && faulted c s t then coreLeave c 3 1 t else t

/-- An access to a custom CSR from user mode: an illegal-instruction exception (R343). -/
def csrAct (c csr : Nat) (f : State → State) (s : State) : State :=
  coreAct c (fun t => if (t.coreOf c).machine then f t else t.emit (.core c 2 csr)) s

/-- The two banks of x1 to x15 change places. -/
def bankSwap (x : Core) : Core := { x with x := x.shadow, shadow := x.x }

/-- Whether the FAST request of core `c` is asserted (R319). -/
def State.fastRequest (s : State) (c : Nat) : Bool :=
  s.icuLive.any fun n => s.is (F.ICU_SRC_STS_OFFERED n) && bitOf (KMap.get s.icu.offer 0 n) c && s.is (F.ICU_SRC_CFG_FAST n)

/-- FAST_ENTRY. -/
def doFastEntry (c : Nat) (s : State) : State :=
  coreAct c (fun t =>
    let x := t.coreOf c
    if t.fastRequest c && x.fastEn && !x.fastActive then
      t.setCore c { bankSwap x with fastEpc := BitVec.ofNat 64 x.pc, fastFrom := x.machine, fastActive := true, machine := true
                                    pc := x.fastVec.toNat }
    else t) s

/-- `gfastctl` is written: EN, and the return (R344). -/
def fastCtl (c : Nat) (v : Word) (s : State) : State :=
  let x := { s.coreOf c with fastEn := fieldOf v 0 1 == 1 }
  s.setCore c (if fieldOf v 2 1 = 1 && x.fastActive then
    { bankSwap x with pc := x.fastEpc.toNat, machine := x.fastFrom, fastActive := false } else x)

/-- FAST_RETURN: `gfastctl` written with RET 1. DEDUCED, log entry 92. -/
def doFastReturn (c : Nat) (v : Word) (s : State) : State := csrAct c 0x7C1 (fastCtl c (withField v 2 1 1)) s

/-- FAST_TRAP: an exception while ACTIVE is 1. DEDUCED, log entry 92. -/
def doFastTrap (c : Nat) (s : State) : State := coreAct c (fun t => if (t.coreOf c).fastActive then coreLeave c 3 1 t else t) s

/-! ### The claim CSRs (R343) -/

/-- `gclaim` is read. -/
def gclaimRead (c : Nat) (s : State) : State :=
  let r := coreClaim c s
  r.1.emit (.core c 0 r.2.toNat)

/-- GCLAIM. -/
def doGclaim (c : Nat) (s : State) : State := csrAct c 0xFC0 (gclaimRead c) s

/-- GCOMPLETE. -/
def doGcomplete (c : Nat) (n : Nat) (s : State) : State := csrAct c 0x7C3 (icuDone c (n % 2 ^ 11)) s

/-! ### Mailbox (R345 to R350) -/

/-- `gmbhead` is written (R346). DEDUCED, log entry 93. -/
def mbHead (c h : Nat) (s : State) : State :=
  let x := s.coreOf c
  let n := (h + 16 - x.head) % 16
  let at_ := fun (k : Nat) => (x.head + k) % 16
  let placed := (List.range 16).filter fun k => (s.mbox c (at_ k)).st == 1
  if n = 0 then s
  else if placed.any fun k => n ≤ k + 1 then
    let s1 := (placed.filter fun k => k < n).foldl (fun t k => t.setMbox c (at_ k) { t.mbox c (at_ k) with st := 2 }) s
    mboxSync c (s1.setCore c { s1.coreOf c with head := h % 16 })
  else gdcNotice s

/-- GMBHEAD. -/
def doGmbhead (c : Nat) (n : Nat) (s : State) : State := csrAct c 0x7C4 (mbHead c (n % 16)) s

/-- `gmbdone` is written: the record's fields come from the completion area (R347). -/
def mbDone (c i : Nat) (s : State) : State :=
  let e := s.mbox c i
  if e.st != 2 then gdcNotice s
  else
    let w := wordAt e.area 0
    let st := fieldOf w 0 8
    let s1 := if 0x0D < st then faultEvent .gdc 4 0 s else s
    let q := e.sq
    qResume q (stopSettle q (mboxDone c i (if 0x0D < st then 0x09 else st) (fieldOf w 32 32) (fieldOf (wordAt e.area 8) 0 41) s1))

/-- GMBDONE. -/
def doGmbdone (c : Nat) (v : Word) (s : State) : State := csrAct c 0x7C5 (mbDone c (fieldOf v 0 4)) s

/-- `gyield` is written: charged at once, and the core waits for the next unit (R348). -/
def mbYield (c nj i : Nat) (s : State) : State :=
  let e := s.mbox c i
  if e.st != 2 then gdcNotice s
  else if !s.mboxLive e || (s.qa e.sq).phase != .ctl || (s.coreOf c).yield.isSome then s
  else
    let s1 := chargeOp e.sq nj (s.cput e.sq C.CK_STEPS (s.cget e.sq C.CK_STEPS + 1))
    let s2 := mirror e.sq true s1
    (s2.setQa e.sq { s2.qa e.sq with phase := .waiting, unit := nj }).setCore c { s2.coreOf c with yield := some i }

/-- GYIELD. -/
def doGyield (c : Nat) (v : Word) (s : State) : State := csrAct c 0x7C7 (mbYield c (fieldOf v 0 16) (fieldOf v 16 4)) s

/-- `gdoorbell` is written (R349, R401). -/
def coreDoorbell (c : Nat) (v : Word) (s : State) : State :=
  let q := fieldOf v 0 22
  let e := s.get (F.GDC_CORE_CTL_ENV c)
  if s.dev.mode == .safe then s
  else if s.coreDev c || (s.qblkEnv q == some e && s.owns e) then qArrive q (.doorbell (4096 + c) (fieldOf v 48 16)) s
  else dbDrop q (4096 + c) F.QEN_DB_DROP_ENV s

/-- GDOORBELL. -/
def doGdoorbell (c : Nat) (v : Word) (s : State) : State := csrAct c 0x7C6 (coreDoorbell c v) s

/-- `gmbstat` is read: its ABORT_PEND clears. -/
def mbStat (c : Nat) (s : State) : State :=
  let x := s.coreOf c
  let v := (s.mboxIn c 1).length + (s.mboxIn c 2).length * 2 ^ 5 + b2n (s.get (F.GDC_CORE_STS_STATE c) == 2) * 2 ^ 10 + b2n x.mboxAbort * 2 ^ 11
  (mboxSync c (s.setCore c { x with mboxAbort := false })).emit (.core c 0 v)

/-- GMBSTAT_READ. -/
def doGmbstatRead (c : Nat) (s : State) : State := csrAct c 0xFC2 (mbStat c) s

/-- MAILBOX_PLACE: a SERVICE_CALL that waits for an entry takes the next free one in ring order, or ends where its core no longer takes
calls (R195, R345). DEDUCED, log entry 93. -/
def doMailboxPlace (q : Nat) (s : State) : State :=
  if !s.ctlWaits 0x0E q || (s.callEntry q).isSome then s
  else match s.callCheck q with
    | some st => opDone q st s
    | none =>
      let c := s.df q 0 8 3
      let x := s.coreOf c
      match ((List.range 16).map fun k => (x.tail + k) % 16).find? fun i => (s.mbox c i).st == 0 with
      | none => s
      | some i =>
        let s1 := s.setMbox c i { st := 1, desc := (List.range 8).flatMap (fun j => toBytes 8 (s.ctxW q (8 + j)).toNat), sq := q, opSeq := s.cget q C.CK_SEQ, env := s.cget q C.ENV
                                  abort := false, time := s.dev.time % 2 ^ 48, area := (s.mbox c i).area }
        mboxSync c (s1.setCore c { s1.coreOf c with tail := (i + 1) % 16 })

/-! ### Memory accesses by core address (Table 14.1, R340 to R342) -/

/-- Architecture code of an access fault: fetch 1, load 5, store and AMO 7. -/
def faultCause (kind : Nat) : Nat := if kind = 0 then 5 else if kind = 3 then 1 else 7

/-- The 128 bytes of a mailbox entry (Table 14.4). -/
def mboxBytes (e : MboxEnt) : List Byte :=
  let w := e.sq + e.opSeq % 2 ^ 16 * 2 ^ 32 + e.env * 2 ^ 48 + b2n e.abort * 2 ^ 63
  ((e.desc ++ List.replicate 64 0).take 64) ++ toBytes 8 w ++ toBytes 8 (e.time % 2 ^ 48) ++ List.replicate 16 0
    ++ ((e.area ++ List.replicate 32 0).take 32)

/-- Bytes of `l` replaced from `o` on. -/
def overlay (l : List Byte) (o : Nat) (d : List Byte) : List Byte := l.take o ++ d ++ l.drop (o + d.length)

/-- Data returned to a core. -/
def coreData (c : Nat) (l : List Byte) (s : State) : State := s.emit (.core c 0 (ofBytes l))

/-- The core's own TCM. DEDUCED, log entry 96. -/
def tcmAccess (r : CoreReq) (s : State) : State :=
  let old := (List.range r.len).map fun i => KMap.get s.tcm 0 (0x40000 * r.core + r.addr + i)
  let w := fun (t : State) => tcmWrite r.core r.addr (r.data.take r.len) t
  if r.kind = 1 then w s else if r.kind = 2 then coreData r.core old (w s) else coreData r.core old s

/-- The core's own mailbox: loads, and stores to the completion areas. -/
def mboxAccess (r : CoreReq) (s : State) : State :=
  let o := r.addr - 0x100000
  let e := s.mbox r.core (o / 128)
  if o % 128 + r.len > 128 then coreFault r.core 1 (faultCause r.kind) r.addr s
  else if r.kind = 0 then coreData r.core (((mboxBytes e).drop (o % 128)).take r.len) s
  else if o % 128 < 0x60 then coreFault r.core 0x0A 7 r.addr s
  else s.setMbox r.core (o / 128) { e with area := overlay ((e.area ++ List.replicate 32 0).take 32) (o % 128 - 0x60) (r.data.take r.len) }

/-- `mtimecmp`. -/
def timeCmpAccess (r : CoreReq) (s : State) : State :=
  let o := r.addr - 0x101000
  let x := s.coreOf r.core
  let l := toBytes 8 x.mtimecmp.toNat
  if r.kind = 0 then coreData r.core ((l.drop o).take r.len) s
  else s.setCore r.core { x with mtimecmp := BitVec.ofNat 64 (ofBytes (overlay l o (r.data.take r.len))) }

/-- First HBM offset and size of the Gondola memory that core `c` reaches. -/
def State.gdcMem (s : State) (c : Nat) : Nat × Nat :=
  match s.part 5 with
  | some (b, z) => if s.coreDev c then (b, z) else (b + c * (z / 8), z / 8)
  | none => (0, 0)

/-- Gondola memory through the caches, which show every agent's latest write (R338). DEDUCED, log entry 95. -/
def gdcMemAccess (r : CoreReq) (s : State) : State :=
  let o := (s.gdcMem r.core).1 + (r.addr - 0x100000000)
  let old := s.hbmRead o r.len
  let w := fun (t : State) => t.hbmWrite o (r.data.take r.len)
  if r.kind != 1 && (wordsOf o r.len).any s.hbmPoison then coreFault r.core 8 (faultCause r.kind) r.addr s
  else if r.kind = 1 then w s else if r.kind = 2 then coreData r.core old (w s) else coreData r.core old s

/-- Control space (R340): loads of 32 or 64 bits, 64-bit stores; a narrower store is recorded. DEDUCED, log entry 95. -/
def coreControl (r : CoreReq) (s : State) : State :=
  let off := r.addr - 0x200000000
  if !s.coreDev r.core then coreFault r.core 2 (faultCause r.kind) r.addr s
  else if r.kind = 0 then
    if (r.len = 4 || r.len = 8) && off % r.len = 0 then
      let a := ctlRead (.core r.core) off (8 * r.len) s
      match a.2 with
      | some v => a.1.emit (.core r.core 0 v.toNat)
      | none => coreFault r.core 1 5 r.addr a.1
    else coreFault r.core 1 5 r.addr s
  else ctlWriteBy (.core r.core) off (BitVec.ofNat 64 (ofBytes r.data)) (if r.len = 8 then 64 else 32) s

/-- The envelope view: an access by DA, checked by WXL before the instruction retires (R342). -/
def coreView (r : CoreReq) (s : State) : State :=
  let dev := s.coreDev r.core
  let f : Frame := { typ := if r.kind = 0 then .read else .write, cls := if r.kind = 0 then 3 else 2, inp := 3, out := 0
                     env := if dev then 0 else s.get (F.GDC_CORE_CTL_ENV r.core), addr := r.addr - 2 ^ 55, len := r.len
                     data := if r.kind = 0 then [] else r.data.take r.len, tag := r.addr, origin := .core r.core }
  let s1 := if r.kind = 0 then s.setCore r.core { s.coreOf r.core with load := some (r.addr, r.len), loadAns := none } else s
  wxlAccess { f := f, dev := dev } s1

/-- A load, store, AMO or fetch by the region of Table 14.1 that holds all of it. DEDUCED, log entry 96. -/
def coreMem (r : CoreReq) (s : State) : State :=
  let fits := fun (lo n : Nat) => decide (lo ≤ r.addr) && decide (r.addr + r.len ≤ lo + n)
  let plain := r.kind == 0 || r.kind == 1
  let odd := fun (f : State → State) => if plain then f s else coreFault r.core 9 (faultCause r.kind) r.addr s
  if fits 0 0x40000 then tcmAccess r s
  else if fits 0x100000 0x800 then odd (mboxAccess r)
  else if fits 0x101000 8 then odd (timeCmpAccess r)
  else if fits (2 ^ 32) (s.gdcMem r.core).2 then gdcMemAccess r s
  else if fits (2 ^ 33) 0x4000000 then odd (coreControl r)
  else if fits (2 ^ 55) (2 ^ 48) then odd (coreView r)
  else coreFault r.core 1 (faultCause r.kind) r.addr s

/-! ### The other custom CSRs (Table 14.3) -/

/-- A custom CSR is read; a write-only or unknown one is an illegal instruction. -/
def csrRead (c n : Nat) (s : State) : State :=
  let x := s.coreOf c
  let out := fun (v : Nat) => s.emit (.core c 0 v)
  if n = 0x7C0 then out x.fastVec.toNat
  else if n = 0x7C1 then out (b2n x.fastEn + 2 * b2n x.fastActive)
  else if n = 0x7C2 then out x.fastEpc.toNat
  else if n = 0x7C4 then out x.head
  else if n = 0xFC0 then gclaimRead c s
  else if n = 0xFC1 then out (s.get (F.GDC_CORE_CTL_ENV c) + b2n (s.coreDev c) * 2 ^ 10)
  else if n = 0xFC2 then mbStat c s
  else if n = 0xFC3 then out (x.gafault % 256)
  else if 0x7C3 ≤ n && n ≤ 0x7C7 then out 0
  else s.emit (.core c 2 n)

/-- A custom CSR is written; a read-only or unknown one is an illegal instruction (R343). -/
def csrWrite (c n : Nat) (v : Word) (s : State) : State :=
  let x := s.coreOf c
  if n = 0x7C0 then s.setCore c { x with fastVec := BitVec.ofNat 64 (fieldOf v 2 54 * 4) }
  else if n = 0x7C1 then fastCtl c v s
  else if n = 0x7C2 then s.setCore c { x with fastEpc := v }
  else if n = 0x7C3 then icuDone c (fieldOf v 0 11) s
  else if n = 0x7C4 then mbHead c (fieldOf v 0 4) s
  else if n = 0x7C5 then mbDone c (fieldOf v 0 4) s
  else if n = 0x7C6 then coreDoorbell c v s
  else if n = 0x7C7 then mbYield c (fieldOf v 0 16) (fieldOf v 16 4) s
  else s.emit (.core c 2 n)

/-- CORE_MEMORY_ACCESS. A core whose load or yield has not ended issues nothing. The core is in the mode the access names, and its pc is
that of its latest fetch. -/
def doCoreMemoryAccess (r : CoreReq) (s : State) : State :=
  let x := s.coreOf r.core
  if x.load.isSome || x.yield.isSome || r.len = 0 || 8 < r.len || (r.kind = 1 && r.data.length < r.len) then s
  else
    coreAct r.core (fun t =>
      let y := t.coreOf r.core
      let t1 := t.setCore r.core { y with machine := r.machine, pc := if r.kind = 3 then r.addr else y.pc }
      if r.kind ≤ 3 then coreMem r t1
      else if !r.machine then t1.emit (.core r.core 2 r.addr)
      else if r.kind = 4 then csrRead r.core r.addr t1 else csrWrite r.core r.addr (wordAt r.data 0) t1) s

/-- ENVELOPE_VIEW_ANSWER: the answer that has reached the core ends its load. -/
def doEnvelopeViewAnswer (c : Nat) (s : State) : State := coreAct c (coreAnswer c) s

/-! ### Loader and enables (R352 to R356) -/

/-- `GDC_LOAD_CTL` written with OP `op`. DEDUCED, log entry 97. -/
def loadCtl (a : Agent) (op : Nat) (v : Word) (s : State) : State := ctlWriteBy a R.GDC_LOAD_CTL (withField v 4 2 op) 64 s

/-- LOAD_BEGIN. -/
def doLoadBegin (a : Agent) (v : Word) (s : State) : State := loadCtl a 1 v s

/-- LOAD_DATA: `GDC_LOAD_DATA` written. -/
def doLoadData (a : Agent) (v : Word) (s : State) : State := ctlWriteBy a R.GDC_LOAD_DATA v 64 s

/-- LOAD_END. -/
def doLoadEnd (a : Agent) (v : Word) (s : State) : State := loadCtl a 2 v s

/-- LOAD_CANCEL. -/
def doLoadCancel (a : Agent) (v : Word) (s : State) : State := loadCtl a 3 v s

/-- GDC_ENABLE: `GDC_CTL` written, ENABLE as `v` has it. -/
def doGdcEnable (a : Agent) (v : Word) (s : State) : State := ctlWriteBy a R.GDC_CTL v 64 s

/-- CORE_ENABLE: `GDC_CORE_CTL[c]` written, ENABLE as `v` has it. -/
def doCoreEnable (a : Agent) (c : Nat) (v : Word) (s : State) : State :=
  if c < 8 then ctlWriteBy a (R.GDC_CORE_CTL c) v 64 s else s

/-- CORE_QUIESCE: `GDC_CORE_CTL[c]` written with QUIESCE 1. -/
def doCoreQuiesce (a : Agent) (c : Nat) (v : Word) (s : State) : State :=
  if c < 8 then ctlWriteBy a (R.GDC_CORE_CTL c) (withField v 1 1 1) 64 s else s

/-- CORE_QUIESCE_END: the mailbox is empty, or QUIESCE_MS has passed; what remains completes with ABORTED (R356). -/
def doCoreQuiesceEnd (c : Nat) (s : State) : State :=
  if c < 8 && s.get (F.GDC_CORE_STS_STATE c) == 2 then coreLeave c 3 0 s else s

/-! ### The meanings -/

/-- FAST_ENTRY. -/
def execFastEntry (c : Nat) (s : State) : Host.Outcome State Fault Refusal := .next (doFastEntry c s)
/-- FAST_RETURN. -/
def execFastReturn (c : Nat) (v : Word) (s : State) : Host.Outcome State Fault Refusal := .next (doFastReturn c v s)
/-- GCLAIM. -/
def execGclaim (c : Nat) (s : State) : Host.Outcome State Fault Refusal := .next (doGclaim c s)
/-- GCOMPLETE. -/
def execGcomplete (c : Nat) (n : Nat) (s : State) : Host.Outcome State Fault Refusal := .next (doGcomplete c n s)
/-- GMBHEAD. -/
def execGmbhead (c : Nat) (n : Nat) (s : State) : Host.Outcome State Fault Refusal := .next (doGmbhead c n s)
/-- GMBDONE. -/
def execGmbdone (c : Nat) (v : Word) (s : State) : Host.Outcome State Fault Refusal := .next (doGmbdone c v s)
/-- GYIELD. -/
def execGyield (c : Nat) (v : Word) (s : State) : Host.Outcome State Fault Refusal := .next (doGyield c v s)
/-- GDOORBELL. -/
def execGdoorbell (c : Nat) (v : Word) (s : State) : Host.Outcome State Fault Refusal := .next (doGdoorbell c v s)
/-- GMBSTAT_READ. -/
def execGmbstatRead (c : Nat) (s : State) : Host.Outcome State Fault Refusal := .next (doGmbstatRead c s)
/-- MAILBOX_PLACE. -/
def execMailboxPlace (q : Nat) (s : State) : Host.Outcome State Fault Refusal := .next (doMailboxPlace q s)
/-- ENVELOPE_VIEW_ANSWER. -/
def execEnvelopeViewAnswer (c : Nat) (s : State) : Host.Outcome State Fault Refusal := .next (doEnvelopeViewAnswer c s)
/-- LOAD_BEGIN. -/
def execLoadBegin (a : Agent) (v : Word) (s : State) : Host.Outcome State Fault Refusal := .next (doLoadBegin a v s)
/-- LOAD_DATA. -/
def execLoadData (a : Agent) (v : Word) (s : State) : Host.Outcome State Fault Refusal := .next (doLoadData a v s)
/-- LOAD_END. -/
def execLoadEnd (a : Agent) (v : Word) (s : State) : Host.Outcome State Fault Refusal := .next (doLoadEnd a v s)
/-- LOAD_CANCEL. -/
def execLoadCancel (a : Agent) (v : Word) (s : State) : Host.Outcome State Fault Refusal := .next (doLoadCancel a v s)
/-- GDC_ENABLE. -/
def execGdcEnable (a : Agent) (v : Word) (s : State) : Host.Outcome State Fault Refusal := .next (doGdcEnable a v s)
/-- CORE_ENABLE. -/
def execCoreEnable (a : Agent) (c : Nat) (v : Word) (s : State) : Host.Outcome State Fault Refusal := .next (doCoreEnable a c v s)
/-- CORE_QUIESCE. -/
def execCoreQuiesce (a : Agent) (c : Nat) (v : Word) (s : State) : Host.Outcome State Fault Refusal := .next (doCoreQuiesce a c v s)
/-- CORE_QUIESCE_END. -/
def execCoreQuiesceEnd (c : Nat) (s : State) : Host.Outcome State Fault Refusal := .next (doCoreQuiesceEnd c s)
/-- CORE_MEMORY_ACCESS. -/
def execCoreMemoryAccess (r : CoreReq) (s : State) : Host.Outcome State Fault Refusal := .next (doCoreMemoryAccess r s)
/-- FAST_TRAP. -/
def execFastTrap (c : Nat) (s : State) : Host.Outcome State Fault Refusal := .next (doFastTrap c s)

end Sys2Proof.Machine
end

