-- ==== Sys2Proof/Machine/Hbm.lean ====
section
/-! DEFINITION. The commands of the family Hbm (spec/15). -/
namespace Sys2Proof.Machine

open Sys2Proof

/-- HBM_TRAINING_END: the pseudo-channels that passed, as bits; the set is chosen (R358, R360). What it says of the map stands from the
end of BOOT. DESIGN CHOICE, log entry 7. -/
def doHbmTrainingEnd (trained : Nat) (s : State) : State :=
  if s.dev.mode == .boot && s.hbm.training then
    let s1 : State := { s with hbm := { s.hbm with training := false } }
    let s2 := s1.put F.HBM_STS_TRAINED trained
    let s3 : State := { s2 with hbm := { s2.hbm with set := s2.pcSet0 } }
    s3.put F.HBM_STS_SET_N s3.hbm.set.length
  else s

/-- HBM_FILL_END: zeros everywhere; the image content that goes into HBM may follow (R361). -/
def doHbmFillEnd (s : State) : State :=
  if s.dev.mode == .boot && !s.hbm.training && !s.hbm.filled then
    imgInstall { s with hbm := { s.hbm with filled := true, poison := [] }, mem := [] }
  else s

/-- HBM_ENABLE: `HBM_CTL` written with ENABLE 1. -/
def doHbmEnable (a : Agent) (v : Word) (s : State) : State := ctlWriteBy a (Blk.hbm.base) (withField v 0 1 1) 64 s

/-- HBM_ACCESS: the waiting request at the offset is served; without one, an access of a unit inside the bridge (R365), whose data
goes to that unit. DESIGN CHOICE, log entry 102. -/
def doHbmAccess (r : HbmReq) (s : State) : State :=
  match s.hbmPick r.write r.off with
  | some f =>
    if s.hbmReady r.off then hbmServe f r.ecc { s with hbm := { s.hbm with wait := s.hbm.wait.erase f } } else s
  | none => if !s.hbmReady r.off then s
    else if r.write then hbmServeWrite r.off r.data r.ecc s
    else (hbmServeRead r.off r.len r.ecc s).1

/-- REFRESH_INTERVAL: each bank of the set is refreshed; nothing a program sees changes. DESIGN CHOICE, log entry 105. -/
def doRefreshInterval (s : State) : State :=
  if s.hbm.training || s.hbm.set.isEmpty || s.inSr then s
  else { s with hbm := { s.hbm with refreshes := s.hbm.refreshes + 1 } }

/-- HBM_TEMP_READING: the interval follows with hysteresis; 95 °C or above is STACK_HOT. DEDUCED, log entry 106. -/
def doHbmTempReading (t : Nat) (s : State) : State :=
  if !s.dev.up then s
  else
    let hot := decide (85 < t) || (s.hbm.read && s.hbm.hotRefresh && decide (82 < t))
    let s1 : State := { s with hbm := { s.hbm with read := true, hotRefresh := hot, calTemp := if s.hbm.read then s.hbm.calTemp else t } }
    let s2 := s1.put F.HBM_STS_TEMP t
    if 95 ≤ t then faultEvent .hbm 5 0 s2 else s2

/-- A repair is logged in ring order. -/
def repairLog (pc bank row : Nat) (s : State) : State :=
  let n := s.get F.HBM_STS_LOG_NEXT % 32
  (s.setReg (R.HBM_REPAIR_LOG n) (BitVec.ofNat 64 (pc + bank * 2 ^ 5 + row % 2 ^ 15 * 2 ^ 16
    + s.dev.time / 2 ^ 18 % 2 ^ 30 * 2 ^ 32 + 2 ^ 63))).put F.HBM_STS_LOG_NEXT ((n + 1) % 32)

/-- ROW_TEST_END: transient, repaired onto a spare row, or the pseudo-channel retired. -/
def doRowTestEnd (pc bank row : Nat) (pass : Bool) (s : State) : State :=
  match s.hbm.rowTests.find? fun t => t.1 == pc && t.2.1 == bank && t.2.2.1 == row with
  | none => s
  | some t =>
    let src := t.2.2.2
    let s1 := testDone .hbm src pass { s with hbm := { s.hbm with rowTests := s.hbm.rowTests.erase t } }
    let s2 := if s1.hbm.rowTests.any (fun u => u.2.2.2 == src) then startTest .hbm src 0 s1 else s1
    let used := KMap.get s2.hbm.spareRows 0 (32 * pc + bank)
    if pass then untrackRow pc bank row s2
    else if used < 2 then
      let s3 : State := { s2 with hbm := { s2.hbm with spareRows := KMap.set s2.hbm.spareRows 0 (32 * pc + bank) (used + 1) } }
      untrackRow pc bank row (faultEvent .hbm 2 0 (repairLog pc bank row (s3.bump (F.HBM_PC_STS_REPAIRS pc))))
    else hbmRetire pc (untrackRow pc bank row s2)

/-- PC_TEST_END. -/
def doPcTestEnd (pc : Nat) (pass : Bool) (s : State) : State :=
  if s.hbm.pcTests.contains pc then
    let s1 := testDone .hbm 3 pass { s with hbm := { s.hbm with pcTests := s.hbm.pcTests.erase pc } }
    let s2 := match s1.hbm.pcTests with
      | [] => s1
      | p :: _ => startTest .hbm 3 p s1
    if pass then s2 else hbmRetire pc s2
  else s

/-- PATROL_SCRUB: the scrub reads on up to the word at `off` and writes it back corrected; it goes round the capacity.
DESIGN CHOICE, log entry 105. -/
def doPatrolScrub (off : Nat) (ecc : Ecc) (s : State) : State :=
  if s.get F.HBM_SCRUB_CFG_PERIOD_H = 0 || s.inSr || !s.hbm.filled || off < s.hbm.scrubPos || s.hbmCap ≤ off then s
  else
    let next := (off / 8 + 1) * 8
    let s1 : State := { s with hbm := { s.hbm with scrubPos := if s.hbmCap ≤ next then 0 else next } }
    if s.hbm.out.contains (s.pcAt off) then s1
    else match ecc with
      | .ok => s1
      | .ce => eccCe off (s1.bump F.HBM_ECC_STS_SCRUB_FIX)
      | .ue => eccUe off s1

/-- SELF_REFRESH_ENTRY. -/
def doSelfRefreshEntry (s : State) : State :=
  if s.cfg ≤ 1 && s.get F.HBM_SR_CFG_IDLE_US != 0 && s.dev.mode.serving && !s.inSr && s.hbm.wait.isEmpty && s.queuedTo 2 == 0
      && s.hbm.rowTests.isEmpty && s.hbm.pcTests.isEmpty && !s.hbm.set.isEmpty then
    (({ s with hbm := { s.hbm with sr := s.hbm.set } }).put F.HBM_STS_SR 1).bump F.HBM_PM_STS_SR_ENTRIES
  else s

/-- SELF_REFRESH_EXIT: a frame waits for SP2. -/
def doSelfRefreshExit (s : State) : State :=
  if s.inSr && !s.hbm.exiting && (s.queuedTo 2 != 0 || !s.hbm.wait.isEmpty) then
    let r := s.recalDue
    let s1 : State := { s with hbm := { s.hbm with exiting := true, exitStart := s.dev.time, recal := if r then s.hbm.set else [],
                                                   calTemp := if r then s.get F.HBM_STS_TEMP else s.hbm.calTemp } }
    if r then s1.bump F.HBM_PM_STS_RECALS else s1
  else s

/-- SELF_REFRESH_PAIR_EXIT: the pseudo-channels at places `first` and `first + 1` of the set leave, in order. -/
def doSelfRefreshPairExit (first : Nat) (s : State) : State :=
  match s.hbm.set[first]? with
  | none => s
  | some p =>
    if s.hbm.exiting && s.hbm.sr.head? == some p && first % 2 = 0 then
      srDone { s with hbm := { s.hbm with sr := s.hbm.sr.drop 2 } }
    else s

/-- DQ_RECALIBRATION_END. -/
def doDqRecalibrationEnd (pc : Nat) (ok : Bool) (s : State) : State :=
  if s.hbm.exiting && s.hbm.recal.contains pc && !s.hbm.sr.contains pc then
    let s1 : State := { s with hbm := { s.hbm with recal := s.hbm.recal.erase pc } }
    srDone (if ok then s1 else pcTestStart pc s1)
  else s

/-! ### The meanings -/

/-- HBM_TRAINING_END. -/
def execHbmTrainingEnd (trained : Nat) (s : State) : Host.Outcome State Fault Refusal := .next (doHbmTrainingEnd trained s)
/-- HBM_FILL_END. -/
def execHbmFillEnd (s : State) : Host.Outcome State Fault Refusal := .next (doHbmFillEnd s)
/-- HBM_ENABLE. -/
def execHbmEnable (a : Agent) (v : Word) (s : State) : Host.Outcome State Fault Refusal := .next (doHbmEnable a v s)
/-- HBM_ACCESS. A range that reaches the capacity of the set names bytes that do not exist (R15, R358). -/
def execHbmAccess (r : HbmReq) (s : State) : Host.Outcome State Fault Refusal :=
  if s.hbmCap < r.off + (if r.write then r.data.length else r.len) then .fault .hbmOutOfRange else .next (doHbmAccess r s)
/-- REFRESH_INTERVAL. -/
def execRefreshInterval (s : State) : Host.Outcome State Fault Refusal := .next (doRefreshInterval s)
/-- HBM_TEMP_READING. -/
def execHbmTempReading (t : Nat) (s : State) : Host.Outcome State Fault Refusal := .next (doHbmTempReading t s)
/-- ROW_TEST_END. -/
def execRowTestEnd (pc bank row : Nat) (pass : Bool) (s : State) : Host.Outcome State Fault Refusal := .next (doRowTestEnd pc bank row pass s)
/-- PC_TEST_END. -/
def execPcTestEnd (pc : Nat) (pass : Bool) (s : State) : Host.Outcome State Fault Refusal := .next (doPcTestEnd pc pass s)
/-- PATROL_SCRUB. -/
def execPatrolScrub (off : Nat) (ecc : Ecc) (s : State) : Host.Outcome State Fault Refusal := .next (doPatrolScrub off ecc s)
/-- SELF_REFRESH_ENTRY. -/
def execSelfRefreshEntry (s : State) : Host.Outcome State Fault Refusal := .next (doSelfRefreshEntry s)
/-- SELF_REFRESH_EXIT. -/
def execSelfRefreshExit (s : State) : Host.Outcome State Fault Refusal := .next (doSelfRefreshExit s)
/-- SELF_REFRESH_PAIR_EXIT. -/
def execSelfRefreshPairExit (first : Nat) (s : State) : Host.Outcome State Fault Refusal := .next (doSelfRefreshPairExit first s)
/-- DQ_RECALIBRATION_END. -/
def execDqRecalibrationEnd (pc : Nat) (ok : Bool) (s : State) : Host.Outcome State Fault Refusal := .next (doDqRecalibrationEnd pc ok s)

end Sys2Proof.Machine
end

