-- ==== Sys2Proof/Machine/HostCfg.lean ====
section
/-! DEFINITION. Functions and configuration space: VF Enable (R79), function-level reset (R109 to R111), Bus Master Enable (R108), device
power states (R90 to R93), unmasking (R87, R328), the dwords that the spec fixes (R77, R78, R82, R83, R104, Tables 4.4 and 4.5), and what
a configuration write does. Places of standard structures' fields are those of the PCI Express standard. -/
namespace Sys2Proof.Machine

open Sys2Proof

/-! ### What a function can be told -/

/-- VF Enable of PF `p` is written. -/
def vfEnable (p : Nat) (on : Bool) (s : State) : State :=
  if p = 0 || 8 ≤ p || !s.fnExists p || on == (s.fnOf p).vfe then s
  else if on then icuOfferAll (s.setFn p { s.fnOf p with vfe := true })
  else vfsRemove p s

/-- Initiate Function Level Reset of `f`. -/
def flrStart (f : Nat) (s : State) : State :=
  if !s.fnExists f then s
  else
    let s1 := flrBegin f s
    if f < 8 then vfsRemove f s1 else s1

/-- The function-level reset of `f` ends. -/
def flrEnd (f : Nat) (s : State) : State :=
  if !(s.fnOf f).flr then s
  else
    let d3 := (s.fnOf f).d3
    let s1 := flrFinish f s
    icuOfferAll (if f = 0 && d3 then quiesceClear 1 s1 else s1)

/-- Bus Master Enable of `f` is written. -/
def bmeWrite (f : Nat) (on : Bool) (s : State) : State :=
  if !s.fnExists f || on == (s.fnOf f).bme then s
  else
    let s1 := s.setFn f { s.fnOf f with bme := on }
    if on then fnGo f s1 else fnStop f s1

/-- PME_En of `f` is written; for PF0 in L and PAIR also HOST_WAKE (R93). -/
def pmeEnWrite (f : Nat) (en : Bool) (s : State) : State :=
  if f = 0 then
    let s1 : State := { s with tt := { s.tt with pmeEn := en } }
    pmeSend (if 2 ≤ s.cfg then s1.put F.TTH_CTL_HOST_WAKE (b2n en) else s1)
  else s.setFn f { s.fnOf f with pmeEn := en }

/-- `f` enters D3hot or returns to D0 (R90, R91). -/
def powerState (f : Nat) (d3 : Bool) (s : State) : State :=
  if d3 == (s.fnOf f).d3 then s
  else
    let s1 := s.setFn f { s.fnOf f with d3 := d3 }
    let fs := f :: (if f < 8 then s1.vfsOf f else [])
    let q := f = 0 && 2 ≤ s.cfg
    if d3 then
      let s2 := fs.foldl (fun t g => fnStop g t) s1
      if q then quiesceSet 1 s2 else s2
    else
      let s2 := fs.foldl (fun t g => fnGo g t) s1
      if q then quiesceClear 1 s2 else s2

/-- A write of the PMCSR of `f`. -/
def pmcsrWrite (f : Nat) (d3 pmeEn : Bool) (s : State) : State :=
  if !s.fnExists f then s else powerState f d3 (pmeEnWrite f pmeEn s)

/-- What was held for `f` because it had no message to send is delivered (rule 4 of R87); direct events that waited for a claim under
INTA are delivered once each. -/
def heldGo (f : Nat) (s : State) : State :=
  let s1 := redeliver f s
  if f = 0 then
    let evs := s1.icu.intaHeld
    let s2 := evs.foldl (fun t e => hpDeliver ⟨0, e.1, true⟩ t) { s1 with icu := { s1.icu with intaHeld := [] } }
    intaSync s2
  else s1

/-- Unmasking or enabling of a function's messages (R328). -/
def unmask (f : Nat) (w : Unmask) (s : State) : State :=
  if !s.fnExists f then s
  else
    let x := s.fnOf f
    match w with
    | .entry v =>
      if v ≤ s.fnMsix f then
        let i := s.msixBase f + v
        msixPendGo f (s.setMsixE i { s.msixE i with masked := false })
      else s
    | .function => msixPendGo f (s.setFn f { x with msixMask := false })
    | .msixEnable => msixPendGo f (heldGo f (s.setFn f { x with msixEn := true }))
    | .msiEnable m => if f < 8 then msiPendGo f (heldGo f (s.setFn f { x with msiEn := true, msiMme := m })) else s
    | .msiVector m => if f < 8 then msiPendGo f (s.setFn f { x with msiMask := bitClr x.msiMask m }) else s

/-! ### Dwords of configuration space -/

/-- A dword of configuration space: the bits that the spec fixes, and their value. -/
structure Dw where
  known : Nat
  val : Nat
deriving DecidableEq, Repr

/-- A dword of which every bit is fixed. -/
def dwAll (v : Nat) : Dw := ⟨0xFFFFFFFF, v⟩

/-- A dword built from fixed fields: lowest bit, width, value. -/
def dwOf (l : List (Nat × Nat × Nat)) : Dw :=
  l.foldl (fun d e => ⟨d.known + (2 ^ e.2.1 - 1) * 2 ^ e.1, d.val + e.2.2 % 2 ^ e.2.1 * 2 ^ e.1⟩) ⟨0, 0⟩

/-- Standard capabilities of `f` (Table 4.4): offset and ID. -/
def stdCaps (f : Nat) : List (Nat × Nat) :=
  [(0x40, 1)] ++ (if f < 8 then [(0x50, 5)] else []) ++ [(0x70, 0x11), (0x80, 0x10)]

/-- Whether `f` has ATS. -/
def State.hasAts (s : State) (f : Nat) : Bool :=
  if f < 8 then bitOf (s.pfEnt f).flags 0 else bitOf (s.pfEnt (s.pfIdx f)).vfFlags 0

/-- Whether PF `f` has PASID. -/
def State.hasPasid (s : State) (f : Nat) : Bool := decide (f < 8) && bitOf (s.pfEnt f).flags 1 && (s.pfEnt f).pasidWidth != 0

/-- Extended capabilities of `f` (Table 4.4): offset, ID, end of the structure. -/
def State.extCaps (s : State) (f : Nat) : List (Nat × Nat × Nat) :=
  let on := fun (b : Bool) (l : List (Nat × Nat × Nat)) => if b then l else []
  [(0x100, 0x1, 0x180), (0x180, 0xE, 0x188)] ++ on (s.hasAts f) [(0x190, 0xF, 0x198)] ++ on (s.hasPasid f) [(0x1A0, 0x1B, 0x1A8)]
    ++ on (1 ≤ f && f < 8) [(0x1B0, 0x10, 0x1F0)]
    ++ on (f == 0) [(0x1B0, 0x19, 0x1DC), (0x200, 0x25, 0x20C), (0x210, 0x26, 0x240), (0x240, 0x2A, 0x280), (0x280, 0x31, 0x2B0)]
    ++ on (f == 0 && s.cfg ≤ 1) [(0x2B0, 0x1E, 0x2C0)] ++ on (f == 0) [(0x2C0, 0x27, 0x308)]
    ++ on (f == 0 && s.cfg ≤ 1) [(0x308, 0x18, 0x310)] ++ [(0x310, 0x2F, 0x320)]
    ++ on (f == 0) [(0x320, 0x32, 0x340), (0x340, 0x2E, 0x358), (0x360, 0x3, 0x36C)] ++ on (f < 8) [(0x370, 0xD, 0x378)]

/-- Offset of the structure after the one at `o`; 0 at the end of the chain. -/
def nextCap (l : List Nat) (o : Nat) : Nat := ((l.dropWhile fun x => x != o).drop 1).headD 0

/-- A BAR that a window mode byte implements: size as a power of 2, Prefetchable. -/
def modeBar (mode log2 : Nat) : Option (Nat × Bool) :=
  if mode % 4 = 1 || mode % 4 = 2 then some (log2, bitOf mode 2) else none

/-- BAR `i` (0, 2, 4) of function `f` (Table 4.6). -/
def State.barOf (s : State) (f i : Nat) : Option (Nat × Bool) :=
  let p := s.pfEnt (s.pfIdx f)
  if f = 0 then
    (if i = 0 then some (26, false) else if i = 2 then some (17, false) else if i = 4 then modeBar p.bar4Mode p.bar4Log2 else none)
  else if i = 0 then some (17, false)
  else if f < 8 then (if i = 2 then modeBar p.bar2Mode p.bar2Log2 else if i = 4 then modeBar p.bar4Mode p.bar4Log2 else none)
  else if i = 2 then modeBar p.vfBar2Mode p.vfBar2Log2 else none

/-- Address bits of a BAR of size 2^n. -/
def barAlign (n a : Nat) : Nat := a / 2 ^ n * 2 ^ n

/-- Half of a BAR as it reads (R83). -/
def barRead (b : Option (Nat × Bool)) (addr : Nat) (hi : Bool) : Dw :=
  match b with
  | none => dwAll 0
  | some (n, pref) =>
    let a := barAlign n addr % 2 ^ 64
    dwAll (if hi then a / 2 ^ 32 else a % 2 ^ 32 + 4 + 8 * b2n pref)

/-- Half of a BAR written over the address it held. -/
def barWrite (old v : Nat) (hi : Bool) : Nat :=
  if hi then old % 2 ^ 32 + v * 2 ^ 32 else old / 2 ^ 32 * 2 ^ 32 + v / 16 * 16

/-- The type 0 header. -/
def State.hdrDw (s : State) (f off : Nat) : Dw :=
  let p := s.pfEnt (s.pfIdx f)
  let x := s.fnOf f
  if off = 0 then (if f < 8 then dwAll (p.vendor + p.device * 2 ^ 16) else dwAll 0xFFFFFFFF)
  else if off = 4 then dwOf [(1, 1, b2n (decide (f < 8) && x.mse)), (2, 1, b2n x.bme), (10, 1, b2n x.intxDis), (20, 1, 1)]
  else if off = 8 then dwAll (p.rev + p.cls * 2 ^ 8)
  else if 0x10 ≤ off && off < 0x28 then
    (if 8 ≤ f then dwAll 0
     else
      let i := (off - 0x10) / 8 * 2
      barRead (s.barOf f i) (if i = 0 then x.bar0 else if i = 2 then x.bar2 else x.bar4) (off % 8 == 4))
  else if off = 0x2C then dwAll (p.subVendor + p.subId * 2 ^ 16)
  else if off = 0x30 then dwAll 0
  else if off = 0x34 then dwAll 0x40
  else if off = 0x38 then dwAll 0
  else if off = 0x3C then (if f = 0 then dwOf [(8, 8, 1)] else dwOf [(8, 8, 0)])
  else ⟨0, 0⟩

/-- Power Management, MSI and MSI-X. PRESUMED, log entry 20. -/
def State.msgDw (s : State) (f off next : Nat) : Dw :=
  let x := s.fnOf f
  let bir := if f = 0 then 2 else 0
  if off = 0x40 then dwOf [(0, 8, 1), (8, 8, next), (16, 3, 3), (22, 3, 1), (25, 2, 0), (27, 1, 1), (28, 2, 0), (30, 1, 1), (31, 1, b2n (decide (2 ≤ s.cfg)))]
  else if off = 0x44 then
    dwOf [(0, 2, if x.d3 then 3 else 0), (3, 1, 1), (8, 1, b2n (if f = 0 then s.tt.pmeEn else x.pmeEn)),
          (15, 1, b2n (decide (f = 0) && s.tt.pmeStatus))]
  else if off = 0x50 then
    dwOf [(0, 8, 5), (8, 8, next), (16, 1, b2n x.msiEn), (17, 3, min 5 (s.pfEnt f).msiLog2), (20, 3, x.msiMme), (23, 1, 1), (24, 1, 1)]
  else if off = 0x54 then dwAll (x.msiAddr % 2 ^ 32)
  else if off = 0x58 then dwAll (x.msiAddr / 2 ^ 32)
  else if off = 0x5C then dwOf [(0, 16, x.msiData)]
  else if off = 0x60 then dwAll x.msiMask
  else if off = 0x64 then dwAll x.msiPend
  else if off = 0x70 then dwOf [(0, 8, 0x11), (8, 8, next), (16, 11, s.fnMsix f), (30, 1, b2n x.msixMask), (31, 1, b2n x.msixEn)]
  else if off = 0x74 then dwAll (0x10000 + bir)
  else dwAll (0x18000 + bir)

/-- Link Capabilities of PF0 (R77). -/
def State.linkCap (s : State) : Dw :=
  dwOf [(0, 4, 6), (4, 6, cfgWidth s.cfg), (10, 2, if s.cfg ≤ 1 then 2 else 0), (15, 3, 4), (18, 1, b2n (decide (s.cfg ≤ 1)))]

/-- The PCI Express structure. -/
def State.pcieDw (s : State) (f off : Nat) : Dw :=
  let x := s.fnOf f
  let pf := f < 8
  if off = 0x80 then dwOf [(0, 8, 0x10), (8, 8, 0)]
  else if off = 0x84 then dwOf [(0, 3, 2), (5, 1, 1), (28, 1, 1)]
  else if off = 0x88 then (if pf then dwOf [(8, 1, b2n x.extTag), (15, 1, 0)] else dwOf [(15, 1, 0)])
  else if off = 0x8C then (if f = 0 then s.linkCap else ⟨0, 0⟩)
  else if off = 0xA4 then
    (if pf then dwOf [(0, 4, 15), (4, 1, 0), (11, 1, b2n (decide (s.cfg ≤ 1))), (16, 1, 1), (17, 1, 1)]
     else dwOf [(11, 1, b2n (decide (s.cfg ≤ 1))), (16, 1, 1), (17, 1, 1)])
  else if off = 0xA8 then
    (if pf then dwOf [(0, 4, x.cto), (10, 1, b2n (decide (f = 0) && x.ltrEn)), (12, 1, b2n x.tag10)] else ⟨0, 0⟩)
  else if off = 0xB0 then (if f = 0 then dwOf [(0, 4, x.targetSpeed)] else ⟨0, 0⟩)
  else ⟨0, 0⟩

/-- Dwords of extended structures beyond their header. DESIGN CHOICE, log entry 122. -/
def State.extDw (s : State) (f off : Nat) : Dw :=
  let x := s.fnOf f
  let p := s.pfEnt f
  let pf := 1 ≤ f && f < 8
  if off = 0x194 then dwOf [(0, 5, 0), (5, 1, 1), (6, 1, 1), (31, 1, b2n x.atsEn)]
  else if off = 0x1A4 then dwOf [(1, 1, 0), (2, 1, 0), (8, 5, min 20 p.pasidWidth), (16, 1, b2n x.pasidEn)]
  else if off = 0x1B4 then (if pf then dwOf [(0, 1, 0)] else ⟨0, 0⟩)
  else if off = 0x1B8 then (if pf then dwOf [(0, 1, b2n x.vfe), (3, 1, b2n x.vfMse)] else ⟨0, 0⟩)
  else if off = 0x1BC then (if pf then dwAll (p.totalVfs * (2 ^ 16 + 1)) else ⟨0, 0⟩)
  else if off = 0x1C0 then (if pf then dwOf [(0, 16, x.numVfs)] else ⟨0, 0⟩)
  else if off = 0x1C4 then (if pf then dwAll (8 + s.vfBase f - f + 2 ^ 16) else ⟨0, 0⟩)
  else if off = 0x1C8 then (if pf then dwOf [(16, 16, p.vfDevice)] else ⟨0, 0⟩)
  else if off = 0x1CC then (if pf then dwAll 0x1F else ⟨0, 0⟩)
  else if 0x1D4 ≤ off && off < 0x1EC && pf then
    let i := (off - 0x1D4) / 8
    if i = 0 then barRead (some (17, false)) x.vfBar0 (off % 8 == 0)
    else if i = 1 then barRead (modeBar p.vfBar2Mode p.vfBar2Log2) x.vfBar2 (off % 8 == 0) else dwAll 0
  else if off = 0x2B4 then dwOf [(0, 5, 0x1F), (8, 8, 30), (16, 2, 1), (19, 5, 6)]
  else if off = 0x314 then dwOf [(1, 1, 1), (2, 1, 1)]
  else if off = 0x318 then (if f < 8 then dwOf [(2, 1, b2n x.tag14)] else ⟨0, 0⟩)
  else if off = 0x344 then dwOf [(0, 1, 0)]
  else if off = 0x364 then dwAll (s.img.dsn % 2 ^ 32)
  else if off = 0x368 then dwAll (s.img.dsn / 2 ^ 32 % 2 ^ 32)
  else if off = 0x374 then dwAll 0
  else ⟨0, 0⟩

/-- The dword at offset `off` of the configuration space of `f`; where no structure covers it, 0 (R82). PRESUMED, log entry 20. -/
def State.cfgDw (s : State) (f off : Nat) : Dw :=
  let std := (stdCaps f).map (·.1)
  let ext := s.extCaps f
  if off < 0x40 then s.hdrDw f off
  else if off < 0x80 then
    (if off < 0x48 || (0x50 ≤ off && off < 0x68 && f < 8) || (0x70 ≤ off && off < 0x7C) then s.msgDw f off (nextCap std off) else dwAll 0)
  else if off < 0xBC then s.pcieDw f off
  else match ext.find? (fun e => decide (e.1 ≤ off) && decide (off < e.2.2)) with
    | none => dwAll 0
    | some e => if off = e.1 then dwOf [(0, 16, e.2.1), (20, 12, nextCap (ext.map (·.1)) off)] else s.extDw f off

/-! ### Writes -/

/-- The dword `old` with the bytes that `be` enables taken from `v`. -/
def mergeBe (old v be : Nat) : Nat :=
  (List.range 4).foldl (fun n i => n + (if bitOf be i then v / 2 ^ (8 * i) % 256 else old / 2 ^ (8 * i) % 256) * 2 ^ (8 * i)) 0

/-- The command register. -/
def cmdWrite (f v : Nat) (s : State) : State :=
  let x := s.fnOf f
  let dis := bitOf v 10
  let s1 := bmeWrite f (bitOf v 2) (s.setFn f { x with mse := if f < 8 then bitOf v 1 else x.mse, intxDis := if f < 8 then dis else x.intxDis })
  if f = 0 && x.intxDis != dis then (if dis then intaSync s1 else intaSync (redeliver 0 s1)) else s1

/-- MSI control. -/
def msiCtl (f v : Nat) (s : State) : State :=
  let x := s.fnOf f
  let mme := v / 2 ^ 20 % 8
  if bitOf v 16 && !x.msiEn then unmask f (.msiEnable mme) s
  else
    let s1 := s.setFn f { x with msiEn := bitOf v 16, msiMme := mme }
    if f = 0 && x.msiEn && !bitOf v 16 then intaSync s1 else s1

/-- MSI-X control. -/
def msixCtl (f v : Nat) (s : State) : State :=
  let x := s.fnOf f
  let s1 := s.setFn f { x with msixMask := x.msixMask || bitOf v 30 }
  let s2 := if bitOf v 31 && !x.msixEn then unmask f .msixEnable s1
    else
      let s3 := s1.setFn f { s1.fnOf f with msixEn := bitOf v 31 }
      if f = 0 && x.msixEn && !bitOf v 31 then intaSync s3 else s3
  if x.msixMask && !bitOf v 30 then unmask f .function s2 else s2

/-- SR-IOV control and BARs, and the other extended structures. -/
def extWrite (f off v : Nat) (s : State) : State :=
  let x := s.fnOf f
  let pf := 1 ≤ f && f < 8
  if off = 0x194 then
    (if s.hasAts f then
      let s1 := s.setFn f { x with atsEn := bitOf v 31 }
      if bitOf v 31 then s1 else { s1 with wxl := { s1.wxl with atc := s1.wxl.atc.filter fun a => a.fn != f } }
     else s)
  else if off = 0x1A4 then (if s.hasPasid f then s.setFn f { x with pasidEn := bitOf v 16 } else s)
  else if off = 0x318 then (if f < 8 then s.setFn f { x with tag14 := bitOf v 2 } else s)
  else if !pf then s
  else if off = 0x1B8 then vfEnable f (bitOf v 0) (s.setFn f { x with vfMse := bitOf v 3 })
  else if off = 0x1C0 then (if x.vfe then s else s.setFn f { x with numVfs := v % 2 ^ 16 })
  else if off = 0x1D4 || off = 0x1D8 then s.setFn f { x with vfBar0 := barAlign 17 (barWrite x.vfBar0 v (off == 0x1D8)) }
  else if off = 0x1DC || off = 0x1E0 then
    (match modeBar (s.pfEnt f).vfBar2Mode (s.pfEnt f).vfBar2Log2 with
     | some (n, _) => s.setFn f { x with vfBar2 := barAlign n (barWrite x.vfBar2 v (off == 0x1E0)) }
     | none => s)
  else s

/-- A BAR of PF `f` is written at offset `off`. -/
def barCfg (f off v : Nat) (s : State) : State :=
  let i := (off - 0x10) / 8 * 2
  let x := s.fnOf f
  let hi := off % 8 == 4
  match s.barOf f i with
  | none => s
  | some (n, _) =>
    if 8 ≤ f then s
    else if i = 0 then s.setFn f { x with bar0 := barAlign n (barWrite x.bar0 v hi) }
    else if i = 2 then s.setFn f { x with bar2 := barAlign n (barWrite x.bar2 v hi) }
    else s.setFn f { x with bar4 := barAlign n (barWrite x.bar4 v hi) }

/-- The PCI Express structure is written; `one` has the bits written 1. -/
def pcieWrite (f off v one : Nat) (s : State) : State :=
  let x := s.fnOf f
  if off = 0x88 then
    let s1 := if f < 8 then s.setFn f { x with extTag := bitOf v 8 } else s
    if bitOf one 15 then flrStart f s1 else s1
  else if 8 ≤ f then s
  else if off = 0xA8 then s.setFn f { x with cto := v % 16, ltrEn := if f = 0 then bitOf v 10 && decide (s.cfg ≤ 1) else x.ltrEn, tag10 := bitOf v 12 }
  else if off = 0xB0 && f = 0 then s.setFn f { x with targetSpeed := v % 16 }
  else s

/-- The PMCSR is written: D1 and D2 are not implemented and are ignored; `one` has the bits written 1. -/
def pmWrite (f v one : Nat) (s : State) : State :=
  let d3 := if v % 4 = 3 then true else if v % 4 = 0 then false else (s.fnOf f).d3
  let s1 : State := if f = 0 && bitOf one 15 then { s with tt := { s.tt with pmeStatus := false } } else s
  pmcsrWrite f d3 (bitOf v 8) s1

/-- A configuration write to function `f`. -/
def cfgWrite (f off be data : Nat) (s : State) : State :=
  let v := mergeBe (s.cfgDw f off).val data be
  let one := mergeBe 0 data be
  let x := s.fnOf f
  if off = 4 then cmdWrite f v s
  else if 0x10 ≤ off && off < 0x28 then barCfg f off v s
  else if off = 0x44 then pmWrite f v one s
  else if 0x50 ≤ off && off < 0x68 && f < 8 then
    (if off = 0x50 then msiCtl f v s
     else if off = 0x54 then s.setFn f { x with msiAddr := x.msiAddr / 2 ^ 32 * 2 ^ 32 + v / 4 * 4 }
     else if off = 0x58 then s.setFn f { x with msiAddr := x.msiAddr % 2 ^ 32 + v * 2 ^ 32 }
     else if off = 0x5C then s.setFn f { x with msiData := v % 2 ^ 16 }
     else if off = 0x60 then msiPendGo f (s.setFn f { x with msiMask := v })
     else s)
  else if off = 0x70 then msixCtl f v s
  else if 0x80 ≤ off && off < 0xBC then pcieWrite f off v one s
  else extWrite f off v s

/-- What a configuration read of function `f` returns: the bits the spec fixes, the others a free value (one the PCI Express standard
states). DESIGN CHOICE, log entry 21. -/
def State.cfgRead (s : State) (f off : Nat) : Nat :=
  let d := s.cfgDw f off
  (s.freeVal.toNat % 2 ^ 32 &&& (0xFFFFFFFF ^^^ d.known)) ||| d.val

/-- The configuration read uses up its free value. DESIGN CHOICE, log entry 21. -/
def cfgReadDone (f off : Nat) (s : State) : State := if (s.cfgDw f off).known = 0xFFFFFFFF then s else s.useFree

end Sys2Proof.Machine
end

