-- ==== Sys2Proof/Machine/HostReq.lean ====
section
/-! DEFINITION. The host's memory requests in the order of Table 5.1: control space through BAR0 of PF0, the function pages (Table 4.7,
R85, R327, R328), doorbells (R152), windows (R129). -/
namespace Sys2Proof.Machine

open Sys2Proof

/-- Whether HEP receives TLPs: the link is active, not in Recovery, not in L2/L3 Ready. -/
def State.hostRx (s : State) : Bool := s.hostUp && s.get F.HEP_LINK_STS_PSTATE != 3

/-- Unsupported Request. -/
def hostUr (r : HostReq) (s : State) : State := hostRefuse r.fn r.tag (r.kind == 1) false s

/-- Completer Abort. -/
def hostCa (r : HostReq) (s : State) : State := hostRefuse r.fn r.tag (r.kind == 1) true s

/-- A poisoned write is discarded (Table 5.1). DEDUCED, log entry 121. -/
def hostPoisoned (r : HostReq) (s : State) : State := s.emit (.aer r.fn false "Poisoned TLP Received")

/-- What a BAR of a function holds. -/
inductive BarKind where
  | control | page | window (b : Nat)
deriving DecidableEq, Repr

/-- Contents of BAR `i` of function `f` (Table 4.6); window number of the function: 0 or 1. -/
def State.barKind (s : State) (f i : Nat) : Option BarKind :=
  if (s.barOf f i).isNone then none
  else if f = 0 then (if i = 0 then some .control else if i = 2 then some .page else some (.window 1))
  else if i = 0 then some .page
  else some (.window (if i = 2 then 0 else 1))

/-- Host address of an offset in a BAR. -/
def State.barAddr (s : State) (f i off : Nat) : Nat :=
  let x := s.fnOf f
  if f < 8 then (if i = 0 then x.bar0 else if i = 2 then x.bar2 else x.bar4) + off
  else
    let p := s.pfIdx f
    let j := f - 8 - s.vfBase p
    let n := match s.barOf f i with
      | some (n, _) => n
      | none => 0
    (if i = 0 then (s.fnOf p).vfBar0 else (s.fnOf p).vfBar2) + j * 2 ^ n + off

/-! ### Control space -/

/-- A request to BAR0 of PF0. DEDUCED, log entry 33; DEDUCED, log entry 121. -/
def hostControl (r : HostReq) (s : State) : State :=
  if 0x4000000 < r.off + r.len || (0x1200000 ≤ r.off && r.off < 0x1400000) then hostUr r s
  else if r.kind = 0 then
    if !((r.len = 4 || r.len = 8) && r.off % r.len = 0) then hostUr r s
    else
      let a := ctlRead .pf0 r.off (8 * r.len) s
      match a.2 with
      | some v => hostDone r.fn r.tag .ok (toBytes r.len v.toNat) false a.1
      | none => hostUr r a.1
  else if r.poisoned then hostPoisoned r s
  else ctlWriteBy .pf0 r.off (BitVec.ofNat 64 (ofBytes r.data)) (if r.len = 8 && r.single then 64 else 32) s

/-! ### Function pages -/

/-- The host completes a claim through `HEP_FN_CLAIM` of `f`, or the ICU records what was named (R322). -/
def fnComplete (f n : Nat) (s : State) : State :=
  if n < 1024 && s.is (F.ICU_SRC_STS_CLAIMED n) && s.get (F.ICU_SRC_STS_CLAIMER n) == 8 && s.get (F.ICU_SRC_CFG_HOST_FN n) == f then
    icuEndClaim n s
  else faultEvent .icu 4 (n % 2 ^ 11 + 8 * 2 ^ 11 + f * 2 ^ 32) s

/-- RW1C bits of `HEP_FN_FAULT`. -/
def fnFaultClear (f : Nat) (v : Word) (s : State) : State :=
  s.setReg (R.HEP_FN_FAULT f) (s.reg (R.HEP_FN_FAULT f) &&& ~~~ (v &&& 0x1F))

/-- One dword of the MSI-X table entry `v` of `f` is written (j: 0 address, 1 upper address, 2 data, 3 control). DEDUCED, log entry 33. -/
def msixWrite (f v j w : Nat) (s : State) : State :=
  if s.fnMsix f < v then s
  else
    let i := s.msixBase f + v
    let e := s.msixE i
    msixPendGo f (s.setMsixE i (if j = 0 then { e with addr := e.addr / 2 ^ 32 * 2 ^ 32 + w / 4 * 4 }
      else if j = 1 then { e with addr := e.addr % 2 ^ 32 + w * 2 ^ 32 }
      else if j = 2 then { e with data := w } else { e with masked := bitOf w 0 }))

/-- A write of one dword or one aligned quadword to the MSI-X table (PCI Express); other writes there have no effect. -/
def msixTable (r : HostReq) (s : State) : State :=
  let o := r.off - 0x10000
  let one := fun (k : Nat) (t : State) => msixWrite r.fn ((o + 4 * k) / 16) ((o + 4 * k) % 16 / 4) (bytesAt r.data (4 * k) 4) t
  if r.len = 4 && o % 4 = 0 then one 0 s
  else if r.len = 8 && o % 8 = 0 then one 1 (one 0 s)
  else s

/-- A doorbell value of function `f`, checked by HEP (R152). -/
def hostDoorbell (f : Nat) (v : Word) (s : State) : State :=
  let q := fieldOf v 0 22
  let mine := match s.fnEnv f with
    | some e => s.qblkEnv q == some e
    | none => false
  if f = 0 || mine then qArrive q (.doorbell f (fieldOf v 48 16)) s
  else hostRefuse f 0 true true (dbDrop q f F.QEN_DB_DROP_ENV (fnFault F.HEP_FN_FAULT_ENV_VIOL f s))

/-- Read of a function page of any length: whole registers where the read is a dword or an aligned quadword, otherwise dword by dword. -/
def pageBytes (f off len : Nat) (s : State) : State × List Byte :=
  if len = 8 && off % 8 = 0 then
    let a := pageRead f off 64 s
    (a.1, toBytes 8 a.2.toNat)
  else
    let d0 := off / 4 * 4
    let n := (off % 4 + len + 3) / 4
    let a := (List.range n).foldl (fun (t : State × List Byte) k =>
      let b := pageRead f (d0 + 4 * k) 32 t.1
      (b.1, t.2 ++ toBytes 4 b.2.toNat)) (s, [])
    (a.1, (a.2.drop (off % 4)).take len)

/-- A write to a function page. -/
def pageStore (r : HostReq) (s : State) : State :=
  let whole := r.len == 8 && r.off % 8 == 0 && r.single
  let v := wordAt r.data 0
  if r.off < 0x1000 then (if whole then hostDoorbell r.fn v s else noticePage r.fn r.off s)
  else if 0x1000 ≤ r.off && r.off < 0x1008 then (if whole then s else noticePage r.fn r.off s)
  else if 0x1008 ≤ r.off && r.off < 0x1010 then (if whole then fnComplete r.fn (fieldOf v 0 11) s else noticePage r.fn r.off s)
  else if 0x1010 ≤ r.off && r.off < 0x1018 then (if whole then fnFaultClear r.fn v s else noticePage r.fn r.off s)
  else if 0x10000 ≤ r.off && r.off < 0x18000 then msixTable r s
  else s

/-- A request to a function page. -/
def hostPage (r : HostReq) (s : State) : State :=
  if 0x20000 < r.off + r.len then hostUr r s
  else if r.kind = 0 then
    let a := pageBytes r.fn r.off r.len s
    hostDone r.fn r.tag .ok a.2 false a.1
  else if r.poisoned then hostPoisoned r s
  else pageStore r s

/-! ### Windows -/

/-- A request to window `b` of a function (R129): a frame into WXL; PF0's window is checked as a device-bound
agent's access, and the number 1024 stands for no envelope. -/
def hostWindow (r : HostReq) (b : Nat) (s : State) : State :=
  let f : Frame := { typ := if r.kind = 0 then .read else .write, cls := if r.kind = 0 then 3 else 2, inp := 0, out := 0,
                       env := if r.fn = 0 then 0 else (s.fnEnv r.fn).getD 1024, addr := r.off, da := s.barAddr r.fn r.bar r.off, len := r.len,
                       data := if r.kind = 0 then [] else r.data.take r.len, tag := r.tag, fn := r.fn, origin := .host r.fn r.tag,
                       poison := r.kind != 0 && r.poisoned }
  wxlAccess { f := f, win := some (2 * r.fn + b), dev := r.fn == 0 } s

/-! ### The request as it arrives -/

/-- Whether the request is a doorbell write. -/
def isDoorbell (r : HostReq) (k : BarKind) : Bool := k == .page && r.kind == 1 && decide (r.off < 0x1000)

/-- Whether the present mode serves the BAR (Table 3.12). -/
def State.modeServes (s : State) (r : HostReq) (k : BarKind) : Bool :=
  match s.dev.mode with
  | .config => r.fn == 0 && (k == .control || k == .page) && !isDoorbell r k
  | .safe => r.fn == 0 && k == .control
  | m => m.serving

/-- A host memory request (R99). -/
def hostMem (r : HostReq) (s0 : State) : State :=
  let s := l1Exit s0
  if !s.fnExists r.fn then (if r.kind = 1 then hostUr { r with fn := 0 } s else hostUr r s)
  else match s.barKind r.fn r.bar with
    | none => hostUr r s
    | some k =>
      let x := s.fnOf r.fn
      if s.fnD3 r.fn || !s.fnMse r.fn || x.flr then
        hostUr r (if x.flr && isDoorbell r k then s.bump (F.HEP_FN_FAULT_DROP_CNT r.fn) else s)
      else if !s.modeServes r k then (if s.dev.mode == .safe then hostCa r s else hostUr r s)
      else if 2 ≤ r.kind then hostUr r s
      else match k with
        | .control => hostControl r s
        | .page => hostPage r s
        | .window b => hostWindow r b s

/-- A configuration request (R59, R79, R80, R81): CRS before CONFIG, Unsupported Request for a function that does not exist. -/
def hostConfig (r : CfgReq) (s0 : State) : State :=
  let s := l1Exit s0
  let off := r.off / 4 * 4 % 4096
  if s.dev.mode == .boot then hepTlp (.configCompletion r.fn r.tag true false 0) s
  else if !s.fnExists r.fn then hepTlp (.configCompletion r.fn r.tag false true 0) s
  else if r.write then
    let s1 : State := if r.fn = 0 then { s with hep := { s.hep with bus := r.bus } } else s
    hepTlp (.configCompletion r.fn r.tag false false 0) (cfgWrite r.fn off r.be r.data s1)
  else hepTlp (.configCompletion r.fn r.tag false false (s.cfgRead r.fn off)) (cfgReadDone r.fn off s)

end Sys2Proof.Machine
end

