-- ==== Sys2Proof/Machine/Host.lean ====
section
/-! DEFINITION. The commands of the family Host: configuration requests, function state, memory requests, doorbells, the host link, tags
and completions, attestation over DOE (spec/04, spec/05). -/
namespace Sys2Proof.Machine

open Sys2Proof

/-! ### Requests and configuration writes -/

/-- CONFIG_REQUEST. -/
def doConfigRequest (r : CfgReq) (s : State) : State := if s.hostRx then hostConfig r s else s

/-- VF_ENABLE_WRITE. -/
def doVfEnableWrite (pf : Nat) (vfe : Bool) (s : State) : State := if s.hostRx then vfEnable pf vfe s else s

/-- INITIATE_FLR. -/
def doInitiateFlr (fn : Nat) (s : State) : State := if s.hostRx then flrStart fn s else s

/-- FLR_END. -/
def doFlrEnd (fn : Nat) (s : State) : State := flrEnd fn s

/-- BUS_MASTER_ENABLE_CLEAR. -/
def doBusMasterEnableClear (fn : Nat) (s : State) : State := if s.hostRx then bmeWrite fn false s else s

/-- BUS_MASTER_ENABLE_SET. -/
def doBusMasterEnableSet (fn : Nat) (s : State) : State := if s.hostRx then bmeWrite fn true s else s

/-- POWER_STATE_WRITE. -/
def doPowerStateWrite (fn : Nat) (d3 : Bool) (pmeEn : Bool) (s : State) : State := if s.hostRx then pmcsrWrite fn d3 pmeEn s else s

/-- MSIX_UNMASK. -/
def doMsixUnmask (fn : Nat) (what : Unmask) (s : State) : State := if s.hostRx then unmask fn what s else s

/-- PME_TURN_OFF. -/
def doPmeTurnOff (s : State) : State :=
  if s.hostRx then (hepTlp .pmeToAck s).put F.HEP_LINK_STS_PSTATE 3 else s

/-- HOST_MEMORY_REQUEST. -/
def doHostMemoryRequest (r : HostReq) (s : State) : State := if s.hostRx then hostMem r s else s

/-- WINDOW_ACCESS: a request to a window BAR. -/
def doWindowAccess (r : HostReq) (s : State) : State :=
  match s.barKind r.fn r.bar with
  | some (.window _) => if s.hostRx then hostMem r s else s
  | _ => s

/-- DOORBELL: a 64-bit write to the doorbell page of a function, through the BAR that holds its page. -/
def doDoorbell (fn : Nat) (v : Word) (s : State) : State :=
  if s.hostRx then
    hostMem { fn := fn, bar := if fn = 0 then 2 else 0, off := 0, kind := 1, len := 8, data := toBytes 8 v.toNat, tag := 0,
              poisoned := false, single := true } s
  else s

/-! ### The link (R92, R95, R112, R113) -/

/-- DL_DOWN. DEDUCED, log entry 29. -/
def doDlDown (s : State) : State := hostLinkDown s

/-- DL_UP. -/
def doDlUp (speed width : Nat) (flit : Bool) (s : State) : State := hostLinkUp speed width flit s

/-- HOST_LINK_RECOVERY: the link leaves L0, or is back at a rate and width. -/
def doHostLinkRecovery (back : Bool) (speed width : Nat) (s : State) : State :=
  if !s.is F.HEP_LINK_STS_UP then s
  else if !back then { s with hep := { s.hep with recovery := true } }
  else if s.hep.recovery && s.hostTrains speed width then
    let s1 := linkTrained speed width s
    pmeSend { s1 with hep := { s1.hep with recovery := false } }
  else s

/-- HOST_LINK_RETRAIN: `HEP_CTL` written with RETRAIN 1. -/
def doHostLinkRetrain (a : Agent) (v : Word) (s : State) : State := ctlWriteBy a R.HEP_CTL (withField v 1 1 1) 64 s

/-! ### Link power in S and M (R88, R89) -/

/-- Whether the bridge has nothing to send, nothing outstanding and no step eligible. -/
def State.hostIdle (s : State) : Bool :=
  !s.hep.tags.any (fun e => e.st == .inUse) && s.hep.wait.isEmpty
    && !(s.swc.queued ++ s.swc.inject ++ s.swc.retry).any (fun g => g.out == 0 && g.typ != .prefData && !g.mcast || g.owes 0)
    && !s.qaux.any fun e => s.qst e.1 == 1 && (e.2.phase == .waiting)

/-- L1_REQUEST: the idle condition has held for 10 µs. DEDUCED, log entry 30. -/
def doL1Request (s : State) : State :=
  if s.cfg ≤ 1 && s.hostUp && decide (s.get F.HEP_LINK_STS_PSTATE ≤ 1) && s.hostIdle then
    let s1 := if (s.fnOf 0).ltrEn && !s.hep.idle then hepTlp (.ltr (s.get F.HEP_PM_CFG_LTR_IDLE_US)) s else s
    ({ s1 with hep := { s1.hep with idle := true, l0pWidth := 0 } }).put F.HEP_LINK_STS_PSTATE 2
  else s

/-- Width in use: that of L0p while narrowed. -/
def State.hostWidth (s : State) : Nat := if s.hep.l0pWidth = 0 then s.get F.HEP_LINK_STS_WIDTH else s.hep.l0pWidth

/-- L0P_NARROW: one halving, never below L0P_MIN_WIDTH. DEDUCED, log entry 30. -/
def doL0pNarrow (s : State) : State :=
  let w := s.hostWidth / 2
  if s.cfg ≤ 1 && s.hostUp && s.is F.HEP_LINK_STS_FLIT && s.get F.HEP_LINK_STS_SPEED == 6 && s.is F.HEP_PM_CFG_L0P_EN
      && decide (s.get F.HEP_LINK_STS_PSTATE ≤ 1) && decide (1 ≤ w) && decide (s.get F.HEP_PM_CFG_L0P_MIN_WIDTH ≤ w) then
    ({ s with hep := { s.hep with l0pWidth := w } }.put F.HEP_LINK_STS_PSTATE 1).emit (.hostLane w)
  else s

/-- L0P_WIDEN: full width. -/
def doL0pWiden (s : State) : State :=
  if s.hostUp && s.hep.l0pWidth != 0 && s.get F.HEP_LINK_STS_PSTATE == 1 then
    ({ s with hep := { s.hep with l0pWidth := 0 } }.put F.HEP_LINK_STS_PSTATE 0).emit (.hostLane (s.get F.HEP_LINK_STS_WIDTH))
  else s

/-! ### Tags and completions (R102 to R107) -/

/-- The first waiting request, in the order of its own function, that tag value `t` can serve. -/
def State.tagNext (s : State) (t : Nat) : Option Frame :=
  s.hep.wait.find? fun g => s.tagFree g.fn t && (s.hep.wait.find? fun h => h.fn == g.fn) == some g

/-- TAG_ISSUE: a waiting request leaves under a tag value. -/
def doTagIssue (tag : Nat) (s : State) : State :=
  match (if s.hostUp then s.tagNext tag else none) with
  | none => s
  | some g =>
    let e : TagEnt := { fn := g.fn, tag := tag, sent := s.dev.time, timeout := s.ctoTicks g.fn, f := g }
    let s1 : State := { s with hep := { s.hep with wait := s.hep.wait.erase g, tags := s.hep.tags ++ [e] } }
    hepRequest (.memRead g.fn tag g.addr g.len g.pasid) (tagPeak s1)

/-- A completion that matches nothing (R103). DEDUCED, log entry 31. -/
def unexpected (fn : Nat) (s : State) : State :=
  (faultEvent .hep 3 0 s).emit (.aer (if s.fnExists fn then fn else 0) false "Unexpected Completion")

/-- Bytes of a request that have been received. -/
def TagEnt.received (e : TagEnt) (i : Nat) : Option Byte :=
  (e.got.find? fun g => decide (g.1 ≤ i) && decide (i < g.1 + g.2.length)).bind fun g => g.2[i - g.1]?

/-- The data of a request once all of it has been received. -/
def TagEnt.whole (e : TagEnt) : Option (List Byte) := (List.range e.f.len).mapM e.received

/-- An on-time completion of an outstanding request: its data is delivered when the last byte is in (R98); a completion without data ends
the request. -/
def onTime (e : TagEnt) (off : Nat) (data : List Byte) (ans : Ans) (s : State) : State :=
  if ans == .ok || ans == .corrected || ans == .poison then
    let e1 : TagEnt := { e with got := (off, data) :: e.got, poison := e.poison || ans == .poison }
    match e1.whole with
    | some d => (dropTag e s).inject (e.f.answer 0 (if e1.poison then .poison else .ok) d)
    | none => setTag e1 s
  else (dropTag e s).inject (e.f.answer 0 (if ans == .unsupported then .unsupported else .abort) [])

/-- HOST_COMPLETION. DEDUCED, log entry 31. -/
def doHostCompletion (fn tag : Nat) (off : Nat) (data : List Byte) (ans : Ans) (s : State) : State :=
  if !s.hostRx then s
  else match s.tagOf fn tag with
    | none => unexpected fn s
    | some e =>
      let last := decide (e.f.len ≤ off + data.length) || !(ans == .ok || ans == .corrected || ans == .poison)
      let free := fun (t : State) => if last && !e.heldDl then dropTag e t else t
      match e.st with
      | .inUse => onTime e off data ans s
      | .quarantined => free ((s.bump F.HEP_LATE_CPL_LATE).put F.HEP_LATE_CPL_LAST_FN fn)
      | .discard => free ((s.bump F.HEP_LATE_CPL_DISCARD).put F.HEP_LATE_CPL_LAST_FN fn)

/-- COMPLETION_TIMEOUT. -/
def doCompletionTimeout (fn tag : Nat) (s : State) : State :=
  match s.tagOf fn tag with
  | none => s
  | some e =>
    if e.st != .inUse then s
    else
      let s1 := setTag { e with st := .quarantined, deadline := s.dev.time + 2 * e.timeout, got := [] } s
      let s2 := ((s1.bump F.HEP_CTO_LOG_COUNT).put F.HEP_CTO_LOG_LAST_FN fn).put F.HEP_CTO_LOG_LAST_TAG tag
      failRead e.f.origin .timeout ((faultEvent .hep 0 (fn + tag * 2 ^ 16) s2).emit (.aer fn false "Completion Timeout"))

/-- QUARANTINE_EXPIRY. -/
def doQuarantineExpiry (fn tag : Nat) (s : State) : State :=
  match s.tagOf fn tag with
  | none => s
  | some e => if e.st == .inUse || e.heldDl then s else dropTag e s

/-! ### Attestation over DOE (R94) -/

/-- Whether the responder answers: the link is up, in CONFIG to SAFE. -/
def State.doeOn (s : State) : Bool := s.hostRx && s.dev.mode.configured

/-- An object from the responder; `code` is that of the request. PRESUMED, log entry 22. -/
def spdmSend (code : Nat) (data : List Byte) (s : State) : State := if s.doeOn then (l1Exit s).emit (.spdm code data) else s

/-- ERROR with a code of SPDM (1 InvalidRequest). PRESUMED, log entry 22. -/
def spdmError (s : State) : State := spdmSend 0x7F [1] s

/-- GET_VERSION: SPDM 1.2. -/
def doGetVersion (req : List Byte) (s : State) : State := spdmSend 0x84 (toBytes 2 0x1200 ++ Config.spdmBody 0x84 req) s

/-- GET_CAPABILITIES: CTExponent 20, CERT_CAP, CHAL_CAP and MEAS_CAP signed, 4,096 B of transfer size. -/
def doGetCapabilities (req : List Byte) (s : State) : State :=
  spdmSend 0xE1 (toBytes 1 20 ++ toBytes 4 0x16 ++ toBytes 4 4096 ++ Config.spdmBody 0xE1 req) s

/-- NEGOTIATE_ALGORITHMS: DMTF measurements, ECDSA P-384, SHA-384. -/
def doNegotiateAlgorithms (req : List Byte) (s : State) : State :=
  spdmSend 0xE3 (toBytes 1 1 ++ toBytes 4 0x80 ++ toBytes 4 2 ++ Config.spdmBody 0xE3 req) s

/-- GET_DIGESTS: slot 0 only. -/
def doGetDigests (req : List Byte) (s : State) : State :=
  spdmSend 0x81 (toBytes 1 1 ++ toBytes 48 (Config.sha384 Config.spdmChain).toNat ++ Config.spdmBody 0x81 req) s

/-- GET_CERTIFICATE: a portion of the chain in slot 0, and what remains after it. -/
def doGetCertificate (off len : Nat) (s : State) : State :=
  let c := Config.spdmChain
  if c.length ≤ off then spdmError s
  else
    let p := (c.drop off).take (min len 4096)
    spdmSend 0x82 (toBytes 2 p.length ++ toBytes 2 (c.length - off - p.length) ++ p) s

/-- Measurement block `i` (Table 4.8). -/
def State.measurement (s : State) (i : Nat) : List Byte :=
  if i = 1 then toBytes 48 Config.romMeasurement.toNat
  else if i = 2 then toBytes 48 s.img.imageHash.toNat
  else if i = 3 then
    (List.range 4).flatMap (fun k => toBytes 48 (match (s.tt.keys.getD k {}).hash with
      | some .edbex => Config.edbexKeyHash.toNat
      | some (.programmed h) => h.toNat
      | none => 0)) ++ toBytes 1 ((List.range 4).foldl (fun m k => m + bitAt k (s.tt.keys.getD k {}).revoked) 0)
  else if i = 4 then toBytes 48 s.img.cfgHash.toNat
  else if i = 5 then toBytes 48 s.img.fnHash.toNat
  else (List.range 8).flatMap fun c => toBytes 48 (s.coreOf c).meas.toNat

/-- All measurement blocks, each behind its index. -/
def State.measurements (s : State) : List Byte :=
  [1, 2, 3, 4, 5, 6].flatMap fun i => toBytes 1 i ++ s.measurement i

/-- CHALLENGE: the signed answer covers the measurements. -/
def doChallenge (req : List Byte) (s : State) : State :=
  spdmSend 0x83 (toBytes 48 (Config.sha384 Config.spdmChain).toNat ++ Config.spdmBody 0x83 (req ++ s.measurements)) s

/-- GET_MEASUREMENTS: 0 asks for the number of blocks, 0xFF for all, 1 to 6 for one; the signature covers what is returned. -/
def doGetMeasurements (index : Nat) (req : List Byte) (s : State) : State :=
  if index = 0 then spdmSend 0xE0 (toBytes 1 6 ++ Config.spdmBody 0xE0 req) s
  else if index = 0xFF then spdmSend 0xE0 (toBytes 1 6 ++ s.measurements ++ Config.spdmBody 0xE0 (req ++ s.measurements)) s
  else if index ≤ 6 then
    spdmSend 0xE0 (toBytes 1 1 ++ toBytes 1 index ++ s.measurement index ++ Config.spdmBody 0xE0 (req ++ s.measurement index)) s
  else spdmError s

/-- DOE_DISCOVERY: DOE Discovery at index 0, CMA/SPDM at index 1, nothing beyond: vendor, type, next index. -/
def doDoeDiscovery (index : Nat) (s : State) : State :=
  if index = 0 then spdmSend 0 (toBytes 2 1 ++ toBytes 1 0 ++ toBytes 1 1) s
  else if index = 1 then spdmSend 0 (toBytes 2 1 ++ toBytes 1 1 ++ toBytes 1 0) s
  else spdmSend 0 (toBytes 2 0xFFFF ++ toBytes 1 0 ++ toBytes 1 0) s

/-! ### The enable (R81) -/

/-- HEP_ENABLE: `HEP_CTL` written with ENABLE 1. -/
def doHepEnable (a : Agent) (v : Word) (s : State) : State := ctlWriteBy a R.HEP_CTL (withField v 0 1 1) 64 s

/-! ### The meanings -/

/-- CONFIG_REQUEST. -/
def execConfigRequest (r : CfgReq) (s : State) : Host.Outcome State Fault Refusal := .next (doConfigRequest r s)
/-- VF_ENABLE_WRITE. -/
def execVfEnableWrite (pf : Nat) (vfe : Bool) (s : State) : Host.Outcome State Fault Refusal := .next (doVfEnableWrite pf vfe s)
/-- INITIATE_FLR. -/
def execInitiateFlr (fn : Nat) (s : State) : Host.Outcome State Fault Refusal := .next (doInitiateFlr fn s)
/-- FLR_END. -/
def execFlrEnd (fn : Nat) (s : State) : Host.Outcome State Fault Refusal := .next (doFlrEnd fn s)
/-- BUS_MASTER_ENABLE_CLEAR. -/
def execBusMasterEnableClear (fn : Nat) (s : State) : Host.Outcome State Fault Refusal := .next (doBusMasterEnableClear fn s)
/-- BUS_MASTER_ENABLE_SET. -/
def execBusMasterEnableSet (fn : Nat) (s : State) : Host.Outcome State Fault Refusal := .next (doBusMasterEnableSet fn s)
/-- POWER_STATE_WRITE. -/
def execPowerStateWrite (fn : Nat) (d3 : Bool) (pmeEn : Bool) (s : State) : Host.Outcome State Fault Refusal := .next (doPowerStateWrite fn d3 pmeEn s)
/-- MSIX_UNMASK. -/
def execMsixUnmask (fn : Nat) (what : Unmask) (s : State) : Host.Outcome State Fault Refusal := .next (doMsixUnmask fn what s)
/-- PME_TURN_OFF. -/
def execPmeTurnOff (s : State) : Host.Outcome State Fault Refusal := .next (doPmeTurnOff s)
/-- HOST_MEMORY_REQUEST. -/
def execHostMemoryRequest (r : HostReq) (s : State) : Host.Outcome State Fault Refusal := .next (doHostMemoryRequest r s)
/-- WINDOW_ACCESS. -/
def execWindowAccess (r : HostReq) (s : State) : Host.Outcome State Fault Refusal := .next (doWindowAccess r s)
/-- DOORBELL. -/
def execDoorbell (fn : Nat) (v : Word) (s : State) : Host.Outcome State Fault Refusal := .next (doDoorbell fn v s)
/-- DL_DOWN. -/
def execDlDown (s : State) : Host.Outcome State Fault Refusal := .next (doDlDown s)
/-- DL_UP. -/
def execDlUp (speed width : Nat) (flit : Bool) (s : State) : Host.Outcome State Fault Refusal := .next (doDlUp speed width flit s)
/-- HOST_LINK_RECOVERY. -/
def execHostLinkRecovery (back : Bool) (speed width : Nat) (s : State) : Host.Outcome State Fault Refusal := .next (doHostLinkRecovery back speed width s)
/-- HOST_LINK_RETRAIN. -/
def execHostLinkRetrain (a : Agent) (v : Word) (s : State) : Host.Outcome State Fault Refusal := .next (doHostLinkRetrain a v s)
/-- L1_REQUEST. -/
def execL1Request (s : State) : Host.Outcome State Fault Refusal := .next (doL1Request s)
/-- L0P_NARROW. -/
def execL0pNarrow (s : State) : Host.Outcome State Fault Refusal := .next (doL0pNarrow s)
/-- L0P_WIDEN. -/
def execL0pWiden (s : State) : Host.Outcome State Fault Refusal := .next (doL0pWiden s)
/-- TAG_ISSUE. -/
def execTagIssue (tag : Nat) (s : State) : Host.Outcome State Fault Refusal := .next (doTagIssue tag s)
/-- HOST_COMPLETION. -/
def execHostCompletion (fn tag : Nat) (off : Nat) (data : List Byte) (ans : Ans) (s : State) : Host.Outcome State Fault Refusal := .next (doHostCompletion fn tag off data ans s)
/-- COMPLETION_TIMEOUT. -/
def execCompletionTimeout (fn tag : Nat) (s : State) : Host.Outcome State Fault Refusal := .next (doCompletionTimeout fn tag s)
/-- QUARANTINE_EXPIRY. -/
def execQuarantineExpiry (fn tag : Nat) (s : State) : Host.Outcome State Fault Refusal := .next (doQuarantineExpiry fn tag s)
/-- GET_VERSION. -/
def execGetVersion (req : List Byte) (s : State) : Host.Outcome State Fault Refusal := .next (doGetVersion req s)
/-- GET_CAPABILITIES. -/
def execGetCapabilities (req : List Byte) (s : State) : Host.Outcome State Fault Refusal := .next (doGetCapabilities req s)
/-- NEGOTIATE_ALGORITHMS. -/
def execNegotiateAlgorithms (req : List Byte) (s : State) : Host.Outcome State Fault Refusal := .next (doNegotiateAlgorithms req s)
/-- GET_DIGESTS. -/
def execGetDigests (req : List Byte) (s : State) : Host.Outcome State Fault Refusal := .next (doGetDigests req s)
/-- GET_CERTIFICATE. -/
def execGetCertificate (off len : Nat) (s : State) : Host.Outcome State Fault Refusal := .next (doGetCertificate off len s)
/-- CHALLENGE. -/
def execChallenge (req : List Byte) (s : State) : Host.Outcome State Fault Refusal := .next (doChallenge req s)
/-- GET_MEASUREMENTS. -/
def execGetMeasurements (index : Nat) (req : List Byte) (s : State) : Host.Outcome State Fault Refusal := .next (doGetMeasurements index req s)
/-- DOE_DISCOVERY. -/
def execDoeDiscovery (index : Nat) (s : State) : Host.Outcome State Fault Refusal := .next (doDoeDiscovery index s)
/-- HEP_ENABLE. -/
def execHepEnable (a : Agent) (v : Word) (s : State) : Host.Outcome State Fault Refusal := .next (doHepEnable a v s)

end Sys2Proof.Machine
end

