-- ==== Sys2Proof/Machine/Interrupts.lean ====
section
/-! DEFINITION. The commands of the family Interrupts (spec/13). -/
namespace Sys2Proof.Machine

open Sys2Proof

/-- ICU_ENABLE: `ICU_CTL` written with ENABLE 1. -/
def doIcuEnable (a : Agent) (v : Word) (s : State) : State := ctlWriteBy a R.ICU_CTL (withField v 0 1 1) 64 s

/-- `ICU_SRC_CFG[n]` written. -/
def srcCfgWrite (a : Agent) (n : Nat) (v : Word) (s : State) : State :=
  if n < 1024 then ctlWriteBy a (R.ICU_SRC_CFG n) v 64 s else s

/-- SOURCE_ENABLE: ENABLE of source `n` as `v` has it. -/
def doSourceEnable (a : Agent) (n : Nat) (v : Word) (s : State) : State := srcCfgWrite a n v s

/-- SOURCE_MASK: MASK of source `n` as `v` has it. -/
def doSourceMask (a : Agent) (n : Nat) (v : Word) (s : State) : State := srcCfgWrite a n v s

/-- ICU_SWI. -/
def doIcuSwi (a : Agent) (v : Word) (s : State) : State := ctlWriteBy a R.ICU_SWI v 64 s

/-- CLAIM: `ICU_CLAIM[c]` read. DEDUCED, log entry 90. -/
def doClaim (c : Nat) (a : Agent) (s : State) : State :=
  if c < 8 then
    let r := ctlRead a (R.ICU_CLAIM c) 64 s
    match r.2 with
    | some v => r.1.emit (.ctlData a v.toNat)
    | none => r.1
  else s

/-- COMPLETE: source `n` written to `ICU_COMPLETE[c]`. -/
def doComplete (c : Nat) (a : Agent) (n : Nat) (s : State) : State :=
  if c < 8 then ctlWriteBy a (R.ICU_COMPLETE c) (BitVec.ofNat 64 (n % 2 ^ 11)) 64 s else s

/-- A 64-bit access of the host to `HEP_FN_CLAIM` of a function, in the BAR that holds its page. -/
def claimReq (fn kind tag : Nat) (v : Word) : HostReq :=
  { fn := fn, bar := if fn = 0 then 2 else 0, off := 0x1008, kind := kind, len := 8, data := if kind = 0 then [] else toBytes 8 v.toNat,
    tag := tag, poisoned := false, single := true }

/-- HOST_CLAIM. DEDUCED, log entry 90. -/
def doHostClaim (fn tag : Nat) (s : State) : State := if s.hostRx then hostMem (claimReq fn 0 tag 0) s else s

/-- HOST_COMPLETE. -/
def doHostComplete (fn : Nat) (v : Word) (s : State) : State := if s.hostRx then hostMem (claimReq fn 1 0 v) s else s

/-- Whether a record that function `fn`'s event announces has not entered HEP's egress (R98, R326). DEDUCED, log entry 27. -/
def State.recordAheadOf (s : State) (fn : Nat) : Bool :=
  (s.swc.inject ++ s.swc.queued ++ s.swc.retry).any fun f => f.typ == .write && f.out == 0 && f.fn == fn && (match f.origin with
    | .record _ => true
    | _ => false)

/-- HOST_PROXY_EVENT: the oldest event at the host proxy, once the writes it announces have entered HEP's egress. DEDUCED, log entry 27. -/
def doHostProxyEvent (s : State) : State :=
  match s.icu.hpq with
  | [] => s
  | e :: r => if s.recordAheadOf e.fn then s else hpDeliver e { s with icu := { s.icu with hpq := r } }

/-- HBM offset of pool entry `i` in the MSI-X backing (R86). -/
def State.msixOff (s : State) (i : Nat) : Nat := s.get (F.HBM_PART_BASE_MIB 3) * 2 ^ 20 + 16 * i

/-- The event on a read MSI-X entry: pending while masked, or unreadable; held; or sent (R87, R328). -/
def msixDeliver (fn vec : Nat) (bad : Bool) (s : State) : State :=
  let i := s.msixBase fn + vec
  let e := s.msixE i
  if bad then faultEvent .icu 3 i (s.setMsixE i { e with pending := true })
  else if e.masked || (s.fnOf fn).msixMask then s.setMsixE i { e with pending := true }
  else if !s.mayMsg fn || !(s.fnOf fn).msixEn then holdEvent fn vec s
  else msgFrame fn vec e.addr e.data false (s.setMsixE i { e with pending := false })

/-- MSIX_ENTRY_READ_DONE: HEP's read of the entry of vector `vec` has returned with what the decoder found. -/
def doMsixEntryReadDone (fn vec : Nat) (ecc : Ecc) (s : State) : State :=
  match s.icu.msixRead.find? fun e => e.fn == fn && e.vec == vec with
  | none => s
  | some e =>
    let o := s.msixOff (s.msixBase fn + vec)
    let bad := ecc == .ue || s.hbmPoison o
    msixDeliver fn vec bad (eccFound o ecc { s with icu := { s.icu with msixRead := s.icu.msixRead.erase e } })

/-! ### The meanings -/

/-- ICU_ENABLE. -/
def execIcuEnable (a : Agent) (v : Word) (s : State) : Host.Outcome State Fault Refusal := .next (doIcuEnable a v s)
/-- SOURCE_ENABLE. -/
def execSourceEnable (a : Agent) (n : Nat) (v : Word) (s : State) : Host.Outcome State Fault Refusal := .next (doSourceEnable a n v s)
/-- SOURCE_MASK. -/
def execSourceMask (a : Agent) (n : Nat) (v : Word) (s : State) : Host.Outcome State Fault Refusal := .next (doSourceMask a n v s)
/-- ICU_SWI. -/
def execIcuSwi (a : Agent) (v : Word) (s : State) : Host.Outcome State Fault Refusal := .next (doIcuSwi a v s)
/-- CLAIM. -/
def execClaim (c : Nat) (a : Agent) (s : State) : Host.Outcome State Fault Refusal := .next (doClaim c a s)
/-- COMPLETE. -/
def execComplete (c : Nat) (a : Agent) (n : Nat) (s : State) : Host.Outcome State Fault Refusal := .next (doComplete c a n s)
/-- HOST_CLAIM. -/
def execHostClaim (fn tag : Nat) (s : State) : Host.Outcome State Fault Refusal := .next (doHostClaim fn tag s)
/-- HOST_COMPLETE. -/
def execHostComplete (fn : Nat) (v : Word) (s : State) : Host.Outcome State Fault Refusal := .next (doHostComplete fn v s)
/-- HOST_PROXY_EVENT. -/
def execHostProxyEvent (s : State) : Host.Outcome State Fault Refusal := .next (doHostProxyEvent s)
/-- MSIX_ENTRY_READ_DONE. -/
def execMsixEntryReadDone (fn vec : Nat) (ecc : Ecc) (s : State) : Host.Outcome State Fault Refusal := .next (doMsixEntryReadDone fn vec ecc s)

end Sys2Proof.Machine
end

