-- ==== Sys2Proof/Machine/FlitBits.lean ====
section
/-! DEFINITION. The bits of a GLL link: training ordered sets (Tables 11.1 and 11.2), flits (Tables 12.1 to 12.3) and packet headers
(Tables 12.4 and 12.5), read from the bytes that arrive and formed into the bytes that leave. -/
namespace Sys2Proof.Machine

open Sys2Proof

/-- Bits [lo + w - 1 : lo] of a number. -/
def bitsOf (n lo w : Nat) : Nat := n / 2 ^ lo % 2 ^ w

/-- The number that byte `i` spells. -/
def byteAt (l : List Byte) (i : Nat) : Nat := (l.getD i 0).toNat

/-! ### Training ordered sets -/

/-- One byte into the CRC-16 of a training ordered set. -/
def gtsCrcByte (reg : Nat) (b : Byte) : Nat :=
  (List.range 8).foldl (fun r _ => if 2 ^ 15 ≤ r then (r * 2 % 2 ^ 16) ^^^ 0x1021 else r * 2) (reg ^^^ (b.toNat * 2 ^ 8))

/-- CRC-16 over symbols 0 to 13. -/
def gtsCrc (l : List Byte) : Nat := l.foldl gtsCrcByte 0xFFFF

/-- Whether the payload bytes from symbol `n` to 13 are 0. -/
def gtsZero (l : List Byte) (n : Nat) : Bool := ((l.drop n).take (14 - n)).all fun b => b == 0

/-- Whether the payload of a training set has legal encodings (Table 11.2). -/
def gtsPayloadOk (l : List Byte) (kind index : Nat) : Bool :=
  if kind = 1 then gtsZero l 6
  else if kind = 2 then
    decide (1 ≤ byteAt l 12) && decide (byteAt l 12 ≤ 7) && decide (byteAt l 13 < 2 ^ (byteAt l 12 + 1))
  else if index = 8 then gtsZero l 10
  else gtsZero l 8

/-- Whether one lane's 16 symbols are a training set that is not discarded (R246). DEDUCED, log entry 71. -/
def gtsOk (l : List Byte) : Bool :=
  let kind := bitsOf (byteAt l 1) 0 3
  let lane := byteAt l 2
  let index := bitsOf (byteAt l 5) 4 4
  l.length == 16 && byteAt l 0 == 0xB7 && bytesAt l 14 2 == gtsCrc (l.take 14)
    && decide (1 ≤ kind) && decide (kind ≤ 3) && decide (byteAt l 1 < 32)
    && (decide (lane ≤ 15) || lane == 31) && decide (byteAt l 3 ≤ 4)
    && decide (bitsOf (byteAt l 4) 0 4 ≤ 10) && (decide (bitsOf (byteAt l 4) 4 4 ≤ 10) || bitsOf (byteAt l 4) 4 4 == 15)
    && (if kind = 3 then decide (index ≤ 8) else index == 0) && gtsPayloadOk l kind index

/-- The symbols but LANE, in which the lanes of a block agree (R246); the CRC covers LANE. -/
def gtsSame (a b : List Byte) : Bool := a.take 2 == b.take 2 && (a.drop 3).take 11 == (b.drop 3).take 11

/-- A block of training sets, read from the symbols of its lanes. DEDUCED, log entry 71. -/
def gtsRead (sets : List (List Byte)) : Gts :=
  let l := sets.headD []
  let kind := bitsOf (byteAt l 1) 0 3
  let index := bitsOf (byteAt l 5) 4 4
  { kind := kind
    lane := if sets.map (fun x => byteAt x 2) == List.range sets.length then 0 else 31
    width := byteAt l 3
    eq := bitOf (byteAt l 1) 3
    test := bitOf (byteAt l 1) 4
    txp := bitsOf (byteAt l 4) 0 4
    reqp := bitsOf (byteAt l 4) 4 4
    testLane := bitsOf (byteAt l 5) 0 4
    index := index
    linkId := if kind = 2 then bytesAt l 6 2 else 0
    epoch := if kind = 2 then bytesAt l 8 4 else 0
    vcs := if kind = 2 then bitsOf (byteAt l 12) 0 3 else 0
    roles := if kind = 2 then byteAt l 13 else 0
    rxbuf := if kind = 3 && index != 8 then bytesAt l 6 2 else 0
    probe := if kind = 3 && index = 8 then bytesAt l 6 2 else 0
    echo := if kind = 3 && index = 8 then bytesAt l 8 2 else 0
    ok := !sets.isEmpty && sets.all gtsOk && sets.all (gtsSame l) }

/-- The 16 symbols of a training set of lane `lane`, as an end sends them. -/
def gtsBytes (g : Gts) (lane : Nat) : List Byte :=
  let body := toBytes 1 0xB7 ++ toBytes 1 (g.kind + b2n g.eq * 8 + b2n g.test * 16) ++ toBytes 1 lane ++ toBytes 1 g.width
    ++ toBytes 1 (g.txp + g.reqp * 16) ++ toBytes 1 (g.testLane + g.index * 16)
    ++ (if g.kind = 2 then toBytes 2 g.linkId ++ toBytes 4 g.epoch ++ toBytes 1 g.vcs ++ toBytes 1 g.roles
        else if g.kind = 3 then (if g.index = 8 then toBytes 2 g.probe ++ toBytes 6 g.echo else toBytes 8 g.rxbuf)
        else toBytes 8 0)
  body ++ toBytes 2 (gtsCrc body)

/-! ### Packets -/

/-- The bytes that a packet's payload slots hold for it: from its DA on for a MWR, all CNT bytes for a CPLD (Table 12.5). -/
def pktData (op addr : Nat) (payload : List Byte) : List Byte :=
  let cnt := bitsOf addr 48 13
  if op = 2 then (payload.drop (addr % 16)).take cnt else if op = 4 then payload.take cnt else payload

/-- The payload slots that Table 12.5 gives a packet; none for the packets of PL's own. -/
def pktSlots (op addr : Nat) : Option Nat :=
  let cnt := bitsOf addr 48 13
  match op with
  | 2 => some ((addr % 16 + cnt + 15) / 16)
  | 4 => some ((cnt + 15) / 16)
  | 5 => some 1
  | 0x0A => some (bitsOf addr 32 1)
  | 0x0D | 0x0E => none
  | _ => some 0

/-- The bits of ADDR that Table 12.5 names. DEDUCED, log entry 81. -/
def addrMask (op : Nat) : Nat :=
  match op with
  | 1 | 2 => 2 ^ 61 - 1
  | 4 => 2 ^ 13 - 1 + (2 ^ 13 - 1) * 2 ^ 48
  | 5 => 2 ^ 50 - 1
  | 6 => 0x37F
  | 7 => 0x10F
  | 8 => 2 ^ 48 - 1
  | 0x0A => 2 ^ 33 - 1
  | 0x0B => 2 ^ 32 - 1
  | 0x0C => 3
  | 0x0D | 0x0E => 2 ^ 64 - 1
  | _ => 0

/-- A packet from its header slot and its payload. DEDUCED, log entry 81. -/
def pktRead (h payload : List Byte) : Pkt :=
  let op := byteAt h 0
  let m := bytesAt h 2 2
  let tag := bytesAt h 4 2
  let env := bytesAt h 6 2
  let addr := bytesAt h 8 8
  let len := bitsOf m 0 9
  { op := op, vc := bitsOf (byteAt h 1) 0 3, env := bitsOf env 0 10, tag := bitsOf tag 0 14, addr := addr, len := len
    status := bitsOf m 9 7, flags := bitsOf (byteAt h 1) 3 3, data := pktData op addr payload
    bad := decide (64 ≤ byteAt h 1) || decide (2 ^ 14 ≤ tag) || decide (2 ^ 10 ≤ env) || addr &&& addrMask op != addr
      || (match pktSlots op addr with | some n => len != n | none => false) }

/-- The header slot of a packet. -/
def packetHeader (k : Pkt) : List Byte :=
  toBytes 1 k.op ++ toBytes 1 (k.vc + k.flags * 8) ++ toBytes 2 (k.len + k.status * 512) ++ toBytes 2 k.tag ++ toBytes 2 k.env
    ++ toBytes 8 k.addr

/-- The slots of a packet, as an end sends them: a MWR's payload begins at its DA rounded down to 16 B. -/
def packetSlots (k : Pkt) : List Byte :=
  let body := (if k.op = 2 then List.replicate (k.addr % 16) (0 : Byte) else []) ++ k.data
  packetHeader k ++ body ++ List.replicate (16 * k.len - body.length) 0

/-- Whether a header slot breaks the framing (R295): an invalid OPCODE, LEN above 256, a VC beyond the count. Opcodes 0x0D and 0x0E are
PL's (R399). -/
def badHeader (p vcs : Nat) (h : List Byte) : Bool :=
  let op := byteAt h 0
  !((decide (1 ≤ op) && decide (op ≤ 8)) || (decide (10 ≤ op) && decide (op ≤ 12)) || (p == 6 && (op == 0x0D || op == 0x0E)))
    || decide (256 < bitsOf (bytesAt h 2 2) 0 9) || decide (vcs ≤ bitsOf (byteAt h 1) 0 3)

/-! ### Flits -/

/-- A flit as read (Tables 12.1 to 12.3): whether its CRC passes, the logical lanes whose parity disagrees, the header fields, the
link-control word; `pkts` the packets that end in it, `part` what it leaves unfinished, `framing` whether its slots break the framing
(R274, R295), each as they are if the flit is accepted. `typ` 1 is DATA, 2 DATA_CONT, 3 IDLE. -/
structure FlitIn where
  crcOk : Bool
  errLanes : List Nat
  typ : Nat
  seq : Nat
  ack : Nat
  ackV : Bool
  nak : Bool
  hold : Bool
  xoff : Nat
  req : Nat
  reqEq : Bool
  reqTest : Bool
  reqTestLane : Nat
  reqWidth : Nat
  probe : Nat
  echo : Nat
  framing : Bool
  pkts : List Pkt
  part : List Byte
deriving DecidableEq, Repr

/-- The slots of a flit as they are read one after another: an unfinished packet, the finished ones, whether a slot was empty, whether
the framing broke. -/
structure SlotRd where
  part : List Byte := []
  pkts : List Pkt := []
  empty : Bool := false
  bad : Bool := false
deriving DecidableEq, Repr

/-- A packet whose slots are all there is finished. -/
def SlotRd.close (r : SlotRd) : SlotRd :=
  if r.part.length = 16 + 16 * bitsOf (bytesAt r.part 2 2) 0 9 then
    { r with part := [], pkts := r.pkts ++ [pktRead (r.part.take 16) (r.part.drop 16)] }
  else r

/-- One slot (R274): payload of the packet begun, an empty slot, or a header. -/
def SlotRd.slot (p vcs : Nat) (r : SlotRd) (b : List Byte) : SlotRd :=
  if r.bad then r
  else if !r.part.isEmpty then ({ r with part := r.part ++ b } : SlotRd).close
  else if b.all (fun x => x == 0) then { r with empty := true }
  else if r.empty || badHeader p vcs b then { r with bad := true }
  else ({ r with part := b } : SlotRd).close

/-- The slots of a DATA or DATA_CONT flit. A DATA flit that cuts a packet short, and a DATA_CONT that continues none, break the
framing. DEDUCED, log entry 80. -/
def slotsRead (p vcs typ : Nat) (part slots : List Byte) : SlotRd :=
  if typ != 1 && typ != 2 then { part := part }
  else if (typ == 2) == part.isEmpty then { bad := true }
  else (List.range 14).foldl (fun r i => r.slot p vcs ((slots.drop (16 * i)).take 16)) { part := part }

/-- Parity of a byte. -/
def byteParity (b : Byte) : Nat := (List.range 8).foldl (fun n i => n + bitsOf b.toNat i 1) 0 % 2

/-- Parity bit `j` of logical lane `l` at width `w`, PARITY taken as 0 and the CRC as received (R272). -/
def laneParity (w l j : Nat) (b : List Byte) : Nat :=
  ([4 * j, 4 * j + 1, 4 * j + 2, 4 * j + 3].foldl (fun n k =>
    let i := w * k + l
    n + (if 240 ≤ i && i < 248 then 0 else byteParity (b.getD i 0))) 0) % 2

/-- Whether lane `l` disagrees with the PARITY received. -/
def laneWrong (w : Nat) (b : List Byte) (l : Nat) : Bool :=
  (List.range (64 / w)).any fun j => laneParity w l j b != bitsOf (bytesAt b 240 8) (64 / w * l + j) 1

/-- A flit read at width `w` by port `p`, which has `vcs` VCs and holds `part` of an unfinished packet. DESIGN CHOICE, log entry 125. -/
def flitRead (p vcs w : Nat) (part b : List Byte) : FlitIn :=
  let h := bytesAt b 0 8
  let c := bytesAt b 232 8
  let typ := bitsOf h 24 4
  let r := slotsRead p vcs typ part ((b.drop 8).take 224)
  { crcOk := bytesAt b 248 8 == crcOf 1 (b.take 248)
    errLanes := (List.range w).filter (laneWrong w b)
    typ := typ, seq := bitsOf h 0 12, ack := bitsOf h 12 12, ackV := bitOf h 28, nak := bitOf h 29, hold := bitOf h 30
    xoff := bitsOf c 0 8, req := bitsOf c 8 2, reqEq := bitOf c 10, reqTest := bitOf c 11, reqTestLane := bitsOf c 12 4
    reqWidth := bitsOf c 16 3, probe := bitsOf c 24 16, echo := bitsOf c 40 16
    framing := r.bad, pkts := r.pkts, part := if r.bad then [] else r.part }

/-- A flit as port `p` receives it. A flit that follows broken framing is read from its own first slot. DESIGN CHOICE, log entry 125. -/
def State.flitIn (s : State) (p : Nat) (b : List Byte) : FlitIn :=
  flitRead p (s.vcs p) (s.width p) (s.port p).part b

/-- The bytes of a flit with header `h`, 224 bytes of slots, link-control word `c` and PARITY `par`. DESIGN CHOICE, log entry 125. -/
def flitBytes (h c par : Nat) (slots : List Byte) : List Byte :=
  let all := toBytes 8 h ++ slots ++ toBytes 8 c ++ toBytes 8 par
  all ++ toBytes 8 (crcOf 1 all)

end Sys2Proof.Machine
end

