-- ==== Sys2Proof/Machine/Power.lean ====
section
/-! DEFINITION. Commands of the Power family: the Tether, the main rails, resets, clocks, droop and load-step stretching, temperature,
heartbeat (spec/02). -/
namespace Sys2Proof.Machine

open Sys2Proof

/-! ### The Tether and the main rails (R38 to R42) -/

/-- TTH turns the main rails on for a cause as LAST_CAUSE codes it; a wake from TETHER is remembered for PF0's PME_Status (R93). -/
def railsOn (cause : Nat) (s : State) : State :=
  let woke := cause != 0 && s.is F.TTH_STS_CONFIG_VALID && decide (2 ≤ s.get F.TTH_STS_CONFIG)
  let s1 := powerUp cause s
  { s1 with tt := { s1.tt with wokeFromTether := s1.tt.wokeFromTether || woke, pmeStatus := s1.tt.pmeStatus || woke } }

/-- The Tether leaves its reset: transition 1. The boot count starts from a value of an entropy source (R249). DEDUCED, log entry 120. -/
def doTetherResetRelease (s : State) : State :=
  if s.dev.mode != .off then s
  else
    let s1 : State := { s with
      dev := { s.dev with mode := .tether, cause := 1 }
      tt := { s.tt with boots := s.freeVal.toNat % 65536 } }
    let s2 := s1.useFree.put F.TTH_STS_OSC_OK 1
    if s2.is F.TTH_CTL_AUTO_ON then railsOn 0 s2 else s2

/-- `VDD_TT` is lost: nothing but fuses, input levels, the log and the free values stays (transition 14). DEDUCED, log entry 120. -/
def doVddTtLoss (s : State) : State :=
  { ({} : State) with
    pending := s.pending
    tt := { keys := s.tt.keys }
    pins := { perstN := s.pins.perstN, strapBoot := s.pins.strapBoot, pairId := s.pins.pairId, prsnt := s.pins.prsnt }
    out := s.out
    free := s.free }

/-- `TT_PGOOD_MAIN` asserts (R38, Table 2.6). -/
def doTtPgoodMainAssert (s : State) : State :=
  if !s.is F.TTH_STS_MAIN_ON || s.is F.TTH_STS_PGOOD then s
  else
    let s1 := (s.put F.TTH_STS_PGOOD 1).bump F.TTH_STS_CYCLES
    { s1 with
      tt := { s1.tt with railsUp := true }
      dev := { s1.dev with stage1 := s1.pins.perstN, mode := if s1.pins.perstN then .boot else s1.dev.mode } }

/-- Main power is lost without request: transition 12 (R41). -/
def doMainPowerLoss (s : State) : State :=
  if !s.is F.TTH_STS_MAIN_ON || !s.is F.TTH_STS_PGOOD then s
  else
    let s1 := mainReset (((s.put F.TTH_STS_POWER_LOSS 1).put F.TTH_STS_MAIN_ON 0).put F.TTH_STS_PGOOD 0)
    { s1 with dev := { s1.dev with mode := .tether, cause := 12 }, tt := { s1.tt with offTime := true, wake := none } }

/-- A requested power-down is complete, and the off time starts (R40). -/
def doMainPowerDownDone (s : State) : State :=
  if !s.tt.downReq then s
  else
    let s1 := mainReset (s.put F.TTH_STS_PGOOD 0)
    { s1 with dev := { s1.dev with mode := .tether, cause := 9 }, tt := { s1.tt with offTime := true, downReq := false } }

/-- The off time of 20 ms has passed (R40). -/
def doMainOffTimeExpiry (s : State) : State :=
  if !s.tt.offTime then s
  else match s.tt.wake with
    | some c => railsOn c s
    | none => { s with tt := { s.tt with offTime := false } }

/-- A wake cause acts: the main rails go on, at once or after a power-down in progress and its off time. -/
def wakeUp (cause : Nat) (s : State) : State :=
  if s.is F.TTH_STS_MAIN_ON then s
  else
    let s1 := wakeNLow s
    if s1.tt.downReq || s1.tt.offTime then { s1 with tt := { s1.tt with wake := some (s1.tt.wake.getD cause) } }
    else railsOn cause s1

/-- A wake cause other than the ICU's is latched and, if it is enabled, acts (R39). -/
def wakeBit (sts en : Field) (i cause : Nat) (s : State) : State :=
  let s1 := s.put sts (bitSet (s.get sts) i)
  if bitOf (s1.get en) i then wakeUp cause s1 else s1

/-- Whether the Tether runs. -/
def State.tetherOn (s : State) : Bool := s.dev.mode != .off

/-- WAKE_CAUSE. -/
def doWakeCause (src : WakeSrc) (s : State) : State :=
  if !s.tetherOn then s
  else match src with
    | .perst => if s.is F.TTH_STS_MAIN_ON then s else wakeUp 1 (s.put F.TTH_WAKE_STS_PERST 1)
    | .ttWake k => if 8 ≤ k then s else wakeBit F.TTH_WAKE_STS_TT_WAKE F.TTH_WAKE_EN_TT_WAKE k 2 s
    | .prsnt n => if 6 ≤ n then s else wakeBit F.TTH_WAKE_STS_PRSNT F.TTH_WAKE_EN_PRSNT n 3 s
    | .attn n => if 6 ≤ n then s else wakeBit F.TTH_WAKE_STS_ATTN F.TTH_WAKE_EN_ATTN n 4 s
    | .icu n => if 1024 ≤ n then s else icuWake n s

/-- `TT_WAKE[k]` has been at its wake level for DEBOUNCE_MS. -/
def doTtWakeDebounced (k : Nat) (s : State) : State := doWakeCause (.ttWake k) s

/-- `PERST_N` asserts: transition 9 where its conditions hold, otherwise the main domain returns to reset (R38, R66, R91). DEDUCED, log entry 2. -/
def doPerstNAssert (s : State) : State :=
  if !s.pins.perstN then s
  else
    let s1 : State := { s with pins := { s.pins with perstN := false } }
    if decide (2 ≤ s.cfg) && s.dev.mode == .quiesce && (s.fnOf 0).d3 && s.is F.DEV_CTL_D3COLD_SLEEP then enterTether s1
    else if s.tt.downReq then s1
    else if s.dev.up || s.dev.stage1 then
      let s2 := mainReset s1
      { s2 with dev := { s2.dev with mode := .boot } }
    else s1

/-- `PERST_N` deasserts: the straps are sampled (R32), and stage 1 of R38 begins or the main rails are woken (R39). DEDUCED, log entry 2. -/
def doPerstNDeassert (strap pairId : Nat) (s : State) : State :=
  if s.pins.perstN then s
  else
    let s1 : State := { s with pins := { s.pins with perstN := true, strapBoot := strap % 4, pairId := pairId % 2 } }
    if !s1.tetherOn then s1
    else if !s1.is F.TTH_STS_MAIN_ON then doWakeCause .perst s1
    else if s1.is F.TTH_STS_PGOOD then { s1 with dev := { s1.dev with stage1 := true, mode := .boot } }
    else s1

/-! ### BOOT begins -/

/-- HBM training begins, and what a former BOOT left in the stack is lost (R360, R361). -/
def hbmBegin (s : State) : State :=
  { s.setReg R.HBM_STS 0 with
    hbm := { training := true }
    mem := [], xt := [], ctx := [], msix := [] }

/-- The local epochs of a new BOOT (R249). -/
def epochsNew (s : State) : State :=
  (List.range 7).foldl (fun t p => t.put (F.LPn_IDENT_LOCAL_EPOCH p) (t.tt.boots * 65536 + 1)) s

/-- What every entry to BOOT begins: the boot count, the epochs, HBM training, the choice of the copy. -/
def bootBegin (src : Nat) (s : State) : State :=
  let s1 : State := { s with tt := { s.tt with boots := (s.tt.boots + 1) % 65536 } }
  bootFrom src (hbmBegin (epochsNew s1))

/-- The root PLL locks: transition 2 or 11 (R38, R66). DESIGN CHOICE, log entry 7. -/
def doRootPllLock (s : State) : State :=
  if s.dev.up then (if s.is F.CLK_STS_ROOT_LOCK then s else (s.put F.CLK_STS_ROOT_LOCK 1).put F.CLK_STS_SYS_CLK_OK 1)
  else if !s.dev.stage1 then s
  else
    let s1 : State := { s with
      dev := { mode := .boot, up := true, stage1 := true, cause := if s.tt.railsUp then 2 else 11 }
      tt := { s.tt with railsUp := false, wakeN := false } }
    let s2 := s1.setReg R.CLK_STS (s1.reg R.CLK_STS ||| 0x1F)
    let s3 := bootBegin s2.pins.strapBoot s2
    if s3.is F.TTH_STS_POWER_LOSS then faultEvent .tth 0 0 s3 else s3

/-! ### Clocks (R44) -/

/-- Lock is lost, or `SYS_CLK` stops. -/
def doPllUnlock (clkStopped : Bool) (s : State) : State :=
  if !s.dev.up then s
  else
    let s1 := (s.put F.CLK_STS_ROOT_LOCK 0).bump F.CLK_STS_LOCK_LOSS_CNT
    faultEvent .pwr 0 0 (if clkStopped then s1.put F.CLK_STS_SYS_CLK_OK 0 else s1)

/-- A port's link goes down for want of its reference clock. -/
def portClockLoss (p : Nat) (s : State) : State :=
  if s.flits p then toRetrain p 5 s else if s.lst p = 2 then trainFail p s else s

/-- `H_REFCLK` or `LP_REFCLK` is lost. -/
def doRefclkLoss (host : Bool) (s : State) : State :=
  if !s.dev.up then s
  else if host then hostLinkDown (s.put F.CLK_STS_H_REFCLK_OK 0)
  else (List.range 7).foldl (fun t p => portClockLoss p t) (s.put F.CLK_STS_LP_REFCLK_OK 0)

/-! ### Stretching (R46 to R49) -/

/-- Code of a ratio in RATIO. -/
def ratioCode (r : Nat) : Nat := if r = 48 then 2 else if r = 56 then 1 else 0

/-- The lowest ratio, in 1/64, that an active cause demands (R48). -/
def State.ratioWanted (s : State) : Nat :=
  min (if s.pwr.droop2 then 48 else if s.pwr.droop1 then 56 else 64) (if s.is F.PWR_STRETCH_STS_LSW then s.pwr.lswRatio else 64)

/-- The ratio in effect is lowered at once, and returns in increments (R47). -/
def stretchSync (s : State) : State :=
  let want := s.ratioWanted
  let r := min s.pwr.ratio want
  let s1 : State := { s with pwr := { s.pwr with ratio := r } }
  (s1.put F.PWR_STRETCH_STS_RATIO (if r < want then 3 else ratioCode r)).put F.PWR_STRETCH_STS_DROOP (b2n (s.pwr.droop1 || s.pwr.droop2))

/-- A detector's threshold in mV. -/
def droopMv (v : Nat) : Nat := 600 + 5 * v

/-- A detector finds the die voltage `mv`. A droop is counted once, when its first cause starts (R46). DEDUCED, log entry 107. -/
def doDroopThresholdCrossing (mv : Nat) (s : State) : State :=
  if !s.dev.up then s
  else
    let d1 := decide (mv < droopMv (s.get F.PWR_DROOP_CFG_TH1))
    let d2 := decide (mv < droopMv (s.get F.PWR_DROOP_CFG_TH2))
    let s1 := if (d1 || d2) && !s.pwr.droop1 && !s.pwr.droop2 then s.bump F.PWR_STRETCH_STS_DROOP_CNT else s
    let s2 := stretchSync { s1 with pwr := { s1.pwr with droop1 := s1.pwr.droop1 || d1, droop2 := s1.pwr.droop2 || d2 } }
    if mv < 650 then faultEvent .pwr 1 0 s2 else s2

/-- A droop cause ends; above TH1's release level both have ended. -/
def doDroopCauseEnd (th2 : Bool) (s : State) : State :=
  if !s.dev.up then s
  else stretchSync { s with pwr := { s.pwr with droop1 := s.pwr.droop1 && th2, droop2 := false } }

/-- One increment of 1/64 toward the ratio wanted. -/
def doStretchReturnIncrement (s : State) : State :=
  if s.dev.up && decide (s.pwr.ratio < s.ratioWanted) then
    stretchSync { s with pwr := { s.pwr with ratio := s.pwr.ratio + 1 } }
  else s

/-- Ratio that LSW_RATIO names. -/
def lswRatioOf : Nat → Nat
  | 1 => 56 | 2 => 48 | _ => 64

/-- `LSW_N` is recognised: pre-stretch and freeze, restarted during a freeze (R49, R212). -/
def doLswRecognised (s : State) : State :=
  let s0 : State := { s with pins := { s.pins with lswN := false } }
  if !s.dev.up || !s.is F.PWR_CTL_ENABLE then s0
  else
    let s1 := ((s0.bump F.PWR_STRETCH_STS_LSW_CNT).put F.PWR_STRETCH_STS_LSW 1).put F.PWR_STRETCH_STS_FREEZE 1
    stretchSync { s1 with
      pwr := { s1.pwr with lswHold := true, lswRatio := lswRatioOf (s.get F.PWR_CTL_LSW_RATIO) }
      spl := { s1.spl with deferred := s.is F.PWR_STRETCH_STS_FREEZE && s1.spl.deferred } }

/-- The stretch cause ends once `LSW_N` is high and the hold has expired. -/
def lswCauseEnd (s : State) : State :=
  if s.pins.lswN && !s.pwr.lswHold then stretchSync (s.put F.PWR_STRETCH_STS_LSW 0) else s

/-- `LSW_N` goes high. -/
def doLswNRelease (s : State) : State := lswCauseEnd { s with pins := { s.pins with lswN := true } }

/-- Whether a path that can accept a release has an operation that the freeze alone keeps waiting. DEDUCED, log entry 108. -/
def State.freezeHolds (s : State) : Bool :=
  let t := s.put F.PWR_STRETCH_STS_FREEZE 0
  s.spl.deferred || (s.dev.mode.running && s.is F.SPL_CTL_ENABLE && (List.range 1024).any fun p => t.pathOpen p
    && (t.pickRelease p ((t.waiters p).filter fun q => !(s.waiters p).contains q)).isSome)

/-- The hold expires: the freeze ends, counted if it delayed a release (R49, R212). -/
def doLswHoldExpiry (s : State) : State :=
  if !s.pwr.lswHold then s
  else
    let s1 := if s.freezeHolds then s.bump F.SPL_STS_LSW_DEFER else s
    let s2 := s1.put F.PWR_STRETCH_STS_FREEZE 0
    lswCauseEnd { s2 with pwr := { s2.pwr with lswHold := false }, spl := { s2.spl with deferred := false } }

/-- `LSW_N` has stayed low for more than 10 ms. DEDUCED, log entry 108. -/
def doLswStuck (s : State) : State :=
  if s.dev.up && s.is F.PWR_CTL_ENABLE && !s.pins.lswN then faultEvent .pwr 2 0 s else s

/-- The class of a ramp grant in the log. -/
def rampCode : Ramp → Nat
  | .mover => 0 | .coreWake => 1 | .hbmBurst => 2 | .stepRelease => 3

/-- A grant that waited under the limit is given (R50). -/
def doRampGrant (k : Ramp) (s : State) : State :=
  if s.dev.up then (s.bump F.PWR_STRETCH_STS_RAMP_CNT).emit (.rampGrant (rampCode k)) else s

/-! ### Temperature, heartbeat, enable -/

/-- A junction temperature reading in °C (R51, and "Junction temperature" of spec/02). DEDUCED, log entry 106. -/
def doTemperatureReading (tj : Nat) (s : State) : State :=
  if !s.dev.up then s
  else
    let t := min tj 255
    let lim := s.get F.PWR_THERM_LIMIT
    let hot := decide (lim ≤ t) || (s.is F.PWR_THERM_THERM && decide (lim < t + 3))
    let trip := decide (120 ≤ t) && !(s.pwr.read && decide (120 ≤ s.get F.PWR_THERM_TJ))
    let s1 := (s.put F.PWR_THERM_TJ t).put F.PWR_THERM_THERM (b2n hot)
    let s2 := icuLevel 58 hot { s1 with pwr := { s1.pwr with read := true }, pins := { s1.pins with thermN := !hot } }
    if trip then faultEvent .pwr 3 0 s2 else s2

/-- `PAIR_HB_OUT` toggles (R36). -/
def doHeartbeatToggle (s : State) : State :=
  if s.cfg == 3 && s.dev.mode.serving then { s with pins := { s.pins with hbOut := !s.pins.hbOut } } else s

/-- `PWR_CTL.ENABLE` written 1 with the other fields of `v` (R51). -/
def doPwrEnable (a : Agent) (v : Word) (s : State) : State := ctlWriteBy a R.PWR_CTL (withField v 0 1 1) 64 s

/-! ### The meanings -/

/-- TETHER_RESET_RELEASE. -/
def execTetherResetRelease (s : State) : Host.Outcome State Fault Refusal := .next (doTetherResetRelease s)
/-- VDD_TT_LOSS. -/
def execVddTtLoss (s : State) : Host.Outcome State Fault Refusal := .next (doVddTtLoss s)
/-- TT_PGOOD_MAIN_ASSERT. -/
def execTtPgoodMainAssert (s : State) : Host.Outcome State Fault Refusal := .next (doTtPgoodMainAssert s)
/-- MAIN_POWER_LOSS. -/
def execMainPowerLoss (s : State) : Host.Outcome State Fault Refusal := .next (doMainPowerLoss s)
/-- MAIN_POWER_DOWN_DONE. -/
def execMainPowerDownDone (s : State) : Host.Outcome State Fault Refusal := .next (doMainPowerDownDone s)
/-- MAIN_OFF_TIME_EXPIRY. -/
def execMainOffTimeExpiry (s : State) : Host.Outcome State Fault Refusal := .next (doMainOffTimeExpiry s)
/-- WAKE_CAUSE. -/
def execWakeCause (src : WakeSrc) (s : State) : Host.Outcome State Fault Refusal := .next (doWakeCause src s)
/-- TT_WAKE_DEBOUNCED. -/
def execTtWakeDebounced (k : Nat) (s : State) : Host.Outcome State Fault Refusal := .next (doTtWakeDebounced k s)
/-- PERST_N_ASSERT. -/
def execPerstNAssert (s : State) : Host.Outcome State Fault Refusal := .next (doPerstNAssert s)
/-- PERST_N_DEASSERT. -/
def execPerstNDeassert (strap pairId : Nat) (s : State) : Host.Outcome State Fault Refusal := .next (doPerstNDeassert strap pairId s)
/-- ROOT_PLL_LOCK. -/
def execRootPllLock (s : State) : Host.Outcome State Fault Refusal := .next (doRootPllLock s)
/-- PLL_UNLOCK. -/
def execPllUnlock (clkStopped : Bool) (s : State) : Host.Outcome State Fault Refusal := .next (doPllUnlock clkStopped s)
/-- REFCLK_LOSS. -/
def execRefclkLoss (host : Bool) (s : State) : Host.Outcome State Fault Refusal := .next (doRefclkLoss host s)
/-- DROOP_THRESHOLD_CROSSING. -/
def execDroopThresholdCrossing (mv : Nat) (s : State) : Host.Outcome State Fault Refusal := .next (doDroopThresholdCrossing mv s)
/-- DROOP_CAUSE_END. -/
def execDroopCauseEnd (th2 : Bool) (s : State) : Host.Outcome State Fault Refusal := .next (doDroopCauseEnd th2 s)
/-- STRETCH_RETURN_INCREMENT. -/
def execStretchReturnIncrement (s : State) : Host.Outcome State Fault Refusal := .next (doStretchReturnIncrement s)
/-- LSW_RECOGNISED. -/
def execLswRecognised (s : State) : Host.Outcome State Fault Refusal := .next (doLswRecognised s)
/-- LSW_N_RELEASE. -/
def execLswNRelease (s : State) : Host.Outcome State Fault Refusal := .next (doLswNRelease s)
/-- LSW_HOLD_EXPIRY. -/
def execLswHoldExpiry (s : State) : Host.Outcome State Fault Refusal := .next (doLswHoldExpiry s)
/-- LSW_STUCK. -/
def execLswStuck (s : State) : Host.Outcome State Fault Refusal := .next (doLswStuck s)
/-- RAMP_GRANT. -/
def execRampGrant (k : Ramp) (s : State) : Host.Outcome State Fault Refusal := .next (doRampGrant k s)
/-- TEMPERATURE_READING. -/
def execTemperatureReading (tj : Nat) (s : State) : Host.Outcome State Fault Refusal := .next (doTemperatureReading tj s)
/-- HEARTBEAT_TOGGLE. -/
def execHeartbeatToggle (s : State) : Host.Outcome State Fault Refusal := .next (doHeartbeatToggle s)
/-- PWR_ENABLE. -/
def execPwrEnable (a : Agent) (v : Word) (s : State) : Host.Outcome State Fault Refusal := .next (doPwrEnable a v s)

end Sys2Proof.Machine
end

