-- ==== Sys2Proof/Machine/Lanes.lean ====
section
/-! DEFINITION. The commands of the family Lanes (spec/11; the deadlines of R303 to R306). Port 6 is PRL. -/
namespace Sys2Proof.Machine

open Sys2Proof

/-! ### Training -/

/-- RECEIVER_DETECTION: receivers found on the lanes of mask `lanes` start training in L.DETECT, and in L.HOLD where no phase runs. -/
def doReceiverDetection (p lanes : Nat) (s : State) : State :=
  if p < 7 && (s.lst p == 1 || (s.lst p == 6 && (s.port p).phase == 0)) then detection p lanes s else s

/-- GTS_RECEIVED. -/
def doGtsReceived (p : Nat) (g : Gts) (s : State) : State := if p < 7 then gtsNote p g s else s

/-- TRAINING_PHASE_COMPLETE. -/
def doTrainingPhaseComplete (p rtt : Nat) (s : State) : State := if p < 7 then phaseDone p rtt s else s

/-- LINK_ACTIVE_ENTRY. -/
def doLinkActiveEntry (p : Nat) (s : State) : State := if p < 7 then activeEntry p s else s

/-- TRAINING_LIMIT_EXPIRY (transition 4). -/
def doTrainingLimitExpiry (p : Nat) (s : State) : State := if p < 7 && s.lst p == 2 then trainFail p s else s

/-- RETRAIN_LIMIT_EXPIRY (transitions 12 and 13). -/
def doRetrainLimitExpiry (p : Nat) (s : State) : State :=
  if p < 7 && (s.lst p == 4 || s.lst p == 5) then retrainOver p s else s

/-- TRAINING_PHASE_LIMIT_EXPIRY. -/
def doTrainingPhaseLimitExpiry (p : Nat) (s : State) : State := if p < 7 then phaseLimit p s else s

/-- BLOCK_ALIGNMENT_LOSS on lane `lane` of the link (transition 5, or 9 from L.RESIZE). -/
def doBlockAlignmentLoss (p lane : Nat) (s : State) : State :=
  let g := s.get (F.LPn_LINK_STS_GROUP_LANE p)
  if p < 7 && g ≤ lane && lane < g + s.width p then
    (if s.lst p = 3 then toRetrain p 5 s else if s.lst p = 5 then toRetrain p 9 s else s)
  else s

/-! ### Commands of `LPn_LINK_CMD`, resize and lane test -/

/-- `LPn_LINK_CMD` written with its OP as the command names it. -/
def linkCmdOp (a : Agent) (p op : Nat) (v : Word) (s : State) : State :=
  if p < 7 then ctlWriteBy a (R.LPn_LINK_CMD p) (withField v 0 2 op) 64 s else s

/-- RETRAIN. -/
def doRetrain (a : Agent) (p : Nat) (v : Word) (s : State) : State := linkCmdOp a p 1 v s

/-- RESIZE. -/
def doResize (a : Agent) (p : Nat) (v : Word) (s : State) : State := linkCmdOp a p 2 v s

/-- RESTORE. -/
def doRestore (a : Agent) (p : Nat) (v : Word) (s : State) : State := linkCmdOp a p 3 v s

/-- RESIZE_SWITCH: the new width, or the old one where `ok` says that an added lane failed to lock. -/
def doResizeSwitch (p : Nat) (ok : Bool) (s : State) : State := if p < 7 && s.lst p == 5 then resizeEnd p ok s else s

/-- LANE_TEST_END. -/
def doLaneTestEnd (p : Nat) (pass : Bool) (s : State) : State :=
  if p < 7 && s.is (F.LPn_LANE_STS_TESTING p) then laneTested p pass s else s

/-- PORT_ENABLE: the port's CTL written, ENABLE as `v` has it. -/
def doPortEnable (a : Agent) (p : Nat) (v : Word) (s : State) : State :=
  if p < 7 then ctlWriteBy a (R.LPn_CTL p) v 64 s else s

/-- HOLD_DISABLE: the port's CTL written with HOLD_DISABLE 1. -/
def doHoldDisable (a : Agent) (p : Nat) (v : Word) (s : State) : State :=
  if p < 7 then ctlWriteBy a (R.LPn_CTL p) (withField v 1 1 1) 64 s else s

/-! ### Grace, deadlines, quarantine -/

/-- GRACE_EXPIRY: the hold ends (transition 15). -/
def doGraceExpiry (p : Nat) (s : State) : State := if p < 7 && s.lst p == 6 then portLost p 1 15 s else s

/-- The answer to a request whose deadline has passed: that after grace, counted in DEADLINE (R305, Table 12.9). DEDUCED, log entry 86. -/
def deadlineAnswer (p : Nat) (f : Frame) (s : State) : State :=
  let s1 := failRead f.origin .portDown (faultEvent (portBlk p) 38 0 (s.bump (F.LPn_OUTAGE_STS_DEADLINE p)))
  if f.typ == .atomic then unhold (lineDa f.addr) 4096 s1 else s1

/-- Non-posted frames queued to the output of port `p`, in admission order. -/
def State.npQueued (s : State) (p : Nat) : List Frame :=
  s.swc.queued.filter fun f => f.out == 4 + p && (f.typ == .read || f.typ == .atomic)

/-- REQUEST_DEADLINE: the request outstanding under `tag`, or from 4,096 on the (tag − 4,096)-th non-posted frame queued to the port.
DEDUCED, log entry 86. -/
def doRequestDeadline (p tag : Nat) (s : State) : State :=
  if 7 ≤ p then s
  else if 4096 ≤ tag then
    match (s.npQueued p)[tag - 4096]? with
    | some f => deadlineAnswer p f { s with swc := { s.swc with queued := s.swc.queued.erase f } }
    | none => s
  else
    match (s.port p).np.find? fun n => n.tag == tag && !n.quarantined with
    | some n =>
      deadlineAnswer p n.frame (s.modPort p fun x => { x with
        np := x.np.map fun (m : LinkNp) => if (m.tag = tag) then { m with quarantined := true, deadline := s.dev.time + 2 * s.npLimit p } else m })
    | none => s

/-- PORT_TAG_QUARANTINE_EXPIRY (R306). -/
def doPortTagQuarantineExpiry (p tag : Nat) (s : State) : State :=
  if p < 7 then s.modPort p fun x => { x with np := x.np.filter fun n => !(n.tag == tag && n.quarantined) } else s

/-! ### Slot (R262 to R264) -/

/-- Whether the slot controller of port `p` runs (R262). -/
def State.slotRuns (s : State) (p : Nat) : Bool := decide (p < 6) && s.dev.mode.configured

/-- PRESENCE_CHANGE. The Tether latches it as a wake cause (R39); from CONFIG on the slot controller acts on it (R263). -/
def doPresenceChange (p : Nat) (now : Bool) (s : State) : State :=
  if 6 ≤ p || s.pins.prsnt.getD p false == now then s
  else
    let s1 : State := { s with pins := { s.pins with prsnt := s.pins.prsnt.set p now } }
    let s2 := doWakeCause (.prsnt p) s1
    if s.slotRuns p && s2.is (F.LPn_SLOT_CAP_PRSNT_PIN p) then presence p now s2 else s2

/-- The button of a slot with AUTO 1 is pressed (R264). DEDUCED, log entry 75. -/
def buttonPress (p : Nat) (s : State) : State :=
  let seq := s.get (F.LPn_SLOT_STS_SEQ p)
  let on := s.is (F.LPn_SLOT_STS_PWR p)
  if seq = 0 then (s.put (F.LPn_SLOT_STS_SEQ p) (if on then 1 else 2)).put (F.LPn_SLOT_CTL_IND_PWR p) 2
  else if seq = 1 then (seqEnd p s).put (F.LPn_SLOT_CTL_IND_PWR p) 1
  else if seq = 2 then (seqEnd p s).put (F.LPn_SLOT_CTL_IND_PWR p) 0
  else s

/-- ATTENTION_PRESS. -/
def doAttentionPress (p : Nat) (s : State) : State :=
  if 6 ≤ p then s
  else
    let s1 := doWakeCause (.attn p) s
    if s.slotRuns p && s1.is (F.LPn_SLOT_CAP_ATTN_BTN p) then
      let s2 := s1.put (F.LPn_SLOT_STS_ATTN p) 1
      slotSync p (if s2.is (F.LPn_SLOT_CTL_AUTO p) then buttonPress p s2 else s2)
    else s1

/-- SLOT_POWER_FAULT (R263). -/
def doSlotPowerFault (p : Nat) (s : State) : State :=
  if s.slotRuns p && s.is (F.LPn_SLOT_CTL_PWR_ON p) then
    let s1 := portOff p (slotOff p (seqEnd p s))
    let s2 := faultEvent (.lp p) 18 0 (s1.put (F.LPn_SLOT_STS_PWRFLT p) 1)
    slotSync p (if s2.is (F.LPn_SLOT_CTL_AUTO p) then s2.put (F.LPn_SLOT_CTL_IND_ATTN p) 1 else s2)
  else s

/-- PWR_ON_WRITE: `LPn_SLOT_CTL` written. -/
def doPwrOnWrite (a : Agent) (p : Nat) (v : Word) (s : State) : State :=
  if p < 6 then ctlWriteBy a (R.LPn_SLOT_CTL p) v 64 s else s

/-- PWR_DONE: the power-on delay has passed, and transition 1 may follow. DEDUCED, log entry 76. -/
def doPwrDone (p : Nat) (s : State) : State :=
  if s.slotRuns p && s.is (F.LPn_SLOT_CTL_PWR_ON p) && !(s.is (F.LPn_SLOT_CAP_PWR_CTRL p) && (s.port p).powered) then
    let s1 := if (s.port p).indDue then s.put (F.LPn_SLOT_CTL_IND_PWR p) 1 else s
    let s2 := (s1.put (F.LPn_SLOT_STS_PWR_DONE p) 1).modPort p fun x => { x with powered := true, indDue := false }
    portTry1 p (slotSync p s2)
  else s

/-- CANCEL_WINDOW_EXPIRY: SEQ 1 becomes 3 and the port quiesces; SEQ 2 ends with power on. DEDUCED, log entry 75. -/
def doCancelWindowExpiry (p : Nat) (s : State) : State :=
  if !s.slotRuns p then s
  else if s.get (F.LPn_SLOT_STS_SEQ p) = 1 then
    pcFlushPort p ((s.put (F.LPn_SLOT_STS_SEQ p) 3).modPort p fun x => { x with slotQuiesce := true })
  else if s.get (F.LPn_SLOT_STS_SEQ p) = 2 then
    slotOn p ((s.put (F.LPn_SLOT_STS_SEQ p) 0).modPort p fun x => { x with indDue := true })
  else s

/-- Whether anything of the port is still queued or outstanding. -/
def State.portBusy (s : State) (p : Nat) : Bool :=
  decide (0 < s.queuedTo (4 + p)) || (s.port p).np.any fun n => !n.quarantined

/-- SLOT_QUIESCE_END: the port has drained, or `LPn_GRACE` has passed and what remains is flushed; the slot goes off. DEDUCED, log entry 76. -/
def doSlotQuiesceEnd (p : Nat) (s : State) : State :=
  if s.slotRuns p && s.get (F.LPn_SLOT_STS_SEQ p) == 3 then
    let s1 := if s.portBusy p && !s.is (F.LPn_SLOT_CAP_PWR_CTRL p) then portFlush p .portDown false s else s
    seqEnd p ((slotOff p s1).put (F.LPn_SLOT_CTL_IND_PWR p) 0)
  else s

/-! ### The meanings -/

/-- RECEIVER_DETECTION. -/
def execReceiverDetection (p : Nat) (lanes : Nat) (s : State) : Host.Outcome State Fault Refusal := .next (doReceiverDetection p lanes s)
/-- GTS_RECEIVED. -/
def execGtsReceived (p : Nat) (sets : List (List Byte)) (s : State) : Host.Outcome State Fault Refusal :=
  .next (doGtsReceived p (gtsRead sets) s)
/-- TRAINING_PHASE_COMPLETE. -/
def execTrainingPhaseComplete (p rtt : Nat) (s : State) : Host.Outcome State Fault Refusal := .next (doTrainingPhaseComplete p rtt s)
/-- LINK_ACTIVE_ENTRY. -/
def execLinkActiveEntry (p : Nat) (s : State) : Host.Outcome State Fault Refusal := .next (doLinkActiveEntry p s)
/-- TRAINING_LIMIT_EXPIRY. -/
def execTrainingLimitExpiry (p : Nat) (s : State) : Host.Outcome State Fault Refusal := .next (doTrainingLimitExpiry p s)
/-- RETRAIN_LIMIT_EXPIRY. -/
def execRetrainLimitExpiry (p : Nat) (s : State) : Host.Outcome State Fault Refusal := .next (doRetrainLimitExpiry p s)
/-- BLOCK_ALIGNMENT_LOSS. -/
def execBlockAlignmentLoss (p : Nat) (lane : Nat) (s : State) : Host.Outcome State Fault Refusal := .next (doBlockAlignmentLoss p lane s)
/-- RETRAIN. -/
def execRetrain (a : Agent) (p : Nat) (v : Word) (s : State) : Host.Outcome State Fault Refusal := .next (doRetrain a p v s)
/-- RESIZE. -/
def execResize (a : Agent) (p : Nat) (v : Word) (s : State) : Host.Outcome State Fault Refusal := .next (doResize a p v s)
/-- RESTORE. -/
def execRestore (a : Agent) (p : Nat) (v : Word) (s : State) : Host.Outcome State Fault Refusal := .next (doRestore a p v s)
/-- RESIZE_SWITCH. -/
def execResizeSwitch (p : Nat) (ok : Bool) (s : State) : Host.Outcome State Fault Refusal := .next (doResizeSwitch p ok s)
/-- LANE_TEST_END. -/
def execLaneTestEnd (p : Nat) (pass : Bool) (s : State) : Host.Outcome State Fault Refusal := .next (doLaneTestEnd p pass s)
/-- PORT_ENABLE. -/
def execPortEnable (a : Agent) (p : Nat) (v : Word) (s : State) : Host.Outcome State Fault Refusal := .next (doPortEnable a p v s)
/-- HOLD_DISABLE. -/
def execHoldDisable (a : Agent) (p : Nat) (v : Word) (s : State) : Host.Outcome State Fault Refusal := .next (doHoldDisable a p v s)
/-- GRACE_EXPIRY. -/
def execGraceExpiry (p : Nat) (s : State) : Host.Outcome State Fault Refusal := .next (doGraceExpiry p s)
/-- REQUEST_DEADLINE. -/
def execRequestDeadline (p tag : Nat) (s : State) : Host.Outcome State Fault Refusal := .next (doRequestDeadline p tag s)
/-- PORT_TAG_QUARANTINE_EXPIRY. -/
def execPortTagQuarantineExpiry (p tag : Nat) (s : State) : Host.Outcome State Fault Refusal := .next (doPortTagQuarantineExpiry p tag s)
/-- PRESENCE_CHANGE. -/
def execPresenceChange (p : Nat) (present : Bool) (s : State) : Host.Outcome State Fault Refusal := .next (doPresenceChange p present s)
/-- ATTENTION_PRESS. -/
def execAttentionPress (p : Nat) (s : State) : Host.Outcome State Fault Refusal := .next (doAttentionPress p s)
/-- SLOT_POWER_FAULT. -/
def execSlotPowerFault (p : Nat) (s : State) : Host.Outcome State Fault Refusal := .next (doSlotPowerFault p s)
/-- PWR_ON_WRITE. -/
def execPwrOnWrite (a : Agent) (p : Nat) (v : Word) (s : State) : Host.Outcome State Fault Refusal := .next (doPwrOnWrite a p v s)
/-- PWR_DONE. -/
def execPwrDone (p : Nat) (s : State) : Host.Outcome State Fault Refusal := .next (doPwrDone p s)
/-- CANCEL_WINDOW_EXPIRY. -/
def execCancelWindowExpiry (p : Nat) (s : State) : Host.Outcome State Fault Refusal := .next (doCancelWindowExpiry p s)
/-- SLOT_QUIESCE_END. -/
def execSlotQuiesceEnd (p : Nat) (s : State) : Host.Outcome State Fault Refusal := .next (doSlotQuiesceEnd p s)
/-- TRAINING_PHASE_LIMIT_EXPIRY. -/
def execTrainingPhaseLimitExpiry (p : Nat) (s : State) : Host.Outcome State Fault Refusal := .next (doTrainingPhaseLimitExpiry p s)

end Sys2Proof.Machine
end

