-- ==== Sys2Proof/Machine/Pair.lean ====
section
/-! DEFINITION. The Pair commands: the pair link's enable, forming, hand-over, control packets and the heartbeat (spec/17). All of
them need the pair's block, which only PAIR has (R20). -/
namespace Sys2Proof.Machine

open Sys2Proof

/-- `k` where the configuration has the pair and the device is out of reset. -/
def withPair (k : State → State) (s : State) : State := if s.dev.up && s.hasBlk .prl then k s else s

/-- PRL_ENABLE: `PRL_CTL` written with ENABLE 1 (R414). -/
def doPrlEnable (a : Agent) (v : Word) (s : State) : State := ctlWriteBy a R.PRL_CTL (withField v 0 1 1) 64 s

/-- PAIR_EN: `PRL_CTL` written, PAIR_EN as `v` has it (R405, R414). -/
def doPairEn (a : Agent) (v : Word) (s : State) : State := ctlWriteBy a R.PRL_CTL v 64 s

/-- HANDOVER: `PRL_CTL` written with HANDOVER 1 (R409). DEDUCED, log entry 113. -/
def doHandover (a : Agent) (v : Word) (s : State) : State := ctlWriteBy a R.PRL_CTL (withField v 3 1 1) 64 s

/-- HANDBACK: `PRL_CTL` written with HANDBACK 1 and HANDOVER 0 (R409). DEDUCED, log entry 113. -/
def doHandback (a : Agent) (v : Word) (s : State) : State := ctlWriteBy a R.PRL_CTL (withField v 3 2 2) 64 s

/-- HANDOVER_GIVE: drained and mirrored, the giver passes its envelopes on (R409). -/
def doHandoverGive (s : State) : State := withPair giveEnd s

/-- PAIR_CONTROL_PACKET: a packet of opcode 0x0D or 0x0E arrives on PL (R399). -/
def doPairControlPacket (m : PairMsg) (s : State) : State := withPair (fun t => if t.flits 6 then pairMsg m t else t) s

/-- SYNC_COMPLETE (R406). -/
def doSyncComplete (s : State) : State := withPair syncAgreed s

/-- SYNC_TIMEOUT: 200 ms in SYNCING (Table 17.2). -/
def doSyncTimeout (s : State) : State := withPair pairSyncFail s

/-- HEARTBEAT_EDGE: `PAIR_HB_IN` changes to `level` (R407). DEDUCED, log entry 112. -/
def doHeartbeatEdge (level : Bool) (s : State) : State :=
  withPair (fun t => if t.pins.hbIn == level then t else hbEdge level t) s

/-- HEARTBEAT_SILENCE: no edge for TIMEOUT_US, once for each silence (R407). DEDUCED, log entry 112. -/
def doHeartbeatSilence (s : State) : State := withPair (fun t => if t.prl.hbSilent then t else hbSilence t) s

/-- PAIR_PROBE_TIMEOUT: no answer to the probe within CONFIRM_US (R407). -/
def doPairProbeTimeout (s : State) : State := withPair probeSilent s

/-- FAILOVER_CONFIRM_DELAY: a further 2 ms with both silent (R407). -/
def doFailoverConfirmDelay (s : State) : State := withPair confirmDelay s

/-! ### The meanings -/

/-- PRL_ENABLE. -/
def execPrlEnable (a : Agent) (v : Word) (s : State) : Host.Outcome State Fault Refusal := .next (doPrlEnable a v s)
/-- PAIR_EN. -/
def execPairEn (a : Agent) (v : Word) (s : State) : Host.Outcome State Fault Refusal := .next (doPairEn a v s)
/-- HANDOVER. -/
def execHandover (a : Agent) (v : Word) (s : State) : Host.Outcome State Fault Refusal := .next (doHandover a v s)
/-- HANDBACK. -/
def execHandback (a : Agent) (v : Word) (s : State) : Host.Outcome State Fault Refusal := .next (doHandback a v s)
/-- HANDOVER_GIVE. -/
def execHandoverGive (s : State) : Host.Outcome State Fault Refusal := .next (doHandoverGive s)
/-- PAIR_CONTROL_PACKET. -/
def execPairControlPacket (m : PairMsg) (s : State) : Host.Outcome State Fault Refusal := .next (doPairControlPacket m s)
/-- SYNC_COMPLETE. -/
def execSyncComplete (s : State) : Host.Outcome State Fault Refusal := .next (doSyncComplete s)
/-- SYNC_TIMEOUT. -/
def execSyncTimeout (s : State) : Host.Outcome State Fault Refusal := .next (doSyncTimeout s)
/-- HEARTBEAT_EDGE. -/
def execHeartbeatEdge (level : Bool) (s : State) : Host.Outcome State Fault Refusal := .next (doHeartbeatEdge level s)
/-- HEARTBEAT_SILENCE. -/
def execHeartbeatSilence (s : State) : Host.Outcome State Fault Refusal := .next (doHeartbeatSilence s)
/-- PAIR_PROBE_TIMEOUT. -/
def execPairProbeTimeout (s : State) : Host.Outcome State Fault Refusal := .next (doPairProbeTimeout s)
/-- FAILOVER_CONFIRM_DELAY. -/
def execFailoverConfirmDelay (s : State) : Host.Outcome State Fault Refusal := .next (doFailoverConfirmDelay s)

end Sys2Proof.Machine
end

