-- ==== Sys2Proof/Machine/Protocol.lean ====
section
/-! DEFINITION. The commands of the family Protocol (spec/12; the effect of MSG_INT in spec/13; what PL does otherwise, R399). Port 6 is
PRL. -/
namespace Sys2Proof.Machine

open Sys2Proof

/-! ### Flits (R270 to R285) -/

/-- A cause of transition 5, or of 9 from L.RESIZE. -/
def linkFault (p : Nat) (s : State) : State :=
  if s.lst p = 3 then toRetrain p 5 s else if s.lst p = 5 then toRetrain p 9 s else s

/-- E − 1, the ACK that the bridge sends (R277). -/
def State.ackOut (s : State) (p : Nat) : Nat := ((s.port p).rxSeq + 4095) % 4096

/-- A NAK is sent (R277). -/
def sendNak (p : Nat) (s : State) : State :=
  ((s.modPort p fun x => { x with nakTime := s.dev.time }).bump (F.LPn_REPLAY_STS_NAK_SENT p)).emit (.nak p (s.ackOut p))

/-- An error under R276: one NAK, and everything up to E is discarded. DEDUCED, log entry 80. -/
def flitError (p : Nat) (s : State) : State :=
  if (s.port p).discarding then s else sendNak p (s.modPort p fun x => { x with discarding := true })

/-- A CRC failure is charged to the one lane whose parity disagrees, or to none (R259). -/
def laneCharge (p : Nat) (errs : List Nat) (s : State) : State :=
  match errs with
  | [l] =>
    if l < s.width p then
      let k := s.get (F.LPn_LINK_STS_GROUP_LANE p) + l
      faultEvent (portBlk p) k 0 (s.bump (F.LPn_LANE_CNT_SUSPECT p k))
    else s.bump (F.LPn_LANE_STS_UNATTRIB p)
  | _ => s.bump (F.LPn_LANE_STS_UNATTRIB p)

/-- An echo gives a sample of the round trip in ns (R285). DEDUCED, log entry 79. -/
def echoNote (p v : Nat) (s : State) : State :=
  match (s.port p).probes.find? fun e => e.1 == v with
  | some e => rttSync p (s.modPort p fun x => { x with
      probes := x.probes.filter fun d => d.1 != v
      samples := (x.samples ++ [(s.dev.time - e.2) * 5 / 6]).drop (x.samples.length + 1 - 16) })
  | none => s

/-- The link-control word and HOLD of a passing flit (R275, R282, R285, R299); requests act by Table 11.6. -/
def lcwNote (p : Nat) (f : FlitIn) (s : State) : State :=
  let s1 := (s.put (F.LPn_FC_STS_XOFF_RX p) (f.xoff % 2 ^ s.vcs p)).modPort p fun x => { x with
    peerHold := f.hold
    rxProbe := if f.probe = 0 then x.rxProbe else f.probe }
  let s2 := txDrain p (echoNote p f.echo s1)
  if f.req = 1 then peerRequest p { kind := 1, eq := f.reqEq, test := if f.reqTest then some f.reqTestLane else none } s2
  else if f.req = 2 && f.reqWidth ≤ 4 then peerRequest p { kind := 2, width := 2 ^ f.reqWidth } s2
  else if f.req = 0 then s2.modPort p fun x => { x with peerReq := none }
  else s2

/-- Sent packets whose flits are not all acknowledged once `n` flits more are. -/
def ackDrop : List TxPkt → Nat → List TxPkt
  | [], _ => []
  | k :: r, n => if k.n ≤ n then ackDrop r (n - k.n) else { k with first := (k.first + n) % 4096, n := k.n - n } :: r

/-- Replay from the oldest unacknowledged flit; the fourth of the same flit ends in L.RETRAIN (R278, R279). -/
def replay (p : Nat) (s : State) : State :=
  if (s.port p).unacked.isEmpty then s
  else
    let n := (s.port p).replays + 1
    let s1 := (s.modPort p fun x => { x with replays := n, ackTime := s.dev.time }).bump (F.LPn_REPLAY_STS_REPLAYS p)
    if 4 ≤ n then linkFault p (faultEvent (portBlk p) 32 0 (s1.bump (F.LPn_REPLAY_STS_LIMIT p))) else resend p s1

/-- Whether a NAK with ACK `a` repeats one acted on within the last governing round trip (R278). -/
def State.nakOld (s : State) (p a : Nat) : Bool :=
  match (s.port p).nakAck with
  | some (b, t) => b == a && decide ((s.dev.time - t) * 5 / 6 ≤ s.rtt p)
  | none => false

/-- ACK and NAK of a passing flit (R277, R278): none where the value is invalid. -/
def ackNote (p : Nat) (f : FlitIn) (s : State) : Option State :=
  if !f.ackV then some s
  else
    let x := s.port p
    let d := (f.ack + 4096 - x.acked) % 4096
    if s.unackedFlits p < d then none
    else
      let s1 := if d = 0 then s else
        txDrain p (s.setPort p { x with acked := f.ack % 4096, unacked := ackDrop x.unacked d, replays := 0, ackTime := s.dev.time })
      if f.nak && !s.nakOld p f.ack then
        some (replay p ((s1.modPort p fun y => { y with nakAck := some (f.ack, s.dev.time) }).bump (F.LPn_REPLAY_STS_NAK_RCVD p)))
      else some s1

/-- Whether a packet uses a receive buffer (R281); pair control and mirror packets arrive as PAIR_CONTROL_PACKET. -/
def pktQueued (k : Pkt) : Bool := k.op != 0x0D && k.op != 0x0E

/-- The packets of an accepted flit; after broken framing none until the next DATA flit (R295). -/
def State.flitPkts (s : State) (p : Nat) (f : FlitIn) : List Pkt := if (s.port p).framing && f.typ = 2 then [] else f.pkts

/-- Whether an accepted flit would overfill a VC (R283). -/
def State.overfull (s : State) (p : Nat) (l : List Pkt) : Bool :=
  (List.range (s.vcs p)).any fun v =>
    decide (s.rxFree p v < sumList ((l.filter fun k => k.vc == v && k.op != 0x0B && k.op != 0x0C && pktQueued k).map pktBytes))

/-- A DATA or DATA_CONT flit with the expected SEQ is accepted, or refused for want of room (R276, R283). -/
def flitAccept (p : Nat) (f : FlitIn) (s : State) : State :=
  let l := s.flitPkts p f
  if s.overfull p l then flitError p (faultEvent (portBlk p) 33 0 (s.bump (F.LPn_FC_STS_OVERRUN p)))
  else
    let skip := (s.port p).framing && f.typ == 2
    let bad := !skip && f.framing
    let s1 := s.modPort p fun x => { x with
      rxSeq := (x.rxSeq + 1) % 4096
      rxAny := true
      discarding := false
      framing := bad || skip
      part := if skip then [] else f.part
      rx := x.rx ++ l.filter pktQueued }
    xoffSync p (if bad then faultEvent (portBlk p) 34 0 s1 else s1)

/-- Acceptance of a passing flit by TYPE and SEQ (R276): the 2,048 values before E are duplicates. DEDUCED, log entry 80. -/
def flitSeq (p : Nat) (f : FlitIn) (s : State) : State :=
  let e := (s.port p).rxSeq
  if (e + 4095 - f.seq % 4096) % 4096 < 2048 then s
  else if f.typ != 3 && f.seq == e then flitAccept p f s
  else flitError p s

/-- FLIT_RECEIVED. -/
def doFlitReceived (p : Nat) (f : FlitIn) (s : State) : State :=
  if 7 ≤ p || !s.flits p then s
  else if !f.crcOk then flitError p (laneCharge p f.errLanes s)
  else match ackNote p f s with
    | none => linkFault p s
    | some s1 =>
      let s2 := lcwNote p f s1
      if f.typ = 0 || 3 < f.typ then linkFault p s2 else flitSeq p f s2

/-- NAK_REPEAT_TIMEOUT. -/
def doNakRepeatTimeout (p : Nat) (s : State) : State :=
  if p < 7 && s.flits p && (s.port p).discarding then sendNak p s else s

/-- REPLAY_TIMEOUT. -/
def doReplayTimeout (p : Nat) (s : State) : State := if p < 7 && s.flits p then replay p s else s

/-- PROBE_TICK. DEDUCED, log entry 79. -/
def doProbeTick (p : Nat) (s : State) : State :=
  if p < 7 && s.flits p then
    s.modPort p fun x =>
      let v := x.probe % 65535 + 1
      { x with probe := v, probes := (x.probes.filter fun e => e.1 != v) ++ [(v, s.dev.time)] }
  else s

/-- PROBE_SAMPLE_TIMEOUT: the oldest value that has not returned. -/
def doProbeSampleTimeout (p : Nat) (s : State) : State :=
  if p < 7 then s.modPort p fun x => { x with probes := x.probes.drop 1 } else s

/-! ### Packets out of the receive buffers (R289, R290) -/

/-- Whether packet `k` with opcode `op` is the first of its VC in the receive buffers of port `p`. -/
def State.rxFirst (s : State) (p op : Nat) (k : Pkt) : Bool :=
  decide (p < 7) && k.op == op && ((s.port p).rx.find? fun j => j.vc == k.vc) == some k

/-- The packet leaves its buffer and is counted among those of its VC. -/
def takeRx (p : Nat) (k : Pkt) (s : State) : State :=
  s.modPort p fun x => { x with rx := x.rx.erase k, ser := KMap.set x.ser 0 k.vc (KMap.get x.ser 0 k.vc + 1) }

/-- The DA field of a packet. -/
def pktDa (k : Pkt) : Nat := k.addr % 2 ^ 48

/-- The CNT field of a packet. -/
def pktCnt (k : Pkt) : Nat := k.addr / 2 ^ 48 % 2 ^ 13

/-- POISON of a packet. -/
def pktPoison (k : Pkt) : Bool := bitOf k.flags 1

/-- A malformed packet is counted (R295). -/
def malformed (p : Nat) (s : State) : State := faultEvent (portBlk p) 34 0 s

/-- A malformed request is answered (R295). DEDUCED, log entry 82. -/
def malformedReq (p : Nat) (k : Pkt) (s : State) : State := errPkt p k.tag false k.env (pktDa k) 5 (malformed p s)

/-- A packet with a RSV bit set or a LEN that does not fit it: a request is answered, anything else is discarded (R295). -/
def badPkt (p : Nat) (k : Pkt) (s : State) : State :=
  if [1, 2, 5, 6, 7, 0x0A].contains k.op && !(p == 6 && (k.op == 6 || k.op == 7)) then malformedReq p k s else malformed p s

/-- What a packet does, once it has left its buffer. -/
def act (p : Nat) (k : Pkt) (f : State → State) (s : State) : State :=
  xoffSync p ((if k.bad then badPkt p k else f) (takeRx p k s))

/-- A request whose VC is bound to another envelope (R291). -/
def State.vcWrong (s : State) (p : Nat) (k : Pkt) : Bool :=
  match s.vcBound p k.vc with
  | some e => k.env != e
  | none => false

/-- The order in which a request is judged: malformed, mode (R304, Table 3.12), envelope of its VC. DEDUCED, log entry 82. -/
def request (p : Nat) (k : Pkt) (bad : Bool) (f : State → State) (s : State) : State :=
  if bad || s.isRsp p k.vc then malformedReq p k s
  else if !s.dev.mode.serving then errPkt p k.tag false k.env (pktDa k) 7 s
  else if s.vcWrong p k then errPkt p k.tag false k.env (pktDa k) 1 (faultEvent (portBlk p) 35 0 s)
  else f s

/-- The frame of a partner's request. DEDUCED, log entry 88. -/
def State.partnerFrame (s : State) (p : Nat) (typ : FTyp) (k : Pkt) (len : Nat) : Frame :=
  { typ := typ, inp := 4 + p, out := 0, ivc := k.vc, env := k.env, addr := (pktDa k), len := len, tag := k.tag
    cls := s.get (if typ == .write then F.SWC_INMAP_PCLASS (4 + p) k.vc else F.SWC_INMAP_NPCLASS (4 + p) k.vc)
    data := if typ == .read then [] else k.data
    origin := .partner p k.vc k.tag (KMap.get (s.port p).ser 0 k.vc) k.env }

/-- A non-posted request of the partner becomes outstanding and goes to WXL. -/
def npRequest (p : Nat) (typ : FTyp) (k : Pkt) (len : Nat) (s : State) : State :=
  let f := s.partnerFrame p typ k len
  let s1 := s.modPort p fun x => { x with npIn := x.npIn ++ [k.tag] }
  if typ == .atomic && daT (pktDa k) = 15 then errPkt p k.tag true k.env (pktDa k) 6 s1
  else wxlAccess { f := { f with atop := k.addr / 2 ^ 48 % 4 } } s1

/-- Whether the range of an MRD or MWR is out of its limits (R295). -/
def pktBadRange (k : Pkt) : Bool := (pktCnt k) == 0 || decide (4096 < (pktDa k) % 4096 + (pktCnt k))

/-- MRD. -/
def doMrd (p : Nat) (k : Pkt) (s : State) : State :=
  if !s.rxFirst p 1 k || 4096 ≤ (s.port p).npIn.length then s
  else act p k (fun t => request p k ((pktBadRange k) || (t.port p).npIn.contains k.tag) (npRequest p .read k (pktCnt k)) t) s

/-- MWR. A poisoned payload is written nowhere (R294). -/
def doMwr (p : Nat) (k : Pkt) (s : State) : State :=
  if !s.rxFirst p 2 k then s
  else act p k (fun t => request p k ((pktBadRange k) || k.data.length != (pktCnt k) || (t.port p).npIn.contains k.tag)
    (fun u => if (pktPoison k) then u else wxlAccess { f := u.partnerFrame p .write k (pktCnt k) } u) t) s

/-- ATOM; PL carries none (R399). -/
def doAtom (p : Nat) (k : Pkt) (s : State) : State :=
  if !s.rxFirst p 5 k || 4096 ≤ (s.port p).npIn.length then s
  else act p k (fun t => request p k (p == 6 || (pktDa k) % 8 != 0 || k.addr / 2 ^ 48 % 4 == 3 || k.data.length != 16
    || (t.port p).npIn.contains k.tag) (npRequest p .atomic k 8) t) s

/-- CFG from a partner (R298). DEDUCED, log entry 83. -/
def doCfg (p : Nat) (k : Pkt) (s : State) : State :=
  if !s.rxFirst p 0x0A k then s
  else act p k (fun t => if t.isRsp p k.vc || (t.port p).npIn.contains k.tag then malformedReq p k t
    else errPkt p k.tag false k.env (pktDa k) 6 t) s

/-! ### Completions (R293, R294, R306) -/

/-- The response that carries what a completed request brings; the line of a partner cache takes it at once. -/
def npReturn (p : Nat) (f : Frame) (ans : Ans) (data : List Byte) (se : Bool) (s : State) : State :=
  let g := { f.answer (4 + p) ans data with se := se }
  match f.origin with
  | .pcFill _ => deliverAns g s
  | _ => s.inject g

/-- A request ends with unusable data: what has arrived, and for the rest bytes that the spec leaves open. -/
def npPoison (p : Nat) (n : LinkNp) (s : State) : State :=
  let len := if n.frame.typ == .atomic then 16 else n.frame.len
  let m := len - n.data.length
  npReturn p n.frame .poison (n.data ++ s.freeBytes m) n.se (s.useFreeBytes m)

/-- The tag of a request is free again. -/
def npFree (p tag : Nat) (s : State) : State :=
  s.modPort p fun x => { x with np := x.np.filter fun n => n.tag != tag }

/-- The answer to a CFG of the bridge (R298). DEDUCED, log entry 85. -/
def cfgDone (p result : Nat) (s : State) : State :=
  ((s.modPort p fun x => { x with cfgTag := none }).put (F.LPn_CFG_CMD_GO p) 0).put (F.LPn_CFG_CMD_RESULT p) result

/-- An answer that arrives for a tag: late, to the request, to a CFG, or malformed. `last` says that it ends the request. -/
def response (p : Nat) (k : Pkt) (last : Bool) (toNp : LinkNp → State → State) (toCfg : State → State) (s : State) : State :=
  if !s.isRsp p k.vc then malformed p s
  else match (s.port p).np.find? fun n => n.tag == k.tag with
    | some n =>
      if n.quarantined then (if last then npFree p k.tag else id) (s.bump (F.LPn_OUTAGE_STS_LATE p)) else toNp n s
    | none => if (s.port p).cfgTag = some k.tag then toCfg s else malformed p s

/-- Whether a CPLD does not continue the data of its request (R293, R295). DEDUCED, log entry 84. -/
def cpldBad (n : LinkNp) (k : Pkt) : Bool :=
  let off := k.addr % 2 ^ 13
  let last := bitOf k.flags 2
  k.data.length != (pktCnt k) || (pktCnt k) == 0 || off != n.data.length
    || (if n.frame.typ == .atomic then !last || ((pktCnt k) != 8 && (pktCnt k) != 16)
        else decide (n.frame.len < off + (pktCnt k)) || (last && off + (pktCnt k) != n.frame.len))

/-- Data of a request arrives. DEDUCED, log entry 84. -/
def cpldNp (p : Nat) (k : Pkt) (n : LinkNp) (s : State) : State :=
  if cpldBad n k then malformed p s
  else
    let m := { n with
      data := if n.frame.typ == .atomic then toBytes 16 (bytesAt k.data 0 8) else n.data ++ k.data
      poison := n.poison || (pktPoison k) || decide (2 ≤ k.status)
      corrected := n.corrected || k.status == 1
      se := n.se || bitOf k.flags 0 }
    if bitOf k.flags 2 then
      npReturn p m.frame (if m.poison then .poison else if m.corrected then .corrected else .ok) m.data m.se (npFree p k.tag s)
    else s.modPort p fun x => { x with np := x.np.map fun (j : LinkNp) => if (j.tag = k.tag) then m else j }

/-- CPLD. -/
def doCpld (p : Nat) (k : Pkt) (s : State) : State :=
  if !s.rxFirst p 4 k then s
  else act p k (response p k (bitOf k.flags 2) (cpldNp p k) (fun t =>
    if t.is (F.LPn_CFG_CMD_WRITE p) || k.data.length < 8 then malformed p t
    else cfgDone p (b2n ((pktPoison k) || decide (2 ≤ k.status))) (t.put (F.LPn_CFG_DATA_DATA p) (bytesAt k.data 0 8)))) s

/-- CPL: of an MRD or ATOM, as data with POISON 1 (R294). -/
def doCpl (p : Nat) (k : Pkt) (s : State) : State :=
  if !s.rxFirst p 3 k then s
  else act p k (response p k true (fun n t => npPoison p n (npFree p k.tag t)) (fun t =>
    cfgDone p (b2n ((pktPoison k) || k.status != 0 || !t.is (F.LPn_CFG_CMD_WRITE p))) t)) s

/-! ### ERR and posted-write errors (R300 to R302) -/

/-- An entry is written to the posted-error ring, or LOST counts it (R302). -/
def perrLog (p : Nat) (k : Pkt) (a : Attrib) (s : State) : State :=
  let wr := s.get (F.LPn_PERR_STS_WR p)
  if (wr + 1) % 64 = s.get (F.LPn_PERR_STS_RD p) then s.bump (F.LPn_PERR_STS_LOST p)
  else
    let w := fun (j n : Nat) (t : State) => t.setReg (R.LPn_PERR_RING p wr j) (BitVec.ofNat 64 n)
    (w 0 (s.dev.time % 2 ^ 48 + k.status % 128 * 2 ^ 48 + a.origin * 2 ^ 56)
      (w 1 ((pktDa k) + k.env % 1024 * 2 ^ 48) (w 2 (k.tag + a.fn % 2048 * 2 ^ 16) (w 3 a.loc s)))).put (F.LPn_PERR_STS_WR p) ((wr + 1) % 64)

/-- The attribution of a write tag, ORIGIN 0 without one (R301). DEDUCED, log entry 87. -/
def State.attribFor (s : State) (p tag : Nat) : Attrib :=
  match KMap.find (s.port p).attrib ((tag - 0x1000) % 1024) with
  | some a => if a.tag = tag then a else { tag := tag, origin := 0, fn := 0, loc := 0 }
  | none => { tag := tag, origin := 0, fn := 0, loc := 0 }

/-- A partner reports a posted write that it failed (R300); a core's is counted at the core (R342). -/
def postedErr (p : Nat) (k : Pkt) (s : State) : State :=
  let a := s.attribFor p k.tag
  let s1 := s.bump (F.LPn_PERR_STS_COUNT p)
  let s2 := perrSync p (perrLog p k a (if a.origin = 0 then s1.bump (F.LPn_PERR_STS_UNATTRIB p) else s1))
  let e := k.env % 1024
  let fn := s.get (F.LPn_ENV_ERRVEC_FN p e)
  let s3 := if s.is (F.LPn_ENV_ERRVEC_VALID p e) && s.fnEnv fn == some e then hpEvent fn (s.get (F.LPn_ENV_ERRVEC_VECTOR p e)) s2 else s2
  let s4 := if a.origin = 1 || a.origin = 2 then fnFault F.HEP_FN_FAULT_POSTED_ERR a.fn s3 else s3
  let s5 := match a.core with
    | some c => s4.bump (F.GDC_CORE_STS_LATE_ERR c)
    | none => s4
  faultEvent (.lp p) 36 (pktDa k) s5

/-- ERR: of a write tag, a posted-write error on a local port; otherwise it ends its request with unusable data. -/
def doErr (p : Nat) (k : Pkt) (s : State) : State :=
  if !s.rxFirst p 8 k then s
  else act p k (fun t =>
    if t.isRsp p k.vc && 0x1000 ≤ k.tag && k.tag ≤ 0x3FFF then (if p = 6 then t else postedErr p k t)
    else response p k true (fun n u => npPoison p n (npFree p k.tag u)) (cfgDone p 1) t) s

/-! ### Messages (R296, R297, R330) -/

/-- A MSG_INT or MSG_SB on PL: malformed and discarded (R399). -/
def plMessage (p : Nat) (k : Pkt) (f : State → State) (s : State) : State := if p = 6 then malformed p s else request p k false f s

/-- MSG_INT waits for the writes received before it on its VC; at most 256 wait (R330). -/
def doMsgInt (p : Nat) (k : Pkt) (s : State) : State :=
  if !s.rxFirst p 6 k || 256 ≤ (s.icu.msgs.filter fun m => m.port == p).length then s
  else act p k (plMessage p k fun t =>
    { t with icu := { t.icu with msgs := t.icu.msgs ++ [{ port := p, vc := k.vc, vector := k.addr % 128, action := k.addr / 256 % 4,
                                                          env := k.env, ser := KMap.get (t.port p).ser 0 k.vc }] } }) s

/-- Whether a frame is a write received on VC `vc` of port `p` before place `ser`. -/
def ahead (p vc ser : Nat) (o : Origin) : Bool :=
  match o with
  | .partner q v _ n _ => q == p && v == vc && decide (n < ser)
  | _ => false

/-- Whether a write before a MSG_INT is neither delivered nor answered (R330). -/
def State.writesAhead (s : State) (m : MsgInt) : Bool :=
  ((s.swc.inject ++ s.swc.queued ++ s.swc.retry ++ (s.wxl.heldAcc ++ s.wxl.fills.flatMap (·.2) ++ s.wxl.atsWait.map (·.2)).map (·.f)).any
    fun f => f.typ == .write && ahead m.port m.vc m.ser f.origin)
  || (List.range 7).any fun p => (s.port p).unacked.any fun k => k.pkt.op == 2 && ahead m.port m.vc m.ser k.origin

/-- A MSG_INT acts on its ICU source (Table 13.3), unless the envelope of the source's host function refuses it (R318). -/
def partnerSource (m : MsgInt) (s : State) : State :=
  let n := 256 + 128 * m.port + m.vector
  let fn := s.get (F.ICU_SRC_CFG_HOST_FN n)
  if bitOf (s.get (F.ICU_SRC_CFG_TARGETS n)) 8 && fn != 0 && s.fnEnv fn != some m.env then
    faultEvent .icu 1 (n % 1024 + m.env % 1024 * 2 ^ 16) (s.bump F.ICU_STS_ENV_DROP)
  else
    let s1 := s.put (F.ICU_SRC_STS_ENV n) m.env
    if m.action = 0 then icuEvent n s1 else if m.action = 1 then icuLevel n true s1 else if m.action = 2 then icuLevel n false s1 else s1

/-- The waiting MSG_INT of port `p` that may act: the first of its VC, with no write left before it. -/
def State.msgReady (s : State) (p : Nat) : Option MsgInt :=
  let l := s.icu.msgs.filter fun m => m.port == p
  l.find? fun m => (l.find? fun j => j.vc == m.vc) == some m && !s.writesAhead m

/-- MSG_INT_EFFECT. -/
def doMsgIntEffect (p : Nat) (s : State) : State :=
  match s.msgReady p with
  | none => s
  | some m => partnerSource m { s with icu := { s.icu with msgs := s.icu.msgs.erase m } }

/-- A side-band signal of the partner (R297). -/
def sbIn (p : Nat) (k : Pkt) (s : State) : State :=
  let i := k.addr % 16
  let lvl := bitOf k.addr 8
  let cur := s.get (F.LPn_SB_IN p)
  if bitOf cur i == lvl then s
  else
    let s1 := s.put (F.LPn_SB_IN p) (if lvl then bitSet cur i else bitClr cur i)
    sbSync p (s1.put (F.LPn_SB_CHG p) (bitSet (s1.get (F.LPn_SB_CHG p)) i))

/-- MSG_SB: link control, in every mode. DEDUCED, log entry 83. -/
def doMsgSb (p : Nat) (k : Pkt) (s : State) : State :=
  if !s.rxFirst p 7 k then s
  else act p k (fun t =>
    if p = 6 then malformed p t
    else if t.isRsp p k.vc then malformedReq p k t
    else if t.vcWrong p k then errPkt p k.tag false k.env (pktDa k) 1 (faultEvent (portBlk p) 35 0 t)
    else sbIn p k t) s

/-- EPOCH (R308). -/
def doEpoch (p : Nat) (k : Pkt) (s : State) : State := if s.rxFirst p 0x0B k then act p k (linkFault p) s else s

/-! ### Sleep (R299) -/

/-- The first PM packet with ACTION `a` that is the first of its VC. -/
def State.pmFirst (s : State) (p a : Nat) : Option Pkt :=
  if 7 ≤ p then none else (s.port p).rx.find? fun k => k.addr % 4 == a && s.rxFirst p 0x0C k

/-- Whether the port is idle (rule 1). -/
def State.portIdle (s : State) (p : Nat) : Bool :=
  let x := s.port p
  s.queuedTo (4 + p) == 0 && !(s.swc.inject.any fun f => f.out == 4 + p && !f.mcast) && x.np.all (·.quarantined) && x.cfgTag.isNone
    && x.npIn.isEmpty && x.unacked.isEmpty && x.txq.isEmpty

/-- A PM packet with ACTION `a` leaves. -/
def sendPm (p a : Nat) (s : State) : State :=
  sendPkt p { op := 0x0C, vc := s.reqVc p, env := 0, tag := 0, addr := a, len := 0, status := 0, flags := 4, data := [] } s

/-- The state of the handshake. -/
def setSleep (p n : Nat) (s : State) : State := s.modPort p fun x => { x with sleep := n }

/-- SLEEP_REQ: answered (rules 3 and 4); with a request of its own pending and idle, it stands for SLEEP_ACK. -/
def doSleepReq (p : Nat) (s : State) : State :=
  match s.pmFirst p 0 with
  | none => s
  | some k =>
    act p k (fun t =>
      if t.lst p != 3 then t
      else if !s.portIdle p then sendPm p 2 t
      else if (t.port p).sleep = 1 then setSleep p 2 t
      else setSleep p 2 (sendPm p 1 t)) s

/-- SLEEP_ACK. -/
def doSleepAck (p : Nat) (s : State) : State :=
  match s.pmFirst p 1 with
  | none => s
  | some k => act p k (fun t => if (t.port p).sleep = 1 then setSleep p 2 t else t) s

/-- SLEEP_NAK. -/
def doSleepNak (p : Nat) (s : State) : State :=
  match s.pmFirst p 2 with
  | none => s
  | some k => act p k (fun t => if (t.port p).sleep = 1 then setSleep p 0 t else t) s

/-- SLEEP_IDLE_EXPIRY. -/
def doSleepIdleExpiry (p : Nat) (s : State) : State :=
  if p < 7 && s.lst p == 3 && s.is (F.LPn_PROTO_CFG_SLEEP_IDLE_US p) && (s.port p).sleep == 0 && s.portIdle p then
    setSleep p 1 (sendPm p 0 s)
  else s

/-- SLEEP_HANDSHAKE_TIMEOUT (rule 6). -/
def doSleepHandshakeTimeout (p : Nat) (s : State) : State :=
  if p < 7 && s.lst p == 3 && (s.port p).sleep != 0 then txDrain p (setSleep p 0 s) else s

/-- SLEEP_ENTRY (rule 5, transition 10). -/
def doSleepEntry (p : Nat) (s : State) : State :=
  let x := s.port p
  if p < 7 && s.lst p == 3 && x.sleep == 2 && x.peerHold && x.unacked.isEmpty then linkTo p 7 10 (s.emit (.eios p)) else s

/-- SLEEP_EXIT (transition 11). -/
def doSleepExit (p : Nat) (s : State) : State :=
  if p < 7 && s.lst p == 7 then toRetrain p 11 (s.modPort p fun x => { x with sleep := 0, peerHold := false }) else s

/-! ### Registers -/

/-- PORT_REARM: `LPn_REARM` written with REARM 1. -/
def doPortRearm (a : Agent) (p : Nat) (v : Word) (s : State) : State :=
  if p < 6 then ctlWriteBy a (R.LPn_REARM p) (withField v 0 1 1) 64 s else s

/-- CFG_CMD: `LPn_CFG_CMD` written with GO 1. DEDUCED, log entry 85. -/
def doCfgCmd (a : Agent) (p : Nat) (v : Word) (s : State) : State :=
  if p < 6 then ctlWriteBy a (R.LPn_CFG_CMD p) (withField v 33 1 1) 64 s else s

/-- CFG_ANSWER_TIMEOUT. -/
def doCfgAnswerTimeout (p : Nat) (s : State) : State := if p < 6 && s.is (F.LPn_CFG_CMD_GO p) then cfgDone p 2 s else s

/-- SIDEBAND_OUT: `LPn_SB` written. -/
def doSidebandOut (a : Agent) (p : Nat) (v : Word) (s : State) : State := if p < 6 then ctlWriteBy a (R.LPn_SB p) v 64 s else s

/-! ### The meanings -/

/-- FLIT_RECEIVED. -/
def execFlitReceived (p : Nat) (flit : List Byte) (s : State) : Host.Outcome State Fault Refusal :=
  .next (doFlitReceived p (s.flitIn p flit) s)
/-- NAK_REPEAT_TIMEOUT. -/
def execNakRepeatTimeout (p : Nat) (s : State) : Host.Outcome State Fault Refusal := .next (doNakRepeatTimeout p s)
/-- REPLAY_TIMEOUT. -/
def execReplayTimeout (p : Nat) (s : State) : Host.Outcome State Fault Refusal := .next (doReplayTimeout p s)
/-- PROBE_TICK. -/
def execProbeTick (p : Nat) (s : State) : Host.Outcome State Fault Refusal := .next (doProbeTick p s)
/-- PROBE_SAMPLE_TIMEOUT. -/
def execProbeSampleTimeout (p : Nat) (s : State) : Host.Outcome State Fault Refusal := .next (doProbeSampleTimeout p s)
/-- MRD. -/
def execMrd (p : Nat) (k : Pkt) (s : State) : Host.Outcome State Fault Refusal := .next (doMrd p k s)
/-- MWR. -/
def execMwr (p : Nat) (k : Pkt) (s : State) : Host.Outcome State Fault Refusal := .next (doMwr p k s)
/-- CPL. -/
def execCpl (p : Nat) (k : Pkt) (s : State) : Host.Outcome State Fault Refusal := .next (doCpl p k s)
/-- CPLD. -/
def execCpld (p : Nat) (k : Pkt) (s : State) : Host.Outcome State Fault Refusal := .next (doCpld p k s)
/-- ATOM. -/
def execAtom (p : Nat) (k : Pkt) (s : State) : Host.Outcome State Fault Refusal := .next (doAtom p k s)
/-- MSG_INT. -/
def execMsgInt (p : Nat) (k : Pkt) (s : State) : Host.Outcome State Fault Refusal := .next (doMsgInt p k s)
/-- MSG_INT_EFFECT. -/
def execMsgIntEffect (p : Nat) (s : State) : Host.Outcome State Fault Refusal := .next (doMsgIntEffect p s)
/-- MSG_SB. -/
def execMsgSb (p : Nat) (k : Pkt) (s : State) : Host.Outcome State Fault Refusal := .next (doMsgSb p k s)
/-- ERR. -/
def execErr (p : Nat) (k : Pkt) (s : State) : Host.Outcome State Fault Refusal := .next (doErr p k s)
/-- CFG. -/
def execCfg (p : Nat) (k : Pkt) (s : State) : Host.Outcome State Fault Refusal := .next (doCfg p k s)
/-- EPOCH. -/
def execEpoch (p : Nat) (k : Pkt) (s : State) : Host.Outcome State Fault Refusal := .next (doEpoch p k s)
/-- SLEEP_REQ. -/
def execSleepReq (p : Nat) (s : State) : Host.Outcome State Fault Refusal := .next (doSleepReq p s)
/-- SLEEP_ACK. -/
def execSleepAck (p : Nat) (s : State) : Host.Outcome State Fault Refusal := .next (doSleepAck p s)
/-- SLEEP_NAK. -/
def execSleepNak (p : Nat) (s : State) : Host.Outcome State Fault Refusal := .next (doSleepNak p s)
/-- SLEEP_IDLE_EXPIRY. -/
def execSleepIdleExpiry (p : Nat) (s : State) : Host.Outcome State Fault Refusal := .next (doSleepIdleExpiry p s)
/-- SLEEP_HANDSHAKE_TIMEOUT. -/
def execSleepHandshakeTimeout (p : Nat) (s : State) : Host.Outcome State Fault Refusal := .next (doSleepHandshakeTimeout p s)
/-- SLEEP_ENTRY. -/
def execSleepEntry (p : Nat) (s : State) : Host.Outcome State Fault Refusal := .next (doSleepEntry p s)
/-- SLEEP_EXIT. -/
def execSleepExit (p : Nat) (s : State) : Host.Outcome State Fault Refusal := .next (doSleepExit p s)
/-- PORT_REARM. -/
def execPortRearm (a : Agent) (p : Nat) (v : Word) (s : State) : Host.Outcome State Fault Refusal := .next (doPortRearm a p v s)
/-- CFG_CMD. -/
def execCfgCmd (a : Agent) (p : Nat) (v : Word) (s : State) : Host.Outcome State Fault Refusal := .next (doCfgCmd a p v s)
/-- CFG_ANSWER_TIMEOUT. -/
def execCfgAnswerTimeout (p : Nat) (s : State) : Host.Outcome State Fault Refusal := .next (doCfgAnswerTimeout p s)
/-- SIDEBAND_OUT. -/
def execSidebandOut (a : Agent) (p : Nat) (v : Word) (s : State) : Host.Outcome State Fault Refusal := .next (doSidebandOut a p v s)

end Sys2Proof.Machine
end

