-- ==== Sys2Proof/Machine/Registers.lean ====
section
/-! DEFINITION. The command for registers that no other row writes (R6 to R8). -/
namespace Sys2Proof.Machine

open Sys2Proof

/-- REGISTER_WRITE: `v` written at control-space offset `off`, `width` bits wide, by an agent; for `fn f` at offset `off` of the
function page of `f`, which the host reaches through BAR2 of PF0 and BAR0 of every other function (Table 4.6). -/
def doRegisterWrite (a : Agent) (off : Nat) (v : Word) (width : Nat) (s : State) : State :=
  match a with
  | .fn f =>
    if s.hostRx then
      hostMem { fn := f, bar := if f = 0 then 2 else 0, off := off, kind := 1, len := width / 8, data := toBytes (width / 8) v.toNat,
                tag := 0, poisoned := false, single := true } s
    else s
  | a => ctlWriteBy a off v width s

/-! ### The meanings -/

/-- REGISTER_WRITE. -/
def execRegisterWrite (a : Agent) (off : Nat) (v : Word) (width : Nat) (s : State) : Host.Outcome State Fault Refusal := .next (doRegisterWrite a off v width s)

end Sys2Proof.Machine
end

