-- ==== Sys2Proof/Machine/Spool.lean ====
section
/-! DEFINITION. The commands of the family Spool (spec/09). -/
namespace Sys2Proof.Machine

open Sys2Proof

/-! ### Credit tick (R201, R202) -/

/-- Envelopes that are defined. -/
def State.envs (s : State) : List Nat := (List.range 1024).filter s.envDefined

/-- The tick of one envelope: whole nanojoules to CREDIT, the fraction carried; bytes to BW_TOK. DEDUCED, log entry 63. -/
def envTick (e : Nat) (s : State) : State :=
  let t := KMap.get s.spl.carry 0 e + s.get (F.ENV_CFG_SHARE e) * s.get F.SPL_BUDGET_MW
  let s1 : State := { s with spl := { s.spl with carry := KMap.set s.spl.carry 0 e (t % 1000) } }
  tokAdd e ((s.get (F.ENV_CFG_BW_CAP e) * 100 : Nat) : Int) (creditAdd e ((t / 1000 : Nat) : Int) s1)

/-- CREDIT_TICK. -/
def doCreditTick (s : State) : State :=
  if !s.dev.up || !s.is F.SPL_CTL_ENABLE then s else s.envs.foldl (fun t e => envTick e t) s

/-! ### Reconciliation (R209, R210) -/

/-- A power monitor's register after an interval of mean power `mw` and energy `uj`. -/
def monTake (n mw uj : Nat) (s : State) : State :=
  (s.put (F.PWR_MON_AVG_MW n) mw).put (F.PWR_MON_ENERGY_UJ n) (s.get (F.PWR_MON_ENERGY_UJ n) + uj)

/-- RECONCILIATION_INTERVAL: `mw` and `uj` are the mean power and the energy of the interval on monitors 0 to 6. -/
def doReconciliationInterval (mw uj : List Nat) (s : State) : State :=
  if !s.is F.CLK_STS_ROOT_LOCK then s
  else
    let s1 := (List.range 7).foldl (fun t n => monTake n (mw.getD n 0) (uj.getD n 0) t) s
    let e := sumList (uj.take 7)
    let s2 := monTake 7 (sumList (mw.take 7)) e s1
    let m := e * 1000
    let c := s.spl.charged
    let ok := s.spl.intervalOk
    let s3 : State := { s2 with spl := { s2.spl with charged := 0, intervalOk := s.dev.mode.running } }
    if !s.is F.PWR_CTL_ENABLE then s3
    else
      let s4 := s3.setReg R.SPL_RESIDUAL (s3.reg R.SPL_RESIDUAL + BitVec.ofNat 64 m - BitVec.ofNat 64 c)
      let s5 := if m < c then s4.bump F.SPL_STS_NEG_RESID else s4
      if ok && s.spl.samples.length < 1000 then
        let s6 : State := { s5 with spl := { s5.spl with samples := s5.spl.samples ++ [(m, c)] } }
        s6.put F.SPL_CAL_STATE_INTERVALS (min 999 s6.spl.samples.length)
      else s5

/-! ### Calibration (R210) -/

/-- The sums of a window's samples: Σ S, Σ M, Σ S², Σ S·M. DEDUCED, log entry 62. -/
def calSums (l : List (Nat × Nat)) : Int × Int × Int × Int :=
  l.foldl (fun a x => (a.1 + x.2, a.2.1 + x.1, a.2.2.1 + x.2 * x.2, a.2.2.2 + x.2 * x.1)) (0, 0, 0, 0)

/-- Whether the spread of S is below 5 % of the mean of M. -/
def calNarrow (l : List (Nat × Nat)) : Bool :=
  let ss := l.map (·.2)
  let hi := ss.foldl max 0
  let lo := ss.foldl min hi
  decide ((hi - lo) * 100 * l.length < 5 * sumList (l.map (·.1)))

/-- A fraction rounded to the nearest whole number, halves up; `d` is positive. -/
def nearest (n d : Int) : Int := (2 * n + d) / (2 * d)

/-- A number that must fit `w` bits, `lo` at least; otherwise the spec states no result, and the value is free. -/
def State.fitBits (s : State) (lo w : Nat) (v : Int) : Nat :=
  if (lo : Int) ≤ v && v < 2 ^ w then v.toNat else fieldOf s.freeVal 0 w

/-- A coefficient pair, PJB in [15:0] and OVH in [31:16], times a factor. -/
def State.coefScale (s : State) (n d : Int) (w : Word) : Word :=
  withField (withField w 0 16 (s.fitBits 1 16 (nearest (fieldOf w 0 16 * n) d))) 16 16 (s.fitBits 0 16 (nearest (fieldOf w 16 16 * n) d))

/-- A window is accepted with factor n/d and BASE `base` in nJ: the coefficients in force become reference × K. -/
def calAccept (n d baseN baseD : Int) (s : State) : State :=
  let s1 := (List.range 16).foldl (fun t i => t.setReg (R.SPL_COEF i) (s.coefScale n d (s.spl.refCoef.getD i 0))) s
  let s2 := s1.setReg R.SPL_OPCOST (withField s.spl.refOp 0 16 (s.fitBits 0 16 (nearest (fieldOf s.spl.refOp 0 16 * n) d)))
  let s3 := (s2.put F.SPL_CAL_STATE_K (s.fitBits 0 16 (nearest (4096 * n) d))).put F.SPL_CAL_STATE_BASE_MW
    (s.fitBits 0 20 (nearest baseN (1000 * baseD)))
  let s4 := (s3.bump F.SPL_CAL_STATE_WINDOWS).put F.SPL_CAL_STATE_STATE 1
  calWindow ({ s4 with spl := { s4.spl with accepted := true } }).useFree

/-- The fit of a window: K = kn / den, BASE = bn / (n · den). Samples that do not determine K leave it a free value. DEDUCED, log entry 62. -/
def calFit (s : State) : Int × Int × Int × Int :=
  let l := s.spl.samples
  let n : Int := l.length
  let (sx, sy, sxx, sxy) := calSums l
  let den := n * sxx - sx * sx
  if den = 0 then ((fieldOf s.freeVal 0 16 : Nat), 4096, sy, max 1 n)
  else
    let kn := n * sxy - sx * sy
    (kn, den, sy * den - kn * sx, n * den)

/-- CALIBRATION_WINDOW_END: 1,000 intervals have been counted. -/
def doCalibrationWindowEnd (s : State) : State :=
  if s.spl.samples.length < 1000 then s
  else if s.get F.SPL_CAL_STATE_STATE = 2 then calWindow s
  else if calNarrow s.spl.samples then calWindow (faultEvent .spl 1 0 s)
  else
    let (kn, kd, bn, bd) := calFit s
    if s.get F.SPL_CAL_STATE_STATE = 1 then
      (if 20 * kn < 19 * kd then calAccept 19 20 bn bd s
       else if 21 * kd < 20 * kn then calAccept 21 20 bn bd s
       else calAccept kn kd bn bd s)
    else if 2 * kn < kd || 2 * kd < kn then
      calWindow (faultEvent .spl 2 (BitVec.ofInt 64 (nearest (4096 * kn) kd)).toNat s)
    else calAccept kn kd bn bd s

/-! ### Registers -/

/-- `ENV_CFG[e]` written. DEDUCED, log entry 64. -/
def envCfg (a : Agent) (e : Nat) (v : Word) (s : State) : State := if e < 1024 then ctlWriteBy a (R.ENV_CFG e) v 64 s else s

/-- ENVELOPE_DEFINE: `ENV_CFG[e]` written with DEFINE 1. -/
def doEnvelopeDefine (a : Agent) (e : Nat) (v : Word) (s : State) : State := envCfg a e (withField v 0 1 1) s

/-- ENVELOPE_UNDEFINE: `ENV_CFG[e]` written with DEFINE 0. -/
def doEnvelopeUndefine (a : Agent) (e : Nat) (v : Word) (s : State) : State := envCfg a e (withField v 0 1 0) s

/-- ENV_CFG_WRITE. DEDUCED, log entry 64. -/
def doEnvCfgWrite (a : Agent) (e : Nat) (v : Word) (s : State) : State := envCfg a e v s

/-- ENV_QBLK_WRITE: `ENV_QBLK[i]` written. -/
def doEnvQblkWrite (a : Agent) (i : Nat) (v : Word) (s : State) : State := if i < 1024 then ctlWriteBy a (R.ENV_QBLK i) v 64 s else s

/-- SPL_ENABLE: `SPL_CTL` written with ENABLE 1. -/
def doSplEnable (a : Agent) (v : Word) (s : State) : State := ctlWriteBy a R.SPL_CTL (withField v 0 1 1) 64 s

/-- SPL_STEP_WRITE: `SPL_STEP` written. -/
def doSplStepWrite (a : Agent) (v : Word) (s : State) : State := ctlWriteBy a R.SPL_STEP v 64 s

/-- CAL_FREEZE: `SPL_CTL` written, its CAL_FREEZE as `v` has it. -/
def doCalFreeze (a : Agent) (v : Word) (s : State) : State := ctlWriteBy a R.SPL_CTL v 64 s

/-- CAL_RESTART: `SPL_CTL` written with CAL_RESTART 1. -/
def doCalRestart (a : Agent) (v : Word) (s : State) : State := ctlWriteBy a R.SPL_CTL (withField v 3 1 1) 64 s

/-! ### The meanings -/

/-- CREDIT_TICK. -/
def execCreditTick (s : State) : Host.Outcome State Fault Refusal := .next (doCreditTick s)
/-- RECONCILIATION_INTERVAL. -/
def execReconciliationInterval (mw : List Nat) (uj : List Nat) (s : State) : Host.Outcome State Fault Refusal := .next (doReconciliationInterval mw uj s)
/-- CALIBRATION_WINDOW_END. -/
def execCalibrationWindowEnd (s : State) : Host.Outcome State Fault Refusal := .next (doCalibrationWindowEnd s)
/-- ENVELOPE_DEFINE. -/
def execEnvelopeDefine (a : Agent) (e : Nat) (v : Word) (s : State) : Host.Outcome State Fault Refusal := .next (doEnvelopeDefine a e v s)
/-- ENVELOPE_UNDEFINE. -/
def execEnvelopeUndefine (a : Agent) (e : Nat) (v : Word) (s : State) : Host.Outcome State Fault Refusal := .next (doEnvelopeUndefine a e v s)
/-- ENV_CFG_WRITE. -/
def execEnvCfgWrite (a : Agent) (e : Nat) (v : Word) (s : State) : Host.Outcome State Fault Refusal := .next (doEnvCfgWrite a e v s)
/-- ENV_QBLK_WRITE. -/
def execEnvQblkWrite (a : Agent) (i : Nat) (v : Word) (s : State) : Host.Outcome State Fault Refusal := .next (doEnvQblkWrite a i v s)
/-- SPL_ENABLE. -/
def execSplEnable (a : Agent) (v : Word) (s : State) : Host.Outcome State Fault Refusal := .next (doSplEnable a v s)
/-- SPL_STEP_WRITE. -/
def execSplStepWrite (a : Agent) (v : Word) (s : State) : Host.Outcome State Fault Refusal := .next (doSplStepWrite a v s)
/-- CAL_FREEZE. -/
def execCalFreeze (a : Agent) (v : Word) (s : State) : Host.Outcome State Fault Refusal := .next (doCalFreeze a v s)
/-- CAL_RESTART. -/
def execCalRestart (a : Agent) (v : Word) (s : State) : Host.Outcome State Fault Refusal := .next (doCalRestart a v s)

end Sys2Proof.Machine
end

