-- ==== Sys2Proof/Machine/Startup.lean ====
section
/-! DEFINITION. Commands of the Startup family: flash reads of the boot, the entry to CONFIG, late sections, flash operations, the SMBus
target, keys, the consistency check, and the writes of `DEV_CTL` (spec/03). -/
namespace Sys2Proof.Machine

open Sys2Proof

/-! ### Boot (R54, R57, R58) -/

/-- FLASH_READ_DONE. PRESUMED, log entry 15. -/
def doFlashReadDone (rd : FlashRead) (s : State) : State :=
  if s.dev.up && s.dev.mode == .boot then flashRead rd s else s

/-- ENTER_CONFIG: transition 3. -/
def doEnterConfig (s : State) : State :=
  if s.dev.up && s.dev.mode == .boot && s.img.stage == .done && !s.hbm.training then enterConfigMode s else s

/-- Whether ENTRY lies in the TCM or in the slice of core `c`, as the core addresses it (Table 14.1). -/
def State.entryOk (s : State) (c entry : Nat) : Bool :=
  entry % 2 == 0 && (decide (entry < 0x40000) || (match s.slice with
    | some (_, z) => (let lo := 2 ^ 32 + (if s.coreDev c then c * z else 0); decide (lo ≤ entry) && decide (entry < lo + z))
    | none => false))

/-- Cores of a GONDOLA_FW section. -/
def fwCores (x : Section) : List Nat := (List.range 8).filter fun c => bitOf x.flags c

/-- Whether a GONDOLA_FW body obeys R351 for every core of its mask. DEDUCED, log entry 16. -/
def State.fwOk (s : State) (x : Section) (l : List Byte) : Bool :=
  let t := bytesAt l 0x10 4
  let m := bytesAt l 0x14 4
  let o := bytesAt l 0x18 4
  bytesAt l 0 4 == 0x57464447 && decide (t ≤ 262144) && t % 8 == 0 && m % 8 == 0 && o % 8 == 0 && bytesAt l 0x1C 36 == 0
    && l.length == 64 + t + m && (s.cfg != 0 || m == 0)
    && (m == 0 || (match s.slice with
      | some (_, z) => decide (o + m ≤ z)
      | none => false))
    && (fwCores x).all fun c => s.entryOk c (bytesAt l 8 8)

/-- A GONDOLA_FW section is loaded into core `c` (R351, R353). DEDUCED, log entry 16. -/
def fwLoad (l : List Byte) (c : Nat) (s : State) : State :=
  let t := bytesAt l 0x10 4
  let s1 := tcmWrite c 0 ((l.drop 64).take t) s
  let s2 := match s.slice with
    | some (b, z) => s1.hbmWrite (b + c * z + bytesAt l 0x18 4) (l.drop (64 + t))
    | none => s1
  ((s2.put (F.GDC_CORE_BOOT_ENTRY c) (bytesAt l 8 8 / 2)).put (F.GDC_CORE_STS_FW c) 1).setCore c
    { s2.coreOf c with meas := Config.sha384 l }

/-- LATE_SECTION_LOADED: entry `i` of the section table. -/
def doLateSectionLoaded (i : Nat) (body : List Byte) (s : State) : State :=
  match s.img.secs[i]? with
  | none => s
  | some x =>
    if !s.dev.mode.configured || !s.img.late.contains i then s
    else
      let bad := body.length != x.length || Config.sha384 body != x.hash || (x.typ == 0x10 && !s.fwOk x body)
      let s1 := if bad then faultEvent .img 0 0 (s.put F.IMG_STS_FW_ERR 1)
        else if x.typ = 0x10 then (fwCores x).foldl (fun t c => fwLoad body c t) s
        else s
      let late := s1.img.late.filter fun j => j != i
      ({ s1 with img := { s1.img with late := late } } : State).put F.IMG_STS_FW_DONE (b2n late.isEmpty)

/-! ### Flash operations (R63) -/

/-- `IMG_CTL` written with an operation and the COPY of `v`. -/
def flashCtl (op : Nat) (a : Agent) (v : Word) (s : State) : State := ctlWriteBy a R.IMG_CTL (withField v 8 2 op) 64 s

/-- ERASE. -/
def doErase (a : Agent) (v : Word) (s : State) : State := flashCtl 1 a v s

/-- PROGRAM. -/
def doProgram (a : Agent) (v : Word) (s : State) : State := flashCtl 2 a v s

/-- VERIFY. -/
def doVerify (a : Agent) (v : Word) (s : State) : State := flashCtl 3 a v s

/-- The checks of R54 on a copy as read back, for VERIFY: the first that fails. DEDUCED, log entry 14. -/
def State.verifyFails (s : State) (h : List Byte) (bodies : List (List Byte)) : Option Nat :=
  match s.headerFails h with
  | some r => some r
  | none =>
    let t0 := mainReset s
    let t : State := { t0 with
      dev := { mode := .boot, up := true, stage1 := true }
      img := { header := h, secs := secsOf h, bodies := bodies } }
    match t.configFails with
    | some r => some r
    | none =>
      let u := configApply t
      if u.hashBad then some 8
      else match imgApply u with
        | .error _ => some 4
        | .ok _ => none

/-- The flash operation in progress ends. -/
def flashEnd (s : State) : State := ({ s with img := { s.img with op := 0 } } : State).put F.IMG_STS_BUSY 0

/-- OTHER_OK follows a VERIFY of the copy that did not boot. -/
def otherOk (v : Bool) (s : State) : State :=
  if s.img.opCopy = s.get F.IMG_STS_BOOTED then s else s.put F.IMG_STS_OTHER_OK (b2n v)

/-- FLASH_OP_DONE: flash reports success or failure; a VERIFY has read the copy's header and early sections. PRESUMED, log entry 15. -/
def doFlashOpDone (failed : Bool) (header : List Byte) (bodies : List (List Byte)) (s : State) : State :=
  if s.img.op = 0 then s
  else
    let s1 := flashEnd s
    if failed then imgFail 0x0C s1
    else if s.img.op = 3 then
      match s.verifyFails header bodies with
      | some r => imgFail r (otherOk false s1)
      | none => icuEvent 56 ((otherOk true s1).put F.IMG_STS_OP_FAIL 0)
    else icuEvent 56 (s1.put F.IMG_STS_OP_FAIL 0)

/-- FLASH_OP_TIMEOUT. -/
def doFlashOpTimeout (s : State) : State :=
  if s.img.op = 0 then s else imgFail 0x0C (flashEnd s)

/-! ### SMBus (R64) -/

/-- Whether the SMBus target answers: the main domain is out of reset. -/
def State.smbusOn (s : State) : Bool := s.dev.up && s.dev.mode != .tether

/-- STATUS. -/
def doStatus (s : State) : State :=
  if s.smbusOn then s.emit (.smbus (toBytes 8 s.devMode.toNat ++ toBytes 8 (s.reg R.IMG_STS).toNat ++ toBytes 8 s.faultMap.toNat))
  else s.emit .smbusNack

/-- CTL_READ of 8 bytes at an offset. DEDUCED, log entry 115. -/
def doCtlRead (off : Nat) (s : State) : State :=
  if !s.smbusOn || off % 8 != 0 then s.emit .smbusNack
  else
    let r := ctlRead .smbus off 64 s
    match r.2 with
    | some v => r.1.emit (.smbus (toBytes 8 v.toNat))
    | none => r.1.emit .smbusNack

/-- Whether the region of an offset is reachable by SMBus. DEDUCED, log entry 115. -/
def State.smbusReaches (s : State) (off : Nat) : Bool :=
  match blockAt off with
  | some b => s.reaches .smbus b
  | none => s.dev.mode.configured && !(decide (0x1200000 ≤ off) && decide (off < 0x1400000))

/-- CTL_WRITE. -/
def doCtlWrite (off : Nat) (v : Word) (s : State) : State :=
  if !s.smbusOn || !s.smbusReaches off then s.emit .smbusNack else ctlWriteBy .smbus off v 64 s

/-- Whether the device is in the recovery hold. -/
def State.inHold (s : State) : Bool := s.smbusOn && s.is F.IMG_STS_RECOVERY

/-- RESTART: transition 13. -/
def doRestart (src : Nat) (s : State) : State :=
  if !s.inHold || 3 ≤ src then s.emit .smbusNack
  else
    let s1 : State := { s with dev := { s.dev with mode := .boot, prev := 2, cause := 13, entry := s.dev.time % 2 ^ 48 } }
    bootBegin src s1

/-- Whether KEY_PROGRAM and KEY_REVOKE are accepted in the present state. -/
def State.keysOpen (s : State) : Bool := s.inHold && s.pins.strapBoot == 3

/-- Key slot `i`. -/
def State.keySlot (s : State) (i : Nat) : KeySlot := s.tt.keys.getD i {}

/-- `s` with a key slot. -/
def State.setKey (s : State) (i : Nat) (k : KeySlot) : State := { s with tt := { s.tt with keys := s.tt.keys.set i k } }

/-- KEY_PROGRAM: a blank slot 1 to 3. -/
def doKeyProgram (slot : Nat) (hash : BitVec 384) (s : State) : State :=
  if s.keysOpen && 1 ≤ slot && slot ≤ 3 && (s.keySlot slot).hash.isNone then
    s.setKey slot { s.keySlot slot with hash := some (.programmed hash) }
  else s.emit .smbusNack

/-- KEY_REVOKE: never the last programmed, unrevoked slot (R55). -/
def doKeyRevoke (slot : Nat) (s : State) : State :=
  let t := s.setKey slot { s.keySlot slot with revoked := true }
  if s.keysOpen && slot ≤ 3 && t.tt.keys.any (fun k => k.hash.isSome && !k.revoked) then t else s.emit .smbusNack

/-! ### DEV (R68, R69, R71) -/

/-- DEV_ENABLE: `DEV_CTL` written with ENABLE 1. -/
def doDevEnable (a : Agent) (v : Word) (s : State) : State := ctlWriteBy a R.DEV_CTL (withField v 0 1 1) 64 s

/-- CONSISTENCY_CHECK_END. -/
def doConsistencyCheckEnd (s : State) : State := if s.dev.up then checkEnd s else s

/-- DEV_QUIESCE: `DEV_CTL` written with the QUIESCE of `v`. -/
def doDevQuiesce (a : Agent) (v : Word) (s : State) : State := ctlWriteBy a R.DEV_CTL v 64 s

/-- SLEEP: `DEV_CTL` written with SLEEP 1. -/
def doSleep (a : Agent) (v : Word) (s : State) : State := ctlWriteBy a R.DEV_CTL (withField v 2 1 1) 64 s

/-- FORCE_SAFE: `DEV_CTL` written with FORCE_SAFE 1. DEDUCED, log entry 111. -/
def doForceSafe (a : Agent) (v : Word) (s : State) : State := ctlWriteBy a R.DEV_CTL (withField v 4 1 1) 64 s

/-- QUIESCE_DRAINED. DEDUCED, log entry 12. -/
def doQuiesceDrained (s : State) : State :=
  if s.dev.mode == .quiesce && s.drained then s.put F.DEV_STS_DRAINED 1 else s

/-! ### The meanings -/

/-- FLASH_READ_DONE. -/
def execFlashReadDone (rd : FlashRead) (s : State) : Host.Outcome State Fault Refusal := .next (doFlashReadDone rd s)
/-- ENTER_CONFIG. -/
def execEnterConfig (s : State) : Host.Outcome State Fault Refusal := .next (doEnterConfig s)
/-- LATE_SECTION_LOADED. -/
def execLateSectionLoaded (i : Nat) (body : List Byte) (s : State) : Host.Outcome State Fault Refusal := .next (doLateSectionLoaded i body s)
/-- ERASE. -/
def execErase (a : Agent) (v : Word) (s : State) : Host.Outcome State Fault Refusal := .next (doErase a v s)
/-- PROGRAM. -/
def execProgram (a : Agent) (v : Word) (s : State) : Host.Outcome State Fault Refusal := .next (doProgram a v s)
/-- VERIFY. -/
def execVerify (a : Agent) (v : Word) (s : State) : Host.Outcome State Fault Refusal := .next (doVerify a v s)
/-- FLASH_OP_DONE. -/
def execFlashOpDone (failed : Bool) (header : List Byte) (bodies : List (List Byte)) (s : State) : Host.Outcome State Fault Refusal := .next (doFlashOpDone failed header bodies s)
/-- FLASH_OP_TIMEOUT. -/
def execFlashOpTimeout (s : State) : Host.Outcome State Fault Refusal := .next (doFlashOpTimeout s)
/-- STATUS. -/
def execStatus (s : State) : Host.Outcome State Fault Refusal := .next (doStatus s)
/-- CTL_READ. -/
def execCtlRead (off : Nat) (s : State) : Host.Outcome State Fault Refusal := .next (doCtlRead off s)
/-- CTL_WRITE. -/
def execCtlWrite (off : Nat) (v : Word) (s : State) : Host.Outcome State Fault Refusal := .next (doCtlWrite off v s)
/-- RESTART. -/
def execRestart (src : Nat) (s : State) : Host.Outcome State Fault Refusal := .next (doRestart src s)
/-- KEY_PROGRAM. -/
def execKeyProgram (slot : Nat) (hash : BitVec 384) (s : State) : Host.Outcome State Fault Refusal := .next (doKeyProgram slot hash s)
/-- KEY_REVOKE. -/
def execKeyRevoke (slot : Nat) (s : State) : Host.Outcome State Fault Refusal := .next (doKeyRevoke slot s)
/-- DEV_ENABLE. -/
def execDevEnable (a : Agent) (v : Word) (s : State) : Host.Outcome State Fault Refusal := .next (doDevEnable a v s)
/-- CONSISTENCY_CHECK_END. -/
def execConsistencyCheckEnd (s : State) : Host.Outcome State Fault Refusal := .next (doConsistencyCheckEnd s)
/-- DEV_QUIESCE. -/
def execDevQuiesce (a : Agent) (v : Word) (s : State) : Host.Outcome State Fault Refusal := .next (doDevQuiesce a v s)
/-- SLEEP. -/
def execSleep (a : Agent) (v : Word) (s : State) : Host.Outcome State Fault Refusal := .next (doSleep a v s)
/-- FORCE_SAFE. -/
def execForceSafe (a : Agent) (v : Word) (s : State) : Host.Outcome State Fault Refusal := .next (doForceSafe a v s)
/-- QUIESCE_DRAINED. -/
def execQuiesceDrained (s : State) : Host.Outcome State Fault Refusal := .next (doQuiesceDrained s)

end Sys2Proof.Machine
end

