-- ==== Sys2Proof/Machine/Switch.lean ====
section
/-! DEFINITION. The commands of the family Switch (spec/10). -/
namespace Sys2Proof.Machine

open Sys2Proof

/-! ### Admission (R225, R233, R234, R239) -/

/-- A frame leaves the place where it waits at its input. -/
def uninject (f : Frame) (s : State) : State := { s with swc := { s.swc with inject := s.swc.inject.erase f } }

/-- The datum of a prefetched-data frame is discarded unused (R136). -/
def pfGone (f : Frame) (s : State) : State := pfDiscard true (fun e => e.arrived && e.fda == f.addr) s

/-- The answer to a frame for SP0 while it is closed (R113, R234); in a PAIRED pair a record waits (R410). -/
def hostClosed (f : Frame) (s : State) : State :=
  match f.typ with
  | .read => dlFail s.paired f.origin s
  | .write => (match f.origin with
    | .record _ => if s.paired then { s with hep := { s.hep with heldRec := s.hep.heldRec ++ [f] } } else failWrite f.origin .timeout s
    | o => failWrite o .timeout s)
  | _ => dlPrefetch f s

/-- A frame that no output takes is answered as flushed (steps 1 and 2 of Table 10.4). -/
def answerFlushed (f : Frame) (s : State) : State :=
  if f.typ == .prefData then pfGone f s
  else if !s.carries f then modeRefuse f s
  else if f.out = 0 then hostClosed f s
  else if 4 ≤ f.out && s.outState f.out != 3 then flushFrame (f.out - 4) .portDown f s
  else failFrame f .portDown s

/-- Copies of a waiting multicast frame for outputs that are closed are dropped, and an output whose hold they would exceed falls back
first (R225, R229). DEDUCED, log entry 60. -/
def mcTrim (f : Frame) (s : State) : State × Option Frame :=
  (f.outMask.map (·.1)).eraseDups.foldl (fun acc p =>
    match acc.2 with
    | none => acc
    | some g =>
      let t := acc.1
      let full := decide (4 ≤ p) && t.outState p == 1 && decide (t.get (F.SWC_PORT_CFG_HOLD_CELLS p) < t.queuedTo p + g.cells)
      let t1 := if full then portDrop (p - 4) t else t
      if 2 ≤ t1.outState p then (mcDropOne p .portDown g t1, g.without p) else (t1, some g)) (s, some f)

/-- A multicast frame is admitted to its pool or waits; one that owes no copy any more is over (R229, R230). DEDUCED, log entry 60. -/
def admitMc (f : Frame) (s : State) : State :=
  if !s.carries f then modeRefuse f (uninject f s)
  else
    let r := mcTrim f (uninject f s)
    match r.2 with
    | none => mcOver [f] r.1
    | some g =>
      match r.1.admission g with
      | .into p => enqueue g p r.1
      | _ => { r.1 with swc := { r.1.swc with inject := g :: r.1.swc.inject } }

/-- Receive buffers of a port follow a frame that has left them (R281). -/
def inputSync (i : Nat) (s : State) : State := if 4 ≤ i then xoffSync (i - 4) s else s

/-- A unicast frame meets Table 10.4. -/
def admitOne (f : Frame) (s : State) : State :=
  match s.admission f with
  | .flushed => answerFlushed f (uninject f s)
  | .fallback => answerFlushed f (portDrop (f.out - 4) (uninject f s))
  | .into p => enqueue f p (uninject f s)
  | .evict vs => enqueue f .shared (vs.foldl (fun t v => evictOne v t) (uninject f s))
  | .dropped => if f.typ == .prefData then pfGone f (uninject f s) else tailLoss (f.len / 64) F.SWC_TAIL_STS_LOST_STAGE (uninject f s)
  | .wait => s

/-- FRAME_ADMIT: the first frame that waits at input `i`. A frame between blocks that are not enabled waits (R12). DESIGN CHOICE, log entry 65. -/
def doFrameAdmit (i : Nat) (s : State) : State :=
  match s.swc.inject.find? fun f => f.inp == i with
  | none => s
  | some f =>
    if !s.endsEnabled f then s
    else inputSync i (if f.mcast then admitMc f s else admitOne f s)

/-- EVICTION_RETRY: the oldest evicted frame returns to its injector (R227). -/
def doEvictionRetry (s : State) : State :=
  match s.swc.retry with
  | [] => s
  | f :: r =>
    let s1 : State := { s with swc := { s.swc with retry := r } }
    if f.typ == .prefData then pfGone f s1 else s1.inject f

/-! ### Grant (R223) -/

/-- Whether the destination behind output `p` can take a frame now. DEDUCED, log entry 66. -/
def State.canTake (s : State) (p : Nat) (f : Frame) : Bool :=
  if f.typ == .prefData then false
  else if p = 0 then s.outState 0 == 0 && !s.hep.recovery && s.is F.HEP_LINK_STS_UP
  else if 4 ≤ p then s.outState p == 0 && (if f.mcast then
      (f.mcDst.filter fun d => d.out == p).all fun d => s.maySend (p - 4) (reqPkt s (p - 4) 0 d.addr f)
    else s.mayLeave (p - 4) f)
  else true

/-- OUTPUT_GRANT: the frame that R223 chooses among those of output `p` leaves. DESIGN CHOICE, log entry 65. -/
def doOutputGrant (p : Nat) (s : State) : State :=
  if !s.switchPorts.contains p then s
  else
    let el := (orderedAt p [] (s.swc.queued.filter fun f => f.typ != .prefData)).filter (s.canTake p)
    match s.grantPick p el with
    | none => s
    | some f => leave p f (depart p f s)

/-- MULTICAST_GHL_EXPIRY: the oldest copy owed to output `p` has waited GHL(p). -/
def doMulticastGhlExpiry (p : Nat) (s : State) : State :=
  match s.swc.queued.find? fun f => f.mcast && f.owes p with
  | none => s
  | some f =>
    let s1 := mcDropOne p .portDown f s
    mcOver [f] { s1 with swc := { s1.swc with queued := s1.swc.queued.filterMap fun (g : Frame) => if g = f then f.without p else some g } }

/-! ### Tail (R236, R237) -/

/-- A record with its SEQ and LOST in place. -/
def tailSet (r : List Byte) (seq lost : Nat) : List Byte := r.take 16 ++ toBytes 4 seq ++ toBytes 4 lost ++ r.drop 24

/-- The loss summary that precedes the next record; its PORT, which the spec does not state, is free. DEDUCED, log entry 69. -/
def tailSummary (s : State) : List Byte :=
  let p := fieldOf s.freeVal 0 4
  (tailRec s 4 p { typ := .tailBatch, cls := 7, inp := 2, out := p, admTime := s.dev.time }).take 32 ++ List.replicate 32 0

/-- Records taken out of the staging buffer: those written, those left, those lost for want of room. `room` says whether the ring takes a
record at a slot, `k` how many more the batch takes. -/
def tailTake (room : Nat → Bool) : List (List Byte) → Nat → Nat → List (List Byte) × List (List Byte) × Nat
  | [], _, _ => ([], [], 0)
  | r :: rs, wr, k =>
    if k = 0 then ([], r :: rs, 0)
    else if room wr then
      let t := tailTake room rs (wr + 1) (k - 1)
      (r :: t.1, t.2.1, t.2.2)
    else
      let t := tailTake room rs wr k
      (t.1, t.2.1, t.2.2 + 1)

/-- Records in batches that SP2 has not accepted. -/
def State.tailFlying (s : State) : Nat := sumList ((s.swc.queued.filter fun f => f.typ == .tailBatch).map fun f => f.len / 64)

/-- TAIL_BATCH_WRITE. DEDUCED, log entry 69. -/
def doTailBatchWrite (s : State) : State :=
  if s.swc.staged.isEmpty || !s.swc.tailRun || !s.dev.mode.serving then s
  else
    let z := 2 ^ s.get F.SWC_TAIL_SIZE_LOG2
    let wr := (s.get F.SWC_TAIL_WR_INDEX + s.tailFlying) % z
    let room := fun (k : Nat) => s.is F.SWC_TAIL_SIZE_WRAP || (k + 1) % z != s.get F.SWC_TAIL_RD_INDEX
    let pre := decide (0 < s.swc.tailLost) && room wr
    let k := min 4 (z - wr)
    let w1 := if pre then wr + 1 else wr
    let t := tailTake room s.swc.staged w1 (if pre then k - 1 else k)
    let recs := (if pre then [tailSummary s] else []) ++ t.1
    let s0 : State := { s with swc := { s.swc with staged := t.2.1, tailLost := if pre then 0 else s.swc.tailLost } }
    let s1 := if pre then s0.useFree else s0
    let lost := fun (u : State) => if t.2.2 = 0 then u else tailLoss t.2.2 F.SWC_TAIL_STS_LOST_FULL u
    if recs.isEmpty then lost s1
    else
      let n := recs.length
      let data := (List.range n).flatMap fun i => tailSet (recs.getD i []) (s.swc.tailSeq + i + 1) (if pre && i = 0 then s.swc.tailLost else 0)
      let f : Frame := { typ := .tailBatch, cls := 7, inp := 2, out := 2, addr := 7 * 2 ^ 44 + s.get F.SWC_TAIL_BASE_BASE * 4096 + 64 * wr,
                         len := 64 * n, data := data, noEvict := true, origin := .tail }
      let written := fun (u : State) => ({ u with swc := { u.swc with tailSeq := (u.swc.tailSeq + n) % 2 ^ 32 } } : State)
      lost (match s1.admission f with
        | .into p => written (enqueue f p s1)
        | .evict vs => written (enqueue f .shared (vs.foldl (fun u v => evictOne v u) s1))
        | _ => tailLoss (n - b2n pre) F.SWC_TAIL_STS_LOST_STAGE { s with swc := { s.swc with staged := t.2.1 } })

/-- TAIL_EN: `SWC_CTL` written, its TAIL_EN as `v` has it. DEDUCED, log entry 70. -/
def doTailEn (a : Agent) (v : Word) (s : State) : State := ctlWriteBy a R.SWC_CTL v 64 s

/-- TAIL_SEL_WRITE: `SWC_TAIL_SEL[p]` written. -/
def doTailSelWrite (a : Agent) (p : Nat) (v : Word) (s : State) : State := if p < 11 then ctlWriteBy a (R.SWC_TAIL_SEL p) v 64 s else s

/-- SWC_ENABLE: `SWC_CTL` written with ENABLE 1. -/
def doSwcEnable (a : Agent) (v : Word) (s : State) : State := ctlWriteBy a R.SWC_CTL (withField v 0 1 1) 64 s

/-- BANK_CELLS_RELEASED: the last frame has left retired bank `b`. DEDUCED, log entry 67. -/
def doBankCellsReleased (b : Nat) (s : State) : State :=
  if s.swc.banksOut.contains b then
    ({ s with swc := { s.swc with banksOut := s.swc.banksOut.erase b } } : State).put F.SWC_BUF_STS_CELLS (s.get F.SWC_BUF_STS_CELLS - 128)
  else s

/-! ### The meanings -/

/-- FRAME_ADMIT. -/
def execFrameAdmit (i : Nat) (s : State) : Host.Outcome State Fault Refusal := .next (doFrameAdmit i s)
/-- EVICTION_RETRY. -/
def execEvictionRetry (s : State) : Host.Outcome State Fault Refusal := .next (doEvictionRetry s)
/-- OUTPUT_GRANT. -/
def execOutputGrant (p : Nat) (s : State) : Host.Outcome State Fault Refusal := .next (doOutputGrant p s)
/-- MULTICAST_GHL_EXPIRY. -/
def execMulticastGhlExpiry (p : Nat) (s : State) : Host.Outcome State Fault Refusal := .next (doMulticastGhlExpiry p s)
/-- TAIL_BATCH_WRITE. -/
def execTailBatchWrite (s : State) : Host.Outcome State Fault Refusal := .next (doTailBatchWrite s)
/-- TAIL_EN. -/
def execTailEn (a : Agent) (v : Word) (s : State) : Host.Outcome State Fault Refusal := .next (doTailEn a v s)
/-- TAIL_SEL_WRITE. -/
def execTailSelWrite (a : Agent) (p : Nat) (v : Word) (s : State) : Host.Outcome State Fault Refusal := .next (doTailSelWrite a p v s)
/-- SWC_ENABLE. -/
def execSwcEnable (a : Agent) (v : Word) (s : State) : Host.Outcome State Fault Refusal := .next (doSwcEnable a v s)
/-- BANK_CELLS_RELEASED. -/
def execBankCellsReleased (b : Nat) (s : State) : Host.Outcome State Fault Refusal := .next (doBankCellsReleased b s)

end Sys2Proof.Machine
end

