-- ==== Sys2Proof/Machine/Windows.lean ====
section
/-! DEFINITION. The commands of the family Windows (spec/06). -/
namespace Sys2Proof.Machine

open Sys2Proof

/-! ### Enables (R131) -/

/-- WXL_ENABLE: `WXL_CTL` written with ENABLE 1. -/
def doWxlEnable (a : Agent) (v : Word) (s : State) : State := ctlWriteBy a R.WXL_CTL (withField v 0 1 1) 64 s

/-- INBOUND_WINDOW_ENABLE: `WXL_IWIN_CTL[w]` written. -/
def doInboundWindowEnable (a : Agent) (w : Nat) (v : Word) (s : State) : State :=
  if w < 4096 then ctlWriteBy a (R.WXL_IWIN_CTL w) v 64 s else s

/-- OUTBOUND_WINDOW_ENABLE: `WXL_OWIN_CTL[m]` written. -/
def doOutboundWindowEnable (a : Agent) (m : Nat) (v : Word) (s : State) : State :=
  if m < 4096 then ctlWriteBy a (R.WXL_OWIN_CTL m) v 64 s else s

/-- ENVELOPE_RANGE_ENABLE: `WXL_ERNG_CTL[g]` written. -/
def doEnvelopeRangeEnable (a : Agent) (g : Nat) (v : Word) (s : State) : State :=
  if g < 8192 then ctlWriteBy a (R.WXL_ERNG_CTL g) v 64 s else s

/-! ### Table walks and the translation cache (R122, R123) -/

/-- HBM offset of table entry `i` (R119). -/
def State.xtOff (s : State) (i : Nat) : Nat := s.get F.WXL_TBL_BASE_BASE * 65536 + 8 * i

/-- An access that waited for a walk in the cache's limit of 256 goes on. -/
def walkRetry (a : Access) (s : State) : State :=
  match a.win with
  | none => wxlAccess a s
  | some w =>
    let i := s.get (F.WXL_IWIN_BASE_INDEX w) + a.f.addr / 65536
    match s.wxl.tc.find? (fun e => e.1 == i) with
    | some (_, v) => windowEntry a w (some v) (tcUse i v s)
    | none => walkFor i a s

/-- TABLE_WALK_DONE: the entry is installed and the waiting accesses go on with it; an uncorrectable one is not valid for them. -/
def doTableWalkDone (i : Nat) (ecc : Ecc) (s : State) : State :=
  match s.wxl.walks.find? fun e => e.1 == i with
  | none => s
  | some e =>
    let o := s.xtOff i
    let bad := ecc == .ue || s.hbmPoison o
    let s1 := eccFound o ecc { s with wxl := { s.wxl with walks := s.wxl.walks.filter (fun x => x.1 != i), walkWait := [] } }
    let v := s1.xtE i
    let s2 := if bad then faultEvent .wxl 1 0 s1 else tcUse i v s1
    let s3 := e.2.foldl (fun t a => windowEntry a (a.win.getD 0) (if bad then none else some v) t) s2
    s.wxl.walkWait.foldl (fun t a => walkRetry a t) s3

/-- TC_INV: `WXL_TC_INV` written with GO 1. -/
def doTcInv (a : Agent) (v : Word) (s : State) : State := ctlWriteBy a R.WXL_TC_INV (withField v 63 1 1) 64 s

/-- TC_INV_DONE: the range of indices, or the whole cache, is discarded. -/
def doTcInvDone (s : State) : State :=
  if s.is F.WXL_TC_INV_GO then
    let lo := s.get F.WXL_TC_INV_FIRST
    let n := s.get F.WXL_TC_INV_COUNT
    let gone := fun (i : Nat) => n == 0 || (decide (lo ≤ i) && decide (i < lo + n))
    ({ s with wxl := { s.wxl with tc := s.wxl.tc.filter fun e => !gone e.1 } }).put F.WXL_TC_INV_GO 0
  else s

/-! ### Partner-cache flush (R143) -/

/-- WRITE_BACK: `WXL_PC_FLUSH` written with OP 0b01 and GO. -/
def doWriteBack (a : Agent) (v : Word) (s : State) : State :=
  ctlWriteBy a R.WXL_PC_FLUSH (withField (withField v 11 2 1) 63 1 1) 64 s

/-- WRITE_BACK_INVALIDATE: `WXL_PC_FLUSH` written with OP 0b10 and GO. -/
def doWriteBackInvalidate (a : Agent) (v : Word) (s : State) : State :=
  ctlWriteBy a R.WXL_PC_FLUSH (withField (withField v 11 2 2) 63 1 1) 64 s

/-- Lines of the flush whose port has come up since are written back. -/
def flushMore (s : State) : State :=
  let up := s.wxl.pc.filter fun l => s.wxl.flushing.contains l.da && l.dirty && !l.out && s.pcPortUp l.da
  let s1 : State := { s with wxl := { s.wxl with pc := s.wxl.pc.map fun l =>
    if (up.any fun k => k.da == l.da) then { l with out := true, dirty := false } else l } }
  up.foldl (fun t l => t.inject (wbFrame l)) s1

/-- PC_FLUSH_DONE: no write-back is left; lines that waited for their port are sent first. -/
def doPcFlushDone (s : State) : State :=
  if !s.is F.WXL_PC_FLUSH_GO then s
  else if s.wxl.flushing.isEmpty then s.put F.WXL_PC_FLUSH_GO 0
  else flushMore s

/-! ### Prefetch (R136 to R138) -/

/-- SEDISCARD_CLEAR: `WXL_SEDISCARD_STS` written with CLEAR 1. -/
def doSediscardClear (a : Agent) (v : Word) (s : State) : State :=
  ctlWriteBy a R.WXL_SEDISCARD_STS (v ||| BitVec.ofNat 64 (2 ^ F.WXL_SEDISCARD_STS_CLEAR.lo)) 64 s

/-- PF_CFG_WRITE: `WXL_PF_CFG` written. -/
def doPfCfgWrite (a : Agent) (v : Word) (s : State) : State := ctlWriteBy a R.WXL_PF_CFG v 64 s

/-- PREFETCH_LIFE_EXPIRY: the datum at `da` has not been used for LIFE_US. -/
def doPrefetchLifeExpiry (da : Nat) (s : State) : State := pfDiscard true (fun e => e.arrived && e.da == da) s

/-! ### ATS (R128) -/

/-- A translation is held in the ATC ways, the most recent of its set first; none without ways. DESIGN CHOICE, log entry 38. -/
def atcKeep (a : Atc) (s : State) : State :=
  let set := a.page % 4096
  let mine := s.wxl.atc.filter fun e => e.page % 4096 == set && !(e.fn == a.fn && e.pasid == a.pasid && e.page == a.page)
  let rest := s.wxl.atc.filter fun e => e.page % 4096 != set
  { s with wxl := { s.wxl with atc := (a :: mine).take (s.get F.WXL_CTL_ATC_WAYS) ++ rest } }

/-- An access that waited for a translation goes out with it, or fails as if no window covered it. DEDUCED, log entry 32. -/
def atsGo (t : Atc) (ok : Bool) (a : Access) (s : State) : State :=
  match s.accessCheck a with
  | .no r => wxlRefuse a.f r s
  | .ok r =>
    if ok && (if a.f.typ == .write then t.w else t.r) then
      wxlForward { f := a.f, route := { r with addr := t.addr * 4096 + r.addr % 4096 }, acc := a } s
    else wxlRefuse a.f .unmapped s

/-- TRANSLATION_COMPLETION: for function, PASID (2^20 for none) and 4 KiB page, the translated page and its permissions. DEDUCED, log entry 32. -/
def doTranslationCompletion (fn pasid page : Nat) (addr : Nat) (r w ok : Bool) (s : State) : State :=
  let want : Atc := { fn := fn, pasid := pasid, page := page, addr := 0, r := false, w := false }
  let mine := s.wxl.atsWait.filter fun e => e.1 == want
  if mine.isEmpty || !s.is F.HEP_LINK_STS_UP then s
  else
    let t : Atc := { want with addr := addr, r := r, w := w }
    let s1 : State := { s with wxl := { s.wxl with atsWait := s.wxl.atsWait.filter fun e => e.1 != want } }
    mine.foldl (fun u e => atsGo t ok e.2 u) (if ok then atcKeep t s1 else s1)

/-- Requests toward the host with the Requester ID of `f` that have not left HEP or whose data is outstanding. -/
def State.fnRequests (s : State) (f : Nat) : List (Origin × Nat) :=
  ((s.swc.inject ++ s.swc.queued ++ s.swc.retry ++ s.hep.wait).filter fun g => g.ofFn f && g.typ != .msi).map (fun g => (g.origin, g.addr))
    ++ (s.hep.tags.filter fun e => e.fn == f && e.st == .inUse).map fun e => (e.f.origin, e.f.addr)

/-- INVALIDATION_REQUEST: `pages` pages from `page` on; up to 32 are queued. -/
def doInvalidationRequest (fn pasid page pages itag : Nat) (s : State) : State :=
  if !s.is F.HEP_LINK_STS_UP || !s.fnExists fn || 32 ≤ s.wxl.invals.length then s
  else
    let gone := fun (a : Atc) => a.fn == fn && a.pasid == pasid && decide (page ≤ a.page) && decide (a.page < page + pages)
    { s with wxl := { s.wxl with
      atc := s.wxl.atc.filter fun a => !gone a
      invals := s.wxl.invals ++ [{ fn := fn, itag := itag, wait := s.fnRequests fn }] } }

/-- INVALIDATION_COMPLETION: the requests that may have used the translations are over. -/
def doInvalidationCompletion (fn itag : Nat) (s : State) : State :=
  match s.wxl.invals.find? fun i => i.fn == fn && i.itag == itag with
  | none => s
  | some i =>
    if s.hostUp && !i.wait.any (fun r => (s.fnRequests fn).contains r) then
      hepTlp (.invalidationCompletion fn itag) { s with wxl := { s.wxl with invals := s.wxl.invals.erase i } }
    else s

/-! ### MIGRATE and XLATE_UPDATE (R121, R144 to R146, R404) -/

/-- A migration changes. -/
def setMig (m : Mig) (s : State) : State :=
  { s with wxl := { s.wxl with migs := s.wxl.migs.map fun k => if k.q = m.q then m else k } }

/-- Whether the present pass of the migration of `q` has been copied. -/
def State.passOver (s : State) (q : Nat) : Bool :=
  s.cget q C.OP_ACTIVE == 1 && s.opc q == 0x06 && decide (s.opTotal q ≤ (s.qa q).relOff) && !(s.qa q).step.on
    && !s.spl.rels.any fun r => r.q == q

/-- MIGRATE_PASS_END: a further pass of the dirty blocks, or the final hold with the rest of them. DEDUCED, log entry 42. -/
def doMigratePassEnd (q : Nat) (s : State) : State :=
  match s.migOf q with
  | none => s
  | some m =>
    if m.hold || !s.passOver q then s
    else
      let more := decide (16 < m.dirty.length) && decide (m.further < 3)
      let m1 : Mig := { m with copy := m.dirty, dirty := [], pass := m.pass + 1 }
      let m2 : Mig := if more then { m1 with further := m.further + 1 } else { m1 with hold := true, holdStart := s.dev.time }
      (setMig m2 s).setQa q { s.qa q with relOff := 0, phase := .waiting }

/-- Entry value with the TGT and FRAME of a DA. -/
def retarget (v : Word) (da : Nat) : Word := withField (withField v 16 4 (da / 2 ^ 44)) 20 28 (da % 2 ^ 44 / 65536)

/-- The run's entries take the destination. -/
def migRetarget (m : Mig) (s : State) : State :=
  (List.range m.count).foldl (fun t j => xtChange (m.first + j) (retarget (t.xtE (m.first + j)) (m.dst + j * 65536)) t) s

/-- The final hold ends: source lines are dropped, the held accesses go on, the operation completes. -/
def migFinish (q : Nat) (m : Mig) (s : State) : State :=
  let s1 := (pcDrop (fun l => m.covers l.da 4096) s).bumpBy F.WXL_MIG_STS_PAGES m.count
  qResume q (finishOp q 0 0 (s1.peak F.WXL_MIG_STS_HOLD_US_MAX ((s.dev.time - m.holdStart) / 1200)))

/-- MIGRATE_RELEASE: the entries change; in a PAIRED pair the hold ends only once the change is mirrored, at a second command.
DEDUCED, log entry 42. -/
def doMigrateRelease (q : Nat) (s : State) : State :=
  match s.migOf q with
  | none => s
  | some m =>
    if !m.hold || !s.passOver q then s
    else if m.done then (if s.prl.unmirrored.any (fun i => i.q == q) then s else migFinish q m s)
    else
      let s1 := migRetarget m s
      if s.paired then mirror q false (setMig { m with done := true } s1) else migFinish q m s1

/-- Whether a frame on its way, or an access that waits for a partner-cache line, lies in one of the pages. -/
def State.pageBusy (s : State) (das : List Nat) : Bool :=
  (s.swc.inject ++ s.swc.queued ++ s.swc.retry).any (fun f => f.typ != .resp && f.typ != .respData && f.typ != .prefData
      && das.any fun d => overlap d 65536 f.addr (max 1 f.len))
    || s.wxl.fills.any fun e => das.any fun d => overlap d 65536 e.1 4096

/-- XLATE_UPDATE_DONE: no frame translated through the old entries is left, and the change is mirrored. -/
def doXlateUpdateDone (q : Nat) (s : State) : State :=
  match s.wxl.xlWaits.find? fun x => x.q == q with
  | none => s
  | some x =>
    if s.pageBusy x.das || s.prl.unmirrored.any (fun i => i.q == q) then s
    else
      let s1 : State := { s with wxl := { s.wxl with xlWaits := s.wxl.xlWaits.filter fun y => y.q != q } }
      if s.cget q C.OP_ACTIVE = 1 && s.opc q = 0x0B then qResume q (stopSettle q (finishOp q 0 0 s1)) else s1

/-! ### The meanings -/

/-- WXL_ENABLE. -/
def execWxlEnable (a : Agent) (v : Word) (s : State) : Host.Outcome State Fault Refusal := .next (doWxlEnable a v s)
/-- INBOUND_WINDOW_ENABLE. -/
def execInboundWindowEnable (a : Agent) (w : Nat) (v : Word) (s : State) : Host.Outcome State Fault Refusal := .next (doInboundWindowEnable a w v s)
/-- OUTBOUND_WINDOW_ENABLE. -/
def execOutboundWindowEnable (a : Agent) (m : Nat) (v : Word) (s : State) : Host.Outcome State Fault Refusal := .next (doOutboundWindowEnable a m v s)
/-- ENVELOPE_RANGE_ENABLE. -/
def execEnvelopeRangeEnable (a : Agent) (g : Nat) (v : Word) (s : State) : Host.Outcome State Fault Refusal := .next (doEnvelopeRangeEnable a g v s)
/-- TABLE_WALK_DONE. -/
def execTableWalkDone (i : Nat) (ecc : Ecc) (s : State) : Host.Outcome State Fault Refusal := .next (doTableWalkDone i ecc s)
/-- TC_INV. -/
def execTcInv (a : Agent) (v : Word) (s : State) : Host.Outcome State Fault Refusal := .next (doTcInv a v s)
/-- TC_INV_DONE. -/
def execTcInvDone (s : State) : Host.Outcome State Fault Refusal := .next (doTcInvDone s)
/-- WRITE_BACK. -/
def execWriteBack (a : Agent) (v : Word) (s : State) : Host.Outcome State Fault Refusal := .next (doWriteBack a v s)
/-- WRITE_BACK_INVALIDATE. -/
def execWriteBackInvalidate (a : Agent) (v : Word) (s : State) : Host.Outcome State Fault Refusal := .next (doWriteBackInvalidate a v s)
/-- PC_FLUSH_DONE. -/
def execPcFlushDone (s : State) : Host.Outcome State Fault Refusal := .next (doPcFlushDone s)
/-- SEDISCARD_CLEAR. -/
def execSediscardClear (a : Agent) (v : Word) (s : State) : Host.Outcome State Fault Refusal := .next (doSediscardClear a v s)
/-- PF_CFG_WRITE. -/
def execPfCfgWrite (a : Agent) (v : Word) (s : State) : Host.Outcome State Fault Refusal := .next (doPfCfgWrite a v s)
/-- PREFETCH_LIFE_EXPIRY. -/
def execPrefetchLifeExpiry (da : Nat) (s : State) : Host.Outcome State Fault Refusal := .next (doPrefetchLifeExpiry da s)
/-- TRANSLATION_COMPLETION. -/
def execTranslationCompletion (fn pasid page : Nat) (addr : Nat) (r w ok : Bool) (s : State) : Host.Outcome State Fault Refusal := .next (doTranslationCompletion fn pasid page addr r w ok s)
/-- INVALIDATION_REQUEST. -/
def execInvalidationRequest (fn pasid page pages itag : Nat) (s : State) : Host.Outcome State Fault Refusal := .next (doInvalidationRequest fn pasid page pages itag s)
/-- INVALIDATION_COMPLETION. -/
def execInvalidationCompletion (fn itag : Nat) (s : State) : Host.Outcome State Fault Refusal := .next (doInvalidationCompletion fn itag s)
/-- MIGRATE_PASS_END. -/
def execMigratePassEnd (q : Nat) (s : State) : Host.Outcome State Fault Refusal := .next (doMigratePassEnd q s)
/-- MIGRATE_RELEASE. -/
def execMigrateRelease (q : Nat) (s : State) : Host.Outcome State Fault Refusal := .next (doMigrateRelease q s)
/-- XLATE_UPDATE_DONE. -/
def execXlateUpdateDone (q : Nat) (s : State) : Host.Outcome State Fault Refusal := .next (doXlateUpdateDone q s)

end Sys2Proof.Machine
end

