-- ==== Sys2Proof/Machine/Dispatch.lean ====
section
/-! DEFINITION. The dispatch of a command to its meaning: one arm per constructor of Instr. -/
namespace Sys2Proof.Machine

open Sys2Proof

def exec (i : Instr) (s : State) : Host.Outcome State Fault Refusal :=
  match i with
  | .tetherResetRelease => Sys2Proof.Machine.execTetherResetRelease s
  | .vddTtLoss => Sys2Proof.Machine.execVddTtLoss s
  | .ttPgoodMainAssert => Sys2Proof.Machine.execTtPgoodMainAssert s
  | .mainPowerLoss => Sys2Proof.Machine.execMainPowerLoss s
  | .mainPowerDownDone => Sys2Proof.Machine.execMainPowerDownDone s
  | .mainOffTimeExpiry => Sys2Proof.Machine.execMainOffTimeExpiry s
  | .wakeCause src => Sys2Proof.Machine.execWakeCause src s
  | .ttWakeDebounced k => Sys2Proof.Machine.execTtWakeDebounced k s
  | .perstNAssert => Sys2Proof.Machine.execPerstNAssert s
  | .perstNDeassert strap pairId => Sys2Proof.Machine.execPerstNDeassert strap pairId s
  | .rootPllLock => Sys2Proof.Machine.execRootPllLock s
  | .pllUnlock clkStopped => Sys2Proof.Machine.execPllUnlock clkStopped s
  | .refclkLoss host => Sys2Proof.Machine.execRefclkLoss host s
  | .droopThresholdCrossing mv => Sys2Proof.Machine.execDroopThresholdCrossing mv s
  | .droopCauseEnd th2 => Sys2Proof.Machine.execDroopCauseEnd th2 s
  | .stretchReturnIncrement => Sys2Proof.Machine.execStretchReturnIncrement s
  | .lswRecognised => Sys2Proof.Machine.execLswRecognised s
  | .lswNRelease => Sys2Proof.Machine.execLswNRelease s
  | .lswHoldExpiry => Sys2Proof.Machine.execLswHoldExpiry s
  | .lswStuck => Sys2Proof.Machine.execLswStuck s
  | .rampGrant k => Sys2Proof.Machine.execRampGrant k s
  | .temperatureReading tj => Sys2Proof.Machine.execTemperatureReading tj s
  | .heartbeatToggle => Sys2Proof.Machine.execHeartbeatToggle s
  | .pwrEnable a v => Sys2Proof.Machine.execPwrEnable a v s
  | .flashReadDone rd => Sys2Proof.Machine.execFlashReadDone rd s
  | .enterConfig => Sys2Proof.Machine.execEnterConfig s
  | .lateSectionLoaded idx body => Sys2Proof.Machine.execLateSectionLoaded idx body s
  | .erase a v => Sys2Proof.Machine.execErase a v s
  | .program a v => Sys2Proof.Machine.execProgram a v s
  | .verify a v => Sys2Proof.Machine.execVerify a v s
  | .flashOpDone failed header bodies => Sys2Proof.Machine.execFlashOpDone failed header bodies s
  | .flashOpTimeout => Sys2Proof.Machine.execFlashOpTimeout s
  | .status => Sys2Proof.Machine.execStatus s
  | .ctlRead off => Sys2Proof.Machine.execCtlRead off s
  | .ctlWrite off v => Sys2Proof.Machine.execCtlWrite off v s
  | .restart src => Sys2Proof.Machine.execRestart src s
  | .keyProgram slot hash => Sys2Proof.Machine.execKeyProgram slot hash s
  | .keyRevoke slot => Sys2Proof.Machine.execKeyRevoke slot s
  | .devEnable a v => Sys2Proof.Machine.execDevEnable a v s
  | .consistencyCheckEnd => Sys2Proof.Machine.execConsistencyCheckEnd s
  | .devQuiesce a v => Sys2Proof.Machine.execDevQuiesce a v s
  | .sleep a v => Sys2Proof.Machine.execSleep a v s
  | .forceSafe a v => Sys2Proof.Machine.execForceSafe a v s
  | .quiesceDrained => Sys2Proof.Machine.execQuiesceDrained s
  | .configRequest r => Sys2Proof.Machine.execConfigRequest r s
  | .vfEnableWrite pf vfe => Sys2Proof.Machine.execVfEnableWrite pf vfe s
  | .initiateFlr fn => Sys2Proof.Machine.execInitiateFlr fn s
  | .flrEnd fn => Sys2Proof.Machine.execFlrEnd fn s
  | .busMasterEnableClear fn => Sys2Proof.Machine.execBusMasterEnableClear fn s
  | .busMasterEnableSet fn => Sys2Proof.Machine.execBusMasterEnableSet fn s
  | .powerStateWrite fn d3 pmeEn => Sys2Proof.Machine.execPowerStateWrite fn d3 pmeEn s
  | .msixUnmask fn what => Sys2Proof.Machine.execMsixUnmask fn what s
  | .pmeTurnOff => Sys2Proof.Machine.execPmeTurnOff s
  | .hostMemoryRequest r => Sys2Proof.Machine.execHostMemoryRequest r s
  | .windowAccess r => Sys2Proof.Machine.execWindowAccess r s
  | .doorbell fn v => Sys2Proof.Machine.execDoorbell fn v s
  | .dlDown => Sys2Proof.Machine.execDlDown s
  | .dlUp speed width flit => Sys2Proof.Machine.execDlUp speed width flit s
  | .hostLinkRecovery back speed width => Sys2Proof.Machine.execHostLinkRecovery back speed width s
  | .hostLinkRetrain a v => Sys2Proof.Machine.execHostLinkRetrain a v s
  | .l1Request => Sys2Proof.Machine.execL1Request s
  | .l0pNarrow => Sys2Proof.Machine.execL0pNarrow s
  | .l0pWiden => Sys2Proof.Machine.execL0pWiden s
  | .tagIssue tag => Sys2Proof.Machine.execTagIssue tag s
  | .hostCompletion fn tag off data ans => Sys2Proof.Machine.execHostCompletion fn tag off data ans s
  | .completionTimeout fn tag => Sys2Proof.Machine.execCompletionTimeout fn tag s
  | .quarantineExpiry fn tag => Sys2Proof.Machine.execQuarantineExpiry fn tag s
  | .getVersion req => Sys2Proof.Machine.execGetVersion req s
  | .getCapabilities req => Sys2Proof.Machine.execGetCapabilities req s
  | .negotiateAlgorithms req => Sys2Proof.Machine.execNegotiateAlgorithms req s
  | .getDigests req => Sys2Proof.Machine.execGetDigests req s
  | .getCertificate off len => Sys2Proof.Machine.execGetCertificate off len s
  | .challenge req => Sys2Proof.Machine.execChallenge req s
  | .getMeasurements index req => Sys2Proof.Machine.execGetMeasurements index req s
  | .doeDiscovery index => Sys2Proof.Machine.execDoeDiscovery index s
  | .hepEnable a v => Sys2Proof.Machine.execHepEnable a v s
  | .wxlEnable a v => Sys2Proof.Machine.execWxlEnable a v s
  | .inboundWindowEnable a w v => Sys2Proof.Machine.execInboundWindowEnable a w v s
  | .outboundWindowEnable a m v => Sys2Proof.Machine.execOutboundWindowEnable a m v s
  | .envelopeRangeEnable a g v => Sys2Proof.Machine.execEnvelopeRangeEnable a g v s
  | .tableWalkDone idx ecc => Sys2Proof.Machine.execTableWalkDone idx ecc s
  | .tcInv a v => Sys2Proof.Machine.execTcInv a v s
  | .tcInvDone => Sys2Proof.Machine.execTcInvDone s
  | .writeBack a v => Sys2Proof.Machine.execWriteBack a v s
  | .writeBackInvalidate a v => Sys2Proof.Machine.execWriteBackInvalidate a v s
  | .pcFlushDone => Sys2Proof.Machine.execPcFlushDone s
  | .sediscardClear a v => Sys2Proof.Machine.execSediscardClear a v s
  | .pfCfgWrite a v => Sys2Proof.Machine.execPfCfgWrite a v s
  | .prefetchLifeExpiry da => Sys2Proof.Machine.execPrefetchLifeExpiry da s
  | .translationCompletion fn pasid page addr r w ok => Sys2Proof.Machine.execTranslationCompletion fn pasid page addr r w ok s
  | .invalidationRequest fn pasid page pages itag => Sys2Proof.Machine.execInvalidationRequest fn pasid page pages itag s
  | .invalidationCompletion fn itag => Sys2Proof.Machine.execInvalidationCompletion fn itag s
  | .migratePassEnd q => Sys2Proof.Machine.execMigratePassEnd q s
  | .migrateRelease q => Sys2Proof.Machine.execMigrateRelease q s
  | .xlateUpdateDone q => Sys2Proof.Machine.execXlateUpdateDone q s
  | .contextLoaded q ecc => Sys2Proof.Machine.execContextLoaded q ecc s
  | .descriptorFetched q => Sys2Proof.Machine.execDescriptorFetched q s
  | .operationStart q => Sys2Proof.Machine.execOperationStart q s
  | .completionRecordWrite q => Sys2Proof.Machine.execCompletionRecordWrite q s
  | .cqModerationExpiry q => Sys2Proof.Machine.execCqModerationExpiry q s
  | .queueRead k q a => Sys2Proof.Machine.execQueueRead k q a s
  | .queueWrite k q a => Sys2Proof.Machine.execQueueWrite k q a s
  | .queueEnable k q a => Sys2Proof.Machine.execQueueEnable k q a s
  | .queueModify k q a => Sys2Proof.Machine.execQueueModify k q a s
  | .queueStop k q a => Sys2Proof.Machine.execQueueStop k q a s
  | .queueStart k q a => Sys2Proof.Machine.execQueueStart k q a s
  | .queueDrain k q a => Sys2Proof.Machine.execQueueDrain k q a s
  | .queueDisable k q a => Sys2Proof.Machine.execQueueDisable k q a s
  | .queuePrefetch k q a => Sys2Proof.Machine.execQueuePrefetch k q a s
  | .qenEnable a v => Sys2Proof.Machine.execQenEnable a v s
  | .stepRelease path => Sys2Proof.Machine.execStepRelease path s
  | .stepBoundary q => Sys2Proof.Machine.execStepBoundary q s
  | .moverPipeError pipe => Sys2Proof.Machine.execMoverPipeError pipe s
  | .copy q => Sys2Proof.Machine.execCopy q s
  | .fill q => Sys2Proof.Machine.execFill q s
  | .check q => Sys2Proof.Machine.execCheck q s
  | .copyCheck q => Sys2Proof.Machine.execCopyCheck q s
  | .scrub q => Sys2Proof.Machine.execScrub q s
  | .migrate q => Sys2Proof.Machine.execMigrate q s
  | .multicastWrite q => Sys2Proof.Machine.execMulticastWrite q s
  | .atomic q => Sys2Proof.Machine.execAtomic q s
  | .fence q => Sys2Proof.Machine.execFence q s
  | .fenceComplete q => Sys2Proof.Machine.execFenceComplete q s
  | .notify q => Sys2Proof.Machine.execNotify q s
  | .xlateUpdate q => Sys2Proof.Machine.execXlateUpdate q s
  | .abort q => Sys2Proof.Machine.execAbort q s
  | .ctxPrefetch q => Sys2Proof.Machine.execCtxPrefetch q s
  | .serviceCall q => Sys2Proof.Machine.execServiceCall q s
  | .nop q => Sys2Proof.Machine.execNop q s
  | .creditTick => Sys2Proof.Machine.execCreditTick s
  | .reconciliationInterval mw uj => Sys2Proof.Machine.execReconciliationInterval mw uj s
  | .calibrationWindowEnd => Sys2Proof.Machine.execCalibrationWindowEnd s
  | .envelopeDefine a e v => Sys2Proof.Machine.execEnvelopeDefine a e v s
  | .envelopeUndefine a e v => Sys2Proof.Machine.execEnvelopeUndefine a e v s
  | .envCfgWrite a e v => Sys2Proof.Machine.execEnvCfgWrite a e v s
  | .envQblkWrite a idx v => Sys2Proof.Machine.execEnvQblkWrite a idx v s
  | .splEnable a v => Sys2Proof.Machine.execSplEnable a v s
  | .splStepWrite a v => Sys2Proof.Machine.execSplStepWrite a v s
  | .calFreeze a v => Sys2Proof.Machine.execCalFreeze a v s
  | .calRestart a v => Sys2Proof.Machine.execCalRestart a v s
  | .frameAdmit idx => Sys2Proof.Machine.execFrameAdmit idx s
  | .evictionRetry => Sys2Proof.Machine.execEvictionRetry s
  | .outputGrant p => Sys2Proof.Machine.execOutputGrant p s
  | .multicastGhlExpiry p => Sys2Proof.Machine.execMulticastGhlExpiry p s
  | .tailBatchWrite => Sys2Proof.Machine.execTailBatchWrite s
  | .tailEn a v => Sys2Proof.Machine.execTailEn a v s
  | .tailSelWrite a p v => Sys2Proof.Machine.execTailSelWrite a p v s
  | .swcEnable a v => Sys2Proof.Machine.execSwcEnable a v s
  | .bankCellsReleased b => Sys2Proof.Machine.execBankCellsReleased b s
  | .receiverDetection p lanes => Sys2Proof.Machine.execReceiverDetection p lanes s
  | .gtsReceived p g => Sys2Proof.Machine.execGtsReceived p g s
  | .trainingPhaseComplete p rtt => Sys2Proof.Machine.execTrainingPhaseComplete p rtt s
  | .linkActiveEntry p => Sys2Proof.Machine.execLinkActiveEntry p s
  | .trainingLimitExpiry p => Sys2Proof.Machine.execTrainingLimitExpiry p s
  | .retrainLimitExpiry p => Sys2Proof.Machine.execRetrainLimitExpiry p s
  | .blockAlignmentLoss p lane => Sys2Proof.Machine.execBlockAlignmentLoss p lane s
  | .retrain a p v => Sys2Proof.Machine.execRetrain a p v s
  | .resize a p v => Sys2Proof.Machine.execResize a p v s
  | .restore a p v => Sys2Proof.Machine.execRestore a p v s
  | .resizeSwitch p ok => Sys2Proof.Machine.execResizeSwitch p ok s
  | .laneTestEnd p pass => Sys2Proof.Machine.execLaneTestEnd p pass s
  | .portEnable a p v => Sys2Proof.Machine.execPortEnable a p v s
  | .holdDisable a p v => Sys2Proof.Machine.execHoldDisable a p v s
  | .graceExpiry p => Sys2Proof.Machine.execGraceExpiry p s
  | .requestDeadline p tag => Sys2Proof.Machine.execRequestDeadline p tag s
  | .portTagQuarantineExpiry p tag => Sys2Proof.Machine.execPortTagQuarantineExpiry p tag s
  | .presenceChange p present => Sys2Proof.Machine.execPresenceChange p present s
  | .attentionPress p => Sys2Proof.Machine.execAttentionPress p s
  | .slotPowerFault p => Sys2Proof.Machine.execSlotPowerFault p s
  | .pwrOnWrite a p v => Sys2Proof.Machine.execPwrOnWrite a p v s
  | .pwrDone p => Sys2Proof.Machine.execPwrDone p s
  | .cancelWindowExpiry p => Sys2Proof.Machine.execCancelWindowExpiry p s
  | .slotQuiesceEnd p => Sys2Proof.Machine.execSlotQuiesceEnd p s
  | .flitReceived p f => Sys2Proof.Machine.execFlitReceived p f s
  | .nakRepeatTimeout p => Sys2Proof.Machine.execNakRepeatTimeout p s
  | .replayTimeout p => Sys2Proof.Machine.execReplayTimeout p s
  | .probeTick p => Sys2Proof.Machine.execProbeTick p s
  | .probeSampleTimeout p => Sys2Proof.Machine.execProbeSampleTimeout p s
  | .mrd p k => Sys2Proof.Machine.execMrd p k s
  | .mwr p k => Sys2Proof.Machine.execMwr p k s
  | .cpl p k => Sys2Proof.Machine.execCpl p k s
  | .cpld p k => Sys2Proof.Machine.execCpld p k s
  | .atom p k => Sys2Proof.Machine.execAtom p k s
  | .msgInt p k => Sys2Proof.Machine.execMsgInt p k s
  | .msgIntEffect p => Sys2Proof.Machine.execMsgIntEffect p s
  | .msgSb p k => Sys2Proof.Machine.execMsgSb p k s
  | .err p k => Sys2Proof.Machine.execErr p k s
  | .cfg p k => Sys2Proof.Machine.execCfg p k s
  | .epoch p k => Sys2Proof.Machine.execEpoch p k s
  | .sleepReq p => Sys2Proof.Machine.execSleepReq p s
  | .sleepAck p => Sys2Proof.Machine.execSleepAck p s
  | .sleepNak p => Sys2Proof.Machine.execSleepNak p s
  | .sleepIdleExpiry p => Sys2Proof.Machine.execSleepIdleExpiry p s
  | .sleepHandshakeTimeout p => Sys2Proof.Machine.execSleepHandshakeTimeout p s
  | .sleepEntry p => Sys2Proof.Machine.execSleepEntry p s
  | .sleepExit p => Sys2Proof.Machine.execSleepExit p s
  | .portRearm a p v => Sys2Proof.Machine.execPortRearm a p v s
  | .cfgCmd a p v => Sys2Proof.Machine.execCfgCmd a p v s
  | .cfgAnswerTimeout p => Sys2Proof.Machine.execCfgAnswerTimeout p s
  | .sidebandOut a p v => Sys2Proof.Machine.execSidebandOut a p v s
  | .icuEnable a v => Sys2Proof.Machine.execIcuEnable a v s
  | .sourceEnable a n v => Sys2Proof.Machine.execSourceEnable a n v s
  | .sourceMask a n v => Sys2Proof.Machine.execSourceMask a n v s
  | .icuSwi a v => Sys2Proof.Machine.execIcuSwi a v s
  | .claim c a => Sys2Proof.Machine.execClaim c a s
  | .complete c a n => Sys2Proof.Machine.execComplete c a n s
  | .hostClaim fn tag => Sys2Proof.Machine.execHostClaim fn tag s
  | .hostComplete fn v => Sys2Proof.Machine.execHostComplete fn v s
  | .hostProxyEvent => Sys2Proof.Machine.execHostProxyEvent s
  | .msixEntryReadDone fn vec ecc => Sys2Proof.Machine.execMsixEntryReadDone fn vec ecc s
  | .fastEntry c => Sys2Proof.Machine.execFastEntry c s
  | .fastReturn c v => Sys2Proof.Machine.execFastReturn c v s
  | .gclaim c => Sys2Proof.Machine.execGclaim c s
  | .gcomplete c n => Sys2Proof.Machine.execGcomplete c n s
  | .gmbhead c n => Sys2Proof.Machine.execGmbhead c n s
  | .gmbdone c v => Sys2Proof.Machine.execGmbdone c v s
  | .gyield c v => Sys2Proof.Machine.execGyield c v s
  | .gdoorbell c v => Sys2Proof.Machine.execGdoorbell c v s
  | .gmbstatRead c => Sys2Proof.Machine.execGmbstatRead c s
  | .mailboxPlace q => Sys2Proof.Machine.execMailboxPlace q s
  | .envelopeViewAnswer c => Sys2Proof.Machine.execEnvelopeViewAnswer c s
  | .loadBegin a v => Sys2Proof.Machine.execLoadBegin a v s
  | .loadData a v => Sys2Proof.Machine.execLoadData a v s
  | .loadEnd a v => Sys2Proof.Machine.execLoadEnd a v s
  | .loadCancel a v => Sys2Proof.Machine.execLoadCancel a v s
  | .gdcEnable a v => Sys2Proof.Machine.execGdcEnable a v s
  | .coreEnable a c v => Sys2Proof.Machine.execCoreEnable a c v s
  | .coreQuiesce a c v => Sys2Proof.Machine.execCoreQuiesce a c v s
  | .coreQuiesceEnd c => Sys2Proof.Machine.execCoreQuiesceEnd c s
  | .hbmTrainingEnd trained => Sys2Proof.Machine.execHbmTrainingEnd trained s
  | .hbmFillEnd => Sys2Proof.Machine.execHbmFillEnd s
  | .hbmEnable a v => Sys2Proof.Machine.execHbmEnable a v s
  | .hbmAccess r => Sys2Proof.Machine.execHbmAccess r s
  | .refreshInterval => Sys2Proof.Machine.execRefreshInterval s
  | .hbmTempReading t => Sys2Proof.Machine.execHbmTempReading t s
  | .rowTestEnd pc bank row pass => Sys2Proof.Machine.execRowTestEnd pc bank row pass s
  | .pcTestEnd pc pass => Sys2Proof.Machine.execPcTestEnd pc pass s
  | .patrolScrub off ecc => Sys2Proof.Machine.execPatrolScrub off ecc s
  | .selfRefreshEntry => Sys2Proof.Machine.execSelfRefreshEntry s
  | .selfRefreshExit => Sys2Proof.Machine.execSelfRefreshExit s
  | .selfRefreshPairExit first => Sys2Proof.Machine.execSelfRefreshPairExit first s
  | .faultWindowClose b id => Sys2Proof.Machine.execFaultWindowClose b id s
  | .faultGraceExpiry b id => Sys2Proof.Machine.execFaultGraceExpiry b id s
  | .faultQuietExpiry b id => Sys2Proof.Machine.execFaultQuietExpiry b id s
  | .selfTestEnd b id pass => Sys2Proof.Machine.execSelfTestEnd b id pass s
  | .acknowledge a b id => Sys2Proof.Machine.execAcknowledge a b id s
  | .acknowledgeAll a b => Sys2Proof.Machine.execAcknowledgeAll a b s
  | .latchRearm a b => Sys2Proof.Machine.execLatchRearm a b s
  | .selftestGo a b id => Sys2Proof.Machine.execSelftestGo a b id s
  | .sourceConfigWrite a b id v => Sys2Proof.Machine.execSourceConfigWrite a b id v s
  | .graceWrite a b v => Sys2Proof.Machine.execGraceWrite a b v s
  | .prlEnable a v => Sys2Proof.Machine.execPrlEnable a v s
  | .pairEn a v => Sys2Proof.Machine.execPairEn a v s
  | .handover a v => Sys2Proof.Machine.execHandover a v s
  | .handback a v => Sys2Proof.Machine.execHandback a v s
  | .handoverGive => Sys2Proof.Machine.execHandoverGive s
  | .pairControlPacket m => Sys2Proof.Machine.execPairControlPacket m s
  | .syncComplete => Sys2Proof.Machine.execSyncComplete s
  | .syncTimeout => Sys2Proof.Machine.execSyncTimeout s
  | .heartbeatEdge level => Sys2Proof.Machine.execHeartbeatEdge level s
  | .heartbeatSilence => Sys2Proof.Machine.execHeartbeatSilence s
  | .pairProbeTimeout => Sys2Proof.Machine.execPairProbeTimeout s
  | .failoverConfirmDelay => Sys2Proof.Machine.execFailoverConfirmDelay s
  | .registerWrite a off v width => Sys2Proof.Machine.execRegisterWrite a off v width s
  | .coreMemoryAccess r => Sys2Proof.Machine.execCoreMemoryAccess r s
  | .fastTrap c => Sys2Proof.Machine.execFastTrap c s
  | .trainingPhaseLimitExpiry p => Sys2Proof.Machine.execTrainingPhaseLimitExpiry p s
  | .dqRecalibrationEnd pc ok => Sys2Proof.Machine.execDqRecalibrationEnd pc ok s

end Sys2Proof.Machine
end

