-- ==== Sys2Proof/Machine/Step.lean ====
section
/-! DEFINITION. One step of the block: the front command of the queue, or one tick of the device clock on an empty queue. -/
namespace Sys2Proof.Machine

open Sys2Proof

/-- `s` with the command that a table word spells at the front of its queue. The table gives no row any bits, so no word
spells a command and `s` is unchanged. DESIGN CHOICE, log entry 6. -/
def State.withFetchWord (s : State) (nbits w : Nat) : State :=
  match decodeTableWord nbits w with
  | some c => { s with pending := c :: s.pending }
  | none => s

/-- One step. DESIGN CHOICE, log entry 5. -/
def step (s : State) : Host.Outcome State Fault Refusal :=
  match s.pending with
  | [] => .next s.idle
  | c :: rest => exec c { s with pending := rest }

end Sys2Proof.Machine
end

