-- ==== Sys2Proof/Safety.lean ====
section
/-! DEFINITION. What counts as a safe run, the canonical form of the state's maps and memories, and which part of the state
a command changes. -/
namespace Sys2Proof

open Sys2Proof.Machine

/-- A step that neither faults nor is refused. -/
def Safe (s : State) : Prop := ∃ t, step s = .next t

/-- `n` steps from `s`, each safe. -/
def SafeFor (n : Nat) (s : State) : Prop :=
  match n with
  | 0 => True
  | n + 1 => ∃ t, step s = .next t ∧ SafeFor n t

namespace Machine

/-- The canonical form of a byte memory: addresses strictly rising, no entry equal to the byte 0 that an unlisted address
reads as. -/
def Memory.wf (m : List Host.Cell) : Bool := KMap.wf (fun _ => (0 : BitVec 8)) m

/-- Every map of the state is in its canonical form, so that equal contents are equal data: the registers (their default is
the Reset column, R9), HBM and TCM, the translation table, the context store, the MSI-X pool, and the records kept per
function, port, core, queue and fault source. -/
structure State.Canonical (s : State) : Prop where
  regs : KMap.wf resetOf s.regs = true
  mem : Memory.wf s.mem = true
  tcm : Memory.wf s.tcm = true
  xt : KMap.wf (fun _ => 0) s.xt = true
  ctx : KMap.wf (fun _ => 0) s.ctx = true
  msix : KMap.wf (fun _ => {}) s.msix = true
  fns : KMap.wf (fun _ => {}) s.fns = true
  pf : KMap.wf (fun _ => {}) s.pf = true
  vf : KMap.wf (fun _ => (0, 0)) s.vf = true
  flt : KMap.wf (fun _ => {}) s.flt = true
  qaux : KMap.wf (fun _ => {}) s.qaux = true
  ports : KMap.wf (fun _ => {}) s.ports = true
  cores : KMap.wf (fun _ => {}) s.cores = true
  sram : KMap.wf (fun _ => []) s.sram = true

/-- The parts of the state that a command may change: its fields but for the queue of waiting commands. -/
inductive Part where
  | regs | tt | pins | dev | pwr | img | checks | flt | icu | pf | vf | fns | msix | hep | wxl | xt | qen | ctx | qaux
  | spl | swc | ports | hbm | mem | gdc | cores | sram | tcm | prl | out | free
deriving DecidableEq, Repr

/-- A part of the state is the same in `s` and `t`. -/
def Part.Same (s t : State) : Part → Prop
  | .regs => t.regs = s.regs
  | .tt => t.tt = s.tt
  | .pins => t.pins = s.pins
  | .dev => t.dev = s.dev
  | .pwr => t.pwr = s.pwr
  | .img => t.img = s.img
  | .checks => t.checks = s.checks
  | .flt => t.flt = s.flt
  | .icu => t.icu = s.icu
  | .pf => t.pf = s.pf
  | .vf => t.vf = s.vf
  | .fns => t.fns = s.fns
  | .msix => t.msix = s.msix
  | .hep => t.hep = s.hep
  | .wxl => t.wxl = s.wxl
  | .xt => t.xt = s.xt
  | .qen => t.qen = s.qen
  | .ctx => t.ctx = s.ctx
  | .qaux => t.qaux = s.qaux
  | .spl => t.spl = s.spl
  | .swc => t.swc = s.swc
  | .ports => t.ports = s.ports
  | .hbm => t.hbm = s.hbm
  | .mem => t.mem = s.mem
  | .gdc => t.gdc = s.gdc
  | .cores => t.cores = s.cores
  | .sram => t.sram = s.sram
  | .tcm => t.tcm = s.tcm
  | .prl => t.prl = s.prl
  | .out => t.out = s.out
  | .free => t.free = s.free

/-- What any command may do on the way from `s` to `t` that touches no part outside `T`: the queue stays, the maps stay in
canonical form, what has left the device stays said, free values are never used twice, and every other part is the same. -/
structure Change (T : List Part) (s t : State) : Prop where
  pending : t.pending = s.pending
  canonical : s.Canonical → t.Canonical
  out : s.out <+: t.out
  free : s.free ≤ t.free
  frame : ∀ p : Part, p ∉ T → p.Same s t

/-- Whether an agent's writes of control space are the device's to answer: the host through PF0, SMBus, and a core that is bound to
the device (R11, R340). -/
def State.mayControl (s : State) (a : Agent) : Bool :=
  match a with
  | .pf0 => true
  | .smbus => true
  | .core c => decide (c < 8) && s.coreOnline c && s.coreDev c
  | .img => false
  | .fn _ => false

/-- A 64-bit write of `v` by agent `a` at offset `off` is taken (R6, R8, R11, R20): the register `r` of block `b` holds the offset, the
agent reaches the block, the configuration has it, and nothing that R8 names refuses the write. -/
structure State.Takes (s : State) (a : Agent) (b : Blk) (off : Nat) (r : RegDef) (v : Word) : Prop where
  agent : s.mayControl a = true
  block : blockAt off = some b
  reach : s.reaches a b = true
  present : s.hasBlk b = true
  below : off < 0x1600000
  aligned : off % 8 = 0
  reg : s.regDef off = some r
  taken : s.ctlRefused s.dev.mode off v = false

/-- The register at `off` after a plain write of `v` by its access types (R7); its enable bits that would rise keep 0 (R71). -/
def State.stored (s : State) (b : Blk) (off : Nat) (r : RegDef) (v : Word) : State :=
  s.setReg off (r.store (bitsMask (enBits b (off - b.base))) (s.reg off) v)

/-- The parts of the state that a command may change. -/
def touches : Instr → List Part
  | .pwrEnable _ _ | .erase _ _ | .program _ _ | .verify _ _ | .ctlWrite _ _ | .devEnable _ _ | .devQuiesce _ _ | .sleep _ _
  | .forceSafe _ _ | .hostLinkRetrain _ _ | .hepEnable _ _ | .wxlEnable _ _ | .inboundWindowEnable _ _ _ | .outboundWindowEnable _ _ _
  | .envelopeRangeEnable _ _ _ | .tcInv _ _ | .writeBack _ _ | .writeBackInvalidate _ _ | .sediscardClear _ _ | .pfCfgWrite _ _
  | .queueRead _ _ _ | .queueWrite _ _ _ | .queueEnable _ _ _ | .queueModify _ _ _ | .queueStop _ _ _ | .queueStart _ _ _
  | .queueDrain _ _ _ | .queueDisable _ _ _ | .queuePrefetch _ _ _ | .qenEnable _ _ | .envelopeDefine _ _ _ | .envelopeUndefine _ _ _
  | .envCfgWrite _ _ _ | .envQblkWrite _ _ _ | .splEnable _ _ | .splStepWrite _ _ | .calFreeze _ _ | .calRestart _ _ | .tailEn _ _
  | .tailSelWrite _ _ _ | .swcEnable _ _ | .retrain _ _ _ | .resize _ _ _ | .restore _ _ _ | .portEnable _ _ _ | .holdDisable _ _ _
  | .pwrOnWrite _ _ _ | .portRearm _ _ _ | .cfgCmd _ _ _ | .sidebandOut _ _ _ | .icuEnable _ _ | .sourceEnable _ _ _ | .sourceMask _ _ _
  | .icuSwi _ _ | .complete _ _ _ | .loadBegin _ _ | .loadData _ _ | .loadEnd _ _ | .loadCancel _ _ | .gdcEnable _ _ | .coreEnable _ _ _
  | .coreQuiesce _ _ _ | .hbmEnable _ _ | .acknowledge _ _ _ | .acknowledgeAll _ _ | .latchRearm _ _ | .selftestGo _ _ _
  | .sourceConfigWrite _ _ _ _ | .graceWrite _ _ _ | .prlEnable _ _ | .pairEn _ _ | .handover _ _ | .handback _ _ | .coreMemoryAccess _
    => [.regs, .tt, .pins, .dev, .img, .checks, .flt, .icu, .hep, .wxl, .qen, .ctx, .qaux, .spl, .swc, .ports, .hbm, .mem, .gdc, .cores,
      .tcm, .prl, .out]
  | .xlateUpdateDone _ | .descriptorFetched _ | .operationStart _ | .completionRecordWrite _ | .stepBoundary _ | .moverPipeError _
  | .migrate _ | .multicastWrite _ | .fence _ | .fenceComplete _ | .notify _ | .abort _ | .ctxPrefetch _ | .serviceCall _ | .nop _
  | .frameAdmit _ | .trainingPhaseComplete _ _ | .linkActiveEntry _ | .trainingLimitExpiry _ | .retrainLimitExpiry _ | .graceExpiry _
  | .fastEntry _ | .fastReturn _ _ | .gclaim _ | .gcomplete _ _ | .gmbhead _ _ | .gmbdone _ _ | .gyield _ _ | .gdoorbell _ _
  | .gmbstatRead _ | .mailboxPlace _ | .envelopeViewAnswer _ | .coreQuiesceEnd _ | .pairProbeTimeout | .failoverConfirmDelay | .fastTrap _
    => [.regs, .tt, .checks, .flt, .icu, .hep, .wxl, .qen, .ctx, .qaux, .spl, .swc, .ports, .cores, .prl, .out]
  | .rampGrant _ | .pmeTurnOff | .getVersion _ | .getCapabilities _ | .negotiateAlgorithms _ | .getDigests _ | .getCertificate _ _
  | .challenge _ | .getMeasurements _ _ | .doeDiscovery _ => [.regs, .out]
  | .receiverDetection _ _ | .blockAlignmentLoss _ _ | .resizeSwitch _ _ | .pwrDone _ | .flitReceived _ _ | .replayTimeout _ | .epoch _ _
  | .sleepEntry _ | .sleepExit _ | .syncTimeout => [.regs, .tt, .checks, .flt, .icu, .ports, .prl, .out]
  | .hostMemoryRequest _ | .windowAccess _ | .doorbell _ _ | .hostClaim _ _ | .hostComplete _ _ | .registerWrite _ _ _ _
    => [.regs, .tt, .pins, .dev, .img, .checks, .flt, .icu, .msix, .hep, .wxl, .qen, .ctx, .qaux, .spl, .swc, .ports, .hbm, .mem, .gdc,
      .cores, .tcm, .prl, .out]
  | .vddTtLoss | .mainPowerLoss | .mainPowerDownDone | .perstNAssert | .flashOpDone _ _ _
    => [.regs, .tt, .pins, .dev, .pwr, .img, .checks, .flt, .icu, .pf, .vf, .fns, .msix, .hep, .wxl, .xt, .qen, .ctx, .qaux, .spl, .swc,
      .ports, .hbm, .mem, .gdc, .cores, .sram, .tcm, .prl, .out, .free]
  | .copy _ | .fill _ | .check _ | .copyCheck _ | .scrub _ => [.regs, .tt, .flt, .icu, .hep, .wxl, .qaux, .spl, .swc, .ports, .cores, .out]
  | .gtsReceived _ _ | .portTagQuarantineExpiry _ _ | .probeTick _ | .probeSampleTimeout _ | .trainingPhaseLimitExpiry _ => [.ports]
  | .requestDeadline _ _ | .mrd _ _ | .mwr _ _ | .cpld _ _ | .atom _ _
    => [.regs, .tt, .flt, .icu, .hep, .wxl, .qaux, .swc, .ports, .cores, .out]
  | .pllUnlock _ | .lswStuck | .msgIntEffect _ | .faultQuietExpiry _ _ => [.regs, .tt, .flt, .icu, .out]
  | .vfEnableWrite _ _ | .initiateFlr _ | .busMasterEnableClear _ | .busMasterEnableSet _
    => [.regs, .tt, .checks, .flt, .icu, .fns, .msix, .hep, .wxl, .qen, .ctx, .qaux, .spl, .swc, .ports, .cores, .prl, .out]
  | .l1Request | .l0pNarrow | .l0pWiden | .tagIssue _ => [.regs, .hep, .out]
  | .attentionPress _ | .msgInt _ _ | .msgSb _ _ | .cfg _ _ | .sleepReq _ | .sleepAck _ | .sleepNak _ => [.regs, .tt, .flt, .icu, .ports, .out]
  | .hbmTrainingEnd _ | .selfRefreshEntry | .selfRefreshExit | .selfRefreshPairExit _ => [.regs, .hbm]
  | .mainOffTimeExpiry | .wakeCause _ | .ttWakeDebounced _ => [.regs, .tt]
  | .migrateRelease _ | .xlateUpdate _ | .pairControlPacket _
    => [.regs, .tt, .checks, .flt, .icu, .hep, .wxl, .xt, .qen, .ctx, .qaux, .spl, .swc, .ports, .cores, .prl, .out]
  | .presenceChange _ _ | .slotPowerFault _ | .slotQuiesceEnd _
    => [.regs, .tt, .pins, .checks, .flt, .icu, .hep, .wxl, .qen, .ctx, .qaux, .spl, .swc, .ports, .cores, .prl, .out]
  | .cfgAnswerTimeout _ => [.regs, .ports]
  | .rootPllLock | .restart _
    => [.regs, .tt, .dev, .img, .checks, .flt, .icu, .fns, .msix, .hep, .wxl, .xt, .qen, .ctx, .qaux, .spl, .swc, .ports, .hbm, .mem,
      .cores, .prl, .out]
  | .refclkLoss _ | .dlDown
    => [.regs, .tt, .dev, .checks, .flt, .icu, .fns, .msix, .hep, .wxl, .qen, .ctx, .qaux, .spl, .swc, .ports, .hbm, .cores, .prl, .out]
  | .droopCauseEnd _ | .stretchReturnIncrement => [.regs, .pwr]
  | .ctlRead _ | .claim _ _ => [.regs, .icu, .out]
  | .keyProgram _ _ | .keyRevoke _ => [.tt, .out]
  | .consistencyCheckEnd | .laneTestEnd _ _
    => [.regs, .tt, .dev, .checks, .flt, .icu, .hep, .wxl, .qen, .ctx, .qaux, .spl, .swc, .ports, .cores, .prl, .out]
  | .quiesceDrained | .faultWindowClose _ _ => [.regs]
  | .flrEnd _ | .powerStateWrite _ _ _
    => [.regs, .tt, .dev, .checks, .flt, .icu, .fns, .msix, .hep, .wxl, .qen, .ctx, .qaux, .spl, .swc, .ports, .cores, .prl, .out]
  | .msixUnmask _ _ | .hostProxyEvent => [.regs, .icu, .fns, .msix, .swc, .out]
  | .prefetchLifeExpiry _ | .evictionRetry => [.regs, .tt, .flt, .icu, .wxl, .swc, .out]
  | .creditTick | .reconciliationInterval _ _ => [.regs, .spl]
  | .nakRepeatTimeout _ => [.regs, .ports, .out]
  | .cpl _ _ | .err _ _ => [.regs, .tt, .flt, .icu, .hep, .wxl, .qaux, .swc, .ports, .cores, .out, .free]
  | .sleepIdleExpiry _ | .sleepHandshakeTimeout _ => [.ports, .out]
  | .hbmTempReading _ | .patrolScrub _ _ => [.regs, .tt, .flt, .icu, .hbm, .out]
  | .rowTestEnd _ _ _ _ | .pcTestEnd _ _ => [.regs, .tt, .dev, .flt, .icu, .wxl, .spl, .hbm, .out]
  | .tetherResetRelease => [.regs, .tt, .dev, .free]
  | .ttPgoodMainAssert => [.regs, .tt, .dev]
  | .perstNDeassert _ _ => [.regs, .tt, .pins, .dev]
  | .droopThresholdCrossing _ => [.regs, .tt, .pwr, .flt, .icu, .out]
  | .lswRecognised => [.regs, .pins, .pwr, .spl]
  | .lswNRelease => [.regs, .pins, .pwr]
  | .lswHoldExpiry => [.regs, .pwr, .spl]
  | .temperatureReading _ => [.regs, .tt, .pins, .pwr, .flt, .icu, .out]
  | .heartbeatToggle => [.pins]
  | .flashReadDone _
    => [.regs, .tt, .pins, .dev, .img, .checks, .flt, .icu, .pf, .vf, .fns, .msix, .hep, .wxl, .xt, .qen, .ctx, .qaux, .spl, .swc,
      .ports, .hbm, .mem, .gdc, .cores, .tcm, .prl, .out]
  | .enterConfig => [.regs, .tt, .pins, .dev, .img, .flt, .icu, .hep, .spl, .ports, .hbm, .out]
  | .lateSectionLoaded _ _ => [.regs, .tt, .img, .flt, .icu, .mem, .cores, .tcm, .out]
  | .flashOpTimeout => [.regs, .tt, .img, .flt, .icu, .out]
  | .status => [.out]
  | .configRequest _
    => [.regs, .tt, .dev, .checks, .flt, .icu, .fns, .msix, .hep, .wxl, .qen, .ctx, .qaux, .spl, .swc, .ports, .cores, .prl, .out, .free]
  | .dlUp _ _ _ => [.regs, .tt, .icu, .hep, .out]
  | .hostLinkRecovery _ _ _ => [.regs, .tt, .hep, .out]
  | .hostCompletion _ _ _ _ _ => [.regs, .tt, .flt, .icu, .hep, .swc, .out]
  | .completionTimeout _ _ => [.regs, .tt, .flt, .icu, .hep, .wxl, .qaux, .swc, .cores, .out]
  | .quarantineExpiry _ _ => [.hep]
  | .tableWalkDone _ _ => [.regs, .tt, .flt, .icu, .hep, .wxl, .qaux, .swc, .ports, .hbm, .cores, .out]
  | .tcInvDone => [.regs, .wxl]
  | .pcFlushDone => [.regs, .wxl, .swc]
  | .translationCompletion _ _ _ _ _ _ _ => [.regs, .tt, .flt, .icu, .wxl, .qaux, .swc, .ports, .cores, .out]
  | .invalidationRequest _ _ _ _ _ => [.wxl]
  | .invalidationCompletion _ _ => [.regs, .wxl, .out]
  | .migratePassEnd _ => [.wxl, .qaux]
  | .contextLoaded _ _ => [.regs, .tt, .checks, .flt, .icu, .hep, .wxl, .qen, .ctx, .qaux, .spl, .swc, .ports, .hbm, .cores, .prl, .out]
  | .cqModerationExpiry _ => [.icu, .ctx, .qaux, .ports, .prl, .out]
  | .stepRelease _ => [.regs, .qaux, .spl, .cores]
  | .atomic _ => [.regs, .tt, .flt, .icu, .hep, .wxl, .qaux, .spl, .swc, .ports, .cores, .prl, .out]
  | .calibrationWindowEnd => [.regs, .tt, .flt, .icu, .spl, .out, .free]
  | .outputGrant _ => [.regs, .tt, .flt, .icu, .fns, .hep, .wxl, .qaux, .swc, .ports, .hbm, .cores, .out]
  | .multicastGhlExpiry _ => [.regs, .tt, .flt, .icu, .qaux, .swc, .out]
  | .tailBatchWrite => [.regs, .tt, .flt, .icu, .swc, .out, .free]
  | .bankCellsReleased _ => [.regs, .swc]
  | .cancelWindowExpiry _ => [.regs, .pins, .wxl, .swc, .ports]
  | .msixEntryReadDone _ _ _ => [.regs, .tt, .flt, .icu, .msix, .swc, .hbm, .out]
  | .hbmFillEnd
    => [.regs, .tt, .pins, .dev, .img, .checks, .flt, .icu, .pf, .vf, .hep, .wxl, .xt, .qen, .ctx, .qaux, .spl, .swc, .ports, .hbm, .mem,
      .gdc, .cores, .tcm, .prl, .out]
  | .hbmAccess _ => [.regs, .tt, .flt, .icu, .swc, .hbm, .mem, .out, .free]
  | .refreshInterval => [.hbm]
  | .faultGraceExpiry _ _
    => [.regs, .tt, .dev, .checks, .flt, .icu, .hep, .wxl, .qen, .ctx, .qaux, .spl, .swc, .ports, .hbm, .cores, .prl, .out]
  | .selfTestEnd _ _ _
    => [.regs, .tt, .dev, .checks, .flt, .icu, .hep, .wxl, .qen, .ctx, .qaux, .spl, .swc, .ports, .hbm, .gdc, .cores, .sram, .prl, .out]
  | .handoverGive => [.regs, .tt, .dev, .flt, .icu, .wxl, .spl, .ports, .prl, .out]
  | .syncComplete => [.regs, .tt, .dev, .flt, .icu, .hep, .wxl, .ctx, .qaux, .spl, .swc, .ports, .cores, .prl, .out]
  | .heartbeatEdge _ => [.regs, .tt, .pins, .flt, .icu, .prl, .out]
  | .heartbeatSilence => [.regs, .ports, .prl, .out]
  | .dqRecalibrationEnd _ _ => [.regs, .flt, .hbm]

end Machine

end Sys2Proof
end

