-- ==== Sys2Proof/Certificates/Slice0/Obligations.lean ====
section
/-! DEFINITION. The statements for the provers. Each clause that names a command says that `exec` answers a next state, and which, for every state and
operands that meet its hypotheses; `OBLIGATIONS.json` gives each statement its title and what it rests on. -/

open Sys2Proof
open Sys2Proof.Machine

/-- For every command and state: step of a state with the command at the front of its queue is exec of the command on the state
with the rest of the queue. The queue itself is the model's form (DESIGN CHOICE, log entry 5). -/
def Obligations.StepRunsFront : Prop :=
  ∀ (s : State) c rest, s.pending = c :: rest → step s = exec c { s with pending := rest }

/-- On an empty queue DEV_TIME counts one tick once the main domain is out of reset, before that nothing changes; every other
part of the state stays. That the tick is what an empty queue does is DESIGN CHOICE, log entry 5. -/
def Obligations.StepIdles : Prop :=
  ∀ s : State, s.pending = [] → ∃ t, step s = .next t ∧ t = { s with dev := t.dev } ∧ t.dev = { s.dev with time := t.dev.time }
    ∧ t.dev.time = s.dev.time + (if s.dev.up then 1 else 0)

/-- decodeTableWord answers none for every word, and withFetchWord leaves every state as it is. -/
def Obligations.NoWordSpellsACommand : Prop :=
  ∀ (s : State) nbits w, decodeTableWord nbits w = none ∧ s.withFetchWord nbits w = s

/-- Before VDD_TT is in range the device is in OFF, no command waits, nothing has left the device, and every register reads the
value of its Reset column. Internal state without a stated reset value is zero or empty (DESIGN CHOICE, log entry 1), and the
pins are those with nothing driven (DESIGN CHOICE, log entry 118). -/
def Obligations.ResetState : Prop :=
  State.reset.pending = [] ∧ State.reset.out = [] ∧ State.reset.dev.mode = .off ∧ State.reset.dev.up = false ∧ State.reset.mem = []
    ∧ (∀ o, State.reset.reg o = resetOf o) ∧ State.reset.get F.HEP_PM_CFG_L0P_MIN_WIDTH = 2 ∧ State.reset.get F.HEP_PM_CFG_LTR_IDLE_US = 1000
    ∧ State.reset.get F.HEP_PM_CFG_LTR_ACTIVE_US = 50

/-- Every map and memory of State.reset is in its canonical form (the form is the model's, log entry 99). -/
def Obligations.ResetCanonical : Prop :=
  State.reset.Canonical

/-- From every canonical state, a step that answers a next state answers a canonical one: registers, HBM and TCM bytes,
translation table, contexts, MSI-X pool and the records kept per function, port, core, queue and fault source stay sorted,
without a listed default. The form is the model's (log entry 99). -/
def Obligations.StepKeepsCanonical : Prop :=
  ∀ s t : State, s.Canonical → step s = .next t → t.Canonical

/-- For every command c: if exec c answers a next state, the queue is as before, what has left the device stays said, free values
are never used twice, and every part of the state outside touches c is the same: control registers, Tether, pins, device
mode, fault records, interrupts, functions, windows, queues and contexts, switch, ports, HBM bytes and state, cores, TCM and
pair. -/
def Obligations.EveryCommandFrame : Prop :=
  ∀ c (s t : State), exec c s = .next t → t.pending = s.pending ∧ s.out <+: t.out ∧ s.free ≤ t.free ∧ ∀ p, p ∉ touches c → p.Same s t

/-- From every state that is neither in OFF nor in TETHER nor in BOOT, every command that answers a next state either leaves the
configuration as it is or leads into OFF, TETHER or BOOT, so that another configuration takes effect only after a reset. -/
def Obligations.ConfigurationFixed : Prop :=
  ∀ c (s t : State), exec c s = .next t → s.dev.mode ∉ [Mode.off, .tether, .boot] →
    t.cfg = s.cfg ∨ t.dev.mode ∈ [Mode.off, .tether, .boot]

/-- From SAFE every command that answers a next state stays in SAFE or leads into BOOT (transition 11), TETHER (12) or OFF (14):
no command leads from SAFE back into CONFIG, RUN, DEGRADED or QUIESCE. R67 names the transitions; the causes as numbers are
those of Table 3.11 and not part of this statement. -/
def Obligations.SafeLeavesOnlyByReset : Prop :=
  ∀ c (s t : State), exec c s = .next t → s.dev.mode = .safe → t.dev.mode ∈ [Mode.safe, .boot, .tether, .off]

/-- Every command but HBM_ACCESS answers a next state from every state. HBM_ACCESS stops exactly where its bytes run past the
capacity of the pseudo-channel set, addresses that do not exist. -/
def Obligations.OnlyHbmAccessStops : Prop :=
  (∀ c (s : State), (∀ r, c ≠ .hbmAccess r) → ∃ t, exec c s = .next t)
    ∧ ∀ (s : State) r, exec (.hbmAccess r) s = .fault .hbmOutOfRange ↔ s.hbmCap < r.off + (if r.write then r.data.length else r.len)

/-- Whatever HBM_ACCESS serves (a write, a Tail batch, an ATOM or a read that waits at the offset, or an access of a unit inside
the bridge), every byte outside the bytes stored reads as before; a read stores none, an ATOM 8. -/
def Obligations.MemoryFrame : Prop :=
  ∀ (s t : State) r n, exec (.hbmAccess r) s = .next t →
    n = (match s.hbmPick r.write r.off with
      | some f => if f.typ = .write ∨ f.typ = .tailBatch then f.data.length else if f.typ = .atomic then 8 else 0
      | none => if r.write then r.data.length else 0) →
    ∀ a, a < r.off ∨ r.off + n ≤ a → t.hbmByte a = s.hbmByte a

/-- Bytes written to HBM read back; all others read as before; a value laid out in k bytes and read back is the value modulo
256^k, and byte i of it holds bits [8i+7:8i] (R3). -/
def Obligations.HbmBytes : Prop :=
  (∀ (s : State) o l a, (s.hbmWrite o l).hbmByte a = if o ≤ a ∧ a < o + l.length then l.getD (a - o) 0 else s.hbmByte a)
    ∧ (∀ k n, ofBytes (toBytes k n) = n % 256 ^ k) ∧ ∀ k n j, j < k → (toBytes k n)[j]? = some (BitVec.ofNat 8 (n / 256 ^ j))

/-- The commands named after an enable, a control bit or a register write act as the 64-bit write of that register by the agent
that sends them, with the bits the command names set in the value, in every form the value gives. -/
def Obligations.ControlWriteCommands : Prop :=
  (∀ (s : State) a v, exec (.pwrEnable a v) s = .next (ctlWriteBy a R.PWR_CTL (withField v 0 1 1) 64 s))
  ∧ (∀ (s : State) a v, exec (.wxlEnable a v) s = .next (ctlWriteBy a R.WXL_CTL (withField v 0 1 1) 64 s))
  ∧ (∀ (s : State) a v, exec (.qenEnable a v) s = .next (ctlWriteBy a R.QEN_CTL (withField v 0 1 1) 64 s))
  ∧ (∀ (s : State) a v, exec (.icuEnable a v) s = .next (ctlWriteBy a R.ICU_CTL (withField v 0 1 1) 64 s))
  ∧ (∀ (s : State) a v, exec (.hbmEnable a v) s = .next (ctlWriteBy a Blk.hbm.base (withField v 0 1 1) 64 s))
  ∧ (∀ (s : State) a v, exec (.hepEnable a v) s = .next (ctlWriteBy a R.HEP_CTL (withField v 0 1 1) 64 s))
  ∧ (∀ (s : State) a v, exec (.splEnable a v) s = .next (ctlWriteBy a R.SPL_CTL (withField v 0 1 1) 64 s))
  ∧ (∀ (s : State) a v, exec (.swcEnable a v) s = .next (ctlWriteBy a R.SWC_CTL (withField v 0 1 1) 64 s))
  ∧ (∀ (s : State) a v, exec (.prlEnable a v) s = .next (ctlWriteBy a R.PRL_CTL (withField v 0 1 1) 64 s))
  ∧ (∀ (s : State) a v, exec (.devEnable a v) s = .next (ctlWriteBy a R.DEV_CTL (withField v 0 1 1) 64 s))
  ∧ (∀ (s : State) a v, exec (.tailEn a v) s = .next (ctlWriteBy a R.SWC_CTL v 64 s))
  ∧ (∀ (s : State) a v, exec (.gdcEnable a v) s = .next (ctlWriteBy a R.GDC_CTL v 64 s))
  ∧ (∀ (s : State) a v, exec (.pairEn a v) s = .next (ctlWriteBy a R.PRL_CTL v 64 s))
  ∧ (∀ (s : State) a v, exec (.devQuiesce a v) s = .next (ctlWriteBy a R.DEV_CTL v 64 s))
  ∧ (∀ (s : State) a v, exec (.sleep a v) s = .next (ctlWriteBy a R.DEV_CTL (withField v 2 1 1) 64 s))
  ∧ (∀ (s : State) a v, exec (.forceSafe a v) s = .next (ctlWriteBy a R.DEV_CTL (withField v 4 1 1) 64 s))
  ∧ (∀ (s : State) a w v, w < 4096 → exec (.inboundWindowEnable a w v) s = .next (ctlWriteBy a (R.WXL_IWIN_CTL w) v 64 s))
  ∧ (∀ (s : State) a w v, w < 4096 → exec (.outboundWindowEnable a w v) s = .next (ctlWriteBy a (R.WXL_OWIN_CTL w) v 64 s))
  ∧ (∀ (s : State) a w v, w < 8192 → exec (.envelopeRangeEnable a w v) s = .next (ctlWriteBy a (R.WXL_ERNG_CTL w) v 64 s))
  ∧ (∀ (s : State) a c v, c < 8 → exec (.coreEnable a c v) s = .next (ctlWriteBy a (R.GDC_CORE_CTL c) v 64 s))
  ∧ (∀ (s : State) a c v, c < 8 → exec (.coreQuiesce a c v) s = .next (ctlWriteBy a (R.GDC_CORE_CTL c) (withField v 1 1 1) 64 s))
  ∧ (∀ (s : State) a p v, p < 7 → exec (.portEnable a p v) s = .next (ctlWriteBy a (R.LPn_CTL p) v 64 s))
  ∧ (∀ (s : State) a p v, p < 7 → exec (.holdDisable a p v) s = .next (ctlWriteBy a (R.LPn_CTL p) (withField v 1 1 1) 64 s))
  ∧ (∀ (s : State) a e v, e < 1024 → exec (.envelopeDefine a e v) s = .next (ctlWriteBy a (R.ENV_CFG e) (withField v 0 1 1) 64 s))
  ∧ (∀ (s : State) a e v, e < 1024 → exec (.envelopeUndefine a e v) s = .next (ctlWriteBy a (R.ENV_CFG e) (withField v 0 1 0) 64 s))
  ∧ (∀ (s : State) a e v, e < 1024 → exec (.envCfgWrite a e v) s = .next (ctlWriteBy a (R.ENV_CFG e) v 64 s))
  ∧ (∀ (s : State) a e v, e < 1024 → exec (.envQblkWrite a e v) s = .next (ctlWriteBy a (R.ENV_QBLK e) v 64 s))
  ∧ (∀ (s : State) a v, exec (.erase a v) s = .next (ctlWriteBy a R.IMG_CTL (withField v 8 2 1) 64 s))
  ∧ (∀ (s : State) a v, exec (.program a v) s = .next (ctlWriteBy a R.IMG_CTL (withField v 8 2 2) 64 s))
  ∧ (∀ (s : State) a v, exec (.verify a v) s = .next (ctlWriteBy a R.IMG_CTL (withField v 8 2 3) 64 s))
  ∧ (∀ (s : State) a v, exec (.hostLinkRetrain a v) s = .next (ctlWriteBy a R.HEP_CTL (withField v 1 1 1) 64 s))
  ∧ (∀ (s : State) a v, exec (.tcInv a v) s = .next (ctlWriteBy a R.WXL_TC_INV (withField v 63 1 1) 64 s))
  ∧ (∀ (s : State) a v, exec (.writeBack a v) s = .next (ctlWriteBy a R.WXL_PC_FLUSH (withField (withField v 11 2 1) 63 1 1) 64 s))
  ∧ (∀ (s : State) a v, exec (.writeBackInvalidate a v) s = .next (ctlWriteBy a R.WXL_PC_FLUSH (withField (withField v 11 2 2) 63 1 1) 64 s))
  ∧ (∀ (s : State) a v, exec (.pfCfgWrite a v) s = .next (ctlWriteBy a R.WXL_PF_CFG v 64 s))
  ∧ (∀ (s : State) a p v, p < 11 → exec (.tailSelWrite a p v) s = .next (ctlWriteBy a (R.SWC_TAIL_SEL p) v 64 s))
  ∧ (∀ (s : State) a v, exec (.splStepWrite a v) s = .next (ctlWriteBy a R.SPL_STEP v 64 s))
  ∧ (∀ (s : State) a v, exec (.calFreeze a v) s = .next (ctlWriteBy a R.SPL_CTL v 64 s))
  ∧ (∀ (s : State) a v, exec (.calRestart a v) s = .next (ctlWriteBy a R.SPL_CTL (withField v 3 1 1) 64 s))
  ∧ (∀ (s : State) a v, exec (.icuSwi a v) s = .next (ctlWriteBy a R.ICU_SWI v 64 s))
  ∧ (∀ (s : State) a v, exec (.loadBegin a v) s = .next (ctlWriteBy a R.GDC_LOAD_CTL (withField v 4 2 1) 64 s))
  ∧ (∀ (s : State) a v, exec (.loadEnd a v) s = .next (ctlWriteBy a R.GDC_LOAD_CTL (withField v 4 2 2) 64 s))
  ∧ (∀ (s : State) a v, exec (.loadCancel a v) s = .next (ctlWriteBy a R.GDC_LOAD_CTL (withField v 4 2 3) 64 s))
  ∧ (∀ (s : State) a v, exec (.loadData a v) s = .next (ctlWriteBy a R.GDC_LOAD_DATA v 64 s))
  ∧ (∀ (s : State) a p v, p < 7 → exec (.retrain a p v) s = .next (ctlWriteBy a (R.LPn_LINK_CMD p) (withField v 0 2 1) 64 s))
  ∧ (∀ (s : State) a p v, p < 7 → exec (.resize a p v) s = .next (ctlWriteBy a (R.LPn_LINK_CMD p) (withField v 0 2 2) 64 s))
  ∧ (∀ (s : State) a p v, p < 7 → exec (.restore a p v) s = .next (ctlWriteBy a (R.LPn_LINK_CMD p) (withField v 0 2 3) 64 s))
  ∧ (∀ (s : State) a p v, p < 6 → exec (.pwrOnWrite a p v) s = .next (ctlWriteBy a (R.LPn_SLOT_CTL p) v 64 s))
  ∧ (∀ (s : State) a p v, p < 6 → exec (.portRearm a p v) s = .next (ctlWriteBy a (R.LPn_REARM p) (withField v 0 1 1) 64 s))
  ∧ (∀ (s : State) a p v, p < 6 → exec (.cfgCmd a p v) s = .next (ctlWriteBy a (R.LPn_CFG_CMD p) (withField v 33 1 1) 64 s))
  ∧ (∀ (s : State) a p v, p < 6 → exec (.sidebandOut a p v) s = .next (ctlWriteBy a (R.LPn_SB p) v 64 s))
  ∧ (∀ (s : State) a v, exec (.handover a v) s = .next (ctlWriteBy a R.PRL_CTL (withField v 3 1 1) 64 s))
  ∧ (∀ (s : State) a v, exec (.handback a v) s = .next (ctlWriteBy a R.PRL_CTL (withField v 3 2 2) 64 s))
  ∧ (∀ (s : State) k q a, k < 9 → q < 2 ^ 22 → exec (.queueRead k q a) s = .next (ctlWriteBy a (R.QEN_QCMD k) (BitVec.ofNat 64 (1 * 2 ^ 32 + q)) 64 s)
    ∧ exec (.queueWrite k q a) s = .next (ctlWriteBy a (R.QEN_QCMD k) (BitVec.ofNat 64 (2 * 2 ^ 32 + q)) 64 s)
    ∧ exec (.queueEnable k q a) s = .next (ctlWriteBy a (R.QEN_QCMD k) (BitVec.ofNat 64 (3 * 2 ^ 32 + q)) 64 s)
    ∧ exec (.queueModify k q a) s = .next (ctlWriteBy a (R.QEN_QCMD k) (BitVec.ofNat 64 (4 * 2 ^ 32 + q)) 64 s)
    ∧ exec (.queueStop k q a) s = .next (ctlWriteBy a (R.QEN_QCMD k) (BitVec.ofNat 64 (5 * 2 ^ 32 + q)) 64 s)
    ∧ exec (.queueStart k q a) s = .next (ctlWriteBy a (R.QEN_QCMD k) (BitVec.ofNat 64 (6 * 2 ^ 32 + q)) 64 s)
    ∧ exec (.queueDrain k q a) s = .next (ctlWriteBy a (R.QEN_QCMD k) (BitVec.ofNat 64 (7 * 2 ^ 32 + q)) 64 s)
    ∧ exec (.queueDisable k q a) s = .next (ctlWriteBy a (R.QEN_QCMD k) (BitVec.ofNat 64 (8 * 2 ^ 32 + q)) 64 s)
    ∧ exec (.queuePrefetch k q a) s = .next (ctlWriteBy a (R.QEN_QCMD k) (BitVec.ofNat 64 (9 * 2 ^ 32 + q)) 64 s))

/-- For PF0, SMBus and a core bound to the device: a 64-bit write with a reserved encoding in an RW field of a register, which
reaches the register's block, does what the block's event source for ignored writes does with the register offset, and
nothing else; the register keeps its value. -/
def Obligations.ReservedEncodingIgnored : Prop :=
  ∀ (s : State) a b off r v, s.mayControl a = true → blockAt off = some b → s.reaches a b = true → s.hasBlk b = true → off < 0x1600000 →
    off % 8 = 0 → s.regDef off = some r → r.writable = true → r.reserved v = true → off - b.base < 0xF000 ∨ 0x10000 ≤ off - b.base →
    exec (.registerWrite a off v 64) s = .next (notice b off s)
    ∧ (off < 0xF00000 ∨ 0x1100000 ≤ off → (notice b off s).reg off = s.reg off)

/-- A credit tick takes every defined envelope once in ascending order; for each, BW_TOK becomes the sum with BW_CAP × 100 held
between −1,048,576 and 1,048,576; it is 1,048,576 where DEFINE sets; a data operation is released in no row unless BW_TOK is
above 0. -/
def Obligations.BandwidthTokens : Prop :=
  (∀ s : State, s.dev.up = true → s.is F.SPL_CTL_ENABLE = true → exec .creditTick s = .next (s.envs.foldl (fun t e => envTick e t) s))
    ∧ (∀ (s : State) e, s.envDefined e = true → (envTick e s).sget (F.ENV_CREDIT_BW_TOK e)
        = max (-1048576) (min 1048576 (s.sget (F.ENV_CREDIT_BW_TOK e) + (s.get (F.ENV_CFG_BW_CAP e) * 100 : Nat))))
    ∧ (∀ (s : State) e, (envBegin e s).sget (F.ENV_CREDIT_BW_TOK e) = 1048576)
    ∧ ∀ (s : State) row q, isData (s.opc q) = true → s.sget (F.ENV_CREDIT_BW_TOK (s.cget q C.ENV)) ≤ 0 → s.rowTakes row q = false

/-- In QUIESCE and SAFE a release does nothing at all, so counters and credits are kept; the credit tick does there what it does
in RUN; the end of a quiesce leaves every envelope's credit as it is; in CONFIG no operation starts and no release is made. -/
def Obligations.NoReleaseInQuiesceOrSafe : Prop :=
  (∀ (s : State) p, s.dev.mode = .quiesce ∨ s.dev.mode = .safe ∨ s.dev.mode = .config → exec (.stepRelease p) s = .next s)
    ∧ (∀ s : State, s.dev.mode = .quiesce ∨ s.dev.mode = .safe → s.dev.up = true → s.is F.SPL_CTL_ENABLE = true →
        exec .creditTick s = .next (s.envs.foldl (fun t e => envTick e t) s))
    ∧ (∀ (s : State) cause e, e < 1024 → (quiesceClear cause s).reg (R.ENV_CREDIT e) = s.reg (R.ENV_CREDIT e))
    ∧ ∀ (s : State) q, s.dev.mode = .config → exec (.operationStart q) s = .next s

/-- A DATA or DATA_CONT flit that passes with SEQ = E and fits its buffers is accepted: its packets enter the receive buffers and
E advances by 1. A flit that passes with SEQ among the 2,048 values before E changes nothing and sends no NAK. A flit that
fails its CRC, or passes with any other SEQ, is discarded, and one NAK is sent; until SEQ = E passes, further errors send
none. -/
def Obligations.FlitAcceptance : Prop :=
  ∀ (s : State) p b f, p < 6 → f = State.flitIn s p b → f.seq < 4096 → (s.port p).rxSeq < 4096 → s.flits p = true →
    (∀ u, f.crcOk = true → ackNote p f s = some u → 1 ≤ f.typ → f.typ ≤ 3 → exec (.flitReceived p b) s = .next (flitSeq p f (lcwNote p f u)))
    ∧ (f.crcOk = false → exec (.flitReceived p b) s = .next (flitError p (laneCharge p f.errLanes s)))
    ∧ (f.typ ≠ 3 → f.seq = (s.port p).rxSeq → s.overfull p (s.flitPkts p f) = false → (s.port p).framing = false → f.framing = false →
        f.pkts.all pktQueued = true →
        flitSeq p f s = xoffSync p (s.setPort p { s.port p with rxSeq := ((s.port p).rxSeq + 1) % 4096, rxAny := true, discarding := false, framing := false, part := f.part, rx := (s.port p).rx ++ f.pkts }))
    ∧ (∀ d, 1 ≤ d → d ≤ 2048 → f.seq = ((s.port p).rxSeq + 4096 - d) % 4096 → flitSeq p f s = s)
    ∧ (∀ d, 1 ≤ d → d ≤ 2047 → f.seq = ((s.port p).rxSeq + d) % 4096 → flitSeq p f s = flitError p s)
    ∧ ((s.port p).discarding = false → flitError p s = sendNak p (s.setPort p { s.port p with discarding := true }))
    ∧ ((s.port p).discarding = true → flitError p s = s)

/-- A source is pending exactly while COUNT is above 0 or, with LEVEL 1 in ICU_SRC_CFG, its LEVEL is 1. On an edge source LEVEL
is kept (an input sets it and a read returns it), and the source is pending exactly while COUNT is above 0. -/
def Obligations.SourcePending : Prop :=
  (∀ (s : State) n, s.icuPending n = true ↔ 0 < s.get (F.ICU_SRC_STS_COUNT n) ∨ (s.get (F.ICU_SRC_CFG_LEVEL n) = 1 ∧ s.get (F.ICU_SRC_STS_LEVEL n) = 1))
    ∧ (∀ (s : State) n, s.get (F.ICU_SRC_CFG_LEVEL n) = 0 → (s.icuPending n = true ↔ 0 < s.get (F.ICU_SRC_STS_COUNT n)))
    ∧ ∀ (s : State) n lvl, n < 1024 → n ≠ Blk.icu.bit → (icuLevel n lvl s).get (F.ICU_SRC_STS_LEVEL n) = b2n lvl

/-- A write of gmbhead with a value that does not move the head past the last placed entry marks every placed entry from the
previous head up to h − 1 as taken, leaves the others, and moves the head; a write that would move it past the last placed
entry is ignored and recorded as a NOTICE; a call is placed in the first free entry from the tail on, in ring order. A write
equal to the head moves nothing (the model's reading, DEDUCED). -/
def Obligations.MailboxTaken : Prop :=
  ∀ (s : State) c h n, c < 8 → h < 16 → n = (h + 16 - (s.coreOf c).head) % 16 → n ≠ 0 → (s.coreOf c).head < 16 →
    (∀ k, k < 16 → n ≤ k + 1 → (s.mbox c (((s.coreOf c).head + k) % 16)).st = 1 →
      ((mbHead c h s).coreOf c).head = h
      ∧ ∀ j, j < 16 → ((mbHead c h s).mbox c (((s.coreOf c).head + j) % 16)).st
          = if j < n ∧ (s.mbox c (((s.coreOf c).head + j) % 16)).st = 1 then 2 else (s.mbox c (((s.coreOf c).head + j) % 16)).st)
    ∧ ((∀ k, k < 16 → (s.mbox c (((s.coreOf c).head + k) % 16)).st = 1 → k + 1 < n) → mbHead c h s = faultEvent .gdc 5 0 s)
    ∧ (s.coreOnline c = true → (s.coreOf c).fastActive = false → (s.coreOf c).machine = true → exec (.gmbhead c h) s = .next (mbHead c h s))
    ∧ ∀ q k u, s.ctlWaits 0x0E q = true → s.callEntry q = none → s.callCheck q = none → c = s.df q 0 8 3 →
      (((List.range 16).map fun j => ((s.coreOf c).tail + j) % 16).find? fun j => (s.mbox c j).st == 0) = some k →
      exec (.mailboxPlace q) s = .next u → (u.coreOf c).tail = (k + 1) % 16 ∧ (u.mbox c k).st = 1

/-- A flit formed from a header, 14 slots, a link-control word and a PARITY passes its CRC, and its header and link-control
fields are read back, for every value (Tables 12.1 to 12.3, R271). A packet header is read back field by field (Table 12.4).
A block of GTS2 sets formed for the lanes of a group is read back whole and not discarded (Tables 11.1 and 11.2, R246). The
bytes' forms flitBytes, packetHeader and gtsBytes are the model's (log entry 125). -/
def Obligations.WireFormat : Prop :=
  (∀ (p vcs w h c par : Nat) (part slots : List Byte) (f : FlitIn), slots.length = 224 → f = flitRead p vcs w part (flitBytes h c par slots) →
    f.crcOk = true ∧ f.seq = h % 4096 ∧ f.ack = h / 4096 % 4096 ∧ f.typ = h / 2 ^ 24 % 16 ∧ f.ackV = bitOf h 28 ∧ f.nak = bitOf h 29 ∧ f.hold = bitOf h 30
    ∧ f.xoff = c % 256 ∧ f.req = c / 2 ^ 8 % 4 ∧ f.probe = c / 2 ^ 24 % 65536 ∧ f.echo = c / 2 ^ 40 % 65536)
  ∧ (∀ (k j : Pkt) (payload : List Byte), k.op < 256 → k.vc < 8 → k.flags < 8 → k.len < 512 → k.status < 128 → k.tag < 16384 → k.env < 1024 → k.addr < 2 ^ 64 →
    j = pktRead (packetHeader k) payload →
    j.op = k.op ∧ j.vc = k.vc ∧ j.flags = k.flags ∧ j.len = k.len ∧ j.status = k.status ∧ j.tag = k.tag ∧ j.env = k.env ∧ j.addr = k.addr)
  ∧ (∀ (g : Gts) (n : Nat), 1 ≤ n → n ≤ 16 → g.kind = 2 → g.lane = 0 → g.width ≤ 4 → g.txp ≤ 10 → (g.reqp ≤ 10 ∨ g.reqp = 15) → g.testLane < 16 → g.index = 0 →
    g.linkId < 65536 → g.epoch < 2 ^ 32 → 1 ≤ g.vcs → g.vcs ≤ 7 → g.roles < 2 ^ (g.vcs + 1) → g.rxbuf = 0 → g.probe = 0 → g.echo = 0 → g.ok = true →
    gtsRead ((List.range n).map (gtsBytes g)) = g)

/-- In BOOT with IMG_STS.RECOVERY set, the recovery hold, DEV_MODE reads 2 (BOOT) in MODE and ERR_N is asserted, whatever
DEV_ERRPIN_LEVEL holds. -/
def Obligations.RecoveryHold : Prop :=
  ∀ (s : State) l, s.dev.mode = .boot → s.dev.prev < 16 → s.dev.cause < 256 → s.is F.IMG_STS_RECOVERY = true →
    fieldOf s.devMode 0 4 = 2 ∧ (s.put F.DEV_ERRPIN_LEVEL_LEVEL l).errN = true

/-- DA[47:44] is the target and DA[43:0] the offset; an address range is valid only within the offsets that Table 1.3 gives its
target: 16 TiB for 0x0 to 0x6 and 0xF, 16 GiB for HBM, 64 MiB for control space, none for 0x9 to 0xE. -/
def Obligations.DaFields : Prop :=
  (∀ t o, t < 16 → o < 2 ^ 44 → daT (t * 2 ^ 44 + o) = t ∧ daOff (t * 2 ^ 44 + o) = o)
    ∧ (∀ t o n, t < 16 → o < 2 ^ 44 → 1 ≤ n → (daValid (t * 2 ^ 44 + o) n = true ↔
        (t ≤ 6 ∧ o + n ≤ 2 ^ 44) ∨ (t = 7 ∧ o + n ≤ 0x400000000) ∨ (t = 8 ∧ o + n ≤ 0x4000000) ∨ (t = 15 ∧ o + n ≤ 2 ^ 44)))
    ∧ (∀ p, p < 7 → portSp p = 4 + p)

/-- For TETHER_RESET_RELEASE, VDD_TT_LOSS, TT_PGOOD_MAIN_ASSERT, MAIN_POWER_LOSS, MAIN_POWER_DOWN_DONE, MAIN_OFF_TIME_EXPIRY,
WAKE_CAUSE, TT_WAKE_DEBOUNCED, PERST_N_ASSERT and PERST_N_DEASSERT: from every state that meets the event's condition exec
answers a next state, with the mode, the transition's number, the Tether's latches and what main power loses as given. The
value of the boot count after TETHER_RESET_RELEASE is free; the straps are taken modulo their widths. -/
def Obligations.TetherResults : Prop :=
  (∀ s : State, s.dev.mode = .off → ∃ t, exec .tetherResetRelease s = .next t ∧ t.dev.mode = .tether ∧ t.dev.cause = 1
    ∧ t.is F.TTH_STS_OSC_OK = true ∧ (s.is F.TTH_CTL_AUTO_ON = true → t.is F.TTH_STS_MAIN_ON = true))
  ∧ (∀ s : State, ∃ t, exec .vddTtLoss s = .next t ∧ t.dev.mode = .off ∧ t.regs = [] ∧ t.mem = [] ∧ t.img = {}
    ∧ t.tt.keys = s.tt.keys ∧ t.pins.perstN = s.pins.perstN ∧ t.pins.prsnt = s.pins.prsnt ∧ t.out = s.out)
  ∧ (∀ s : State, s.is F.TTH_STS_MAIN_ON = true → s.is F.TTH_STS_PGOOD = false →
    ∃ t, exec .ttPgoodMainAssert s = .next t ∧ t.is F.TTH_STS_PGOOD = true
      ∧ t.get F.TTH_STS_CYCLES = satAdd 16 (s.get F.TTH_STS_CYCLES) 1
      ∧ (s.pins.perstN = true → t.dev.mode = .boot ∧ t.dev.stage1 = true)
      ∧ (s.pins.perstN = false → t.dev.mode = s.dev.mode ∧ t.dev.stage1 = false)
      ∧ ∀ o, o ≠ R.TTH_STS → t.reg o = s.reg o)
  ∧ (∀ s : State, s.is F.TTH_STS_MAIN_ON = true → s.is F.TTH_STS_PGOOD = true →
    ∃ t, exec .mainPowerLoss s = .next t ∧ t.dev.mode = .tether ∧ t.dev.cause = 12 ∧ t.dev.up = false ∧ t.mem = []
      ∧ t.tt.offTime = true ∧ t.is F.TTH_STS_POWER_LOSS = true ∧ t.is F.TTH_STS_MAIN_ON = false
      ∧ t.is F.TTH_STS_PGOOD = false)
  ∧ (∀ s : State, s.tt.downReq = true →
    ∃ t, exec .mainPowerDownDone s = .next t ∧ t.dev.mode = .tether ∧ t.dev.cause = 9 ∧ t.dev.up = false ∧ t.mem = []
      ∧ t.tt.offTime = true ∧ t.tt.downReq = false ∧ t.is F.TTH_STS_PGOOD = false)
  ∧ (∀ s : State, s.tt.offTime = true → ∃ t, exec .mainOffTimeExpiry s = .next t ∧ t.tt.offTime = false
    ∧ (s.tt.wake = none → t.regs = s.regs)
    ∧ ∀ c, s.tt.wake = some c → t.is F.TTH_STS_MAIN_ON = true ∧ t.get F.TTH_STS_LAST_CAUSE = c % 256)
  ∧ (∀ (s : State) n, n < 6 → s.dev.mode ≠ .off → s.is F.TTH_STS_MAIN_ON = false → s.tt.downReq = false →
    s.tt.offTime = false → bitOf (s.get F.TTH_WAKE_EN_PRSNT) n = true →
    ∃ t, exec (.wakeCause (.prsnt n)) s = .next t ∧ t.is F.TTH_STS_MAIN_ON = true ∧ t.get F.TTH_STS_LAST_CAUSE = 3
      ∧ bitOf (t.get F.TTH_WAKE_STS_PRSNT) n = true)
  ∧ (∀ (s : State) k, k < 8 → s.dev.mode ≠ .off → s.is F.TTH_STS_MAIN_ON = false → s.tt.downReq = true →
    s.tt.wake = none → bitOf (s.get F.TTH_WAKE_EN_TT_WAKE) k = true →
    ∃ t, exec (.ttWakeDebounced k) s = .next t ∧ t.is F.TTH_STS_MAIN_ON = false ∧ t.tt.wake = some 2
      ∧ bitOf (t.get F.TTH_WAKE_STS_TT_WAKE) k = true)
  ∧ (∀ s : State, s.pins.perstN = true → s.dev.up = true → s.tt.downReq = false → s.dev.mode ≠ .quiesce →
    ∃ t, exec .perstNAssert s = .next t ∧ t.pins.perstN = false ∧ t.dev.mode = .boot ∧ t.dev.up = false ∧ t.mem = []
      ∧ t.tt = s.tt ∧ ∀ o, tetherReg o = true → t.reg o = s.reg o)
  ∧ (∀ (s : State) strap id, s.pins.perstN = false → s.dev.mode ≠ .off → s.is F.TTH_STS_MAIN_ON = true →
    s.is F.TTH_STS_PGOOD = true → ∃ t, exec (.perstNDeassert strap id) s = .next t ∧ t.pins.perstN = true
      ∧ t.pins.strapBoot = strap % 4 ∧ t.pins.pairId = id % 2 ∧ t.dev.mode = .boot ∧ t.dev.stage1 = true
      ∧ t.regs = s.regs)

/-- For ROOT_PLL_LOCK, PLL_UNLOCK, REFCLK_LOSS, DROOP_THRESHOLD_CROSSING, DROOP_CAUSE_END, STRETCH_RETURN_INCREMENT,
LSW_RECOGNISED, LSW_N_RELEASE, LSW_HOLD_EXPIRY, LSW_STUCK, RAMP_GRANT, TEMPERATURE_READING and HEARTBEAT_TOGGLE: the next
state that exec answers, with the counter, the status bits and the pins the event writes. -/
def Obligations.ClockPowerResults : Prop :=
  (∀ s : State, s.dev.up = false → s.dev.stage1 = true → s.is F.TTH_STS_POWER_LOSS = false →
    s.pins.strapBoot < 3 → ∃ t, exec .rootPllLock s = .next t ∧ t.dev.up = true ∧ t.dev.mode = .boot
      ∧ t.dev.cause = (if s.tt.railsUp then 2 else 11) ∧ t.tt.boots = (s.tt.boots + 1) % 65536 ∧ t.mem = []
      ∧ t.pins = s.pins)
  ∧ (∀ s : State, s.dev.up = true → s.is F.CLK_STS_ROOT_LOCK = false →
    ∃ t, exec .rootPllLock s = .next t ∧ t.is F.CLK_STS_ROOT_LOCK = true ∧ t.is F.CLK_STS_SYS_CLK_OK = true ∧ t.dev = s.dev)
  ∧ (∀ (s : State) b, s.dev.up = true →
    ∃ t, exec (.pllUnlock b) s = .next t ∧ t.is F.CLK_STS_ROOT_LOCK = false
      ∧ t.get F.CLK_STS_LOCK_LOSS_CNT = satAdd 8 (s.get F.CLK_STS_LOCK_LOSS_CNT) 1
      ∧ (b = true → t.is F.CLK_STS_SYS_CLK_OK = false))
  ∧ (∀ s : State, s.dev.up = true → exec (.refclkLoss true) s = .next (hostLinkDown (s.put F.CLK_STS_H_REFCLK_OK 0)))
  ∧ (∀ s : State, s.dev.up = true → (∀ p, p < 7 → s.flits p = false ∧ s.lst p ≠ 2) →
    exec (.refclkLoss false) s = .next (s.put F.CLK_STS_LP_REFCLK_OK 0))
  ∧ (∀ (s : State) mv, s.dev.up = true → 650 ≤ mv → s.pwr.droop1 = false → s.pwr.droop2 = false →
    mv < 600 + 5 * s.get F.PWR_DROOP_CFG_TH1 → 600 + 5 * s.get F.PWR_DROOP_CFG_TH2 ≤ mv →
    ∃ t, exec (.droopThresholdCrossing mv) s = .next t ∧ t.pwr.droop1 = true ∧ t.pwr.droop2 = false
      ∧ t.pwr.ratio = min s.pwr.ratio (min 56 (if s.is F.PWR_STRETCH_STS_LSW then s.pwr.lswRatio else 64))
      ∧ t.is F.PWR_STRETCH_STS_DROOP = true
      ∧ t.get F.PWR_STRETCH_STS_DROOP_CNT = satAdd 16 (s.get F.PWR_STRETCH_STS_DROOP_CNT) 1)
  ∧ (∀ (s : State) b, s.dev.up = true → ∃ t, exec (.droopCauseEnd b) s = .next t ∧ t.pwr.droop2 = false
      ∧ t.pwr.droop1 = (s.pwr.droop1 && b) ∧ t.is F.PWR_STRETCH_STS_DROOP = (s.pwr.droop1 && b)
      ∧ ∀ o, o ≠ R.PWR_STRETCH_STS → t.reg o = s.reg o)
  ∧ (∀ s : State, s.dev.up = true → s.pwr.ratio < s.ratioWanted →
    ∃ t, exec .stretchReturnIncrement s = .next t ∧ t.pwr.ratio = s.pwr.ratio + 1
      ∧ t.get F.PWR_STRETCH_STS_RATIO = (if s.pwr.ratio + 1 < s.ratioWanted then 3 else ratioCode (s.pwr.ratio + 1)) ∧ ∀ o, o ≠ R.PWR_STRETCH_STS → t.reg o = s.reg o)
  ∧ (∀ s : State, s.dev.up = true → s.is F.PWR_CTL_ENABLE = true →
    ∃ t, exec .lswRecognised s = .next t ∧ t.is F.PWR_STRETCH_STS_LSW = true ∧ t.is F.PWR_STRETCH_STS_FREEZE = true
      ∧ t.get F.PWR_STRETCH_STS_LSW_CNT = satAdd 16 (s.get F.PWR_STRETCH_STS_LSW_CNT) 1 ∧ t.pwr.lswHold = true
      ∧ (s.get F.PWR_CTL_LSW_RATIO = 2 → t.pwr.ratio ≤ 48) ∧ t.pins.lswN = false)
  ∧ (∀ s : State, s.pwr.lswHold = false →
    ∃ t, exec .lswNRelease s = .next t ∧ t.pins.lswN = true ∧ t.is F.PWR_STRETCH_STS_LSW = false)
  ∧ (∀ s : State, s.pwr.lswHold = true →
    ∃ t, exec .lswHoldExpiry s = .next t ∧ t.pwr.lswHold = false ∧ t.is F.PWR_STRETCH_STS_FREEZE = false
      ∧ t.get F.SPL_STS_LSW_DEFER = (if s.freezeHolds then satAdd 16 (s.get F.SPL_STS_LSW_DEFER) 1 else s.get F.SPL_STS_LSW_DEFER)
      ∧ (s.pins.lswN = true → t.is F.PWR_STRETCH_STS_LSW = false))
  ∧ (∀ s : State, s.dev.up = true → s.is F.PWR_CTL_ENABLE = true → s.pins.lswN = false →
    exec .lswStuck s = .next (faultEvent .pwr 2 0 s))
  ∧ (∀ (s : State) k, s.dev.up = true →
    ∃ t, exec (.rampGrant k) s = .next t ∧ t.get F.PWR_STRETCH_STS_RAMP_CNT = satAdd 16 (s.get F.PWR_STRETCH_STS_RAMP_CNT) 1
      ∧ t.out = s.out ++ [.rampGrant (rampCode k)] ∧ ∀ o, o ≠ R.PWR_STRETCH_STS → t.reg o = s.reg o)
  ∧ (∀ (s : State) tj, s.dev.up = true → tj < 120 →
    ∃ t, exec (.temperatureReading tj) s = .next t ∧ t.get F.PWR_THERM_TJ = tj
      ∧ (s.get F.PWR_THERM_LIMIT ≤ tj → t.is F.PWR_THERM_THERM = true ∧ t.pins.thermN = false)
      ∧ (tj + 3 ≤ s.get F.PWR_THERM_LIMIT → t.is F.PWR_THERM_THERM = false ∧ t.pins.thermN = true))
  ∧ (∀ s : State, s.cfg = 3 → s.dev.mode.serving = true →
    exec .heartbeatToggle s = .next { s with pins := { s.pins with hbOut := !s.pins.hbOut } })

/-- For FLASH_READ_DONE, ENTER_CONFIG, LATE_SECTION_LOADED, FLASH_OP_DONE, FLASH_OP_TIMEOUT, RESTART, KEY_PROGRAM and KEY_REVOKE:
from every state that meets the command's condition exec answers a next state, with the boot stage, the mode, the status bits
and the key slots as given. -/
def Obligations.BootResults : Prop :=
  (∀ s : State, s.dev.up = true → s.dev.mode = .boot → s.img.stage = .sfdp →
    exec (.flashReadDone (.sfdp true)) s = .next { s with img := { s.img with stage := .header } })
  ∧ (∀ s : State, s.dev.up = true → s.dev.mode = .boot → s.img.stage = .sfdp → s.img.copy = 0 → s.img.next = [1] →
    ∃ t, exec (.flashReadDone (.sfdp false)) s = .next t ∧ t.get F.IMG_STS_REASON_A = 9 ∧ t.img.stage = .sfdp ∧ t.img.copy = 1
      ∧ t.img.next = [])
  ∧ (∀ (s : State) h r, s.dev.up = true → s.dev.mode = .boot → s.img.stage = .header → s.headerFails h = some r →
    exec (.flashReadDone (.header h)) s = .next (copyFail r none s))
  ∧ (∀ (s : State) h, s.dev.up = true → s.dev.mode = .boot → s.img.stage = .header →
    ∃ t, exec (.flashReadDone (.header h)) s = .next t ∧ (s.headerFails h = none →
      t.img.stage = .early ∧ t.img.header = h ∧ t.img.secs = secsOf h ∧ t.regs = s.regs ∧ t.dev = s.dev))
  ∧ (∀ s : State, s.dev.up = true → s.dev.mode = .boot → s.img.stage = .done → s.hbm.training = false →
    ∃ t, exec .enterConfig s = .next t ∧ t.dev.mode = .config ∧ t.dev.cause = 3 ∧ t.mem = s.mem)
  ∧ (∀ (s : State) i b x, s.img.secs[i]? = some x → s.dev.mode.configured = true → i ∈ s.img.late →
    b.length ≠ x.length → ∃ t, exec (.lateSectionLoaded i b) s = .next t ∧ t.is F.IMG_STS_FW_ERR = true
      ∧ t.img.late = s.img.late.filter (fun j => j != i)
      ∧ t.is F.IMG_STS_FW_DONE = (s.img.late.filter fun j => j != i).isEmpty)
  ∧ (∀ (s : State) h bs, s.img.op = 1 ∨ s.img.op = 2 → ∃ t, exec (.flashOpDone false h bs) s = .next t ∧ t.img.op = 0
      ∧ t.is F.IMG_STS_BUSY = false ∧ t.is F.IMG_STS_OP_FAIL = false)
  ∧ (∀ (s : State) h bs, s.img.op ≠ 0 → ∃ t, exec (.flashOpDone true h bs) s = .next t ∧ t.img.op = 0
      ∧ t.is F.IMG_STS_BUSY = false ∧ t.is F.IMG_STS_OP_FAIL = true ∧ t.get F.IMG_STS_OP_REASON = 0x0C)
  ∧ (∀ s : State, s.img.op ≠ 0 → ∃ t, exec .flashOpTimeout s = .next t ∧ t.img.op = 0 ∧ t.is F.IMG_STS_BUSY = false
      ∧ t.is F.IMG_STS_OP_FAIL = true ∧ t.get F.IMG_STS_OP_REASON = 0x0C)
  ∧ (∀ (s : State) src, src < 3 → s.inHold = true → ∃ t, exec (.restart src) s = .next t ∧ t.dev.mode = .boot ∧ t.dev.cause = 13
      ∧ t.img.stage = .sfdp ∧ t.img.copy = src % 2 ∧ t.mem = [] ∧ t.hbm.training = true)
  ∧ (∀ (s : State) slot h, 1 ≤ slot → slot ≤ 3 → s.keysOpen = true → (s.keySlot slot).hash = none →
    exec (.keyProgram slot h) s = .next (s.setKey slot { s.keySlot slot with hash := some (.programmed h) }))
  ∧ (∀ (s : State) slot, slot ≤ 3 → s.keysOpen = true →
    (s.setKey slot { s.keySlot slot with revoked := true }).tt.keys.any (fun k => k.hash.isSome && !k.revoked) = true →
    exec (.keyRevoke slot) s = .next (s.setKey slot { s.keySlot slot with revoked := true }))
  ∧ (∀ (s : State) slot, slot ≤ 3 → s.keysOpen = true →
    (s.setKey slot { s.keySlot slot with revoked := true }).tt.keys.any (fun k => k.hash.isSome && !k.revoked) = false →
    exec (.keyRevoke slot) s = .next (s.emit .smbusNack))

/-- For STATUS, CTL_READ, CTL_WRITE, CONSISTENCY_CHECK_END and QUIESCE_DRAINED: the next state that exec answers. A command that
the target does not accept is NACKed and changes nothing else. -/
def Obligations.SmbusResults : Prop :=
  (∀ s : State, s.smbusOn = true → exec .status s = .next (s.emit (.smbus (toBytes 8 s.devMode.toNat ++ toBytes 8 (s.reg R.IMG_STS).toNat
    ++ toBytes 8 s.faultMap.toNat))))
  ∧ (∀ s : State, s.smbusOn = false → exec .status s = .next (s.emit .smbusNack))
  ∧ (∀ (s : State) off, s.smbusOn = true → off % 8 = 0 → ∃ t, exec (.ctlRead off) s = .next t
    ∧ (∀ v, (ctlRead .smbus off 64 s).2 = some v → t.out = (ctlRead .smbus off 64 s).1.out ++ [.smbus (toBytes 8 v.toNat)])
    ∧ ((ctlRead .smbus off 64 s).2 = none → t.out = (ctlRead .smbus off 64 s).1.out ++ [.smbusNack]))
  ∧ (∀ (s : State) off, s.smbusOn = false ∨ off % 8 ≠ 0 → exec (.ctlRead off) s = .next (s.emit .smbusNack))
  ∧ (∀ (s : State) off v, s.smbusOn = true → s.smbusReaches off = true →
    exec (.ctlWrite off v) s = .next (ctlWriteBy .smbus off v 64 s))
  ∧ (∀ (s : State) off v, s.smbusOn = false ∨ s.smbusReaches off = false → exec (.ctlWrite off v) s = .next (s.emit .smbusNack))
  ∧ (∀ (s : State) c rest x o, s.dev.up = true → s.checks = c :: rest → checkResult c { s with checks := rest } = some (x, o) →
    ∃ u, exec .consistencyCheckEnd s = .next (checkRefuse c x u) ∧ u.checks = rest)
  ∧ (∀ (s : State) c rest, s.dev.up = true → s.checks = c :: rest → checkResult c { s with checks := rest } = none →
    ∃ u, exec .consistencyCheckEnd s = .next (checkPass c u) ∧ u.checks = rest)
  ∧ (∀ s : State, s.dev.mode = .quiesce → s.drained = true → exec .quiesceDrained s = .next (s.put F.DEV_STS_DRAINED 1))

/-- For CONFIG_REQUEST, VF_ENABLE_WRITE, INITIATE_FLR, FLR_END, BUS_MASTER_ENABLE_CLEAR, BUS_MASTER_ENABLE_SET,
POWER_STATE_WRITE, MSIX_UNMASK, HOST_MEMORY_REQUEST, WINDOW_ACCESS and DOORBELL while the host link receives: the next state
that exec answers. -/
def Obligations.HostFunctionResults : Prop :=
  (∀ (s : State) r, s.hostRx = true → s.dev.mode = .boot → ∃ t, exec (.configRequest r) s = .next t
    ∧ t.out = s.out ++ [.tlp (.configCompletion r.fn r.tag true false 0)] ∧ t.fns = s.fns)
  ∧ (∀ (s : State) r, s.hostRx = true → s.dev.mode ≠ .boot → s.fnExists r.fn = false → s.get F.HEP_LINK_STS_PSTATE ≠ 2 →
    exec (.configRequest r) s = .next (s.emit (.tlp (.configCompletion r.fn r.tag false true 0))))
  ∧ (∀ (s : State) r, s.hostRx = true → s.dev.mode ≠ .boot → s.fnExists r.fn = true → s.get F.HEP_LINK_STS_PSTATE ≠ 2 → r.write = false →
    exec (.configRequest r) s = .next (hepTlp (.configCompletion r.fn r.tag false false (s.cfgRead r.fn (r.off / 4 * 4 % 4096)))
      (cfgReadDone r.fn (r.off / 4 * 4 % 4096) s)))
  ∧ (∀ (s : State) r, s.hostRx = true → s.dev.mode ≠ .boot → s.fnExists r.fn = true → s.get F.HEP_LINK_STS_PSTATE ≠ 2 → r.write = true →
    r.fn ≠ 0 → exec (.configRequest r) s = .next (hepTlp (.configCompletion r.fn r.tag false false 0)
      (cfgWrite r.fn (r.off / 4 * 4 % 4096) r.be r.data s)))
  ∧ (∀ (s : State) p, s.hostRx = true → 1 ≤ p → p < 8 → s.fnExists p = true → (s.fnOf p).vfe = false →
    ∃ t, exec (.vfEnableWrite p true) s = .next t ∧ (t.fnOf p).vfe = true ∧ t.mem = s.mem)
  ∧ (∀ (s : State) p, s.hostRx = true → 1 ≤ p → p < 8 → s.fnExists p = true → (s.fnOf p).vfe = true →
    exec (.vfEnableWrite p false) s = .next (vfsRemove p s))
  ∧ (∀ (s : State) f, s.hostRx = true → s.fnExists f = true → 8 ≤ f → exec (.initiateFlr f) s = .next (flrBegin f s))
  ∧ (∀ (s : State) f, s.hostRx = true → s.fnExists f = true → f < 8 → exec (.initiateFlr f) s = .next (vfsRemove f (flrBegin f s)))
  ∧ (∀ (s : State) f, (s.fnOf f).flr = true → f ≠ 0 → exec (.flrEnd f) s = .next (icuOfferAll (flrFinish f s)) ∧ (flrFinish f s).fnOf f = {}
    ∧ (flrFinish f s).get F.HEP_FLR_LOG_LAST_FN = f % 2 ^ 11)
  ∧ (∀ (s : State) f, s.hostRx = true → s.fnExists f = true → (s.fnOf f).bme = true →
    exec (.busMasterEnableClear f) s = .next (fnStop f (s.setFn f { s.fnOf f with bme := false })))
  ∧ (∀ (s : State) f, s.hostRx = true → s.fnExists f = true → (s.fnOf f).bme = false →
    exec (.busMasterEnableSet f) s = .next (fnGo f (s.setFn f { s.fnOf f with bme := true })))
  ∧ (∀ (s : State) f d3 e, s.hostRx = true → s.fnExists f = true →
    exec (.powerStateWrite f d3 e) s = .next (powerState f d3 (pmeEnWrite f e s)))
  ∧ (∀ (s : State) f k, s.hostRx = true → s.fnExists f = true → k ≤ s.fnMsix f →
    exec (.msixUnmask f (.entry k)) s
      = .next (msixPendGo f (s.setMsixE (s.msixBase f + k) { s.msixE (s.msixBase f + k) with masked := false })))
  ∧ (∀ (s : State) f, s.hostRx = true → s.fnExists f = true →
    exec (.msixUnmask f .function) s = .next (msixPendGo f (s.setFn f { s.fnOf f with msixMask := false })))
  ∧ (∀ (s : State) r, s.hostRx = true → s.get F.HEP_LINK_STS_PSTATE ≠ 2 → s.fnExists r.fn = true → s.barKind r.fn r.bar = none →
    exec (.hostMemoryRequest r) s = .next (hostUr r s))
  ∧ (∀ (s : State) r k, s.hostRx = true → s.get F.HEP_LINK_STS_PSTATE ≠ 2 → s.fnExists r.fn = true → s.barKind r.fn r.bar = some k →
    s.fnD3 r.fn = false → s.fnMse r.fn = true → (s.fnOf r.fn).flr = false → s.modeServes r k = true → r.kind < 2 →
    exec (.hostMemoryRequest r) s = .next (match k with
      | .control => hostControl r s
      | .page => hostPage r s
      | .window b => hostWindow r b s))
  ∧ (∀ (s : State) r b, s.hostRx = true → s.get F.HEP_LINK_STS_PSTATE ≠ 2 → s.fnExists r.fn = true → s.barKind r.fn r.bar = some (.window b) →
    s.fnD3 r.fn = false → s.fnMse r.fn = true → (s.fnOf r.fn).flr = false → s.modeServes r (.window b) = true → r.kind < 2 →
    exec (.windowAccess r) s = .next (hostWindow r b s))
  ∧ (∀ (s : State) f v, s.hostRx = true → exec (.doorbell f v) s
    = .next (hostMem { fn := f, bar := if f = 0 then 2 else 0, off := 0, kind := 1, len := 8, data := toBytes 8 v.toNat, tag := 0, poisoned := false, single := true } s))

/-- For PME_TURN_OFF, DL_DOWN, DL_UP, HOST_LINK_RECOVERY, L1_REQUEST, L0P_NARROW, L0P_WIDEN, TAG_ISSUE, HOST_COMPLETION,
COMPLETION_TIMEOUT and QUARANTINE_EXPIRY: the next state that exec answers where the command acts. -/
def Obligations.HostLinkResults : Prop :=
  (∀ s : State, s.hostRx = true → ∃ t, exec .pmeTurnOff s = .next t ∧ t.out = s.out ++ [.tlp .pmeToAck] ∧ t.get F.HEP_LINK_STS_PSTATE = 3
    ∧ ∀ o, o ≠ R.HEP_LINK_STS → t.reg o = s.reg o)
  ∧ (∀ s : State, s.is F.HEP_LINK_STS_UP = false → exec .dlDown s = .next s)
  ∧ (∀ s : State, s.is F.HEP_LINK_STS_UP = true → s.paired = false → ∃ u, exec .dlDown s
    = .next (dlFunctions (dlFlush false (dlTags false (hostForget (faultEvent .hep 1 0 u))))) ∧ u.is F.HEP_LINK_STS_UP = false
      ∧ u.get F.HEP_LINK_STS_DOWN_CNT = satAdd 8 (s.get F.HEP_LINK_STS_DOWN_CNT) 1 ∧ u.hep.training = true
      ∧ u.hep.recovery = false ∧ u.icu.inta = false)
  ∧ (∀ (s : State) sp w fl, s.is F.HEP_LINK_STS_UP = false → s.hep.training = true → s.hostTrains sp w = true →
    ∃ u : State, exec (.dlUp sp w fl) s = .next (pmeSend (intaSync (u.setOut 0 0))) ∧ u.is F.HEP_LINK_STS_UP = true
      ∧ u.get F.HEP_LINK_STS_SPEED = sp % 8 ∧ u.get F.HEP_LINK_STS_WIDTH = w % 32 ∧ u.is F.HEP_LINK_STS_FLIT = fl ∧ u.hep.training = false
      ∧ u.is F.CLK_STS_H_REFCLK_OK = true)
  ∧ (∀ (s : State) sp w, s.is F.HEP_LINK_STS_UP = true →
    exec (.hostLinkRecovery false sp w) s = .next { s with hep := { s.hep with recovery := true } })
  ∧ (∀ (s : State) sp w, s.is F.HEP_LINK_STS_UP = true → s.hep.recovery = true → s.hostTrains sp w = true →
    ∃ u, exec (.hostLinkRecovery true sp w) s = .next (pmeSend u) ∧ u.hep.recovery = false ∧ u.get F.HEP_LINK_STS_SPEED = sp % 8
      ∧ u.get F.HEP_LINK_STS_WIDTH = w % 32 ∧ u.is F.HEP_CTL_RETRAIN = false)
  ∧ (∀ s : State, s.cfg ≤ 1 → s.hostUp = true → s.get F.HEP_LINK_STS_PSTATE ≤ 1 → s.hostIdle = true → (s.fnOf 0).ltrEn = false →
    ∃ t, exec .l1Request s = .next t ∧ t.get F.HEP_LINK_STS_PSTATE = 2 ∧ t.hep.idle = true ∧ t.out = s.out
      ∧ ∀ o, o ≠ R.HEP_LINK_STS → t.reg o = s.reg o)
  ∧ (∀ s : State, s.cfg ≤ 1 → s.hostUp = true → s.is F.HEP_LINK_STS_FLIT = true → s.get F.HEP_LINK_STS_SPEED = 6 →
    s.is F.HEP_PM_CFG_L0P_EN = true → s.get F.HEP_LINK_STS_PSTATE ≤ 1 → 1 ≤ s.hostWidth / 2 →
    s.get F.HEP_PM_CFG_L0P_MIN_WIDTH ≤ s.hostWidth / 2 →
    exec .l0pNarrow s = .next (({ s with hep := { s.hep with l0pWidth := s.hostWidth / 2 } }.put F.HEP_LINK_STS_PSTATE 1).emit (.hostLane (s.hostWidth / 2))))
  ∧ (∀ s : State, s.hostUp = true → s.hep.l0pWidth ≠ 0 → s.get F.HEP_LINK_STS_PSTATE = 1 →
    ∃ t, exec .l0pWiden s = .next t ∧ t.hep.l0pWidth = 0 ∧ t.get F.HEP_LINK_STS_PSTATE = 0
      ∧ t.out = s.out ++ [.hostLane (s.get F.HEP_LINK_STS_WIDTH)])
  ∧ (∀ (s : State) k g, s.hostUp = true → s.tagNext k = some g → ∃ u, exec (.tagIssue k) s
      = .next (hepRequest (.memRead g.fn k g.addr g.len g.pasid) (tagPeak u)) ∧ u.hep.wait = s.hep.wait.erase g
      ∧ u.hep.tags = s.hep.tags ++ [{ fn := g.fn, tag := k, sent := s.dev.time, timeout := s.ctoTicks g.fn, f := g }] ∧ u.regs = s.regs)
  ∧ (∀ (s : State) f k o d a, s.hostRx = true → s.tagOf f k = none → exec (.hostCompletion f k o d a) s = .next (unexpected f s))
  ∧ (∀ (s : State) f k o d a e, s.hostRx = true → s.tagOf f k = some e → e.st = .inUse →
    exec (.hostCompletion f k o d a) s = .next (onTime e o d a s))
  ∧ (∀ (s : State) f k o d e, s.hostRx = true → s.tagOf f k = some e → e.st = .quarantined → e.heldDl = false → e.f.len ≤ o + d.length →
    exec (.hostCompletion f k o d .ok) s = .next (dropTag e ((s.bump F.HEP_LATE_CPL_LATE).put F.HEP_LATE_CPL_LAST_FN f)))
  ∧ (∀ (s : State) f k e, s.tagOf f k = some e → e.st = .inUse → ∃ u, exec (.completionTimeout f k) s
      = .next (failRead e.f.origin .timeout ((faultEvent .hep 0 (f + k * 2 ^ 16) u).emit (.aer f false "Completion Timeout")))
      ∧ u.get F.HEP_CTO_LOG_LAST_FN = f % 2 ^ 11 ∧ u.get F.HEP_CTO_LOG_COUNT = satAdd 32 (s.get F.HEP_CTO_LOG_COUNT) 1)
  ∧ (∀ (s : State) f k e, s.tagOf f k = some e → e.st ≠ .inUse → e.heldDl = false → exec (.quarantineExpiry f k) s = .next (dropTag e s))

/-- For GET_VERSION, GET_CAPABILITIES, NEGOTIATE_ALGORITHMS, GET_DIGESTS, GET_CERTIFICATE, CHALLENGE, GET_MEASUREMENTS and
DOE_DISCOVERY: while the responder answers, each request is answered in the same command by one object that the log records,
and nothing else leaves the device; the layouts of the objects and their codes are the model's (log entry 22), the signed and
random parts are free constants. -/
def Obligations.AttestationResults : Prop :=
  (∀ (s : State) req, s.doeOn = true → s.get F.HEP_LINK_STS_PSTATE ≠ 2 →
    exec (.getVersion req) s = .next (s.emit (.spdm 0x84 (toBytes 2 0x1200 ++ Config.spdmBody 0x84 req)))
    ∧ exec (.getCapabilities req) s
      = .next (s.emit (.spdm 0xE1 (toBytes 1 20 ++ toBytes 4 0x16 ++ toBytes 4 4096 ++ Config.spdmBody 0xE1 req)))
    ∧ exec (.negotiateAlgorithms req) s
      = .next (s.emit (.spdm 0xE3 (toBytes 1 1 ++ toBytes 4 0x80 ++ toBytes 4 2 ++ Config.spdmBody 0xE3 req)))
    ∧ exec (.getDigests req) s
      = .next (s.emit (.spdm 0x81 (toBytes 1 1 ++ toBytes 48 (Config.sha384 Config.spdmChain).toNat ++ Config.spdmBody 0x81 req)))
    ∧ exec (.challenge req) s = .next (s.emit (.spdm 0x83 (toBytes 48 (Config.sha384 Config.spdmChain).toNat
        ++ Config.spdmBody 0x83 (req ++ s.measurements)))))
  ∧ (∀ (s : State) off len, s.doeOn = true → s.get F.HEP_LINK_STS_PSTATE ≠ 2 →
    exec (.getCertificate off len) s = .next (s.emit (if Config.spdmChain.length ≤ off then .spdm 0x7F [1]
      else .spdm 0x82 (toBytes 2 ((Config.spdmChain.drop off).take (min len 4096)).length
        ++ toBytes 2 (Config.spdmChain.length - off - ((Config.spdmChain.drop off).take (min len 4096)).length)
        ++ (Config.spdmChain.drop off).take (min len 4096)))))
  ∧ (∀ (s : State) i req, s.doeOn = true → s.get F.HEP_LINK_STS_PSTATE ≠ 2 →
    exec (.getMeasurements 0 req) s = .next (s.emit (.spdm 0xE0 (toBytes 1 6 ++ Config.spdmBody 0xE0 req)))
    ∧ (1 ≤ i → i ≤ 6 → exec (.getMeasurements i req) s
        = .next (s.emit (.spdm 0xE0 (toBytes 1 1 ++ toBytes 1 i ++ s.measurement i ++ Config.spdmBody 0xE0 (req ++ s.measurement i)))))
    ∧ (6 < i → i ≠ 0xFF → exec (.getMeasurements i req) s = .next (s.emit (.spdm 0x7F [1]))))
  ∧ (∀ (s : State) i, s.doeOn = true → s.get F.HEP_LINK_STS_PSTATE ≠ 2 →
    exec (.doeDiscovery 0) s = .next (s.emit (.spdm 0 (toBytes 2 1 ++ toBytes 1 0 ++ toBytes 1 1)))
    ∧ exec (.doeDiscovery 1) s = .next (s.emit (.spdm 0 (toBytes 2 1 ++ toBytes 1 1 ++ toBytes 1 0)))
    ∧ (2 ≤ i → exec (.doeDiscovery i) s = .next (s.emit (.spdm 0 (toBytes 2 0xFFFF ++ toBytes 1 0 ++ toBytes 1 0)))))
  ∧ (∀ (s : State) req, s.doeOn = false → exec (.getVersion req) s = .next s ∧ exec (.challenge req) s = .next s
    ∧ exec (.getDigests req) s = .next s)

/-- For TABLE_WALK_DONE, TC_INV_DONE, PC_FLUSH_DONE, PREFETCH_LIFE_EXPIRY, TRANSLATION_COMPLETION, INVALIDATION_REQUEST,
INVALIDATION_COMPLETION, MIGRATE_PASS_END, MIGRATE_RELEASE and XLATE_UPDATE_DONE: the next state that exec answers where the
command acts. -/
def Obligations.WindowResults : Prop :=
  (∀ (s : State) k a, s.wxl.walks.find? (fun e => e.1 == k) = some (k, [a]) → s.hbmPoison (s.xtOff k) = false → s.wxl.walkWait = [] →
    ∃ u, exec (.tableWalkDone k .ok) s = .next (windowEntry a (a.win.getD 0) (some (s.xtE k)) (tcUse k (s.xtE k) u))
      ∧ u.wxl.walks = s.wxl.walks.filter (fun x => x.1 != k) ∧ u.xt = s.xt ∧ u.regs = s.regs)
  ∧ (∀ (s : State) k a, s.wxl.walks.find? (fun e => e.1 == k) = some (k, [a]) → s.wxl.walkWait = [] →
    ∃ u, exec (.tableWalkDone k .ue) s = .next (windowEntry a (a.win.getD 0) none (faultEvent .wxl 1 0 u)))
  ∧ (∀ s : State, s.is F.WXL_TC_INV_GO = true → ∃ t, exec .tcInvDone s = .next t ∧ t.is F.WXL_TC_INV_GO = false
    ∧ (s.get F.WXL_TC_INV_COUNT = 0 → t.wxl.tc = [])
    ∧ (∀ e ∈ t.wxl.tc, e ∈ s.wxl.tc ∧ ¬ (s.get F.WXL_TC_INV_FIRST ≤ e.1 ∧ e.1 < s.get F.WXL_TC_INV_FIRST + s.get F.WXL_TC_INV_COUNT))
    ∧ ∀ o, o ≠ R.WXL_TC_INV → t.reg o = s.reg o)
  ∧ (∀ s : State, s.is F.WXL_PC_FLUSH_GO = true → s.wxl.flushing = [] → exec .pcFlushDone s = .next (s.put F.WXL_PC_FLUSH_GO 0))
  ∧ (∀ s : State, s.is F.WXL_PC_FLUSH_GO = true → s.wxl.flushing ≠ [] → exec .pcFlushDone s = .next (flushMore s))
  ∧ (∀ (s : State) da, exec (.prefetchLifeExpiry da) s = .next (pfDiscard true (fun e => e.arrived && e.da == da) s))
  ∧ (∀ (s : State) f p g ad r w a, s.is F.HEP_LINK_STS_UP = true →
    s.wxl.atsWait.filter (fun e => e.1 == { fn := f, pasid := p, page := g, addr := 0, r := false, w := false })
      = [({ fn := f, pasid := p, page := g, addr := 0, r := false, w := false }, a)] →
    ∃ u, exec (.translationCompletion f p g ad r w true) s
      = .next (atsGo { fn := f, pasid := p, page := g, addr := ad, r := r, w := w } true a
          (atcKeep { fn := f, pasid := p, page := g, addr := ad, r := r, w := w } u)) ∧ u.regs = s.regs ∧ u.wxl.atc = s.wxl.atc)
  ∧ (∀ (s : State) f p g n k, s.is F.HEP_LINK_STS_UP = true → s.fnExists f = true → s.wxl.invals.length < 32 →
    ∃ t, exec (.invalidationRequest f p g n k) s = .next t ∧ t.wxl.invals = s.wxl.invals ++ [{ fn := f, itag := k, wait := s.fnRequests f }]
      ∧ t.regs = s.regs ∧ ∀ a ∈ t.wxl.atc, a ∈ s.wxl.atc ∧ ¬ (a.fn = f ∧ a.pasid = p ∧ g ≤ a.page ∧ a.page < g + n))
  ∧ (∀ (s : State) f k x, s.wxl.invals.find? (fun i => i.fn == f && i.itag == k) = some x → s.hostUp = true →
    x.wait.any (fun r => (s.fnRequests f).contains r) = false →
    exec (.invalidationCompletion f k) s
      = .next (hepTlp (.invalidationCompletion f k) { s with wxl := { s.wxl with invals := s.wxl.invals.erase x } }))
  ∧ (∀ (s : State) q m, s.migOf q = some m → m.hold = false → s.passOver q = true → ∃ k, exec (.migratePassEnd q) s
      = .next ((setMig k s).setQa q { s.qa q with relOff := 0, phase := .waiting }) ∧ k.copy = m.dirty ∧ k.dirty = [] ∧ k.pass = m.pass + 1
      ∧ (16 < m.dirty.length → m.further < 3 → k.hold = false ∧ k.further = m.further + 1)
      ∧ (m.dirty.length ≤ 16 ∨ 3 ≤ m.further → k.hold = true ∧ k.holdStart = s.dev.time))
  ∧ (∀ (s : State) q m, s.migOf q = some m → m.hold = true → s.passOver q = true → m.done = false → s.paired = false →
    exec (.migrateRelease q) s = .next (migFinish q m (migRetarget m s)))
  ∧ (∀ (s : State) q x, s.wxl.xlWaits.find? (fun x => x.q == q) = some x → s.pageBusy x.das = false →
    s.prl.unmirrored.any (fun i => i.q == q) = false → s.cget q C.OP_ACTIVE = 1 → s.opc q = 0x0B →
    exec (.xlateUpdateDone q) s = .next (qResume q (stopSettle q (finishOp q 0 0
      { s with wxl := { s.wxl with xlWaits := s.wxl.xlWaits.filter fun y => y.q != q } }))))

/-- For HBM_TRAINING_END, HBM_FILL_END, HBM_ACCESS, REFRESH_INTERVAL, HBM_TEMP_READING, ROW_TEST_END, PC_TEST_END, PATROL_SCRUB,
SELF_REFRESH_ENTRY, SELF_REFRESH_EXIT, SELF_REFRESH_PAIR_EXIT and DQ_RECALIBRATION_END: the next state that exec answers. A
write of HBM_ACCESS without a waiting frame leaves the written bytes at their offsets and every other byte as it was; a read
leaves all of HBM's bytes as they were and is answered by nobody (the access is the bridge's own). -/
def Obligations.HbmResults : Prop :=
  (∀ (s : State) m, s.dev.mode = .boot → s.hbm.training = true → ∃ t, exec (.hbmTrainingEnd m) s = .next t ∧ t.hbm.training = false
    ∧ t.get F.HBM_STS_TRAINED = m % 65536 ∧ (t.hbm.set.length < 32 → t.get F.HBM_STS_SET_N = t.hbm.set.length) ∧ t.mem = s.mem)
  ∧ (∀ s : State, s.dev.mode = .boot → s.hbm.training = false → s.hbm.filled = false →
    exec .hbmFillEnd s = .next (imgInstall { s with hbm := { s.hbm with filled := true, poison := [] }, mem := [] }))
  ∧ (∀ (s : State) r, r.write = true → r.off + r.data.length ≤ s.hbmCap → s.hbmPick true r.off = none → s.hbmReady r.off = true →
    s.hbm.out.contains (s.pcAt r.off) = false → ∃ t, exec (.hbmAccess r) s = .next t
      ∧ (∀ k, k < r.data.length → t.hbmByte (r.off + k) = r.data.getD k 0)
      ∧ ∀ a, a < r.off ∨ r.off + r.data.length ≤ a → t.hbmByte a = s.hbmByte a)
  ∧ (∀ (s : State) r, r.write = false → r.off + r.len ≤ s.hbmCap → s.hbmPick false r.off = none → s.hbmReady r.off = true →
    ∃ t, exec (.hbmAccess r) s = .next t ∧ t.mem = s.mem)
  ∧ (∀ (s : State) r f, s.hbmPick r.write r.off = some f → s.hbmReady r.off = true →
    r.off + (if r.write then r.data.length else r.len) ≤ s.hbmCap →
    exec (.hbmAccess r) s = .next (hbmServe f r.ecc { s with hbm := { s.hbm with wait := s.hbm.wait.erase f } }))
  ∧ (∀ s : State, s.hbm.training = false → s.hbm.set ≠ [] → s.inSr = false →
    exec .refreshInterval s = .next { s with hbm := { s.hbm with refreshes := s.hbm.refreshes + 1 } })
  ∧ (∀ (s : State) c, s.dev.up = true → c < 95 → ∃ t, exec (.hbmTempReading c) s = .next t ∧ t.get F.HBM_STS_TEMP = c
    ∧ (85 < c → t.hbm.hotRefresh = true) ∧ (c ≤ 82 → t.hbm.hotRefresh = false)
    ∧ (82 < c → c ≤ 85 → t.hbm.hotRefresh = (s.hbm.read && s.hbm.hotRefresh)))
  ∧ (∀ (s : State) c, s.dev.up = true → 95 ≤ c → ∃ u, exec (.hbmTempReading c) s = .next (faultEvent .hbm 5 0 u)
    ∧ u.get F.HBM_STS_TEMP = c % 256)
  ∧ (∀ (s : State) p b r c, s.hbm.rowTests = [(p, b, r, c)] →
    exec (.rowTestEnd p b r true) s = .next (untrackRow p b r (testDone .hbm c true { s with hbm := { s.hbm with rowTests := [] } })))
  ∧ (∀ (s : State) p, s.hbm.pcTests = [p] →
    exec (.pcTestEnd p false) s = .next (hbmRetire p (testDone .hbm 3 false { s with hbm := { s.hbm with pcTests := [] } })))
  ∧ (∀ (s : State) o, s.get F.HBM_SCRUB_CFG_PERIOD_H ≠ 0 → s.inSr = false → s.hbm.filled = true → s.hbm.scrubPos ≤ o → o < s.hbmCap →
    exec (.patrolScrub o .ok) s = .next { s with hbm := { s.hbm with scrubPos := if s.hbmCap ≤ (o / 8 + 1) * 8 then 0 else (o / 8 + 1) * 8 } })
  ∧ (∀ s : State, s.cfg ≤ 1 → s.get F.HBM_SR_CFG_IDLE_US ≠ 0 → s.dev.mode.serving = true → s.inSr = false → s.hbm.wait = [] →
    s.queuedTo 2 = 0 → s.hbm.rowTests = [] → s.hbm.pcTests = [] → s.hbm.set ≠ [] →
    ∃ t, exec .selfRefreshEntry s = .next t ∧ t.inSr = true ∧ t.hbm.sr = s.hbm.set ∧ t.mem = s.mem
      ∧ t.get F.HBM_PM_STS_SR_ENTRIES = satAdd 16 (s.get F.HBM_PM_STS_SR_ENTRIES) 1)
  ∧ (∀ s : State, s.inSr = true → s.hbm.exiting = false → s.hbm.wait ≠ [] → s.recalDue = true →
    ∃ t, exec .selfRefreshExit s = .next t ∧ t.hbm.exiting = true ∧ t.hbm.recal = s.hbm.set ∧ t.hbm.exitStart = s.dev.time
      ∧ t.get F.HBM_PM_STS_RECALS = satAdd 16 (s.get F.HBM_PM_STS_RECALS) 1)
  ∧ (∀ s : State, s.inSr = true → s.hbm.exiting = false → s.hbm.wait ≠ [] → s.recalDue = false →
    ∃ t, exec .selfRefreshExit s = .next t ∧ t.hbm.exiting = true ∧ t.hbm.recal = [] ∧ t.regs = s.regs)
  ∧ (∀ (s : State) k p, s.hbm.set[k]? = some p → s.hbm.exiting = true → s.hbm.sr.head? = some p → k % 2 = 0 →
    exec (.selfRefreshPairExit k) s = .next (srDone { s with hbm := { s.hbm with sr := s.hbm.sr.drop 2 } }))
  ∧ (∀ (s : State) p, s.hbm.exiting = true → s.hbm.recal.contains p = true → s.hbm.sr.contains p = false →
    exec (.dqRecalibrationEnd p true) s = .next (srDone { s with hbm := { s.hbm with recal := s.hbm.recal.erase p } })
    ∧ exec (.dqRecalibrationEnd p false) s = .next (srDone (pcTestStart p { s with hbm := { s.hbm with recal := s.hbm.recal.erase p } })))
  ∧ (∀ s : State, s.hbm.exiting = true → s.hbm.sr = [] → s.hbm.recal = [] → (srDone s).hbm.exiting = false ∧ (srDone s).inSr = false)

/-- For CONTEXT_LOADED, DESCRIPTOR_FETCHED, OPERATION_START, COMPLETION_RECORD_WRITE and CQ_MODERATION_EXPIRY: the next state
that exec answers where the command acts, for the fetch that failed, the CQ that is full and the CQ that is gone as well. -/
def Obligations.QueueResults : Prop :=
  (∀ (s : State) q a t, (s.qen.loads.take 1024).find? (fun e => e.1 == q) = some (q, [a]) → ctxRoom q a.pre s = some t →
    (List.range 16).any (fun j => s.hbmPoison (s.ctxOff q + 8 * j)) = false →
    ∃ u, exec (.contextLoaded q .ok) s = .next (fetchTry q (qResume q (qRun q a (ctxTouch q u))))
      ∧ u.qen.loads = t.qen.loads.filter (fun x => x.1 != q) ∧ u.ctx = t.ctx ∧ u.regs = t.regs)
  ∧ (∀ (s : State) q d, (s.qa q).fetchAns = some (.ok, d) → (s.qa q).fetchDrop = false → ∃ u, exec (.descriptorFetched q) s
      = .next (fetchTry q u) ∧ (u.qa q).fetched = (s.qa q).fetched ++ descs (s.qa q).fetchOut d ∧ (u.qa q).fetchAns = none
      ∧ (u.qa q).fetchOut = 0 ∧ u.regs = s.regs ∧ u.ctx = s.ctx)
  ∧ (∀ (s : State) q d, (s.qa q).fetchAns = some (.timeout, d) → (s.qa q).fetchDrop = false → ∃ u, exec (.descriptorFetched q) s
      = .next (qEnd q (queueFail q (ansStatus .timeout) u)) ∧ (u.qa q).fetchAns = none ∧ u.regs = s.regs)
  ∧ (∀ (s : State) q d r, s.mayStart q = true → s.cached q = true → s.cached (s.cget q C.CQ) = true → (s.qa q).fetched = d :: r →
    s.isCq (s.cget q C.CQ) = true → s.qst (s.cget q C.CQ) = 1 → s.cqFree (s.cget q C.CQ) ≠ 0 → s.pinFull q = false →
    ∃ u, exec (.operationStart q) s = .next (fetchTry q (qEnd q (opStart q d (ctxTouch q (ctxTouch (s.cget q C.CQ) u)))))
      ∧ u.qen.pinWait = s.qen.pinWait.filter (fun x => x != q) ∧ u.regs = s.regs ∧ u.ctx = s.ctx)
  ∧ (∀ (s : State) q d r, s.mayStart q = true → s.cached q = true → s.cached (s.cget q C.CQ) = true → (s.qa q).fetched = d :: r →
    s.isCq (s.cget q C.CQ) = true → s.qst (s.cget q C.CQ) = 1 → s.cqFree (s.cget q C.CQ) = 0 → (s.qa q).slotWait = false →
    exec (.operationStart q) s = .next ((s.setQa q { s.qa q with slotWait := true }).bump F.QEN_STS_CQ_FULL_WAIT))
  ∧ (∀ (s : State) q d, s.cget q C.CQ ≠ q → ∃ u, opStart q d s = opBegin q (mirror (s.cget q C.CQ) false (mirror q false u))
    ∧ (u.qa q).phase = .idle ∧ (u.qa q).fetched = (s.qa q).fetched.drop 1 ∧ u.regs = s.regs)
  ∧ (∀ (s : State) q r v, (s.qa q).held = some r → s.dev.mode.serving = true → s.owns (s.cget q C.ENV) = true → s.lagOf q = 0 →
    s.cached q = true → s.cached (s.cget q C.CQ) = true → s.isCq (s.cget q C.CQ) = true →
    s.cget (s.cget q C.CQ) C.GEN = s.cget q C.CQ_GEN → s.qst (s.cget q C.CQ) = 1 → s.recordAhead (s.cget q C.CQ) r = false →
    s.daCheck false (s.cget q C.ENV) true (s.ringDa (s.cget q C.CQ) + 32 * (s.cget (s.cget q C.CQ) C.TAIL % s.ringN (s.cget q C.CQ))) 32 = .ok v →
    exec (.completionRecordWrite q) s = .next (fetchTry q (qEnd q (recordPut q (s.cget q C.CQ) r (cqLookup q (s.cget q C.CQ) s)))))
  ∧ (∀ (s : State) q r, (s.qa q).held = some r → s.dev.mode.serving = true → s.owns (s.cget q C.ENV) = true → s.lagOf q = 0 →
    s.cached q = true → s.cached (s.cget q C.CQ) = true → s.cget (s.cget q C.CQ) C.GEN ≠ s.cget q C.CQ_GEN →
    exec (.completionRecordWrite q) s = .next (qEnd q (queueFail q 0x0D s)))
  ∧ (∀ (s : State) q, (s.qa q).modTimer = true → s.isCq q = true → s.dev.mode.serving = true → 0 < s.cget q C.PENDING → s.cget q C.IRQ_EN = 1 →
    ∃ u, exec (.cqModerationExpiry q) s = .next (mirror q false (cqEvent q u)) ∧ (u.qa q).modTimer = false ∧ u.regs = s.regs)

/-- For STEP_RELEASE, STEP_BOUNDARY, MOVER_PIPE_ERROR and the begin of a released step of COPY, FILL, CHECK, COPY_CHECK, SCRUB,
MIGRATE, MULTICAST_WRITE and ATOMIC: the next state that exec answers. -/
def Obligations.StepResults : Prop :=
  (∀ (s : State) p row q, s.dev.mode.running = true → s.is F.SPL_CTL_ENABLE = true → s.pathOpen p = true →
    s.pickRelease p (s.waiters p) = some (row, q) → s.opc q ≠ 0x0E →
    exec (.stepRelease p) s = .next (doRelease p row q (passNote (s.cget q C.ENV) (s.waiters p) (lagNote p s))))
  ∧ (∀ (s : State) p, s.dev.mode.running = true → s.is F.SPL_CTL_ENABLE = true → s.pathOpen p = true →
    s.pickRelease p (s.waiters p) = none → s.is F.PWR_STRETCH_STS_FREEZE = false → exec (.stepRelease p) s = .next (lagNote p s))
  ∧ (∀ (s : State) q, s.dev.mode.serving = true → s.opc q ≠ 0x08 → exec (.stepBoundary q) s = .next (qEnd q (boundary q s)))
  ∧ (∀ (s : State) p, s.qen.pipes.contains p = true → testModes s.dev.mode = true → s.qaux = [] →
    ∃ t, exec (.moverPipeError p) s = .next t ∧ p ∈ t.qen.ptest ∧ t.qen.pipes = s.qen.pipes ∧ t.qaux = [])
  ∧ (∀ (s : State) q r p, s.cget q C.OP_ACTIVE = 1 → s.dev.mode.serving = true → s.beginable q = some (r, p) →
    (s.opc q = 0x01 → exec (.copy q) s = .next (srcReads q [(beginStep r p s).df q 2 0 48] (beginStep r p s)))
    ∧ (s.opc q = 0x02 → exec (.fill q) s = .next (fillWrites q (beginStep r p s)))
    ∧ (s.opc q = 0x03 → exec (.check q) s = .next (srcReads q [] (beginStep r p s)))
    ∧ (s.opc q = 0x04 → exec (.copyCheck q) s = .next (srcReads q [(beginStep r p s).df q 2 0 48] (beginStep r p s)))
    ∧ (s.opc q = 0x05 → exec (.scrub q) s = .next (scrubReads q (beginStep r p s)))
    ∧ (s.opc q = 0x06 → (s.qa q).phase ≠ .ctl → exec (.migrate q) s = .next (migReads q (beginStep r p s)))
    ∧ (s.opc q = 0x07 → (s.qa q).phase ≠ .ctl → exec (.multicastWrite q) s = .next (srcReads q
        (((beginStep r p s).mcAlive q).map (mcDst ((beginStep r p s).qa q).list)) (beginStep r p s)))
    ∧ (s.opc q = 0x08 → (s.qa q).step.on = false → exec (.atomic q) s = .next (atomBegin q (beginStep r p s))))
  ∧ (∀ (s : State) q, s.opc q = 0x07 → s.cget q C.OP_ACTIVE = 1 → (s.qa q).phase = .ctl → s.sqRuns q = true → s.qenRuns = true →
    (s.listSt q = .ask → exec (.multicastWrite q) s = .next (listRead q (8 * s.df q 0 8 4) s))
    ∧ (∀ st, s.listSt q = .bad st → exec (.multicastWrite q) s = .next (qEnd q (finishOp q st 0 s)))
    ∧ (s.listSt q = .here → s.mcCheck q = none →
        exec (.multicastWrite q) s = .next (s.setQa q { s.qa q with phase := .waiting, relOff := s.cget q C.CK_BYTES })))
  ∧ (∀ (s : State) q, s.opc q = 0x08 → (s.qa q).step.on = true → (s.qa q).atomMark = true → (s.qa q).atomSent = false →
    s.dev.mode.serving = true → s.prl.unmirrored.any (fun i => i.q == q) = false → exec (.atomic q) s = .next (atomSend q s))

/-- For FENCE, FENCE_COMPLETE, NOTIFY, XLATE_UPDATE, ABORT, CTX_PREFETCH, SERVICE_CALL and NOP on a queue whose released
operation they are: the next state that exec answers, for the operation that a check of its own ends as well. -/
def Obligations.ControlOpResults : Prop :=
  (∀ (s : State) q, s.ctlReady 0x09 q = true → s.wxlWaits (s.cget q C.ENV) = false →
    (∀ st, s.fencePort q = some st → exec (.fence q) s = .next (opDone q st s))
    ∧ (s.fencePort q = none → s.df q 0 16 1 = 0 → exec (.fence q) s = .next (fenceFlush q (s.setQa q
        { s.qa q with phase := .ctl, fence := s.envWrites (s.cget q C.ENV) (s.fenceOuts q), fenceLines := [] }))))
  ∧ (∀ (s : State) q, s.ctlWaits 0x09 q = true → ((fenceFlush q s).qa q).fenceLines = [] → ((fenceFlush q s).qa q).fence = [] →
    exec (.fenceComplete q) s = .next (opDone q 0 (fenceFlush q s)))
  ∧ (∀ (s : State) q, s.ctlReady 0x0A q = true →
    (∀ st, s.notifyCheck q = some st → exec (.notify q) s = .next (opDone q st s))
    ∧ (s.notifyCheck q = none → s.df q 0 8 1 = 1 → exec (.notify q) s = .next (notifyPartner q s))
    ∧ (s.notifyCheck q = none → s.df q 0 8 1 = 0 → s.ownWrites q = false →
        exec (.notify q) s = .next (opDone q 0 (hpEvent (s.df q 1 0 11) (s.df q 1 16 11) s))))
  ∧ (∀ (s : State) q, (s.ctlReady 0x0B q = true → exec (.xlateUpdate q) s = .next (listRead q (16 * s.df q 0 8 7) s))
    ∧ (s.ctlReady 0x0B q = false → s.ctlWaits 0x0B q = true → s.wxl.xlWaits = [] → s.listSt q = .here →
        (s.xlCheck q = none → exec (.xlateUpdate q) s = .next (xlApply q s))
        ∧ ∀ st, s.xlCheck q = some st → exec (.xlateUpdate q) s = .next (opDone q st s)))
  ∧ (∀ (s : State) q, s.ctlReady 0x0C q = true →
    (s.abortCheck q = none → exec (.abort q) s = .next (opDone q 0 (abortOp (s.df q 1 0 22) s)))
    ∧ ∀ st, s.abortCheck q = some st → exec (.abort q) s = .next (opDone q st s))
  ∧ (∀ (s : State) q, (s.ctlReady 0x0D q = true → exec (.ctxPrefetch q) s = .next (listRead q (4 * s.df q 0 16 11) s))
    ∧ (s.ctlReady 0x0D q = false → s.ctlWaits 0x0D q = true → s.listSt q = .here → (s.pfList q).any (fun e => e.2 != 0) = true →
        exec (.ctxPrefetch q) s = .next (opDone q 0x0B s))
    ∧ (s.ctlReady 0x0D q = false → s.ctlWaits 0x0D q = true → s.listSt q = .here → s.pfList q = [] → (s.qa q).asked = true →
        (s.qa q).loads = [] → exec (.ctxPrefetch q) s = .next (opDone q 0 s)))
  ∧ (∀ (s : State) q, s.ctlReady 0x0E q = true →
    (s.callCheck q = none → exec (.serviceCall q) s = .next (s.setQa q { s.qa q with phase := .ctl }))
    ∧ ∀ st, s.callCheck q = some st → exec (.serviceCall q) s = .next (opDone q st s))
  ∧ (∀ (s : State) q, s.ctlReady 0x0F q = true → exec (.nop q) s = .next (opDone q 0 s))
  ∧ (∀ (s : State) q, s.ctlReady 0x0F q = false → exec (.nop q) s = .next s)

/-- For PWR_ENABLE, WXL_ENABLE, QEN_ENABLE, ICU_ENABLE, HBM_ENABLE, HEP_ENABLE, GDC_ENABLE, SPL_ENABLE, SWC_ENABLE and TAIL_EN:
if the write is taken (Takes: the agent may write, the register exists and is reached, nothing that R8 names refuses it) and
the bit was 0, the next state has the register stored and the enable check queued once; the bit itself rises only when the
check passes (R71). -/
def Obligations.BlockEnableResults : Prop :=
  (∀ (s : State) (a : Agent) (v : Word) r, s.Takes a .pwr R.PWR_CTL r (withField v 0 1 1) → fieldOf (s.reg R.PWR_CTL) 0 1 = 0 →
    exec (.pwrEnable a v) s = .next (pushOnce R.PWR_CTL (withField v 0 1 1) (some 0) (s.stored .pwr R.PWR_CTL r (withField v 0 1 1))))
  ∧ (∀ (s : State) (a : Agent) (v : Word) r, s.Takes a .wxl R.WXL_CTL r (withField v 0 1 1) → fieldOf (s.reg R.WXL_CTL) 0 1 = 0 →
    exec (.wxlEnable a v) s = .next (pushOnce R.WXL_CTL (withField v 0 1 1) (some 0) (s.stored .wxl R.WXL_CTL r (withField v 0 1 1))))
  ∧ (∀ (s : State) (a : Agent) (v : Word) r, s.Takes a .qen R.QEN_CTL r (withField v 0 1 1) → fieldOf (s.reg R.QEN_CTL) 0 1 = 0 →
    exec (.qenEnable a v) s = .next (pushOnce R.QEN_CTL (withField v 0 1 1) (some 0) (s.stored .qen R.QEN_CTL r (withField v 0 1 1))))
  ∧ (∀ (s : State) (a : Agent) (v : Word) r, s.Takes a .icu R.ICU_CTL r (withField v 0 1 1) → fieldOf (s.reg R.ICU_CTL) 0 1 = 0 →
    exec (.icuEnable a v) s = .next (pushOnce R.ICU_CTL (withField v 0 1 1) (some 0) (s.stored .icu R.ICU_CTL r (withField v 0 1 1))))
  ∧ (∀ (s : State) (a : Agent) (v : Word) r, s.Takes a .hbm Blk.hbm.base r (withField v 0 1 1) → fieldOf (s.reg Blk.hbm.base) 0 1 = 0 →
    exec (.hbmEnable a v) s = .next (pushOnce Blk.hbm.base (withField v 0 1 1) (some 0) (s.stored .hbm Blk.hbm.base r (withField v 0 1 1))))
  ∧ (∀ (s : State) (a : Agent) (v : Word) r, s.Takes a .hep R.HEP_CTL r (withField v 0 1 1) → fieldOf (s.reg R.HEP_CTL) 0 1 = 0 → fieldOf (withField v 0 1 1) 1 1 = 0 →
    exec (.hepEnable a v) s = .next (pushOnce R.HEP_CTL (withField v 0 1 1) (some 0) (s.stored .hep R.HEP_CTL r (withField v 0 1 1))))
  ∧ (∀ (s : State) (a : Agent) (v : Word) r, s.Takes a .gdc R.GDC_CTL r v → fieldOf (s.reg R.GDC_CTL) 0 1 = 0 → fieldOf v 0 1 = 1 →
    exec (.gdcEnable a v) s = .next (pushOnce R.GDC_CTL v (some 0) (s.stored .gdc R.GDC_CTL r v)))
  ∧ (∀ (s : State) (a : Agent) (v : Word) r, s.Takes a .spl R.SPL_CTL r (withField v 0 1 1) → fieldOf (s.reg R.SPL_CTL) 0 1 = 0 → fieldOf (withField v 0 1 1) 2 1 = fieldOf (s.reg R.SPL_CTL) 2 1 → fieldOf (withField v 0 1 1) 3 1 = 0 →
    exec (.splEnable a v) s = .next (pushOnce R.SPL_CTL (withField v 0 1 1) (some 0) (s.stored .spl R.SPL_CTL r (withField v 0 1 1))))
  ∧ (∀ (s : State) (a : Agent) (v : Word) r, s.Takes a .swc R.SWC_CTL r (withField v 0 1 1) → fieldOf (s.reg R.SWC_CTL) 0 1 = 0 → fieldOf (withField v 0 1 1) 1 1 = fieldOf (s.reg R.SWC_CTL) 1 1 →
    exec (.swcEnable a v) s = .next (pushOnce R.SWC_CTL (withField v 0 1 1) (some 0) (s.stored .swc R.SWC_CTL r (withField v 0 1 1))))
  ∧ (∀ (s : State) (a : Agent) (v : Word) r, s.Takes a .swc R.SWC_CTL r v → fieldOf v 0 1 = fieldOf (s.reg R.SWC_CTL) 0 1 → fieldOf (s.reg R.SWC_CTL) 1 1 = 0 → fieldOf v 1 1 = 1 →
    exec (.tailEn a v) s = .next (pushOnce R.SWC_CTL v (some 1) (s.stored .swc R.SWC_CTL r v)))

/-- For PRL_ENABLE, PAIR_EN, INBOUND_WINDOW_ENABLE, OUTBOUND_WINDOW_ENABLE, ENVELOPE_RANGE_ENABLE, SOURCE_ENABLE, CORE_ENABLE,
PORT_ENABLE and ENVELOPE_DEFINE: if the write is taken (Takes: the agent may write, the register exists and is reached,
nothing that R8 names refuses it) and the bit was 0, the next state has the register stored and the enable check queued once.
PORT_ENABLE of port 6 is the write of PRL_CTL. -/
def Obligations.IndexedEnableResults : Prop :=
  (∀ (s : State) (a : Agent) (v : Word) r, s.Takes a .prl R.PRL_CTL r (withField v 0 1 1) → fieldOf (s.reg R.PRL_CTL) 0 1 = 0 → fieldOf (withField v 0 1 1) 1 1 = 0 → fieldOf (withField v 0 1 1) 3 1 = 0 → fieldOf (withField v 0 1 1) 4 1 = 0 → fieldOf (withField v 0 1 1) 2 1 = fieldOf (s.reg R.PRL_CTL) 2 1 →
    exec (.prlEnable a v) s = .next (pushOnce R.PRL_CTL (withField v 0 1 1) (some 0) (s.stored .prl R.PRL_CTL r (withField v 0 1 1))))
  ∧ (∀ (s : State) (a : Agent) (v : Word) r, s.Takes a .prl R.PRL_CTL r v → fieldOf v 1 1 = 0 → fieldOf v 3 1 = 0 → fieldOf v 4 1 = 0 → fieldOf v 0 1 = fieldOf (s.reg R.PRL_CTL) 0 1 → fieldOf (s.reg R.PRL_CTL) 2 1 = 0 → fieldOf v 2 1 = 1 → (s.stored .prl R.PRL_CTL r v).flits 6 = false →
    exec (.pairEn a v) s = .next (pushOnce R.PRL_CTL v (some 2) (s.stored .prl R.PRL_CTL r v)))
  ∧ (∀ (s : State) (a : Agent) (w : Nat) (v : Word) r, w < 4096 → s.Takes a .wxl (R.WXL_IWIN_CTL w) r v → fieldOf (s.reg (R.WXL_IWIN_CTL w)) 0 1 = 0 → fieldOf v 0 1 = 1 →
    exec (.inboundWindowEnable a w v) s = .next (pushOnce (R.WXL_IWIN_CTL w) v (some 0) (s.stored .wxl (R.WXL_IWIN_CTL w) r v)))
  ∧ (∀ (s : State) (a : Agent) (m : Nat) (v : Word) r, m < 4096 → s.Takes a .wxl (R.WXL_OWIN_CTL m) r v → fieldOf (s.reg (R.WXL_OWIN_CTL m)) 0 1 = 0 → fieldOf v 0 1 = 1 →
    exec (.outboundWindowEnable a m v) s = .next (pushOnce (R.WXL_OWIN_CTL m) v (some 0) (s.stored .wxl (R.WXL_OWIN_CTL m) r v)))
  ∧ (∀ (s : State) (a : Agent) (g : Nat) (v : Word) r, g < 8192 → s.Takes a .wxl (R.WXL_ERNG_CTL g) r v → fieldOf (s.reg (R.WXL_ERNG_CTL g)) 0 1 = 0 → fieldOf v 0 1 = 1 →
    exec (.envelopeRangeEnable a g v) s = .next (pushOnce (R.WXL_ERNG_CTL g) v (some 0) (s.stored .wxl (R.WXL_ERNG_CTL g) r v)))
  ∧ (∀ (s : State) (a : Agent) (n : Nat) (v : Word) r, n < 1024 → s.Takes a .icu (R.ICU_SRC_CFG n) r v → fieldOf (s.reg (R.ICU_SRC_CFG n)) 0 1 = 0 → fieldOf v 0 1 = 1 →
    exec (.sourceEnable a n v) s = .next (pushOnce ((R.ICU_SRC_CFG n)) (s.shaped .icu (0x10000 + 8 * n) v) (some 0) (icuCfg n (s.reg (R.ICU_SRC_CFG n)) (s.stored .icu ((R.ICU_SRC_CFG n)) r (s.shaped .icu (0x10000 + 8 * n) v)))))
  ∧ (∀ (s : State) (a : Agent) (c : Nat) (v : Word) r, c < 8 → s.Takes a .gdc (R.GDC_CORE_CTL c) r v → fieldOf (s.reg (R.GDC_CORE_CTL c)) 0 1 = 0 → fieldOf v 0 1 = 1 → fieldOf v 1 1 = 0 →
    exec (.coreEnable a c v) s = .next (pushOnce (R.GDC_CORE_CTL c) v (some 0) (s.stored .gdc (R.GDC_CORE_CTL c) r v)))
  ∧ (∀ (s : State) (a : Agent) (p : Nat) (v : Word) r, p < 6 → s.Takes a (.lp p) (R.LPn_CTL p) r v → fieldOf (s.reg (R.LPn_CTL p)) 0 1 = 0 → fieldOf v 0 1 = 1 → fieldOf v 1 1 = fieldOf (s.reg (R.LPn_CTL p)) 1 1 →
    exec (.portEnable a p v) s = .next (pushOnce (R.LPn_CTL p) v (some 0) (s.stored (.lp p) (R.LPn_CTL p) r v)))
  ∧ (∀ (s : State) (a : Agent) (e : Nat) (v : Word) r, e < 1024 → s.Takes a .spl (R.ENV_CFG e) r (withField v 0 1 1) → fieldOf (s.reg (R.ENV_CFG e)) 0 1 = 0 →
    exec (.envelopeDefine a e v) s = .next (pushOnce (R.ENV_CFG e) (withField v 0 1 1) (some 0) (s.stored .spl (R.ENV_CFG e) r (withField v 0 1 1))))
  ∧ (∀ (s : State) (a : Agent) (v : Word), exec (.portEnable a 6 v) s = .next (ctlWriteBy a R.PRL_CTL v 64 s))

/-- For ERASE, PROGRAM, VERIFY, HOST_LINK_RETRAIN, TC_INV, WRITE_BACK, WRITE_BACK_INVALIDATE, SEDISCARD_CLEAR, PF_CFG_WRITE,
TAIL_SEL_WRITE, SPL_STEP_WRITE (stored at once while SPL is disabled, checked first while it is enabled), CAL_FREEZE and
CAL_RESTART: if the write is taken (Takes: the agent may write, the register exists and is reached, nothing that R8 names
refuses it), the next state is the one given. -/
def Obligations.CommandRegisterResults : Prop :=
  (∀ (s : State) (a : Agent) (v : Word) r, s.Takes a .img R.IMG_CTL r (withField v 8 2 1) →
    exec (.erase a v) s = .next (imgOp 1 (s.stored .img R.IMG_CTL r (withField v 8 2 1))))
  ∧ (∀ (s : State) (a : Agent) (v : Word) r, s.Takes a .img R.IMG_CTL r (withField v 8 2 2) →
    exec (.program a v) s = .next (imgOp 2 (s.stored .img R.IMG_CTL r (withField v 8 2 2))))
  ∧ (∀ (s : State) (a : Agent) (v : Word) r, s.Takes a .img R.IMG_CTL r (withField v 8 2 3) →
    exec (.verify a v) s = .next (imgOp 3 (s.stored .img R.IMG_CTL r (withField v 8 2 3))))
  ∧ (∀ (s : State) (a : Agent) (v : Word) r, s.Takes a .hep R.HEP_CTL r (withField v 1 1 1) → fieldOf (s.reg R.HEP_CTL) 1 1 = 0 → fieldOf (withField v 1 1 1) 0 1 = fieldOf (s.reg R.HEP_CTL) 0 1 →
    exec (.hostLinkRetrain a v) s = .next (hostRetrain (s.stored .hep R.HEP_CTL r (withField v 1 1 1))))
  ∧ (∀ (s : State) (a : Agent) (v : Word) r, s.Takes a .wxl R.WXL_TC_INV r (withField v 63 1 1) →
    exec (.tcInv a v) s = .next ((s.stored .wxl R.WXL_TC_INV r (withField v 63 1 1))))
  ∧ (∀ (s : State) (a : Agent) (v : Word) r, s.Takes a .wxl R.WXL_PC_FLUSH r (withField (withField v 11 2 1) 63 1 1) →
    exec (.writeBack a v) s = .next (flushStart (s.stored .wxl R.WXL_PC_FLUSH r (withField (withField v 11 2 1) 63 1 1))))
  ∧ (∀ (s : State) (a : Agent) (v : Word) r, s.Takes a .wxl R.WXL_PC_FLUSH r (withField (withField v 11 2 2) 63 1 1) →
    exec (.writeBackInvalidate a v) s = .next (flushStart (s.stored .wxl R.WXL_PC_FLUSH r (withField (withField v 11 2 2) 63 1 1))))
  ∧ (∀ (s : State) (a : Agent) (v : Word) r, s.Takes a .wxl R.WXL_SEDISCARD_STS r (v ||| BitVec.ofNat 64 (2 ^ F.WXL_SEDISCARD_STS_CLEAR.lo)) →
    exec (.sediscardClear a v) s = .next (sediscardClr (s.stored .wxl R.WXL_SEDISCARD_STS r (v ||| BitVec.ofNat 64 (2 ^ F.WXL_SEDISCARD_STS_CLEAR.lo)))))
  ∧ (∀ (s : State) (a : Agent) (v : Word) r, s.Takes a .wxl R.WXL_PF_CFG r v →
    exec (.pfCfgWrite a v) s = .next (retrainAll (s.stored .wxl R.WXL_PF_CFG r v)))
  ∧ (∀ (s : State) (a : Agent) (p : Nat) (v : Word) r, p < 11 → s.Takes a .swc (R.SWC_TAIL_SEL p) r v →
    exec (.tailSelWrite a p v) s = .next ((s.stored .swc (R.SWC_TAIL_SEL p) r v)))
  ∧ (∀ (s : State) (a : Agent) (v : Word) r, s.Takes a .spl R.SPL_STEP r v → s.is F.SPL_CTL_ENABLE = false →
    exec (.splStepWrite a v) s = .next ((s.stored .spl R.SPL_STEP r v)))
  ∧ (∀ (s : State) (a : Agent) (v : Word) r, s.Takes a .spl R.SPL_STEP r v → s.is F.SPL_CTL_ENABLE = true →
    exec (.splStepWrite a v) s = .next (pushCheck R.SPL_STEP (v &&& r.known) none s))
  ∧ (∀ (s : State) (a : Agent) (v : Word) r, s.Takes a .spl R.SPL_CTL r v → fieldOf v 0 1 = fieldOf (s.reg R.SPL_CTL) 0 1 → fieldOf (s.reg R.SPL_CTL) 2 1 = 0 → fieldOf v 2 1 = 1 → fieldOf v 3 1 = 0 →
    exec (.calFreeze a v) s = .next (((s.stored .spl R.SPL_CTL r v)).put F.SPL_CAL_STATE_STATE 2))
  ∧ (∀ (s : State) (a : Agent) (v : Word) r, s.Takes a .spl R.SPL_CTL r (withField v 3 1 1) → fieldOf (withField v 3 1 1) 0 1 = fieldOf (s.reg R.SPL_CTL) 0 1 → fieldOf (withField v 3 1 1) 2 1 = fieldOf (s.reg R.SPL_CTL) 2 1 →
    exec (.calRestart a v) s = .next (calReload (s.stored .spl R.SPL_CTL r (withField v 3 1 1))))

/-- For ENVELOPE_UNDEFINE, ENV_CFG_WRITE, ENV_QBLK_WRITE, ICU_SWI, SOURCE_MASK, COMPLETE, CORE_QUIESCE, LOAD_BEGIN, LOAD_END,
LOAD_CANCEL and LOAD_DATA: if the write is taken (Takes: the agent may write, the register exists and is reached, nothing
that R8 names refuses it), the next state is the one given. -/
def Obligations.EnvelopeSourceCoreResults : Prop :=
  (∀ (s : State) (a : Agent) (e : Nat) (v : Word) r, e < 1024 → s.Takes a .spl (R.ENV_CFG e) r (withField v 0 1 0) → fieldOf (s.reg (R.ENV_CFG e)) 0 1 = 1 →
    exec (.envelopeUndefine a e v) s = .next (envEnd e (s.stored .spl (R.ENV_CFG e) r (withField v 0 1 0))))
  ∧ (∀ (s : State) (a : Agent) (e : Nat) (v : Word) r, e < 1024 → s.Takes a .spl (R.ENV_CFG e) r v → fieldOf (s.reg (R.ENV_CFG e)) 0 1 = 0 → fieldOf v 0 1 = 0 →
    exec (.envCfgWrite a e v) s = .next ((s.stored .spl (R.ENV_CFG e) r v)))
  ∧ (∀ (s : State) (a : Agent) (i : Nat) (v : Word) r, i < 1024 → s.Takes a .spl (R.ENV_QBLK i) r v →
    exec (.envQblkWrite a i v) s = .next ((s.stored .spl (R.ENV_QBLK i) r v)))
  ∧ (∀ (s : State) (a : Agent) (v : Word) r, s.Takes a .icu R.ICU_SWI r v →
    exec (.icuSwi a v) s = .next (icuSwiAct v (s.stored .icu R.ICU_SWI r v)))
  ∧ (∀ (s : State) (a : Agent) (n : Nat) (v : Word) r, n < 1024 → s.Takes a .icu (R.ICU_SRC_CFG n) r v → fieldOf v 0 1 = fieldOf (s.reg (R.ICU_SRC_CFG n)) 0 1 →
    exec (.sourceMask a n v) s = .next (icuCfg n (s.reg (R.ICU_SRC_CFG n)) (s.stored .icu ((R.ICU_SRC_CFG n)) r (s.shaped .icu (0x10000 + 8 * n) v))))
  ∧ (∀ (s : State) (a : Agent) (c : Nat) (n : Nat) r, c < 8 → s.Takes a .icu (R.ICU_COMPLETE c) r (BitVec.ofNat 64 (n % 2 ^ 11)) →
    exec (.complete c a n) s = .next (icuDone c (n % 2 ^ 11) (s.stored .icu (R.ICU_COMPLETE c) r (BitVec.ofNat 64 (n % 2 ^ 11)))))
  ∧ (∀ (s : State) (a : Agent) (c : Nat) (v : Word) r, c < 8 → s.Takes a .gdc (R.GDC_CORE_CTL c) r (withField v 1 1 1) → fieldOf (withField v 1 1 1) 0 1 = fieldOf (s.reg (R.GDC_CORE_CTL c)) 0 1 → (s.stored .gdc (R.GDC_CORE_CTL c) r (withField v 1 1 1)).get (F.GDC_CORE_STS_STATE c) = 1 →
    exec (.coreQuiesce a c v) s = .next (((s.stored .gdc (R.GDC_CORE_CTL c) r (withField v 1 1 1))).put (F.GDC_CORE_STS_STATE c) 2))
  ∧ (∀ (s : State) (a : Agent) (v : Word) r, s.Takes a .gdc R.GDC_LOAD_CTL r (withField v 4 2 1) →
    exec (.loadBegin a v) s = .next (loadOp 1 (fieldOf v 0 3) (s.stored .gdc R.GDC_LOAD_CTL r (withField v 4 2 1))))
  ∧ (∀ (s : State) (a : Agent) (v : Word) r, s.Takes a .gdc R.GDC_LOAD_CTL r (withField v 4 2 2) →
    exec (.loadEnd a v) s = .next (loadOp 2 (fieldOf v 0 3) (s.stored .gdc R.GDC_LOAD_CTL r (withField v 4 2 2))))
  ∧ (∀ (s : State) (a : Agent) (v : Word) r, s.Takes a .gdc R.GDC_LOAD_CTL r (withField v 4 2 3) →
    exec (.loadCancel a v) s = .next (loadOp 3 (fieldOf v 0 3) (s.stored .gdc R.GDC_LOAD_CTL r (withField v 4 2 3))))
  ∧ (∀ (s : State) (a : Agent) (v : Word) r, s.Takes a .gdc R.GDC_LOAD_DATA r v →
    exec (.loadData a v) s = .next (loadWord v (s.stored .gdc R.GDC_LOAD_DATA r v)))

/-- For QUEUE_READ, QUEUE_WRITE, QUEUE_ENABLE, QUEUE_MODIFY, QUEUE_STOP, QUEUE_START, QUEUE_DRAIN, QUEUE_DISABLE and
QUEUE_PREFETCH in each of the slots and for every queue number: if the write is taken (Takes: the agent may write, the
register exists and is reached, nothing that R8 names refuses it), the next state is that of the command on the queue, in the
form given. -/
def Obligations.QueueCommandResults : Prop :=
  (∀ (s : State) (a : Agent) (k : Nat) (q : Nat) r, k < 9 ∧ q < 2 ^ 22 → s.Takes a .qen (R.QEN_QCMD k) r (BitVec.ofNat 64 (1 * 2 ^ 32 + q)) →
    exec (.queueRead k q a) s = .next (qArrive q (.command k 1) (((s.stored .qen (R.QEN_QCMD k) r (BitVec.ofNat 64 (1 * 2 ^ 32 + q)))).put (F.QEN_QCMD_STS_BUSY k) 1)))
  ∧ (∀ (s : State) (a : Agent) (k : Nat) (q : Nat) r, k < 9 ∧ q < 2 ^ 22 → s.Takes a .qen (R.QEN_QCMD k) r (BitVec.ofNat 64 (2 * 2 ^ 32 + q)) →
    exec (.queueWrite k q a) s = .next (qArrive q (.command k 2) (((s.stored .qen (R.QEN_QCMD k) r (BitVec.ofNat 64 (2 * 2 ^ 32 + q)))).put (F.QEN_QCMD_STS_BUSY k) 1)))
  ∧ (∀ (s : State) (a : Agent) (k : Nat) (q : Nat) r, k < 9 ∧ q < 2 ^ 22 → s.Takes a .qen (R.QEN_QCMD k) r (BitVec.ofNat 64 (3 * 2 ^ 32 + q)) →
    exec (.queueEnable k q a) s = .next (qArrive q (.command k 3) (((s.stored .qen (R.QEN_QCMD k) r (BitVec.ofNat 64 (3 * 2 ^ 32 + q)))).put (F.QEN_QCMD_STS_BUSY k) 1)))
  ∧ (∀ (s : State) (a : Agent) (k : Nat) (q : Nat) r, k < 9 ∧ q < 2 ^ 22 → s.Takes a .qen (R.QEN_QCMD k) r (BitVec.ofNat 64 (4 * 2 ^ 32 + q)) →
    exec (.queueModify k q a) s = .next (qArrive q (.command k 4) (((s.stored .qen (R.QEN_QCMD k) r (BitVec.ofNat 64 (4 * 2 ^ 32 + q)))).put (F.QEN_QCMD_STS_BUSY k) 1)))
  ∧ (∀ (s : State) (a : Agent) (k : Nat) (q : Nat) r, k < 9 ∧ q < 2 ^ 22 → s.Takes a .qen (R.QEN_QCMD k) r (BitVec.ofNat 64 (5 * 2 ^ 32 + q)) →
    exec (.queueStop k q a) s = .next (qArrive q (.command k 5) (((s.stored .qen (R.QEN_QCMD k) r (BitVec.ofNat 64 (5 * 2 ^ 32 + q)))).put (F.QEN_QCMD_STS_BUSY k) 1)))
  ∧ (∀ (s : State) (a : Agent) (k : Nat) (q : Nat) r, k < 9 ∧ q < 2 ^ 22 → s.Takes a .qen (R.QEN_QCMD k) r (BitVec.ofNat 64 (6 * 2 ^ 32 + q)) →
    exec (.queueStart k q a) s = .next (qArrive q (.command k 6) (((s.stored .qen (R.QEN_QCMD k) r (BitVec.ofNat 64 (6 * 2 ^ 32 + q)))).put (F.QEN_QCMD_STS_BUSY k) 1)))
  ∧ (∀ (s : State) (a : Agent) (k : Nat) (q : Nat) r, k < 9 ∧ q < 2 ^ 22 → s.Takes a .qen (R.QEN_QCMD k) r (BitVec.ofNat 64 (7 * 2 ^ 32 + q)) →
    exec (.queueDrain k q a) s = .next (qArrive q (.command k 7) (((s.stored .qen (R.QEN_QCMD k) r (BitVec.ofNat 64 (7 * 2 ^ 32 + q)))).put (F.QEN_QCMD_STS_BUSY k) 1)))
  ∧ (∀ (s : State) (a : Agent) (k : Nat) (q : Nat) r, k < 9 ∧ q < 2 ^ 22 → s.Takes a .qen (R.QEN_QCMD k) r (BitVec.ofNat 64 (8 * 2 ^ 32 + q)) →
    exec (.queueDisable k q a) s = .next (qArrive q (.command k 8) (((s.stored .qen (R.QEN_QCMD k) r (BitVec.ofNat 64 (8 * 2 ^ 32 + q)))).put (F.QEN_QCMD_STS_BUSY k) 1)))
  ∧ (∀ (s : State) (a : Agent) (k : Nat) (q : Nat) r, k < 9 ∧ q < 2 ^ 22 → s.Takes a .qen (R.QEN_QCMD k) r (BitVec.ofNat 64 (9 * 2 ^ 32 + q)) →
    exec (.queuePrefetch k q a) s = .next (qArrive q (.command k 9) (((s.stored .qen (R.QEN_QCMD k) r (BitVec.ofNat 64 (9 * 2 ^ 32 + q)))).put (F.QEN_QCMD_STS_BUSY k) 1)))

/-- For RETRAIN, RESIZE, RESTORE, HOLD_DISABLE, PWR_ON_WRITE, PORT_REARM, CFG_CMD, SIDEBAND_OUT, HANDOVER and HANDBACK: if the
write is taken (Takes: the agent may write, the register exists and is reached, nothing that R8 names refuses it), the next
state is the one given. HOLD_DISABLE of port 6 is the write of PRL_CTL. -/
def Obligations.PortCommandResults : Prop :=
  (∀ (s : State) (a : Agent) (p : Nat) (v : Word) r, p < 7 → s.Takes a (portBlk p) (R.LPn_LINK_CMD p) r (withField v 0 2 1) →
    exec (.retrain a p v) s = .next (linkCmd p (R.LPn_LINK_CMD p) 1 (fieldOf v 2 1 == 1) (fieldOf v 8 5) (s.stored (portBlk p) (R.LPn_LINK_CMD p) r (withField v 0 2 1))))
  ∧ (∀ (s : State) (a : Agent) (p : Nat) (v : Word) r, p < 7 → s.Takes a (portBlk p) (R.LPn_LINK_CMD p) r (withField v 0 2 2) →
    exec (.resize a p v) s = .next (linkCmd p (R.LPn_LINK_CMD p) 2 (fieldOf v 2 1 == 1) (fieldOf v 8 5) (s.stored (portBlk p) (R.LPn_LINK_CMD p) r (withField v 0 2 2))))
  ∧ (∀ (s : State) (a : Agent) (p : Nat) (v : Word) r, p < 7 → s.Takes a (portBlk p) (R.LPn_LINK_CMD p) r (withField v 0 2 3) →
    exec (.restore a p v) s = .next (linkCmd p (R.LPn_LINK_CMD p) 3 (fieldOf v 2 1 == 1) (fieldOf v 8 5) (s.stored (portBlk p) (R.LPn_LINK_CMD p) r (withField v 0 2 3))))
  ∧ (∀ (s : State) (a : Agent) (p : Nat) (v : Word) r, p < 6 → s.Takes a (.lp p) (R.LPn_CTL p) r (withField v 1 1 1) → fieldOf (s.reg (R.LPn_CTL p)) 1 1 = 0 → fieldOf (withField v 1 1 1) 0 1 = fieldOf (s.reg (R.LPn_CTL p)) 0 1 →
    exec (.holdDisable a p v) s = .next (holdDisable p (s.stored (.lp p) (R.LPn_CTL p) r (withField v 1 1 1))))
  ∧ (∀ (s : State) (a : Agent) (p : Nat) (v : Word) r, p < 6 → s.Takes a (.lp p) (R.LPn_SLOT_CTL p) r v →
    exec (.pwrOnWrite a p v) s = .next (slotCtl p (R.LPn_SLOT_CTL p) (s.reg (R.LPn_SLOT_CTL p)) v s))
  ∧ (∀ (s : State) (a : Agent) (p : Nat) (v : Word) r, p < 6 → s.Takes a (.lp p) (R.LPn_REARM p) r (withField v 0 1 1) →
    exec (.portRearm a p v) s = .next (portRearmed p (s.stored (.lp p) (R.LPn_REARM p) r (withField v 0 1 1))))
  ∧ (∀ (s : State) (a : Agent) (p : Nat) (v : Word) r, p < 6 → s.Takes a (.lp p) (R.LPn_CFG_CMD p) r (withField v 33 1 1) →
    exec (.cfgCmd a p v) s = .next (cfgGo p (s.stored (.lp p) (R.LPn_CFG_CMD p) r (withField v 33 1 1))))
  ∧ (∀ (s : State) (a : Agent) (p : Nat) (v : Word) r, p < 6 → s.Takes a (.lp p) (R.LPn_SB p) r v →
    exec (.sidebandOut a p v) s = .next (sbOut p (R.LPn_SB p) (s.reg (R.LPn_SB p)) v (s.setReg (R.LPn_SB p) (r.store 0 (s.reg (R.LPn_SB p)) (withField v 0 16 (fieldOf (s.reg (R.LPn_SB p)) 0 16))))))
  ∧ (∀ (s : State) (a : Agent) (v : Word) r, s.Takes a .prl R.PRL_CTL r (withField v 3 1 1) → (s.stored .prl R.PRL_CTL r (withField v 3 1 1)).paired = true → (s.stored .prl R.PRL_CTL r (withField v 3 1 1)).owned ≠ [] → fieldOf (withField v 3 1 1) 1 1 = 0 → fieldOf (withField v 3 1 1) 0 1 = fieldOf (s.reg R.PRL_CTL) 0 1 → fieldOf (withField v 3 1 1) 2 1 = fieldOf (s.reg R.PRL_CTL) 2 1 →
    exec (.handover a v) s = .next (giveBegin ((s.stored .prl R.PRL_CTL r (withField v 3 1 1))).owned (s.stored .prl R.PRL_CTL r (withField v 3 1 1))))
  ∧ (∀ (s : State) (a : Agent) (v : Word) r, s.Takes a .prl R.PRL_CTL r (withField v 3 2 2) → (s.stored .prl R.PRL_CTL r (withField v 3 2 2)).paired = true → ((s.stored .prl R.PRL_CTL r (withField v 3 2 2)).owned.filter fun e => !(s.stored .prl R.PRL_CTL r (withField v 3 2 2)).isHome e) ≠ [] → fieldOf (withField v 3 2 2) 1 1 = 0 → fieldOf (withField v 3 2 2) 0 1 = fieldOf (s.reg R.PRL_CTL) 0 1 → fieldOf (withField v 3 2 2) 2 1 = fieldOf (s.reg R.PRL_CTL) 2 1 →
    exec (.handback a v) s = .next (giveBegin (((s.stored .prl R.PRL_CTL r (withField v 3 2 2))).owned.filter fun e => !((s.stored .prl R.PRL_CTL r (withField v 3 2 2))).isHome e) (s.stored .prl R.PRL_CTL r (withField v 3 2 2))))
  ∧ (∀ (s : State) (a : Agent) (v : Word), exec (.holdDisable a 6 v) s = .next (ctlWriteBy a R.PRL_CTL v 64 s))

/-- For CREDIT_TICK, RECONCILIATION_INTERVAL and CALIBRATION_WINDOW_END: the next state that exec answers where the command acts.
A tick takes every defined envelope in ascending order; an interval moves the residual by the difference between measured and
charged energy; a window is reported, kept, clamped or accepted by R210. -/
def Obligations.SpoolResults : Prop :=
  (∀ s : State, s.dev.up = true → s.is F.SPL_CTL_ENABLE = true →
    exec .creditTick s = .next (s.envs.foldl (fun t e =>
      let x := KMap.get t.spl.carry 0 e + t.get (F.ENV_CFG_SHARE e) * t.get F.SPL_BUDGET_MW
      tokAdd e ((t.get (F.ENV_CFG_BW_CAP e) * 100 : Nat) : Int) (creditAdd e ((x / 1000 : Nat) : Int)
        { t with spl := { t.spl with carry := KMap.set t.spl.carry 0 e (x % 1000) } })) s))
  ∧ (∀ (s : State) mw uj, s.is F.CLK_STS_ROOT_LOCK = true → s.is F.PWR_CTL_ENABLE = false →
    ∃ t, exec (.reconciliationInterval mw uj) s = .next t ∧ t.reg R.SPL_RESIDUAL = s.reg R.SPL_RESIDUAL ∧ t.spl.charged = 0
      ∧ t.spl.samples = s.spl.samples ∧ t.spl.intervalOk = s.dev.mode.running)
  ∧ (∀ (s : State) mw uj, s.is F.CLK_STS_ROOT_LOCK = true → s.is F.PWR_CTL_ENABLE = true →
    ∃ t, exec (.reconciliationInterval mw uj) s = .next t ∧ t.spl.charged = 0 ∧ t.spl.intervalOk = s.dev.mode.running
      ∧ t.reg R.SPL_RESIDUAL = s.reg R.SPL_RESIDUAL + BitVec.ofNat 64 (sumList (uj.take 7) * 1000) - BitVec.ofNat 64 s.spl.charged
      ∧ t.spl.samples = (if s.spl.intervalOk && s.spl.samples.length < 1000 then
          s.spl.samples ++ [(sumList (uj.take 7) * 1000, s.spl.charged)] else s.spl.samples)
      ∧ (sumList (uj.take 7) * 1000 < s.spl.charged → t.get F.SPL_STS_NEG_RESID = satAdd 16 (s.get F.SPL_STS_NEG_RESID) 1)
      ∧ (s.spl.charged ≤ sumList (uj.take 7) * 1000 → t.get F.SPL_STS_NEG_RESID = s.get F.SPL_STS_NEG_RESID))
  ∧ (∀ s : State, 1000 ≤ s.spl.samples.length → s.get F.SPL_CAL_STATE_STATE = 2 → exec .calibrationWindowEnd s = .next (calWindow s))
  ∧ (∀ s : State, 1000 ≤ s.spl.samples.length → s.get F.SPL_CAL_STATE_STATE ≠ 2 → calNarrow s.spl.samples = true →
    exec .calibrationWindowEnd s = .next (calWindow (faultEvent .spl 1 0 s)))
  ∧ (∀ (s : State) kn kd bn bd, 1000 ≤ s.spl.samples.length → s.get F.SPL_CAL_STATE_STATE = 0 → calNarrow s.spl.samples = false →
    calFit s = (kn, kd, bn, bd) → 2 * kn < kd ∨ 2 * kd < kn →
    ∃ t, exec .calibrationWindowEnd s = .next t ∧ (∀ j < 16, t.reg (R.SPL_COEF j) = s.reg (R.SPL_COEF j)) ∧ t.reg R.SPL_OPCOST = s.reg R.SPL_OPCOST)
  ∧ (∀ (s : State) kn kd bn bd, 1000 ≤ s.spl.samples.length → s.get F.SPL_CAL_STATE_STATE = 0 → calNarrow s.spl.samples = false →
    calFit s = (kn, kd, bn, bd) → kd ≤ 2 * kn → kn ≤ 2 * kd → exec .calibrationWindowEnd s = .next (calAccept kn kd bn bd s))
  ∧ (∀ (s : State) kn kd bn bd, 1000 ≤ s.spl.samples.length → s.get F.SPL_CAL_STATE_STATE = 1 → calNarrow s.spl.samples = false →
    calFit s = (kn, kd, bn, bd) → exec .calibrationWindowEnd s = .next (if 20 * kn < 19 * kd then calAccept 19 20 bn bd s
      else if 21 * kd < 20 * kn then calAccept 21 20 bn bd s else calAccept kn kd bn bd s))

/-- For FRAME_ADMIT, EVICTION_RETRY, OUTPUT_GRANT, MULTICAST_GHL_EXPIRY, TAIL_BATCH_WRITE and BANK_CELLS_RELEASED: the next state
that exec answers for each outcome of Table 10.4. Which of several waiting frames the commands take is fixed by admission
order and by the grant rule of R223. -/
def Obligations.SwitchResults : Prop :=
  (∀ (s : State) idx f p, (s.swc.inject.find? fun x => x.inp == idx) = some f → s.endsEnabled f = true → f.mcast = false →
    s.admission f = .into p → exec (.frameAdmit idx) s = .next (inputSync idx (enqueue f p (uninject f s))))
  ∧ (∀ (s : State) idx f, (s.swc.inject.find? fun x => x.inp == idx) = some f → s.endsEnabled f = true → f.mcast = false →
    s.admission f = .wait → exec (.frameAdmit idx) s = .next (inputSync idx s))
  ∧ (∀ (s : State) idx f vs, (s.swc.inject.find? fun x => x.inp == idx) = some f → s.endsEnabled f = true → f.mcast = false →
    s.admission f = .evict vs → exec (.frameAdmit idx) s = .next (inputSync idx (enqueue f .shared (vs.foldl (fun t v => evictOne v t) (uninject f s)))))
  ∧ (∀ (s : State) idx f, (s.swc.inject.find? fun x => x.inp == idx) = some f → s.endsEnabled f = true → f.mcast = false →
    s.admission f = .flushed → exec (.frameAdmit idx) s = .next (inputSync idx (answerFlushed f (uninject f s))))
  ∧ (∀ (s : State) idx f, (s.swc.inject.find? fun x => x.inp == idx) = some f → s.endsEnabled f = true → f.mcast = false →
    s.admission f = .fallback → exec (.frameAdmit idx) s = .next (inputSync idx (answerFlushed f (portDrop (f.out - 4) (uninject f s)))))
  ∧ (∀ (s : State) idx f, (s.swc.inject.find? fun x => x.inp == idx) = some f → s.endsEnabled f = true → f.mcast = true →
    exec (.frameAdmit idx) s = .next (inputSync idx (admitMc f s)))
  ∧ (∀ (s : State) idx f, (s.swc.inject.find? fun x => x.inp == idx) = some f → s.endsEnabled f = false → exec (.frameAdmit idx) s = .next s)
  ∧ (∀ (s : State) f l, s.swc.retry = f :: l → f.typ ≠ .prefData →
    exec .evictionRetry s = .next (({ s with swc := { s.swc with retry := l } } : State).inject f))
  ∧ (∀ (s : State) p f, s.switchPorts.contains p = true →
    s.grantPick p ((orderedAt p [] (s.swc.queued.filter fun x => x.typ != .prefData)).filter (s.canTake p)) = some f →
    exec (.outputGrant p) s = .next (leave p f (depart p f s)))
  ∧ (∀ (s : State) p f, (s.swc.queued.find? fun x => x.mcast && x.owes p) = some f →
    exec (.multicastGhlExpiry p) s = .next (mcOver [f] { mcDropOne p .portDown f s with
      swc := { (mcDropOne p .portDown f s).swc with
        queued := (mcDropOne p .portDown f s).swc.queued.filterMap fun g => if g = f then f.without p else some g } }))
  ∧ (∀ s : State, s.swc.tailRun = false → exec .tailBatchWrite s = .next s)
  ∧ (∀ (s : State) rec p, s.swc.staged = [rec] → s.swc.tailRun = true → s.dev.mode.serving = true → s.swc.tailLost = 0 →
    s.tailFlying = 0 → (s.get F.SWC_TAIL_WR_INDEX + 1) % 2 ^ s.get F.SWC_TAIL_SIZE_LOG2 ≠ s.get F.SWC_TAIL_RD_INDEX →
    s.get F.SWC_TAIL_WR_INDEX < 2 ^ s.get F.SWC_TAIL_SIZE_LOG2 →
    ({ s with swc := { s.swc with staged := [] } } : State).admission { typ := .tailBatch, cls := 7, inp := 2, out := 2, addr := 7 * 2 ^ 44 + s.get F.SWC_TAIL_BASE_BASE * 4096 + 64 * s.get F.SWC_TAIL_WR_INDEX, len := 64, data := tailSet rec (s.swc.tailSeq + 1) 0, noEvict := true, origin := .tail } = .into p →
    ∃ t, exec .tailBatchWrite s = .next t ∧ t.swc.staged = [] ∧ t.swc.tailSeq = (s.swc.tailSeq + 1) % 2 ^ 32 ∧ t.out = s.out ∧ t.mem = s.mem)
  ∧ (∀ (s : State) b, s.swc.banksOut.contains b = true → ∃ t, exec (.bankCellsReleased b) s = .next t
    ∧ t.swc.banksOut = s.swc.banksOut.erase b ∧ t.get F.SWC_BUF_STS_CELLS = s.get F.SWC_BUF_STS_CELLS - 128
    ∧ (∀ o, o ≠ R.SWC_BUF_STS → t.reg o = s.reg o))

/-- For RECEIVER_DETECTION, GTS_RECEIVED, TRAINING_PHASE_COMPLETE, LINK_ACTIVE_ENTRY, TRAINING_LIMIT_EXPIRY,
RETRAIN_LIMIT_EXPIRY, TRAINING_PHASE_LIMIT_EXPIRY, BLOCK_ALIGNMENT_LOSS, RESIZE_SWITCH and LANE_TEST_END: the next state that
exec answers for every link state and phase in which the command acts, with the transition of Table 11.4 that it takes. -/
def Obligations.TrainingResults : Prop :=
  (∀ (s : State) p lanes, p < 6 → s.lst p = 1 → ((laneList p).any fun k => (s.put (F.LPn_LANE_STS_DETECTED p) (lanes % 2 ^ portLanes p)).laneOk p k) = true →
    ∃ t, exec (.receiverDetection p lanes) s = .next t ∧ t.lst p = 2 ∧ t.get (F.LPn_LINK_STS_LAST_CAUSE p) = 2
      ∧ t.get (F.LPn_LANE_STS_DETECTED p) = lanes % 2 ^ portLanes p ∧ (t.port p).phase = 1 ∧ (t.port p).gts2 = none)
  ∧ (∀ (s : State) p lanes, p < 7 → s.lst p = 1 → ((laneList p).any fun k => (s.put (F.LPn_LANE_STS_DETECTED p) (lanes % 2 ^ portLanes p)).laneOk p k) = false →
    exec (.receiverDetection p lanes) s = .next (s.put (F.LPn_LANE_STS_DETECTED p) (lanes % 2 ^ portLanes p)))
  ∧ (∀ (s : State) p lanes, p < 7 → s.lst p = 6 → (s.port p).phase = 0 →
    ((laneList p).any fun k => (s.put (F.LPn_LANE_STS_DETECTED p) (lanes % 2 ^ portLanes p)).laneOk p k) = true →
    exec (.receiverDetection p lanes) s = .next (trainBegin p (s.put (F.LPn_LANE_STS_DETECTED p) (lanes % 2 ^ portLanes p))))
  ∧ (∀ (s : State) p b g, p < 7 → g = gtsRead b → s.lst p ≠ 5 → s.trains p = true → gtsValid g = true → g.kind = 3 →
    exec (.gtsReceived p b) s = .next (s.setPort p { s.port p with req := none, gts3 := KMap.insert (KMap.erase (s.port p).gts3 g.index) g.index g.rxbuf }))
  ∧ (∀ (s : State) p b g n, p < 7 → g = gtsRead b → s.lst p ≠ 5 → s.trains p = true → gtsValid g = true → g.kind = 2 → (s.port p).gtsLast = some g → (s.port p).gtsCount = n →
    exec (.gtsReceived p b) s = .next (s.setPort p { s.port p with req := none, gtsLast := some g, gtsCount := n + 1, gts2 := if 8 ≤ n + 1 then some g else (s.port p).gts2 }))
  ∧ (∀ (s : State) p b g, p < 7 → g = gtsRead b → s.lst p ≠ 5 → s.trains p = true → gtsValid g = false →
    exec (.gtsReceived p b) s = .next (s.setPort p { s.port p with gtsLast := none, gtsCount := 0 }))
  ∧ (∀ (s : State) p rtt g, p < 7 → s.trains p = true → (s.port p).phase = 1 → (s.port p).gtsLast = some g → g.kind = 1 → 8 ≤ (s.port p).gtsCount →
    (s.port p).testLane = none → exec (.trainingPhaseComplete p rtt) s = .next (propose p s))
  ∧ (∀ (s : State) p rtt g k, p < 7 → s.trains p = true → (s.port p).phase = 1 → (s.port p).gtsLast = some g → g.kind = 1 → 8 ≤ (s.port p).gtsCount →
    (s.port p).testLane = some k → s.is (F.LPn_LANE_STS_TESTING p) = false → exec (.trainingPhaseComplete p rtt) s
      = .next (startTest (portBlk p) k k ((s.put (F.LPn_LANE_STS_TEST_LANE p) k).put (F.LPn_LANE_STS_TESTING p) 1)))
  ∧ (∀ (s : State) p rtt g, p < 7 → s.trains p = true → (s.port p).phase = 2 → (s.port p).gtsLast = some g → g.kind = 1 → 8 ≤ (s.port p).gtsCount →
    g.lane ≤ 15 → 2 ^ g.width ≤ (s.port p).width → exec (.trainingPhaseComplete p rtt) s
      = .next (toPhase p (if s.eqWanted p then 3 else 4) (s.setPort p { s.port p with width := 2 ^ g.width })))
  ∧ (∀ (s : State) p rtt g, p < 7 → s.trains p = true → (s.port p).phase = 3 → (s.port p).gtsLast = some g → g.kind = 1 → g.eq = false →
    exec (.trainingPhaseComplete p rtt) s = .next (toPhase p 4 (s.setPort p { s.port p with eqDone := true, eqNow := false })))
  ∧ (∀ (s : State) p rtt g, p < 7 → s.trains p = true → (s.port p).phase = 4 → (s.port p).gts2 = some g →
    (List.range 9).all (fun j => (KMap.find (s.port p).gts3 j).isSome) = true →
    (s.pairsWith p g (s.port p).gts3 = true → s.peerSwapped p g (s.port p).gts3 = false → exec (.trainingPhaseComplete p rtt) s
      = .next ((s.put (F.LPn_LINK_STS_TRAIN_RTT_NS p) (min rtt 65535)).setPort p { s.port p with phase := 5 }))
    ∧ (s.pairsWith p g (s.port p).gts3 = false → exec (.trainingPhaseComplete p rtt) s = .next (trainFail p s))
    ∧ (s.peerSwapped p g (s.port p).gts3 = true → exec (.trainingPhaseComplete p rtt) s = .next (trainFail p s)))
  ∧ (∀ (s : State) p g, p < 6 → s.lst p = 2 → (s.port p).phase = 5 → (s.port p).gts2 = some g → (s.port p).epochRec = none → (s.port p).hasLl = false →
    ∃ u v, exec (.linkActiveEntry p) s = .next (txDrain p (linkPend p (sbAnnounce p (setWidth p (s.port p).width (s.port p).group v))))
      ∧ u.get (F.LPn_PEER_LINK_ID p) = g.linkId % 2 ^ 16 ∧ u.get (F.LPn_LINK_STS_EPOCH_CHANGED p) = 0
      ∧ v = linkTo p 3 3 (openOut p false u))
  ∧ (∀ (s : State) p, p < 6 → s.lst p = 2 → ∃ t, exec (.trainingLimitExpiry p) s = .next t ∧ t.lst p = 1
      ∧ t.get (F.LPn_LINK_STS_LAST_CAUSE p) = 4 ∧ (t.port p).phase = 0 ∧ t.mem = s.mem)
  ∧ (∀ (s : State) p, p < 7 → s.lst p = 4 ∨ s.lst p = 5 →
    (s.holdOk p = true → exec (.retrainLimitExpiry p) s = .next (enterHold p s))
    ∧ (s.holdOk p = false → exec (.retrainLimitExpiry p) s = .next (portLost p 1 13 s)))
  ∧ (∀ (s : State) p, p < 7 → s.lst p = 6 → (s.port p).phase = 1 → exec (.trainingPhaseLimitExpiry p) s
    = .next (s.setPort p { s.port p with phase := 0, lockFails := (s.port p).lockFails + 1, eqDone := (s.port p).eqDone && decide ((s.port p).lockFails + 1 < 2) }))
  ∧ (∀ (s : State) p lane, p < 7 → s.get (F.LPn_LINK_STS_GROUP_LANE p) ≤ lane → lane < s.get (F.LPn_LINK_STS_GROUP_LANE p) + s.width p →
    (s.lst p = 3 → exec (.blockAlignmentLoss p lane) s = .next (toRetrain p 5 s))
    ∧ (s.lst p = 5 → exec (.blockAlignmentLoss p lane) s = .next (toRetrain p 9 s)))
  ∧ (∀ (s : State) p ok, p < 7 → s.lst p = 5 → exec (.resizeSwitch p ok) s = .next (resizeEnd p ok s))
  ∧ (∀ (s : State) p k, p < 7 → s.is (F.LPn_LANE_STS_TESTING p) = true → (s.port p).testLane = some k →
    exec (.laneTestEnd p true) s = .next (propose p ((testDone (portBlk p) k true (((s.put (F.LPn_LANE_STS_TESTING p) 0).bump
      (F.LPn_LANE_CNT_TESTS p k)).put (F.LPn_LANE_CNT_LAST_FAIL p k) 0)).modPort p fun x => { x with testLane := none })))
  ∧ (∀ (s : State) p k, p < 7 → s.is (F.LPn_LANE_STS_TESTING p) = true → (s.port p).testLane = some k →
    ∃ u v, exec (.laneTestEnd p false) s = .next v
      ∧ u = ((testDone (portBlk p) k false (((s.put (F.LPn_LANE_STS_TESTING p) 0).bump (F.LPn_LANE_CNT_TESTS p k)).put
          (F.LPn_LANE_CNT_LAST_FAIL p k) 1)).modPort p fun x => { x with testLane := none })
      ∧ ((laneList p).any ((u.put (F.LPn_LANE_STS_RETIRED p) (bitSet (u.get (F.LPn_LANE_STS_RETIRED p)) k)).laneIn p) = false →
          v = reduceService (portOff p (faultEvent (portBlk p) 16 0 (u.put (F.LPn_LANE_STS_RETIRED p) (bitSet (u.get (F.LPn_LANE_STS_RETIRED p)) k))))))

/-- For GRACE_EXPIRY, REQUEST_DEADLINE, PORT_TAG_QUARANTINE_EXPIRY, PRESENCE_CHANGE, ATTENTION_PRESS, SLOT_POWER_FAULT, PWR_DONE,
CANCEL_WINDOW_EXPIRY and SLOT_QUIESCE_END: the next state that exec answers where the command acts. -/
def Obligations.PortResults : Prop :=
  (∀ (s : State) p, p < 7 → s.lst p = 6 → exec (.graceExpiry p) s = .next (portLost p 1 15 s))
  ∧ (∀ (s : State) p k f, p < 7 → (s.npQueued p)[k]? = some f → exec (.requestDeadline p (4096 + k)) s
    = .next (deadlineAnswer p f { s with swc := { s.swc with queued := s.swc.queued.erase f } }))
  ∧ (∀ (s : State) p tag n, p < 7 → tag < 4096 → ((s.port p).np.find? fun m => m.tag == tag && !m.quarantined) = some n →
    exec (.requestDeadline p tag) s = .next (deadlineAnswer p n.frame (s.setPort p { s.port p with np := (s.port p).np.map fun m =>
      if m.tag = tag then { m with quarantined := true, deadline := s.dev.time + 2 * s.npLimit p } else m })))
  ∧ (∀ (s : State) p tag, p < 7 → exec (.portTagQuarantineExpiry p tag) s
    = .next (s.setPort p { s.port p with np := (s.port p).np.filter fun n => !(n.tag == tag && n.quarantined) }))
  ∧ (∀ (s : State) p now, p < 6 → s.pins.prsnt.getD p false ≠ now → s.slotRuns p = false →
    exec (.presenceChange p now) s = .next (doWakeCause (.prsnt p) { s with pins := { s.pins with prsnt := s.pins.prsnt.set p now } }))
  ∧ (∀ (s : State) p now, p < 6 → s.pins.prsnt.getD p false ≠ now → s.slotRuns p = true →
    (doWakeCause (.prsnt p) { s with pins := { s.pins with prsnt := s.pins.prsnt.set p now } }).is (F.LPn_SLOT_CAP_PRSNT_PIN p) = true →
    exec (.presenceChange p now) s = .next (presence p now (doWakeCause (.prsnt p) { s with pins := { s.pins with prsnt := s.pins.prsnt.set p now } })))
  ∧ (∀ (s : State) p, p < 6 → s.slotRuns p = true → (doWakeCause (.attn p) s).is (F.LPn_SLOT_CAP_ATTN_BTN p) = true →
    (((doWakeCause (.attn p) s).put (F.LPn_SLOT_STS_ATTN p) 1).is (F.LPn_SLOT_CTL_AUTO p) = false →
      exec (.attentionPress p) s = .next (slotSync p ((doWakeCause (.attn p) s).put (F.LPn_SLOT_STS_ATTN p) 1)))
    ∧ (((doWakeCause (.attn p) s).put (F.LPn_SLOT_STS_ATTN p) 1).is (F.LPn_SLOT_CTL_AUTO p) = true →
      exec (.attentionPress p) s = .next (slotSync p (buttonPress p ((doWakeCause (.attn p) s).put (F.LPn_SLOT_STS_ATTN p) 1)))))
  ∧ (∀ (s : State) p, p < 6 → s.slotRuns p = false → exec (.attentionPress p) s = .next (doWakeCause (.attn p) s))
  ∧ (∀ (s : State) p, s.slotRuns p = true → s.is (F.LPn_SLOT_CTL_PWR_ON p) = true → exec (.slotPowerFault p) s
    = .next (let u := faultEvent (.lp p) 18 0 ((portOff p (slotOff p (seqEnd p s))).put (F.LPn_SLOT_STS_PWRFLT p) 1)
        slotSync p (if u.is (F.LPn_SLOT_CTL_AUTO p) then u.put (F.LPn_SLOT_CTL_IND_ATTN p) 1 else u)))
  ∧ (∀ (s : State) p, s.slotRuns p = true → s.is (F.LPn_SLOT_CTL_PWR_ON p) = true → (s.port p).powered = false → (s.port p).indDue = false →
    exec (.pwrDone p) s = .next (portTry1 p (slotSync p ((s.put (F.LPn_SLOT_STS_PWR_DONE p) 1).setPort p { s.port p with powered := true, indDue := false }))))
  ∧ (∀ (s : State) p, s.slotRuns p = true → s.get (F.LPn_SLOT_STS_SEQ p) = 1 → exec (.cancelWindowExpiry p) s
    = .next (pcFlushPort p ((s.put (F.LPn_SLOT_STS_SEQ p) 3).setPort p { s.port p with slotQuiesce := true })))
  ∧ (∀ (s : State) p, s.slotRuns p = true → s.get (F.LPn_SLOT_STS_SEQ p) = 2 → exec (.cancelWindowExpiry p) s
    = .next (slotOn p ((s.put (F.LPn_SLOT_STS_SEQ p) 0).setPort p { s.port p with indDue := true })))
  ∧ (∀ (s : State) p, s.slotRuns p = true → s.get (F.LPn_SLOT_STS_SEQ p) = 3 → (s.portBusy p && !s.is (F.LPn_SLOT_CAP_PWR_CTRL p)) = false →
    exec (.slotQuiesceEnd p) s = .next (seqEnd p ((slotOff p s).put (F.LPn_SLOT_CTL_IND_PWR p) 0)))

/-- For FLIT_RECEIVED, NAK_REPEAT_TIMEOUT, REPLAY_TIMEOUT, PROBE_TICK, PROBE_SAMPLE_TIMEOUT, EPOCH, SLEEP_REQ, SLEEP_ACK,
SLEEP_NAK, SLEEP_IDLE_EXPIRY, SLEEP_HANDSHAKE_TIMEOUT, SLEEP_ENTRY and SLEEP_EXIT: the next state that exec answers, in each
of the cases in which they act. -/
def Obligations.FlitResults : Prop :=
  (∀ (s : State) p b f, p < 7 → f = State.flitIn s p b → s.flits p = true → f.crcOk = false →
    exec (.flitReceived p b) s = .next (flitError p (laneCharge p f.errLanes s)))
  ∧ (∀ (s : State) p b f, p < 7 → f = State.flitIn s p b → s.flits p = true → f.crcOk = true → ackNote p f s = none →
    exec (.flitReceived p b) s = .next (linkFault p s))
  ∧ (∀ (s : State) p b f u, p < 7 → f = State.flitIn s p b → s.flits p = true → f.crcOk = true → ackNote p f s = some u → 1 ≤ f.typ → f.typ ≤ 3 →
    exec (.flitReceived p b) s = .next (flitSeq p f (lcwNote p f u)))
  ∧ (∀ (s : State) p b f u, p < 7 → f = State.flitIn s p b → s.flits p = true → f.crcOk = true → ackNote p f s = some u → f.typ = 0 ∨ 3 < f.typ →
    exec (.flitReceived p b) s = .next (linkFault p (lcwNote p f u)))
  ∧ (∀ (s : State) p f, f.seq < 4096 → (s.port p).rxSeq < 4096 →
    (f.typ ≠ 3 → f.seq = (s.port p).rxSeq → flitSeq p f s = flitAccept p f s)
    ∧ (f.typ = 3 → f.seq = (s.port p).rxSeq → flitSeq p f s = flitError p s)
    ∧ (f.seq = ((s.port p).rxSeq + 4095) % 4096 → flitSeq p f s = s)
    ∧ (f.seq = ((s.port p).rxSeq + 1) % 4096 → flitSeq p f s = flitError p s))
  ∧ (∀ (s : State) p, p < 7 → s.flits p = true → (s.port p).discarding = true →
    exec (.nakRepeatTimeout p) s = .next (((s.setPort p { s.port p with nakTime := s.dev.time }).bump (F.LPn_REPLAY_STS_NAK_SENT p)).emit (.nak p (((s.port p).rxSeq + 4095) % 4096))))
  ∧ (∀ (s : State) p, p < 7 → s.flits p = true → (s.port p).unacked ≠ [] → (s.port p).replays < 3 →
    exec (.replayTimeout p) s = .next (resend p ((s.setPort p { s.port p with replays := (s.port p).replays + 1, ackTime := s.dev.time }).bump (F.LPn_REPLAY_STS_REPLAYS p))))
  ∧ (∀ (s : State) p, p < 7 → s.flits p = true → (s.port p).unacked ≠ [] → 3 ≤ (s.port p).replays →
    exec (.replayTimeout p) s = .next (linkFault p (faultEvent (portBlk p) 32 0 (((s.setPort p { s.port p with replays := (s.port p).replays + 1, ackTime := s.dev.time }).bump (F.LPn_REPLAY_STS_REPLAYS p)).bump (F.LPn_REPLAY_STS_LIMIT p)))))
  ∧ (∀ (s : State) p, p < 7 → s.flits p = true →
    exec (.probeTick p) s = .next (s.setPort p { s.port p with probe := (s.port p).probe % 65535 + 1, probes := ((s.port p).probes.filter fun e => e.1 != (s.port p).probe % 65535 + 1) ++ [((s.port p).probe % 65535 + 1, s.dev.time)] }))
  ∧ (∀ (s : State) p, p < 7 →
    exec (.probeSampleTimeout p) s = .next (s.setPort p { s.port p with probes := (s.port p).probes.drop 1 }))
  ∧ (∀ (s : State) p k, s.rxFirst p 0x0B k = true → k.bad = false →
    exec (.epoch p k) s = .next (xoffSync p (linkFault p (takeRx p k s))))
  ∧ (∀ (s : State) p k u, s.pmFirst p 0 = some k → k.bad = false → u = takeRx p k s →
    (u.lst p ≠ 3 → exec (.sleepReq p) s = .next (xoffSync p u))
    ∧ (u.lst p = 3 → s.portIdle p = false → exec (.sleepReq p) s = .next (xoffSync p (sendPm p 2 u)))
    ∧ (u.lst p = 3 → s.portIdle p = true → (u.port p).sleep ≠ 1 → exec (.sleepReq p) s = .next (xoffSync p (setSleep p 2 (sendPm p 1 u))))
    ∧ (u.lst p = 3 → s.portIdle p = true → (u.port p).sleep = 1 → exec (.sleepReq p) s = .next (xoffSync p (setSleep p 2 u))))
  ∧ (∀ (s : State) p k, s.pmFirst p 1 = some k → k.bad = false → ((takeRx p k s).port p).sleep = 1 →
    exec (.sleepAck p) s = .next (xoffSync p (setSleep p 2 (takeRx p k s))))
  ∧ (∀ (s : State) p k, s.pmFirst p 2 = some k → k.bad = false → ((takeRx p k s).port p).sleep = 1 →
    exec (.sleepNak p) s = .next (xoffSync p (setSleep p 0 (takeRx p k s))))
  ∧ (∀ (s : State) p, p < 7 → s.lst p = 3 → s.is (F.LPn_PROTO_CFG_SLEEP_IDLE_US p) = true → (s.port p).sleep = 0 → s.portIdle p = true →
    exec (.sleepIdleExpiry p) s = .next (setSleep p 1 (sendPm p 0 s)))
  ∧ (∀ (s : State) p, p < 7 → s.lst p = 3 → (s.port p).sleep ≠ 0 →
    exec (.sleepHandshakeTimeout p) s = .next (txDrain p (s.setPort p { s.port p with sleep := 0 })))
  ∧ (∀ (s : State) p, p < 6 → s.lst p = 3 → (s.port p).sleep = 2 → (s.port p).peerHold = true → (s.port p).unacked = [] →
    ∃ t, exec (.sleepEntry p) s = .next t ∧ t.lst p = 7 ∧ t.get (F.LPn_LINK_STS_LAST_CAUSE p) = 10 ∧ t.out = s.out ++ [.eios p] ∧ t.ports = s.ports)
  ∧ (∀ (s : State) p, p < 7 → s.lst p = 7 →
    exec (.sleepExit p) s = .next (toRetrain p 11 (s.setPort p { s.port p with sleep := 0, peerHold := false })))

/-- For MRD, MWR, ATOM, CFG, CPL, CPLD, ERR, MSG_INT, MSG_INT_EFFECT, MSG_SB and CFG_ANSWER_TIMEOUT: the next state that exec
answers for a packet that is the first of its VC, in the order malformed, mode, envelope of the VC (the model's order,
DEDUCED, log entry 82), for responses as well; a RSV bit or a LEN that does not fit comes first (DEDUCED, log entry 81). -/
def Obligations.PacketResults : Prop :=
  (∀ (u : State) p k bad f,
    (bad = true → request p k bad f u = errPkt p k.tag false k.env (pktDa k) 5 (faultEvent (portBlk p) 34 0 u))
    ∧ (bad = false → u.isRsp p k.vc = false → u.dev.mode.serving = false → request p k bad f u = errPkt p k.tag false k.env (pktDa k) 7 u)
    ∧ (bad = false → u.isRsp p k.vc = false → u.dev.mode.serving = true → (∃ e, u.vcBound p k.vc = some e ∧ k.env ≠ e) →
        request p k bad f u = errPkt p k.tag false k.env (pktDa k) 1 (faultEvent (portBlk p) 35 0 u))
    ∧ (bad = false → u.isRsp p k.vc = false → u.dev.mode.serving = true → (∀ e, u.vcBound p k.vc = some e → k.env = e) → request p k bad f u = f u))
  ∧ (∀ (u : State) p k f, k.bad = true →
    act p k f u = xoffSync p (badPkt p k (takeRx p k u))
    ∧ ([1, 2, 5, 0x0A].contains k.op = true → badPkt p k u = errPkt p k.tag false k.env (pktDa k) 5 (faultEvent (portBlk p) 34 0 u))
    ∧ ([3, 4, 8, 0x0B, 0x0C].contains k.op = true → badPkt p k u = faultEvent (portBlk p) 34 0 u))
  ∧ (∀ (s : State) p k, s.rxFirst p 1 k = true → k.bad = false → (s.port p).npIn.length < 4096 → exec (.mrd p k) s
    = .next (xoffSync p (request p k (pktBadRange k || ((takeRx p k s).port p).npIn.contains k.tag) (npRequest p .read k (pktCnt k)) (takeRx p k s))))
  ∧ (∀ (s : State) p k, s.rxFirst p 2 k = true → k.bad = false → exec (.mwr p k) s
    = .next (xoffSync p (request p k (pktBadRange k || k.data.length != pktCnt k || ((takeRx p k s).port p).npIn.contains k.tag)
        (fun u => if pktPoison k then u else wxlAccess { f := u.partnerFrame p .write k (pktCnt k) } u) (takeRx p k s))))
  ∧ (∀ (s : State) p k, s.rxFirst p 5 k = true → k.bad = false → (s.port p).npIn.length < 4096 → exec (.atom p k) s
    = .next (xoffSync p (request p k (p == 6 || pktDa k % 8 != 0 || k.addr / 2 ^ 48 % 4 == 3 || k.data.length != 16
        || ((takeRx p k s).port p).npIn.contains k.tag) (npRequest p .atomic k 8) (takeRx p k s))))
  ∧ (∀ (s : State) p k, s.rxFirst p 0x0A k = true → k.bad = false → (takeRx p k s).isRsp p k.vc = false → ((takeRx p k s).port p).npIn.contains k.tag = false →
    exec (.cfg p k) s = .next (xoffSync p (errPkt p k.tag false k.env (pktDa k) 6 (takeRx p k s))))
  ∧ (∀ (s : State) p k u, s.rxFirst p 4 k = true → k.bad = false → u = takeRx p k s → u.isRsp p k.vc = true →
    (∀ n, ((u.port p).np.find? fun m => m.tag == k.tag) = some n → n.quarantined = false → exec (.cpld p k) s = .next (xoffSync p (cpldNp p k n u)))
    ∧ (∀ n, ((u.port p).np.find? fun m => m.tag == k.tag) = some n → n.quarantined = true → bitOf k.flags 2 = true →
        exec (.cpld p k) s = .next (xoffSync p (npFree p k.tag (u.bump (F.LPn_OUTAGE_STS_LATE p)))))
    ∧ (((u.port p).np.find? fun m => m.tag == k.tag) = none → (u.port p).cfgTag ≠ some k.tag → exec (.cpld p k) s = .next (xoffSync p (malformed p u)))
    ∧ (((u.port p).np.find? fun m => m.tag == k.tag) = none → (u.port p).cfgTag = some k.tag → u.is (F.LPn_CFG_CMD_WRITE p) = false → 8 ≤ k.data.length →
        exec (.cpld p k) s = .next (xoffSync p (cfgDone p (b2n (pktPoison k || decide (2 ≤ k.status))) (u.put (F.LPn_CFG_DATA_DATA p) (bytesAt k.data 0 8))))))
  ∧ (∀ (s : State) p k u, s.rxFirst p 3 k = true → k.bad = false → u = takeRx p k s → u.isRsp p k.vc = true →
    (∀ n, ((u.port p).np.find? fun m => m.tag == k.tag) = some n → n.quarantined = false → exec (.cpl p k) s = .next (xoffSync p (npPoison p n (npFree p k.tag u))))
    ∧ (((u.port p).np.find? fun m => m.tag == k.tag) = none → (u.port p).cfgTag = some k.tag →
        exec (.cpl p k) s = .next (xoffSync p (cfgDone p (b2n (pktPoison k || k.status != 0 || !u.is (F.LPn_CFG_CMD_WRITE p))) u))))
  ∧ (∀ (s : State) p k u, s.rxFirst p 8 k = true → k.bad = false → u = takeRx p k s → u.isRsp p k.vc = true →
    (p < 6 → 0x1000 ≤ k.tag → k.tag ≤ 0x3FFF → exec (.err p k) s = .next (xoffSync p (postedErr p k u)))
    ∧ (∀ n, k.tag < 0x1000 → ((u.port p).np.find? fun m => m.tag == k.tag) = some n → n.quarantined = false →
        exec (.err p k) s = .next (xoffSync p (npPoison p n (npFree p k.tag u)))))
  ∧ (∀ (s : State) p k, s.rxFirst p 6 k = true → k.bad = false → p < 6 → (s.icu.msgs.filter fun m => m.port == p).length < 256 → ∃ u, u = takeRx p k s
    ∧ exec (.msgInt p k) s = .next (xoffSync p (request p k false (fun t => { t with icu := { t.icu with msgs := t.icu.msgs ++ [{ port := p, vc := k.vc, vector := k.addr % 128, action := k.addr / 256 % 4, env := k.env, ser := KMap.get (t.port p).ser 0 k.vc }] } }) u)))
  ∧ (∀ (s : State) p m n u, s.msgReady p = some m → n = 256 + 128 * m.port + m.vector → u = { s with icu := { s.icu with msgs := s.icu.msgs.erase m } } →
    (bitOf (s.get (F.ICU_SRC_CFG_TARGETS n)) 8 = true → s.get (F.ICU_SRC_CFG_HOST_FN n) ≠ 0 → s.fnEnv (s.get (F.ICU_SRC_CFG_HOST_FN n)) ≠ some m.env →
      exec (.msgIntEffect p) s = .next (faultEvent .icu 1 (n % 1024 + m.env % 1024 * 2 ^ 16) (u.bump F.ICU_STS_ENV_DROP)))
    ∧ (bitOf (s.get (F.ICU_SRC_CFG_TARGETS n)) 8 = false → m.action = 0 → exec (.msgIntEffect p) s = .next (icuEvent n (u.put (F.ICU_SRC_STS_ENV n) m.env)))
    ∧ (bitOf (s.get (F.ICU_SRC_CFG_TARGETS n)) 8 = false → m.action = 1 → exec (.msgIntEffect p) s = .next (icuLevel n true (u.put (F.ICU_SRC_STS_ENV n) m.env)))
    ∧ (bitOf (s.get (F.ICU_SRC_CFG_TARGETS n)) 8 = false → m.action = 2 → exec (.msgIntEffect p) s = .next (icuLevel n false (u.put (F.ICU_SRC_STS_ENV n) m.env))))
  ∧ (∀ (s : State) p k, s.rxFirst p 7 k = true → k.bad = false → p < 6 → (takeRx p k s).isRsp p k.vc = false → (takeRx p k s).vcWrong p k = false →
    exec (.msgSb p k) s = .next (xoffSync p (sbIn p k (takeRx p k s))))
  ∧ (∀ (s : State) p, p < 6 → s.is (F.LPn_CFG_CMD_GO p) = true → ∃ t, exec (.cfgAnswerTimeout p) s = .next t
    ∧ t.is (F.LPn_CFG_CMD_GO p) = false ∧ t.get (F.LPn_CFG_CMD_RESULT p) = 2 ∧ (t.port p).cfgTag = none ∧ (∀ o, o ≠ R.LPn_CFG_CMD p → t.reg o = s.reg o))

/-- For CLAIM, HOST_CLAIM, HOST_COMPLETE, HOST_PROXY_EVENT and MSIX_ENTRY_READ_DONE: the next state that exec answers. CLAIM
answers its reader the value that the read of ICU_CLAIM gives. -/
def Obligations.InterruptResults : Prop :=
  (∀ (s : State) c a v, c < 8 → (ctlRead a (R.ICU_CLAIM c) 64 s).2 = some v →
    exec (.claim c a) s = .next ((ctlRead a (R.ICU_CLAIM c) 64 s).1.emit (.ctlData a v.toNat)))
  ∧ (∀ (s : State) c a, c < 8 → (ctlRead a (R.ICU_CLAIM c) 64 s).2 = none →
    exec (.claim c a) s = .next (ctlRead a (R.ICU_CLAIM c) 64 s).1)
  ∧ (∀ (s : State) f tag, s.hostRx = true → exec (.hostClaim f tag) s = .next (hostMem (claimReq f 0 tag 0) s))
  ∧ (∀ (s : State) f v, s.hostRx = true → exec (.hostComplete f v) s = .next (hostMem (claimReq f 1 0 v) s))
  ∧ (∀ (s : State) e r, s.icu.hpq = e :: r → s.recordAheadOf e.fn = false →
    exec .hostProxyEvent s = .next (hpDeliver e { s with icu := { s.icu with hpq := r } }))
  ∧ (∀ (s : State) e r, s.icu.hpq = e :: r → s.recordAheadOf e.fn = true → exec .hostProxyEvent s = .next s)
  ∧ (∀ (s : State) f k e, (s.icu.msixRead.find? fun e => e.fn == f && e.vec == k) = some e →
    s.hbmPoison (s.msixOff (s.msixBase f + k)) = false →
    exec (.msixEntryReadDone f k .ok) s
      = .next (msixDeliver f k false { s with icu := { s.icu with msixRead := s.icu.msixRead.erase e } }))
  ∧ (∀ (s : State) f k, (s.msixE (s.msixBase f + k)).masked = true →
    msixDeliver f k false s = s.setMsixE (s.msixBase f + k) { s.msixE (s.msixBase f + k) with pending := true })
  ∧ (∀ (s : State) f k, (s.msixE (s.msixBase f + k)).masked = false → (s.fnOf f).msixMask = false → (s.fnOf f).msixEn = true →
    s.mayMsg f = true → msixDeliver f k false s = msgFrame f k (s.msixE (s.msixBase f + k)).addr (s.msixE (s.msixBase f + k)).data
      false (s.setMsixE (s.msixBase f + k) { s.msixE (s.msixBase f + k) with pending := false }))
  ∧ (∀ (s : State) f k, msixDeliver f k true s = faultEvent .icu 3 (s.msixBase f + k)
    (s.setMsixE (s.msixBase f + k) { s.msixE (s.msixBase f + k) with pending := true }))

/-- For DEV_ENABLE, DEV_QUIESCE, SLEEP, FORCE_SAFE and REGISTER_WRITE: the next state that exec answers where the write is taken.
FORCE_SAFE enters SAFE from every other mode, QUIESCE enters QUIESCE from RUN and DEGRADED, SLEEP enters TETHER from a
drained QUIESCE, ENABLE in CONFIG queues the check of transition 4. -/
def Obligations.DevResults : Prop :=
  (∀ (s : State) a v r, s.Takes a .dev R.DEV_CTL r (withField v 4 1 1) → s.dev.mode ≠ .safe →
    ∃ t, exec (.forceSafe a v) s = .next t ∧ t.dev.mode = .safe ∧ t.dev.cause = 10)
  ∧ (∀ (s : State) a v r, s.Takes a .dev R.DEV_CTL r v → s.dev.mode.running = true → fieldOf v 1 1 = 1 → fieldOf (s.reg R.DEV_CTL) 1 1 = 0 →
    fieldOf v 2 1 = 0 → fieldOf v 4 1 = 0 → ∃ t, exec (.devQuiesce a v) s = .next t ∧ t.dev.mode = .quiesce ∧ t.dev.cause = 6)
  ∧ (∀ (s : State) a v r, s.Takes a .dev R.DEV_CTL r (withField v 2 1 1) → s.dev.mode = .quiesce → s.is F.DEV_STS_DRAINED = true →
    fieldOf v 4 1 = 0 → ∃ t, exec (.sleep a v) s = .next t ∧ t.dev.mode = .tether ∧ t.dev.cause = 9)
  ∧ (∀ (s : State) a v r, s.Takes a .dev R.DEV_CTL r (withField v 0 1 1) → s.dev.mode = .config → fieldOf (s.reg R.DEV_CTL) 0 1 = 0 →
    fieldOf v 1 1 = 0 → fieldOf (s.reg R.DEV_CTL) 1 1 = 0 → fieldOf v 2 1 = 0 → fieldOf v 4 1 = 0 →
    exec (.devEnable a v) s = .next ((pushOnce R.DEV_CTL (withField v 0 1 1) (some 0)
      (s.put F.DEV_CTL_D3COLD_SLEEP (fieldOf (withField v 0 1 1) 3 1))).put F.DEV_CTL_QUIESCE (fieldOf (withField v 0 1 1) 1 1)))
  ∧ (∀ (s : State) a off v, s.mayControl a = true → exec (.registerWrite a off v 64) s = .next (ctlWriteBy a off v 64 s))
  ∧ (∀ (s : State) f off v, s.hostRx = true → exec (.registerWrite (.fn f) off v 64) s
    = .next (hostMem { fn := f, bar := if f = 0 then 2 else 0, off := off, kind := 1, len := 8, data := toBytes 8 v.toNat, tag := 0, poisoned := false, single := true } s))
  ∧ (∀ (s : State) a off v b r w, s.Takes a b off r v → w ≠ 64 → exec (.registerWrite a off v w) s = .next (notice b off s))
  ∧ (∀ (s : State) a off v b r, s.mayControl a = true → blockAt off = some b → s.reaches a b = true → s.hasBlk b = true → off < 0x1600000 →
    off % 8 = 0 → s.regDef off = some r → s.ctlRefused s.dev.mode off v = true →
    exec (.registerWrite a off v 64) s = .next (notice b off s))

/-- For FAST_ENTRY, FAST_RETURN, FAST_TRAP, GCLAIM, GCOMPLETE, GMBHEAD, GMBDONE, GYIELD, GDOORBELL and GMBSTAT_READ: the next
state that exec answers on a core that runs, and that in user mode each of the CSR accesses raises the illegal-instruction
exception and changes nothing else. The CSR's field layout is the spec's; that an access while ACTIVE 1 which raises an
exception halts the core in the same command is the model's (log entry 92). -/
def Obligations.CoreResults : Prop :=
  (∀ (s : State) c x, c < 8 → s.coreOnline c = true → s.coreOf c = x → x.fastActive = false → x.fastEn = true → s.fastRequest c = true →
    exec (.fastEntry c) s = .next (s.setCore c { x with x := x.shadow, shadow := x.x, fastEpc := BitVec.ofNat 64 x.pc, fastFrom := x.machine, fastActive := true, machine := true, pc := x.fastVec.toNat }))
  ∧ (∀ (s : State) c v x, c < 8 → s.coreOnline c = true → s.coreOf c = x → x.fastActive = true → x.machine = true →
    exec (.fastReturn c v) s = .next (s.setCore c { x with fastEn := fieldOf v 0 1 == 1, x := x.shadow, shadow := x.x, pc := x.fastEpc.toNat, machine := x.fastFrom, fastActive := false }))
  ∧ (∀ (s : State) c, c < 8 → s.coreOnline c = true → (s.coreOf c).fastActive = true → faulted c s (coreLeave c 3 1 s) = false →
    exec (.fastTrap c) s = .next (coreLeave c 3 1 s))
  ∧ (∀ (s : State) c, c < 8 → s.coreOnline c = true → (s.coreOf c).fastActive = false → (s.coreOf c).machine = true →
    exec (.gclaim c) s = .next ((coreClaim c s).1.emit (.core c 0 (coreClaim c s).2.toNat)))
  ∧ (∀ (s : State) c n, c < 8 → s.coreOnline c = true → (s.coreOf c).fastActive = false → (s.coreOf c).machine = true → n < 2048 →
    exec (.gcomplete c n) s = .next (icuDone c n s))
  ∧ (∀ (s : State) c h, c < 8 → s.coreOnline c = true → (s.coreOf c).fastActive = false → (s.coreOf c).machine = true → h < 16 →
    exec (.gmbhead c h) s = .next (mbHead c h s))
  ∧ (∀ (s : State) c, (s.coreOf c).head = 0 → (s.mbox c 0).st = 1 → (∀ k < 16, k ≠ 0 → (s.mbox c k).st ≠ 1) →
    ∃ u, mbHead c 1 s = mboxSync c (u.setCore c { u.coreOf c with head := 1 }) ∧ u = s.setMbox c 0 { s.mbox c 0 with st := 2 })
  ∧ (∀ (s : State) c v, c < 8 → s.coreOnline c = true → (s.coreOf c).fastActive = false → (s.coreOf c).machine = true →
    exec (.gmbdone c v) s = .next (mbDone c (fieldOf v 0 4) s))
  ∧ (∀ (s : State) c k w, (s.mbox c k).st = 2 → wordAt (s.mbox c k).area 0 = w → fieldOf w 0 8 ≤ 0x0D →
    mbDone c k s = qResume (s.mbox c k).sq (stopSettle (s.mbox c k).sq (mboxDone c k (fieldOf w 0 8) (fieldOf w 32 32) (fieldOf (wordAt (s.mbox c k).area 8) 0 41) s)))
  ∧ (∀ (s : State) c v, c < 8 → s.coreOnline c = true → (s.coreOf c).fastActive = false → (s.coreOf c).machine = true →
    exec (.gyield c v) s = .next (mbYield c (fieldOf v 0 16) (fieldOf v 16 4) s))
  ∧ (∀ (s : State) c v, c < 8 → s.coreOnline c = true → (s.coreOf c).fastActive = false → (s.coreOf c).machine = true →
    exec (.gdoorbell c v) s = .next (coreDoorbell c v s))
  ∧ (∀ (s : State) c v q e, s.dev.mode ≠ .safe → fieldOf v 0 22 = q → s.get (F.GDC_CORE_CTL_ENV c) = e →
    (s.coreDev c = true ∨ (s.qblkEnv q = some e ∧ s.owns e = true) → coreDoorbell c v s = qArrive q (.doorbell (4096 + c) (fieldOf v 48 16)) s)
    ∧ (s.coreDev c = false → s.qblkEnv q ≠ some e ∨ s.owns e = false → coreDoorbell c v s = dbDrop q (4096 + c) F.QEN_DB_DROP_ENV s))
  ∧ (∀ (s : State) c, c < 8 → s.coreOnline c = true → (s.coreOf c).fastActive = false → (s.coreOf c).machine = true →
    exec (.gmbstatRead c) s = .next (mbStat c s))
  ∧ (∀ (s : State) c v n, c < 8 → s.coreOnline c = true → (s.coreOf c).fastActive = false → (s.coreOf c).machine = false →
    exec (.fastReturn c v) s = .next (s.emit (.core c 2 0x7C1)) ∧ exec (.gclaim c) s = .next (s.emit (.core c 2 0xFC0))
    ∧ exec (.gcomplete c n) s = .next (s.emit (.core c 2 0x7C3)) ∧ exec (.gmbhead c n) s = .next (s.emit (.core c 2 0x7C4))
    ∧ exec (.gmbdone c v) s = .next (s.emit (.core c 2 0x7C5)) ∧ exec (.gyield c v) s = .next (s.emit (.core c 2 0x7C7))
    ∧ exec (.gdoorbell c v) s = .next (s.emit (.core c 2 0x7C6)) ∧ exec (.gmbstatRead c) s = .next (s.emit (.core c 2 0xFC2)))

/-- For CORE_MEMORY_ACCESS in every region of Table 14.1, ENVELOPE_VIEW_ANSWER, MAILBOX_PLACE and CORE_QUIESCE_END: the next
state that exec answers where the command acts. -/
def Obligations.CoreMemoryResults : Prop :=
  (∀ (s : State) r u, r.core < 8 → s.coreOnline r.core = true → (s.coreOf r.core).fastActive = false → (s.coreOf r.core).load = none → (s.coreOf r.core).yield = none → 1 ≤ r.len → r.len ≤ 8 → r.kind ≤ 3 → (r.kind = 1 → r.len ≤ r.data.length) →
    u = s.setCore r.core { s.coreOf r.core with machine := r.machine, pc := if r.kind = 3 then r.addr else (s.coreOf r.core).pc } →
    exec (.coreMemoryAccess r) s = .next (coreMem r u))
  ∧ (∀ (u : State) r, (r.addr + r.len ≤ 0x40000 → coreMem r u = tcmAccess r u)
    ∧ (0x100000 ≤ r.addr → r.addr + r.len ≤ 0x100800 → r.kind ≤ 1 → coreMem r u = mboxAccess r u)
    ∧ (0x101000 ≤ r.addr → r.addr + r.len ≤ 0x101008 → 1 ≤ r.len → r.kind ≤ 1 → coreMem r u = timeCmpAccess r u)
    ∧ (2 ^ 32 ≤ r.addr → r.addr + r.len ≤ 2 ^ 32 + (u.gdcMem r.core).2 → 1 ≤ r.len → coreMem r u = gdcMemAccess r u)
    ∧ ((u.gdcMem r.core).2 ≤ 2 ^ 32 → 2 ^ 33 ≤ r.addr → r.addr + r.len ≤ 2 ^ 33 + 0x4000000 → 1 ≤ r.len → r.kind ≤ 1 → coreMem r u = coreControl r u)
    ∧ ((u.gdcMem r.core).2 ≤ 2 ^ 32 → 2 ^ 55 ≤ r.addr → r.addr + r.len ≤ 2 ^ 55 + 2 ^ 48 → 1 ≤ r.len → r.kind ≤ 1 → coreMem r u = coreView r u)
    ∧ (0x40000 ≤ r.addr → r.addr + r.len ≤ 0x100000 → 1 ≤ r.len → coreMem r u = coreFault r.core 1 (faultCause r.kind) r.addr u))
  ∧ (∀ (u : State) r, r.kind = 1 → tcmAccess r u = tcmWrite r.core r.addr (r.data.take r.len) u)
  ∧ (∀ (u : State) r, r.kind = 0 → tcmAccess r u = u.emit (.core r.core 0 (ofBytes ((List.range r.len).map fun j => KMap.get u.tcm 0 (0x40000 * r.core + r.addr + j)))))
  ∧ (∀ (s : State) c addr n ans data, c < 8 → s.coreOnline c = true → (s.coreOf c).fastActive = false → (s.coreOf c).load = some (addr, n) →
    (s.coreOf c).loadAns = some (ans, data) →
    (ansGood ans = true → exec (.envelopeViewAnswer c) s = .next ((s.setCore c { s.coreOf c with load := none, loadAns := none }).emit (.core c 0 (ofBytes data))))
    ∧ (ansGood ans = false → exec (.envelopeViewAnswer c) s = .next (coreFault c (coreReason ans) 5 addr s)))
  ∧ (∀ (s : State) q c k u, s.ctlWaits 0x0E q = true → s.callEntry q = none → s.callCheck q = none → c = s.df q 0 8 3 →
    (((List.range 16).map fun j => ((s.coreOf c).tail + j) % 16).find? fun j => (s.mbox c j).st == 0) = some k →
    u = s.setMbox c k { st := 1, desc := (List.range 8).flatMap (fun j => toBytes 8 (s.ctxW q (8 + j)).toNat), sq := q, opSeq := s.cget q C.CK_SEQ, env := s.cget q C.ENV, abort := false, time := s.dev.time % 2 ^ 48, area := (s.mbox c k).area } →
    exec (.mailboxPlace q) s = .next (mboxSync c (u.setCore c { u.coreOf c with tail := (k + 1) % 16 })))
  ∧ (∀ (s : State) q st, s.ctlWaits 0x0E q = true → s.callEntry q = none → s.callCheck q = some st → exec (.mailboxPlace q) s = .next (opDone q st s))
  ∧ (∀ (s : State) c, c < 8 → s.get (F.GDC_CORE_STS_STATE c) = 2 → exec (.coreQuiesceEnd c) s = .next (coreLeave c 3 0 s))

/-- For FAULT_WINDOW_CLOSE, FAULT_GRACE_EXPIRY, FAULT_QUIET_EXPIRY and SELF_TEST_END on a source that the configuration's block
lists, and for ACKNOWLEDGE, ACKNOWLEDGE_ALL, LATCH_REARM, SELFTEST_GO, SOURCE_CONFIG_WRITE and GRACE_WRITE whose write of the
fault page is taken: the next state that exec answers. -/
def Obligations.FaultResults : Prop :=
  (∀ (s : State) n id b, (Blk.all.find? fun x => x.bit == n) = some b → s.dev.up = true → s.hasBlk b = true → srcLevel b id ≠ 0 →
    exec (.faultWindowClose n id) s = .next (s.put (F.FLT_SRC_CNT_WIN_CNT b.base id) 0))
  ∧ (∀ (s : State) n id b, (Blk.all.find? fun x => x.bit == n) = some b → s.dev.up = true → s.hasBlk b = true → srcLevel b id ≠ 0 →
    id < 64 → s.is (F.FLT_SRC_CNT_GRACE b.base id) = true → s.get (F.FLT_SRC_CNT_LEVEL b.base id) = 5 → s.dev.mode ≠ .safe →
    ∃ t, exec (.faultGraceExpiry n id) s = .next t ∧ t.dev.mode = .safe ∧ t.dev.cause = 10 ∧ t.dev.prev = s.dev.mode.code)
  ∧ (∀ (s : State) n id b, (Blk.all.find? fun x => x.bit == n) = some b → s.dev.up = true → s.hasBlk b = true → srcLevel b id ≠ 0 →
    id < 64 → s.is (F.FLT_SRC_CNT_GRACE b.base id) = true → s.get (F.FLT_SRC_CNT_LEVEL b.base id) < 3 → s.dev.mode ≠ .boot →
    exec (.faultGraceExpiry n id) s = .next (s.put (F.FLT_SRC_CNT_GRACE b.base id) 0))
  ∧ (∀ (s : State) n id b, (Blk.all.find? fun x => x.bit == n) = some b → s.dev.up = true → s.hasBlk b = true → srcLevel b id ≠ 0 →
    id < 64 → s.is (F.FLT_SRC_CNT_GRACE b.base id) = true → s.get (F.FLT_SRC_CNT_LEVEL b.base id) = 4 → s.dev.mode = .run →
    ∃ u, exec (.faultGraceExpiry n id) s = .next (u.setFlt b id { u.fltOf b id with last := s.dev.time })
      ∧ u = reduceService (fenceUnit b id (s.fltOf b id).info (s.put (F.FLT_SRC_CNT_GRACE b.base id) 0)))
  ∧ (∀ (s : State) n id b, (Blk.all.find? fun x => x.bit == n) = some b → s.dev.up = true → s.hasBlk b = true → srcLevel b id ≠ 0 →
    id < 64 → s.is (F.FLT_SRC_CNT_ACTIVE b.base id) = true → s.get (F.FLT_SRC_CNT_LEVEL b.base id) ≠ 5 →
    s.is (F.FLT_SRC_CNT_GRACE b.base id) = false → s.is (F.FLT_SRC_CNT_TESTING b.base id) = false →
    exec (.faultQuietExpiry n id) s = .next ((faultClear b id s).bump (F.FLT_RECOV_COUNT b.base)))
  ∧ (∀ (s : State) n id b, (Blk.all.find? fun x => x.bit == n) = some b → s.dev.up = true → s.hasBlk b = true → srcLevel b id ≠ 0 →
    id < 64 → s.is (F.FLT_SRC_CNT_TESTING b.base id) = true → b = .swc ∨ b = .wxl ∨ b = .gdc ∨ b = .hep ∨ b = .icu ∨ b = .spl →
    (s.fltOf b id).more = [] → exec (.selfTestEnd n id true) s = .next (testDone b id true (s.setFlt b id { s.fltOf b id with more := [] })))
  ∧ (∀ (s : State) n id b, (Blk.all.find? fun x => x.bit == n) = some b → s.dev.up = true → s.hasBlk b = true → srcLevel b id ≠ 0 →
    id < 64 → s.is (F.FLT_SRC_CNT_TESTING b.base id) = true → b = .swc ∨ b = .wxl ∨ b = .gdc ∨ b = .hep ∨ b = .icu ∨ b = .spl →
    (s.fltOf b id).more = [] → exec (.selfTestEnd n id false) s
      = .next (retireRes b id (s.fltOf b id).test (testDone b id false (s.setFlt b id { s.fltOf b id with more := [] }))))
  ∧ (∀ (s : State) a n id b r, (Blk.all.find? fun x => x.bit == n) = some b → id < 64 → s.Takes a b (b.base + (0xF000 + 0x28)) r (BitVec.ofNat 64 id) →
    exec (.acknowledge a n id) s = .next (irqSync 3 b (s.put (F.FLT_SRC_CNT_ACK_PEND b.base id) 0)))
  ∧ (∀ (s : State) a n b r, (Blk.all.find? fun x => x.bit == n) = some b → s.Takes a b (b.base + (0xF000 + 0x28)) r 0x100 →
    exec (.acknowledgeAll a n) s = .next (irqSync 3 b ((List.range 64).foldl (fun t i => t.put (F.FLT_SRC_CNT_ACK_PEND b.base i) 0) s)))
  ∧ (∀ (s : State) a n b r, (Blk.all.find? fun x => x.bit == n) = some b → s.Takes a b (b.base + (0xF000 + 0x28)) r 0x200 →
    exec (.latchRearm a n) s
      = .next (((s.put (F.FLT_FIRST_VALID b.base) 0).put (F.FLT_OVF_OVF b.base) 0).put (F.FLT_OVF_COUNT b.base) 0))
  ∧ (∀ (s : State) a n id b r, (Blk.all.find? fun x => x.bit == n) = some b → id < 64 →
    s.Takes a b (b.base + (0xF000 + 0x50)) r (BitVec.ofNat 64 (4 + id * 256)) →
    exec (.selftestGo a n id) s = .next (graceEnd b id (s.put (F.FLT_SELFTEST_ID b.base) id)))
  ∧ (∀ (s : State) a n id v b r, (Blk.all.find? fun x => x.bit == n) = some b → id < 64 → s.Takes a b (b.base + (0xF000 + (0x100 + 8 * id))) r v →
    fieldOf (s.reg (b.base + (0xF000 + (0x100 + 8 * id)))) 0 1 = 1 → fieldOf v 0 1 = 1 → fltSame (s.reg (b.base + (0xF000 + (0x100 + 8 * id)))) v = false →
    exec (.sourceConfigWrite a n id v) s = .next (pushCheck (b.base + (0xF000 + (0x100 + 8 * id))) (v &&& r.known) none s))
  ∧ (∀ (s : State) a n v b r, (Blk.all.find? fun x => x.bit == n) = some b → s.Takes a b (b.base + (0xF000 + 0x30)) r v →
    exec (.graceWrite a n v) s = .next (pushCheck (b.base + (0xF000 + 0x30)) (v &&& r.known) none s))

/-- For HANDOVER_GIVE, PAIR_CONTROL_PACKET, SYNC_COMPLETE, SYNC_TIMEOUT, HEARTBEAT_EDGE, HEARTBEAT_SILENCE, PAIR_PROBE_TIMEOUT
and FAILOVER_CONFIRM_DELAY in configuration PAIR: the next state that exec answers where the command acts. That an edge
counts only where the level changes and a silence once is the model's (DEDUCED, log entry 112). -/
def Obligations.PairResults : Prop :=
  (∀ (s : State), s.dev.up = true → s.hasBlk .prl = true → s.prl.giving ≠ [] → s.paired = true → s.is F.DEV_STS_DRAINED = true → s.prl.unmirrored = [] →
    exec (.handoverGive) s = .next (let u := pairReply { sbPair (s.prl.giving.foldl (fun t e => setOwn e false t) s) with prl := { (sbPair (s.prl.giving.foldl (fun t e => setOwn e false t) s)).prl with giving := [] } }
      icuEvent 61 (quiesceClear 2 u)))
  ∧ (∀ (s : State) q w, s.dev.up = true → s.hasBlk .prl = true → s.flits 6 = true →
    exec (.pairControlPacket (.queueItem q w)) s = .next (pairReply (mirrorCtx q w s)))
  ∧ (∀ (s : State) q w, s.dev.up = true → s.hasBlk .prl = true → s.flits 6 = true →
    exec (.pairControlPacket (.syncItem q w)) s = .next (pairReply (mirrorCtx q w s)))
  ∧ (∀ (s : State) q, s.dev.up = true → s.hasBlk .prl = true → s.flits 6 = true →
    exec (.pairControlPacket (.recordMark q)) s = .next (pairReply { s.setQa q { s.qa q with held := none } with prl := { s.prl with atomMark := s.prl.atomMark.filter fun k => k != q } }))
  ∧ (∀ (s : State) l, s.dev.up = true → s.hasBlk .prl = true → s.flits 6 = true →
    exec (.pairControlPacket (.xlate l)) s = .next (pairReply (mirrorXlate l s)))
  ∧ (∀ (s : State), s.dev.up = true → s.hasBlk .prl = true → s.flits 6 = true →
    exec (.pairControlPacket (.safe)) s = .next (failover 1 { s with prl := { s.prl with detected := s.dev.time } }))
  ∧ (∀ (s : State) es, s.dev.up = true → s.hasBlk .prl = true → s.flits 6 = true →
    exec (.pairControlPacket (.handover es)) s = .next (takeEnvs false es { s with prl := { s.prl with detected := s.dev.time } }))
  ∧ (∀ (s : State), s.dev.up = true → s.hasBlk .prl = true → s.flits 6 = true →
    exec (.pairControlPacket (.probe)) s = .next (pairReply s))
  ∧ (∀ (s : State), s.dev.up = true → s.hasBlk .prl = true → s.flits 6 = true →
    exec (.pairControlPacket (.checkAsk)) s = .next (pairReply s))
  ∧ (∀ (s : State) w, s.dev.up = true → s.hasBlk .prl = true → s.flits 6 = true → s.get F.PRL_PAIR_STS_STATE = 1 →
    exec (.pairControlPacket (.syncDone w)) s = .next ({ s with prl := { s.prl with gotSync := true, peerOwn := w } }))
  ∧ (∀ (s : State) x l, s.dev.up = true → s.hasBlk .prl = true → s.flits 6 = true → s.prl.unmirrored = x :: l → ∃ t, exec (.pairControlPacket .ack) s = .next t ∧ t.prl.unmirrored = l
    ∧ (t.reg R.PRL_MIRROR).toNat = (s.bump F.PRL_MIRROR_SENT |>.reg R.PRL_MIRROR).toNat)
  ∧ (∀ (s : State), s.dev.up = true → s.hasBlk .prl = true → s.get F.PRL_PAIR_STS_STATE = 1 →
    exec (.syncTimeout) s = .next (pairRecheck (pairState 4 (faultEvent .prl 51 0 s))))
  ∧ (∀ (s : State), s.dev.up = true → s.hasBlk .prl = true → s.get F.PRL_PAIR_STS_STATE = 1 → s.prl.sentSync = true → s.prl.gotSync = true → s.claimed = [] →
    exec (.syncComplete) s = .next (pairFormed s))
  ∧ (∀ (s : State) level, s.dev.up = true → s.hasBlk .prl = true → s.pins.hbIn ≠ level → ∃ u, exec (.heartbeatEdge level) s = .next (hbSource false u)
    ∧ u.is F.PRL_PAIR_STS_HB_OK = true ∧ u.pins.hbIn = level ∧ u.prl.hbSilent = false ∧ u.prl.probing = false ∧ u.prl.confirm = false)
  ∧ (∀ (s : State), s.dev.up = true → s.hasBlk .prl = true → s.prl.hbSilent = false → s.paired = false → ∃ t, exec .heartbeatSilence s = .next t
    ∧ t.is F.PRL_PAIR_STS_HB_OK = false ∧ t.get F.PRL_HB_MISSED = satAdd 16 (s.get F.PRL_HB_MISSED) 1 ∧ t.prl.hbSilent = true)
  ∧ (∀ (s : State), s.dev.up = true → s.hasBlk .prl = true → s.prl.probing = true → s.pins.pairId = 0 →
    exec (.pairProbeTimeout) s = .next (failover 2 s))
  ∧ (∀ (s : State), s.dev.up = true → s.hasBlk .prl = true → s.prl.probing = true → s.pins.pairId = 1 →
    exec (.pairProbeTimeout) s = .next ({ s with prl := { s.prl with probing := false, confirm := true } }))
  ∧ (∀ (s : State), s.dev.up = true → s.hasBlk .prl = true → s.prl.confirm = true →
    exec (.failoverConfirmDelay) s = .next (failover 2 s))
end

