-- ==== Sys2Proof/Laws/Map.lean ====
section
/-! SUPPORT. Laws of the sparse maps: read after write, the canonical form of every operation, and that two maps in the
canonical form that read alike are equal. -/
namespace Sys2Proof.Machine

variable {α : Type}

theorem KMap.find_erase_same (m : KMap α) (k : Nat) : KMap.find (KMap.erase m k) k = none := by
  induction m with
  | nil => rfl
  | cons e r ih =>
    obtain ⟨j, w⟩ := e
    by_cases h : j = k
    · simpa [KMap.erase, h] using ih
    · simpa [KMap.erase, KMap.find, h] using ih

theorem KMap.find_erase_other (m : KMap α) {k i : Nat} (hi : i ≠ k) : KMap.find (KMap.erase m k) i = KMap.find m i := by
  induction m with
  | nil => rfl
  | cons e r ih =>
    obtain ⟨j, w⟩ := e
    by_cases h : j = k
    · have hj : j ≠ i := fun e => hi (e ▸ h)
      simpa [KMap.erase, KMap.find, h, hj, Ne.symm hi] using ih
    · by_cases hj : j = i
      · simp [KMap.erase, KMap.find, hj, hi]
      · simpa [KMap.erase, KMap.find, h, hj] using ih

theorem KMap.find_insert_same (m : KMap α) (k : Nat) (v : α) (hm : KMap.find m k = none) :
    KMap.find (KMap.insert m k v) k = some v := by
  induction m with
  | nil => simp [KMap.insert, KMap.find]
  | cons e r ih =>
    obtain ⟨j, w⟩ := e
    by_cases h : j = k
    · simp [KMap.find, h] at hm
    · by_cases hk : k < j
      · simp [KMap.insert, KMap.find, hk]
      · simp only [KMap.find, h, if_false] at hm
        simpa [KMap.insert, KMap.find, hk, h] using ih hm

theorem KMap.find_insert_other (m : KMap α) {k i : Nat} (v : α) (hi : i ≠ k) :
    KMap.find (KMap.insert m k v) i = KMap.find m i := by
  induction m with
  | nil => simp [KMap.insert, KMap.find, Ne.symm hi]
  | cons e r ih =>
    obtain ⟨j, w⟩ := e
    by_cases hk : k < j
    · simp [KMap.insert, KMap.find, hk, Ne.symm hi]
    · simp only [KMap.insert, hk, if_false, KMap.find, ih]

/-- A read after a write to the same key gives the value written. -/
@[simp] theorem KMap.get_set_same [DecidableEq α] (m : KMap α) (d : α) (k : Nat) (v : α) :
    KMap.get (KMap.set m d k v) d k = v := by
  by_cases h : v = d
  · simp [KMap.get, KMap.set, h, KMap.find_erase_same]
  · simp [KMap.get, KMap.set, h, KMap.find_insert_same _ k v (KMap.find_erase_same m k)]

/-- A write leaves every other key alone. -/
@[simp] theorem KMap.get_set_other [DecidableEq α] (m : KMap α) (d e : α) {k i : Nat} (v : α) (hi : i ≠ k) :
    KMap.get (KMap.set m d k v) e i = KMap.get m e i := by
  by_cases h : v = d
  · simp [KMap.get, KMap.set, h, KMap.find_erase_other m hi]
  · simp [KMap.get, KMap.set, h, KMap.find_insert_other _ v hi, KMap.find_erase_other m hi]

/-- The canonical form in terms of the list: keys strictly rising, and no default listed. -/
theorem KMap.wf_iff [DecidableEq α] (d : Nat → α) (m : KMap α) :
    KMap.wf d m = true ↔ m.Pairwise (fun a b => a.1 < b.1) ∧ ∀ e ∈ m, e.2 ≠ d e.1 := by
  induction m with
  | nil => simp [KMap.wf]
  | cons e r ih =>
    obtain ⟨k, v⟩ := e
    cases r with
    | nil => simp [KMap.wf]
    | cons e2 r =>
      obtain ⟨j, w⟩ := e2
      simp only [KMap.wf, Bool.and_eq_true, ih, Nat.blt_eq, List.pairwise_cons, List.mem_cons, bne_iff_ne]
      constructor
      · rintro ⟨⟨hv, hkj⟩, ⟨hj, hp⟩, hd⟩
        refine ⟨⟨?_, hj, hp⟩, ?_⟩
        · rintro a (rfl | ha)
          · exact hkj
          · exact lt_trans hkj (hj a ha)
        · rintro a (rfl | ha)
          · exact hv
          · exact hd a ha
      · rintro ⟨⟨hk, hj, hp⟩, hd⟩
        exact ⟨⟨hd _ (.inl rfl), hk _ (.inl rfl)⟩, ⟨hj, hp⟩, fun a ha => hd a (.inr ha)⟩

theorem KMap.wf_filter [DecidableEq α] (d : Nat → α) (m : KMap α) (p : Nat × α → Bool) (h : KMap.wf d m = true) :
    KMap.wf d (m.filter p) = true := by
  rw [KMap.wf_iff] at h ⊢
  exact ⟨h.1.sublist List.filter_sublist, fun e he => h.2 e (List.mem_filter.1 he).1⟩

theorem KMap.mem_insert (m : KMap α) (k : Nat) (v : α) (e : Nat × α) :
    e ∈ KMap.insert m k v ↔ e = (k, v) ∨ e ∈ m := by
  induction m with
  | nil => simp [KMap.insert]
  | cons a r ih =>
    by_cases hk : k < a.1
    · simp [KMap.insert, hk]
    · simp only [KMap.insert, hk, if_false, List.mem_cons, ih]
      tauto

theorem KMap.pairwise_insert (m : KMap α) (k : Nat) (v : α) (hm : m.Pairwise (fun a b => a.1 < b.1))
    (hk : ∀ e ∈ m, e.1 ≠ k) : (KMap.insert m k v).Pairwise (fun a b => a.1 < b.1) := by
  induction m with
  | nil => simp [KMap.insert]
  | cons a r ih =>
    obtain ⟨j, w⟩ := a
    rw [List.pairwise_cons] at hm
    by_cases h : k < j
    · simp only [KMap.insert, h, if_true, List.pairwise_cons, List.mem_cons]
      exact ⟨fun b hb => hb.elim (fun e => e ▸ h) (fun hb => lt_trans h (hm.1 b hb)), hm⟩
    · have hj : j < k := lt_of_le_of_ne (not_lt.1 h) (hk (j, w) (.head _))
      simp only [KMap.insert, h, if_false, List.pairwise_cons, KMap.mem_insert]
      exact ⟨fun b hb => hb.elim (fun e => e ▸ hj) (hm.1 b), ih hm.2 fun e he => hk e (.tail _ he)⟩

/-- A write keeps the canonical form. -/
theorem KMap.wf_set [DecidableEq α] (d : Nat → α) (m : KMap α) (k : Nat) (v : α) (h : KMap.wf d m = true) :
    KMap.wf d (KMap.set m (d k) k v) = true := by
  have he : KMap.wf d (KMap.erase m k) = true := KMap.wf_filter d m _ h
  by_cases hv : v = d k
  · simpa [KMap.set, hv] using he
  · rw [KMap.wf_iff] at he
    simp only [KMap.set, hv, if_false]
    rw [KMap.wf_iff]
    refine ⟨KMap.pairwise_insert _ k v he.1 fun e hx => ?_, fun e hx => ?_⟩
    · simpa using (List.mem_filter.1 hx).2
    · rcases (KMap.mem_insert _ _ _ _).1 hx with rfl | hx
      · exact hv
      · exact he.2 e hx

/-- A change of the values, never to the default, keeps the canonical form. -/
theorem KMap.wf_map [DecidableEq α] (d : Nat → α) (m : KMap α) (f : α → α) (h : KMap.wf d m = true)
    (hf : ∀ k v, v ≠ d k → f v ≠ d k) : KMap.wf d (m.map fun e => (e.1, f e.2)) = true := by
  rw [KMap.wf_iff] at h ⊢
  refine ⟨List.pairwise_map.2 h.1, fun e he => ?_⟩
  obtain ⟨a, ha, rfl⟩ := List.mem_map.1 he
  exact hf a.1 a.2 (h.2 a ha)

theorem KMap.find_eq_some_of_mem {m : KMap α} (hm : m.Pairwise (fun a b => a.1 < b.1)) {e : Nat × α} (he : e ∈ m) :
    KMap.find m e.1 = some e.2 := by
  induction m with
  | nil => cases he
  | cons a r ih =>
    rw [List.pairwise_cons] at hm
    rcases List.mem_cons.1 he with rfl | hr
    · simp [KMap.find]
    · simp [KMap.find, (hm.1 e hr).ne, ih hm.2 hr]

theorem KMap.mem_of_find {m : KMap α} {k : Nat} {v : α} (h : KMap.find m k = some v) : (k, v) ∈ m := by
  induction m with
  | nil => cases h
  | cons a r ih =>
    obtain ⟨j, w⟩ := a
    by_cases hj : j = k
    · simp only [KMap.find, hj, if_true, Option.some.injEq] at h
      simp [hj, h]
    · simp only [KMap.find, hj, if_false] at h
      exact .tail _ (ih h)

theorem KMap.find_none_of_wf [DecidableEq α] {d : Nat → α} {m : KMap α} (h : KMap.wf d m = true) {k : Nat}
    (hk : KMap.get m (d k) k = d k) : KMap.find m k = none := by
  cases hf : KMap.find m k with
  | none => rfl
  | some v =>
    rw [KMap.wf_iff] at h
    exact absurd (by simpa [KMap.get, hf] using hk) (h.2 (k, v) (KMap.mem_of_find hf))

/-- Maps in the canonical form that read alike are the same list. -/
theorem KMap.ext [DecidableEq α] {d : Nat → α} {m n : KMap α} (hm : KMap.wf d m = true) (hn : KMap.wf d n = true)
    (h : ∀ k, KMap.get m (d k) k = KMap.get n (d k) k) : m = n := by
  have hf : ∀ k, KMap.find m k = KMap.find n k := by
    intro k
    by_cases hk : KMap.get m (d k) k = d k
    · rw [KMap.find_none_of_wf hm hk, KMap.find_none_of_wf hn (h k ▸ hk)]
    · have hk' := h k ▸ hk
      have hh := h k
      cases hm' : KMap.find m k <;> cases hn' : KMap.find n k <;> simp_all [KMap.get]
  rw [KMap.wf_iff] at hm hn
  have hmem : ∀ e, e ∈ m ↔ e ∈ n := fun e =>
    ⟨fun he => KMap.mem_of_find ((hf e.1).symm.trans (KMap.find_eq_some_of_mem hm.1 he)),
     fun he => KMap.mem_of_find ((hf e.1).trans (KMap.find_eq_some_of_mem hn.1 he))⟩
  have nodup : ∀ {l : KMap α}, l.Pairwise (fun a b => a.1 < b.1) → l.Nodup := fun hl =>
    hl.imp fun hab e => absurd (e ▸ hab) (lt_irrefl _)
  exact List.Perm.eq_of_pairwise (fun a b _ _ h1 h2 => absurd (lt_trans h1 h2) (lt_irrefl _)) hm.1 hn.1
    ((List.perm_ext_iff_of_nodup (nodup hm.1) (nodup hn.1)).2 hmem)

end Sys2Proof.Machine
end

