-- ==== Sys2Proof/Laws/Change.lean ====
section
/-! SUPPORT. How `Change` composes: reflexive, transitive, monotone in the parts, and through branches and folds. -/
namespace Sys2Proof.Machine

open Sys2Proof

theorem Part.Same.refl (s : State) (p : Part) : p.Same s s := by cases p <;> rfl

theorem Part.Same.trans {s t u : State} {p : Part} (h : p.Same s t) (k : p.Same t u) : p.Same s u := by
  cases p <;> exact Eq.trans k h

theorem Change.refl (T : List Part) (s : State) : Change T s s :=
  ⟨rfl, id, List.prefix_refl _, Nat.le_refl _, fun p _ => Part.Same.refl s p⟩

theorem Change.trans {T : List Part} {s t u : State} (h : Change T s t) (k : Change T t u) : Change T s u :=
  ⟨k.pending.trans h.pending, fun c => k.canonical (h.canonical c), h.out.trans k.out, h.free.trans k.free,
   fun p hp => (h.frame p hp).trans (k.frame p hp)⟩

theorem Change.mono {T U : List Part} {s t : State} (hT : T ⊆ U) (h : Change T s t) : Change U s t :=
  ⟨h.pending, h.canonical, h.out, h.free, fun p hp => h.frame p fun hm => hp (hT hm)⟩

/-! ### Updates of parts of the state -/

theorem Change.set_wxl {T : List Part} {b s : State} {x_wxl : Wxl} (hT : ([.wxl] : List Part) ⊆ T) 
    (h : Change T b s) : Change T b { s with wxl := x_wxl } :=
  h.trans (Change.mono hT ⟨rfl, fun c => ⟨c.regs, c.mem, c.tcm, c.xt, c.ctx, c.msix, c.fns, c.pf, c.vf, c.flt, c.qaux, c.ports, c.cores, c.sram⟩, List.prefix_refl _, Nat.le_refl _,
    fun p hp => by cases p <;> first | rfl | exact absurd (by decide) hp⟩)

theorem Change.set_swc {T : List Part} {b s : State} {x_swc : Swc} (hT : ([.swc] : List Part) ⊆ T) 
    (h : Change T b s) : Change T b { s with swc := x_swc } :=
  h.trans (Change.mono hT ⟨rfl, fun c => ⟨c.regs, c.mem, c.tcm, c.xt, c.ctx, c.msix, c.fns, c.pf, c.vf, c.flt, c.qaux, c.ports, c.cores, c.sram⟩, List.prefix_refl _, Nat.le_refl _,
    fun p hp => by cases p <;> first | rfl | exact absurd (by decide) hp⟩)

theorem Change.set_prl {T : List Part} {b s : State} {x_prl : Prl} (hT : ([.prl] : List Part) ⊆ T) 
    (h : Change T b s) : Change T b { s with prl := x_prl } :=
  h.trans (Change.mono hT ⟨rfl, fun c => ⟨c.regs, c.mem, c.tcm, c.xt, c.ctx, c.msix, c.fns, c.pf, c.vf, c.flt, c.qaux, c.ports, c.cores, c.sram⟩, List.prefix_refl _, Nat.le_refl _,
    fun p hp => by cases p <;> first | rfl | exact absurd (by decide) hp⟩)

theorem Change.set_hep {T : List Part} {b s : State} {x_hep : Hep} (hT : ([.hep] : List Part) ⊆ T) 
    (h : Change T b s) : Change T b { s with hep := x_hep } :=
  h.trans (Change.mono hT ⟨rfl, fun c => ⟨c.regs, c.mem, c.tcm, c.xt, c.ctx, c.msix, c.fns, c.pf, c.vf, c.flt, c.qaux, c.ports, c.cores, c.sram⟩, List.prefix_refl _, Nat.le_refl _,
    fun p hp => by cases p <;> first | rfl | exact absurd (by decide) hp⟩)

theorem Change.set_hbm {T : List Part} {b s : State} {x_hbm : Hbm} (hT : ([.hbm] : List Part) ⊆ T) 
    (h : Change T b s) : Change T b { s with hbm := x_hbm } :=
  h.trans (Change.mono hT ⟨rfl, fun c => ⟨c.regs, c.mem, c.tcm, c.xt, c.ctx, c.msix, c.fns, c.pf, c.vf, c.flt, c.qaux, c.ports, c.cores, c.sram⟩, List.prefix_refl _, Nat.le_refl _,
    fun p hp => by cases p <;> first | rfl | exact absurd (by decide) hp⟩)

theorem Change.set_icu {T : List Part} {b s : State} {x_icu : Icu} (hT : ([.icu] : List Part) ⊆ T) 
    (h : Change T b s) : Change T b { s with icu := x_icu } :=
  h.trans (Change.mono hT ⟨rfl, fun c => ⟨c.regs, c.mem, c.tcm, c.xt, c.ctx, c.msix, c.fns, c.pf, c.vf, c.flt, c.qaux, c.ports, c.cores, c.sram⟩, List.prefix_refl _, Nat.le_refl _,
    fun p hp => by cases p <;> first | rfl | exact absurd (by decide) hp⟩)

theorem Change.set_spl {T : List Part} {b s : State} {x_spl : Spl} (hT : ([.spl] : List Part) ⊆ T) 
    (h : Change T b s) : Change T b { s with spl := x_spl } :=
  h.trans (Change.mono hT ⟨rfl, fun c => ⟨c.regs, c.mem, c.tcm, c.xt, c.ctx, c.msix, c.fns, c.pf, c.vf, c.flt, c.qaux, c.ports, c.cores, c.sram⟩, List.prefix_refl _, Nat.le_refl _,
    fun p hp => by cases p <;> first | rfl | exact absurd (by decide) hp⟩)

theorem Change.set_qen {T : List Part} {b s : State} {x_qen : Qen} (hT : ([.qen] : List Part) ⊆ T) 
    (h : Change T b s) : Change T b { s with qen := x_qen } :=
  h.trans (Change.mono hT ⟨rfl, fun c => ⟨c.regs, c.mem, c.tcm, c.xt, c.ctx, c.msix, c.fns, c.pf, c.vf, c.flt, c.qaux, c.ports, c.cores, c.sram⟩, List.prefix_refl _, Nat.le_refl _,
    fun p hp => by cases p <;> first | rfl | exact absurd (by decide) hp⟩)

theorem Change.set_tt {T : List Part} {b s : State} {x_tt : Tether} (hT : ([.tt] : List Part) ⊆ T) 
    (h : Change T b s) : Change T b { s with tt := x_tt } :=
  h.trans (Change.mono hT ⟨rfl, fun c => ⟨c.regs, c.mem, c.tcm, c.xt, c.ctx, c.msix, c.fns, c.pf, c.vf, c.flt, c.qaux, c.ports, c.cores, c.sram⟩, List.prefix_refl _, Nat.le_refl _,
    fun p hp => by cases p <;> first | rfl | exact absurd (by decide) hp⟩)

theorem Change.set_img {T : List Part} {b s : State} {x_img : Img} (hT : ([.img] : List Part) ⊆ T) 
    (h : Change T b s) : Change T b { s with img := x_img } :=
  h.trans (Change.mono hT ⟨rfl, fun c => ⟨c.regs, c.mem, c.tcm, c.xt, c.ctx, c.msix, c.fns, c.pf, c.vf, c.flt, c.qaux, c.ports, c.cores, c.sram⟩, List.prefix_refl _, Nat.le_refl _,
    fun p hp => by cases p <;> first | rfl | exact absurd (by decide) hp⟩)

theorem Change.set_dev {T : List Part} {b s : State} {x_dev : Dev} (hT : ([.dev] : List Part) ⊆ T) 
    (h : Change T b s) : Change T b { s with dev := x_dev } :=
  h.trans (Change.mono hT ⟨rfl, fun c => ⟨c.regs, c.mem, c.tcm, c.xt, c.ctx, c.msix, c.fns, c.pf, c.vf, c.flt, c.qaux, c.ports, c.cores, c.sram⟩, List.prefix_refl _, Nat.le_refl _,
    fun p hp => by cases p <;> first | rfl | exact absurd (by decide) hp⟩)

theorem Change.set_tt_dev {T : List Part} {b s : State} {x_tt : Tether} {x_dev : Dev} (hT : ([.tt, .dev] : List Part) ⊆ T) 
    (h : Change T b s) : Change T b { s with tt := x_tt, dev := x_dev } :=
  h.trans (Change.mono hT ⟨rfl, fun c => ⟨c.regs, c.mem, c.tcm, c.xt, c.ctx, c.msix, c.fns, c.pf, c.vf, c.flt, c.qaux, c.ports, c.cores, c.sram⟩, List.prefix_refl _, Nat.le_refl _,
    fun p hp => by cases p <;> first | rfl | exact absurd (by decide) hp⟩)

theorem Change.set_pins {T : List Part} {b s : State} {x_pins : Pins} (hT : ([.pins] : List Part) ⊆ T) 
    (h : Change T b s) : Change T b { s with pins := x_pins } :=
  h.trans (Change.mono hT ⟨rfl, fun c => ⟨c.regs, c.mem, c.tcm, c.xt, c.ctx, c.msix, c.fns, c.pf, c.vf, c.flt, c.qaux, c.ports, c.cores, c.sram⟩, List.prefix_refl _, Nat.le_refl _,
    fun p hp => by cases p <;> first | rfl | exact absurd (by decide) hp⟩)

theorem Change.set_pwr {T : List Part} {b s : State} {x_pwr : Pwr} (hT : ([.pwr] : List Part) ⊆ T) 
    (h : Change T b s) : Change T b { s with pwr := x_pwr } :=
  h.trans (Change.mono hT ⟨rfl, fun c => ⟨c.regs, c.mem, c.tcm, c.xt, c.ctx, c.msix, c.fns, c.pf, c.vf, c.flt, c.qaux, c.ports, c.cores, c.sram⟩, List.prefix_refl _, Nat.le_refl _,
    fun p hp => by cases p <;> first | rfl | exact absurd (by decide) hp⟩)

theorem Change.set_gdc {T : List Part} {b s : State} {x_gdc : Gdc} (hT : ([.gdc] : List Part) ⊆ T) 
    (h : Change T b s) : Change T b { s with gdc := x_gdc } :=
  h.trans (Change.mono hT ⟨rfl, fun c => ⟨c.regs, c.mem, c.tcm, c.xt, c.ctx, c.msix, c.fns, c.pf, c.vf, c.flt, c.qaux, c.ports, c.cores, c.sram⟩, List.prefix_refl _, Nat.le_refl _,
    fun p hp => by cases p <;> first | rfl | exact absurd (by decide) hp⟩)

theorem Change.set_checks {T : List Part} {b s : State} {x_checks : List Check} (hT : ([.checks] : List Part) ⊆ T) 
    (h : Change T b s) : Change T b { s with checks := x_checks } :=
  h.trans (Change.mono hT ⟨rfl, fun c => ⟨c.regs, c.mem, c.tcm, c.xt, c.ctx, c.msix, c.fns, c.pf, c.vf, c.flt, c.qaux, c.ports, c.cores, c.sram⟩, List.prefix_refl _, Nat.le_refl _,
    fun p hp => by cases p <;> first | rfl | exact absurd (by decide) hp⟩)

theorem Change.set_pwr_spl {T : List Part} {b s : State} {x_pwr : Pwr} {x_spl : Spl} (hT : ([.pwr, .spl] : List Part) ⊆ T) 
    (h : Change T b s) : Change T b { s with pwr := x_pwr, spl := x_spl } :=
  h.trans (Change.mono hT ⟨rfl, fun c => ⟨c.regs, c.mem, c.tcm, c.xt, c.ctx, c.msix, c.fns, c.pf, c.vf, c.flt, c.qaux, c.ports, c.cores, c.sram⟩, List.prefix_refl _, Nat.le_refl _,
    fun p hp => by cases p <;> first | rfl | exact absurd (by decide) hp⟩)

theorem Change.set_wxl_swc_ports_hbm {T : List Part} {b s : State} {x_wxl : Wxl} {x_swc : Swc} {x_ports : KMap Port} {x_hbm : Hbm} (hT : ([.wxl, .swc, .ports, .hbm] : List Part) ⊆ T) (h_ports : s.Canonical → KMap.wf (fun _ => {}) x_ports = true)
    (h : Change T b s) : Change T b { s with wxl := x_wxl, swc := x_swc, ports := x_ports, hbm := x_hbm } :=
  h.trans (Change.mono hT ⟨rfl, fun c => ⟨c.regs, c.mem, c.tcm, c.xt, c.ctx, c.msix, c.fns, c.pf, c.vf, c.flt, c.qaux, h_ports c, c.cores, c.sram⟩, List.prefix_refl _, Nat.le_refl _,
    fun p hp => by cases p <;> first | rfl | exact absurd (by decide) hp⟩)

theorem Change.set_tt_pins {T : List Part} {b s : State} {x_tt : Tether} {x_pins : Pins} (hT : ([.tt, .pins] : List Part) ⊆ T) 
    (h : Change T b s) : Change T b { s with tt := x_tt, pins := x_pins } :=
  h.trans (Change.mono hT ⟨rfl, fun c => ⟨c.regs, c.mem, c.tcm, c.xt, c.ctx, c.msix, c.fns, c.pf, c.vf, c.flt, c.qaux, c.ports, c.cores, c.sram⟩, List.prefix_refl _, Nat.le_refl _,
    fun p hp => by cases p <;> first | rfl | exact absurd (by decide) hp⟩)

theorem Change.set_regs_pins {T : List Part} {b s : State} {x_regs : KMap Word} {x_pins : Pins} (hT : ([.regs, .pins] : List Part) ⊆ T) (h_regs : s.Canonical → KMap.wf resetOf x_regs = true)
    (h : Change T b s) : Change T b { s with regs := x_regs, pins := x_pins } :=
  h.trans (Change.mono hT ⟨rfl, fun c => ⟨h_regs c, c.mem, c.tcm, c.xt, c.ctx, c.msix, c.fns, c.pf, c.vf, c.flt, c.qaux, c.ports, c.cores, c.sram⟩, List.prefix_refl _, Nat.le_refl _,
    fun p hp => by cases p <;> first | rfl | exact absurd (by decide) hp⟩)

theorem Change.set_pins_pwr {T : List Part} {b s : State} {x_pins : Pins} {x_pwr : Pwr} (hT : ([.pins, .pwr] : List Part) ⊆ T) 
    (h : Change T b s) : Change T b { s with pins := x_pins, pwr := x_pwr } :=
  h.trans (Change.mono hT ⟨rfl, fun c => ⟨c.regs, c.mem, c.tcm, c.xt, c.ctx, c.msix, c.fns, c.pf, c.vf, c.flt, c.qaux, c.ports, c.cores, c.sram⟩, List.prefix_refl _, Nat.le_refl _,
    fun p hp => by cases p <;> first | rfl | exact absurd (by decide) hp⟩)

theorem Change.set_pins_prl {T : List Part} {b s : State} {x_pins : Pins} {x_prl : Prl} (hT : ([.pins, .prl] : List Part) ⊆ T) 
    (h : Change T b s) : Change T b { s with pins := x_pins, prl := x_prl } :=
  h.trans (Change.mono hT ⟨rfl, fun c => ⟨c.regs, c.mem, c.tcm, c.xt, c.ctx, c.msix, c.fns, c.pf, c.vf, c.flt, c.qaux, c.ports, c.cores, c.sram⟩, List.prefix_refl _, Nat.le_refl _,
    fun p hp => by cases p <;> first | rfl | exact absurd (by decide) hp⟩)

theorem Change.set_pins_img {T : List Part} {b s : State} {x_pins : Pins} {x_img : Img} (hT : ([.pins, .img] : List Part) ⊆ T) 
    (h : Change T b s) : Change T b { s with pins := x_pins, img := x_img } :=
  h.trans (Change.mono hT ⟨rfl, fun c => ⟨c.regs, c.mem, c.tcm, c.xt, c.ctx, c.msix, c.fns, c.pf, c.vf, c.flt, c.qaux, c.ports, c.cores, c.sram⟩, List.prefix_refl _, Nat.le_refl _,
    fun p hp => by cases p <;> first | rfl | exact absurd (by decide) hp⟩)

theorem Change.set_msix_xt_ctx_hbm_mem {T : List Part} {b s : State} {x_msix : KMap MsixEnt} {x_xt : KMap Word} {x_ctx : KMap Word} {x_hbm : Hbm} {x_mem : List Host.Cell} (hT : ([.msix, .xt, .ctx, .hbm, .mem] : List Part) ⊆ T) (h_msix : s.Canonical → KMap.wf (fun _ => {}) x_msix = true) (h_xt : s.Canonical → KMap.wf (fun _ => 0) x_xt = true) (h_ctx : s.Canonical → KMap.wf (fun _ => 0) x_ctx = true) (h_mem : s.Canonical → Memory.wf x_mem = true)
    (h : Change T b s) : Change T b { s with msix := x_msix, xt := x_xt, ctx := x_ctx, hbm := x_hbm, mem := x_mem } :=
  h.trans (Change.mono hT ⟨rfl, fun c => ⟨c.regs, h_mem c, c.tcm, h_xt c, h_ctx c, h_msix c, c.fns, c.pf, c.vf, c.flt, c.qaux, c.ports, c.cores, c.sram⟩, List.prefix_refl _, Nat.le_refl _,
    fun p hp => by cases p <;> first | rfl | exact absurd (by decide) hp⟩)

theorem Change.set_img_pf_vf {T : List Part} {b s : State} {x_img : Img} {x_pf : KMap PfEnt} {x_vf : KMap (Nat × Nat)} (hT : ([.img, .pf, .vf] : List Part) ⊆ T) (h_pf : s.Canonical → KMap.wf (fun _ => {}) x_pf = true) (h_vf : s.Canonical → KMap.wf (fun _ => (0, 0)) x_vf = true)
    (h : Change T b s) : Change T b { s with img := x_img, pf := x_pf, vf := x_vf } :=
  h.trans (Change.mono hT ⟨rfl, fun c => ⟨c.regs, c.mem, c.tcm, c.xt, c.ctx, c.msix, c.fns, h_pf c, h_vf c, c.flt, c.qaux, c.ports, c.cores, c.sram⟩, List.prefix_refl _, Nat.le_refl _,
    fun p hp => by cases p <;> first | rfl | exact absurd (by decide) hp⟩)

theorem Change.set_img_hep {T : List Part} {b s : State} {x_img : Img} {x_hep : Hep} (hT : ([.img, .hep] : List Part) ⊆ T) 
    (h : Change T b s) : Change T b { s with img := x_img, hep := x_hep } :=
  h.trans (Change.mono hT ⟨rfl, fun c => ⟨c.regs, c.mem, c.tcm, c.xt, c.ctx, c.msix, c.fns, c.pf, c.vf, c.flt, c.qaux, c.ports, c.cores, c.sram⟩, List.prefix_refl _, Nat.le_refl _,
    fun p hp => by cases p <;> first | rfl | exact absurd (by decide) hp⟩)

theorem Change.set_img_hbm {T : List Part} {b s : State} {x_img : Img} {x_hbm : Hbm} (hT : ([.img, .hbm] : List Part) ⊆ T) 
    (h : Change T b s) : Change T b { s with img := x_img, hbm := x_hbm } :=
  h.trans (Change.mono hT ⟨rfl, fun c => ⟨c.regs, c.mem, c.tcm, c.xt, c.ctx, c.msix, c.fns, c.pf, c.vf, c.flt, c.qaux, c.ports, c.cores, c.sram⟩, List.prefix_refl _, Nat.le_refl _,
    fun p hp => by cases p <;> first | rfl | exact absurd (by decide) hp⟩)

theorem Change.set_icu_msix {T : List Part} {b s : State} {x_icu : Icu} {x_msix : KMap MsixEnt} (hT : ([.icu, .msix] : List Part) ⊆ T) (h_msix : s.Canonical → KMap.wf (fun _ => {}) x_msix = true)
    (h : Change T b s) : Change T b { s with icu := x_icu, msix := x_msix } :=
  h.trans (Change.mono hT ⟨rfl, fun c => ⟨c.regs, c.mem, c.tcm, c.xt, c.ctx, h_msix c, c.fns, c.pf, c.vf, c.flt, c.qaux, c.ports, c.cores, c.sram⟩, List.prefix_refl _, Nat.le_refl _,
    fun p hp => by cases p <;> first | rfl | exact absurd (by decide) hp⟩)

theorem Change.set_icu_hep {T : List Part} {b s : State} {x_icu : Icu} {x_hep : Hep} (hT : ([.icu, .hep] : List Part) ⊆ T) 
    (h : Change T b s) : Change T b { s with icu := x_icu, hep := x_hep } :=
  h.trans (Change.mono hT ⟨rfl, fun c => ⟨c.regs, c.mem, c.tcm, c.xt, c.ctx, c.msix, c.fns, c.pf, c.vf, c.flt, c.qaux, c.ports, c.cores, c.sram⟩, List.prefix_refl _, Nat.le_refl _,
    fun p hp => by cases p <;> first | rfl | exact absurd (by decide) hp⟩)

theorem Change.set_hep_swc {T : List Part} {b s : State} {x_hep : Hep} {x_swc : Swc} (hT : ([.hep, .swc] : List Part) ⊆ T) 
    (h : Change T b s) : Change T b { s with hep := x_hep, swc := x_swc } :=
  h.trans (Change.mono hT ⟨rfl, fun c => ⟨c.regs, c.mem, c.tcm, c.xt, c.ctx, c.msix, c.fns, c.pf, c.vf, c.flt, c.qaux, c.ports, c.cores, c.sram⟩, List.prefix_refl _, Nat.le_refl _,
    fun p hp => by cases p <;> first | rfl | exact absurd (by decide) hp⟩)

theorem Change.set_hbm_mem {T : List Part} {b s : State} {x_hbm : Hbm} {x_mem : List Host.Cell} (hT : ([.hbm, .mem] : List Part) ⊆ T) (h_mem : s.Canonical → Memory.wf x_mem = true)
    (h : Change T b s) : Change T b { s with hbm := x_hbm, mem := x_mem } :=
  h.trans (Change.mono hT ⟨rfl, fun c => ⟨c.regs, h_mem c, c.tcm, c.xt, c.ctx, c.msix, c.fns, c.pf, c.vf, c.flt, c.qaux, c.ports, c.cores, c.sram⟩, List.prefix_refl _, Nat.le_refl _,
    fun p hp => by cases p <;> first | rfl | exact absurd (by decide) hp⟩)

theorem Change.set_dev_spl {T : List Part} {b s : State} {x_dev : Dev} {x_spl : Spl} (hT : ([.dev, .spl] : List Part) ⊆ T) 
    (h : Change T b s) : Change T b { s with dev := x_dev, spl := x_spl } :=
  h.trans (Change.mono hT ⟨rfl, fun c => ⟨c.regs, c.mem, c.tcm, c.xt, c.ctx, c.msix, c.fns, c.pf, c.vf, c.flt, c.qaux, c.ports, c.cores, c.sram⟩, List.prefix_refl _, Nat.le_refl _,
    fun p hp => by cases p <;> first | rfl | exact absurd (by decide) hp⟩)

theorem Change.set_dev_img {T : List Part} {b s : State} {x_dev : Dev} {x_img : Img} (hT : ([.dev, .img] : List Part) ⊆ T) 
    (h : Change T b s) : Change T b { s with dev := x_dev, img := x_img } :=
  h.trans (Change.mono hT ⟨rfl, fun c => ⟨c.regs, c.mem, c.tcm, c.xt, c.ctx, c.msix, c.fns, c.pf, c.vf, c.flt, c.qaux, c.ports, c.cores, c.sram⟩, List.prefix_refl _, Nat.le_refl _,
    fun p hp => by cases p <;> first | rfl | exact absurd (by decide) hp⟩)

theorem Change.set_checks_prl {T : List Part} {b s : State} {x_checks : List Check} {x_prl : Prl} (hT : ([.checks, .prl] : List Part) ⊆ T) 
    (h : Change T b s) : Change T b { s with checks := x_checks, prl := x_prl } :=
  h.trans (Change.mono hT ⟨rfl, fun c => ⟨c.regs, c.mem, c.tcm, c.xt, c.ctx, c.msix, c.fns, c.pf, c.vf, c.flt, c.qaux, c.ports, c.cores, c.sram⟩, List.prefix_refl _, Nat.le_refl _,
    fun p hp => by cases p <;> first | rfl | exact absurd (by decide) hp⟩)

theorem Change.set_pins_dev {T : List Part} {b s : State} {x_pins : Pins} {x_dev : Dev} (hT : ([.pins, .dev] : List Part) ⊆ T) 
    (h : Change T b s) : Change T b { s with pins := x_pins, dev := x_dev } :=
  h.trans (Change.mono hT ⟨rfl, fun c => ⟨c.regs, c.mem, c.tcm, c.xt, c.ctx, c.msix, c.fns, c.pf, c.vf, c.flt, c.qaux, c.ports, c.cores, c.sram⟩, List.prefix_refl _, Nat.le_refl _,
    fun p hp => by cases p <;> first | rfl | exact absurd (by decide) hp⟩)

theorem Change.set_regs {T : List Part} {b s : State} {x_regs : KMap Word} (hT : ([.regs] : List Part) ⊆ T) (h_regs : s.Canonical → KMap.wf resetOf x_regs = true)
    (h : Change T b s) : Change T b { s with regs := x_regs } :=
  h.trans (Change.mono hT ⟨rfl, fun c => ⟨h_regs c, c.mem, c.tcm, c.xt, c.ctx, c.msix, c.fns, c.pf, c.vf, c.flt, c.qaux, c.ports, c.cores, c.sram⟩, List.prefix_refl _, Nat.le_refl _,
    fun p hp => by cases p <;> first | rfl | exact absurd (by decide) hp⟩)

theorem Change.set_mem {T : List Part} {b s : State} {x_mem : List Host.Cell} (hT : ([.mem] : List Part) ⊆ T) (h_mem : s.Canonical → Memory.wf x_mem = true)
    (h : Change T b s) : Change T b { s with mem := x_mem } :=
  h.trans (Change.mono hT ⟨rfl, fun c => ⟨c.regs, h_mem c, c.tcm, c.xt, c.ctx, c.msix, c.fns, c.pf, c.vf, c.flt, c.qaux, c.ports, c.cores, c.sram⟩, List.prefix_refl _, Nat.le_refl _,
    fun p hp => by cases p <;> first | rfl | exact absurd (by decide) hp⟩)

theorem Change.set_tcm {T : List Part} {b s : State} {x_tcm : List Host.Cell} (hT : ([.tcm] : List Part) ⊆ T) (h_tcm : s.Canonical → Memory.wf x_tcm = true)
    (h : Change T b s) : Change T b { s with tcm := x_tcm } :=
  h.trans (Change.mono hT ⟨rfl, fun c => ⟨c.regs, c.mem, h_tcm c, c.xt, c.ctx, c.msix, c.fns, c.pf, c.vf, c.flt, c.qaux, c.ports, c.cores, c.sram⟩, List.prefix_refl _, Nat.le_refl _,
    fun p hp => by cases p <;> first | rfl | exact absurd (by decide) hp⟩)

theorem Change.set_xt {T : List Part} {b s : State} {x_xt : KMap Word} (hT : ([.xt] : List Part) ⊆ T) (h_xt : s.Canonical → KMap.wf (fun _ => 0) x_xt = true)
    (h : Change T b s) : Change T b { s with xt := x_xt } :=
  h.trans (Change.mono hT ⟨rfl, fun c => ⟨c.regs, c.mem, c.tcm, h_xt c, c.ctx, c.msix, c.fns, c.pf, c.vf, c.flt, c.qaux, c.ports, c.cores, c.sram⟩, List.prefix_refl _, Nat.le_refl _,
    fun p hp => by cases p <;> first | rfl | exact absurd (by decide) hp⟩)

theorem Change.set_ctx {T : List Part} {b s : State} {x_ctx : KMap Word} (hT : ([.ctx] : List Part) ⊆ T) (h_ctx : s.Canonical → KMap.wf (fun _ => 0) x_ctx = true)
    (h : Change T b s) : Change T b { s with ctx := x_ctx } :=
  h.trans (Change.mono hT ⟨rfl, fun c => ⟨c.regs, c.mem, c.tcm, c.xt, h_ctx c, c.msix, c.fns, c.pf, c.vf, c.flt, c.qaux, c.ports, c.cores, c.sram⟩, List.prefix_refl _, Nat.le_refl _,
    fun p hp => by cases p <;> first | rfl | exact absurd (by decide) hp⟩)

theorem Change.set_msix {T : List Part} {b s : State} {x_msix : KMap MsixEnt} (hT : ([.msix] : List Part) ⊆ T) (h_msix : s.Canonical → KMap.wf (fun _ => {}) x_msix = true)
    (h : Change T b s) : Change T b { s with msix := x_msix } :=
  h.trans (Change.mono hT ⟨rfl, fun c => ⟨c.regs, c.mem, c.tcm, c.xt, c.ctx, h_msix c, c.fns, c.pf, c.vf, c.flt, c.qaux, c.ports, c.cores, c.sram⟩, List.prefix_refl _, Nat.le_refl _,
    fun p hp => by cases p <;> first | rfl | exact absurd (by decide) hp⟩)

theorem Change.set_fns {T : List Part} {b s : State} {x_fns : KMap Fn} (hT : ([.fns] : List Part) ⊆ T) (h_fns : s.Canonical → KMap.wf (fun _ => {}) x_fns = true)
    (h : Change T b s) : Change T b { s with fns := x_fns } :=
  h.trans (Change.mono hT ⟨rfl, fun c => ⟨c.regs, c.mem, c.tcm, c.xt, c.ctx, c.msix, h_fns c, c.pf, c.vf, c.flt, c.qaux, c.ports, c.cores, c.sram⟩, List.prefix_refl _, Nat.le_refl _,
    fun p hp => by cases p <;> first | rfl | exact absurd (by decide) hp⟩)

theorem Change.set_flt {T : List Part} {b s : State} {x_flt : KMap FltSrc} (hT : ([.flt] : List Part) ⊆ T) (h_flt : s.Canonical → KMap.wf (fun _ => {}) x_flt = true)
    (h : Change T b s) : Change T b { s with flt := x_flt } :=
  h.trans (Change.mono hT ⟨rfl, fun c => ⟨c.regs, c.mem, c.tcm, c.xt, c.ctx, c.msix, c.fns, c.pf, c.vf, h_flt c, c.qaux, c.ports, c.cores, c.sram⟩, List.prefix_refl _, Nat.le_refl _,
    fun p hp => by cases p <;> first | rfl | exact absurd (by decide) hp⟩)

theorem Change.set_qaux {T : List Part} {b s : State} {x_qaux : KMap QAux} (hT : ([.qaux] : List Part) ⊆ T) (h_qaux : s.Canonical → KMap.wf (fun _ => {}) x_qaux = true)
    (h : Change T b s) : Change T b { s with qaux := x_qaux } :=
  h.trans (Change.mono hT ⟨rfl, fun c => ⟨c.regs, c.mem, c.tcm, c.xt, c.ctx, c.msix, c.fns, c.pf, c.vf, c.flt, h_qaux c, c.ports, c.cores, c.sram⟩, List.prefix_refl _, Nat.le_refl _,
    fun p hp => by cases p <;> first | rfl | exact absurd (by decide) hp⟩)

theorem Change.set_ports {T : List Part} {b s : State} {x_ports : KMap Port} (hT : ([.ports] : List Part) ⊆ T) (h_ports : s.Canonical → KMap.wf (fun _ => {}) x_ports = true)
    (h : Change T b s) : Change T b { s with ports := x_ports } :=
  h.trans (Change.mono hT ⟨rfl, fun c => ⟨c.regs, c.mem, c.tcm, c.xt, c.ctx, c.msix, c.fns, c.pf, c.vf, c.flt, c.qaux, h_ports c, c.cores, c.sram⟩, List.prefix_refl _, Nat.le_refl _,
    fun p hp => by cases p <;> first | rfl | exact absurd (by decide) hp⟩)

theorem Change.set_cores {T : List Part} {b s : State} {x_cores : KMap Core} (hT : ([.cores] : List Part) ⊆ T) (h_cores : s.Canonical → KMap.wf (fun _ => {}) x_cores = true)
    (h : Change T b s) : Change T b { s with cores := x_cores } :=
  h.trans (Change.mono hT ⟨rfl, fun c => ⟨c.regs, c.mem, c.tcm, c.xt, c.ctx, c.msix, c.fns, c.pf, c.vf, c.flt, c.qaux, c.ports, h_cores c, c.sram⟩, List.prefix_refl _, Nat.le_refl _,
    fun p hp => by cases p <;> first | rfl | exact absurd (by decide) hp⟩)

theorem Change.set_sram {T : List Part} {b s : State} {x_sram : KMap (List Nat)} (hT : ([.sram] : List Part) ⊆ T) (h_sram : s.Canonical → KMap.wf (fun _ => []) x_sram = true)
    (h : Change T b s) : Change T b { s with sram := x_sram } :=
  h.trans (Change.mono hT ⟨rfl, fun c => ⟨c.regs, c.mem, c.tcm, c.xt, c.ctx, c.msix, c.fns, c.pf, c.vf, c.flt, c.qaux, c.ports, c.cores, h_sram c⟩, List.prefix_refl _, Nat.le_refl _,
    fun p hp => by cases p <;> first | rfl | exact absurd (by decide) hp⟩)

theorem Change.ite {T : List Part} {b x y : State} {c : Prop} [Decidable c] (hx : c → Change T b x)
    (hy : ¬ c → Change T b y) : Change T b (if c then x else y) := by
  split
  · exact hx ‹_›
  · exact hy ‹_›

theorem Change.ite_fst {α : Type} {T : List Part} {b : State} {x y : State × α} {c : Prop} [Decidable c]
    (hx : c → Change T b x.1) (hy : ¬ c → Change T b y.1) : Change T b (if c then x else y).1 := by
  split
  · exact hx ‹_›
  · exact hy ‹_›

theorem Change.foldl {α : Type} {T : List Part} {b s : State} {f : State → α → State} {l : List α}
    (hf : ∀ t a, Change T b t → Change T b (f t a)) (h : Change T b s) : Change T b (l.foldl f s) := by
  induction l generalizing s with
  | nil => exact h
  | cons a r ih => exact ih (hf s a h)

theorem Change.foldl_fst {α β : Type} {T : List Part} {b : State} {p : State × β} {f : State × β → α → State × β}
    {l : List α} (hf : ∀ q a, Change T b q.1 → Change T b (f q a).1) (h : Change T b p.1) :
    Change T b (l.foldl f p).1 := by
  induction l generalizing p with
  | nil => exact h
  | cons a r ih => exact ih (hf p a h)

theorem Change.ofId {T : List Part} {b s : State} (h : Change T b s) : Change T b (id s) := h

theorem Change.getD {T : List Part} {b s : State} {o : Option State} (ho : ∀ t, o = some t → Change T b t)
    (h : Change T b s) : Change T b (o.getD s) := by
  cases o with
  | none => exact h
  | some t => exact ho t rfl

/-- Every state that `x` can answer is reached by a `Change`. -/
def ChangeOk {ε : Type} (T : List Part) (b : State) (x : Except ε State) : Prop := ∀ t, x = .ok t → Change T b t

theorem ChangeOk.error {ε : Type} {T : List Part} {b : State} {e : ε} : ChangeOk T b (.error e) := by
  intro t h
  injection h

theorem ChangeOk.ok {ε : Type} {T : List Part} {b t : State} (h : Change T b t) : ChangeOk (ε := ε) T b (.ok t) := by
  intro u hu
  injection hu with hu
  exact hu ▸ h

theorem ChangeOk.ite {ε : Type} {T : List Part} {b : State} {x y : Except ε State} {c : Prop} [Decidable c]
    (hx : c → ChangeOk T b x) (hy : ¬ c → ChangeOk T b y) : ChangeOk T b (if c then x else y) := by
  split
  · exact hx ‹_›
  · exact hy ‹_›

theorem KMap.wf_foldl_set {α β : Type} [DecidableEq α] {d : Nat → α} {k : β → Nat} {v : β → α} {l : List β} {m : KMap α}
    (h : KMap.wf d m = true) : KMap.wf d (l.foldl (fun m x => KMap.set m (d (k x)) (k x) (v x)) m) = true := by
  induction l generalizing m with
  | nil => exact h
  | cons a r ih => exact ih (KMap.wf_set d m (k a) (v a) h)

theorem Change.of_pair {α : Type} {T : List Part} {b t : State} {v : α} {p : State × α} (e : p = (t, v))
    (h : Change T b p.1) : Change T b t := by subst e; exact h

end Sys2Proof.Machine
end

