-- ==== Sys2Proof/Laws/Ops.lean ====
section
/-! SUPPORT. What each operation of Machine/Ops.lean may change. -/
namespace Sys2Proof.Machine

open Sys2Proof

theorem State.setReg_change {U : List Part} {r0 : State} {s : State} {off : Nat} {v : Word} (hT : ([.regs] : List Part) ⊆ U) (hC0 : Change U r0 s) :
    Change U r0 (State.setReg s off v) := by
  unfold State.setReg
  repeat' first
    | with_reducible exact hC0
    | with_reducible refine Change.ite (fun _ => ?_) (fun _ => ?_)
    | with_reducible refine Change.foldl (fun _ _ _ => ?_) ?_
    | with_reducible assumption
    | split
    | dsimp only
    | refine Change.set_regs hT (by first | exact fun c => KMap.wf_set _ _ _ _ c.regs | exact fun c => KMap.wf_filter _ _ _ c.regs | exact fun _ => rfl) ?_

theorem State.put_change {U : List Part} {r0 : State} {s : State} {f : Field} {v : Nat} (hT : ([.regs] : List Part) ⊆ U) (hC0 : Change U r0 s) :
    Change U r0 (State.put s f v) := by
  unfold State.put
  repeat' first
    | with_reducible exact hC0
    | with_reducible refine Change.ite (fun _ => ?_) (fun _ => ?_)
    | with_reducible refine State.setReg_change hT ?_

theorem State.bumpBy_change {U : List Part} {r0 : State} {s : State} {f : Field} {n : Nat} (hT : ([.regs] : List Part) ⊆ U) (hC0 : Change U r0 s) :
    Change U r0 (State.bumpBy s f n) := by
  unfold State.bumpBy
  repeat' first
    | with_reducible exact hC0
    | with_reducible refine Change.ite (fun _ => ?_) (fun _ => ?_)
    | with_reducible refine State.put_change hT ?_

theorem State.bump_change {U : List Part} {r0 : State} {s : State} {f : Field} (hT : ([.regs] : List Part) ⊆ U) (hC0 : Change U r0 s) :
    Change U r0 (State.bump s f) := by
  unfold State.bump
  repeat' first
    | with_reducible exact hC0
    | with_reducible refine Change.ite (fun _ => ?_) (fun _ => ?_)
    | with_reducible refine State.bumpBy_change hT ?_

theorem State.peak_change {U : List Part} {r0 : State} {s : State} {f : Field} {v : Nat} (hT : ([.regs] : List Part) ⊆ U) (hC0 : Change U r0 s) :
    Change U r0 (State.peak s f v) := by
  unfold State.peak
  repeat' first
    | with_reducible exact hC0
    | with_reducible refine Change.ite (fun _ => ?_) (fun _ => ?_)
    | with_reducible refine State.put_change hT ?_

theorem State.emit_change {U : List Part} {r0 : State} {s : State} {o : Out} (hT : ([.out] : List Part) ⊆ U) (hC0 : Change U r0 s) :
    Change U r0 (State.emit s o) := by
  exact hC0.trans (Change.mono hT ⟨rfl, fun c => ⟨c.regs, c.mem, c.tcm, c.xt, c.ctx, c.msix, c.fns, c.pf, c.vf, c.flt, c.qaux, c.ports, c.cores, c.sram⟩,
    List.prefix_append _ _, Nat.le_refl _, fun p hp => by cases p <;> first | rfl | exact absurd (by decide) hp⟩)

theorem State.useFree_change {U : List Part} {r0 : State} {s : State} (hT : ([.free] : List Part) ⊆ U) (hC0 : Change U r0 s) :
    Change U r0 (State.useFree s) := by
  exact hC0.trans (Change.mono hT ⟨rfl, fun c => ⟨c.regs, c.mem, c.tcm, c.xt, c.ctx, c.msix, c.fns, c.pf, c.vf, c.flt, c.qaux, c.ports, c.cores, c.sram⟩,
    List.prefix_refl _, Nat.le_succ _, fun p hp => by cases p <;> first | rfl | exact absurd (by decide) hp⟩)

theorem State.useFreeBytes_change {U : List Part} {r0 : State} {s : State} {n : Nat} (hT : ([.free] : List Part) ⊆ U) (hC0 : Change U r0 s) :
    Change U r0 (State.useFreeBytes s n) := by
  exact hC0.trans (Change.mono hT ⟨rfl, fun c => ⟨c.regs, c.mem, c.tcm, c.xt, c.ctx, c.msix, c.fns, c.pf, c.vf, c.flt, c.qaux, c.ports, c.cores, c.sram⟩,
    List.prefix_refl _, Nat.le_add_right _ _, fun p hp => by cases p <;> first | rfl | exact absurd (by decide) hp⟩)

theorem State.setFn_change {U : List Part} {r0 : State} {s : State} {f : Nat} {x : Fn} (hT : ([.fns] : List Part) ⊆ U) (hC0 : Change U r0 s) :
    Change U r0 (State.setFn s f x) := by
  unfold State.setFn
  repeat' first
    | with_reducible exact hC0
    | with_reducible refine Change.ite (fun _ => ?_) (fun _ => ?_)
    | with_reducible refine Change.foldl (fun _ _ _ => ?_) ?_
    | with_reducible assumption
    | split
    | dsimp only
    | refine Change.set_fns hT (by first | exact fun c => KMap.wf_set _ _ _ _ c.fns | exact fun c => KMap.wf_filter _ _ _ c.fns | exact fun _ => rfl) ?_

theorem State.setCore_change {U : List Part} {r0 : State} {s : State} {c : Nat} {x : Core} (hT : ([.cores] : List Part) ⊆ U) (hC0 : Change U r0 s) :
    Change U r0 (State.setCore s c x) := by
  unfold State.setCore
  repeat' first
    | with_reducible exact hC0
    | with_reducible refine Change.ite (fun _ => ?_) (fun _ => ?_)
    | with_reducible refine Change.foldl (fun _ _ _ => ?_) ?_
    | with_reducible assumption
    | split
    | dsimp only
    | refine Change.set_cores hT (by first | exact fun c => KMap.wf_set _ _ _ _ c.cores | exact fun c => KMap.wf_filter _ _ _ c.cores | exact fun _ => rfl) ?_

theorem State.setPort_change {U : List Part} {r0 : State} {s : State} {p : Nat} {x : Port} (hT : ([.ports] : List Part) ⊆ U) (hC0 : Change U r0 s) :
    Change U r0 (State.setPort s p x) := by
  unfold State.setPort
  repeat' first
    | with_reducible exact hC0
    | with_reducible refine Change.ite (fun _ => ?_) (fun _ => ?_)
    | with_reducible refine Change.foldl (fun _ _ _ => ?_) ?_
    | with_reducible assumption
    | split
    | dsimp only
    | refine Change.set_ports hT (by first | exact fun c => KMap.wf_set _ _ _ _ c.ports | exact fun c => KMap.wf_filter _ _ _ c.ports | exact fun _ => rfl) ?_

theorem State.setCtxW_change {U : List Part} {r0 : State} {s : State} {q : Nat} {j : Nat} {v : Word} (hT : ([.ctx] : List Part) ⊆ U) (hC0 : Change U r0 s) :
    Change U r0 (State.setCtxW s q j v) := by
  unfold State.setCtxW
  repeat' first
    | with_reducible exact hC0
    | with_reducible refine Change.ite (fun _ => ?_) (fun _ => ?_)
    | with_reducible refine Change.foldl (fun _ _ _ => ?_) ?_
    | with_reducible assumption
    | split
    | dsimp only
    | refine Change.set_ctx hT (by first | exact fun c => KMap.wf_set _ _ _ _ c.ctx | exact fun c => KMap.wf_filter _ _ _ c.ctx | exact fun _ => rfl) ?_

theorem State.cput_change {U : List Part} {r0 : State} {s : State} {q : Nat} {f : CtxF} {v : Nat} (hT : ([.ctx] : List Part) ⊆ U) (hC0 : Change U r0 s) :
    Change U r0 (State.cput s q f v) := by
  unfold State.cput
  repeat' first
    | with_reducible exact hC0
    | with_reducible refine Change.ite (fun _ => ?_) (fun _ => ?_)
    | with_reducible refine State.setCtxW_change hT ?_

theorem State.setQa_change {U : List Part} {r0 : State} {s : State} {q : Nat} {x : QAux} (hT : ([.qaux] : List Part) ⊆ U) (hC0 : Change U r0 s) :
    Change U r0 (State.setQa s q x) := by
  unfold State.setQa
  repeat' first
    | with_reducible exact hC0
    | with_reducible refine Change.ite (fun _ => ?_) (fun _ => ?_)
    | with_reducible refine Change.foldl (fun _ _ _ => ?_) ?_
    | with_reducible assumption
    | split
    | dsimp only
    | refine Change.set_qaux hT (by first | exact fun c => KMap.wf_set _ _ _ _ c.qaux | exact fun c => KMap.wf_filter _ _ _ c.qaux | exact fun _ => rfl) ?_

theorem State.idle_change {U : List Part} {r0 : State} {s : State} (hT : ([.dev] : List Part) ⊆ U) (hC0 : Change U r0 s) :
    Change U r0 (State.idle s) := by
  unfold State.idle
  repeat' first
    | with_reducible exact hC0
    | with_reducible refine Change.ite (fun _ => ?_) (fun _ => ?_)
    | with_reducible refine Change.foldl (fun _ _ _ => ?_) ?_
    | with_reducible assumption
    | split
    | dsimp only
    | with_reducible refine Change.set_dev hT ?_

theorem State.setHbmByte_change {U : List Part} {r0 : State} {s : State} {a : Nat} {b : Byte} (hT : ([.mem] : List Part) ⊆ U) (hC0 : Change U r0 s) :
    Change U r0 (State.setHbmByte s a b) := by
  unfold State.setHbmByte
  repeat' first
    | with_reducible exact hC0
    | with_reducible refine Change.ite (fun _ => ?_) (fun _ => ?_)
    | with_reducible refine Change.foldl (fun _ _ _ => ?_) ?_
    | with_reducible assumption
    | split
    | dsimp only
    | refine Change.set_mem hT (by first | exact fun c => KMap.wf_set _ _ _ _ c.mem | exact fun c => KMap.wf_filter _ _ _ c.mem | exact fun _ => rfl) ?_

theorem State.hbmWrite_change {U : List Part} {r0 : State} {s : State} {a : Nat} {l : List Byte} (hT : ([.mem] : List Part) ⊆ U) (hC0 : Change U r0 s) :
    Change U r0 (State.hbmWrite s a l) := by
  induction l generalizing s a with
  | nil => exact hC0
  | cons v r ih =>
    rw [State.hbmWrite]
    exact ih (State.setHbmByte_change hT hC0)

theorem State.inject_change {U : List Part} {r0 : State} {s : State} {f : Frame} (hT : ([.swc] : List Part) ⊆ U) (hC0 : Change U r0 s) :
    Change U r0 (State.inject s f) := by
  unfold State.inject
  repeat' first
    | with_reducible exact hC0
    | with_reducible refine Change.ite (fun _ => ?_) (fun _ => ?_)
    | with_reducible refine Change.foldl (fun _ _ _ => ?_) ?_
    | with_reducible assumption
    | split
    | dsimp only
    | with_reducible refine Change.set_swc hT ?_

end Sys2Proof.Machine
end

