-- ==== Sys2Proof/Laws/Flags.lean ====
section
/-! SUPPORT. What each operation of Machine/Flags.lean may change. -/
namespace Sys2Proof.Machine

open Sys2Proof

theorem icuOffer_change {U : List Part} {r0 : State} {n : Nat} {s : State} (hT : ([.regs, .icu] : List Part) ⊆ U) (hC0 : Change U r0 s) :
    Change U r0 (icuOffer n s) := by
  have k1 : ([.regs] : List Part) ⊆ U := List.Subset.trans (by decide) hT
  have k2 : ([.icu] : List Part) ⊆ U := List.Subset.trans (by decide) hT
  unfold icuOffer
  repeat' first
    | with_reducible exact hC0
    | with_reducible refine Change.ite (fun _ => ?_) (fun _ => ?_)
    | with_reducible refine State.put_change k1 ?_
    | with_reducible refine Change.foldl (fun _ _ _ => ?_) ?_
    | with_reducible assumption
    | split
    | dsimp only
    | with_reducible refine Change.set_icu k2 ?_

theorem icuWithdraw_change {U : List Part} {r0 : State} {n : Nat} {s : State} (hT : ([.regs, .icu] : List Part) ⊆ U) (hC0 : Change U r0 s) :
    Change U r0 (icuWithdraw n s) := by
  have k1 : ([.regs] : List Part) ⊆ U := List.Subset.trans (by decide) hT
  have k2 : ([.icu] : List Part) ⊆ U := List.Subset.trans (by decide) hT
  unfold icuWithdraw
  repeat' first
    | with_reducible exact hC0
    | with_reducible refine Change.ite (fun _ => ?_) (fun _ => ?_)
    | with_reducible refine State.put_change k1 ?_
    | with_reducible refine Change.foldl (fun _ _ _ => ?_) ?_
    | with_reducible assumption
    | split
    | dsimp only
    | with_reducible refine Change.set_icu k2 ?_

theorem wakeNLow_change {U : List Part} {r0 : State} {s : State} (hT : ([.tt] : List Part) ⊆ U) (hC0 : Change U r0 s) :
    Change U r0 (wakeNLow s) := by
  unfold wakeNLow
  repeat' first
    | with_reducible exact hC0
    | with_reducible refine Change.ite (fun _ => ?_) (fun _ => ?_)
    | with_reducible refine Change.foldl (fun _ _ _ => ?_) ?_
    | with_reducible assumption
    | split
    | dsimp only
    | with_reducible refine Change.set_tt hT ?_

theorem icuWake_change {U : List Part} {r0 : State} {n : Nat} {s : State} (hT : ([.regs, .tt] : List Part) ⊆ U) (hC0 : Change U r0 s) :
    Change U r0 (icuWake n s) := by
  have k1 : ([.tt] : List Part) ⊆ U := List.Subset.trans (by decide) hT
  have k2 : ([.regs] : List Part) ⊆ U := List.Subset.trans (by decide) hT
  unfold icuWake
  repeat' first
    | with_reducible exact hC0
    | with_reducible refine Change.ite (fun _ => ?_) (fun _ => ?_)
    | with_reducible refine wakeNLow_change k1 ?_
    | with_reducible refine State.put_change k2 ?_
    | with_reducible refine Change.foldl (fun _ _ _ => ?_) ?_
    | with_reducible assumption
    | split
    | dsimp only
    | with_reducible refine Change.set_tt k1 ?_

theorem icuCount_change {U : List Part} {r0 : State} {n : Nat} {s : State} (hT : ([.regs, .tt, .icu] : List Part) ⊆ U) (hC0 : Change U r0 s) :
    Change U r0 (icuCount n s).1 := by
  have k1 : ([.regs, .tt] : List Part) ⊆ U := List.Subset.trans (by decide) hT
  have k2 : ([.regs] : List Part) ⊆ U := List.Subset.trans (by decide) hT
  have k3 : ([.regs, .icu] : List Part) ⊆ U := List.Subset.trans (by decide) hT
  unfold icuCount
  repeat' first
    | with_reducible exact hC0
    | with_reducible refine Change.ite (fun _ => ?_) (fun _ => ?_)
    | with_reducible refine icuWake_change k1 ?_
    | with_reducible refine State.bump_change k2 ?_
    | with_reducible refine icuOffer_change k3 ?_
    | with_reducible refine Change.foldl (fun _ _ _ => ?_) ?_
    | with_reducible refine Change.foldl_fst (fun _ _ _ => ?_) ?_
    | with_reducible refine Change.ite_fst (fun _ => ?_) (fun _ => ?_)

theorem icuInput_change {U : List Part} {r0 : State} {n : Nat} {lvl : Bool} {s : State} (hT : ([.regs, .tt, .icu] : List Part) ⊆ U) (hC0 : Change U r0 s) :
    Change U r0 (icuInput n lvl s).1 := by
  have k1 : ([.regs] : List Part) ⊆ U := List.Subset.trans (by decide) hT
  unfold icuInput
  repeat' first
    | with_reducible exact hC0
    | with_reducible refine Change.ite (fun _ => ?_) (fun _ => ?_)
    | with_reducible refine icuCount_change hT ?_
    | with_reducible refine State.put_change k1 ?_
    | with_reducible refine Change.foldl (fun _ _ _ => ?_) ?_
    | with_reducible refine Change.foldl_fst (fun _ _ _ => ?_) ?_
    | with_reducible refine Change.ite_fst (fun _ => ?_) (fun _ => ?_)

theorem State.setFlt_change {U : List Part} {r0 : State} {s : State} {b : Blk} {id : Nat} {x : FltSrc} (hT : ([.flt] : List Part) ⊆ U) (hC0 : Change U r0 s) :
    Change U r0 (State.setFlt s b id x) := by
  unfold State.setFlt
  repeat' first
    | with_reducible exact hC0
    | with_reducible refine Change.ite (fun _ => ?_) (fun _ => ?_)
    | with_reducible refine Change.foldl (fun _ _ _ => ?_) ?_
    | with_reducible refine Change.ofId ?_
    | with_reducible assumption
    | split
    | dsimp only
    | refine Change.set_flt hT (by first | exact fun c => KMap.wf_set _ _ _ _ c.flt | exact fun c => KMap.wf_filter _ _ _ c.flt | exact fun _ => rfl) ?_

theorem startTest_change {U : List Part} {r0 : State} {b : Blk} {id : Nat} {res : Nat} {s : State} (hT : ([.regs, .flt] : List Part) ⊆ U) (hC0 : Change U r0 s) :
    Change U r0 (startTest b id res s) := by
  have k1 : ([.flt] : List Part) ⊆ U := List.Subset.trans (by decide) hT
  have k2 : ([.regs] : List Part) ⊆ U := List.Subset.trans (by decide) hT
  unfold startTest
  repeat' first
    | with_reducible exact hC0
    | with_reducible refine Change.ite (fun _ => ?_) (fun _ => ?_)
    | with_reducible refine State.setFlt_change k1 ?_
    | with_reducible refine State.put_change k2 ?_

theorem aerReport_change {U : List Part} {r0 : State} {b : Blk} {id : Nat} {info : Nat} {lvl : Nat} {s : State} (hT : ([.out] : List Part) ⊆ U) (hC0 : Change U r0 s) :
    Change U r0 (aerReport b id info lvl s) := by
  unfold aerReport
  repeat' first
    | with_reducible exact hC0
    | with_reducible refine Change.ite (fun _ => ?_) (fun _ => ?_)
    | with_reducible refine State.emit_change hT ?_
    | with_reducible refine Change.foldl (fun _ _ _ => ?_) ?_
    | with_reducible refine Change.ofId ?_
    | with_reducible assumption

theorem fltLatch_change {U : List Part} {r0 : State} {b : Blk} {id : Nat} {info : Nat} {lvl : Nat} {event : Bool} {s : State} (hT : ([.regs] : List Part) ⊆ U) (hC0 : Change U r0 s) :
    Change U r0 (fltLatch b id info lvl event s) := by
  unfold fltLatch
  repeat' first
    | with_reducible exact hC0
    | with_reducible refine Change.ite (fun _ => ?_) (fun _ => ?_)
    | with_reducible refine State.setReg_change hT ?_
    | with_reducible refine State.bump_change hT ?_
    | with_reducible refine State.put_change hT ?_

theorem fltGrace_change {U : List Part} {r0 : State} {b : Blk} {id : Nat} {lvl : Nat} {s : State} (hT : ([.regs, .flt] : List Part) ⊆ U) (hC0 : Change U r0 s) :
    Change U r0 (fltGrace b id lvl s) := by
  have k1 : ([.flt] : List Part) ⊆ U := List.Subset.trans (by decide) hT
  have k2 : ([.regs] : List Part) ⊆ U := List.Subset.trans (by decide) hT
  unfold fltGrace
  repeat' first
    | with_reducible exact hC0
    | with_reducible refine Change.ite (fun _ => ?_) (fun _ => ?_)
    | with_reducible refine State.setFlt_change k1 ?_
    | with_reducible refine State.put_change k2 ?_

theorem fltRise_change {U : List Part} {r0 : State} {b : Blk} {id : Nat} {info : Nat} {lvl : Nat} {s : State} (hT : ([.regs, .flt, .out] : List Part) ⊆ U) (hC0 : Change U r0 s) :
    Change U r0 (fltRise b id info lvl s) := by
  have k1 : ([.flt] : List Part) ⊆ U := List.Subset.trans (by decide) hT
  have k2 : ([.out] : List Part) ⊆ U := List.Subset.trans (by decide) hT
  have k3 : ([.regs, .flt] : List Part) ⊆ U := List.Subset.trans (by decide) hT
  unfold fltRise
  repeat' first
    | with_reducible exact hC0
    | with_reducible refine Change.ite (fun _ => ?_) (fun _ => ?_)
    | with_reducible refine State.setFlt_change k1 ?_
    | with_reducible refine aerReport_change k2 ?_
    | with_reducible refine fltGrace_change k3 ?_

theorem faultCore_change {U : List Part} {r0 : State} {b : Blk} {id : Nat} {info : Nat} {s : State} (hT : ([.regs, .flt, .out] : List Part) ⊆ U) (hC0 : Change U r0 s) :
    Change U r0 (faultCore b id info s) := by
  have k1 : ([.regs, .flt] : List Part) ⊆ U := List.Subset.trans (by decide) hT
  have k2 : ([.regs] : List Part) ⊆ U := List.Subset.trans (by decide) hT
  have k3 : ([.flt] : List Part) ⊆ U := List.Subset.trans (by decide) hT
  unfold faultCore
  repeat' first
    | with_reducible exact hC0
    | with_reducible refine Change.ite (fun _ => ?_) (fun _ => ?_)
    | with_reducible refine startTest_change k1 ?_
    | with_reducible refine State.bump_change k2 ?_
    | with_reducible refine fltLatch_change k2 ?_
    | with_reducible refine State.setFlt_change k3 ?_
    | with_reducible refine State.put_change k2 ?_
    | with_reducible refine fltRise_change hT ?_

theorem irqSync_change {U : List Part} {r0 : State} {n : Nat} {b : Blk} {s : State} (hT : ([.regs, .tt, .flt, .icu, .out] : List Part) ⊆ U) (hC0 : Change U r0 s) :
    Change U r0 (irqSync n b s) := by
  have k1 : ([.regs, .flt, .out] : List Part) ⊆ U := List.Subset.trans (by decide) hT
  have k2 : ([.regs, .tt, .icu] : List Part) ⊆ U := List.Subset.trans (by decide) hT
  induction n generalizing b s with
  | zero => exact hC0
  | succ n ih =>
    rw [irqSync]
    exact Change.ite (fun _ => ih (faultCore_change k1 (icuInput_change k2 hC0))) (fun _ => icuInput_change k2 hC0)

theorem faultEvent_change {U : List Part} {r0 : State} {b : Blk} {id : Nat} {info : Nat} {s : State} (hT : ([.regs, .tt, .flt, .icu, .out] : List Part) ⊆ U) (hC0 : Change U r0 s) :
    Change U r0 (faultEvent b id info s) := by
  have k1 : ([.regs, .flt, .out] : List Part) ⊆ U := List.Subset.trans (by decide) hT
  unfold faultEvent
  repeat' first
    | with_reducible exact hC0
    | with_reducible refine Change.ite (fun _ => ?_) (fun _ => ?_)
    | with_reducible refine irqSync_change hT ?_
    | with_reducible refine faultCore_change k1 ?_

theorem faultRaise_change {U : List Part} {r0 : State} {b : Blk} {id : Nat} {info : Nat} {lvl : Nat} {s : State} (hT : ([.regs, .tt, .flt, .icu, .out] : List Part) ⊆ U) (hC0 : Change U r0 s) :
    Change U r0 (faultRaise b id info lvl s) := by
  have k1 : ([.regs] : List Part) ⊆ U := List.Subset.trans (by decide) hT
  have k2 : ([.regs, .flt, .out] : List Part) ⊆ U := List.Subset.trans (by decide) hT
  unfold faultRaise
  repeat' first
    | with_reducible exact hC0
    | with_reducible refine Change.ite (fun _ => ?_) (fun _ => ?_)
    | with_reducible refine fltLatch_change k1 ?_
    | with_reducible refine irqSync_change hT ?_
    | with_reducible refine State.put_change k1 ?_
    | with_reducible refine fltRise_change k2 ?_

theorem icuEvent_change {U : List Part} {r0 : State} {n : Nat} {s : State} (hT : ([.regs, .tt, .flt, .icu, .out] : List Part) ⊆ U) (hC0 : Change U r0 s) :
    Change U r0 (icuEvent n s) := by
  have k1 : ([.regs, .tt, .icu] : List Part) ⊆ U := List.Subset.trans (by decide) hT
  unfold icuEvent
  repeat' first
    | with_reducible exact hC0
    | with_reducible refine Change.ite (fun _ => ?_) (fun _ => ?_)
    | with_reducible refine icuCount_change k1 ?_
    | with_reducible refine faultEvent_change hT ?_

theorem icuLevel_change {U : List Part} {r0 : State} {n : Nat} {lvl : Bool} {s : State} (hT : ([.regs, .tt, .flt, .icu, .out] : List Part) ⊆ U) (hC0 : Change U r0 s) :
    Change U r0 (icuLevel n lvl s) := by
  have k1 : ([.regs, .tt, .icu] : List Part) ⊆ U := List.Subset.trans (by decide) hT
  unfold icuLevel
  repeat' first
    | with_reducible exact hC0
    | with_reducible refine Change.ite (fun _ => ?_) (fun _ => ?_)
    | with_reducible refine faultEvent_change hT ?_
    | with_reducible refine icuInput_change k1 ?_

theorem icuOfferAll_change {U : List Part} {r0 : State} {s : State} (hT : ([.regs, .icu] : List Part) ⊆ U) (hC0 : Change U r0 s) :
    Change U r0 (icuOfferAll s) := by
  unfold icuOfferAll
  repeat' first
    | with_reducible exact hC0
    | with_reducible refine Change.ite (fun _ => ?_) (fun _ => ?_)
    | with_reducible refine icuOffer_change hT ?_
    | with_reducible refine Change.foldl (fun _ _ _ => ?_) ?_
    | with_reducible assumption

theorem icuEndClaim_change {U : List Part} {r0 : State} {n : Nat} {s : State} (hT : ([.regs, .icu] : List Part) ⊆ U) (hC0 : Change U r0 s) :
    Change U r0 (icuEndClaim n s) := by
  have k1 : ([.regs] : List Part) ⊆ U := List.Subset.trans (by decide) hT
  unfold icuEndClaim
  repeat' first
    | with_reducible exact hC0
    | with_reducible refine Change.ite (fun _ => ?_) (fun _ => ?_)
    | with_reducible refine State.bump_change k1 ?_
    | with_reducible refine State.put_change k1 ?_
    | with_reducible refine icuOffer_change hT ?_

theorem icuTargetOff_change {U : List Part} {r0 : State} {t : Nat} {fn : Option Nat} {s : State} (hT : ([.regs, .icu] : List Part) ⊆ U) (hC0 : Change U r0 s) :
    Change U r0 (icuTargetOff t fn s) := by
  have k1 : ([.icu] : List Part) ⊆ U := List.Subset.trans (by decide) hT
  unfold icuTargetOff
  repeat' first
    | with_reducible exact hC0
    | with_reducible refine Change.ite (fun _ => ?_) (fun _ => ?_)
    | with_reducible refine icuWithdraw_change hT ?_
    | with_reducible refine icuOffer_change hT ?_
    | with_reducible refine icuEndClaim_change hT ?_
    | with_reducible refine Change.foldl (fun _ _ _ => ?_) ?_
    | with_reducible assumption
    | split
    | dsimp only
    | with_reducible refine Change.set_icu k1 ?_

theorem icuClaim_change {U : List Part} {r0 : State} {t : Nat} {p : Nat → Bool} {s : State} (hT : ([.regs, .icu] : List Part) ⊆ U) (hC0 : Change U r0 s) :
    Change U r0 (icuClaim t p s).1 := by
  have k1 : ([.regs] : List Part) ⊆ U := List.Subset.trans (by decide) hT
  unfold icuClaim
  repeat' first
    | with_reducible exact hC0
    | with_reducible refine Change.ite (fun _ => ?_) (fun _ => ?_)
    | with_reducible refine State.put_change k1 ?_
    | with_reducible refine icuWithdraw_change hT ?_
    | with_reducible refine Change.foldl (fun _ _ _ => ?_) ?_
    | with_reducible refine Change.foldl_fst (fun _ _ _ => ?_) ?_
    | with_reducible refine Change.ite_fst (fun _ => ?_) (fun _ => ?_)
    | with_reducible assumption
    | split
    | dsimp only

theorem notice_change {U : List Part} {r0 : State} {b : Blk} {off : Nat} {s : State} (hT : ([.regs, .tt, .flt, .icu, .out] : List Part) ⊆ U) (hC0 : Change U r0 s) :
    Change U r0 (notice b off s) := by
  unfold notice
  repeat' first
    | with_reducible exact hC0
    | with_reducible refine Change.ite (fun _ => ?_) (fun _ => ?_)
    | with_reducible refine faultEvent_change hT ?_

theorem noticePage_change {U : List Part} {r0 : State} {fn : Nat} {off : Nat} {s : State} (hT : ([.regs, .tt, .flt, .icu, .out] : List Part) ⊆ U) (hC0 : Change U r0 s) :
    Change U r0 (noticePage fn off s) := by
  unfold noticePage
  repeat' first
    | with_reducible exact hC0
    | with_reducible refine Change.ite (fun _ => ?_) (fun _ => ?_)
    | with_reducible refine faultEvent_change hT ?_

end Sys2Proof.Machine
end

