-- ==== Sys2Proof/Laws/SwcOps.lean ====
section
/-! SUPPORT. What each operation of Machine/SwcOps.lean may change. -/
namespace Sys2Proof.Machine

open Sys2Proof

theorem State.setOut_change {U : List Part} {r0 : State} {s : State} {p : Nat} {v : Nat} (hT : ([.regs] : List Part) ⊆ U) (hC0 : Change U r0 s) :
    Change U r0 (State.setOut s p v) := by
  unfold State.setOut
  repeat' first
    | with_reducible exact hC0
    | with_reducible refine Change.ite (fun _ => ?_) (fun _ => ?_)
    | with_reducible refine State.put_change hT ?_

theorem tailLoss_change {U : List Part} {r0 : State} {n : Nat} {fld : Field} {s : State} (hT : ([.regs, .tt, .flt, .icu, .swc, .out] : List Part) ⊆ U) (hC0 : Change U r0 s) :
    Change U r0 (tailLoss n fld s) := by
  have k1 : ([.regs] : List Part) ⊆ U := List.Subset.trans (by decide) hT
  have k2 : ([.regs, .tt, .flt, .icu, .out] : List Part) ⊆ U := List.Subset.trans (by decide) hT
  have k3 : ([.swc] : List Part) ⊆ U := List.Subset.trans (by decide) hT
  unfold tailLoss
  repeat' first
    | with_reducible exact hC0
    | with_reducible refine Change.ite (fun _ => ?_) (fun _ => ?_)
    | with_reducible refine State.bumpBy_change k1 ?_
    | with_reducible refine faultEvent_change k2 ?_
    | with_reducible refine Change.foldl (fun _ _ _ => ?_) ?_
    | with_reducible assumption
    | split
    | dsimp only
    | with_reducible refine Change.set_swc k3 ?_

theorem tailStage_change {U : List Part} {r0 : State} {r : List Byte} {s : State} (hT : ([.regs, .tt, .flt, .icu, .swc, .out] : List Part) ⊆ U) (hC0 : Change U r0 s) :
    Change U r0 (tailStage r s) := by
  have k1 : ([.swc] : List Part) ⊆ U := List.Subset.trans (by decide) hT
  unfold tailStage
  repeat' first
    | with_reducible exact hC0
    | with_reducible refine Change.ite (fun _ => ?_) (fun _ => ?_)
    | with_reducible refine tailLoss_change hT ?_
    | with_reducible refine Change.foldl (fun _ _ _ => ?_) ?_
    | with_reducible assumption
    | split
    | dsimp only
    | with_reducible refine Change.set_swc k1 ?_

theorem tailSample_change {U : List Part} {r0 : State} {p : Nat} {f : Frame} {s : State} (hT : ([.regs, .tt, .flt, .icu, .swc, .out] : List Part) ⊆ U) (hC0 : Change U r0 s) :
    Change U r0 (tailSample p f s) := by
  have k1 : ([.swc] : List Part) ⊆ U := List.Subset.trans (by decide) hT
  unfold tailSample
  repeat' first
    | with_reducible exact hC0
    | with_reducible refine Change.ite (fun _ => ?_) (fun _ => ?_)
    | with_reducible refine tailStage_change hT ?_
    | with_reducible refine Change.foldl (fun _ _ _ => ?_) ?_
    | with_reducible assumption
    | split
    | dsimp only
    | with_reducible refine Change.set_swc k1 ?_

theorem tailEvent_change {U : List Part} {r0 : State} {kind : Nat} {p : Nat} {f : Frame} {s : State} (hT : ([.regs, .tt, .flt, .icu, .swc, .out] : List Part) ⊆ U) (hC0 : Change U r0 s) :
    Change U r0 (tailEvent kind p f s) := by
  unfold tailEvent
  repeat' first
    | with_reducible exact hC0
    | with_reducible refine Change.ite (fun _ => ?_) (fun _ => ?_)
    | with_reducible refine tailStage_change hT ?_

theorem mcReport_change {U : List Part} {r0 : State} {o : Origin} {t : Nat} {cause : Ans} {s : State} (hT : ([.qaux] : List Part) ⊆ U) (hC0 : Change U r0 s) :
    Change U r0 (mcReport o t cause s) := by
  unfold mcReport
  repeat' first
    | with_reducible exact hC0
    | with_reducible refine Change.ite (fun _ => ?_) (fun _ => ?_)
    | with_reducible refine State.setQa_change hT ?_
    | with_reducible refine Change.foldl (fun _ _ _ => ?_) ?_
    | with_reducible assumption
    | split

theorem mcDropOne_change {U : List Part} {r0 : State} {p : Nat} {cause : Ans} {f : Frame} {s : State} (hT : ([.regs, .tt, .flt, .icu, .qaux, .swc, .out] : List Part) ⊆ U) (hC0 : Change U r0 s) :
    Change U r0 (mcDropOne p cause f s) := by
  have k1 : ([.regs] : List Part) ⊆ U := List.Subset.trans (by decide) hT
  have k2 : ([.regs, .tt, .flt, .icu, .out] : List Part) ⊆ U := List.Subset.trans (by decide) hT
  have k3 : ([.regs, .tt, .flt, .icu, .swc, .out] : List Part) ⊆ U := List.Subset.trans (by decide) hT
  have k4 : ([.qaux] : List Part) ⊆ U := List.Subset.trans (by decide) hT
  unfold mcDropOne
  repeat' first
    | with_reducible exact hC0
    | with_reducible refine Change.ite (fun _ => ?_) (fun _ => ?_)
    | with_reducible refine State.bump_change k1 ?_
    | with_reducible refine faultEvent_change k2 ?_
    | with_reducible refine tailEvent_change k3 ?_
    | with_reducible refine mcReport_change k4 ?_
    | with_reducible refine Change.foldl (fun _ _ _ => ?_) ?_
    | with_reducible assumption

theorem swcFlush_change {U : List Part} {r0 : State} {p : Nat} {cause : Ans} {s : State} (hT : ([.regs, .tt, .flt, .icu, .qaux, .swc, .out] : List Part) ⊆ U) (hC0 : Change U r0 s) :
    Change U r0 (swcFlush p cause s).1 := by
  have k1 : ([.regs] : List Part) ⊆ U := List.Subset.trans (by decide) hT
  have k2 : ([.regs, .tt, .flt, .icu, .out] : List Part) ⊆ U := List.Subset.trans (by decide) hT
  have k3 : ([.regs, .tt, .flt, .icu, .swc, .out] : List Part) ⊆ U := List.Subset.trans (by decide) hT
  have k4 : ([.swc] : List Part) ⊆ U := List.Subset.trans (by decide) hT
  unfold swcFlush
  repeat' first
    | with_reducible exact hC0
    | with_reducible refine Change.ite (fun _ => ?_) (fun _ => ?_)
    | with_reducible refine State.bumpBy_change k1 ?_
    | with_reducible refine faultEvent_change k2 ?_
    | with_reducible refine tailEvent_change k3 ?_
    | with_reducible refine mcDropOne_change hT ?_
    | with_reducible refine Change.foldl (fun _ _ _ => ?_) ?_
    | with_reducible refine Change.foldl_fst (fun _ _ _ => ?_) ?_
    | with_reducible refine Change.ite_fst (fun _ => ?_) (fun _ => ?_)
    | with_reducible assumption
    | split
    | dsimp only
    | with_reducible refine Change.set_swc k4 ?_

theorem swcPeaks_change {U : List Part} {r0 : State} {p : Nat} {s : State} (hT : ([.regs] : List Part) ⊆ U) (hC0 : Change U r0 s) :
    Change U r0 (swcPeaks p s) := by
  unfold swcPeaks
  repeat' first
    | with_reducible exact hC0
    | with_reducible refine Change.ite (fun _ => ?_) (fun _ => ?_)
    | with_reducible refine State.put_change hT ?_
    | with_reducible refine State.peak_change hT ?_

theorem enqueue_change {U : List Part} {r0 : State} {f : Frame} {pl : Pool} {s : State} (hT : ([.regs, .swc] : List Part) ⊆ U) (hC0 : Change U r0 s) :
    Change U r0 (enqueue f pl s) := by
  have k1 : ([.regs] : List Part) ⊆ U := List.Subset.trans (by decide) hT
  have k2 : ([.swc] : List Part) ⊆ U := List.Subset.trans (by decide) hT
  unfold enqueue
  repeat' first
    | with_reducible exact hC0
    | with_reducible refine Change.ite (fun _ => ?_) (fun _ => ?_)
    | with_reducible refine swcPeaks_change k1 ?_
    | with_reducible refine Change.foldl (fun _ _ _ => ?_) ?_
    | with_reducible assumption
    | split
    | dsimp only
    | with_reducible refine Change.set_swc k2 ?_

theorem evictOne_change {U : List Part} {r0 : State} {v : Frame} {s : State} (hT : ([.regs, .tt, .flt, .icu, .swc, .out] : List Part) ⊆ U) (hC0 : Change U r0 s) :
    Change U r0 (evictOne v s) := by
  have k1 : ([.regs] : List Part) ⊆ U := List.Subset.trans (by decide) hT
  have k2 : ([.swc] : List Part) ⊆ U := List.Subset.trans (by decide) hT
  unfold evictOne
  repeat' first
    | with_reducible exact hC0
    | with_reducible refine Change.ite (fun _ => ?_) (fun _ => ?_)
    | with_reducible refine State.bump_change k1 ?_
    | with_reducible refine tailEvent_change hT ?_
    | with_reducible refine Change.foldl (fun _ _ _ => ?_) ?_
    | with_reducible assumption
    | split
    | dsimp only
    | with_reducible refine Change.set_swc k2 ?_

theorem grantNote_change {U : List Part} {r0 : State} {p : Nat} {c : Nat} {s : State} (hT : ([.swc] : List Part) ⊆ U) (hC0 : Change U r0 s) :
    Change U r0 (grantNote p c s) := by
  unfold grantNote
  repeat' first
    | with_reducible exact hC0
    | with_reducible refine Change.ite (fun _ => ?_) (fun _ => ?_)
    | with_reducible refine Change.foldl (fun _ _ _ => ?_) ?_
    | with_reducible assumption
    | split
    | dsimp only
    | with_reducible refine Change.set_swc hT ?_

theorem depart_change {U : List Part} {r0 : State} {p : Nat} {f : Frame} {s : State} (hT : ([.regs, .tt, .flt, .icu, .swc, .out] : List Part) ⊆ U) (hC0 : Change U r0 s) :
    Change U r0 (depart p f s) := by
  have k1 : ([.regs] : List Part) ⊆ U := List.Subset.trans (by decide) hT
  have k2 : ([.swc] : List Part) ⊆ U := List.Subset.trans (by decide) hT
  unfold depart
  repeat' first
    | with_reducible exact hC0
    | with_reducible refine Change.ite (fun _ => ?_) (fun _ => ?_)
    | with_reducible refine State.bumpBy_change k1 ?_
    | with_reducible refine tailSample_change hT ?_
    | with_reducible refine grantNote_change k2 ?_
    | with_reducible refine Change.foldl (fun _ _ _ => ?_) ?_
    | with_reducible assumption
    | split
    | dsimp only
    | with_reducible refine Change.set_swc k2 ?_

end Sys2Proof.Machine
end

