-- ==== Sys2Proof/Laws/Answer.lean ====
section
/-! SUPPORT. What each operation of Machine/Answer.lean may change. -/
set_option linter.all false
set_option linter.unusedTactic false
set_option linter.unreachableTactic false

namespace Sys2Proof.Machine

open Sys2Proof

theorem l1Exit_change {U : List Part} {r0 : State} {s : State} (hT : ([.regs] : List Part) ⊆ U) (hC0 : Change U r0 s) :
    Change U r0 (l1Exit s) := by
  unfold l1Exit
  repeat' first
    | with_reducible exact hC0
    | with_reducible refine Change.ite (fun _ => ?_) (fun _ => ?_)
    | with_reducible refine State.put_change hT ?_
    | with_reducible refine Change.foldl (fun _ _ _ => ?_) ?_
    | with_reducible assumption
    | split
    | dsimp only

theorem hepTlp_change {U : List Part} {r0 : State} {t : Tlp} {s : State} (hT : ([.regs, .out] : List Part) ⊆ U) (hC0 : Change U r0 s) :
    Change U r0 (hepTlp t s) := by
  have k1 : ([.regs] : List Part) ⊆ U := List.Subset.trans (by decide) hT
  have k2 : ([.out] : List Part) ⊆ U := List.Subset.trans (by decide) hT
  unfold hepTlp
  repeat' first
    | with_reducible exact hC0
    | with_reducible refine Change.ite (fun _ => ?_) (fun _ => ?_)
    | with_reducible refine l1Exit_change k1 ?_
    | with_reducible refine State.emit_change k2 ?_
    | with_reducible refine Change.foldl (fun _ _ _ => ?_) ?_
    | with_reducible assumption
    | split
    | dsimp only

theorem hepRequest_change {U : List Part} {r0 : State} {t : Tlp} {s : State} (hT : ([.regs, .hep, .out] : List Part) ⊆ U) (hC0 : Change U r0 s) :
    Change U r0 (hepRequest t s) := by
  have k1 : ([.regs, .out] : List Part) ⊆ U := List.Subset.trans (by decide) hT
  have k2 : ([.hep] : List Part) ⊆ U := List.Subset.trans (by decide) hT
  unfold hepRequest
  repeat' first
    | with_reducible exact hC0
    | with_reducible refine Change.ite (fun _ => ?_) (fun _ => ?_)
    | with_reducible refine hepTlp_change k1 ?_
    | with_reducible refine Change.foldl (fun _ _ _ => ?_) ?_
    | with_reducible assumption
    | split
    | dsimp only
    | with_reducible refine Change.set_hep k2 ?_

theorem hostDone_change {U : List Part} {r0 : State} {fn : Nat} {tag : Nat} {ans : Ans} {data : List Byte} {ep : Bool} {s : State} (hT : ([.regs, .out] : List Part) ⊆ U) (hC0 : Change U r0 s) :
    Change U r0 (hostDone fn tag ans data ep s) := by
  unfold hostDone
  repeat' first
    | with_reducible exact hC0
    | with_reducible refine Change.ite (fun _ => ?_) (fun _ => ?_)
    | with_reducible refine hepTlp_change hT ?_
    | with_reducible refine Change.foldl (fun _ _ _ => ?_) ?_
    | with_reducible assumption
    | split
    | dsimp only

theorem fnFault_change {U : List Part} {r0 : State} {f : Nat → Field} {fn : Nat} {s : State} (hT : ([.regs] : List Part) ⊆ U) (hC0 : Change U r0 s) :
    Change U r0 (fnFault f fn s) := by
  unfold fnFault
  repeat' first
    | with_reducible exact hC0
    | with_reducible refine Change.ite (fun _ => ?_) (fun _ => ?_)
    | with_reducible refine State.put_change hT ?_
    | with_reducible refine Change.foldl (fun _ _ _ => ?_) ?_
    | with_reducible assumption
    | split
    | dsimp only

theorem coreFault_change {U : List Part} {r0 : State} {c : Nat} {reason : Nat} {cause : Nat} {addr : Nat} {s : State} (hT : ([.regs, .cores, .out] : List Part) ⊆ U) (hC0 : Change U r0 s) :
    Change U r0 (coreFault c reason cause addr s) := by
  have k1 : ([.regs] : List Part) ⊆ U := List.Subset.trans (by decide) hT
  have k2 : ([.cores] : List Part) ⊆ U := List.Subset.trans (by decide) hT
  have k3 : ([.out] : List Part) ⊆ U := List.Subset.trans (by decide) hT
  unfold coreFault
  repeat' first
    | with_reducible exact hC0
    | with_reducible refine Change.ite (fun _ => ?_) (fun _ => ?_)
    | with_reducible refine State.bump_change k1 ?_
    | with_reducible refine State.setCore_change k2 ?_
    | with_reducible refine State.emit_change k3 ?_
    | with_reducible refine Change.foldl (fun _ _ _ => ?_) ?_
    | with_reducible assumption
    | split
    | dsimp only

theorem stepFail_change {U : List Part} {r0 : State} {q : Nat} {st : Nat} {s : State} (hT : ([.qaux] : List Part) ⊆ U) (hC0 : Change U r0 s) :
    Change U r0 (stepFail q st s) := by
  unfold stepFail
  repeat' first
    | with_reducible exact hC0
    | with_reducible refine Change.ite (fun _ => ?_) (fun _ => ?_)
    | with_reducible refine State.setQa_change hT ?_
    | with_reducible refine Change.foldl (fun _ _ _ => ?_) ?_
    | with_reducible assumption
    | split
    | dsimp only

theorem stepReadEnd_change {U : List Part} {r0 : State} {q : Nat} {gen : Nat} {s : State} (hT : ([.qaux] : List Part) ⊆ U) (hC0 : Change U r0 s) :
    Change U r0 (stepReadEnd q gen s) := by
  unfold stepReadEnd
  repeat' first
    | with_reducible exact hC0
    | with_reducible refine Change.ite (fun _ => ?_) (fun _ => ?_)
    | with_reducible refine State.setQa_change hT ?_
    | with_reducible refine Change.foldl (fun _ _ _ => ?_) ?_
    | with_reducible assumption
    | split
    | dsimp only

theorem stepWriteEnd_change {U : List Part} {r0 : State} {q : Nat} {gen : Nat} {s : State} (hT : ([.qaux] : List Part) ⊆ U) (hC0 : Change U r0 s) :
    Change U r0 (stepWriteEnd q gen s) := by
  unfold stepWriteEnd
  repeat' first
    | with_reducible exact hC0
    | with_reducible refine Change.ite (fun _ => ?_) (fun _ => ?_)
    | with_reducible refine State.setQa_change hT ?_
    | with_reducible refine Change.foldl (fun _ _ _ => ?_) ?_
    | with_reducible assumption
    | split
    | dsimp only

theorem failReadOne_change {U : List Part} {r0 : State} {o : Origin} {ans : Ans} {s : State} (hT : ([.regs, .wxl, .qaux, .swc, .cores, .out] : List Part) ⊆ U) (hC0 : Change U r0 s) :
    Change U r0 (failReadOne o ans s) := by
  have k1 : ([.qaux] : List Part) ⊆ U := List.Subset.trans (by decide) hT
  have k2 : ([.swc] : List Part) ⊆ U := List.Subset.trans (by decide) hT
  have k3 : ([.regs, .out] : List Part) ⊆ U := List.Subset.trans (by decide) hT
  have k4 : ([.cores] : List Part) ⊆ U := List.Subset.trans (by decide) hT
  have k5 : ([.regs] : List Part) ⊆ U := List.Subset.trans (by decide) hT
  have k6 : ([.wxl] : List Part) ⊆ U := List.Subset.trans (by decide) hT
  unfold failReadOne
  repeat' first
    | with_reducible exact hC0
    | with_reducible refine Change.ite (fun _ => ?_) (fun _ => ?_)
    | with_reducible refine stepReadEnd_change k1 ?_
    | with_reducible refine State.inject_change k2 ?_
    | with_reducible refine State.setQa_change k1 ?_
    | with_reducible refine stepFail_change k1 ?_
    | with_reducible refine hostDone_change k3 ?_
    | with_reducible refine State.setCore_change k4 ?_
    | with_reducible refine fnFault_change k5 ?_
    | with_reducible refine Change.foldl (fun _ _ _ => ?_) ?_
    | with_reducible assumption
    | split
    | dsimp only
    | with_reducible refine Change.set_wxl k6 ?_

theorem failWrite_change {U : List Part} {r0 : State} {o : Origin} {ans : Ans} {s : State} (hT : ([.regs, .wxl, .qaux] : List Part) ⊆ U) (hC0 : Change U r0 s) :
    Change U r0 (failWrite o ans s) := by
  have k1 : ([.regs] : List Part) ⊆ U := List.Subset.trans (by decide) hT
  have k2 : ([.qaux] : List Part) ⊆ U := List.Subset.trans (by decide) hT
  have k3 : ([.wxl] : List Part) ⊆ U := List.Subset.trans (by decide) hT
  unfold failWrite
  repeat' first
    | with_reducible exact hC0
    | with_reducible refine Change.ite (fun _ => ?_) (fun _ => ?_)
    | with_reducible refine State.bump_change k1 ?_
    | with_reducible refine stepFail_change k2 ?_
    | with_reducible refine stepWriteEnd_change k2 ?_
    | with_reducible refine fnFault_change k1 ?_
    | with_reducible refine Change.foldl (fun _ _ _ => ?_) ?_
    | with_reducible assumption
    | split
    | dsimp only
    | with_reducible refine Change.set_wxl k3 ?_

theorem failAccess_change {U : List Part} {r0 : State} {typ : FTyp} {o : Origin} {ans : Ans} {s : State} (hT : ([.regs, .wxl, .qaux, .swc, .cores, .out] : List Part) ⊆ U) (hC0 : Change U r0 s) :
    Change U r0 (failAccess typ o ans s) := by
  have k1 : ([.regs, .wxl, .qaux] : List Part) ⊆ U := List.Subset.trans (by decide) hT
  unfold failAccess
  repeat' first
    | with_reducible exact hC0
    | with_reducible refine Change.ite (fun _ => ?_) (fun _ => ?_)
    | with_reducible refine failReadOne_change hT ?_
    | with_reducible refine failWrite_change k1 ?_
    | with_reducible refine Change.foldl (fun _ _ _ => ?_) ?_
    | with_reducible assumption
    | split
    | dsimp only

theorem failRead_change {U : List Part} {r0 : State} {o : Origin} {ans : Ans} {s : State} (hT : ([.regs, .wxl, .qaux, .swc, .cores, .out] : List Part) ⊆ U) (hC0 : Change U r0 s) :
    Change U r0 (failRead o ans s) := by
  have k1 : ([.wxl] : List Part) ⊆ U := List.Subset.trans (by decide) hT
  unfold failRead
  repeat' first
    | with_reducible exact hC0
    | with_reducible refine Change.ite (fun _ => ?_) (fun _ => ?_)
    | with_reducible refine failAccess_change hT ?_
    | with_reducible refine failReadOne_change hT ?_
    | with_reducible refine Change.foldl (fun _ _ _ => ?_) ?_
    | with_reducible assumption
    | split
    | dsimp only
    | with_reducible refine Change.set_wxl k1 ?_

theorem failFrame_change {U : List Part} {r0 : State} {f : Frame} {ans : Ans} {s : State} (hT : ([.regs, .wxl, .qaux, .swc, .cores, .out] : List Part) ⊆ U) (hC0 : Change U r0 s) :
    Change U r0 (failFrame f ans s) := by
  have k1 : ([.wxl] : List Part) ⊆ U := List.Subset.trans (by decide) hT
  unfold failFrame
  repeat' first
    | with_reducible exact hC0
    | with_reducible refine Change.ite (fun _ => ?_) (fun _ => ?_)
    | with_reducible refine failAccess_change hT ?_
    | with_reducible refine failReadOne_change hT ?_
    | with_reducible refine failRead_change hT ?_
    | with_reducible refine Change.foldl (fun _ _ _ => ?_) ?_
    | with_reducible assumption
    | split
    | dsimp only
    | with_reducible refine Change.set_wxl k1 ?_

theorem writeDone_change {U : List Part} {r0 : State} {o : Origin} {s : State} (hT : ([.qaux] : List Part) ⊆ U) (hC0 : Change U r0 s) :
    Change U r0 (writeDone o s) := by
  unfold writeDone
  repeat' first
    | with_reducible exact hC0
    | with_reducible refine Change.ite (fun _ => ?_) (fun _ => ?_)
    | with_reducible refine stepWriteEnd_change hT ?_
    | with_reducible refine Change.foldl (fun _ _ _ => ?_) ?_
    | with_reducible assumption
    | split
    | dsimp only

end Sys2Proof.Machine
end

