-- ==== Sys2Proof/Laws/Bits.lean ====
section
/-! SUPPORT. Laws of the fields of words: reading a field after writing it or another, and the bounds of what a field
holds. -/
namespace Sys2Proof.Machine

open Sys2Proof

theorem fieldOf_lt (x : Word) (lo w : Nat) : fieldOf x lo w < 2 ^ w := Nat.mod_lt _ (Nat.two_pow_pos w)

theorem fieldOf_testBit (x : Word) (lo w i : Nat) : (fieldOf x lo w).testBit i = (decide (i < w) && x.getLsbD (lo + i)) := by
  simp [fieldOf, Nat.testBit_mod_two_pow, Nat.testBit_shiftRight, BitVec.testBit_toNat]

theorem withField_getLsbD (x : Word) (lo w v i : Nat) :
    (withField x lo w v).getLsbD i =
      if lo ≤ i ∧ i < lo + w ∧ i < 64 then v.testBit (i - lo) else x.getLsbD i := by
  simp only [withField, fieldMask, BitVec.getLsbD_or, BitVec.getLsbD_and, BitVec.getLsbD_not, BitVec.getLsbD_ofNat,
    Nat.testBit_shiftLeft, Nat.testBit_two_pow_sub_one, Nat.testBit_mod_two_pow]
  by_cases hi : i < 64
  · by_cases h1 : lo ≤ i
    · by_cases h2 : i < lo + w
      · have hw : i - lo < w := by omega
        simp [hi, h1, h2, hw]
      · have hw : ¬ i - lo < w := by omega
        simp [hi, h1, h2, hw]
    · simp [hi, h1]
  · simp [hi, BitVec.getLsbD_of_ge x i (by omega)]

/-- A field reads what was written to it. -/
theorem fieldOf_withField_same (x : Word) {lo w : Nat} (v : Nat) (h : lo + w ≤ 64) :
    fieldOf (withField x lo w v) lo w = v % 2 ^ w := by
  apply Nat.eq_of_testBit_eq
  intro i
  rw [fieldOf_testBit, withField_getLsbD, Nat.testBit_mod_two_pow]
  by_cases hi : i < w
  · have : lo + i < 64 := by omega
    simp [hi, this]
  · simp [hi]

/-- A write of one field leaves a disjoint field alone. -/
theorem fieldOf_withField_disjoint (x : Word) {lo w lo' w' : Nat} (v : Nat) (h : lo + w ≤ lo' ∨ lo' + w' ≤ lo) :
    fieldOf (withField x lo w v) lo' w' = fieldOf x lo' w' := by
  apply Nat.eq_of_testBit_eq
  intro i
  rw [fieldOf_testBit, fieldOf_testBit, withField_getLsbD]
  by_cases hi : i < w'
  · have : ¬ (lo ≤ lo' + i ∧ lo' + i < lo + w ∧ lo' + i < 64) := by omega
    rw [if_neg this]
  · simp [hi]

theorem withField_same_twice (x : Word) (lo w v u : Nat) : withField (withField x lo w v) lo w u = withField x lo w u := by
  apply BitVec.eq_of_getLsbD_eq
  intro i _
  simp only [withField_getLsbD]
  split <;> simp_all

theorem bitOf_bitSet_same {w i : Nat} (n : Nat) (h : i < w) : bitOf (bitSet n i % 2 ^ w) i = true := by
  simp [bitOf, bitSet, Nat.testBit_mod_two_pow, h, Nat.one_shiftLeft, Nat.testBit_two_pow_self]

theorem bitOf_bitSet_other {w i j : Nat} (n : Nat) (h : j ≠ i) (hj : j < w) : bitOf (bitSet n i % 2 ^ w) j = bitOf n j := by
  simp [bitOf, bitSet, Nat.testBit_mod_two_pow, hj, Nat.one_shiftLeft, Nat.testBit_two_pow, Ne.symm h]

@[simp] theorem b2n_true : b2n true = 1 := rfl
@[simp] theorem b2n_false : b2n false = 0 := rfl

theorem satAdd_le (w a b : Nat) : satAdd w a b ≤ 2 ^ w - 1 := Nat.min_le_right _ _

theorem satAdd_of_lt {w a b : Nat} (h : a + b < 2 ^ w) : satAdd w a b = a + b := by
  unfold satAdd
  omega

theorem toBytes_length (k n : Nat) : (toBytes k n).length = k := by
  induction k generalizing n with
  | zero => rfl
  | succ k ih => simp [toBytes, ih]

/-- The number that the bytes of a number spell. -/
theorem ofBytes_toBytes (k n : Nat) : ofBytes (toBytes k n) = n % 256 ^ k := by
  induction k generalizing n with
  | zero => simp [toBytes, ofBytes, Nat.mod_one]
  | succ k ih =>
    simp only [toBytes, ofBytes, ih, BitVec.toNat_ofNat]
    have h := Nat.mod_mul (x := n) (a := 256) (b := 256 ^ k)
    rw [Nat.pow_succ' (m := 256), h]

end Sys2Proof.Machine
end

