-- ==== Sys2Proof/Laws/LinkOps.lean ====
section
/-! SUPPORT. What each operation of Machine/LinkOps.lean may change. -/
set_option linter.all false
set_option linter.unusedTactic false
set_option linter.unreachableTactic false

namespace Sys2Proof.Machine

open Sys2Proof

theorem xoffOne_change {U : List Part} {r0 : State} {p : Nat} {v : Nat} {s : State} (hT : ([.regs] : List Part) ⊆ U) (hC0 : Change U r0 s) :
    Change U r0 (xoffOne p v s) := by
  unfold xoffOne
  repeat' first
    | with_reducible exact hC0
    | with_reducible refine Change.ite (fun _ => ?_) (fun _ => ?_)
    | with_reducible refine State.bump_change hT ?_
    | with_reducible refine State.put_change hT ?_
    | with_reducible refine Change.foldl (fun _ _ _ => ?_) ?_
    | with_reducible assumption
    | split
    | dsimp only

theorem xoffSync_change {U : List Part} {r0 : State} {p : Nat} {s : State} (hT : ([.regs] : List Part) ⊆ U) (hC0 : Change U r0 s) :
    Change U r0 (xoffSync p s) := by
  unfold xoffSync
  repeat' first
    | with_reducible exact hC0
    | with_reducible refine Change.ite (fun _ => ?_) (fun _ => ?_)
    | with_reducible refine xoffOne_change hT ?_
    | with_reducible refine Change.foldl (fun _ _ _ => ?_) ?_
    | with_reducible assumption
    | split
    | dsimp only

theorem rttSync_change {U : List Part} {r0 : State} {p : Nat} {s : State} (hT : ([.regs, .tt, .flt, .icu, .out] : List Part) ⊆ U) (hC0 : Change U r0 s) :
    Change U r0 (rttSync p s) := by
  have k1 : ([.regs] : List Part) ⊆ U := List.Subset.trans (by decide) hT
  unfold rttSync
  repeat' first
    | with_reducible exact hC0
    | with_reducible refine Change.ite (fun _ => ?_) (fun _ => ?_)
    | with_reducible refine faultEvent_change hT ?_
    | with_reducible refine State.put_change k1 ?_
    | with_reducible refine Change.foldl (fun _ _ _ => ?_) ?_
    | with_reducible assumption
    | split
    | dsimp only

theorem sendAs_change {U : List Part} {r0 : State} {o : Origin} {p : Nat} {k : Pkt} {s : State} (hT : ([.ports, .out] : List Part) ⊆ U) (hC0 : Change U r0 s) :
    Change U r0 (sendAs o p k s) := by
  have k1 : ([.ports] : List Part) ⊆ U := List.Subset.trans (by decide) hT
  have k2 : ([.out] : List Part) ⊆ U := List.Subset.trans (by decide) hT
  unfold sendAs
  repeat' first
    | with_reducible exact hC0
    | with_reducible refine Change.ite (fun _ => ?_) (fun _ => ?_)
    | with_reducible refine State.setPort_change k1 ?_
    | with_reducible refine State.emit_change k2 ?_
    | with_reducible refine Change.foldl (fun _ _ _ => ?_) ?_
    | with_reducible assumption
    | split
    | dsimp only

theorem sendNow_change {U : List Part} {r0 : State} {p : Nat} {k : Pkt} {s : State} (hT : ([.ports, .out] : List Part) ⊆ U) (hC0 : Change U r0 s) :
    Change U r0 (sendNow p k s) := by
  unfold sendNow
  repeat' first
    | with_reducible exact hC0
    | with_reducible refine Change.ite (fun _ => ?_) (fun _ => ?_)
    | with_reducible refine sendAs_change hT ?_
    | with_reducible refine Change.foldl (fun _ _ _ => ?_) ?_
    | with_reducible assumption
    | split
    | dsimp only

theorem txDrain_change {U : List Part} {r0 : State} {p : Nat} {s : State} (hT : ([.ports, .out] : List Part) ⊆ U) (hC0 : Change U r0 s) :
    Change U r0 (txDrain p s) := by
  have k1 : ([.ports] : List Part) ⊆ U := List.Subset.trans (by decide) hT
  unfold txDrain
  repeat' first
    | with_reducible exact hC0
    | with_reducible refine Change.ite (fun _ => ?_) (fun _ => ?_)
    | with_reducible refine sendNow_change hT ?_
    | with_reducible refine State.setPort_change k1 ?_
    | with_reducible refine Change.foldl (fun _ _ _ => ?_) ?_
    | with_reducible assumption
    | split
    | dsimp only

theorem sendPkt_change {U : List Part} {r0 : State} {p : Nat} {k : Pkt} {s : State} (hT : ([.ports, .out] : List Part) ⊆ U) (hC0 : Change U r0 s) :
    Change U r0 (sendPkt p k s) := by
  have k1 : ([.ports] : List Part) ⊆ U := List.Subset.trans (by decide) hT
  unfold sendPkt
  repeat' first
    | with_reducible exact hC0
    | with_reducible refine Change.ite (fun _ => ?_) (fun _ => ?_)
    | with_reducible refine State.setPort_change k1 ?_
    | with_reducible refine txDrain_change hT ?_
    | with_reducible refine Change.foldl (fun _ _ _ => ?_) ?_
    | with_reducible assumption
    | split
    | dsimp only

theorem npAnswered_change {U : List Part} {r0 : State} {p : Nat} {tag : Nat} {s : State} (hT : ([.ports] : List Part) ⊆ U) (hC0 : Change U r0 s) :
    Change U r0 (npAnswered p tag s) := by
  unfold npAnswered
  repeat' first
    | with_reducible exact hC0
    | with_reducible refine Change.ite (fun _ => ?_) (fun _ => ?_)
    | with_reducible refine State.setPort_change hT ?_
    | with_reducible refine Change.foldl (fun _ _ _ => ?_) ?_
    | with_reducible assumption
    | split
    | dsimp only

theorem errPkt_change {U : List Part} {r0 : State} {p : Nat} {tag : Nat} {np : Bool} {env : Nat} {da : Nat} {status : Nat} {s : State} (hT : ([.ports, .out] : List Part) ⊆ U) (hC0 : Change U r0 s) :
    Change U r0 (errPkt p tag np env da status s) := by
  have k1 : ([.ports] : List Part) ⊆ U := List.Subset.trans (by decide) hT
  unfold errPkt
  repeat' first
    | with_reducible exact hC0
    | with_reducible refine Change.ite (fun _ => ?_) (fun _ => ?_)
    | with_reducible refine sendPkt_change hT ?_
    | with_reducible refine npAnswered_change k1 ?_
    | with_reducible refine Change.foldl (fun _ _ _ => ?_) ?_
    | with_reducible assumption
    | split
    | dsimp only

theorem pairPkt_change {U : List Part} {r0 : State} {op : Nat} {tag : Nat} {s : State} (hT : ([.ports, .out] : List Part) ⊆ U) (hC0 : Change U r0 s) :
    Change U r0 (pairPkt op tag s) := by
  unfold pairPkt
  repeat' first
    | with_reducible exact hC0
    | with_reducible refine Change.ite (fun _ => ?_) (fun _ => ?_)
    | with_reducible refine sendPkt_change hT ?_
    | with_reducible refine Change.foldl (fun _ _ _ => ?_) ?_
    | with_reducible assumption
    | split
    | dsimp only

theorem pairState_change {U : List Part} {r0 : State} {v : Nat} {s : State} (hT : ([.regs, .tt, .flt, .icu, .prl, .out] : List Part) ⊆ U) (hC0 : Change U r0 s) :
    Change U r0 (pairState v s) := by
  have k1 : ([.regs] : List Part) ⊆ U := List.Subset.trans (by decide) hT
  have k2 : ([.regs, .tt, .flt, .icu, .out] : List Part) ⊆ U := List.Subset.trans (by decide) hT
  have k3 : ([.prl] : List Part) ⊆ U := List.Subset.trans (by decide) hT
  unfold pairState
  repeat' first
    | with_reducible exact hC0
    | with_reducible refine Change.ite (fun _ => ?_) (fun _ => ?_)
    | with_reducible refine State.put_change k1 ?_
    | with_reducible refine icuLevel_change k2 ?_
    | with_reducible refine Change.foldl (fun _ _ _ => ?_) ?_
    | with_reducible assumption
    | split
    | dsimp only
    | with_reducible refine Change.set_prl k3 ?_

theorem pairRecheck_change {U : List Part} {r0 : State} {s : State} (hT : ([.regs, .checks, .ports, .prl, .out] : List Part) ⊆ U) (hC0 : Change U r0 s) :
    Change U r0 (pairRecheck s) := by
  have k1 : ([.ports, .out] : List Part) ⊆ U := List.Subset.trans (by decide) hT
  have k2 : ([.regs] : List Part) ⊆ U := List.Subset.trans (by decide) hT
  have k3 : ([.checks, .prl] : List Part) ⊆ U := List.Subset.trans (by decide) hT
  have k4 : ([.prl] : List Part) ⊆ U := List.Subset.trans (by decide) hT
  have k5 : ([.checks] : List Part) ⊆ U := List.Subset.trans (by decide) hT
  unfold pairRecheck
  repeat' first
    | with_reducible exact hC0
    | with_reducible refine Change.ite (fun _ => ?_) (fun _ => ?_)
    | with_reducible refine pairPkt_change k1 ?_
    | with_reducible refine State.put_change k2 ?_
    | with_reducible refine Change.foldl (fun _ _ _ => ?_) ?_
    | with_reducible assumption
    | split
    | dsimp only
    | with_reducible refine Change.set_checks_prl k3 ?_
    | with_reducible refine Change.set_prl k4 ?_
    | with_reducible refine Change.set_checks k5 ?_

theorem pairSyncFail_change {U : List Part} {r0 : State} {s : State} (hT : ([.regs, .tt, .checks, .flt, .icu, .ports, .prl, .out] : List Part) ⊆ U) (hC0 : Change U r0 s) :
    Change U r0 (pairSyncFail s) := by
  have k1 : ([.regs, .checks, .ports, .prl, .out] : List Part) ⊆ U := List.Subset.trans (by decide) hT
  have k2 : ([.regs, .tt, .flt, .icu, .out] : List Part) ⊆ U := List.Subset.trans (by decide) hT
  have k3 : ([.regs, .tt, .flt, .icu, .prl, .out] : List Part) ⊆ U := List.Subset.trans (by decide) hT
  unfold pairSyncFail
  repeat' first
    | with_reducible exact hC0
    | with_reducible refine Change.ite (fun _ => ?_) (fun _ => ?_)
    | with_reducible refine pairRecheck_change k1 ?_
    | with_reducible refine faultEvent_change k2 ?_
    | with_reducible refine pairState_change k3 ?_
    | with_reducible refine Change.foldl (fun _ _ _ => ?_) ?_
    | with_reducible assumption
    | split
    | dsimp only

theorem pairDetach_change {U : List Part} {r0 : State} {s : State} (hT : ([.regs, .tt, .checks, .flt, .icu, .ports, .prl, .out] : List Part) ⊆ U) (hC0 : Change U r0 s) :
    Change U r0 (pairDetach s) := by
  have k1 : ([.regs, .checks, .ports, .prl, .out] : List Part) ⊆ U := List.Subset.trans (by decide) hT
  have k2 : ([.regs, .tt, .flt, .icu, .out] : List Part) ⊆ U := List.Subset.trans (by decide) hT
  have k3 : ([.regs, .tt, .flt, .icu, .prl, .out] : List Part) ⊆ U := List.Subset.trans (by decide) hT
  unfold pairDetach
  repeat' first
    | with_reducible exact hC0
    | with_reducible refine Change.ite (fun _ => ?_) (fun _ => ?_)
    | with_reducible refine pairRecheck_change k1 ?_
    | with_reducible refine faultEvent_change k2 ?_
    | with_reducible refine pairState_change k3 ?_
    | with_reducible refine Change.foldl (fun _ _ _ => ?_) ?_
    | with_reducible assumption
    | split
    | dsimp only

theorem mirror_change {U : List Part} {r0 : State} {q : Nat} {boundary : Bool} {s : State} (hT : ([.ports, .prl, .out] : List Part) ⊆ U) (hC0 : Change U r0 s) :
    Change U r0 (mirror q boundary s) := by
  have k1 : ([.ports, .out] : List Part) ⊆ U := List.Subset.trans (by decide) hT
  have k2 : ([.prl] : List Part) ⊆ U := List.Subset.trans (by decide) hT
  unfold mirror
  repeat' first
    | with_reducible exact hC0
    | with_reducible refine Change.ite (fun _ => ?_) (fun _ => ?_)
    | with_reducible refine pairPkt_change k1 ?_
    | with_reducible refine Change.foldl (fun _ _ _ => ?_) ?_
    | with_reducible assumption
    | split
    | dsimp only
    | with_reducible refine Change.set_prl k2 ?_

end Sys2Proof.Machine
end

