-- ==== Sys2Proof/Laws/WxlOps.lean ====
section
/-! SUPPORT. What each operation of Machine/WxlOps.lean may change. -/
set_option linter.all false
set_option linter.unusedTactic false
set_option linter.unreachableTactic false

namespace Sys2Proof.Machine

open Sys2Proof

theorem hostRefuse_change {U : List Part} {r0 : State} {fn : Nat} {tag : Nat} {posted : Bool} {ca : Bool} {s : State} (hT : ([.regs, .out] : List Part) ⊆ U) (hC0 : Change U r0 s) :
    Change U r0 (hostRefuse fn tag posted ca s) := by
  have k1 : ([.out] : List Part) ⊆ U := List.Subset.trans (by decide) hT
  unfold hostRefuse
  repeat' first
    | with_reducible exact hC0
    | with_reducible refine Change.ite (fun _ => ?_) (fun _ => ?_)
    | with_reducible refine hostDone_change hT ?_
    | with_reducible refine State.emit_change k1 ?_
    | with_reducible refine Change.foldl (fun _ _ _ => ?_) ?_
    | with_reducible assumption
    | split
    | dsimp only

theorem stepCut_change {U : List Part} {r0 : State} {q : Nat} {gen : Nat} {off : Nat} {wr : Bool} {s : State} (hT : ([.qaux] : List Part) ⊆ U) (hC0 : Change U r0 s) :
    Change U r0 (stepCut q gen off wr s) := by
  unfold stepCut
  repeat' first
    | with_reducible exact hC0
    | with_reducible refine Change.ite (fun _ => ?_) (fun _ => ?_)
    | with_reducible refine stepReadEnd_change hT ?_
    | with_reducible refine State.setQa_change hT ?_
    | with_reducible refine stepWriteEnd_change hT ?_
    | with_reducible refine Change.foldl (fun _ _ _ => ?_) ?_
    | with_reducible assumption
    | split
    | dsimp only

theorem refuseNote_change {U : List Part} {r0 : State} {f : Frame} {r : Refuse} {s : State} (hT : ([.regs, .tt, .flt, .icu, .out] : List Part) ⊆ U) (hC0 : Change U r0 s) :
    Change U r0 (refuseNote f r s) := by
  have k1 : ([.regs] : List Part) ⊆ U := List.Subset.trans (by decide) hT
  unfold refuseNote
  repeat' first
    | with_reducible exact hC0
    | with_reducible refine Change.ite (fun _ => ?_) (fun _ => ?_)
    | with_reducible refine faultEvent_change hT ?_
    | with_reducible refine fnFault_change k1 ?_
    | with_reducible refine Change.foldl (fun _ _ _ => ?_) ?_
    | with_reducible assumption
    | split
    | dsimp only

theorem wxlRefuse_change {U : List Part} {r0 : State} {f : Frame} {r : Refuse} {s : State} (hT : ([.regs, .tt, .flt, .icu, .wxl, .qaux, .swc, .ports, .cores, .out] : List Part) ⊆ U) (hC0 : Change U r0 s) :
    Change U r0 (wxlRefuse f r s) := by
  have k1 : ([.qaux] : List Part) ⊆ U := List.Subset.trans (by decide) hT
  have k2 : ([.regs, .wxl, .qaux, .swc, .cores, .out] : List Part) ⊆ U := List.Subset.trans (by decide) hT
  have k3 : ([.regs, .tt, .flt, .icu, .out] : List Part) ⊆ U := List.Subset.trans (by decide) hT
  have k4 : ([.regs, .out] : List Part) ⊆ U := List.Subset.trans (by decide) hT
  have k5 : ([.regs, .cores, .out] : List Part) ⊆ U := List.Subset.trans (by decide) hT
  have k6 : ([.ports, .out] : List Part) ⊆ U := List.Subset.trans (by decide) hT
  unfold wxlRefuse
  repeat' first
    | with_reducible exact hC0
    | with_reducible refine Change.ite (fun _ => ?_) (fun _ => ?_)
    | with_reducible refine State.setQa_change k1 ?_
    | with_reducible refine failAccess_change k2 ?_
    | with_reducible refine faultEvent_change k3 ?_
    | with_reducible refine stepCut_change k1 ?_
    | with_reducible refine hostRefuse_change k4 ?_
    | with_reducible refine coreFault_change k5 ?_
    | with_reducible refine refuseNote_change k3 ?_
    | with_reducible refine errPkt_change k6 ?_
    | with_reducible refine Change.foldl (fun _ _ _ => ?_) ?_
    | with_reducible assumption
    | split
    | dsimp only

theorem retrain_change {U : List Part} {r0 : State} {w : Nat} {s : State} (hT : ([.regs, .wxl] : List Part) ⊆ U) (hC0 : Change U r0 s) :
    Change U r0 (retrain w s) := by
  have k1 : ([.regs] : List Part) ⊆ U := List.Subset.trans (by decide) hT
  have k2 : ([.wxl] : List Part) ⊆ U := List.Subset.trans (by decide) hT
  unfold retrain
  repeat' first
    | with_reducible exact hC0
    | with_reducible refine Change.ite (fun _ => ?_) (fun _ => ?_)
    | with_reducible refine State.put_change k1 ?_
    | with_reducible refine Change.foldl (fun _ _ _ => ?_) ?_
    | with_reducible assumption
    | split
    | dsimp only
    | with_reducible refine Change.set_wxl k2 ?_

theorem seDiscard_change {U : List Part} {r0 : State} {e : PfData} {s : State} (hT : ([.regs, .tt, .flt, .icu, .wxl, .out] : List Part) ⊆ U) (hC0 : Change U r0 s) :
    Change U r0 (seDiscard e s) := by
  have k1 : ([.regs] : List Part) ⊆ U := List.Subset.trans (by decide) hT
  have k2 : ([.regs, .tt, .flt, .icu, .out] : List Part) ⊆ U := List.Subset.trans (by decide) hT
  have k3 : ([.regs, .wxl] : List Part) ⊆ U := List.Subset.trans (by decide) hT
  unfold seDiscard
  repeat' first
    | with_reducible exact hC0
    | with_reducible refine Change.ite (fun _ => ?_) (fun _ => ?_)
    | with_reducible refine State.bump_change k1 ?_
    | with_reducible refine faultEvent_change k2 ?_
    | with_reducible refine State.put_change k1 ?_
    | with_reducible refine retrain_change k3 ?_
    | with_reducible refine Change.foldl (fun _ _ _ => ?_) ?_
    | with_reducible assumption
    | split
    | dsimp only

theorem pfUnused_change {U : List Part} {r0 : State} {log : Bool} {e : PfData} {s : State} (hT : ([.regs, .tt, .flt, .icu, .wxl, .out] : List Part) ⊆ U) (hC0 : Change U r0 s) :
    Change U r0 (pfUnused log e s) := by
  have k1 : ([.regs] : List Part) ⊆ U := List.Subset.trans (by decide) hT
  have k2 : ([.regs, .wxl] : List Part) ⊆ U := List.Subset.trans (by decide) hT
  have k3 : ([.wxl] : List Part) ⊆ U := List.Subset.trans (by decide) hT
  unfold pfUnused
  repeat' first
    | with_reducible exact hC0
    | with_reducible refine Change.ite (fun _ => ?_) (fun _ => ?_)
    | with_reducible refine State.bump_change k1 ?_
    | with_reducible refine seDiscard_change hT ?_
    | with_reducible refine retrain_change k2 ?_
    | with_reducible refine Change.foldl (fun _ _ _ => ?_) ?_
    | with_reducible assumption
    | split
    | dsimp only
    | with_reducible refine Change.set_wxl k3 ?_

theorem pfFrames_change {U : List Part} {r0 : State} {s : State} (hT : ([.swc] : List Part) ⊆ U) (hC0 : Change U r0 s) :
    Change U r0 (pfFrames s) := by
  unfold pfFrames
  repeat' first
    | with_reducible exact hC0
    | with_reducible refine Change.ite (fun _ => ?_) (fun _ => ?_)
    | with_reducible refine Change.foldl (fun _ _ _ => ?_) ?_
    | with_reducible assumption
    | split
    | dsimp only
    | with_reducible refine Change.set_swc hT ?_

theorem pfDiscard_change {U : List Part} {r0 : State} {log : Bool} {p : PfData → Bool} {s : State} (hT : ([.regs, .tt, .flt, .icu, .wxl, .swc, .out] : List Part) ⊆ U) (hC0 : Change U r0 s) :
    Change U r0 (pfDiscard log p s) := by
  have k1 : ([.regs, .tt, .flt, .icu, .wxl, .out] : List Part) ⊆ U := List.Subset.trans (by decide) hT
  have k2 : ([.swc] : List Part) ⊆ U := List.Subset.trans (by decide) hT
  have k3 : ([.wxl] : List Part) ⊆ U := List.Subset.trans (by decide) hT
  unfold pfDiscard
  repeat' first
    | with_reducible exact hC0
    | with_reducible refine Change.ite (fun _ => ?_) (fun _ => ?_)
    | with_reducible refine pfUnused_change k1 ?_
    | with_reducible refine pfFrames_change k2 ?_
    | with_reducible refine Change.foldl (fun _ _ _ => ?_) ?_
    | with_reducible assumption
    | split
    | dsimp only
    | with_reducible refine Change.set_wxl k3 ?_

theorem pfOnWrite_change {U : List Part} {r0 : State} {da : Nat} {len : Nat} {s : State} (hT : ([.regs, .tt, .flt, .icu, .wxl, .swc, .out] : List Part) ⊆ U) (hC0 : Change U r0 s) :
    Change U r0 (pfOnWrite da len s) := by
  unfold pfOnWrite
  repeat' first
    | with_reducible exact hC0
    | with_reducible refine Change.ite (fun _ => ?_) (fun _ => ?_)
    | with_reducible refine pfDiscard_change hT ?_
    | with_reducible refine Change.foldl (fun _ _ _ => ?_) ?_
    | with_reducible assumption
    | split
    | dsimp only

theorem pfUse_change {U : List Part} {r0 : State} {w : Nat} {da : Nat} {len : Nat} {s : State} (hT : ([.wxl, .swc] : List Part) ⊆ U) (hC0 : Change U r0 s) :
    Change U r0 (pfUse w da len s) := by
  have k1 : ([.swc] : List Part) ⊆ U := List.Subset.trans (by decide) hT
  have k2 : ([.wxl] : List Part) ⊆ U := List.Subset.trans (by decide) hT
  unfold pfUse
  repeat' first
    | with_reducible exact hC0
    | with_reducible refine Change.ite (fun _ => ?_) (fun _ => ?_)
    | with_reducible refine pfFrames_change k1 ?_
    | with_reducible refine Change.foldl (fun _ _ _ => ?_) ?_
    | with_reducible assumption
    | split
    | dsimp only
    | with_reducible refine Change.set_wxl k2 ?_

theorem pcPut_change {U : List Part} {r0 : State} {l : PcLine} {s : State} (hT : ([.wxl] : List Part) ⊆ U) (hC0 : Change U r0 s) :
    Change U r0 (pcPut l s) := by
  unfold pcPut
  repeat' first
    | with_reducible exact hC0
    | with_reducible refine Change.ite (fun _ => ?_) (fun _ => ?_)
    | with_reducible refine Change.foldl (fun _ _ _ => ?_) ?_
    | with_reducible assumption
    | split
    | dsimp only
    | with_reducible refine Change.set_wxl hT ?_

theorem pcDrop_change {U : List Part} {r0 : State} {p : PcLine → Bool} {s : State} (hT : ([.wxl] : List Part) ⊆ U) (hC0 : Change U r0 s) :
    Change U r0 (pcDrop p s) := by
  unfold pcDrop
  repeat' first
    | with_reducible exact hC0
    | with_reducible refine Change.ite (fun _ => ?_) (fun _ => ?_)
    | with_reducible refine Change.foldl (fun _ _ _ => ?_) ?_
    | with_reducible assumption
    | split
    | dsimp only
    | with_reducible refine Change.set_wxl hT ?_

theorem pcRoom_change {U : List Part} {r0 : State} {da : Nat} {s : State} (hT : ([.wxl, .swc] : List Part) ⊆ U) (hC0 : Change U r0 s) :
    ∀ w t, pcRoom da s = some (w, t) → Change U r0 t := by
  have k1 : ([.wxl] : List Part) ⊆ U := List.Subset.trans (by decide) hT
  have k2 : ([.swc] : List Part) ⊆ U := List.Subset.trans (by decide) hT
  intro w t ht
  unfold pcRoom at ht
  split at ht
  · cases ht
  · dsimp only at ht
    split at ht
    · cases ht
      exact hC0
    · split at ht
      · cases ht
      · cases ht
        exact Change.ite (fun _ => State.inject_change k2 (pcDrop_change k1 hC0)) (fun _ => pcDrop_change k1 hC0)

theorem pcInstall_change {U : List Part} {r0 : State} {da env : Nat} {dirty : Bool} {data : List Byte} {s : State} (hT : ([.wxl, .swc] : List Part) ⊆ U) (hC0 : Change U r0 s) :
    ∀ t, pcInstall da env dirty data s = some t → Change U r0 t := by
  have k1 : ([.wxl] : List Part) ⊆ U := List.Subset.trans (by decide) hT
  intro t ht
  unfold pcInstall at ht
  split at ht
  · cases ht
  · cases ht
    exact pcPut_change k1 (pcRoom_change hT hC0 _ _ ‹_›)

theorem respond_change {U : List Part} {r0 : State} {f : Frame} {ans : Ans} {data : List Byte} {s : State} (hT : ([.swc] : List Part) ⊆ U) (hC0 : Change U r0 s) :
    Change U r0 (respond f ans data s) := by
  unfold respond
  repeat' first
    | with_reducible exact hC0
    | with_reducible refine Change.ite (fun _ => ?_) (fun _ => ?_)
    | with_reducible refine State.inject_change hT ?_
    | with_reducible refine Change.foldl (fun _ _ _ => ?_) ?_
    | with_reducible assumption
    | split
    | dsimp only

theorem pcPurge_change {U : List Part} {r0 : State} {da : Nat} {s : State} (hT : ([.wxl, .swc] : List Part) ⊆ U) (hC0 : Change U r0 s) :
    Change U r0 (pcPurge da s) := by
  have k1 : ([.swc] : List Part) ⊆ U := List.Subset.trans (by decide) hT
  have k2 : ([.wxl] : List Part) ⊆ U := List.Subset.trans (by decide) hT
  unfold pcPurge
  repeat' first
    | with_reducible exact hC0
    | with_reducible refine Change.ite (fun _ => ?_) (fun _ => ?_)
    | with_reducible refine State.inject_change k1 ?_
    | with_reducible refine pcDrop_change k2 ?_
    | with_reducible refine Change.foldl (fun _ _ _ => ?_) ?_
    | with_reducible assumption
    | split
    | dsimp only

theorem pcHit_change {U : List Part} {r0 : State} {f : Frame} {l : PcLine} {s : State} (hT : ([.regs, .wxl, .qaux, .swc] : List Part) ⊆ U) (hC0 : Change U r0 s) :
    Change U r0 (pcHit f l s) := by
  have k1 : ([.regs] : List Part) ⊆ U := List.Subset.trans (by decide) hT
  have k2 : ([.swc] : List Part) ⊆ U := List.Subset.trans (by decide) hT
  have k3 : ([.qaux] : List Part) ⊆ U := List.Subset.trans (by decide) hT
  have k4 : ([.wxl] : List Part) ⊆ U := List.Subset.trans (by decide) hT
  unfold pcHit
  repeat' first
    | with_reducible exact hC0
    | with_reducible refine Change.ite (fun _ => ?_) (fun _ => ?_)
    | with_reducible refine State.bump_change k1 ?_
    | with_reducible refine State.inject_change k2 ?_
    | with_reducible refine writeDone_change k3 ?_
    | with_reducible refine respond_change k2 ?_
    | with_reducible refine pcPut_change k4 ?_
    | with_reducible refine Change.foldl (fun _ _ _ => ?_) ?_
    | with_reducible assumption
    | split
    | dsimp only

theorem pcMiss_change {U : List Part} {r0 : State} {f : Frame} {hc : Bool} {se : Bool} {s : State} (hT : ([.regs, .wxl, .qaux, .swc] : List Part) ⊆ U) (hC0 : Change U r0 s) :
    Change U r0 (pcMiss f hc se s) := by
  have k1 : ([.regs] : List Part) ⊆ U := List.Subset.trans (by decide) hT
  have k2 : ([.swc] : List Part) ⊆ U := List.Subset.trans (by decide) hT
  have k3 : ([.wxl, .swc] : List Part) ⊆ U := List.Subset.trans (by decide) hT
  have k4 : ([.qaux] : List Part) ⊆ U := List.Subset.trans (by decide) hT
  have k5 : ([.wxl] : List Part) ⊆ U := List.Subset.trans (by decide) hT
  unfold pcMiss
  repeat' first
    | with_reducible exact hC0
    | with_reducible refine Change.ite (fun _ => ?_) (fun _ => ?_)
    | with_reducible refine State.bump_change k1 ?_
    | with_reducible refine State.inject_change k2 ?_
    | with_reducible refine Change.getD (pcInstall_change k3 ?_) ?_
    | (refine pcInstall_change k3 ?_ _ (by assumption))
    | with_reducible refine writeDone_change k4 ?_
    | (refine pcRoom_change k3 ?_ _ _ (by assumption))
    | with_reducible refine Change.foldl (fun _ _ _ => ?_) ?_
    | with_reducible assumption
    | split
    | dsimp only
    | with_reducible refine Change.set_wxl k5 ?_

theorem pcAccess_change {U : List Part} {r0 : State} {f : Frame} {hc : Bool} {se : Bool} {s : State} (hT : ([.regs, .wxl, .qaux, .swc] : List Part) ⊆ U) (hC0 : Change U r0 s) :
    Change U r0 (pcAccess f hc se s) := by
  have k1 : ([.swc] : List Part) ⊆ U := List.Subset.trans (by decide) hT
  have k2 : ([.wxl, .swc] : List Part) ⊆ U := List.Subset.trans (by decide) hT
  have k3 : ([.wxl] : List Part) ⊆ U := List.Subset.trans (by decide) hT
  unfold pcAccess
  repeat' first
    | with_reducible exact hC0
    | with_reducible refine Change.ite (fun _ => ?_) (fun _ => ?_)
    | with_reducible refine pcMiss_change hT ?_
    | with_reducible refine State.inject_change k1 ?_
    | with_reducible refine pcHit_change hT ?_
    | with_reducible refine pcPurge_change k2 ?_
    | with_reducible refine Change.foldl (fun _ _ _ => ?_) ?_
    | with_reducible assumption
    | split
    | dsimp only
    | with_reducible refine Change.set_wxl k3 ?_

theorem pcFilled_change {U : List Part} {r0 : State} {da : Nat} {env : Nat} {data : List Byte} {s : State} (hT : ([.regs, .wxl, .qaux, .swc] : List Part) ⊆ U) (hC0 : Change U r0 s) :
    Change U r0 (pcFilled da env data s) := by
  have k1 : ([.wxl, .swc] : List Part) ⊆ U := List.Subset.trans (by decide) hT
  have k2 : ([.wxl] : List Part) ⊆ U := List.Subset.trans (by decide) hT
  unfold pcFilled
  repeat' first
    | with_reducible exact hC0
    | with_reducible refine Change.ite (fun _ => ?_) (fun _ => ?_)
    | with_reducible refine Change.getD (pcInstall_change k1 ?_) ?_
    | (refine pcInstall_change k1 ?_ _ (by assumption))
    | with_reducible refine pcAccess_change hT ?_
    | with_reducible refine Change.foldl (fun _ _ _ => ?_) ?_
    | with_reducible assumption
    | split
    | dsimp only
    | with_reducible refine Change.set_wxl k2 ?_

theorem migDirty_change {U : List Part} {r0 : State} {da : Nat} {len : Nat} {s : State} (hT : ([.wxl] : List Part) ⊆ U) (hC0 : Change U r0 s) :
    Change U r0 (migDirty da len s) := by
  unfold migDirty
  repeat' first
    | with_reducible exact hC0
    | with_reducible refine Change.ite (fun _ => ?_) (fun _ => ?_)
    | with_reducible refine Change.foldl (fun _ _ _ => ?_) ?_
    | with_reducible assumption
    | split
    | dsimp only
    | with_reducible refine Change.set_wxl hT ?_

theorem toTarget_change {U : List Part} {r0 : State} {x : Fwd} {s : State} (hT : ([.regs, .wxl, .qaux, .swc] : List Part) ⊆ U) (hC0 : Change U r0 s) :
    Change U r0 (toTarget x s) := by
  have k1 : ([.swc] : List Part) ⊆ U := List.Subset.trans (by decide) hT
  unfold toTarget
  repeat' first
    | with_reducible exact hC0
    | with_reducible refine Change.ite (fun _ => ?_) (fun _ => ?_)
    | with_reducible refine State.inject_change k1 ?_
    | with_reducible refine pcAccess_change hT ?_
    | with_reducible refine Change.foldl (fun _ _ _ => ?_) ?_
    | with_reducible assumption
    | split
    | dsimp only

theorem pfIssue_change {U : List Part} {r0 : State} {x : Fwd} {w : Nat} {idx : Nat} {gen : Nat} {fin : Nat} {s : State} (hT : ([.regs, .wxl, .qaux, .swc] : List Part) ⊆ U) (hC0 : Change U r0 s) :
    Change U r0 (pfIssue x w idx gen fin s) := by
  have k1 : ([.regs] : List Part) ⊆ U := List.Subset.trans (by decide) hT
  have k2 : ([.wxl] : List Part) ⊆ U := List.Subset.trans (by decide) hT
  unfold pfIssue
  repeat' first
    | with_reducible exact hC0
    | with_reducible refine Change.ite (fun _ => ?_) (fun _ => ?_)
    | with_reducible refine State.bump_change k1 ?_
    | with_reducible refine pcAccess_change hT ?_
    | with_reducible refine Change.foldl (fun _ _ _ => ?_) ?_
    | with_reducible assumption
    | split
    | dsimp only
    | with_reducible refine Change.set_wxl k2 ?_

theorem pfTrain_change {U : List Part} {r0 : State} {x : Fwd} {w : Nat} {idx : Nat} {gen : Nat} {s : State} (hT : ([.regs, .wxl, .qaux, .swc] : List Part) ⊆ U) (hC0 : Change U r0 s) :
    Change U r0 (pfTrain x w idx gen s) := by
  have k1 : ([.regs] : List Part) ⊆ U := List.Subset.trans (by decide) hT
  have k2 : ([.wxl] : List Part) ⊆ U := List.Subset.trans (by decide) hT
  unfold pfTrain
  repeat' first
    | with_reducible exact hC0
    | with_reducible refine Change.ite (fun _ => ?_) (fun _ => ?_)
    | with_reducible refine pfIssue_change hT ?_
    | with_reducible refine State.put_change k1 ?_
    | with_reducible refine Change.foldl (fun _ _ _ => ?_) ?_
    | with_reducible assumption
    | split
    | dsimp only
    | with_reducible refine Change.set_wxl k2 ?_

theorem wxlForward_change {U : List Part} {r0 : State} {x : Fwd} {s : State} (hT : ([.regs, .tt, .flt, .icu, .wxl, .qaux, .swc, .out] : List Part) ⊆ U) (hC0 : Change U r0 s) :
    Change U r0 (wxlForward x s) := by
  have k1 : ([.regs] : List Part) ⊆ U := List.Subset.trans (by decide) hT
  have k2 : ([.regs, .tt, .flt, .icu, .wxl, .swc, .out] : List Part) ⊆ U := List.Subset.trans (by decide) hT
  have k3 : ([.wxl, .swc] : List Part) ⊆ U := List.Subset.trans (by decide) hT
  have k4 : ([.swc] : List Part) ⊆ U := List.Subset.trans (by decide) hT
  have k5 : ([.regs, .wxl, .qaux, .swc] : List Part) ⊆ U := List.Subset.trans (by decide) hT
  have k6 : ([.wxl] : List Part) ⊆ U := List.Subset.trans (by decide) hT
  unfold wxlForward
  repeat' first
    | with_reducible exact hC0
    | with_reducible refine Change.ite (fun _ => ?_) (fun _ => ?_)
    | with_reducible refine State.bump_change k1 ?_
    | with_reducible refine pfOnWrite_change k2 ?_
    | with_reducible refine pfUse_change k3 ?_
    | with_reducible refine respond_change k4 ?_
    | with_reducible refine toTarget_change k5 ?_
    | with_reducible refine pfTrain_change k5 ?_
    | with_reducible refine migDirty_change k6 ?_
    | with_reducible refine pfDiscard_change k2 ?_
    | with_reducible refine Change.foldl (fun _ _ _ => ?_) ?_
    | with_reducible assumption
    | split
    | dsimp only
    | with_reducible refine Change.set_wxl k6 ?_

theorem atsStep_change {U : List Part} {r0 : State} {x : Fwd} {m : Nat} {s : State} (hT : ([.regs, .tt, .flt, .icu, .hep, .wxl, .qaux, .swc, .ports, .cores, .out] : List Part) ⊆ U) (hC0 : Change U r0 s) :
    Change U r0 (atsStep x m s) := by
  have k1 : ([.regs, .tt, .flt, .icu, .wxl, .qaux, .swc, .ports, .cores, .out] : List Part) ⊆ U := List.Subset.trans (by decide) hT
  have k2 : ([.regs, .hep, .out] : List Part) ⊆ U := List.Subset.trans (by decide) hT
  have k3 : ([.regs, .tt, .flt, .icu, .wxl, .qaux, .swc, .out] : List Part) ⊆ U := List.Subset.trans (by decide) hT
  have k4 : ([.wxl] : List Part) ⊆ U := List.Subset.trans (by decide) hT
  unfold atsStep
  repeat' first
    | with_reducible exact hC0
    | with_reducible refine Change.ite (fun _ => ?_) (fun _ => ?_)
    | with_reducible refine wxlRefuse_change k1 ?_
    | with_reducible refine hepRequest_change k2 ?_
    | with_reducible refine wxlForward_change k3 ?_
    | with_reducible refine Change.foldl (fun _ _ _ => ?_) ?_
    | with_reducible assumption
    | split
    | dsimp only
    | with_reducible refine Change.set_wxl k4 ?_

theorem daAccess_change {U : List Part} {r0 : State} {a : Access} {s : State} (hT : ([.regs, .tt, .flt, .icu, .hep, .wxl, .qaux, .swc, .ports, .cores, .out] : List Part) ⊆ U) (hC0 : Change U r0 s) :
    Change U r0 (daAccess a s) := by
  have k1 : ([.regs, .tt, .flt, .icu, .wxl, .qaux, .swc, .ports, .cores, .out] : List Part) ⊆ U := List.Subset.trans (by decide) hT
  have k2 : ([.regs, .tt, .flt, .icu, .wxl, .qaux, .swc, .out] : List Part) ⊆ U := List.Subset.trans (by decide) hT
  unfold daAccess
  repeat' first
    | with_reducible exact hC0
    | with_reducible refine Change.ite (fun _ => ?_) (fun _ => ?_)
    | with_reducible refine wxlRefuse_change k1 ?_
    | with_reducible refine atsStep_change hT ?_
    | with_reducible refine wxlForward_change k2 ?_
    | with_reducible refine Change.foldl (fun _ _ _ => ?_) ?_
    | with_reducible assumption
    | split
    | dsimp only

theorem windowChecked_change {U : List Part} {r0 : State} {a : Access} {w : Nat} {da : Nat} {own : Bool} {rd : Bool} {wr : Bool} {hc : Bool} {se : Bool} {pf : Bool} {idx : Nat} {gen : Nat} {s : State} (hT : ([.regs, .tt, .flt, .icu, .wxl, .qaux, .swc, .ports, .cores, .out] : List Part) ⊆ U) (hC0 : Change U r0 s) :
    Change U r0 (windowChecked a w da own rd wr hc se pf idx gen s) := by
  have k1 : ([.regs, .tt, .flt, .icu, .wxl, .qaux, .swc, .out] : List Part) ⊆ U := List.Subset.trans (by decide) hT
  have k2 : ([.out] : List Part) ⊆ U := List.Subset.trans (by decide) hT
  unfold windowChecked
  repeat' first
    | with_reducible exact hC0
    | with_reducible refine Change.ite (fun _ => ?_) (fun _ => ?_)
    | with_reducible refine wxlRefuse_change hT ?_
    | with_reducible refine wxlForward_change k1 ?_
    | with_reducible refine State.emit_change k2 ?_
    | with_reducible refine Change.foldl (fun _ _ _ => ?_) ?_
    | with_reducible assumption
    | split
    | dsimp only

theorem windowEntry_change {U : List Part} {r0 : State} {a : Access} {w : Nat} {e : Option Word} {s : State} (hT : ([.regs, .tt, .flt, .icu, .wxl, .qaux, .swc, .ports, .cores, .out] : List Part) ⊆ U) (hC0 : Change U r0 s) :
    Change U r0 (windowEntry a w e s) := by
  have k1 : ([.regs, .tt, .flt, .icu, .out] : List Part) ⊆ U := List.Subset.trans (by decide) hT
  have k2 : ([.regs] : List Part) ⊆ U := List.Subset.trans (by decide) hT
  unfold windowEntry
  repeat' first
    | with_reducible exact hC0
    | with_reducible refine Change.ite (fun _ => ?_) (fun _ => ?_)
    | with_reducible refine wxlRefuse_change hT ?_
    | with_reducible refine faultEvent_change k1 ?_
    | with_reducible refine windowChecked_change hT ?_
    | with_reducible refine fnFault_change k2 ?_
    | with_reducible refine Change.foldl (fun _ _ _ => ?_) ?_
    | with_reducible assumption
    | split
    | dsimp only

theorem tcUse_change {U : List Part} {r0 : State} {i : Nat} {v : Word} {s : State} (hT : ([.wxl] : List Part) ⊆ U) (hC0 : Change U r0 s) :
    Change U r0 (tcUse i v s) := by
  unfold tcUse
  repeat' first
    | with_reducible exact hC0
    | with_reducible refine Change.ite (fun _ => ?_) (fun _ => ?_)
    | with_reducible refine Change.foldl (fun _ _ _ => ?_) ?_
    | with_reducible assumption
    | split
    | dsimp only
    | with_reducible refine Change.set_wxl hT ?_

theorem walkFor_change {U : List Part} {r0 : State} {i : Nat} {a : Access} {s : State} (hT : ([.wxl] : List Part) ⊆ U) (hC0 : Change U r0 s) :
    Change U r0 (walkFor i a s) := by
  unfold walkFor
  repeat' first
    | with_reducible exact hC0
    | with_reducible refine Change.ite (fun _ => ?_) (fun _ => ?_)
    | with_reducible refine Change.foldl (fun _ _ _ => ?_) ?_
    | with_reducible assumption
    | split
    | dsimp only
    | with_reducible refine Change.set_wxl hT ?_

theorem windowAccessOps_change {U : List Part} {r0 : State} {a : Access} {w : Nat} {s : State} (hT : ([.regs, .tt, .flt, .icu, .wxl, .qaux, .swc, .ports, .cores, .out] : List Part) ⊆ U) (hC0 : Change U r0 s) :
    Change U r0 (windowAccessOps a w s) := by
  have k1 : ([.regs] : List Part) ⊆ U := List.Subset.trans (by decide) hT
  have k2 : ([.wxl] : List Part) ⊆ U := List.Subset.trans (by decide) hT
  unfold windowAccessOps
  repeat' first
    | with_reducible exact hC0
    | with_reducible refine Change.ite (fun _ => ?_) (fun _ => ?_)
    | with_reducible refine State.bump_change k1 ?_
    | with_reducible refine wxlRefuse_change hT ?_
    | with_reducible refine walkFor_change k2 ?_
    | with_reducible refine windowChecked_change hT ?_
    | with_reducible refine tcUse_change k2 ?_
    | with_reducible refine windowEntry_change hT ?_
    | with_reducible refine Change.foldl (fun _ _ _ => ?_) ?_
    | with_reducible assumption
    | split
    | dsimp only

theorem wxlAccess_change {U : List Part} {r0 : State} {a : Access} {s : State} (hT : ([.regs, .tt, .flt, .icu, .hep, .wxl, .qaux, .swc, .ports, .cores, .out] : List Part) ⊆ U) (hC0 : Change U r0 s) :
    Change U r0 (wxlAccess a s) := by
  have k1 : ([.regs, .tt, .flt, .icu, .wxl, .qaux, .swc, .ports, .cores, .out] : List Part) ⊆ U := List.Subset.trans (by decide) hT
  unfold wxlAccess
  repeat' first
    | with_reducible exact hC0
    | with_reducible refine Change.ite (fun _ => ?_) (fun _ => ?_)
    | with_reducible refine daAccess_change hT ?_
    | with_reducible refine windowAccessOps_change k1 ?_
    | with_reducible refine Change.foldl (fun _ _ _ => ?_) ?_
    | with_reducible assumption
    | split
    | dsimp only

theorem releaseHeld_change {U : List Part} {r0 : State} {s : State} (hT : ([.regs, .tt, .flt, .icu, .hep, .wxl, .qaux, .swc, .ports, .cores, .out] : List Part) ⊆ U) (hC0 : Change U r0 s) :
    Change U r0 (releaseHeld s) := by
  have k1 : ([.wxl] : List Part) ⊆ U := List.Subset.trans (by decide) hT
  unfold releaseHeld
  repeat' first
    | with_reducible exact hC0
    | with_reducible refine Change.ite (fun _ => ?_) (fun _ => ?_)
    | with_reducible refine wxlAccess_change hT ?_
    | with_reducible refine Change.foldl (fun _ _ _ => ?_) ?_
    | with_reducible assumption
    | split
    | dsimp only
    | with_reducible refine Change.set_wxl k1 ?_

theorem xtInval_change {U : List Part} {r0 : State} {i : Nat} {s : State} (hT : ([.regs, .tt, .flt, .icu, .wxl, .swc, .out] : List Part) ⊆ U) (hC0 : Change U r0 s) :
    Change U r0 (xtInval i s) := by
  have k1 : ([.wxl] : List Part) ⊆ U := List.Subset.trans (by decide) hT
  unfold xtInval
  repeat' first
    | with_reducible exact hC0
    | with_reducible refine Change.ite (fun _ => ?_) (fun _ => ?_)
    | with_reducible refine pfDiscard_change hT ?_
    | with_reducible refine Change.foldl (fun _ _ _ => ?_) ?_
    | with_reducible assumption
    | split
    | dsimp only
    | with_reducible refine Change.set_wxl k1 ?_

theorem xtChange_change {U : List Part} {r0 : State} {i : Nat} {v : Word} {s : State} (hT : ([.regs, .tt, .flt, .icu, .wxl, .xt, .swc, .out] : List Part) ⊆ U) (hC0 : Change U r0 s) :
    Change U r0 (xtChange i v s) := by
  have k1 : ([.regs, .tt, .flt, .icu, .out] : List Part) ⊆ U := List.Subset.trans (by decide) hT
  have k2 : ([.regs, .tt, .flt, .icu, .wxl, .swc, .out] : List Part) ⊆ U := List.Subset.trans (by decide) hT
  have k3 : ([.xt] : List Part) ⊆ U := List.Subset.trans (by decide) hT
  unfold xtChange
  repeat' first
    | with_reducible exact hC0
    | with_reducible refine Change.ite (fun _ => ?_) (fun _ => ?_)
    | with_reducible refine faultEvent_change k1 ?_
    | with_reducible refine xtInval_change k2 ?_
    | with_reducible refine Change.foldl (fun _ _ _ => ?_) ?_
    | with_reducible assumption
    | split
    | dsimp only
    | refine Change.set_xt k3 (by first | exact fun c => KMap.wf_set _ _ _ _ c.xt | exact fun c => KMap.wf_filter _ _ _ c.xt | exact fun _ => rfl) ?_

theorem wxlFence_change {U : List Part} {r0 : State} {p : Nat} {s : State} (hT : ([.regs, .tt, .flt, .icu, .wxl, .swc, .out] : List Part) ⊆ U) (hC0 : Change U r0 s) :
    Change U r0 (wxlFence p s) := by
  have k1 : ([.regs] : List Part) ⊆ U := List.Subset.trans (by decide) hT
  have k2 : ([.regs, .tt, .flt, .icu, .out] : List Part) ⊆ U := List.Subset.trans (by decide) hT
  have k3 : ([.wxl] : List Part) ⊆ U := List.Subset.trans (by decide) hT
  unfold wxlFence
  repeat' first
    | with_reducible exact hC0
    | with_reducible refine Change.ite (fun _ => ?_) (fun _ => ?_)
    | with_reducible refine State.bumpBy_change k1 ?_
    | with_reducible refine faultEvent_change k2 ?_
    | with_reducible refine State.put_change k1 ?_
    | with_reducible refine pcDrop_change k3 ?_
    | with_reducible refine pfDiscard_change hT ?_
    | with_reducible refine Change.foldl (fun _ _ _ => ?_) ?_
    | with_reducible assumption
    | split
    | dsimp only
    | with_reducible refine Change.set_wxl k3 ?_

theorem wxlUnfence_change {U : List Part} {r0 : State} {p : Nat} {s : State} (hT : ([.regs, .wxl] : List Part) ⊆ U) (hC0 : Change U r0 s) :
    Change U r0 (wxlUnfence p s) := by
  have k1 : ([.regs] : List Part) ⊆ U := List.Subset.trans (by decide) hT
  have k2 : ([.wxl] : List Part) ⊆ U := List.Subset.trans (by decide) hT
  unfold wxlUnfence
  repeat' first
    | with_reducible exact hC0
    | with_reducible refine Change.ite (fun _ => ?_) (fun _ => ?_)
    | with_reducible refine State.put_change k1 ?_
    | with_reducible refine Change.foldl (fun _ _ _ => ?_) ?_
    | with_reducible assumption
    | split
    | dsimp only
    | with_reducible refine Change.set_wxl k2 ?_

theorem unhold_change {U : List Part} {r0 : State} {da : Nat} {len : Nat} {s : State} (hT : ([.regs, .tt, .flt, .icu, .hep, .wxl, .qaux, .swc, .ports, .cores, .out] : List Part) ⊆ U) (hC0 : Change U r0 s) :
    Change U r0 (unhold da len s) := by
  have k1 : ([.wxl] : List Part) ⊆ U := List.Subset.trans (by decide) hT
  unfold unhold
  repeat' first
    | with_reducible exact hC0
    | with_reducible refine Change.ite (fun _ => ?_) (fun _ => ?_)
    | with_reducible refine releaseHeld_change hT ?_
    | with_reducible refine Change.foldl (fun _ _ _ => ?_) ?_
    | with_reducible assumption
    | split
    | dsimp only
    | with_reducible refine Change.set_wxl k1 ?_

theorem pcDropEnv_change {U : List Part} {r0 : State} {e : Nat} {s : State} (hT : ([.wxl] : List Part) ⊆ U) (hC0 : Change U r0 s) :
    Change U r0 (pcDropEnv e s) := by
  unfold pcDropEnv
  repeat' first
    | with_reducible exact hC0
    | with_reducible refine Change.ite (fun _ => ?_) (fun _ => ?_)
    | with_reducible refine pcDrop_change hT ?_
    | with_reducible refine Change.foldl (fun _ _ _ => ?_) ?_
    | with_reducible assumption
    | split
    | dsimp only

end Sys2Proof.Machine
end

