-- ==== Sys2Proof/Laws/SplOps.lean ====
section
/-! SUPPORT. What each operation of Machine/SplOps.lean may change. -/
set_option linter.all false
set_option linter.unusedTactic false
set_option linter.unreachableTactic false

namespace Sys2Proof.Machine

open Sys2Proof

theorem State.sput_change {U : List Part} {r0 : State} {s : State} {f : Field} {v : Int} (hT : ([.regs] : List Part) ⊆ U) (hC0 : Change U r0 s) :
    Change U r0 (State.sput s f v) := by
  unfold State.sput
  repeat' first
    | with_reducible exact hC0
    | with_reducible refine Change.ite (fun _ => ?_) (fun _ => ?_)
    | with_reducible refine State.put_change hT ?_
    | with_reducible refine Change.foldl (fun _ _ _ => ?_) ?_
    | with_reducible assumption
    | split
    | dsimp only

theorem creditAdd_change {U : List Part} {r0 : State} {e : Nat} {d : Int} {s : State} (hT : ([.regs] : List Part) ⊆ U) (hC0 : Change U r0 s) :
    Change U r0 (creditAdd e d s) := by
  unfold creditAdd
  repeat' first
    | with_reducible exact hC0
    | with_reducible refine Change.ite (fun _ => ?_) (fun _ => ?_)
    | with_reducible refine State.sput_change hT ?_
    | with_reducible refine Change.foldl (fun _ _ _ => ?_) ?_
    | with_reducible assumption
    | split
    | dsimp only

theorem tokAdd_change {U : List Part} {r0 : State} {e : Nat} {d : Int} {s : State} (hT : ([.regs] : List Part) ⊆ U) (hC0 : Change U r0 s) :
    Change U r0 (tokAdd e d s) := by
  unfold tokAdd
  repeat' first
    | with_reducible exact hC0
    | with_reducible refine Change.ite (fun _ => ?_) (fun _ => ?_)
    | with_reducible refine State.sput_change hT ?_
    | with_reducible refine Change.foldl (fun _ _ _ => ?_) ?_
    | with_reducible assumption
    | split
    | dsimp only

theorem chargeEnv_change {U : List Part} {r0 : State} {e : Nat} {nj : Nat} {s : State} (hT : ([.regs, .spl] : List Part) ⊆ U) (hC0 : Change U r0 s) :
    Change U r0 (chargeEnv e nj s) := by
  have k1 : ([.regs] : List Part) ⊆ U := List.Subset.trans (by decide) hT
  have k2 : ([.spl] : List Part) ⊆ U := List.Subset.trans (by decide) hT
  unfold chargeEnv
  repeat' first
    | with_reducible exact hC0
    | with_reducible refine Change.ite (fun _ => ?_) (fun _ => ?_)
    | with_reducible refine State.setReg_change k1 ?_
    | with_reducible refine Change.foldl (fun _ _ _ => ?_) ?_
    | with_reducible assumption
    | split
    | dsimp only
    | with_reducible refine Change.set_spl k2 ?_

theorem envBegin_change {U : List Part} {r0 : State} {e : Nat} {s : State} (hT : ([.regs, .spl] : List Part) ⊆ U) (hC0 : Change U r0 s) :
    Change U r0 (envBegin e s) := by
  have k1 : ([.regs] : List Part) ⊆ U := List.Subset.trans (by decide) hT
  have k2 : ([.spl] : List Part) ⊆ U := List.Subset.trans (by decide) hT
  unfold envBegin
  repeat' first
    | with_reducible exact hC0
    | with_reducible refine Change.ite (fun _ => ?_) (fun _ => ?_)
    | with_reducible refine State.setReg_change k1 ?_
    | with_reducible refine State.sput_change k1 ?_
    | with_reducible refine Change.foldl (fun _ _ _ => ?_) ?_
    | with_reducible assumption
    | split
    | dsimp only
    | with_reducible refine Change.set_spl k2 ?_

theorem envEnd_change {U : List Part} {r0 : State} {e : Nat} {s : State} (hT : ([.regs] : List Part) ⊆ U) (hC0 : Change U r0 s) :
    Change U r0 (envEnd e s) := by
  unfold envEnd
  repeat' first
    | with_reducible exact hC0
    | with_reducible refine Change.ite (fun _ => ?_) (fun _ => ?_)
    | with_reducible refine State.setReg_change hT ?_
    | with_reducible refine Change.foldl (fun _ _ _ => ?_) ?_
    | with_reducible assumption
    | split
    | dsimp only

theorem doRelease_change {U : List Part} {r0 : State} {path : Nat} {row : Nat} {q : Nat} {s : State} (hT : ([.regs, .qaux, .spl] : List Part) ⊆ U) (hC0 : Change U r0 s) :
    Change U r0 (doRelease path row q s) := by
  have k1 : ([.regs] : List Part) ⊆ U := List.Subset.trans (by decide) hT
  have k2 : ([.qaux] : List Part) ⊆ U := List.Subset.trans (by decide) hT
  have k3 : ([.spl] : List Part) ⊆ U := List.Subset.trans (by decide) hT
  unfold doRelease
  repeat' first
    | with_reducible exact hC0
    | with_reducible refine Change.ite (fun _ => ?_) (fun _ => ?_)
    | with_reducible refine State.bump_change k1 ?_
    | with_reducible refine creditAdd_change k1 ?_
    | with_reducible refine State.setQa_change k2 ?_
    | with_reducible refine tokAdd_change k1 ?_
    | with_reducible refine Change.foldl (fun _ _ _ => ?_) ?_
    | with_reducible assumption
    | split
    | dsimp only
    | with_reducible refine Change.set_spl k3 ?_

theorem returnRel_change {U : List Part} {r0 : State} {r : Rel} {s : State} (hT : ([.regs] : List Part) ⊆ U) (hC0 : Change U r0 s) :
    Change U r0 (returnRel r s) := by
  unfold returnRel
  repeat' first
    | with_reducible exact hC0
    | with_reducible refine Change.ite (fun _ => ?_) (fun _ => ?_)
    | with_reducible refine creditAdd_change hT ?_
    | with_reducible refine tokAdd_change hT ?_
    | with_reducible refine Change.foldl (fun _ _ _ => ?_) ?_
    | with_reducible assumption
    | split
    | dsimp only

theorem returnUnstarted_change {U : List Part} {r0 : State} {q : Nat} {s : State} (hT : ([.regs, .spl] : List Part) ⊆ U) (hC0 : Change U r0 s) :
    Change U r0 (returnUnstarted q s) := by
  have k1 : ([.regs] : List Part) ⊆ U := List.Subset.trans (by decide) hT
  have k2 : ([.spl] : List Part) ⊆ U := List.Subset.trans (by decide) hT
  unfold returnUnstarted
  repeat' first
    | with_reducible exact hC0
    | with_reducible refine Change.ite (fun _ => ?_) (fun _ => ?_)
    | with_reducible refine returnRel_change k1 ?_
    | with_reducible refine Change.foldl (fun _ _ _ => ?_) ?_
    | with_reducible assumption
    | split
    | dsimp only
    | with_reducible refine Change.set_spl k2 ?_

theorem dropRels_change {U : List Part} {r0 : State} {q : Nat} {s : State} (hT : ([.spl] : List Part) ⊆ U) (hC0 : Change U r0 s) :
    Change U r0 (dropRels q s) := by
  unfold dropRels
  repeat' first
    | with_reducible exact hC0
    | with_reducible refine Change.ite (fun _ => ?_) (fun _ => ?_)
    | with_reducible refine Change.foldl (fun _ _ _ => ?_) ?_
    | with_reducible assumption
    | split
    | dsimp only
    | with_reducible refine Change.set_spl hT ?_

end Sys2Proof.Machine
end

