-- ==== Sys2Proof/Laws/QenOps.lean ====
section
/-! SUPPORT. What each operation of Machine/QenOps.lean may change. -/
set_option linter.all false
set_option linter.unusedTactic false
set_option linter.unreachableTactic false

namespace Sys2Proof.Machine

open Sys2Proof

theorem ctxTouch_change {U : List Part} {r0 : State} {q : Nat} {s : State} (hT : ([.qen] : List Part) ⊆ U) (hC0 : Change U r0 s) :
    Change U r0 (ctxTouch q s) := by
  unfold ctxTouch
  repeat' first
    | with_reducible exact hC0
    | with_reducible refine Change.ite (fun _ => ?_) (fun _ => ?_)
    | with_reducible refine Change.foldl (fun _ _ _ => ?_) ?_
    | with_reducible assumption
    | split
    | dsimp only
    | with_reducible refine Change.set_qen hT ?_

theorem dropFetched_change {U : List Part} {r0 : State} {q : Nat} {s : State} (hT : ([.qaux] : List Part) ⊆ U) (hC0 : Change U r0 s) :
    Change U r0 (dropFetched q s) := by
  unfold dropFetched
  repeat' first
    | with_reducible exact hC0
    | with_reducible refine Change.ite (fun _ => ?_) (fun _ => ?_)
    | with_reducible refine State.setQa_change hT ?_
    | with_reducible refine Change.foldl (fun _ _ _ => ?_) ?_
    | with_reducible assumption
    | split
    | dsimp only

theorem ctxRoom_change {U : List Part} {r0 : State} {q : Nat} {pre : Bool} {s : State} (hT : ([.qen, .qaux] : List Part) ⊆ U) (hC0 : Change U r0 s) :
    ∀ t, ctxRoom q pre s = some t → Change U r0 t := by
  have k1 : ([.qen] : List Part) ⊆ U := List.Subset.trans (by decide) hT
  have k2 : ([.qaux] : List Part) ⊆ U := List.Subset.trans (by decide) hT
  intro t ht
  unfold ctxRoom at ht
  dsimp only at ht
  split at ht
  · cases ht
  · split at ht
    · cases ht
      exact hC0
    · split at ht
      · cases ht
      · cases ht
        exact dropFetched_change k2 (Change.set_qen k1 hC0)

theorem setQst_change {U : List Part} {r0 : State} {q : Nat} {v : Nat} {s : State} (hT : ([.regs, .ctx, .ports, .prl, .out] : List Part) ⊆ U) (hC0 : Change U r0 s) :
    Change U r0 (setQst q v s) := by
  have k1 : ([.ctx] : List Part) ⊆ U := List.Subset.trans (by decide) hT
  have k2 : ([.ports, .prl, .out] : List Part) ⊆ U := List.Subset.trans (by decide) hT
  have k3 : ([.regs] : List Part) ⊆ U := List.Subset.trans (by decide) hT
  unfold setQst
  repeat' first
    | with_reducible exact hC0
    | with_reducible refine Change.ite (fun _ => ?_) (fun _ => ?_)
    | with_reducible refine State.cput_change k1 ?_
    | with_reducible refine mirror_change k2 ?_
    | with_reducible refine State.put_change k3 ?_
    | with_reducible refine Change.foldl (fun _ _ _ => ?_) ?_
    | with_reducible assumption
    | split
    | dsimp only

theorem fetchTry_change {U : List Part} {r0 : State} {q : Nat} {s : State} (hT : ([.regs, .tt, .flt, .icu, .hep, .wxl, .qaux, .swc, .ports, .cores, .out] : List Part) ⊆ U) (hC0 : Change U r0 s) :
    Change U r0 (fetchTry q s) := by
  have k1 : ([.qaux] : List Part) ⊆ U := List.Subset.trans (by decide) hT
  unfold fetchTry
  repeat' first
    | with_reducible exact hC0
    | with_reducible refine Change.ite (fun _ => ?_) (fun _ => ?_)
    | with_reducible refine State.setQa_change k1 ?_
    | with_reducible refine wxlAccess_change hT ?_
    | with_reducible refine Change.foldl (fun _ _ _ => ?_) ?_
    | with_reducible assumption
    | split
    | dsimp only

theorem migEnd_change {U : List Part} {r0 : State} {q : Nat} {s : State} (hT : ([.regs, .tt, .flt, .icu, .hep, .wxl, .qaux, .swc, .ports, .cores, .out] : List Part) ⊆ U) (hC0 : Change U r0 s) :
    Change U r0 (migEnd q s) := by
  have k1 : ([.regs] : List Part) ⊆ U := List.Subset.trans (by decide) hT
  have k2 : ([.wxl] : List Part) ⊆ U := List.Subset.trans (by decide) hT
  unfold migEnd
  repeat' first
    | with_reducible exact hC0
    | with_reducible refine Change.ite (fun _ => ?_) (fun _ => ?_)
    | with_reducible refine State.put_change k1 ?_
    | with_reducible refine releaseHeld_change hT ?_
    | with_reducible refine Change.foldl (fun _ _ _ => ?_) ?_
    | with_reducible assumption
    | split
    | dsimp only
    | with_reducible refine Change.set_wxl k2 ?_

theorem slotDone_change {U : List Part} {r0 : State} {k : Nat} {q : Nat} {result : Nat} {reason : Nat} {s : State} (hT : ([.regs] : List Part) ⊆ U) (hC0 : Change U r0 s) :
    Change U r0 (slotDone k q result reason s) := by
  unfold slotDone
  repeat' first
    | with_reducible exact hC0
    | with_reducible refine Change.ite (fun _ => ?_) (fun _ => ?_)
    | with_reducible refine State.put_change hT ?_
    | with_reducible refine Change.foldl (fun _ _ _ => ?_) ?_
    | with_reducible assumption
    | split
    | dsimp only

theorem cmdFree_change {U : List Part} {r0 : State} {q : Nat} {result : Nat} {reason : Nat} {s : State} (hT : ([.regs, .qaux] : List Part) ⊆ U) (hC0 : Change U r0 s) :
    Change U r0 (cmdFree q result reason s) := by
  have k1 : ([.qaux] : List Part) ⊆ U := List.Subset.trans (by decide) hT
  have k2 : ([.regs] : List Part) ⊆ U := List.Subset.trans (by decide) hT
  unfold cmdFree
  repeat' first
    | with_reducible exact hC0
    | with_reducible refine Change.ite (fun _ => ?_) (fun _ => ?_)
    | with_reducible refine State.setQa_change k1 ?_
    | with_reducible refine slotDone_change k2 ?_
    | with_reducible refine Change.foldl (fun _ _ _ => ?_) ?_
    | with_reducible assumption
    | split
    | dsimp only

theorem stopSettle_change {U : List Part} {r0 : State} {q : Nat} {s : State} (hT : ([.regs, .tt, .flt, .icu, .hep, .wxl, .ctx, .qaux, .spl, .swc, .ports, .cores, .prl, .out] : List Part) ⊆ U) (hC0 : Change U r0 s) :
    Change U r0 (stopSettle q s) := by
  have k1 : ([.regs, .ctx, .ports, .prl, .out] : List Part) ⊆ U := List.Subset.trans (by decide) hT
  have k2 : ([.regs, .spl] : List Part) ⊆ U := List.Subset.trans (by decide) hT
  have k3 : ([.qaux] : List Part) ⊆ U := List.Subset.trans (by decide) hT
  have k4 : ([.regs, .tt, .flt, .icu, .hep, .wxl, .qaux, .swc, .ports, .cores, .out] : List Part) ⊆ U := List.Subset.trans (by decide) hT
  have k5 : ([.regs, .qaux] : List Part) ⊆ U := List.Subset.trans (by decide) hT
  unfold stopSettle
  repeat' first
    | with_reducible exact hC0
    | with_reducible refine Change.ite (fun _ => ?_) (fun _ => ?_)
    | with_reducible refine setQst_change k1 ?_
    | with_reducible refine returnUnstarted_change k2 ?_
    | with_reducible refine State.setQa_change k3 ?_
    | with_reducible refine dropFetched_change k3 ?_
    | with_reducible refine migEnd_change k4 ?_
    | with_reducible refine cmdFree_change k5 ?_
    | with_reducible refine Change.foldl (fun _ _ _ => ?_) ?_
    | with_reducible assumption
    | split
    | dsimp only

theorem nextGen_change {U : List Part} {r0 : State} {q : Nat} {s : State} (hT : ([.regs, .tt, .flt, .icu, .hep, .wxl, .qaux, .swc, .ports, .cores, .out] : List Part) ⊆ U) (hC0 : Change U r0 s) :
    Change U r0 (nextGen q s) := by
  have k1 : ([.qaux] : List Part) ⊆ U := List.Subset.trans (by decide) hT
  unfold nextGen
  repeat' first
    | with_reducible exact hC0
    | with_reducible refine Change.ite (fun _ => ?_) (fun _ => ?_)
    | with_reducible refine State.setQa_change k1 ?_
    | with_reducible refine unhold_change hT ?_
    | with_reducible refine Change.foldl (fun _ _ _ => ?_) ?_
    | with_reducible assumption
    | split
    | dsimp only

theorem endOp_change {U : List Part} {r0 : State} {q : Nat} {st : Nat} {mask : Nat} {steps : Nat} {bytes : Nat} {s : State} (hT : ([.regs, .tt, .flt, .icu, .hep, .wxl, .qen, .ctx, .qaux, .spl, .swc, .ports, .cores, .prl, .out] : List Part) ⊆ U) (hC0 : Change U r0 s) :
    Change U r0 (endOp q st mask steps bytes s) := by
  have k1 : ([.regs, .tt, .flt, .icu, .hep, .wxl, .ctx, .qaux, .spl, .swc, .ports, .cores, .prl, .out] : List Part) ⊆ U := List.Subset.trans (by decide) hT
  have k2 : ([.regs] : List Part) ⊆ U := List.Subset.trans (by decide) hT
  have k3 : ([.regs, .spl] : List Part) ⊆ U := List.Subset.trans (by decide) hT
  have k4 : ([.qaux] : List Part) ⊆ U := List.Subset.trans (by decide) hT
  have k5 : ([.ctx] : List Part) ⊆ U := List.Subset.trans (by decide) hT
  have k6 : ([.ports, .prl, .out] : List Part) ⊆ U := List.Subset.trans (by decide) hT
  have k7 : ([.regs, .tt, .flt, .icu, .hep, .wxl, .qaux, .swc, .ports, .cores, .out] : List Part) ⊆ U := List.Subset.trans (by decide) hT
  have k8 : ([.spl] : List Part) ⊆ U := List.Subset.trans (by decide) hT
  have k9 : ([.qen] : List Part) ⊆ U := List.Subset.trans (by decide) hT
  unfold endOp
  repeat' first
    | with_reducible exact hC0
    | with_reducible refine Change.ite (fun _ => ?_) (fun _ => ?_)
    | with_reducible refine stopSettle_change k1 ?_
    | with_reducible refine State.bump_change k2 ?_
    | with_reducible refine returnUnstarted_change k3 ?_
    | with_reducible refine State.setQa_change k4 ?_
    | with_reducible refine State.cput_change k5 ?_
    | with_reducible refine mirror_change k6 ?_
    | with_reducible refine migEnd_change k7 ?_
    | with_reducible refine dropRels_change k8 ?_
    | with_reducible refine nextGen_change k7 ?_
    | with_reducible refine Change.foldl (fun _ _ _ => ?_) ?_
    | with_reducible assumption
    | split
    | dsimp only
    | with_reducible refine Change.set_qen k9 ?_

theorem finishOp_change {U : List Part} {r0 : State} {q : Nat} {st : Nat} {mask : Nat} {s : State} (hT : ([.regs, .tt, .flt, .icu, .hep, .wxl, .qen, .ctx, .qaux, .spl, .swc, .ports, .cores, .prl, .out] : List Part) ⊆ U) (hC0 : Change U r0 s) :
    Change U r0 (finishOp q st mask s) := by
  unfold finishOp
  repeat' first
    | with_reducible exact hC0
    | with_reducible refine Change.ite (fun _ => ?_) (fun _ => ?_)
    | with_reducible refine endOp_change hT ?_
    | with_reducible refine Change.foldl (fun _ _ _ => ?_) ?_
    | with_reducible assumption
    | split
    | dsimp only

theorem abandonOp_change {U : List Part} {r0 : State} {q : Nat} {s : State} (hT : ([.regs, .tt, .flt, .icu, .hep, .wxl, .ctx, .qaux, .spl, .swc, .ports, .cores, .out] : List Part) ⊆ U) (hC0 : Change U r0 s) :
    Change U r0 (abandonOp q s) := by
  have k1 : ([.regs, .spl] : List Part) ⊆ U := List.Subset.trans (by decide) hT
  have k2 : ([.qaux] : List Part) ⊆ U := List.Subset.trans (by decide) hT
  have k3 : ([.ctx] : List Part) ⊆ U := List.Subset.trans (by decide) hT
  have k4 : ([.regs, .tt, .flt, .icu, .hep, .wxl, .qaux, .swc, .ports, .cores, .out] : List Part) ⊆ U := List.Subset.trans (by decide) hT
  have k5 : ([.spl] : List Part) ⊆ U := List.Subset.trans (by decide) hT
  unfold abandonOp
  repeat' first
    | with_reducible exact hC0
    | with_reducible refine Change.ite (fun _ => ?_) (fun _ => ?_)
    | with_reducible refine returnUnstarted_change k1 ?_
    | with_reducible refine State.setQa_change k2 ?_
    | with_reducible refine State.cput_change k3 ?_
    | with_reducible refine migEnd_change k4 ?_
    | with_reducible refine dropRels_change k5 ?_
    | with_reducible refine nextGen_change k4 ?_
    | with_reducible refine Change.foldl (fun _ _ _ => ?_) ?_
    | with_reducible assumption
    | split
    | dsimp only

theorem stopQueue_change {U : List Part} {r0 : State} {q : Nat} {s : State} (hT : ([.regs, .tt, .flt, .icu, .hep, .wxl, .ctx, .qaux, .spl, .swc, .ports, .cores, .prl, .out] : List Part) ⊆ U) (hC0 : Change U r0 s) :
    Change U r0 (stopQueue q s) := by
  have k1 : ([.qaux] : List Part) ⊆ U := List.Subset.trans (by decide) hT
  unfold stopQueue
  repeat' first
    | with_reducible exact hC0
    | with_reducible refine Change.ite (fun _ => ?_) (fun _ => ?_)
    | with_reducible refine stopSettle_change hT ?_
    | with_reducible refine State.setQa_change k1 ?_
    | with_reducible refine Change.foldl (fun _ _ _ => ?_) ?_
    | with_reducible assumption
    | split
    | dsimp only

theorem queueFail_change {U : List Part} {r0 : State} {q : Nat} {st : Nat} {s : State} (hT : ([.regs, .tt, .flt, .icu, .hep, .wxl, .ctx, .qaux, .spl, .swc, .ports, .cores, .prl, .out] : List Part) ⊆ U) (hC0 : Change U r0 s) :
    Change U r0 (queueFail q st s) := by
  have k1 : ([.regs, .ctx, .ports, .prl, .out] : List Part) ⊆ U := List.Subset.trans (by decide) hT
  have k2 : ([.qaux] : List Part) ⊆ U := List.Subset.trans (by decide) hT
  have k3 : ([.ctx] : List Part) ⊆ U := List.Subset.trans (by decide) hT
  have k4 : ([.regs, .tt, .flt, .icu, .out] : List Part) ⊆ U := List.Subset.trans (by decide) hT
  unfold queueFail
  repeat' first
    | with_reducible exact hC0
    | with_reducible refine Change.ite (fun _ => ?_) (fun _ => ?_)
    | with_reducible refine setQst_change k1 ?_
    | with_reducible refine stopSettle_change hT ?_
    | with_reducible refine State.setQa_change k2 ?_
    | with_reducible refine dropFetched_change k2 ?_
    | with_reducible refine State.cput_change k3 ?_
    | with_reducible refine faultEvent_change k4 ?_
    | with_reducible refine Change.foldl (fun _ _ _ => ?_) ?_
    | with_reducible assumption
    | split
    | dsimp only

theorem queueStale_change {U : List Part} {r0 : State} {q : Nat} {s : State} (hT : ([.regs, .tt, .flt, .icu, .hep, .wxl, .ctx, .qaux, .spl, .swc, .ports, .cores, .prl, .out] : List Part) ⊆ U) (hC0 : Change U r0 s) :
    Change U r0 (queueStale q s) := by
  have k1 : ([.regs, .ctx, .ports, .prl, .out] : List Part) ⊆ U := List.Subset.trans (by decide) hT
  have k2 : ([.qaux] : List Part) ⊆ U := List.Subset.trans (by decide) hT
  have k3 : ([.regs, .tt, .flt, .icu, .out] : List Part) ⊆ U := List.Subset.trans (by decide) hT
  unfold queueStale
  repeat' first
    | with_reducible exact hC0
    | with_reducible refine Change.ite (fun _ => ?_) (fun _ => ?_)
    | with_reducible refine setQst_change k1 ?_
    | with_reducible refine stopSettle_change hT ?_
    | with_reducible refine State.setQa_change k2 ?_
    | with_reducible refine dropFetched_change k2 ?_
    | with_reducible refine faultEvent_change k3 ?_
    | with_reducible refine Change.foldl (fun _ _ _ => ?_) ?_
    | with_reducible assumption
    | split
    | dsimp only

theorem drainCheck_change {U : List Part} {r0 : State} {q : Nat} {s : State} (hT : ([.regs, .ctx, .qaux, .ports, .prl, .out] : List Part) ⊆ U) (hC0 : Change U r0 s) :
    Change U r0 (drainCheck q s) := by
  have k1 : ([.regs, .ctx, .ports, .prl, .out] : List Part) ⊆ U := List.Subset.trans (by decide) hT
  have k2 : ([.qaux] : List Part) ⊆ U := List.Subset.trans (by decide) hT
  unfold drainCheck
  repeat' first
    | with_reducible exact hC0
    | with_reducible refine Change.ite (fun _ => ?_) (fun _ => ?_)
    | with_reducible refine setQst_change k1 ?_
    | with_reducible refine dropFetched_change k2 ?_
    | with_reducible refine Change.foldl (fun _ _ _ => ?_) ?_
    | with_reducible assumption
    | split
    | dsimp only

theorem unbind_change {U : List Part} {r0 : State} {q : Nat} {s : State} (hT : ([.ctx] : List Part) ⊆ U) (hC0 : Change U r0 s) :
    Change U r0 (unbind q s) := by
  unfold unbind
  repeat' first
    | with_reducible exact hC0
    | with_reducible refine Change.ite (fun _ => ?_) (fun _ => ?_)
    | with_reducible refine State.cput_change hT ?_
    | with_reducible refine Change.foldl (fun _ _ _ => ?_) ?_
    | with_reducible assumption
    | split
    | dsimp only

theorem unreserve_change {U : List Part} {r0 : State} {q : Nat} {s : State} (hT : ([.ctx] : List Part) ⊆ U) (hC0 : Change U r0 s) :
    Change U r0 (unreserve q s) := by
  unfold unreserve
  repeat' first
    | with_reducible exact hC0
    | with_reducible refine Change.ite (fun _ => ?_) (fun _ => ?_)
    | with_reducible refine State.cput_change hT ?_
    | with_reducible refine Change.foldl (fun _ _ _ => ?_) ?_
    | with_reducible assumption
    | split
    | dsimp only

theorem disableQueue_change {U : List Part} {r0 : State} {q : Nat} {s : State} (hT : ([.regs, .tt, .flt, .icu, .hep, .wxl, .ctx, .qaux, .spl, .swc, .ports, .cores, .prl, .out] : List Part) ⊆ U) (hC0 : Change U r0 s) :
    Change U r0 (disableQueue q s) := by
  have k1 : ([.regs, .ctx, .ports, .prl, .out] : List Part) ⊆ U := List.Subset.trans (by decide) hT
  have k2 : ([.ctx] : List Part) ⊆ U := List.Subset.trans (by decide) hT
  have k3 : ([.qaux] : List Part) ⊆ U := List.Subset.trans (by decide) hT
  have k4 : ([.regs, .tt, .flt, .icu, .hep, .wxl, .ctx, .qaux, .spl, .swc, .ports, .cores, .out] : List Part) ⊆ U := List.Subset.trans (by decide) hT
  unfold disableQueue
  repeat' first
    | with_reducible exact hC0
    | with_reducible refine Change.ite (fun _ => ?_) (fun _ => ?_)
    | with_reducible refine setQst_change k1 ?_
    | with_reducible refine unreserve_change k2 ?_
    | with_reducible refine State.setQa_change k3 ?_
    | with_reducible refine unbind_change k2 ?_
    | with_reducible refine State.cput_change k2 ?_
    | with_reducible refine abandonOp_change k4 ?_
    | with_reducible refine Change.foldl (fun _ _ _ => ?_) ?_
    | with_reducible assumption
    | split
    | dsimp only

theorem wipeQueue_change {U : List Part} {r0 : State} {q : Nat} {s : State} (hT : ([.regs, .tt, .flt, .icu, .hep, .wxl, .ctx, .qaux, .spl, .swc, .ports, .cores, .prl, .out] : List Part) ⊆ U) (hC0 : Change U r0 s) :
    Change U r0 (wipeQueue q s) := by
  have k1 : ([.regs, .ctx, .ports, .prl, .out] : List Part) ⊆ U := List.Subset.trans (by decide) hT
  have k2 : ([.ctx] : List Part) ⊆ U := List.Subset.trans (by decide) hT
  have k3 : ([.regs, .tt, .flt, .icu, .hep, .wxl, .ctx, .qaux, .spl, .swc, .ports, .cores, .out] : List Part) ⊆ U := List.Subset.trans (by decide) hT
  unfold wipeQueue
  repeat' first
    | with_reducible exact hC0
    | with_reducible refine Change.ite (fun _ => ?_) (fun _ => ?_)
    | with_reducible refine setQst_change k1 ?_
    | with_reducible refine unreserve_change k2 ?_
    | with_reducible refine State.setCtxW_change k2 ?_
    | with_reducible refine unbind_change k2 ?_
    | with_reducible refine State.cput_change k2 ?_
    | with_reducible refine abandonOp_change k3 ?_
    | with_reducible refine Change.foldl (fun _ _ _ => ?_) ?_
    | with_reducible assumption
    | split
    | dsimp only

theorem dbDrop_change {U : List Part} {r0 : State} {q : Nat} {fn : Nat} {cnt : Field} {s : State} (hT : ([.regs, .tt, .flt, .icu, .out] : List Part) ⊆ U) (hC0 : Change U r0 s) :
    Change U r0 (dbDrop q fn cnt s) := by
  have k1 : ([.regs] : List Part) ⊆ U := List.Subset.trans (by decide) hT
  unfold dbDrop
  repeat' first
    | with_reducible exact hC0
    | with_reducible refine Change.ite (fun _ => ?_) (fun _ => ?_)
    | with_reducible refine State.bump_change k1 ?_
    | with_reducible refine faultEvent_change hT ?_
    | with_reducible refine State.put_change k1 ?_
    | with_reducible refine fnFault_change k1 ?_
    | with_reducible refine Change.foldl (fun _ _ _ => ?_) ?_
    | with_reducible assumption
    | split
    | dsimp only

theorem doorbellAct_change {U : List Part} {r0 : State} {q : Nat} {fn : Nat} {idx : Nat} {s : State} (hT : ([.regs, .tt, .flt, .icu, .hep, .wxl, .ctx, .qaux, .swc, .ports, .cores, .prl, .out] : List Part) ⊆ U) (hC0 : Change U r0 s) :
    Change U r0 (doorbellAct q fn idx s) := by
  have k1 : ([.regs] : List Part) ⊆ U := List.Subset.trans (by decide) hT
  have k2 : ([.qaux] : List Part) ⊆ U := List.Subset.trans (by decide) hT
  have k3 : ([.ctx] : List Part) ⊆ U := List.Subset.trans (by decide) hT
  have k4 : ([.ports, .prl, .out] : List Part) ⊆ U := List.Subset.trans (by decide) hT
  have k5 : ([.regs, .tt, .flt, .icu, .hep, .wxl, .qaux, .swc, .ports, .cores, .out] : List Part) ⊆ U := List.Subset.trans (by decide) hT
  have k6 : ([.regs, .tt, .flt, .icu, .out] : List Part) ⊆ U := List.Subset.trans (by decide) hT
  unfold doorbellAct
  repeat' first
    | with_reducible exact hC0
    | with_reducible refine Change.ite (fun _ => ?_) (fun _ => ?_)
    | with_reducible refine State.bump_change k1 ?_
    | with_reducible refine dropFetched_change k2 ?_
    | with_reducible refine State.cput_change k3 ?_
    | with_reducible refine mirror_change k4 ?_
    | with_reducible refine fetchTry_change k5 ?_
    | with_reducible refine dbDrop_change k6 ?_
    | with_reducible refine Change.foldl (fun _ _ _ => ?_) ?_
    | with_reducible assumption
    | split
    | dsimp only

theorem ctxTake_change {U : List Part} {r0 : State} {k : Nat} {q : Nat} {masks : List Nat} {s : State} (hT : ([.ctx] : List Part) ⊆ U) (hC0 : Change U r0 s) :
    Change U r0 (ctxTake k q masks s) := by
  unfold ctxTake
  repeat' first
    | with_reducible exact hC0
    | with_reducible refine Change.ite (fun _ => ?_) (fun _ => ?_)
    | with_reducible refine State.setCtxW_change hT ?_
    | with_reducible refine Change.foldl (fun _ _ _ => ?_) ?_
    | with_reducible assumption
    | split
    | dsimp only

theorem cmdState_change {U : List Part} {r0 : State} {k : Nat} {q : Nat} {s : State} (hT : ([.regs] : List Part) ⊆ U) (hC0 : Change U r0 s) :
    Change U r0 (cmdState k q s) := by
  unfold cmdState
  repeat' first
    | with_reducible exact hC0
    | with_reducible refine Change.ite (fun _ => ?_) (fun _ => ?_)
    | with_reducible refine slotDone_change hT ?_
    | with_reducible refine Change.foldl (fun _ _ _ => ?_) ?_
    | with_reducible assumption
    | split
    | dsimp only

theorem resumeOp_change {U : List Part} {r0 : State} {q : Nat} {s : State} (hT : ([.regs, .tt, .flt, .icu, .hep, .wxl, .ctx, .qaux, .swc, .ports, .cores, .out] : List Part) ⊆ U) (hC0 : Change U r0 s) :
    Change U r0 (resumeOp q s) := by
  have k1 : ([.qaux] : List Part) ⊆ U := List.Subset.trans (by decide) hT
  have k2 : ([.ctx] : List Part) ⊆ U := List.Subset.trans (by decide) hT
  have k3 : ([.regs, .tt, .flt, .icu, .hep, .wxl, .qaux, .swc, .ports, .cores, .out] : List Part) ⊆ U := List.Subset.trans (by decide) hT
  unfold resumeOp
  repeat' first
    | with_reducible exact hC0
    | with_reducible refine Change.ite (fun _ => ?_) (fun _ => ?_)
    | with_reducible refine State.setQa_change k1 ?_
    | with_reducible refine State.cput_change k2 ?_
    | with_reducible refine nextGen_change k3 ?_
    | with_reducible refine Change.foldl (fun _ _ _ => ?_) ?_
    | with_reducible assumption
    | split
    | dsimp only

theorem startQueue_change {U : List Part} {r0 : State} {k : Nat} {q : Nat} {s : State} (hT : ([.regs, .tt, .flt, .icu, .hep, .wxl, .qen, .ctx, .qaux, .spl, .swc, .ports, .cores, .prl, .out] : List Part) ⊆ U) (hC0 : Change U r0 s) :
    Change U r0 (startQueue k q s) := by
  have k1 : ([.regs, .ctx, .ports, .prl, .out] : List Part) ⊆ U := List.Subset.trans (by decide) hT
  have k2 : ([.regs, .tt, .flt, .icu, .hep, .wxl, .qaux, .swc, .ports, .cores, .out] : List Part) ⊆ U := List.Subset.trans (by decide) hT
  have k3 : ([.regs, .tt, .flt, .icu, .hep, .wxl, .ctx, .qaux, .swc, .ports, .cores, .out] : List Part) ⊆ U := List.Subset.trans (by decide) hT
  have k4 : ([.regs] : List Part) ⊆ U := List.Subset.trans (by decide) hT
  unfold startQueue
  repeat' first
    | with_reducible exact hC0
    | with_reducible refine Change.ite (fun _ => ?_) (fun _ => ?_)
    | with_reducible refine setQst_change k1 ?_
    | with_reducible refine finishOp_change hT ?_
    | with_reducible refine fetchTry_change k2 ?_
    | with_reducible refine resumeOp_change k3 ?_
    | with_reducible refine slotDone_change k4 ?_
    | with_reducible refine cmdState_change k4 ?_
    | with_reducible refine Change.foldl (fun _ _ _ => ?_) ?_
    | with_reducible assumption
    | split
    | dsimp only

theorem qCommand_change {U : List Part} {r0 : State} {k : Nat} {q : Nat} {op : Nat} {s : State} (hT : ([.regs, .tt, .checks, .flt, .icu, .hep, .wxl, .qen, .ctx, .qaux, .spl, .swc, .ports, .cores, .prl, .out] : List Part) ⊆ U) (hC0 : Change U r0 s) :
    Change U r0 (qCommand k q op s) := by
  have k1 : ([.regs, .ctx, .ports, .prl, .out] : List Part) ⊆ U := List.Subset.trans (by decide) hT
  have k2 : ([.regs] : List Part) ⊆ U := List.Subset.trans (by decide) hT
  have k3 : ([.qaux] : List Part) ⊆ U := List.Subset.trans (by decide) hT
  have k4 : ([.ports, .prl, .out] : List Part) ⊆ U := List.Subset.trans (by decide) hT
  have k5 : ([.regs, .tt, .flt, .icu, .out] : List Part) ⊆ U := List.Subset.trans (by decide) hT
  have k6 : ([.ctx] : List Part) ⊆ U := List.Subset.trans (by decide) hT
  have k7 : ([.regs, .tt, .flt, .icu, .hep, .wxl, .ctx, .qaux, .spl, .swc, .ports, .cores, .prl, .out] : List Part) ⊆ U := List.Subset.trans (by decide) hT
  have k8 : ([.regs, .tt, .flt, .icu, .hep, .wxl, .qen, .ctx, .qaux, .spl, .swc, .ports, .cores, .prl, .out] : List Part) ⊆ U := List.Subset.trans (by decide) hT
  have k9 : ([.regs, .ctx, .qaux, .ports, .prl, .out] : List Part) ⊆ U := List.Subset.trans (by decide) hT
  have k10 : ([.checks] : List Part) ⊆ U := List.Subset.trans (by decide) hT
  unfold qCommand
  repeat' first
    | with_reducible exact hC0
    | with_reducible refine Change.ite (fun _ => ?_) (fun _ => ?_)
    | with_reducible refine setQst_change k1 ?_
    | with_reducible refine State.setReg_change k2 ?_
    | with_reducible refine State.setQa_change k3 ?_
    | with_reducible refine mirror_change k4 ?_
    | with_reducible refine notice_change k5 ?_
    | with_reducible refine slotDone_change k2 ?_
    | with_reducible refine ctxTake_change k6 ?_
    | with_reducible refine State.put_change k2 ?_
    | with_reducible refine stopQueue_change k7 ?_
    | with_reducible refine disableQueue_change k7 ?_
    | with_reducible refine startQueue_change k8 ?_
    | with_reducible refine cmdState_change k2 ?_
    | with_reducible refine drainCheck_change k9 ?_
    | with_reducible refine Change.foldl (fun _ _ _ => ?_) ?_
    | with_reducible assumption
    | split
    | dsimp only
    | with_reducible refine Change.set_checks k10 ?_

theorem qDo_change {U : List Part} {r0 : State} {q : Nat} {a : QAct} {s : State} (hT : ([.regs, .tt, .checks, .flt, .icu, .hep, .wxl, .qen, .ctx, .qaux, .spl, .swc, .ports, .cores, .prl, .out] : List Part) ⊆ U) (hC0 : Change U r0 s) :
    Change U r0 (qDo q a s) := by
  have k1 : ([.qaux] : List Part) ⊆ U := List.Subset.trans (by decide) hT
  have k2 : ([.regs, .tt, .flt, .icu, .hep, .wxl, .ctx, .qaux, .swc, .ports, .cores, .prl, .out] : List Part) ⊆ U := List.Subset.trans (by decide) hT
  unfold qDo
  repeat' first
    | with_reducible exact hC0
    | with_reducible refine Change.ite (fun _ => ?_) (fun _ => ?_)
    | with_reducible refine State.setQa_change k1 ?_
    | with_reducible refine doorbellAct_change k2 ?_
    | with_reducible refine qCommand_change hT ?_
    | with_reducible refine Change.foldl (fun _ _ _ => ?_) ?_
    | with_reducible assumption
    | split
    | dsimp only

theorem qArrive_change {U : List Part} {r0 : State} {q : Nat} {a : QAct} {s : State} (hT : ([.regs, .tt, .checks, .flt, .icu, .hep, .wxl, .qen, .ctx, .qaux, .spl, .swc, .ports, .cores, .prl, .out] : List Part) ⊆ U) (hC0 : Change U r0 s) :
    Change U r0 (qArrive q a s) := by
  have k1 : ([.regs] : List Part) ⊆ U := List.Subset.trans (by decide) hT
  have k2 : ([.qaux] : List Part) ⊆ U := List.Subset.trans (by decide) hT
  have k3 : ([.qen] : List Part) ⊆ U := List.Subset.trans (by decide) hT
  unfold qArrive
  repeat' first
    | with_reducible exact hC0
    | with_reducible refine Change.ite (fun _ => ?_) (fun _ => ?_)
    | with_reducible refine State.bump_change k1 ?_
    | with_reducible refine State.setQa_change k2 ?_
    | with_reducible refine ctxTouch_change k3 ?_
    | with_reducible refine qDo_change hT ?_
    | with_reducible refine Change.foldl (fun _ _ _ => ?_) ?_
    | with_reducible assumption
    | split
    | dsimp only
    | with_reducible refine Change.set_qen k3 ?_

theorem qResume_change {U : List Part} {r0 : State} {q : Nat} {s : State} (hT : ([.regs, .tt, .checks, .flt, .icu, .hep, .wxl, .qen, .ctx, .qaux, .spl, .swc, .ports, .cores, .prl, .out] : List Part) ⊆ U) (hC0 : Change U r0 s) :
    Change U r0 (qResume q s) := by
  have k1 : ([.qaux] : List Part) ⊆ U := List.Subset.trans (by decide) hT
  unfold qResume
  repeat' first
    | with_reducible exact hC0
    | with_reducible refine Change.ite (fun _ => ?_) (fun _ => ?_)
    | with_reducible refine State.setQa_change k1 ?_
    | with_reducible refine qArrive_change hT ?_
    | with_reducible refine Change.foldl (fun _ _ _ => ?_) ?_
    | with_reducible assumption
    | split
    | dsimp only

theorem hpEvent_change {U : List Part} {r0 : State} {fn : Nat} {vec : Nat} {s : State} (hT : ([.icu] : List Part) ⊆ U) (hC0 : Change U r0 s) :
    Change U r0 (hpEvent fn vec s) := by
  unfold hpEvent
  repeat' first
    | with_reducible exact hC0
    | with_reducible refine Change.ite (fun _ => ?_) (fun _ => ?_)
    | with_reducible refine Change.foldl (fun _ _ _ => ?_) ?_
    | with_reducible assumption
    | split
    | dsimp only
    | with_reducible refine Change.set_icu hT ?_

theorem enableQueue_change {U : List Part} {r0 : State} {q : Nat} {s : State} (hT : ([.regs, .ctx, .qaux, .ports, .prl, .out] : List Part) ⊆ U) (hC0 : Change U r0 s) :
    Change U r0 (enableQueue q s) := by
  have k1 : ([.regs, .ctx, .ports, .prl, .out] : List Part) ⊆ U := List.Subset.trans (by decide) hT
  have k2 : ([.qaux] : List Part) ⊆ U := List.Subset.trans (by decide) hT
  have k3 : ([.ctx] : List Part) ⊆ U := List.Subset.trans (by decide) hT
  unfold enableQueue
  repeat' first
    | with_reducible exact hC0
    | with_reducible refine Change.ite (fun _ => ?_) (fun _ => ?_)
    | with_reducible refine setQst_change k1 ?_
    | with_reducible refine State.setQa_change k2 ?_
    | with_reducible refine State.setCtxW_change k3 ?_
    | with_reducible refine State.cput_change k3 ?_
    | with_reducible refine Change.foldl (fun _ _ _ => ?_) ?_
    | with_reducible assumption
    | split
    | dsimp only

end Sys2Proof.Machine
end

