-- ==== Sys2Proof/Laws/OpOps.lean ====
section
/-! SUPPORT. What each operation of Machine/OpOps.lean may change. -/
set_option linter.all false
set_option linter.unusedTactic false
set_option linter.unreachableTactic false

namespace Sys2Proof.Machine

open Sys2Proof

theorem beginStep_change {U : List Part} {r0 : State} {r : Rel} {p : Nat} {s : State} (hT : ([.regs, .qaux, .spl] : List Part) ⊆ U) (hC0 : Change U r0 s) :
    Change U r0 (beginStep r p s) := by
  have k1 : ([.regs] : List Part) ⊆ U := List.Subset.trans (by decide) hT
  have k2 : ([.qaux] : List Part) ⊆ U := List.Subset.trans (by decide) hT
  have k3 : ([.spl] : List Part) ⊆ U := List.Subset.trans (by decide) hT
  unfold beginStep
  repeat' first
    | with_reducible exact hC0
    | with_reducible refine Change.ite (fun _ => ?_) (fun _ => ?_)
    | with_reducible refine State.bump_change k1 ?_
    | with_reducible refine State.setQa_change k2 ?_
    | with_reducible refine Change.foldl (fun _ _ _ => ?_) ?_
    | with_reducible assumption
    | split
    | dsimp only
    | with_reducible refine Change.set_spl k3 ?_

theorem stepOpen_change {U : List Part} {r0 : State} {q : Nat} {reads : Nat} {writes : Nat} {s : State} (hT : ([.qaux] : List Part) ⊆ U) (hC0 : Change U r0 s) :
    Change U r0 (stepOpen q reads writes s) := by
  unfold stepOpen
  repeat' first
    | with_reducible exact hC0
    | with_reducible refine Change.ite (fun _ => ?_) (fun _ => ?_)
    | with_reducible refine State.setQa_change hT ?_
    | with_reducible refine Change.foldl (fun _ _ _ => ?_) ?_
    | with_reducible assumption
    | split
    | dsimp only

theorem moverRead_change {U : List Part} {r0 : State} {q : Nat} {off : Nat} {da : Nat} {len : Nat} {s : State} (hT : ([.regs, .tt, .flt, .icu, .hep, .wxl, .qaux, .swc, .ports, .cores, .out] : List Part) ⊆ U) (hC0 : Change U r0 s) :
    Change U r0 (moverRead q off da len s) := by
  have k1 : ([.qaux] : List Part) ⊆ U := List.Subset.trans (by decide) hT
  unfold moverRead
  repeat' first
    | with_reducible exact hC0
    | with_reducible refine Change.ite (fun _ => ?_) (fun _ => ?_)
    | with_reducible refine stepReadEnd_change k1 ?_
    | with_reducible refine wxlAccess_change hT ?_
    | with_reducible refine Change.foldl (fun _ _ _ => ?_) ?_
    | with_reducible assumption
    | split
    | dsimp only

theorem moverWrite_change {U : List Part} {r0 : State} {q : Nat} {off : Nat} {da : Nat} {data : List Byte} {s : State} (hT : ([.regs, .tt, .flt, .icu, .hep, .wxl, .qaux, .swc, .ports, .cores, .out] : List Part) ⊆ U) (hC0 : Change U r0 s) :
    Change U r0 (moverWrite q off da data s) := by
  have k1 : ([.qaux] : List Part) ⊆ U := List.Subset.trans (by decide) hT
  unfold moverWrite
  repeat' first
    | with_reducible exact hC0
    | with_reducible refine Change.ite (fun _ => ?_) (fun _ => ?_)
    | with_reducible refine stepWriteEnd_change k1 ?_
    | with_reducible refine wxlAccess_change hT ?_
    | with_reducible refine Change.foldl (fun _ _ _ => ?_) ?_
    | with_reducible assumption
    | split
    | dsimp only

theorem issueReads_change {U : List Part} {r0 : State} {q : Nat} {l : List (Nat × Nat × Nat)} {s : State} (hT : ([.regs, .tt, .flt, .icu, .hep, .wxl, .qaux, .swc, .ports, .cores, .out] : List Part) ⊆ U) (hC0 : Change U r0 s) :
    Change U r0 (issueReads q l s) := by
  have k1 : ([.qaux] : List Part) ⊆ U := List.Subset.trans (by decide) hT
  unfold issueReads
  repeat' first
    | with_reducible exact hC0
    | with_reducible refine Change.ite (fun _ => ?_) (fun _ => ?_)
    | with_reducible refine stepOpen_change k1 ?_
    | with_reducible refine moverRead_change hT ?_
    | with_reducible refine Change.foldl (fun _ _ _ => ?_) ?_
    | with_reducible assumption
    | split
    | dsimp only

theorem migAccess_change {U : List Part} {r0 : State} {f : Frame} {s : State} (hT : ([.regs, .tt, .flt, .icu, .wxl, .qaux, .swc, .ports, .cores, .out] : List Part) ⊆ U) (hC0 : Change U r0 s) :
    Change U r0 (migAccess f s) := by
  have k1 : ([.regs, .tt, .flt, .icu, .wxl, .swc, .out] : List Part) ⊆ U := List.Subset.trans (by decide) hT
  have k2 : ([.regs, .wxl, .qaux, .swc] : List Part) ⊆ U := List.Subset.trans (by decide) hT
  unfold migAccess
  repeat' first
    | with_reducible exact hC0
    | with_reducible refine Change.ite (fun _ => ?_) (fun _ => ?_)
    | with_reducible refine wxlRefuse_change hT ?_
    | with_reducible refine pfOnWrite_change k1 ?_
    | with_reducible refine toTarget_change k2 ?_
    | with_reducible refine Change.foldl (fun _ _ _ => ?_) ?_
    | with_reducible assumption
    | split
    | dsimp only

theorem keepChunk_change {U : List Part} {r0 : State} {q : Nat} {off : Nat} {data : List Byte} {s : State} (hT : ([.qaux] : List Part) ⊆ U) (hC0 : Change U r0 s) :
    Change U r0 (keepChunk q off data s) := by
  unfold keepChunk
  repeat' first
    | with_reducible exact hC0
    | with_reducible refine Change.ite (fun _ => ?_) (fun _ => ?_)
    | with_reducible refine State.setQa_change hT ?_
    | with_reducible refine Change.foldl (fun _ _ _ => ?_) ?_
    | with_reducible assumption
    | split
    | dsimp only

theorem readToWrite_change {U : List Part} {r0 : State} {q : Nat} {off : Nat} {da : Nat} {data : List Byte} {s : State} (hT : ([.regs, .tt, .flt, .icu, .hep, .wxl, .qaux, .swc, .ports, .cores, .out] : List Part) ⊆ U) (hC0 : Change U r0 s) :
    Change U r0 (readToWrite q off da data s) := by
  have k1 : ([.qaux] : List Part) ⊆ U := List.Subset.trans (by decide) hT
  unfold readToWrite
  repeat' first
    | with_reducible exact hC0
    | with_reducible refine Change.ite (fun _ => ?_) (fun _ => ?_)
    | with_reducible refine State.setQa_change k1 ?_
    | with_reducible refine moverWrite_change hT ?_
    | with_reducible refine Change.foldl (fun _ _ _ => ?_) ?_
    | with_reducible assumption
    | split
    | dsimp only

theorem mcTarget_change {U : List Part} {r0 : State} {q : Nat} {off : Nat} {data : List Byte} {acc : State × List McDst} {t : Nat} (hT : ([.regs, .tt, .flt, .icu, .hep, .wxl, .qaux, .swc, .ports, .cores, .out] : List Part) ⊆ U) (hC0 : Change U r0 acc.1) :
    Change U r0 (mcTarget q off data acc t).1 := by
  have k1 : ([.regs] : List Part) ⊆ U := List.Subset.trans (by decide) hT
  have k2 : ([.qaux] : List Part) ⊆ U := List.Subset.trans (by decide) hT
  have k3 : ([.regs, .tt, .flt, .icu, .wxl, .swc, .out] : List Part) ⊆ U := List.Subset.trans (by decide) hT
  have k4 : ([.regs, .tt, .flt, .icu, .out] : List Part) ⊆ U := List.Subset.trans (by decide) hT
  have k5 : ([.wxl] : List Part) ⊆ U := List.Subset.trans (by decide) hT
  unfold mcTarget
  repeat' first
    | with_reducible exact hC0
    | with_reducible refine Change.ite (fun _ => ?_) (fun _ => ?_)
    | with_reducible refine State.bump_change k1 ?_
    | with_reducible refine State.setQa_change k2 ?_
    | with_reducible refine pfOnWrite_change k3 ?_
    | with_reducible refine faultEvent_change k4 ?_
    | with_reducible refine wxlAccess_change hT ?_
    | with_reducible refine migDirty_change k5 ?_
    | with_reducible refine refuseNote_change k4 ?_
    | with_reducible refine mcReport_change k2 ?_
    | with_reducible refine Change.foldl (fun _ _ _ => ?_) ?_
    | with_reducible refine Change.foldl_fst (fun _ _ _ => ?_) ?_
    | with_reducible refine Change.ite_fst (fun _ => ?_) (fun _ => ?_)
    | with_reducible assumption
    | split
    | dsimp only

theorem mcSend_change {U : List Part} {r0 : State} {q : Nat} {off : Nat} {data : List Byte} {s : State} (hT : ([.regs, .tt, .flt, .icu, .hep, .wxl, .qaux, .swc, .ports, .cores, .out] : List Part) ⊆ U) (hC0 : Change U r0 s) :
    Change U r0 (mcSend q off data s) := by
  have k1 : ([.swc] : List Part) ⊆ U := List.Subset.trans (by decide) hT
  have k2 : ([.qaux] : List Part) ⊆ U := List.Subset.trans (by decide) hT
  unfold mcSend
  repeat' first
    | with_reducible exact hC0
    | with_reducible refine Change.ite (fun _ => ?_) (fun _ => ?_)
    | with_reducible refine State.inject_change k1 ?_
    | with_reducible refine State.setQa_change k2 ?_
    | with_reducible refine mcTarget_change hT ?_
    | (refine Change.of_pair (by assumption) ?_; with_reducible refine mcTarget_change hT ?_)
    | with_reducible refine Change.foldl (fun _ _ _ => ?_) ?_
    | with_reducible refine Change.foldl_fst (fun _ _ _ => ?_) ?_
    | with_reducible refine Change.ite_fst (fun _ => ?_) (fun _ => ?_)
    | with_reducible assumption
    | split
    | dsimp only

theorem scrubBlock_change {U : List Part} {r0 : State} {q : Nat} {off : Nat} {data : List Byte} {bad : Bool} {fixed : Bool} {s : State} (hT : ([.regs, .wxl, .qaux, .swc] : List Part) ⊆ U) (hC0 : Change U r0 s) :
    Change U r0 (scrubBlock q off data bad fixed s) := by
  have k1 : ([.qaux] : List Part) ⊆ U := List.Subset.trans (by decide) hT
  have k2 : ([.wxl] : List Part) ⊆ U := List.Subset.trans (by decide) hT
  unfold scrubBlock
  repeat' first
    | with_reducible exact hC0
    | with_reducible refine Change.ite (fun _ => ?_) (fun _ => ?_)
    | with_reducible refine stepReadEnd_change k1 ?_
    | with_reducible refine State.setQa_change k1 ?_
    | with_reducible refine toTarget_change hT ?_
    | with_reducible refine Change.foldl (fun _ _ _ => ?_) ?_
    | with_reducible assumption
    | split
    | dsimp only
    | with_reducible refine Change.set_wxl k2 ?_

theorem stepData_change {U : List Part} {r0 : State} {q : Nat} {gen : Nat} {off : Nat} {data : List Byte} {ans : Ans} {s : State} (hT : ([.regs, .tt, .flt, .icu, .hep, .wxl, .qaux, .swc, .ports, .cores, .out] : List Part) ⊆ U) (hC0 : Change U r0 s) :
    Change U r0 (stepData q gen off data ans s) := by
  have k1 : ([.qaux] : List Part) ⊆ U := List.Subset.trans (by decide) hT
  have k2 : ([.regs, .wxl, .qaux, .swc] : List Part) ⊆ U := List.Subset.trans (by decide) hT
  have k3 : ([.regs, .tt, .flt, .icu, .wxl, .qaux, .swc, .ports, .cores, .out] : List Part) ⊆ U := List.Subset.trans (by decide) hT
  unfold stepData
  repeat' first
    | with_reducible exact hC0
    | with_reducible refine Change.ite (fun _ => ?_) (fun _ => ?_)
    | with_reducible refine stepReadEnd_change k1 ?_
    | with_reducible refine readToWrite_change hT ?_
    | with_reducible refine State.setQa_change k1 ?_
    | with_reducible refine scrubBlock_change k2 ?_
    | with_reducible refine stepFail_change k1 ?_
    | with_reducible refine mcSend_change hT ?_
    | with_reducible refine migAccess_change k3 ?_
    | with_reducible refine keepChunk_change k1 ?_
    | with_reducible refine Change.foldl (fun _ _ _ => ?_) ?_
    | with_reducible assumption
    | split
    | dsimp only

theorem chargeOp_change {U : List Part} {r0 : State} {q : Nat} {nj : Nat} {s : State} (hT : ([.regs, .ctx, .spl] : List Part) ⊆ U) (hC0 : Change U r0 s) :
    Change U r0 (chargeOp q nj s) := by
  have k1 : ([.ctx] : List Part) ⊆ U := List.Subset.trans (by decide) hT
  have k2 : ([.regs, .spl] : List Part) ⊆ U := List.Subset.trans (by decide) hT
  unfold chargeOp
  repeat' first
    | with_reducible exact hC0
    | with_reducible refine Change.ite (fun _ => ?_) (fun _ => ?_)
    | with_reducible refine State.setCtxW_change k1 ?_
    | with_reducible refine State.cput_change k1 ?_
    | with_reducible refine chargeEnv_change k2 ?_
    | with_reducible refine Change.foldl (fun _ _ _ => ?_) ?_
    | with_reducible assumption
    | split
    | dsimp only

theorem settleStep_change {U : List Part} {r0 : State} {q : Nat} {done : Nat} {s : State} (hT : ([.regs, .ctx, .spl] : List Part) ⊆ U) (hC0 : Change U r0 s) :
    Change U r0 (settleStep q done s) := by
  have k1 : ([.regs] : List Part) ⊆ U := List.Subset.trans (by decide) hT
  have k2 : ([.spl] : List Part) ⊆ U := List.Subset.trans (by decide) hT
  unfold settleStep
  repeat' first
    | with_reducible exact hC0
    | with_reducible refine Change.ite (fun _ => ?_) (fun _ => ?_)
    | with_reducible refine creditAdd_change k1 ?_
    | with_reducible refine tokAdd_change k1 ?_
    | with_reducible refine chargeOp_change hT ?_
    | with_reducible refine Change.foldl (fun _ _ _ => ?_) ?_
    | with_reducible assumption
    | split
    | dsimp only
    | with_reducible refine Change.set_spl k2 ?_

theorem qenWrite_change {U : List Part} {r0 : State} {q : Nat} {da : Nat} {data : List Byte} {o : Origin} {s : State} (hT : ([.regs, .tt, .flt, .icu, .hep, .wxl, .qaux, .swc, .ports, .cores, .out] : List Part) ⊆ U) (hC0 : Change U r0 s) :
    Change U r0 (qenWrite q da data o s).1 := by
  have k1 : ([.regs, .tt, .flt, .icu, .out] : List Part) ⊆ U := List.Subset.trans (by decide) hT
  unfold qenWrite
  repeat' first
    | with_reducible exact hC0
    | with_reducible refine Change.ite (fun _ => ?_) (fun _ => ?_)
    | with_reducible refine wxlAccess_change hT ?_
    | with_reducible refine refuseNote_change k1 ?_
    | with_reducible refine Change.foldl (fun _ _ _ => ?_) ?_
    | with_reducible refine Change.foldl_fst (fun _ _ _ => ?_) ?_
    | with_reducible refine Change.ite_fst (fun _ => ?_) (fun _ => ?_)
    | with_reducible assumption
    | split
    | dsimp only

theorem writeReport_change {U : List Part} {r0 : State} {q : Nat} {s : State} (hT : ([.regs, .tt, .flt, .icu, .hep, .wxl, .qaux, .swc, .ports, .cores, .out] : List Part) ⊆ U) (hC0 : Change U r0 s) :
    Change U r0 (writeReport q s).1 := by
  unfold writeReport
  repeat' first
    | with_reducible exact hC0
    | with_reducible refine Change.ite (fun _ => ?_) (fun _ => ?_)
    | with_reducible refine qenWrite_change hT ?_
    | (refine Change.of_pair (by assumption) ?_; with_reducible refine qenWrite_change hT ?_)
    | with_reducible refine Change.foldl (fun _ _ _ => ?_) ?_
    | with_reducible refine Change.foldl_fst (fun _ _ _ => ?_) ?_
    | with_reducible refine Change.ite_fst (fun _ => ?_) (fun _ => ?_)
    | with_reducible assumption
    | split
    | dsimp only

theorem endCheck_change {U : List Part} {r0 : State} {q : Nat} {s : State} (hT : ([.regs, .tt, .flt, .icu, .hep, .wxl, .qen, .ctx, .qaux, .spl, .swc, .ports, .cores, .prl, .out] : List Part) ⊆ U) (hC0 : Change U r0 s) :
    Change U r0 (endCheck q s) := by
  have k1 : ([.regs, .tt, .flt, .icu, .hep, .wxl, .qaux, .swc, .ports, .cores, .out] : List Part) ⊆ U := List.Subset.trans (by decide) hT
  unfold endCheck
  repeat' first
    | with_reducible exact hC0
    | with_reducible refine Change.ite (fun _ => ?_) (fun _ => ?_)
    | with_reducible refine finishOp_change hT ?_
    | with_reducible refine qenWrite_change k1 ?_
    | (refine Change.of_pair (by assumption) ?_; with_reducible refine qenWrite_change k1 ?_)
    | with_reducible refine Change.foldl (fun _ _ _ => ?_) ?_
    | with_reducible refine Change.foldl_fst (fun _ _ _ => ?_) ?_
    | with_reducible refine Change.ite_fst (fun _ => ?_) (fun _ => ?_)
    | with_reducible assumption
    | split
    | dsimp only

theorem endScrub_change {U : List Part} {r0 : State} {q : Nat} {s : State} (hT : ([.regs, .tt, .flt, .icu, .hep, .wxl, .qen, .ctx, .qaux, .spl, .swc, .ports, .cores, .prl, .out] : List Part) ⊆ U) (hC0 : Change U r0 s) :
    Change U r0 (endScrub q s) := by
  have k1 : ([.regs, .tt, .flt, .icu, .hep, .wxl, .qaux, .swc, .ports, .cores, .out] : List Part) ⊆ U := List.Subset.trans (by decide) hT
  unfold endScrub
  repeat' first
    | with_reducible exact hC0
    | with_reducible refine Change.ite (fun _ => ?_) (fun _ => ?_)
    | with_reducible refine finishOp_change hT ?_
    | with_reducible refine writeReport_change k1 ?_
    | (refine Change.of_pair (by assumption) ?_; with_reducible refine writeReport_change k1 ?_)
    | with_reducible refine Change.foldl (fun _ _ _ => ?_) ?_
    | with_reducible refine Change.foldl_fst (fun _ _ _ => ?_) ?_
    | with_reducible refine Change.ite_fst (fun _ => ?_) (fun _ => ?_)
    | with_reducible assumption
    | split
    | dsimp only

theorem endMulticast_change {U : List Part} {r0 : State} {q : Nat} {s : State} (hT : ([.regs, .tt, .flt, .icu, .hep, .wxl, .qen, .ctx, .qaux, .spl, .swc, .ports, .cores, .prl, .out] : List Part) ⊆ U) (hC0 : Change U r0 s) :
    Change U r0 (endMulticast q s) := by
  unfold endMulticast
  repeat' first
    | with_reducible exact hC0
    | with_reducible refine Change.ite (fun _ => ?_) (fun _ => ?_)
    | with_reducible refine finishOp_change hT ?_
    | with_reducible refine Change.foldl (fun _ _ _ => ?_) ?_
    | with_reducible assumption
    | split
    | dsimp only

theorem endData_change {U : List Part} {r0 : State} {q : Nat} {s : State} (hT : ([.regs, .tt, .flt, .icu, .hep, .wxl, .qen, .ctx, .qaux, .spl, .swc, .ports, .cores, .prl, .out] : List Part) ⊆ U) (hC0 : Change U r0 s) :
    Change U r0 (endData q s) := by
  unfold endData
  repeat' first
    | with_reducible exact hC0
    | with_reducible refine Change.ite (fun _ => ?_) (fun _ => ?_)
    | with_reducible refine finishOp_change hT ?_
    | with_reducible refine endMulticast_change hT ?_
    | with_reducible refine endCheck_change hT ?_
    | with_reducible refine endScrub_change hT ?_
    | with_reducible refine Change.foldl (fun _ _ _ => ?_) ?_
    | with_reducible assumption
    | split
    | dsimp only

theorem earlyEnd_change {U : List Part} {r0 : State} {q : Nat} {st : Nat} {s : State} (hT : ([.regs, .tt, .flt, .icu, .hep, .wxl, .qen, .ctx, .qaux, .spl, .swc, .ports, .cores, .prl, .out] : List Part) ⊆ U) (hC0 : Change U r0 s) :
    Change U r0 (earlyEnd q st s) := by
  have k1 : ([.regs, .ctx, .spl] : List Part) ⊆ U := List.Subset.trans (by decide) hT
  unfold earlyEnd
  repeat' first
    | with_reducible exact hC0
    | with_reducible refine Change.ite (fun _ => ?_) (fun _ => ?_)
    | with_reducible refine finishOp_change hT ?_
    | with_reducible refine settleStep_change k1 ?_
    | with_reducible refine Change.foldl (fun _ _ _ => ?_) ?_
    | with_reducible assumption
    | split
    | dsimp only

theorem cutBoundary_change {U : List Part} {r0 : State} {q : Nat} {c : Nat} {s : State} (hT : ([.regs, .tt, .flt, .icu, .hep, .wxl, .ctx, .qaux, .spl, .swc, .ports, .cores, .prl, .out] : List Part) ⊆ U) (hC0 : Change U r0 s) :
    Change U r0 (cutBoundary q c s) := by
  have k1 : ([.qaux] : List Part) ⊆ U := List.Subset.trans (by decide) hT
  have k2 : ([.ctx] : List Part) ⊆ U := List.Subset.trans (by decide) hT
  have k3 : ([.ports, .prl, .out] : List Part) ⊆ U := List.Subset.trans (by decide) hT
  have k4 : ([.regs, .ctx, .spl] : List Part) ⊆ U := List.Subset.trans (by decide) hT
  have k5 : ([.regs, .tt, .flt, .icu, .hep, .wxl, .qaux, .swc, .ports, .cores, .out] : List Part) ⊆ U := List.Subset.trans (by decide) hT
  unfold cutBoundary
  repeat' first
    | with_reducible exact hC0
    | with_reducible refine Change.ite (fun _ => ?_) (fun _ => ?_)
    | with_reducible refine stopSettle_change hT ?_
    | with_reducible refine State.setQa_change k1 ?_
    | with_reducible refine State.cput_change k2 ?_
    | with_reducible refine mirror_change k3 ?_
    | with_reducible refine settleStep_change k4 ?_
    | with_reducible refine nextGen_change k5 ?_
    | with_reducible refine Change.foldl (fun _ _ _ => ?_) ?_
    | with_reducible assumption
    | split
    | dsimp only

theorem goodBoundary_change {U : List Part} {r0 : State} {q : Nat} {s : State} (hT : ([.regs, .tt, .flt, .icu, .hep, .wxl, .qen, .ctx, .qaux, .spl, .swc, .ports, .cores, .prl, .out] : List Part) ⊆ U) (hC0 : Change U r0 s) :
    Change U r0 (goodBoundary q s) := by
  have k1 : ([.regs, .tt, .flt, .icu, .hep, .wxl, .ctx, .qaux, .spl, .swc, .ports, .cores, .prl, .out] : List Part) ⊆ U := List.Subset.trans (by decide) hT
  have k2 : ([.qaux] : List Part) ⊆ U := List.Subset.trans (by decide) hT
  have k3 : ([.ctx] : List Part) ⊆ U := List.Subset.trans (by decide) hT
  have k4 : ([.ports, .prl, .out] : List Part) ⊆ U := List.Subset.trans (by decide) hT
  have k5 : ([.regs, .tt, .flt, .icu, .hep, .wxl, .qaux, .swc, .ports, .cores, .out] : List Part) ⊆ U := List.Subset.trans (by decide) hT
  have k6 : ([.regs, .ctx, .spl] : List Part) ⊆ U := List.Subset.trans (by decide) hT
  unfold goodBoundary
  repeat' first
    | with_reducible exact hC0
    | with_reducible refine Change.ite (fun _ => ?_) (fun _ => ?_)
    | with_reducible refine stopSettle_change k1 ?_
    | with_reducible refine State.setQa_change k2 ?_
    | with_reducible refine finishOp_change hT ?_
    | with_reducible refine endData_change hT ?_
    | with_reducible refine State.cput_change k3 ?_
    | with_reducible refine mirror_change k4 ?_
    | with_reducible refine writeReport_change k5 ?_
    | (refine Change.of_pair (by assumption) ?_; with_reducible refine writeReport_change k5 ?_)
    | with_reducible refine settleStep_change k6 ?_
    | with_reducible refine Change.foldl (fun _ _ _ => ?_) ?_
    | with_reducible refine Change.foldl_fst (fun _ _ _ => ?_) ?_
    | with_reducible refine Change.ite_fst (fun _ => ?_) (fun _ => ?_)
    | with_reducible assumption
    | split
    | dsimp only

theorem boundary_change {U : List Part} {r0 : State} {q : Nat} {s : State} (hT : ([.regs, .tt, .flt, .icu, .hep, .wxl, .qen, .ctx, .qaux, .spl, .swc, .ports, .cores, .prl, .out] : List Part) ⊆ U) (hC0 : Change U r0 s) :
    Change U r0 (boundary q s) := by
  have k1 : ([.regs, .tt, .flt, .icu, .hep, .wxl, .ctx, .qaux, .spl, .swc, .ports, .cores, .prl, .out] : List Part) ⊆ U := List.Subset.trans (by decide) hT
  unfold boundary
  repeat' first
    | with_reducible exact hC0
    | with_reducible refine Change.ite (fun _ => ?_) (fun _ => ?_)
    | with_reducible refine earlyEnd_change hT ?_
    | with_reducible refine goodBoundary_change hT ?_
    | with_reducible refine cutBoundary_change k1 ?_
    | with_reducible refine Change.foldl (fun _ _ _ => ?_) ?_
    | with_reducible assumption
    | split
    | dsimp only

theorem killOp_change {U : List Part} {r0 : State} {q : Nat} {st : Nat} {s : State} (hT : ([.regs, .tt, .checks, .flt, .icu, .hep, .wxl, .qen, .ctx, .qaux, .spl, .swc, .ports, .cores, .prl, .out] : List Part) ⊆ U) (hC0 : Change U r0 s) :
    Change U r0 (killOp q st s) := by
  have k1 : ([.regs, .tt, .flt, .icu, .hep, .wxl, .qen, .ctx, .qaux, .spl, .swc, .ports, .cores, .prl, .out] : List Part) ⊆ U := List.Subset.trans (by decide) hT
  have k2 : ([.regs, .tt, .flt, .icu, .hep, .wxl, .ctx, .qaux, .spl, .swc, .ports, .cores, .prl, .out] : List Part) ⊆ U := List.Subset.trans (by decide) hT
  unfold killOp
  repeat' first
    | with_reducible exact hC0
    | with_reducible refine Change.ite (fun _ => ?_) (fun _ => ?_)
    | with_reducible refine earlyEnd_change k1 ?_
    | with_reducible refine stopSettle_change k2 ?_
    | with_reducible refine qResume_change hT ?_
    | with_reducible refine Change.foldl (fun _ _ _ => ?_) ?_
    | with_reducible assumption
    | split
    | dsimp only

end Sys2Proof.Machine
end

