-- ==== Sys2Proof/Laws/PortOps.lean ====
section
/-! SUPPORT. What each operation of Machine/PortOps.lean may change. -/
namespace Sys2Proof.Machine

open Sys2Proof

theorem linkTo_change {U : List Part} {r0 : State} {p : Nat} {st : Nat} {n : Nat} {s : State} (hT : ([.regs, .tt, .checks, .flt, .icu, .ports, .prl, .out] : List Part) ⊆ U) (hC0 : Change U r0 s) :
    Change U r0 (linkTo p st n s) := by
  have k1 : ([.regs] : List Part) ⊆ U := List.Subset.trans (by decide) hT
  unfold linkTo
  repeat' first
    | with_reducible exact hC0
    | with_reducible refine Change.ite (fun _ => ?_) (fun _ => ?_)
    | with_reducible refine State.put_change k1 ?_
    | with_reducible refine pairSyncFail_change hT ?_

theorem setWidth_change {U : List Part} {r0 : State} {p : Nat} {w : Nat} {lane : Nat} {s : State} (hT : ([.regs, .tt, .flt, .icu, .out] : List Part) ⊆ U) (hC0 : Change U r0 s) :
    Change U r0 (setWidth p w lane s) := by
  have k1 : ([.regs] : List Part) ⊆ U := List.Subset.trans (by decide) hT
  unfold setWidth
  repeat' first
    | with_reducible exact hC0
    | with_reducible refine Change.ite (fun _ => ?_) (fun _ => ?_)
    | with_reducible refine State.put_change k1 ?_
    | with_reducible refine rttSync_change hT ?_

theorem State.modPort_change {U : List Part} {r0 : State} {s : State} {p : Nat} {f : Port → Port} (hT : ([.ports] : List Part) ⊆ U) (hC0 : Change U r0 s) :
    Change U r0 (State.modPort s p f) := by
  unfold State.modPort
  repeat' first
    | with_reducible exact hC0
    | with_reducible refine Change.ite (fun _ => ?_) (fun _ => ?_)
    | with_reducible refine State.setPort_change hT ?_

theorem trainBegin_change {U : List Part} {r0 : State} {p : Nat} {s : State} (hT : ([.ports] : List Part) ⊆ U) (hC0 : Change U r0 s) :
    Change U r0 (trainBegin p s) := by
  unfold trainBegin
  repeat' first
    | with_reducible exact hC0
    | with_reducible refine Change.ite (fun _ => ?_) (fun _ => ?_)
    | with_reducible refine State.modPort_change hT ?_

theorem toRetrain_change {U : List Part} {r0 : State} {p : Nat} {n : Nat} {s : State} (hT : ([.regs, .tt, .checks, .flt, .icu, .ports, .prl, .out] : List Part) ⊆ U) (hC0 : Change U r0 s) :
    Change U r0 (toRetrain p n s) := by
  have k1 : ([.regs] : List Part) ⊆ U := List.Subset.trans (by decide) hT
  have k2 : ([.ports] : List Part) ⊆ U := List.Subset.trans (by decide) hT
  unfold toRetrain
  repeat' first
    | with_reducible exact hC0
    | with_reducible refine Change.ite (fun _ => ?_) (fun _ => ?_)
    | with_reducible refine State.bump_change k1 ?_
    | with_reducible refine linkTo_change hT ?_
    | with_reducible refine trainBegin_change k2 ?_

theorem freshLl_change {U : List Part} {r0 : State} {p : Nat} {s : State} (hT : ([.regs, .icu, .ports] : List Part) ⊆ U) (hC0 : Change U r0 s) :
    Change U r0 (freshLl p s) := by
  have k1 : ([.ports] : List Part) ⊆ U := List.Subset.trans (by decide) hT
  have k2 : ([.regs] : List Part) ⊆ U := List.Subset.trans (by decide) hT
  have k3 : ([.icu] : List Part) ⊆ U := List.Subset.trans (by decide) hT
  unfold freshLl
  repeat' first
    | with_reducible exact hC0
    | with_reducible refine Change.ite (fun _ => ?_) (fun _ => ?_)
    | with_reducible refine State.modPort_change k1 ?_
    | with_reducible refine State.put_change k2 ?_
    | with_reducible refine Change.foldl (fun _ _ _ => ?_) ?_
    | with_reducible assumption
    | split
    | dsimp only
    | with_reducible refine Change.set_icu k3 ?_

theorem epochAdvance_change {U : List Part} {r0 : State} {p : Nat} {s : State} (hT : ([.regs] : List Part) ⊆ U) (hC0 : Change U r0 s) :
    Change U r0 (epochAdvance p s) := by
  unfold epochAdvance
  repeat' first
    | with_reducible exact hC0
    | with_reducible refine Change.ite (fun _ => ?_) (fun _ => ?_)
    | with_reducible refine State.put_change hT ?_

theorem flushCount_change {U : List Part} {r0 : State} {p : Nat} {s : State} (hT : ([.regs] : List Part) ⊆ U) (hC0 : Change U r0 s) :
    Change U r0 (flushCount p s) := by
  unfold flushCount
  repeat' first
    | with_reducible exact hC0
    | with_reducible refine Change.ite (fun _ => ?_) (fun _ => ?_)
    | with_reducible refine State.bump_change hT ?_

theorem flushPosted_change {U : List Part} {r0 : State} {p : Nat} {da : Nat} {env : Nat} {s : State} (hT : ([.regs] : List Part) ⊆ U) (hC0 : Change U r0 s) :
    Change U r0 (flushPosted p da env s) := by
  unfold flushPosted
  repeat' first
    | with_reducible exact hC0
    | with_reducible refine Change.ite (fun _ => ?_) (fun _ => ?_)
    | with_reducible refine State.put_change hT ?_
    | with_reducible refine flushCount_change hT ?_

theorem flushFrame_change {U : List Part} {r0 : State} {p : Nat} {ans : Ans} {f : Frame} {s : State} (hT : ([.regs, .tt, .flt, .icu, .hep, .wxl, .qaux, .swc, .ports, .cores, .out] : List Part) ⊆ U) (hC0 : Change U r0 s) :
    Change U r0 (flushFrame p ans f s) := by
  have k1 : ([.regs] : List Part) ⊆ U := List.Subset.trans (by decide) hT
  have k2 : ([.ports] : List Part) ⊆ U := List.Subset.trans (by decide) hT
  have k3 : ([.regs, .wxl, .qaux, .swc, .cores, .out] : List Part) ⊆ U := List.Subset.trans (by decide) hT
  have k4 : ([.regs, .wxl, .qaux] : List Part) ⊆ U := List.Subset.trans (by decide) hT
  unfold flushFrame
  repeat' first
    | with_reducible exact hC0
    | with_reducible refine Change.ite (fun _ => ?_) (fun _ => ?_)
    | with_reducible refine State.bump_change k1 ?_
    | with_reducible refine flushPosted_change k1 ?_
    | with_reducible refine npAnswered_change k2 ?_
    | with_reducible refine unhold_change hT ?_
    | with_reducible refine failRead_change k3 ?_
    | with_reducible refine failWrite_change k4 ?_
    | with_reducible refine flushCount_change k1 ?_
    | with_reducible refine Change.foldl (fun _ _ _ => ?_) ?_
    | with_reducible assumption
    | split

theorem mcOver_change {U : List Part} {r0 : State} {before : List Frame} {s : State} (hT : ([.qaux] : List Part) ⊆ U) (hC0 : Change U r0 s) :
    Change U r0 (mcOver before s) := by
  unfold mcOver
  repeat' first
    | with_reducible exact hC0
    | with_reducible refine Change.ite (fun _ => ?_) (fun _ => ?_)
    | with_reducible refine writeDone_change hT ?_
    | with_reducible refine Change.foldl (fun _ _ _ => ?_) ?_
    | with_reducible assumption

theorem fenceKill_change {U : List Part} {r0 : State} {p : Nat} {st : Nat} {s : State} (hT : ([.regs, .tt, .checks, .flt, .icu, .hep, .wxl, .qen, .ctx, .qaux, .spl, .swc, .ports, .cores, .prl, .out] : List Part) ⊆ U) (hC0 : Change U r0 s) :
    Change U r0 (fenceKill p st s) := by
  have k1 : ([.regs, .tt, .flt, .icu, .hep, .wxl, .qen, .ctx, .qaux, .spl, .swc, .ports, .cores, .prl, .out] : List Part) ⊆ U := List.Subset.trans (by decide) hT
  unfold fenceKill
  repeat' first
    | with_reducible exact hC0
    | with_reducible refine Change.ite (fun _ => ?_) (fun _ => ?_)
    | with_reducible refine finishOp_change k1 ?_
    | with_reducible refine qResume_change hT ?_
    | with_reducible refine Change.foldl (fun _ _ _ => ?_) ?_
    | with_reducible assumption

theorem flushNp_change {U : List Part} {r0 : State} {p : Nat} {ans : Ans} {quar : Bool} {s : State} (hT : ([.regs, .tt, .flt, .icu, .hep, .wxl, .qaux, .swc, .ports, .cores, .out] : List Part) ⊆ U) (hC0 : Change U r0 s) :
    Change U r0 (flushNp p ans quar s) := by
  have k1 : ([.ports] : List Part) ⊆ U := List.Subset.trans (by decide) hT
  unfold flushNp
  repeat' first
    | with_reducible exact hC0
    | with_reducible refine Change.ite (fun _ => ?_) (fun _ => ?_)
    | with_reducible refine State.modPort_change k1 ?_
    | with_reducible refine flushFrame_change hT ?_
    | with_reducible refine Change.foldl (fun _ _ _ => ?_) ?_
    | with_reducible assumption

theorem flushUnacked_change {U : List Part} {r0 : State} {p : Nat} {s : State} (hT : ([.regs] : List Part) ⊆ U) (hC0 : Change U r0 s) :
    Change U r0 (flushUnacked p s) := by
  unfold flushUnacked
  repeat' first
    | with_reducible exact hC0
    | with_reducible refine Change.ite (fun _ => ?_) (fun _ => ?_)
    | with_reducible refine State.bump_change hT ?_
    | with_reducible refine flushPosted_change hT ?_
    | with_reducible refine flushCount_change hT ?_
    | with_reducible refine Change.foldl (fun _ _ _ => ?_) ?_
    | with_reducible assumption
    | split

theorem portFlush_change {U : List Part} {r0 : State} {p : Nat} {ans : Ans} {gone : Bool} {s : State} (hT : ([.regs, .tt, .checks, .flt, .icu, .hep, .wxl, .qen, .ctx, .qaux, .spl, .swc, .ports, .cores, .prl, .out] : List Part) ⊆ U) (hC0 : Change U r0 s) :
    Change U r0 (portFlush p ans gone s) := by
  have k1 : ([.regs, .tt, .flt, .icu, .hep, .wxl, .qaux, .swc, .ports, .cores, .out] : List Part) ⊆ U := List.Subset.trans (by decide) hT
  have k2 : ([.regs, .tt, .flt, .icu, .out] : List Part) ⊆ U := List.Subset.trans (by decide) hT
  have k3 : ([.regs] : List Part) ⊆ U := List.Subset.trans (by decide) hT
  have k4 : ([.regs, .tt, .flt, .icu, .qaux, .swc, .out] : List Part) ⊆ U := List.Subset.trans (by decide) hT
  have k5 : ([.regs, .tt, .flt, .icu, .hep, .wxl, .ctx, .qaux, .spl, .swc, .ports, .cores, .prl, .out] : List Part) ⊆ U := List.Subset.trans (by decide) hT
  have k6 : ([.qaux] : List Part) ⊆ U := List.Subset.trans (by decide) hT
  unfold portFlush
  repeat' first
    | with_reducible exact hC0
    | with_reducible refine Change.ite (fun _ => ?_) (fun _ => ?_)
    | with_reducible refine flushFrame_change k1 ?_
    | with_reducible refine faultEvent_change k2 ?_
    | with_reducible refine flushUnacked_change k3 ?_
    | with_reducible refine qResume_change hT ?_
    | with_reducible refine flushNp_change k1 ?_
    | with_reducible refine swcFlush_change k4 ?_
    | with_reducible refine queueFail_change k5 ?_
    | with_reducible refine fenceKill_change hT ?_
    | with_reducible refine mcOver_change k6 ?_
    | with_reducible refine Change.foldl (fun _ _ _ => ?_) ?_
    | with_reducible refine Change.foldl_fst (fun _ _ _ => ?_) ?_
    | with_reducible refine Change.ite_fst (fun _ => ?_) (fun _ => ?_)
    | with_reducible assumption

theorem discardLl_change {U : List Part} {r0 : State} {p : Nat} {s : State} (hT : ([.regs, .icu, .ports] : List Part) ⊆ U) (hC0 : Change U r0 s) :
    Change U r0 (discardLl p s) := by
  have k1 : ([.regs] : List Part) ⊆ U := List.Subset.trans (by decide) hT
  unfold discardLl
  repeat' first
    | with_reducible exact hC0
    | with_reducible refine Change.ite (fun _ => ?_) (fun _ => ?_)
    | with_reducible refine epochAdvance_change k1 ?_
    | with_reducible refine freshLl_change hT ?_

theorem portLost_change {U : List Part} {r0 : State} {p : Nat} {st : Nat} {n : Nat} {s : State} (hT : ([.regs, .tt, .checks, .flt, .icu, .hep, .wxl, .qen, .ctx, .qaux, .spl, .swc, .ports, .cores, .prl, .out] : List Part) ⊆ U) (hC0 : Change U r0 s) :
    Change U r0 (portLost p st n s) := by
  have k1 : ([.ports] : List Part) ⊆ U := List.Subset.trans (by decide) hT
  have k2 : ([.regs, .tt, .flt, .icu, .out] : List Part) ⊆ U := List.Subset.trans (by decide) hT
  have k3 : ([.regs, .icu, .ports] : List Part) ⊆ U := List.Subset.trans (by decide) hT
  have k4 : ([.regs, .tt, .checks, .flt, .icu, .ports, .prl, .out] : List Part) ⊆ U := List.Subset.trans (by decide) hT
  have k5 : ([.regs] : List Part) ⊆ U := List.Subset.trans (by decide) hT
  unfold portLost
  repeat' first
    | with_reducible exact hC0
    | with_reducible refine Change.ite (fun _ => ?_) (fun _ => ?_)
    | with_reducible refine State.modPort_change k1 ?_
    | with_reducible refine setWidth_change k2 ?_
    | with_reducible refine discardLl_change k3 ?_
    | with_reducible refine portFlush_change hT ?_
    | with_reducible refine linkTo_change k4 ?_
    | with_reducible refine pairDetach_change k4 ?_
    | with_reducible refine State.setOut_change k5 ?_
    | with_reducible refine State.put_change k5 ?_

theorem portFallback_change {U : List Part} {r0 : State} {p : Nat} {s : State} (hT : ([.regs, .tt, .checks, .flt, .icu, .hep, .wxl, .qen, .ctx, .qaux, .spl, .swc, .ports, .cores, .prl, .out] : List Part) ⊆ U) (hC0 : Change U r0 s) :
    Change U r0 (portFallback p s) := by
  have k1 : ([.regs] : List Part) ⊆ U := List.Subset.trans (by decide) hT
  unfold portFallback
  repeat' first
    | with_reducible exact hC0
    | with_reducible refine Change.ite (fun _ => ?_) (fun _ => ?_)
    | with_reducible refine portFlush_change hT ?_
    | with_reducible refine State.setOut_change k1 ?_

theorem enterHold_change {U : List Part} {r0 : State} {p : Nat} {s : State} (hT : ([.regs, .tt, .checks, .flt, .icu, .ports, .prl, .out] : List Part) ⊆ U) (hC0 : Change U r0 s) :
    Change U r0 (enterHold p s) := by
  have k1 : ([.ports] : List Part) ⊆ U := List.Subset.trans (by decide) hT
  have k2 : ([.regs] : List Part) ⊆ U := List.Subset.trans (by decide) hT
  unfold enterHold
  repeat' first
    | with_reducible exact hC0
    | with_reducible refine Change.ite (fun _ => ?_) (fun _ => ?_)
    | with_reducible refine State.modPort_change k1 ?_
    | with_reducible refine State.bump_change k2 ?_
    | with_reducible refine linkTo_change hT ?_
    | with_reducible refine State.setOut_change k2 ?_
    | with_reducible refine trainBegin_change k1 ?_

theorem retrainOver_change {U : List Part} {r0 : State} {p : Nat} {s : State} (hT : ([.regs, .tt, .checks, .flt, .icu, .hep, .wxl, .qen, .ctx, .qaux, .spl, .swc, .ports, .cores, .prl, .out] : List Part) ⊆ U) (hC0 : Change U r0 s) :
    Change U r0 (retrainOver p s) := by
  have k1 : ([.regs, .tt, .checks, .flt, .icu, .ports, .prl, .out] : List Part) ⊆ U := List.Subset.trans (by decide) hT
  unfold retrainOver
  repeat' first
    | with_reducible exact hC0
    | with_reducible refine Change.ite (fun _ => ?_) (fun _ => ?_)
    | with_reducible refine enterHold_change k1 ?_
    | with_reducible refine portLost_change hT ?_

theorem portDrop_change {U : List Part} {r0 : State} {p : Nat} {s : State} (hT : ([.regs, .tt, .checks, .flt, .icu, .hep, .wxl, .qen, .ctx, .qaux, .spl, .swc, .ports, .cores, .prl, .out] : List Part) ⊆ U) (hC0 : Change U r0 s) :
    Change U r0 (portDrop p s) := by
  unfold portDrop
  repeat' first
    | with_reducible exact hC0
    | with_reducible refine Change.ite (fun _ => ?_) (fun _ => ?_)
    | with_reducible refine portLost_change hT ?_
    | with_reducible refine portFallback_change hT ?_

theorem portOff_change {U : List Part} {r0 : State} {p : Nat} {s : State} (hT : ([.regs, .tt, .checks, .flt, .icu, .hep, .wxl, .qen, .ctx, .qaux, .spl, .swc, .ports, .cores, .prl, .out] : List Part) ⊆ U) (hC0 : Change U r0 s) :
    Change U r0 (portOff p s) := by
  unfold portOff
  repeat' first
    | with_reducible exact hC0
    | with_reducible refine Change.ite (fun _ => ?_) (fun _ => ?_)
    | with_reducible refine portLost_change hT ?_

theorem migFence_change {U : List Part} {r0 : State} {p : Nat} {s : State} (hT : ([.regs, .tt, .checks, .flt, .icu, .hep, .wxl, .qen, .ctx, .qaux, .spl, .swc, .ports, .cores, .prl, .out] : List Part) ⊆ U) (hC0 : Change U r0 s) :
    Change U r0 (migFence p s) := by
  unfold migFence
  repeat' first
    | with_reducible exact hC0
    | with_reducible refine Change.ite (fun _ => ?_) (fun _ => ?_)
    | with_reducible refine killOp_change hT ?_
    | with_reducible refine Change.foldl (fun _ _ _ => ?_) ?_
    | with_reducible assumption

theorem staleQueues_change {U : List Part} {r0 : State} {p : Nat} {s : State} (hT : ([.regs, .tt, .checks, .flt, .icu, .hep, .wxl, .qen, .ctx, .qaux, .spl, .swc, .ports, .cores, .prl, .out] : List Part) ⊆ U) (hC0 : Change U r0 s) :
    Change U r0 (staleQueues p s) := by
  have k1 : ([.regs, .tt, .flt, .icu, .hep, .wxl, .ctx, .qaux, .spl, .swc, .ports, .cores, .prl, .out] : List Part) ⊆ U := List.Subset.trans (by decide) hT
  unfold staleQueues
  repeat' first
    | with_reducible exact hC0
    | with_reducible refine Change.ite (fun _ => ?_) (fun _ => ?_)
    | with_reducible refine queueStale_change k1 ?_
    | with_reducible refine qResume_change hT ?_
    | with_reducible refine Change.foldl (fun _ _ _ => ?_) ?_
    | with_reducible assumption

theorem epochChanged_change {U : List Part} {r0 : State} {p : Nat} {epoch : Nat} {s : State} (hT : ([.regs, .tt, .checks, .flt, .icu, .hep, .wxl, .qen, .ctx, .qaux, .spl, .swc, .ports, .cores, .prl, .out] : List Part) ⊆ U) (hC0 : Change U r0 s) :
    Change U r0 (epochChanged p epoch s) := by
  have k1 : ([.regs, .tt, .checks, .flt, .icu, .ports, .prl, .out] : List Part) ⊆ U := List.Subset.trans (by decide) hT
  have k2 : ([.regs, .tt, .flt, .icu, .out] : List Part) ⊆ U := List.Subset.trans (by decide) hT
  have k3 : ([.regs, .tt, .flt, .icu, .wxl, .swc, .out] : List Part) ⊆ U := List.Subset.trans (by decide) hT
  have k4 : ([.regs, .icu, .ports] : List Part) ⊆ U := List.Subset.trans (by decide) hT
  unfold epochChanged
  repeat' first
    | with_reducible exact hC0
    | with_reducible refine Change.ite (fun _ => ?_) (fun _ => ?_)
    | with_reducible refine portFlush_change hT ?_
    | with_reducible refine staleQueues_change hT ?_
    | with_reducible refine pairDetach_change k1 ?_
    | with_reducible refine faultEvent_change k2 ?_
    | with_reducible refine migFence_change hT ?_
    | with_reducible refine wxlFence_change k3 ?_
    | with_reducible refine freshLl_change k4 ?_

theorem sbAnnounce_change {U : List Part} {r0 : State} {p : Nat} {s : State} (hT : ([.ports, .out] : List Part) ⊆ U) (hC0 : Change U r0 s) :
    Change U r0 (sbAnnounce p s) := by
  unfold sbAnnounce
  repeat' first
    | with_reducible exact hC0
    | with_reducible refine Change.ite (fun _ => ?_) (fun _ => ?_)
    | with_reducible refine sendPkt_change hT ?_
    | with_reducible refine Change.foldl (fun _ _ _ => ?_) ?_
    | with_reducible assumption

theorem sbChanges_change {U : List Part} {r0 : State} {p : Nat} {old : Nat} {new : Nat} {s : State} (hT : ([.ports, .out] : List Part) ⊆ U) (hC0 : Change U r0 s) :
    Change U r0 (sbChanges p old new s) := by
  unfold sbChanges
  repeat' first
    | with_reducible exact hC0
    | with_reducible refine Change.ite (fun _ => ?_) (fun _ => ?_)
    | with_reducible refine sendPkt_change hT ?_
    | with_reducible refine Change.foldl (fun _ _ _ => ?_) ?_
    | with_reducible assumption

theorem resend_change {U : List Part} {r0 : State} {p : Nat} {s : State} (hT : ([.out] : List Part) ⊆ U) (hC0 : Change U r0 s) :
    Change U r0 (resend p s) := by
  unfold resend
  repeat' first
    | with_reducible exact hC0
    | with_reducible refine Change.ite (fun _ => ?_) (fun _ => ?_)
    | with_reducible refine State.emit_change hT ?_
    | with_reducible refine Change.foldl (fun _ _ _ => ?_) ?_
    | with_reducible assumption

theorem sbPair_change {U : List Part} {r0 : State} {s : State} (hT : ([.regs, .ports, .out] : List Part) ⊆ U) (hC0 : Change U r0 s) :
    Change U r0 (sbPair s) := by
  have k1 : ([.regs] : List Part) ⊆ U := List.Subset.trans (by decide) hT
  have k2 : ([.ports, .out] : List Part) ⊆ U := List.Subset.trans (by decide) hT
  unfold sbPair
  repeat' first
    | with_reducible exact hC0
    | with_reducible refine Change.ite (fun _ => ?_) (fun _ => ?_)
    | with_reducible refine State.put_change k1 ?_
    | with_reducible refine sbChanges_change k2 ?_
    | with_reducible refine Change.foldl (fun _ _ _ => ?_) ?_
    | with_reducible assumption

end Sys2Proof.Machine
end

