-- ==== Sys2Proof/Laws/HostOps.lean ====
section
/-! SUPPORT. What each operation of Machine/HostOps.lean may change. -/
set_option linter.all false
set_option linter.unusedTactic false
set_option linter.unreachableTactic false

namespace Sys2Proof.Machine

open Sys2Proof

theorem hostRetrain_change {U : List Part} {r0 : State} {s : State} (hT : ([.regs, .hep] : List Part) ⊆ U) (hC0 : Change U r0 s) :
    Change U r0 (hostRetrain s) := by
  have k1 : ([.regs] : List Part) ⊆ U := List.Subset.trans (by decide) hT
  have k2 : ([.hep] : List Part) ⊆ U := List.Subset.trans (by decide) hT
  unfold hostRetrain
  repeat' first
    | with_reducible exact hC0
    | with_reducible refine Change.ite (fun _ => ?_) (fun _ => ?_)
    | with_reducible refine State.bump_change k1 ?_
    | with_reducible refine Change.foldl (fun _ _ _ => ?_) ?_
    | with_reducible assumption
    | split
    | dsimp only
    | with_reducible refine Change.set_hep k2 ?_

theorem State.setMsixE_change {U : List Part} {r0 : State} {s : State} {i : Nat} {e : MsixEnt} (hT : ([.msix] : List Part) ⊆ U) (hC0 : Change U r0 s) :
    Change U r0 (State.setMsixE s i e) := by
  unfold State.setMsixE
  repeat' first
    | with_reducible exact hC0
    | with_reducible refine Change.ite (fun _ => ?_) (fun _ => ?_)
    | with_reducible refine Change.foldl (fun _ _ _ => ?_) ?_
    | with_reducible assumption
    | split
    | dsimp only
    | refine Change.set_msix hT (by first | exact fun c => KMap.wf_set _ _ _ _ c.msix | exact fun c => KMap.wf_filter _ _ _ c.msix | exact fun _ => rfl) ?_

theorem holdEvent_change {U : List Part} {r0 : State} {f : Nat} {v : Nat} {s : State} (hT : ([.icu] : List Part) ⊆ U) (hC0 : Change U r0 s) :
    Change U r0 (holdEvent f v s) := by
  unfold holdEvent
  repeat' first
    | with_reducible exact hC0
    | with_reducible refine Change.ite (fun _ => ?_) (fun _ => ?_)
    | with_reducible refine Change.foldl (fun _ _ _ => ?_) ?_
    | with_reducible assumption
    | split
    | dsimp only
    | with_reducible refine Change.set_icu hT ?_

theorem msgFrame_change {U : List Part} {r0 : State} {f : Nat} {vec : Nat} {addr : Nat} {data : Nat} {msi : Bool} {s : State} (hT : ([.swc] : List Part) ⊆ U) (hC0 : Change U r0 s) :
    Change U r0 (msgFrame f vec addr data msi s) := by
  unfold msgFrame
  repeat' first
    | with_reducible exact hC0
    | with_reducible refine Change.ite (fun _ => ?_) (fun _ => ?_)
    | with_reducible refine State.inject_change hT ?_
    | with_reducible refine Change.foldl (fun _ _ _ => ?_) ?_
    | with_reducible assumption
    | split
    | dsimp only

theorem msiSend_change {U : List Part} {r0 : State} {f : Nat} {m : Nat} {s : State} (hT : ([.fns, .swc] : List Part) ⊆ U) (hC0 : Change U r0 s) :
    Change U r0 (msiSend f m s) := by
  have k1 : ([.swc] : List Part) ⊆ U := List.Subset.trans (by decide) hT
  have k2 : ([.fns] : List Part) ⊆ U := List.Subset.trans (by decide) hT
  unfold msiSend
  repeat' first
    | with_reducible exact hC0
    | with_reducible refine Change.ite (fun _ => ?_) (fun _ => ?_)
    | with_reducible refine msgFrame_change k1 ?_
    | with_reducible refine State.setFn_change k2 ?_
    | with_reducible refine Change.foldl (fun _ _ _ => ?_) ?_
    | with_reducible assumption
    | split
    | dsimp only

theorem intaSync_change {U : List Part} {r0 : State} {s : State} (hT : ([.regs, .icu, .out] : List Part) ⊆ U) (hC0 : Change U r0 s) :
    Change U r0 (intaSync s) := by
  have k1 : ([.regs, .out] : List Part) ⊆ U := List.Subset.trans (by decide) hT
  have k2 : ([.icu] : List Part) ⊆ U := List.Subset.trans (by decide) hT
  unfold intaSync
  repeat' first
    | with_reducible exact hC0
    | with_reducible refine Change.ite (fun _ => ?_) (fun _ => ?_)
    | with_reducible refine hepTlp_change k1 ?_
    | with_reducible refine Change.foldl (fun _ _ _ => ?_) ?_
    | with_reducible assumption
    | split
    | dsimp only
    | with_reducible refine Change.set_icu k2 ?_

theorem intaFall_change {U : List Part} {r0 : State} {s : State} (hT : ([.regs, .icu, .out] : List Part) ⊆ U) (hC0 : Change U r0 s) :
    Change U r0 (intaFall s) := by
  unfold intaFall
  repeat' first
    | with_reducible exact hC0
    | with_reducible refine Change.ite (fun _ => ?_) (fun _ => ?_)
    | with_reducible refine intaSync_change hT ?_
    | with_reducible refine Change.foldl (fun _ _ _ => ?_) ?_
    | with_reducible assumption
    | split
    | dsimp only

theorem intaHold_change {U : List Part} {r0 : State} {v : Nat} {s : State} (hT : ([.icu] : List Part) ⊆ U) (hC0 : Change U r0 s) :
    Change U r0 (intaHold v s) := by
  unfold intaHold
  repeat' first
    | with_reducible exact hC0
    | with_reducible refine Change.ite (fun _ => ?_) (fun _ => ?_)
    | with_reducible refine Change.foldl (fun _ _ _ => ?_) ?_
    | with_reducible assumption
    | split
    | dsimp only
    | with_reducible refine Change.set_icu hT ?_

theorem hpDeliver_change {U : List Part} {r0 : State} {e : HpEvent} {s : State} (hT : ([.regs, .icu, .fns, .msix, .swc, .out] : List Part) ⊆ U) (hC0 : Change U r0 s) :
    Change U r0 (hpDeliver e s) := by
  have k1 : ([.msix] : List Part) ⊆ U := List.Subset.trans (by decide) hT
  have k2 : ([.icu] : List Part) ⊆ U := List.Subset.trans (by decide) hT
  have k3 : ([.fns, .swc] : List Part) ⊆ U := List.Subset.trans (by decide) hT
  have k4 : ([.regs, .icu, .out] : List Part) ⊆ U := List.Subset.trans (by decide) hT
  unfold hpDeliver
  repeat' first
    | with_reducible exact hC0
    | with_reducible refine Change.ite (fun _ => ?_) (fun _ => ?_)
    | with_reducible refine State.setMsixE_change k1 ?_
    | with_reducible refine intaHold_change k2 ?_
    | with_reducible refine holdEvent_change k2 ?_
    | with_reducible refine msiSend_change k3 ?_
    | with_reducible refine intaSync_change k4 ?_
    | with_reducible refine Change.foldl (fun _ _ _ => ?_) ?_
    | with_reducible assumption
    | split
    | dsimp only
    | with_reducible refine Change.set_icu k2 ?_

theorem redeliver_change {U : List Part} {r0 : State} {f : Nat} {s : State} (hT : ([.regs, .icu, .fns, .msix, .swc, .out] : List Part) ⊆ U) (hC0 : Change U r0 s) :
    Change U r0 (redeliver f s) := by
  have k1 : ([.icu] : List Part) ⊆ U := List.Subset.trans (by decide) hT
  unfold redeliver
  repeat' first
    | with_reducible exact hC0
    | with_reducible refine Change.ite (fun _ => ?_) (fun _ => ?_)
    | with_reducible refine hpDeliver_change hT ?_
    | with_reducible refine Change.foldl (fun _ _ _ => ?_) ?_
    | with_reducible assumption
    | split
    | dsimp only
    | with_reducible refine Change.set_icu k1 ?_

theorem msixPendGo_change {U : List Part} {r0 : State} {f : Nat} {s : State} (hT : ([.icu] : List Part) ⊆ U) (hC0 : Change U r0 s) :
    Change U r0 (msixPendGo f s) := by
  unfold msixPendGo
  repeat' first
    | with_reducible exact hC0
    | with_reducible refine Change.ite (fun _ => ?_) (fun _ => ?_)
    | with_reducible refine Change.foldl (fun _ _ _ => ?_) ?_
    | with_reducible assumption
    | split
    | dsimp only
    | with_reducible refine Change.set_icu hT ?_

theorem msiPendGo_change {U : List Part} {r0 : State} {f : Nat} {s : State} (hT : ([.fns, .swc] : List Part) ⊆ U) (hC0 : Change U r0 s) :
    Change U r0 (msiPendGo f s) := by
  unfold msiPendGo
  repeat' first
    | with_reducible exact hC0
    | with_reducible refine Change.ite (fun _ => ?_) (fun _ => ?_)
    | with_reducible refine msiSend_change hT ?_
    | with_reducible refine Change.foldl (fun _ _ _ => ?_) ?_
    | with_reducible assumption
    | split
    | dsimp only

theorem fnGo_change {U : List Part} {r0 : State} {f : Nat} {s : State} (hT : ([.regs, .icu, .fns, .msix, .hep, .swc, .out] : List Part) ⊆ U) (hC0 : Change U r0 s) :
    Change U r0 (fnGo f s) := by
  have k1 : ([.swc] : List Part) ⊆ U := List.Subset.trans (by decide) hT
  have k2 : ([.icu] : List Part) ⊆ U := List.Subset.trans (by decide) hT
  have k3 : ([.regs, .icu, .fns, .msix, .swc, .out] : List Part) ⊆ U := List.Subset.trans (by decide) hT
  have k4 : ([.fns, .swc] : List Part) ⊆ U := List.Subset.trans (by decide) hT
  have k5 : ([.hep] : List Part) ⊆ U := List.Subset.trans (by decide) hT
  unfold fnGo
  repeat' first
    | with_reducible exact hC0
    | with_reducible refine Change.ite (fun _ => ?_) (fun _ => ?_)
    | with_reducible refine State.inject_change k1 ?_
    | with_reducible refine msixPendGo_change k2 ?_
    | with_reducible refine redeliver_change k3 ?_
    | with_reducible refine msiPendGo_change k4 ?_
    | with_reducible refine Change.foldl (fun _ _ _ => ?_) ?_
    | with_reducible assumption
    | split
    | dsimp only
    | with_reducible refine Change.set_hep k5 ?_

theorem pullFrames_change {U : List Part} {r0 : State} {p : Frame → Bool} {s : State} (hT : ([.hep, .swc] : List Part) ⊆ U) (hC0 : Change U r0 s) :
    Change U r0 (pullFrames p s).1 := by
  have k1 : ([.swc] : List Part) ⊆ U := List.Subset.trans (by decide) hT
  have k2 : ([.hep] : List Part) ⊆ U := List.Subset.trans (by decide) hT
  unfold pullFrames
  repeat' first
    | with_reducible exact hC0
    | with_reducible refine Change.ite (fun _ => ?_) (fun _ => ?_)
    | with_reducible refine Change.foldl (fun _ _ _ => ?_) ?_
    | with_reducible refine Change.foldl_fst (fun _ _ _ => ?_) ?_
    | with_reducible refine Change.ite_fst (fun _ => ?_) (fun _ => ?_)
    | with_reducible assumption
    | split
    | dsimp only
    | with_reducible refine Change.set_hep_swc hT ?_
    | with_reducible refine Change.set_swc k1 ?_
    | with_reducible refine Change.set_hep k2 ?_

theorem unsent_change {U : List Part} {r0 : State} {g : Frame} {s : State} (hT : ([.regs, .tt, .flt, .icu, .fns, .hep, .wxl, .qaux, .swc, .ports, .cores, .out] : List Part) ⊆ U) (hC0 : Change U r0 s) :
    Change U r0 (unsent g s) := by
  have k1 : ([.qaux] : List Part) ⊆ U := List.Subset.trans (by decide) hT
  have k2 : ([.regs, .tt, .flt, .icu, .wxl, .qaux, .swc, .ports, .cores, .out] : List Part) ⊆ U := List.Subset.trans (by decide) hT
  have k3 : ([.icu] : List Part) ⊆ U := List.Subset.trans (by decide) hT
  have k4 : ([.regs, .wxl, .qaux] : List Part) ⊆ U := List.Subset.trans (by decide) hT
  have k5 : ([.fns] : List Part) ⊆ U := List.Subset.trans (by decide) hT
  have k6 : ([.hep] : List Part) ⊆ U := List.Subset.trans (by decide) hT
  unfold unsent
  repeat' first
    | with_reducible exact hC0
    | with_reducible refine Change.ite (fun _ => ?_) (fun _ => ?_)
    | with_reducible refine State.setQa_change k1 ?_
    | with_reducible refine wxlRefuse_change k2 ?_
    | with_reducible refine holdEvent_change k3 ?_
    | with_reducible refine failWrite_change k4 ?_
    | with_reducible refine State.setFn_change k5 ?_
    | with_reducible refine Change.foldl (fun _ _ _ => ?_) ?_
    | with_reducible assumption
    | split
    | dsimp only
    | with_reducible refine Change.set_hep k6 ?_

theorem stepCutEnd_change {U : List Part} {r0 : State} {q : Nat} {s : State} (hT : ([.qaux] : List Part) ⊆ U) (hC0 : Change U r0 s) :
    Change U r0 (stepCutEnd q s) := by
  unfold stepCutEnd
  repeat' first
    | with_reducible exact hC0
    | with_reducible refine Change.ite (fun _ => ?_) (fun _ => ?_)
    | with_reducible refine State.setQa_change hT ?_
    | with_reducible refine Change.foldl (fun _ _ _ => ?_) ?_
    | with_reducible assumption
    | split
    | dsimp only

theorem fnStop_change {U : List Part} {r0 : State} {f : Nat} {s : State} (hT : ([.regs, .tt, .checks, .flt, .icu, .fns, .hep, .wxl, .qen, .ctx, .qaux, .spl, .swc, .ports, .cores, .prl, .out] : List Part) ⊆ U) (hC0 : Change U r0 s) :
    Change U r0 (fnStop f s) := by
  have k1 : ([.qaux] : List Part) ⊆ U := List.Subset.trans (by decide) hT
  have k2 : ([.regs, .tt, .flt, .icu, .fns, .hep, .wxl, .qaux, .swc, .ports, .cores, .out] : List Part) ⊆ U := List.Subset.trans (by decide) hT
  have k3 : ([.regs, .tt, .checks, .flt, .icu, .hep, .wxl, .qen, .ctx, .qaux, .spl, .swc, .ports, .cores, .prl, .out] : List Part) ⊆ U := List.Subset.trans (by decide) hT
  have k4 : ([.hep, .swc] : List Part) ⊆ U := List.Subset.trans (by decide) hT
  have k5 : ([.regs, .tt, .flt, .icu, .hep, .wxl, .ctx, .qaux, .spl, .swc, .ports, .cores, .prl, .out] : List Part) ⊆ U := List.Subset.trans (by decide) hT
  unfold fnStop
  repeat' first
    | with_reducible exact hC0
    | with_reducible refine Change.ite (fun _ => ?_) (fun _ => ?_)
    | with_reducible refine stepCutEnd_change k1 ?_
    | with_reducible refine unsent_change k2 ?_
    | with_reducible refine qResume_change k3 ?_
    | with_reducible refine pullFrames_change k4 ?_
    | (refine Change.of_pair (by assumption) ?_; with_reducible refine pullFrames_change k4 ?_)
    | with_reducible refine stopQueue_change k5 ?_
    | with_reducible refine Change.foldl (fun _ _ _ => ?_) ?_
    | with_reducible refine Change.foldl_fst (fun _ _ _ => ?_) ?_
    | with_reducible refine Change.ite_fst (fun _ => ?_) (fun _ => ?_)
    | with_reducible assumption
    | split
    | dsimp only

theorem tagPeak_change {U : List Part} {r0 : State} {s : State} (hT : ([.regs] : List Part) ⊆ U) (hC0 : Change U r0 s) :
    Change U r0 (tagPeak s) := by
  unfold tagPeak
  repeat' first
    | with_reducible exact hC0
    | with_reducible refine Change.ite (fun _ => ?_) (fun _ => ?_)
    | with_reducible refine State.peak_change hT ?_
    | with_reducible refine Change.foldl (fun _ _ _ => ?_) ?_
    | with_reducible assumption
    | split
    | dsimp only

theorem setTag_change {U : List Part} {r0 : State} {e : TagEnt} {s : State} (hT : ([.hep] : List Part) ⊆ U) (hC0 : Change U r0 s) :
    Change U r0 (setTag e s) := by
  unfold setTag
  repeat' first
    | with_reducible exact hC0
    | with_reducible refine Change.ite (fun _ => ?_) (fun _ => ?_)
    | with_reducible refine Change.foldl (fun _ _ _ => ?_) ?_
    | with_reducible assumption
    | split
    | dsimp only
    | with_reducible refine Change.set_hep hT ?_

theorem dropTag_change {U : List Part} {r0 : State} {e : TagEnt} {s : State} (hT : ([.hep] : List Part) ⊆ U) (hC0 : Change U r0 s) :
    Change U r0 (dropTag e s) := by
  unfold dropTag
  repeat' first
    | with_reducible exact hC0
    | with_reducible refine Change.ite (fun _ => ?_) (fun _ => ?_)
    | with_reducible refine Change.foldl (fun _ _ _ => ?_) ?_
    | with_reducible assumption
    | split
    | dsimp only
    | with_reducible refine Change.set_hep hT ?_

theorem flrHeld_change {U : List Part} {r0 : State} {f : Nat} {s : State} (hT : ([.regs, .hep, .swc, .ports, .out] : List Part) ⊆ U) (hC0 : Change U r0 s) :
    Change U r0 (flrHeld f s) := by
  have k1 : ([.ports] : List Part) ⊆ U := List.Subset.trans (by decide) hT
  have k2 : ([.regs, .out] : List Part) ⊆ U := List.Subset.trans (by decide) hT
  have k3 : ([.hep, .swc] : List Part) ⊆ U := List.Subset.trans (by decide) hT
  unfold flrHeld
  repeat' first
    | with_reducible exact hC0
    | with_reducible refine Change.ite (fun _ => ?_) (fun _ => ?_)
    | with_reducible refine State.modPort_change k1 ?_
    | with_reducible refine hostDone_change k2 ?_
    | with_reducible refine pullFrames_change k3 ?_
    | (refine Change.of_pair (by assumption) ?_; with_reducible refine pullFrames_change k3 ?_)
    | with_reducible refine Change.foldl (fun _ _ _ => ?_) ?_
    | with_reducible refine Change.foldl_fst (fun _ _ _ => ?_) ?_
    | with_reducible refine Change.ite_fst (fun _ => ?_) (fun _ => ?_)
    | with_reducible assumption
    | split
    | dsimp only

theorem flrTags_change {U : List Part} {r0 : State} {f : Nat} {s : State} (hT : ([.regs, .fns, .hep, .wxl, .qaux, .swc, .ports, .cores, .out] : List Part) ⊆ U) (hC0 : Change U r0 s) :
    Change U r0 (flrTags f s) := by
  have k1 : ([.qaux] : List Part) ⊆ U := List.Subset.trans (by decide) hT
  have k2 : ([.regs, .wxl, .qaux, .swc, .cores, .out] : List Part) ⊆ U := List.Subset.trans (by decide) hT
  have k3 : ([.ports, .out] : List Part) ⊆ U := List.Subset.trans (by decide) hT
  have k4 : ([.fns] : List Part) ⊆ U := List.Subset.trans (by decide) hT
  have k5 : ([.hep] : List Part) ⊆ U := List.Subset.trans (by decide) hT
  unfold flrTags
  repeat' first
    | with_reducible exact hC0
    | with_reducible refine Change.ite (fun _ => ?_) (fun _ => ?_)
    | with_reducible refine State.setQa_change k1 ?_
    | with_reducible refine failReadOne_change k2 ?_
    | with_reducible refine stepCut_change k1 ?_
    | with_reducible refine errPkt_change k3 ?_
    | with_reducible refine State.setFn_change k4 ?_
    | with_reducible refine Change.foldl (fun _ _ _ => ?_) ?_
    | with_reducible assumption
    | split
    | dsimp only
    | with_reducible refine Change.set_hep k5 ?_

theorem flrQueue_change {U : List Part} {r0 : State} {q : Nat} {s : State} (hT : ([.regs, .tt, .flt, .icu, .hep, .wxl, .qaux, .spl, .swc, .ports, .cores, .out] : List Part) ⊆ U) (hC0 : Change U r0 s) :
    Change U r0 (flrQueue q s) := by
  have k1 : ([.regs, .spl] : List Part) ⊆ U := List.Subset.trans (by decide) hT
  have k2 : ([.qaux] : List Part) ⊆ U := List.Subset.trans (by decide) hT
  have k3 : ([.regs, .tt, .flt, .icu, .hep, .wxl, .qaux, .swc, .ports, .cores, .out] : List Part) ⊆ U := List.Subset.trans (by decide) hT
  have k4 : ([.spl] : List Part) ⊆ U := List.Subset.trans (by decide) hT
  unfold flrQueue
  repeat' first
    | with_reducible exact hC0
    | with_reducible refine Change.ite (fun _ => ?_) (fun _ => ?_)
    | with_reducible refine returnUnstarted_change k1 ?_
    | with_reducible refine State.setQa_change k2 ?_
    | with_reducible refine dropFetched_change k2 ?_
    | with_reducible refine migEnd_change k3 ?_
    | with_reducible refine dropRels_change k4 ?_
    | with_reducible refine nextGen_change k3 ?_
    | with_reducible refine Change.foldl (fun _ _ _ => ?_) ?_
    | with_reducible assumption
    | split
    | dsimp only

theorem flrBegin_change {U : List Part} {r0 : State} {f : Nat} {s : State} (hT : ([.regs, .tt, .flt, .icu, .fns, .hep, .wxl, .qaux, .spl, .swc, .ports, .cores, .out] : List Part) ⊆ U) (hC0 : Change U r0 s) :
    Change U r0 (flrBegin f s) := by
  have k1 : ([.regs, .tt, .flt, .icu, .hep, .wxl, .qaux, .spl, .swc, .ports, .cores, .out] : List Part) ⊆ U := List.Subset.trans (by decide) hT
  have k2 : ([.qaux] : List Part) ⊆ U := List.Subset.trans (by decide) hT
  have k3 : ([.regs, .wxl, .qaux, .swc, .cores, .out] : List Part) ⊆ U := List.Subset.trans (by decide) hT
  have k4 : ([.hep, .swc] : List Part) ⊆ U := List.Subset.trans (by decide) hT
  have k5 : ([.regs, .hep, .swc, .ports, .out] : List Part) ⊆ U := List.Subset.trans (by decide) hT
  have k6 : ([.regs, .fns, .hep, .wxl, .qaux, .swc, .ports, .cores, .out] : List Part) ⊆ U := List.Subset.trans (by decide) hT
  have k7 : ([.ports, .out] : List Part) ⊆ U := List.Subset.trans (by decide) hT
  have k8 : ([.regs, .icu] : List Part) ⊆ U := List.Subset.trans (by decide) hT
  have k9 : ([.fns] : List Part) ⊆ U := List.Subset.trans (by decide) hT
  have k10 : ([.hep] : List Part) ⊆ U := List.Subset.trans (by decide) hT
  unfold flrBegin
  repeat' first
    | with_reducible exact hC0
    | with_reducible refine Change.ite (fun _ => ?_) (fun _ => ?_)
    | with_reducible refine flrQueue_change k1 ?_
    | with_reducible refine State.setQa_change k2 ?_
    | with_reducible refine failAccess_change k3 ?_
    | with_reducible refine stepCut_change k2 ?_
    | with_reducible refine pullFrames_change k4 ?_
    | (refine Change.of_pair (by assumption) ?_; with_reducible refine pullFrames_change k4 ?_)
    | with_reducible refine flrHeld_change k5 ?_
    | with_reducible refine flrTags_change k6 ?_
    | with_reducible refine errPkt_change k7 ?_
    | with_reducible refine icuTargetOff_change k8 ?_
    | with_reducible refine State.setFn_change k9 ?_
    | with_reducible refine Change.foldl (fun _ _ _ => ?_) ?_
    | with_reducible refine Change.foldl_fst (fun _ _ _ => ?_) ?_
    | with_reducible refine Change.ite_fst (fun _ => ?_) (fun _ => ?_)
    | with_reducible assumption
    | split
    | dsimp only
    | with_reducible refine Change.set_hep k10 ?_

theorem winImage_change {U : List Part} {r0 : State} {off : Nat} {ctl : Bool} {s : State} (hT : ([.regs] : List Part) ⊆ U) (hC0 : Change U r0 s) :
    Change U r0 (winImage off ctl s) := by
  unfold winImage
  repeat' first
    | with_reducible exact hC0
    | with_reducible refine Change.ite (fun _ => ?_) (fun _ => ?_)
    | with_reducible refine State.setReg_change hT ?_
    | with_reducible refine Change.foldl (fun _ _ _ => ?_) ?_
    | with_reducible assumption
    | split
    | dsimp only

theorem flrWindows_change {U : List Part} {r0 : State} {f : Nat} {s : State} (hT : ([.regs, .tt, .flt, .icu, .wxl, .swc, .out] : List Part) ⊆ U) (hC0 : Change U r0 s) :
    Change U r0 (flrWindows f s) := by
  have k1 : ([.regs] : List Part) ⊆ U := List.Subset.trans (by decide) hT
  unfold flrWindows
  repeat' first
    | with_reducible exact hC0
    | with_reducible refine Change.ite (fun _ => ?_) (fun _ => ?_)
    | with_reducible refine winImage_change k1 ?_
    | with_reducible refine pfDiscard_change hT ?_
    | with_reducible refine Change.foldl (fun _ _ _ => ?_) ?_
    | with_reducible assumption
    | split
    | dsimp only

theorem flrMsix_change {U : List Part} {r0 : State} {f : Nat} {s : State} (hT : ([.regs, .icu, .msix, .out] : List Part) ⊆ U) (hC0 : Change U r0 s) :
    Change U r0 (flrMsix f s) := by
  have k1 : ([.regs, .icu, .out] : List Part) ⊆ U := List.Subset.trans (by decide) hT
  have k2 : ([.icu, .msix] : List Part) ⊆ U := List.Subset.trans (by decide) hT
  have k3 : ([.icu] : List Part) ⊆ U := List.Subset.trans (by decide) hT
  have k4 : ([.msix] : List Part) ⊆ U := List.Subset.trans (by decide) hT
  unfold flrMsix
  repeat' first
    | with_reducible exact hC0
    | with_reducible refine Change.ite (fun _ => ?_) (fun _ => ?_)
    | with_reducible refine intaSync_change k1 ?_
    | with_reducible refine Change.foldl (fun _ _ _ => ?_) ?_
    | with_reducible assumption
    | split
    | dsimp only
    | refine Change.set_icu_msix k2 (by first | exact fun c => KMap.wf_set _ _ _ _ c.msix | exact fun c => KMap.wf_filter _ _ _ c.msix | exact fun _ => rfl) ?_
    | with_reducible refine Change.set_icu k3 ?_
    | refine Change.set_msix k4 (by first | exact fun c => KMap.wf_set _ _ _ _ c.msix | exact fun c => KMap.wf_filter _ _ _ c.msix | exact fun _ => rfl) ?_

theorem flrFinish_change {U : List Part} {r0 : State} {f : Nat} {s : State} (hT : ([.regs, .tt, .checks, .flt, .icu, .fns, .msix, .hep, .wxl, .qen, .ctx, .qaux, .spl, .swc, .ports, .cores, .prl, .out] : List Part) ⊆ U) (hC0 : Change U r0 s) :
    Change U r0 (flrFinish f s) := by
  have k1 : ([.regs, .tt, .flt, .icu, .wxl, .swc, .out] : List Part) ⊆ U := List.Subset.trans (by decide) hT
  have k2 : ([.regs, .tt, .checks, .flt, .icu, .hep, .wxl, .qen, .ctx, .qaux, .spl, .swc, .ports, .cores, .prl, .out] : List Part) ⊆ U := List.Subset.trans (by decide) hT
  have k3 : ([.regs, .tt, .flt, .icu, .hep, .wxl, .ctx, .qaux, .spl, .swc, .ports, .cores, .prl, .out] : List Part) ⊆ U := List.Subset.trans (by decide) hT
  have k4 : ([.regs, .icu, .msix, .out] : List Part) ⊆ U := List.Subset.trans (by decide) hT
  have k5 : ([.regs] : List Part) ⊆ U := List.Subset.trans (by decide) hT
  have k6 : ([.regs, .qaux] : List Part) ⊆ U := List.Subset.trans (by decide) hT
  have k7 : ([.fns] : List Part) ⊆ U := List.Subset.trans (by decide) hT
  have k8 : ([.wxl] : List Part) ⊆ U := List.Subset.trans (by decide) hT
  unfold flrFinish
  repeat' first
    | with_reducible exact hC0
    | with_reducible refine Change.ite (fun _ => ?_) (fun _ => ?_)
    | with_reducible refine flrWindows_change k1 ?_
    | with_reducible refine qResume_change k2 ?_
    | with_reducible refine wipeQueue_change k3 ?_
    | with_reducible refine flrMsix_change k4 ?_
    | with_reducible refine State.put_change k5 ?_
    | with_reducible refine cmdFree_change k6 ?_
    | with_reducible refine State.setFn_change k7 ?_
    | with_reducible refine Change.foldl (fun _ _ _ => ?_) ?_
    | with_reducible assumption
    | split
    | dsimp only
    | with_reducible refine Change.set_wxl k8 ?_

theorem vfsRemove_change {U : List Part} {r0 : State} {p : Nat} {s : State} (hT : ([.regs, .tt, .checks, .flt, .icu, .fns, .msix, .hep, .wxl, .qen, .ctx, .qaux, .spl, .swc, .ports, .cores, .prl, .out] : List Part) ⊆ U) (hC0 : Change U r0 s) :
    Change U r0 (vfsRemove p s) := by
  have k1 : ([.regs, .tt, .flt, .icu, .fns, .hep, .wxl, .qaux, .spl, .swc, .ports, .cores, .out] : List Part) ⊆ U := List.Subset.trans (by decide) hT
  have k2 : ([.regs, .icu] : List Part) ⊆ U := List.Subset.trans (by decide) hT
  have k3 : ([.fns] : List Part) ⊆ U := List.Subset.trans (by decide) hT
  unfold vfsRemove
  repeat' first
    | with_reducible exact hC0
    | with_reducible refine Change.ite (fun _ => ?_) (fun _ => ?_)
    | with_reducible refine flrBegin_change k1 ?_
    | with_reducible refine flrFinish_change hT ?_
    | with_reducible refine icuTargetOff_change k2 ?_
    | with_reducible refine State.setFn_change k3 ?_
    | with_reducible refine Change.foldl (fun _ _ _ => ?_) ?_
    | with_reducible assumption
    | split
    | dsimp only

theorem dlFail_change {U : List Part} {r0 : State} {paired : Bool} {o : Origin} {s : State} (hT : ([.regs, .tt, .flt, .icu, .hep, .wxl, .qaux, .spl, .swc, .ports, .cores, .out] : List Part) ⊆ U) (hC0 : Change U r0 s) :
    Change U r0 (dlFail paired o s) := by
  have k1 : ([.regs, .spl] : List Part) ⊆ U := List.Subset.trans (by decide) hT
  have k2 : ([.qaux] : List Part) ⊆ U := List.Subset.trans (by decide) hT
  have k3 : ([.regs, .wxl, .qaux, .swc, .cores, .out] : List Part) ⊆ U := List.Subset.trans (by decide) hT
  have k4 : ([.spl] : List Part) ⊆ U := List.Subset.trans (by decide) hT
  have k5 : ([.regs, .tt, .flt, .icu, .hep, .wxl, .qaux, .swc, .ports, .cores, .out] : List Part) ⊆ U := List.Subset.trans (by decide) hT
  unfold dlFail
  repeat' first
    | with_reducible exact hC0
    | with_reducible refine Change.ite (fun _ => ?_) (fun _ => ?_)
    | with_reducible refine returnUnstarted_change k1 ?_
    | with_reducible refine State.setQa_change k2 ?_
    | with_reducible refine failRead_change k3 ?_
    | with_reducible refine dropRels_change k4 ?_
    | with_reducible refine nextGen_change k5 ?_
    | with_reducible refine Change.foldl (fun _ _ _ => ?_) ?_
    | with_reducible assumption
    | split
    | dsimp only

theorem dlTags_change {U : List Part} {r0 : State} {paired : Bool} {s : State} (hT : ([.regs, .tt, .flt, .icu, .hep, .wxl, .qaux, .spl, .swc, .ports, .cores, .out] : List Part) ⊆ U) (hC0 : Change U r0 s) :
    Change U r0 (dlTags paired s) := by
  have k1 : ([.regs] : List Part) ⊆ U := List.Subset.trans (by decide) hT
  have k2 : ([.hep] : List Part) ⊆ U := List.Subset.trans (by decide) hT
  unfold dlTags
  repeat' first
    | with_reducible exact hC0
    | with_reducible refine Change.ite (fun _ => ?_) (fun _ => ?_)
    | with_reducible refine dlFail_change hT ?_
    | with_reducible refine State.put_change k1 ?_
    | with_reducible refine Change.foldl (fun _ _ _ => ?_) ?_
    | with_reducible assumption
    | split
    | dsimp only
    | with_reducible refine Change.set_hep k2 ?_

theorem dlPrefetch_change {U : List Part} {r0 : State} {f : Frame} {s : State} (hT : ([.regs, .wxl, .qaux, .swc, .cores, .out] : List Part) ⊆ U) (hC0 : Change U r0 s) :
    Change U r0 (dlPrefetch f s) := by
  unfold dlPrefetch
  repeat' first
    | with_reducible exact hC0
    | with_reducible refine Change.ite (fun _ => ?_) (fun _ => ?_)
    | with_reducible refine failReadOne_change hT ?_
    | with_reducible refine Change.foldl (fun _ _ _ => ?_) ?_
    | with_reducible assumption
    | split
    | dsimp only

theorem dlFlush_change {U : List Part} {r0 : State} {paired : Bool} {s : State} (hT : ([.regs, .tt, .flt, .icu, .hep, .wxl, .qaux, .spl, .swc, .ports, .cores, .out] : List Part) ⊆ U) (hC0 : Change U r0 s) :
    Change U r0 (dlFlush paired s) := by
  have k1 : ([.regs] : List Part) ⊆ U := List.Subset.trans (by decide) hT
  have k2 : ([.regs, .tt, .flt, .icu, .qaux, .swc, .out] : List Part) ⊆ U := List.Subset.trans (by decide) hT
  have k3 : ([.regs, .wxl, .qaux, .swc, .cores, .out] : List Part) ⊆ U := List.Subset.trans (by decide) hT
  have k4 : ([.qaux] : List Part) ⊆ U := List.Subset.trans (by decide) hT
  have k5 : ([.regs, .wxl, .qaux] : List Part) ⊆ U := List.Subset.trans (by decide) hT
  have k6 : ([.hep, .swc] : List Part) ⊆ U := List.Subset.trans (by decide) hT
  have k7 : ([.swc] : List Part) ⊆ U := List.Subset.trans (by decide) hT
  have k8 : ([.hep] : List Part) ⊆ U := List.Subset.trans (by decide) hT
  unfold dlFlush
  repeat' first
    | with_reducible exact hC0
    | with_reducible refine Change.ite (fun _ => ?_) (fun _ => ?_)
    | with_reducible refine State.setOut_change k1 ?_
    | with_reducible refine dlFail_change hT ?_
    | with_reducible refine swcFlush_change k2 ?_
    | (refine Change.of_pair (by assumption) ?_; with_reducible refine swcFlush_change k2 ?_)
    | with_reducible refine dlPrefetch_change k3 ?_
    | with_reducible refine mcOver_change k4 ?_
    | with_reducible refine failWrite_change k5 ?_
    | with_reducible refine Change.foldl (fun _ _ _ => ?_) ?_
    | with_reducible refine Change.foldl_fst (fun _ _ _ => ?_) ?_
    | with_reducible refine Change.ite_fst (fun _ => ?_) (fun _ => ?_)
    | with_reducible assumption
    | split
    | dsimp only
    | with_reducible refine Change.set_hep_swc k6 ?_
    | with_reducible refine Change.set_swc k7 ?_
    | with_reducible refine Change.set_hep k8 ?_

theorem dlConfig_change {U : List Part} {r0 : State} {s : State} (hT : ([.fns] : List Part) ⊆ U) (hC0 : Change U r0 s) :
    Change U r0 (dlConfig s) := by
  unfold dlConfig
  repeat' first
    | with_reducible exact hC0
    | with_reducible refine Change.ite (fun _ => ?_) (fun _ => ?_)
    | with_reducible refine Change.foldl (fun _ _ _ => ?_) ?_
    | with_reducible assumption
    | split
    | dsimp only
    | refine Change.set_fns hT (by first | exact fun c => KMap.wf_set _ _ _ _ c.fns | exact fun c => KMap.wf_filter _ _ _ c.fns | exact fun _ => rfl) ?_

end Sys2Proof.Machine
end

