-- ==== Sys2Proof/Laws/ModeOps.lean ====
section
/-! SUPPORT. What each operation of Machine/ModeOps.lean may change. -/
set_option linter.all false
set_option linter.unusedTactic false
set_option linter.unreachableTactic false

namespace Sys2Proof.Machine

open Sys2Proof

theorem State.setMbox_change {U : List Part} {r0 : State} {s : State} {c : Nat} {i : Nat} {e : MboxEnt} (hT : ([.cores] : List Part) ⊆ U) (hC0 : Change U r0 s) :
    Change U r0 (State.setMbox s c i e) := by
  unfold State.setMbox
  repeat' first
    | with_reducible exact hC0
    | with_reducible refine Change.ite (fun _ => ?_) (fun _ => ?_)
    | with_reducible refine State.setCore_change hT ?_
    | with_reducible refine Change.foldl (fun _ _ _ => ?_) ?_
    | with_reducible assumption
    | split
    | dsimp only

theorem mboxSync_change {U : List Part} {r0 : State} {c : Nat} {s : State} (hT : ([.regs, .tt, .flt, .icu, .out] : List Part) ⊆ U) (hC0 : Change U r0 s) :
    Change U r0 (mboxSync c s) := by
  have k1 : ([.regs] : List Part) ⊆ U := List.Subset.trans (by decide) hT
  unfold mboxSync
  repeat' first
    | with_reducible exact hC0
    | with_reducible refine Change.ite (fun _ => ?_) (fun _ => ?_)
    | with_reducible refine State.put_change k1 ?_
    | with_reducible refine icuLevel_change hT ?_
    | with_reducible refine Change.foldl (fun _ _ _ => ?_) ?_
    | with_reducible assumption
    | split
    | dsimp only

theorem mboxDone_change {U : List Part} {r0 : State} {c : Nat} {i : Nat} {st : Nat} {steps : Nat} {bytes : Nat} {s : State} (hT : ([.regs, .tt, .checks, .flt, .icu, .hep, .wxl, .qen, .ctx, .qaux, .spl, .swc, .ports, .cores, .prl, .out] : List Part) ⊆ U) (hC0 : Change U r0 s) :
    Change U r0 (mboxDone c i st steps bytes s) := by
  have k1 : ([.regs] : List Part) ⊆ U := List.Subset.trans (by decide) hT
  have k2 : ([.regs, .tt, .flt, .icu, .out] : List Part) ⊆ U := List.Subset.trans (by decide) hT
  have k3 : ([.regs, .tt, .flt, .icu, .hep, .wxl, .qen, .ctx, .qaux, .spl, .swc, .ports, .cores, .prl, .out] : List Part) ⊆ U := List.Subset.trans (by decide) hT
  have k4 : ([.cores] : List Part) ⊆ U := List.Subset.trans (by decide) hT
  unfold mboxDone
  repeat' first
    | with_reducible exact hC0
    | with_reducible refine Change.ite (fun _ => ?_) (fun _ => ?_)
    | with_reducible refine State.bump_change k1 ?_
    | with_reducible refine mboxSync_change k2 ?_
    | with_reducible refine endOp_change k3 ?_
    | with_reducible refine State.setMbox_change k4 ?_
    | with_reducible refine qResume_change hT ?_
    | with_reducible refine Change.foldl (fun _ _ _ => ?_) ?_
    | with_reducible assumption
    | split
    | dsimp only

theorem mboxAbortAll_change {U : List Part} {r0 : State} {c : Nat} {s : State} (hT : ([.regs, .tt, .checks, .flt, .icu, .hep, .wxl, .qen, .ctx, .qaux, .spl, .swc, .ports, .cores, .prl, .out] : List Part) ⊆ U) (hC0 : Change U r0 s) :
    Change U r0 (mboxAbortAll c s) := by
  have k1 : ([.regs, .tt, .flt, .icu, .out] : List Part) ⊆ U := List.Subset.trans (by decide) hT
  have k2 : ([.cores] : List Part) ⊆ U := List.Subset.trans (by decide) hT
  unfold mboxAbortAll
  repeat' first
    | with_reducible exact hC0
    | with_reducible refine Change.ite (fun _ => ?_) (fun _ => ?_)
    | with_reducible refine mboxSync_change k1 ?_
    | with_reducible refine mboxDone_change hT ?_
    | with_reducible refine State.setCore_change k2 ?_
    | with_reducible refine Change.foldl (fun _ _ _ => ?_) ?_
    | with_reducible assumption
    | split
    | dsimp only

theorem coreLeave_change {U : List Part} {r0 : State} {c : Nat} {st : Nat} {reason : Nat} {s : State} (hT : ([.regs, .tt, .checks, .flt, .icu, .hep, .wxl, .qen, .ctx, .qaux, .spl, .swc, .ports, .cores, .prl, .out] : List Part) ⊆ U) (hC0 : Change U r0 s) :
    Change U r0 (coreLeave c st reason s) := by
  have k1 : ([.regs, .tt, .flt, .icu, .out] : List Part) ⊆ U := List.Subset.trans (by decide) hT
  have k2 : ([.regs] : List Part) ⊆ U := List.Subset.trans (by decide) hT
  have k3 : ([.cores] : List Part) ⊆ U := List.Subset.trans (by decide) hT
  have k4 : ([.regs, .icu] : List Part) ⊆ U := List.Subset.trans (by decide) hT
  unfold coreLeave
  repeat' first
    | with_reducible exact hC0
    | with_reducible refine Change.ite (fun _ => ?_) (fun _ => ?_)
    | with_reducible refine faultEvent_change k1 ?_
    | with_reducible refine mboxAbortAll_change hT ?_
    | with_reducible refine State.put_change k2 ?_
    | with_reducible refine State.setCore_change k3 ?_
    | with_reducible refine icuTargetOff_change k4 ?_
    | with_reducible refine Change.foldl (fun _ _ _ => ?_) ?_
    | with_reducible assumption
    | split
    | dsimp only

theorem coreStart_change {U : List Part} {r0 : State} {c : Nat} {s : State} (hT : ([.regs, .icu, .cores] : List Part) ⊆ U) (hC0 : Change U r0 s) :
    Change U r0 (coreStart c s) := by
  have k1 : ([.regs, .icu] : List Part) ⊆ U := List.Subset.trans (by decide) hT
  have k2 : ([.regs] : List Part) ⊆ U := List.Subset.trans (by decide) hT
  have k3 : ([.cores] : List Part) ⊆ U := List.Subset.trans (by decide) hT
  unfold coreStart
  repeat' first
    | with_reducible exact hC0
    | with_reducible refine Change.ite (fun _ => ?_) (fun _ => ?_)
    | with_reducible refine icuOfferAll_change k1 ?_
    | with_reducible refine State.put_change k2 ?_
    | with_reducible refine State.setCore_change k3 ?_
    | with_reducible refine Change.foldl (fun _ _ _ => ?_) ?_
    | with_reducible assumption
    | split
    | dsimp only

theorem setMode_change {U : List Part} {r0 : State} {m : Mode} {n : Nat} {s : State} (hT : ([.regs, .tt, .dev, .flt, .icu, .spl, .out] : List Part) ⊆ U) (hC0 : Change U r0 s) :
    Change U r0 (setMode m n s) := by
  have k1 : ([.regs, .icu] : List Part) ⊆ U := List.Subset.trans (by decide) hT
  have k2 : ([.regs, .tt, .flt, .icu, .out] : List Part) ⊆ U := List.Subset.trans (by decide) hT
  have k3 : ([.dev, .spl] : List Part) ⊆ U := List.Subset.trans (by decide) hT
  have k4 : ([.spl] : List Part) ⊆ U := List.Subset.trans (by decide) hT
  have k5 : ([.dev] : List Part) ⊆ U := List.Subset.trans (by decide) hT
  unfold setMode
  repeat' first
    | with_reducible exact hC0
    | with_reducible refine Change.ite (fun _ => ?_) (fun _ => ?_)
    | with_reducible refine icuOfferAll_change k1 ?_
    | with_reducible refine icuEvent_change k2 ?_
    | with_reducible refine Change.foldl (fun _ _ _ => ?_) ?_
    | with_reducible assumption
    | split
    | dsimp only
    | with_reducible refine Change.set_dev_spl k3 ?_
    | with_reducible refine Change.set_spl k4 ?_
    | with_reducible refine Change.set_dev k5 ?_

theorem reduceService_change {U : List Part} {r0 : State} {s : State} (hT : ([.regs, .tt, .dev, .flt, .icu, .spl, .out] : List Part) ⊆ U) (hC0 : Change U r0 s) :
    Change U r0 (reduceService s) := by
  have k1 : ([.dev] : List Part) ⊆ U := List.Subset.trans (by decide) hT
  unfold reduceService
  repeat' first
    | with_reducible exact hC0
    | with_reducible refine Change.ite (fun _ => ?_) (fun _ => ?_)
    | with_reducible refine setMode_change hT ?_
    | with_reducible refine Change.foldl (fun _ _ _ => ?_) ?_
    | with_reducible assumption
    | split
    | dsimp only
    | with_reducible refine Change.set_dev k1 ?_

theorem enterRun_change {U : List Part} {r0 : State} {s : State} (hT : ([.regs, .tt, .dev, .flt, .icu, .spl, .out] : List Part) ⊆ U) (hC0 : Change U r0 s) :
    Change U r0 (enterRun s) := by
  have k1 : ([.dev] : List Part) ⊆ U := List.Subset.trans (by decide) hT
  unfold enterRun
  repeat' first
    | with_reducible exact hC0
    | with_reducible refine Change.ite (fun _ => ?_) (fun _ => ?_)
    | with_reducible refine setMode_change hT ?_
    | with_reducible refine Change.foldl (fun _ _ _ => ?_) ?_
    | with_reducible assumption
    | split
    | dsimp only
    | with_reducible refine Change.set_dev k1 ?_

theorem quiesceSet_change {U : List Part} {r0 : State} {i : Nat} {s : State} (hT : ([.regs, .tt, .dev, .flt, .icu, .spl, .out] : List Part) ⊆ U) (hC0 : Change U r0 s) :
    Change U r0 (quiesceSet i s) := by
  have k1 : ([.regs] : List Part) ⊆ U := List.Subset.trans (by decide) hT
  have k2 : ([.dev] : List Part) ⊆ U := List.Subset.trans (by decide) hT
  unfold quiesceSet
  repeat' first
    | with_reducible exact hC0
    | with_reducible refine Change.ite (fun _ => ?_) (fun _ => ?_)
    | with_reducible refine setMode_change hT ?_
    | with_reducible refine State.put_change k1 ?_
    | with_reducible refine Change.foldl (fun _ _ _ => ?_) ?_
    | with_reducible assumption
    | split
    | dsimp only
    | with_reducible refine Change.set_dev k2 ?_

theorem quiesceClear_change {U : List Part} {r0 : State} {i : Nat} {s : State} (hT : ([.regs, .tt, .dev, .flt, .icu, .spl, .out] : List Part) ⊆ U) (hC0 : Change U r0 s) :
    Change U r0 (quiesceClear i s) := by
  have k1 : ([.regs] : List Part) ⊆ U := List.Subset.trans (by decide) hT
  unfold quiesceClear
  repeat' first
    | with_reducible exact hC0
    | with_reducible refine Change.ite (fun _ => ?_) (fun _ => ?_)
    | with_reducible refine setMode_change hT ?_
    | with_reducible refine State.put_change k1 ?_
    | with_reducible refine Change.foldl (fun _ _ _ => ?_) ?_
    | with_reducible assumption
    | split
    | dsimp only

theorem modeRefuse_change {U : List Part} {r0 : State} {g : Frame} {s : State} (hT : ([.regs, .wxl, .qaux, .swc, .ports, .cores, .out] : List Part) ⊆ U) (hC0 : Change U r0 s) :
    Change U r0 (modeRefuse g s) := by
  have k1 : ([.regs, .wxl, .qaux, .swc, .cores, .out] : List Part) ⊆ U := List.Subset.trans (by decide) hT
  have k2 : ([.regs, .out] : List Part) ⊆ U := List.Subset.trans (by decide) hT
  have k3 : ([.ports, .out] : List Part) ⊆ U := List.Subset.trans (by decide) hT
  unfold modeRefuse
  repeat' first
    | with_reducible exact hC0
    | with_reducible refine Change.ite (fun _ => ?_) (fun _ => ?_)
    | with_reducible refine failFrame_change k1 ?_
    | with_reducible refine hostDone_change k2 ?_
    | with_reducible refine errPkt_change k3 ?_
    | with_reducible refine Change.foldl (fun _ _ _ => ?_) ?_
    | with_reducible assumption
    | split
    | dsimp only

theorem qenSafe_change {U : List Part} {r0 : State} {s : State} (hT : ([.regs, .tt, .flt, .icu, .hep, .wxl, .qaux, .spl, .swc, .ports, .cores, .out] : List Part) ⊆ U) (hC0 : Change U r0 s) :
    Change U r0 (qenSafe s) := by
  have k1 : ([.regs, .spl] : List Part) ⊆ U := List.Subset.trans (by decide) hT
  have k2 : ([.qaux] : List Part) ⊆ U := List.Subset.trans (by decide) hT
  have k3 : ([.spl] : List Part) ⊆ U := List.Subset.trans (by decide) hT
  have k4 : ([.regs, .tt, .flt, .icu, .hep, .wxl, .qaux, .swc, .ports, .cores, .out] : List Part) ⊆ U := List.Subset.trans (by decide) hT
  unfold qenSafe
  repeat' first
    | with_reducible exact hC0
    | with_reducible refine Change.ite (fun _ => ?_) (fun _ => ?_)
    | with_reducible refine returnUnstarted_change k1 ?_
    | with_reducible refine State.setQa_change k2 ?_
    | with_reducible refine dropRels_change k3 ?_
    | with_reducible refine nextGen_change k4 ?_
    | with_reducible refine Change.foldl (fun _ _ _ => ?_) ?_
    | with_reducible assumption
    | split
    | dsimp only

theorem wxlSafe_change {U : List Part} {r0 : State} {s : State} (hT : ([.regs, .wxl, .qaux, .swc, .ports, .cores, .out] : List Part) ⊆ U) (hC0 : Change U r0 s) :
    Change U r0 (wxlSafe s) := by
  have k1 : ([.wxl] : List Part) ⊆ U := List.Subset.trans (by decide) hT
  unfold wxlSafe
  repeat' first
    | with_reducible exact hC0
    | with_reducible refine Change.ite (fun _ => ?_) (fun _ => ?_)
    | with_reducible refine modeRefuse_change hT ?_
    | with_reducible refine Change.foldl (fun _ _ _ => ?_) ?_
    | with_reducible assumption
    | split
    | dsimp only
    | with_reducible refine Change.set_wxl k1 ?_

theorem swcSafe_change {U : List Part} {r0 : State} {s : State} (hT : ([.regs, .hep, .wxl, .qaux, .swc, .ports, .cores, .out] : List Part) ⊆ U) (hC0 : Change U r0 s) :
    Change U r0 (swcSafe s) := by
  have k1 : ([.regs, .wxl, .qaux, .swc, .ports, .cores, .out] : List Part) ⊆ U := List.Subset.trans (by decide) hT
  have k2 : ([.hep, .swc] : List Part) ⊆ U := List.Subset.trans (by decide) hT
  unfold swcSafe
  repeat' first
    | with_reducible exact hC0
    | with_reducible refine Change.ite (fun _ => ?_) (fun _ => ?_)
    | with_reducible refine modeRefuse_change k1 ?_
    | with_reducible refine pullFrames_change k2 ?_
    | (refine Change.of_pair (by assumption) ?_; with_reducible refine pullFrames_change k2 ?_)
    | with_reducible refine Change.foldl (fun _ _ _ => ?_) ?_
    | with_reducible refine Change.foldl_fst (fun _ _ _ => ?_) ?_
    | with_reducible refine Change.ite_fst (fun _ => ?_) (fun _ => ?_)
    | with_reducible assumption
    | split
    | dsimp only

theorem coresSafe_change {U : List Part} {r0 : State} {s : State} (hT : ([.regs, .tt, .checks, .flt, .icu, .hep, .wxl, .qen, .ctx, .qaux, .spl, .swc, .ports, .cores, .prl, .out] : List Part) ⊆ U) (hC0 : Change U r0 s) :
    Change U r0 (coresSafe s) := by
  unfold coresSafe
  repeat' first
    | with_reducible exact hC0
    | with_reducible refine Change.ite (fun _ => ?_) (fun _ => ?_)
    | with_reducible refine coreLeave_change hT ?_
    | with_reducible refine Change.foldl (fun _ _ _ => ?_) ?_
    | with_reducible assumption
    | split
    | dsimp only

theorem enterSafe_change {U : List Part} {r0 : State} {src : Nat} {s : State} (hT : ([.regs, .tt, .dev, .checks, .flt, .icu, .hep, .wxl, .qen, .ctx, .qaux, .spl, .swc, .ports, .cores, .prl, .out] : List Part) ⊆ U) (hC0 : Change U r0 s) :
    Change U r0 (enterSafe src s) := by
  have k1 : ([.regs, .tt, .flt, .icu, .hep, .wxl, .qaux, .spl, .swc, .ports, .cores, .out] : List Part) ⊆ U := List.Subset.trans (by decide) hT
  have k2 : ([.ports, .out] : List Part) ⊆ U := List.Subset.trans (by decide) hT
  have k3 : ([.regs, .tt, .dev, .flt, .icu, .spl, .out] : List Part) ⊆ U := List.Subset.trans (by decide) hT
  have k4 : ([.regs] : List Part) ⊆ U := List.Subset.trans (by decide) hT
  have k5 : ([.regs, .tt, .checks, .flt, .icu, .hep, .wxl, .qen, .ctx, .qaux, .spl, .swc, .ports, .cores, .prl, .out] : List Part) ⊆ U := List.Subset.trans (by decide) hT
  have k6 : ([.regs, .hep, .wxl, .qaux, .swc, .ports, .cores, .out] : List Part) ⊆ U := List.Subset.trans (by decide) hT
  have k7 : ([.regs, .wxl, .qaux, .swc, .ports, .cores, .out] : List Part) ⊆ U := List.Subset.trans (by decide) hT
  unfold enterSafe
  repeat' first
    | with_reducible exact hC0
    | with_reducible refine Change.ite (fun _ => ?_) (fun _ => ?_)
    | with_reducible refine qenSafe_change k1 ?_
    | with_reducible refine pairPkt_change k2 ?_
    | with_reducible refine setMode_change k3 ?_
    | with_reducible refine State.put_change k4 ?_
    | with_reducible refine portDrop_change k5 ?_
    | with_reducible refine coresSafe_change k5 ?_
    | with_reducible refine swcSafe_change k6 ?_
    | with_reducible refine wxlSafe_change k7 ?_
    | with_reducible refine Change.foldl (fun _ _ _ => ?_) ?_
    | with_reducible assumption
    | split
    | dsimp only

theorem mainReset_change {U : List Part} {r0 : State} {s : State} (hT : ([.regs, .tt, .pins, .dev, .pwr, .img, .checks, .flt, .icu, .pf, .vf, .fns, .msix, .hep, .wxl, .xt, .qen, .ctx, .qaux, .spl, .swc, .ports, .hbm, .mem, .gdc, .cores, .sram, .tcm, .prl, .out, .free] : List Part) ⊆ U) (hC0 : Change U r0 s) :
    Change U r0 (mainReset s) := by
  exact hC0.trans (Change.mono hT ⟨rfl, fun c => ⟨KMap.wf_filter _ _ _ c.regs, rfl, rfl, rfl, rfl, rfl, rfl, rfl, rfl, rfl, rfl, rfl, rfl, rfl⟩,
    List.prefix_refl _, Nat.le_refl _, fun p hp => by cases p <;> exact absurd (by decide) hp⟩)

theorem powerDown_change {U : List Part} {r0 : State} {s : State} (hT : ([.regs, .tt] : List Part) ⊆ U) (hC0 : Change U r0 s) :
    Change U r0 (powerDown s) := by
  have k1 : ([.regs] : List Part) ⊆ U := List.Subset.trans (by decide) hT
  have k2 : ([.tt] : List Part) ⊆ U := List.Subset.trans (by decide) hT
  unfold powerDown
  repeat' first
    | with_reducible exact hC0
    | with_reducible refine Change.ite (fun _ => ?_) (fun _ => ?_)
    | with_reducible refine icuWake_change hT ?_
    | with_reducible refine State.put_change k1 ?_
    | with_reducible refine Change.foldl (fun _ _ _ => ?_) ?_
    | with_reducible assumption
    | split
    | dsimp only
    | with_reducible refine Change.set_tt k2 ?_

theorem enterTether_change {U : List Part} {r0 : State} {s : State} (hT : ([.regs, .tt, .dev, .flt, .icu, .spl, .out] : List Part) ⊆ U) (hC0 : Change U r0 s) :
    Change U r0 (enterTether s) := by
  have k1 : ([.regs, .tt] : List Part) ⊆ U := List.Subset.trans (by decide) hT
  unfold enterTether
  repeat' first
    | with_reducible exact hC0
    | with_reducible refine Change.ite (fun _ => ?_) (fun _ => ?_)
    | with_reducible refine powerDown_change k1 ?_
    | with_reducible refine setMode_change hT ?_
    | with_reducible refine Change.foldl (fun _ _ _ => ?_) ?_
    | with_reducible assumption
    | split
    | dsimp only

theorem powerUp_change {U : List Part} {r0 : State} {cause : Nat} {s : State} (hT : ([.regs, .tt] : List Part) ⊆ U) (hC0 : Change U r0 s) :
    Change U r0 (powerUp cause s) := by
  have k1 : ([.regs] : List Part) ⊆ U := List.Subset.trans (by decide) hT
  have k2 : ([.tt] : List Part) ⊆ U := List.Subset.trans (by decide) hT
  unfold powerUp
  repeat' first
    | with_reducible exact hC0
    | with_reducible refine Change.ite (fun _ => ?_) (fun _ => ?_)
    | with_reducible refine State.put_change k1 ?_
    | with_reducible refine Change.foldl (fun _ _ _ => ?_) ?_
    | with_reducible assumption
    | split
    | dsimp only
    | with_reducible refine Change.set_tt k2 ?_

end Sys2Proof.Machine
end

