-- ==== Sys2Proof/Laws/LaneOps.lean ====
section
/-! SUPPORT. What each operation of Machine/LaneOps.lean may change. -/
set_option linter.all false
set_option linter.unusedTactic false
set_option linter.unreachableTactic false

namespace Sys2Proof.Machine

open Sys2Proof

theorem testDone_change {U : List Part} {r0 : State} {b : Blk} {id : Nat} {pass : Bool} {s : State} (hT : ([.regs, .flt] : List Part) ⊆ U) (hC0 : Change U r0 s) :
    Change U r0 (testDone b id pass s) := by
  have k1 : ([.regs] : List Part) ⊆ U := List.Subset.trans (by decide) hT
  have k2 : ([.flt] : List Part) ⊆ U := List.Subset.trans (by decide) hT
  unfold testDone
  repeat' first
    | with_reducible exact hC0
    | with_reducible refine Change.ite (fun _ => ?_) (fun _ => ?_)
    | with_reducible refine State.bump_change k1 ?_
    | with_reducible refine State.setFlt_change k2 ?_
    | with_reducible refine State.put_change k1 ?_
    | with_reducible refine Change.foldl (fun _ _ _ => ?_) ?_
    | with_reducible refine Change.ofId ?_
    | with_reducible assumption
    | split
    | dsimp only

theorem slotSync_change {U : List Part} {r0 : State} {p : Nat} {s : State} (hT : ([.regs, .tt, .flt, .icu, .out] : List Part) ⊆ U) (hC0 : Change U r0 s) :
    Change U r0 (slotSync p s) := by
  unfold slotSync
  repeat' first
    | with_reducible exact hC0
    | with_reducible refine Change.ite (fun _ => ?_) (fun _ => ?_)
    | with_reducible refine icuLevel_change hT ?_
    | with_reducible refine Change.foldl (fun _ _ _ => ?_) ?_
    | with_reducible assumption
    | split
    | dsimp only

theorem portTry1_change {U : List Part} {r0 : State} {p : Nat} {s : State} (hT : ([.regs, .tt, .checks, .flt, .icu, .ports, .prl, .out] : List Part) ⊆ U) (hC0 : Change U r0 s) :
    Change U r0 (portTry1 p s) := by
  have k1 : ([.ports] : List Part) ⊆ U := List.Subset.trans (by decide) hT
  unfold portTry1
  repeat' first
    | with_reducible exact hC0
    | with_reducible refine Change.ite (fun _ => ?_) (fun _ => ?_)
    | with_reducible refine State.modPort_change k1 ?_
    | with_reducible refine linkTo_change hT ?_
    | with_reducible refine Change.foldl (fun _ _ _ => ?_) ?_
    | with_reducible assumption
    | split
    | dsimp only

theorem pwrenDrive_change {U : List Part} {r0 : State} {p : Nat} {on : Bool} {s : State} (hT : ([.regs, .pins] : List Part) ⊆ U) (hC0 : Change U r0 s) :
    Change U r0 (pwrenDrive p on s) := by
  have k1 : ([.regs] : List Part) ⊆ U := List.Subset.trans (by decide) hT
  have k2 : ([.pins] : List Part) ⊆ U := List.Subset.trans (by decide) hT
  unfold pwrenDrive
  repeat' first
    | with_reducible exact hC0
    | with_reducible refine Change.ite (fun _ => ?_) (fun _ => ?_)
    | with_reducible refine State.put_change k1 ?_
    | with_reducible refine Change.foldl (fun _ _ _ => ?_) ?_
    | with_reducible assumption
    | split
    | dsimp only
    | with_reducible refine Change.set_pins k2 ?_

theorem slotOn_change {U : List Part} {r0 : State} {p : Nat} {s : State} (hT : ([.regs, .pins] : List Part) ⊆ U) (hC0 : Change U r0 s) :
    Change U r0 (slotOn p s) := by
  have k1 : ([.regs] : List Part) ⊆ U := List.Subset.trans (by decide) hT
  unfold slotOn
  repeat' first
    | with_reducible exact hC0
    | with_reducible refine Change.ite (fun _ => ?_) (fun _ => ?_)
    | with_reducible refine pwrenDrive_change hT ?_
    | with_reducible refine State.put_change k1 ?_
    | with_reducible refine Change.foldl (fun _ _ _ => ?_) ?_
    | with_reducible assumption
    | split
    | dsimp only

theorem slotOff_change {U : List Part} {r0 : State} {p : Nat} {s : State} (hT : ([.regs, .tt, .pins, .checks, .flt, .icu, .hep, .wxl, .qen, .ctx, .qaux, .spl, .swc, .ports, .cores, .prl, .out] : List Part) ⊆ U) (hC0 : Change U r0 s) :
    Change U r0 (slotOff p s) := by
  have k1 : ([.ports] : List Part) ⊆ U := List.Subset.trans (by decide) hT
  have k2 : ([.regs, .pins] : List Part) ⊆ U := List.Subset.trans (by decide) hT
  have k3 : ([.regs] : List Part) ⊆ U := List.Subset.trans (by decide) hT
  have k4 : ([.regs, .tt, .checks, .flt, .icu, .hep, .wxl, .qen, .ctx, .qaux, .spl, .swc, .ports, .cores, .prl, .out] : List Part) ⊆ U := List.Subset.trans (by decide) hT
  unfold slotOff
  repeat' first
    | with_reducible exact hC0
    | with_reducible refine Change.ite (fun _ => ?_) (fun _ => ?_)
    | with_reducible refine State.modPort_change k1 ?_
    | with_reducible refine pwrenDrive_change k2 ?_
    | with_reducible refine State.put_change k3 ?_
    | with_reducible refine portOff_change k4 ?_
    | with_reducible refine Change.foldl (fun _ _ _ => ?_) ?_
    | with_reducible assumption
    | split
    | dsimp only

theorem seqEnd_change {U : List Part} {r0 : State} {p : Nat} {s : State} (hT : ([.regs, .ports] : List Part) ⊆ U) (hC0 : Change U r0 s) :
    Change U r0 (seqEnd p s) := by
  have k1 : ([.ports] : List Part) ⊆ U := List.Subset.trans (by decide) hT
  have k2 : ([.regs] : List Part) ⊆ U := List.Subset.trans (by decide) hT
  unfold seqEnd
  repeat' first
    | with_reducible exact hC0
    | with_reducible refine Change.ite (fun _ => ?_) (fun _ => ?_)
    | with_reducible refine State.modPort_change k1 ?_
    | with_reducible refine State.put_change k2 ?_
    | with_reducible refine Change.foldl (fun _ _ _ => ?_) ?_
    | with_reducible assumption
    | split
    | dsimp only

theorem presence_change {U : List Part} {r0 : State} {p : Nat} {now : Bool} {s : State} (hT : ([.regs, .tt, .pins, .checks, .flt, .icu, .hep, .wxl, .qen, .ctx, .qaux, .spl, .swc, .ports, .cores, .prl, .out] : List Part) ⊆ U) (hC0 : Change U r0 s) :
    Change U r0 (presence p now s) := by
  have k1 : ([.ports] : List Part) ⊆ U := List.Subset.trans (by decide) hT
  have k2 : ([.regs, .tt, .flt, .icu, .out] : List Part) ⊆ U := List.Subset.trans (by decide) hT
  have k3 : ([.regs, .tt, .checks, .flt, .icu, .ports, .prl, .out] : List Part) ⊆ U := List.Subset.trans (by decide) hT
  have k4 : ([.regs] : List Part) ⊆ U := List.Subset.trans (by decide) hT
  have k5 : ([.regs, .pins] : List Part) ⊆ U := List.Subset.trans (by decide) hT
  have k6 : ([.regs, .ports] : List Part) ⊆ U := List.Subset.trans (by decide) hT
  have k7 : ([.regs, .tt, .checks, .flt, .icu, .hep, .wxl, .qen, .ctx, .qaux, .spl, .swc, .ports, .cores, .prl, .out] : List Part) ⊆ U := List.Subset.trans (by decide) hT
  unfold presence
  repeat' first
    | with_reducible exact hC0
    | with_reducible refine Change.ite (fun _ => ?_) (fun _ => ?_)
    | with_reducible refine State.modPort_change k1 ?_
    | with_reducible refine slotSync_change k2 ?_
    | with_reducible refine faultEvent_change k2 ?_
    | with_reducible refine portTry1_change k3 ?_
    | with_reducible refine State.put_change k4 ?_
    | with_reducible refine slotOn_change k5 ?_
    | with_reducible refine seqEnd_change k6 ?_
    | with_reducible refine slotOff_change hT ?_
    | with_reducible refine portOff_change k7 ?_
    | with_reducible refine Change.foldl (fun _ _ _ => ?_) ?_
    | with_reducible assumption
    | split
    | dsimp only

theorem pcFlushPort_change {U : List Part} {r0 : State} {p : Nat} {s : State} (hT : ([.wxl, .swc] : List Part) ⊆ U) (hC0 : Change U r0 s) :
    Change U r0 (pcFlushPort p s) := by
  have k1 : ([.swc] : List Part) ⊆ U := List.Subset.trans (by decide) hT
  have k2 : ([.wxl] : List Part) ⊆ U := List.Subset.trans (by decide) hT
  unfold pcFlushPort
  repeat' first
    | with_reducible exact hC0
    | with_reducible refine Change.ite (fun _ => ?_) (fun _ => ?_)
    | with_reducible refine State.inject_change k1 ?_
    | with_reducible refine pcDrop_change k2 ?_
    | with_reducible refine Change.foldl (fun _ _ _ => ?_) ?_
    | with_reducible assumption
    | split
    | dsimp only

theorem ownRetrain_change {U : List Part} {r0 : State} {p : Nat} {r : LinkReq} {s : State} (hT : ([.regs, .tt, .checks, .flt, .icu, .ports, .prl, .out] : List Part) ⊆ U) (hC0 : Change U r0 s) :
    Change U r0 (ownRetrain p r s) := by
  have k1 : ([.ports] : List Part) ⊆ U := List.Subset.trans (by decide) hT
  unfold ownRetrain
  repeat' first
    | with_reducible exact hC0
    | with_reducible refine Change.ite (fun _ => ?_) (fun _ => ?_)
    | with_reducible refine State.modPort_change k1 ?_
    | with_reducible refine toRetrain_change hT ?_
    | with_reducible refine Change.foldl (fun _ _ _ => ?_) ?_
    | with_reducible assumption
    | split
    | dsimp only

theorem beginResize_change {U : List Part} {r0 : State} {p : Nat} {w : Nat} {own : Bool} {s : State} (hT : ([.regs, .tt, .checks, .flt, .icu, .ports, .prl, .out] : List Part) ⊆ U) (hC0 : Change U r0 s) :
    Change U r0 (beginResize p w own s) := by
  have k1 : ([.ports] : List Part) ⊆ U := List.Subset.trans (by decide) hT
  unfold beginResize
  repeat' first
    | with_reducible exact hC0
    | with_reducible refine Change.ite (fun _ => ?_) (fun _ => ?_)
    | with_reducible refine State.modPort_change k1 ?_
    | with_reducible refine linkTo_change hT ?_
    | with_reducible refine Change.foldl (fun _ _ _ => ?_) ?_
    | with_reducible assumption
    | split
    | dsimp only

theorem startReq_change {U : List Part} {r0 : State} {p : Nat} {r : LinkReq} {s : State} (hT : ([.regs, .tt, .checks, .flt, .icu, .ports, .prl, .out] : List Part) ⊆ U) (hC0 : Change U r0 s) :
    Change U r0 (startReq p r s) := by
  unfold startReq
  repeat' first
    | with_reducible exact hC0
    | with_reducible refine Change.ite (fun _ => ?_) (fun _ => ?_)
    | with_reducible refine beginResize_change hT ?_
    | with_reducible refine ownRetrain_change hT ?_
    | with_reducible refine Change.foldl (fun _ _ _ => ?_) ?_
    | with_reducible assumption
    | split
    | dsimp only

theorem linkPend_change {U : List Part} {r0 : State} {p : Nat} {s : State} (hT : ([.regs, .tt, .checks, .flt, .icu, .ports, .prl, .out] : List Part) ⊆ U) (hC0 : Change U r0 s) :
    Change U r0 (linkPend p s) := by
  have k1 : ([.ports] : List Part) ⊆ U := List.Subset.trans (by decide) hT
  have k2 : ([.regs] : List Part) ⊆ U := List.Subset.trans (by decide) hT
  unfold linkPend
  repeat' first
    | with_reducible exact hC0
    | with_reducible refine Change.ite (fun _ => ?_) (fun _ => ?_)
    | with_reducible refine State.setPort_change k1 ?_
    | with_reducible refine startReq_change hT ?_
    | with_reducible refine State.put_change k2 ?_
    | with_reducible refine ownRetrain_change hT ?_
    | with_reducible refine Change.foldl (fun _ _ _ => ?_) ?_
    | with_reducible assumption
    | split
    | dsimp only

theorem laneTestDue_change {U : List Part} {r0 : State} {p : Nat} {k : Nat} {s : State} (hT : ([.regs, .tt, .checks, .flt, .icu, .ports, .prl, .out] : List Part) ⊆ U) (hC0 : Change U r0 s) :
    Change U r0 (laneTestDue p k s) := by
  have k1 : ([.ports] : List Part) ⊆ U := List.Subset.trans (by decide) hT
  unfold laneTestDue
  repeat' first
    | with_reducible exact hC0
    | with_reducible refine Change.ite (fun _ => ?_) (fun _ => ?_)
    | with_reducible refine State.modPort_change k1 ?_
    | with_reducible refine linkPend_change hT ?_
    | with_reducible refine Change.foldl (fun _ _ _ => ?_) ?_
    | with_reducible assumption
    | split
    | dsimp only

theorem peerRequest_change {U : List Part} {r0 : State} {p : Nat} {r : LinkReq} {s : State} (hT : ([.regs, .tt, .checks, .flt, .icu, .ports, .prl, .out] : List Part) ⊆ U) (hC0 : Change U r0 s) :
    Change U r0 (peerRequest p r s) := by
  have k1 : ([.ports] : List Part) ⊆ U := List.Subset.trans (by decide) hT
  unfold peerRequest
  repeat' first
    | with_reducible exact hC0
    | with_reducible refine Change.ite (fun _ => ?_) (fun _ => ?_)
    | with_reducible refine State.modPort_change k1 ?_
    | with_reducible refine State.setPort_change k1 ?_
    | with_reducible refine beginResize_change hT ?_
    | with_reducible refine toRetrain_change hT ?_
    | with_reducible refine Change.foldl (fun _ _ _ => ?_) ?_
    | with_reducible assumption
    | split
    | dsimp only

theorem gtsNote_change {U : List Part} {r0 : State} {p : Nat} {g : Gts} {s : State} (hT : ([.ports] : List Part) ⊆ U) (hC0 : Change U r0 s) :
    Change U r0 (gtsNote p g s) := by
  unfold gtsNote
  repeat' first
    | with_reducible exact hC0
    | with_reducible refine Change.ite (fun _ => ?_) (fun _ => ?_)
    | with_reducible refine State.modPort_change hT ?_
    | with_reducible refine Change.foldl (fun _ _ _ => ?_) ?_
    | with_reducible assumption
    | split
    | dsimp only

theorem trainFail_change {U : List Part} {r0 : State} {p : Nat} {s : State} (hT : ([.regs, .tt, .checks, .flt, .icu, .hep, .wxl, .qen, .ctx, .qaux, .spl, .swc, .ports, .cores, .prl, .out] : List Part) ⊆ U) (hC0 : Change U r0 s) :
    Change U r0 (trainFail p s) := by
  have k1 : ([.ports] : List Part) ⊆ U := List.Subset.trans (by decide) hT
  have k2 : ([.regs] : List Part) ⊆ U := List.Subset.trans (by decide) hT
  have k3 : ([.regs, .tt, .checks, .flt, .icu, .ports, .prl, .out] : List Part) ⊆ U := List.Subset.trans (by decide) hT
  have k4 : ([.regs, .tt, .flt, .icu, .out] : List Part) ⊆ U := List.Subset.trans (by decide) hT
  unfold trainFail
  repeat' first
    | with_reducible exact hC0
    | with_reducible refine Change.ite (fun _ => ?_) (fun _ => ?_)
    | with_reducible refine State.modPort_change k1 ?_
    | with_reducible refine State.bump_change k2 ?_
    | with_reducible refine linkTo_change k3 ?_
    | with_reducible refine faultEvent_change k4 ?_
    | with_reducible refine retrainOver_change hT ?_
    | with_reducible refine Change.foldl (fun _ _ _ => ?_) ?_
    | with_reducible assumption
    | split
    | dsimp only

theorem toPhase_change {U : List Part} {r0 : State} {p : Nat} {n : Nat} {s : State} (hT : ([.ports] : List Part) ⊆ U) (hC0 : Change U r0 s) :
    Change U r0 (toPhase p n s) := by
  unfold toPhase
  repeat' first
    | with_reducible exact hC0
    | with_reducible refine Change.ite (fun _ => ?_) (fun _ => ?_)
    | with_reducible refine State.modPort_change hT ?_
    | with_reducible refine Change.foldl (fun _ _ _ => ?_) ?_
    | with_reducible assumption
    | split
    | dsimp only

theorem propose_change {U : List Part} {r0 : State} {p : Nat} {s : State} (hT : ([.ports] : List Part) ⊆ U) (hC0 : Change U r0 s) :
    Change U r0 (propose p s) := by
  unfold propose
  repeat' first
    | with_reducible exact hC0
    | with_reducible refine Change.ite (fun _ => ?_) (fun _ => ?_)
    | with_reducible refine State.modPort_change hT ?_
    | with_reducible refine toPhase_change hT ?_
    | with_reducible refine Change.foldl (fun _ _ _ => ?_) ?_
    | with_reducible assumption
    | split
    | dsimp only

theorem phaseDone_change {U : List Part} {r0 : State} {p : Nat} {rtt : Nat} {s : State} (hT : ([.regs, .tt, .checks, .flt, .icu, .hep, .wxl, .qen, .ctx, .qaux, .spl, .swc, .ports, .cores, .prl, .out] : List Part) ⊆ U) (hC0 : Change U r0 s) :
    Change U r0 (phaseDone p rtt s) := by
  have k1 : ([.regs, .flt] : List Part) ⊆ U := List.Subset.trans (by decide) hT
  have k2 : ([.ports] : List Part) ⊆ U := List.Subset.trans (by decide) hT
  have k3 : ([.regs] : List Part) ⊆ U := List.Subset.trans (by decide) hT
  unfold phaseDone
  repeat' first
    | with_reducible exact hC0
    | with_reducible refine Change.ite (fun _ => ?_) (fun _ => ?_)
    | with_reducible refine startTest_change k1 ?_
    | with_reducible refine State.setPort_change k2 ?_
    | with_reducible refine propose_change k2 ?_
    | with_reducible refine toPhase_change k2 ?_
    | with_reducible refine State.put_change k3 ?_
    | with_reducible refine trainFail_change hT ?_
    | with_reducible refine Change.foldl (fun _ _ _ => ?_) ?_
    | with_reducible assumption
    | split
    | dsimp only

theorem phaseLimit_change {U : List Part} {r0 : State} {p : Nat} {s : State} (hT : ([.ports] : List Part) ⊆ U) (hC0 : Change U r0 s) :
    Change U r0 (phaseLimit p s) := by
  unfold phaseLimit
  repeat' first
    | with_reducible exact hC0
    | with_reducible refine Change.ite (fun _ => ?_) (fun _ => ?_)
    | with_reducible refine State.modPort_change hT ?_
    | with_reducible refine Change.foldl (fun _ _ _ => ?_) ?_
    | with_reducible assumption
    | split
    | dsimp only

theorem peerNote_change {U : List Part} {r0 : State} {p : Nat} {g : Gts} {buf : KMap Nat} {s : State} (hT : ([.regs] : List Part) ⊆ U) (hC0 : Change U r0 s) :
    Change U r0 (peerNote p g buf s) := by
  unfold peerNote
  repeat' first
    | with_reducible exact hC0
    | with_reducible refine Change.ite (fun _ => ?_) (fun _ => ?_)
    | with_reducible refine State.put_change hT ?_
    | with_reducible refine Change.foldl (fun _ _ _ => ?_) ?_
    | with_reducible assumption
    | split
    | dsimp only

theorem openOut_change {U : List Part} {r0 : State} {p : Nat} {changed : Bool} {s : State} (hT : ([.regs] : List Part) ⊆ U) (hC0 : Change U r0 s) :
    Change U r0 (openOut p changed s) := by
  unfold openOut
  repeat' first
    | with_reducible exact hC0
    | with_reducible refine Change.ite (fun _ => ?_) (fun _ => ?_)
    | with_reducible refine State.setOut_change hT ?_
    | with_reducible refine Change.foldl (fun _ _ _ => ?_) ?_
    | with_reducible assumption
    | split
    | dsimp only

theorem activeEntry_change {U : List Part} {r0 : State} {p : Nat} {s : State} (hT : ([.regs, .tt, .checks, .flt, .icu, .hep, .wxl, .qen, .ctx, .qaux, .spl, .swc, .ports, .cores, .prl, .out] : List Part) ⊆ U) (hC0 : Change U r0 s) :
    Change U r0 (activeEntry p s) := by
  have k1 : ([.ports] : List Part) ⊆ U := List.Subset.trans (by decide) hT
  have k2 : ([.regs, .tt, .flt, .icu, .out] : List Part) ⊆ U := List.Subset.trans (by decide) hT
  have k3 : ([.ports, .out] : List Part) ⊆ U := List.Subset.trans (by decide) hT
  have k4 : ([.regs] : List Part) ⊆ U := List.Subset.trans (by decide) hT
  have k5 : ([.regs, .tt, .checks, .flt, .icu, .ports, .prl, .out] : List Part) ⊆ U := List.Subset.trans (by decide) hT
  have k6 : ([.regs, .checks, .ports, .prl, .out] : List Part) ⊆ U := List.Subset.trans (by decide) hT
  have k7 : ([.out] : List Part) ⊆ U := List.Subset.trans (by decide) hT
  have k8 : ([.regs, .icu, .ports] : List Part) ⊆ U := List.Subset.trans (by decide) hT
  unfold activeEntry
  repeat' first
    | with_reducible exact hC0
    | with_reducible refine Change.ite (fun _ => ?_) (fun _ => ?_)
    | with_reducible refine State.modPort_change k1 ?_
    | with_reducible refine setWidth_change k2 ?_
    | with_reducible refine txDrain_change k3 ?_
    | with_reducible refine openOut_change k4 ?_
    | with_reducible refine linkTo_change k5 ?_
    | with_reducible refine pairRecheck_change k6 ?_
    | with_reducible refine peerNote_change k4 ?_
    | with_reducible refine resend_change k7 ?_
    | with_reducible refine epochChanged_change hT ?_
    | with_reducible refine State.put_change k4 ?_
    | with_reducible refine linkPend_change k5 ?_
    | with_reducible refine freshLl_change k8 ?_
    | with_reducible refine sbAnnounce_change k3 ?_
    | with_reducible refine Change.foldl (fun _ _ _ => ?_) ?_
    | with_reducible assumption
    | split
    | dsimp only

theorem laneTested_change {U : List Part} {r0 : State} {p : Nat} {pass : Bool} {s : State} (hT : ([.regs, .tt, .dev, .checks, .flt, .icu, .hep, .wxl, .qen, .ctx, .qaux, .spl, .swc, .ports, .cores, .prl, .out] : List Part) ⊆ U) (hC0 : Change U r0 s) :
    Change U r0 (laneTested p pass s) := by
  have k1 : ([.ports] : List Part) ⊆ U := List.Subset.trans (by decide) hT
  have k2 : ([.regs] : List Part) ⊆ U := List.Subset.trans (by decide) hT
  have k3 : ([.regs, .flt] : List Part) ⊆ U := List.Subset.trans (by decide) hT
  have k4 : ([.regs, .tt, .flt, .icu, .out] : List Part) ⊆ U := List.Subset.trans (by decide) hT
  have k5 : ([.regs, .tt, .dev, .flt, .icu, .spl, .out] : List Part) ⊆ U := List.Subset.trans (by decide) hT
  have k6 : ([.regs, .tt, .checks, .flt, .icu, .hep, .wxl, .qen, .ctx, .qaux, .spl, .swc, .ports, .cores, .prl, .out] : List Part) ⊆ U := List.Subset.trans (by decide) hT
  unfold laneTested
  repeat' first
    | with_reducible exact hC0
    | with_reducible refine Change.ite (fun _ => ?_) (fun _ => ?_)
    | with_reducible refine State.modPort_change k1 ?_
    | with_reducible refine State.bump_change k2 ?_
    | with_reducible refine testDone_change k3 ?_
    | with_reducible refine faultEvent_change k4 ?_
    | with_reducible refine propose_change k1 ?_
    | with_reducible refine State.put_change k2 ?_
    | with_reducible refine reduceService_change k5 ?_
    | with_reducible refine portOff_change k6 ?_
    | with_reducible refine Change.foldl (fun _ _ _ => ?_) ?_
    | with_reducible assumption
    | split
    | dsimp only

theorem resizeEnd_change {U : List Part} {r0 : State} {p : Nat} {ok : Bool} {s : State} (hT : ([.regs, .tt, .checks, .flt, .icu, .ports, .prl, .out] : List Part) ⊆ U) (hC0 : Change U r0 s) :
    Change U r0 (resizeEnd p ok s) := by
  have k1 : ([.ports] : List Part) ⊆ U := List.Subset.trans (by decide) hT
  have k2 : ([.regs, .tt, .flt, .icu, .out] : List Part) ⊆ U := List.Subset.trans (by decide) hT
  have k3 : ([.regs] : List Part) ⊆ U := List.Subset.trans (by decide) hT
  unfold resizeEnd
  repeat' first
    | with_reducible exact hC0
    | with_reducible refine Change.ite (fun _ => ?_) (fun _ => ?_)
    | with_reducible refine State.modPort_change k1 ?_
    | with_reducible refine setWidth_change k2 ?_
    | with_reducible refine State.bump_change k3 ?_
    | with_reducible refine linkTo_change hT ?_
    | with_reducible refine linkPend_change hT ?_
    | with_reducible refine Change.foldl (fun _ _ _ => ?_) ?_
    | with_reducible assumption
    | split
    | dsimp only

theorem linkCmd_change {U : List Part} {r0 : State} {p : Nat} {off : Nat} {op : Nat} {eq : Bool} {w : Nat} {s : State} (hT : ([.regs, .tt, .checks, .flt, .icu, .ports, .prl, .out] : List Part) ⊆ U) (hC0 : Change U r0 s) :
    Change U r0 (linkCmd p off op eq w s) := by
  have k1 : ([.regs, .tt, .flt, .icu, .out] : List Part) ⊆ U := List.Subset.trans (by decide) hT
  have k2 : ([.regs] : List Part) ⊆ U := List.Subset.trans (by decide) hT
  unfold linkCmd
  repeat' first
    | with_reducible exact hC0
    | with_reducible refine Change.ite (fun _ => ?_) (fun _ => ?_)
    | with_reducible refine notice_change k1 ?_
    | with_reducible refine portTry1_change hT ?_
    | with_reducible refine State.put_change k2 ?_
    | with_reducible refine beginResize_change hT ?_
    | with_reducible refine ownRetrain_change hT ?_
    | with_reducible refine Change.foldl (fun _ _ _ => ?_) ?_
    | with_reducible assumption
    | split
    | dsimp only

theorem portRearmed_change {U : List Part} {r0 : State} {p : Nat} {s : State} (hT : ([.regs, .wxl] : List Part) ⊆ U) (hC0 : Change U r0 s) :
    Change U r0 (portRearmed p s) := by
  have k1 : ([.regs] : List Part) ⊆ U := List.Subset.trans (by decide) hT
  unfold portRearmed
  repeat' first
    | with_reducible exact hC0
    | with_reducible refine Change.ite (fun _ => ?_) (fun _ => ?_)
    | with_reducible refine State.setOut_change k1 ?_
    | with_reducible refine wxlUnfence_change hT ?_
    | with_reducible refine Change.foldl (fun _ _ _ => ?_) ?_
    | with_reducible assumption
    | split
    | dsimp only

theorem portDisable_change {U : List Part} {r0 : State} {p : Nat} {s : State} (hT : ([.regs, .tt, .checks, .flt, .icu, .hep, .wxl, .qen, .ctx, .qaux, .spl, .swc, .ports, .cores, .prl, .out] : List Part) ⊆ U) (hC0 : Change U r0 s) :
    Change U r0 (portDisable p s) := by
  have k1 : ([.regs] : List Part) ⊆ U := List.Subset.trans (by decide) hT
  have k2 : ([.regs, .tt, .flt, .icu, .prl, .out] : List Part) ⊆ U := List.Subset.trans (by decide) hT
  unfold portDisable
  repeat' first
    | with_reducible exact hC0
    | with_reducible refine Change.ite (fun _ => ?_) (fun _ => ?_)
    | with_reducible refine State.put_change k1 ?_
    | with_reducible refine pairState_change k2 ?_
    | with_reducible refine portOff_change hT ?_
    | with_reducible refine Change.foldl (fun _ _ _ => ?_) ?_
    | with_reducible assumption
    | split
    | dsimp only

theorem holdDisable_change {U : List Part} {r0 : State} {p : Nat} {s : State} (hT : ([.regs, .tt, .checks, .flt, .icu, .hep, .wxl, .qen, .ctx, .qaux, .spl, .swc, .ports, .cores, .prl, .out] : List Part) ⊆ U) (hC0 : Change U r0 s) :
    Change U r0 (holdDisable p s) := by
  have k1 : ([.regs] : List Part) ⊆ U := List.Subset.trans (by decide) hT
  unfold holdDisable
  repeat' first
    | with_reducible exact hC0
    | with_reducible refine Change.ite (fun _ => ?_) (fun _ => ?_)
    | with_reducible refine portLost_change hT ?_
    | with_reducible refine State.put_change k1 ?_
    | with_reducible refine Change.foldl (fun _ _ _ => ?_) ?_
    | with_reducible assumption
    | split
    | dsimp only

theorem detection_change {U : List Part} {r0 : State} {p : Nat} {lanes : Nat} {s : State} (hT : ([.regs, .tt, .checks, .flt, .icu, .ports, .prl, .out] : List Part) ⊆ U) (hC0 : Change U r0 s) :
    Change U r0 (detection p lanes s) := by
  have k1 : ([.regs] : List Part) ⊆ U := List.Subset.trans (by decide) hT
  have k2 : ([.ports] : List Part) ⊆ U := List.Subset.trans (by decide) hT
  unfold detection
  repeat' first
    | with_reducible exact hC0
    | with_reducible refine Change.ite (fun _ => ?_) (fun _ => ?_)
    | with_reducible refine linkTo_change hT ?_
    | with_reducible refine State.put_change k1 ?_
    | with_reducible refine trainBegin_change k2 ?_
    | with_reducible refine Change.foldl (fun _ _ _ => ?_) ?_
    | with_reducible assumption
    | split
    | dsimp only

end Sys2Proof.Machine
end

