-- ==== Sys2Proof/Laws/PairOps.lean ====
section
/-! SUPPORT. What each operation of Machine/PairOps.lean may change. -/
set_option linter.all false
set_option linter.unusedTactic false
set_option linter.unreachableTactic false

namespace Sys2Proof.Machine

open Sys2Proof

theorem setOwn_change {U : List Part} {r0 : State} {e : Nat} {v : Bool} {s : State} (hT : ([.regs, .wxl] : List Part) ⊆ U) (hC0 : Change U r0 s) :
    Change U r0 (setOwn e v s) := by
  have k1 : ([.regs] : List Part) ⊆ U := List.Subset.trans (by decide) hT
  have k2 : ([.wxl] : List Part) ⊆ U := List.Subset.trans (by decide) hT
  unfold setOwn
  repeat' first
    | with_reducible exact hC0
    | with_reducible refine Change.ite (fun _ => ?_) (fun _ => ?_)
    | with_reducible refine State.setReg_change k1 ?_
    | with_reducible refine pcDropEnv_change k2 ?_
    | with_reducible refine Change.foldl (fun _ _ _ => ?_) ?_
    | with_reducible assumption
    | split
    | dsimp only

theorem mirrorCtx_change {U : List Part} {r0 : State} {q : Nat} {words : List Word} {s : State} (hT : ([.regs, .ctx, .qaux] : List Part) ⊆ U) (hC0 : Change U r0 s) :
    Change U r0 (mirrorCtx q words s) := by
  have k1 : ([.qaux] : List Part) ⊆ U := List.Subset.trans (by decide) hT
  have k2 : ([.ctx] : List Part) ⊆ U := List.Subset.trans (by decide) hT
  have k3 : ([.regs] : List Part) ⊆ U := List.Subset.trans (by decide) hT
  unfold mirrorCtx
  repeat' first
    | with_reducible exact hC0
    | with_reducible refine Change.ite (fun _ => ?_) (fun _ => ?_)
    | with_reducible refine State.setQa_change k1 ?_
    | with_reducible refine State.setCtxW_change k2 ?_
    | with_reducible refine State.put_change k3 ?_
    | with_reducible refine Change.foldl (fun _ _ _ => ?_) ?_
    | with_reducible assumption
    | split
    | dsimp only

theorem mirrorXlate_change {U : List Part} {r0 : State} {l : List (Nat × Word)} {s : State} (hT : ([.regs, .tt, .flt, .icu, .wxl, .xt, .swc, .out] : List Part) ⊆ U) (hC0 : Change U r0 s) :
    Change U r0 (mirrorXlate l s) := by
  have k1 : ([.regs, .tt, .flt, .icu, .wxl, .swc, .out] : List Part) ⊆ U := List.Subset.trans (by decide) hT
  have k2 : ([.xt] : List Part) ⊆ U := List.Subset.trans (by decide) hT
  unfold mirrorXlate
  repeat' first
    | with_reducible exact hC0
    | with_reducible refine Change.ite (fun _ => ?_) (fun _ => ?_)
    | with_reducible refine xtInval_change k1 ?_
    | with_reducible refine Change.foldl (fun _ _ _ => ?_) ?_
    | with_reducible assumption
    | split
    | dsimp only
    | refine Change.set_xt k2 (by first | exact fun c => KMap.wf_set _ _ _ _ c.xt | exact fun c => KMap.wf_filter _ _ _ c.xt | exact fun _ => rfl) ?_

theorem pairReply_change {U : List Part} {r0 : State} {s : State} (hT : ([.ports, .out] : List Part) ⊆ U) (hC0 : Change U r0 s) :
    Change U r0 (pairReply s) := by
  unfold pairReply
  repeat' first
    | with_reducible exact hC0
    | with_reducible refine Change.ite (fun _ => ?_) (fun _ => ?_)
    | with_reducible refine pairPkt_change hT ?_
    | with_reducible refine Change.foldl (fun _ _ _ => ?_) ?_
    | with_reducible assumption
    | split
    | dsimp only

theorem takeQueue_change {U : List Part} {r0 : State} {fail : Bool} {q : Nat} {s : State} (hT : ([.regs, .tt, .flt, .icu, .hep, .wxl, .qen, .ctx, .qaux, .spl, .swc, .ports, .cores, .prl, .out] : List Part) ⊆ U) (hC0 : Change U r0 s) :
    Change U r0 (takeQueue fail q s) := by
  have k1 : ([.qaux] : List Part) ⊆ U := List.Subset.trans (by decide) hT
  have k2 : ([.ctx] : List Part) ⊆ U := List.Subset.trans (by decide) hT
  unfold takeQueue
  repeat' first
    | with_reducible exact hC0
    | with_reducible refine Change.ite (fun _ => ?_) (fun _ => ?_)
    | with_reducible refine State.setQa_change k1 ?_
    | with_reducible refine endOp_change hT ?_
    | with_reducible refine State.cput_change k2 ?_
    | with_reducible refine Change.foldl (fun _ _ _ => ?_) ?_
    | with_reducible assumption
    | split
    | dsimp only

theorem takeEnvs_change {U : List Part} {r0 : State} {fail : Bool} {es : List Nat} {s : State} (hT : ([.regs, .tt, .flt, .icu, .hep, .wxl, .qen, .ctx, .qaux, .spl, .swc, .ports, .cores, .prl, .out] : List Part) ⊆ U) (hC0 : Change U r0 s) :
    Change U r0 (takeEnvs fail es s) := by
  have k1 : ([.regs, .wxl] : List Part) ⊆ U := List.Subset.trans (by decide) hT
  have k2 : ([.icu] : List Part) ⊆ U := List.Subset.trans (by decide) hT
  have k3 : ([.regs, .ports, .out] : List Part) ⊆ U := List.Subset.trans (by decide) hT
  have k4 : ([.regs, .tt, .flt, .icu, .out] : List Part) ⊆ U := List.Subset.trans (by decide) hT
  have k5 : ([.regs] : List Part) ⊆ U := List.Subset.trans (by decide) hT
  unfold takeEnvs
  repeat' first
    | with_reducible exact hC0
    | with_reducible refine Change.ite (fun _ => ?_) (fun _ => ?_)
    | with_reducible refine setOwn_change k1 ?_
    | with_reducible refine hpEvent_change k2 ?_
    | with_reducible refine sbPair_change k3 ?_
    | with_reducible refine takeQueue_change hT ?_
    | with_reducible refine icuEvent_change k4 ?_
    | with_reducible refine State.put_change k5 ?_
    | with_reducible refine Change.foldl (fun _ _ _ => ?_) ?_
    | with_reducible assumption
    | split
    | dsimp only

theorem failover_change {U : List Part} {r0 : State} {code : Nat} {s : State} (hT : ([.regs, .tt, .checks, .flt, .icu, .hep, .wxl, .qen, .ctx, .qaux, .spl, .swc, .ports, .cores, .prl, .out] : List Part) ⊆ U) (hC0 : Change U r0 s) :
    Change U r0 (failover code s) := by
  have k1 : ([.regs] : List Part) ⊆ U := List.Subset.trans (by decide) hT
  have k2 : ([.regs, .checks, .ports, .prl, .out] : List Part) ⊆ U := List.Subset.trans (by decide) hT
  have k3 : ([.regs, .tt, .flt, .icu, .out] : List Part) ⊆ U := List.Subset.trans (by decide) hT
  have k4 : ([.regs, .tt, .flt, .icu, .hep, .wxl, .qen, .ctx, .qaux, .spl, .swc, .ports, .cores, .prl, .out] : List Part) ⊆ U := List.Subset.trans (by decide) hT
  have k5 : ([.regs, .tt, .flt, .icu, .prl, .out] : List Part) ⊆ U := List.Subset.trans (by decide) hT
  have k6 : ([.prl] : List Part) ⊆ U := List.Subset.trans (by decide) hT
  unfold failover
  repeat' first
    | with_reducible exact hC0
    | with_reducible refine Change.ite (fun _ => ?_) (fun _ => ?_)
    | with_reducible refine State.bump_change k1 ?_
    | with_reducible refine pairRecheck_change k2 ?_
    | with_reducible refine faultEvent_change k3 ?_
    | with_reducible refine takeEnvs_change k4 ?_
    | with_reducible refine State.put_change k1 ?_
    | with_reducible refine pairState_change k5 ?_
    | with_reducible refine Change.foldl (fun _ _ _ => ?_) ?_
    | with_reducible assumption
    | split
    | dsimp only
    | with_reducible refine Change.set_prl k6 ?_

theorem sendSync_change {U : List Part} {r0 : State} {s : State} (hT : ([.ports, .prl, .out] : List Part) ⊆ U) (hC0 : Change U r0 s) :
    Change U r0 (sendSync s) := by
  have k1 : ([.ports, .out] : List Part) ⊆ U := List.Subset.trans (by decide) hT
  have k2 : ([.prl] : List Part) ⊆ U := List.Subset.trans (by decide) hT
  unfold sendSync
  repeat' first
    | with_reducible exact hC0
    | with_reducible refine Change.ite (fun _ => ?_) (fun _ => ?_)
    | with_reducible refine pairReply_change k1 ?_
    | with_reducible refine pairPkt_change k1 ?_
    | with_reducible refine Change.foldl (fun _ _ _ => ?_) ?_
    | with_reducible assumption
    | split
    | dsimp only
    | with_reducible refine Change.set_prl k2 ?_

theorem toSyncing_change {U : List Part} {r0 : State} {s : State} (hT : ([.regs, .tt, .flt, .icu, .ports, .prl, .out] : List Part) ⊆ U) (hC0 : Change U r0 s) :
    Change U r0 (toSyncing s) := by
  have k1 : ([.ports, .prl, .out] : List Part) ⊆ U := List.Subset.trans (by decide) hT
  have k2 : ([.regs, .tt, .flt, .icu, .prl, .out] : List Part) ⊆ U := List.Subset.trans (by decide) hT
  have k3 : ([.prl] : List Part) ⊆ U := List.Subset.trans (by decide) hT
  unfold toSyncing
  repeat' first
    | with_reducible exact hC0
    | with_reducible refine Change.ite (fun _ => ?_) (fun _ => ?_)
    | with_reducible refine sendSync_change k1 ?_
    | with_reducible refine pairState_change k2 ?_
    | with_reducible refine Change.foldl (fun _ _ _ => ?_) ?_
    | with_reducible assumption
    | split
    | dsimp only
    | with_reducible refine Change.set_prl k3 ?_

theorem pairReady_change {U : List Part} {r0 : State} {s : State} (hT : ([.regs, .tt, .flt, .icu, .ports, .prl, .out] : List Part) ⊆ U) (hC0 : Change U r0 s) :
    Change U r0 (pairReady s) := by
  have k1 : ([.ports, .out] : List Part) ⊆ U := List.Subset.trans (by decide) hT
  have k2 : ([.regs] : List Part) ⊆ U := List.Subset.trans (by decide) hT
  have k3 : ([.regs, .tt, .flt, .icu, .prl, .out] : List Part) ⊆ U := List.Subset.trans (by decide) hT
  have k4 : ([.prl] : List Part) ⊆ U := List.Subset.trans (by decide) hT
  unfold pairReady
  repeat' first
    | with_reducible exact hC0
    | with_reducible refine Change.ite (fun _ => ?_) (fun _ => ?_)
    | with_reducible refine pairReply_change k1 ?_
    | with_reducible refine State.put_change k2 ?_
    | with_reducible refine pairState_change k3 ?_
    | with_reducible refine toSyncing_change hT ?_
    | with_reducible refine Change.foldl (fun _ _ _ => ?_) ?_
    | with_reducible assumption
    | split
    | dsimp only
    | with_reducible refine Change.set_prl k4 ?_

theorem pairEnd_change {U : List Part} {r0 : State} {s : State} (hT : ([.regs, .tt, .flt, .icu, .prl, .out] : List Part) ⊆ U) (hC0 : Change U r0 s) :
    Change U r0 (pairEnd s) := by
  have k1 : ([.regs] : List Part) ⊆ U := List.Subset.trans (by decide) hT
  have k2 : ([.prl] : List Part) ⊆ U := List.Subset.trans (by decide) hT
  unfold pairEnd
  repeat' first
    | with_reducible exact hC0
    | with_reducible refine Change.ite (fun _ => ?_) (fun _ => ?_)
    | with_reducible refine State.put_change k1 ?_
    | with_reducible refine pairState_change hT ?_
    | with_reducible refine Change.foldl (fun _ _ _ => ?_) ?_
    | with_reducible assumption
    | split
    | dsimp only
    | with_reducible refine Change.set_prl k2 ?_

theorem discardClaim_change {U : List Part} {r0 : State} {e : Nat} {s : State} (hT : ([.regs, .tt, .flt, .icu, .hep, .wxl, .ctx, .qaux, .spl, .swc, .ports, .cores, .out] : List Part) ⊆ U) (hC0 : Change U r0 s) :
    Change U r0 (discardClaim e s) := by
  have k1 : ([.regs, .wxl] : List Part) ⊆ U := List.Subset.trans (by decide) hT
  unfold discardClaim
  repeat' first
    | with_reducible exact hC0
    | with_reducible refine Change.ite (fun _ => ?_) (fun _ => ?_)
    | with_reducible refine setOwn_change k1 ?_
    | with_reducible refine abandonOp_change hT ?_
    | with_reducible refine Change.foldl (fun _ _ _ => ?_) ?_
    | with_reducible assumption
    | split
    | dsimp only

theorem pairFormed_change {U : List Part} {r0 : State} {s : State} (hT : ([.regs, .tt, .flt, .icu, .wxl, .ports, .prl, .out] : List Part) ⊆ U) (hC0 : Change U r0 s) :
    Change U r0 (pairFormed s) := by
  have k1 : ([.regs, .wxl] : List Part) ⊆ U := List.Subset.trans (by decide) hT
  have k2 : ([.regs, .ports, .out] : List Part) ⊆ U := List.Subset.trans (by decide) hT
  have k3 : ([.regs, .tt, .flt, .icu, .out] : List Part) ⊆ U := List.Subset.trans (by decide) hT
  have k4 : ([.regs, .tt, .flt, .icu, .prl, .out] : List Part) ⊆ U := List.Subset.trans (by decide) hT
  have k5 : ([.prl] : List Part) ⊆ U := List.Subset.trans (by decide) hT
  unfold pairFormed
  repeat' first
    | with_reducible exact hC0
    | with_reducible refine Change.ite (fun _ => ?_) (fun _ => ?_)
    | with_reducible refine setOwn_change k1 ?_
    | with_reducible refine sbPair_change k2 ?_
    | with_reducible refine icuEvent_change k3 ?_
    | with_reducible refine pairState_change k4 ?_
    | with_reducible refine Change.foldl (fun _ _ _ => ?_) ?_
    | with_reducible assumption
    | split
    | dsimp only
    | with_reducible refine Change.set_prl k5 ?_

theorem syncAgreed_change {U : List Part} {r0 : State} {s : State} (hT : ([.regs, .tt, .dev, .flt, .icu, .hep, .wxl, .ctx, .qaux, .spl, .swc, .ports, .cores, .prl, .out] : List Part) ⊆ U) (hC0 : Change U r0 s) :
    Change U r0 (syncAgreed s) := by
  have k1 : ([.regs, .tt, .dev, .flt, .icu, .spl, .out] : List Part) ⊆ U := List.Subset.trans (by decide) hT
  have k2 : ([.regs, .tt, .flt, .icu, .out] : List Part) ⊆ U := List.Subset.trans (by decide) hT
  have k3 : ([.regs, .tt, .flt, .icu, .wxl, .ports, .prl, .out] : List Part) ⊆ U := List.Subset.trans (by decide) hT
  have k4 : ([.regs, .tt, .flt, .icu, .hep, .wxl, .ctx, .qaux, .spl, .swc, .ports, .cores, .out] : List Part) ⊆ U := List.Subset.trans (by decide) hT
  unfold syncAgreed
  repeat' first
    | with_reducible exact hC0
    | with_reducible refine Change.ite (fun _ => ?_) (fun _ => ?_)
    | with_reducible refine quiesceSet_change k1 ?_
    | with_reducible refine quiesceClear_change k1 ?_
    | with_reducible refine faultEvent_change k2 ?_
    | with_reducible refine pairFormed_change k3 ?_
    | with_reducible refine discardClaim_change k4 ?_
    | with_reducible refine Change.foldl (fun _ _ _ => ?_) ?_
    | with_reducible assumption
    | split
    | dsimp only

theorem giveBegin_change {U : List Part} {r0 : State} {es : List Nat} {s : State} (hT : ([.regs, .tt, .dev, .flt, .icu, .spl, .prl, .out] : List Part) ⊆ U) (hC0 : Change U r0 s) :
    Change U r0 (giveBegin es s) := by
  have k1 : ([.regs, .tt, .dev, .flt, .icu, .spl, .out] : List Part) ⊆ U := List.Subset.trans (by decide) hT
  have k2 : ([.prl] : List Part) ⊆ U := List.Subset.trans (by decide) hT
  unfold giveBegin
  repeat' first
    | with_reducible exact hC0
    | with_reducible refine Change.ite (fun _ => ?_) (fun _ => ?_)
    | with_reducible refine quiesceSet_change k1 ?_
    | with_reducible refine Change.foldl (fun _ _ _ => ?_) ?_
    | with_reducible assumption
    | split
    | dsimp only
    | with_reducible refine Change.set_prl k2 ?_

theorem giveEnd_change {U : List Part} {r0 : State} {s : State} (hT : ([.regs, .tt, .dev, .flt, .icu, .wxl, .spl, .ports, .prl, .out] : List Part) ⊆ U) (hC0 : Change U r0 s) :
    Change U r0 (giveEnd s) := by
  have k1 : ([.regs, .wxl] : List Part) ⊆ U := List.Subset.trans (by decide) hT
  have k2 : ([.regs, .tt, .dev, .flt, .icu, .spl, .out] : List Part) ⊆ U := List.Subset.trans (by decide) hT
  have k3 : ([.regs, .ports, .out] : List Part) ⊆ U := List.Subset.trans (by decide) hT
  have k4 : ([.ports, .out] : List Part) ⊆ U := List.Subset.trans (by decide) hT
  have k5 : ([.regs, .tt, .flt, .icu, .out] : List Part) ⊆ U := List.Subset.trans (by decide) hT
  have k6 : ([.prl] : List Part) ⊆ U := List.Subset.trans (by decide) hT
  unfold giveEnd
  repeat' first
    | with_reducible exact hC0
    | with_reducible refine Change.ite (fun _ => ?_) (fun _ => ?_)
    | with_reducible refine setOwn_change k1 ?_
    | with_reducible refine quiesceClear_change k2 ?_
    | with_reducible refine sbPair_change k3 ?_
    | with_reducible refine pairReply_change k4 ?_
    | with_reducible refine icuEvent_change k5 ?_
    | with_reducible refine Change.foldl (fun _ _ _ => ?_) ?_
    | with_reducible assumption
    | split
    | dsimp only
    | with_reducible refine Change.set_prl k6 ?_

theorem hbSource_change {U : List Part} {r0 : State} {v : Bool} {s : State} (hT : ([.regs, .tt, .flt, .icu, .out] : List Part) ⊆ U) (hC0 : Change U r0 s) :
    Change U r0 (hbSource v s) := by
  unfold hbSource
  repeat' first
    | with_reducible exact hC0
    | with_reducible refine Change.ite (fun _ => ?_) (fun _ => ?_)
    | with_reducible refine icuLevel_change hT ?_
    | with_reducible refine Change.foldl (fun _ _ _ => ?_) ?_
    | with_reducible assumption
    | split
    | dsimp only

theorem pairMsg_change {U : List Part} {r0 : State} {m : PairMsg} {s : State} (hT : ([.regs, .tt, .checks, .flt, .icu, .hep, .wxl, .xt, .qen, .ctx, .qaux, .spl, .swc, .ports, .cores, .prl, .out] : List Part) ⊆ U) (hC0 : Change U r0 s) :
    Change U r0 (pairMsg m s) := by
  have k1 : ([.regs] : List Part) ⊆ U := List.Subset.trans (by decide) hT
  have k2 : ([.regs, .tt, .flt, .icu, .out] : List Part) ⊆ U := List.Subset.trans (by decide) hT
  have k3 : ([.qaux] : List Part) ⊆ U := List.Subset.trans (by decide) hT
  have k4 : ([.regs, .tt, .checks, .flt, .icu, .hep, .wxl, .qen, .ctx, .qaux, .spl, .swc, .ports, .cores, .prl, .out] : List Part) ⊆ U := List.Subset.trans (by decide) hT
  have k5 : ([.regs, .tt, .flt, .icu, .hep, .wxl, .qen, .ctx, .qaux, .spl, .swc, .ports, .cores, .prl, .out] : List Part) ⊆ U := List.Subset.trans (by decide) hT
  have k6 : ([.ports, .out] : List Part) ⊆ U := List.Subset.trans (by decide) hT
  have k7 : ([.regs, .ctx, .qaux] : List Part) ⊆ U := List.Subset.trans (by decide) hT
  have k8 : ([.regs, .tt, .flt, .icu, .wxl, .xt, .swc, .out] : List Part) ⊆ U := List.Subset.trans (by decide) hT
  have k9 : ([.regs, .tt, .flt, .icu, .ports, .prl, .out] : List Part) ⊆ U := List.Subset.trans (by decide) hT
  have k10 : ([.prl] : List Part) ⊆ U := List.Subset.trans (by decide) hT
  unfold pairMsg
  repeat' first
    | with_reducible exact hC0
    | with_reducible refine Change.ite (fun _ => ?_) (fun _ => ?_)
    | with_reducible refine State.bump_change k1 ?_
    | with_reducible refine hbSource_change k2 ?_
    | with_reducible refine State.setQa_change k3 ?_
    | with_reducible refine failover_change k4 ?_
    | with_reducible refine faultEvent_change k2 ?_
    | with_reducible refine takeEnvs_change k5 ?_
    | with_reducible refine pairReply_change k6 ?_
    | with_reducible refine mirrorCtx_change k7 ?_
    | with_reducible refine State.put_change k1 ?_
    | with_reducible refine mirrorXlate_change k8 ?_
    | with_reducible refine toSyncing_change k9 ?_
    | with_reducible refine Change.foldl (fun _ _ _ => ?_) ?_
    | with_reducible refine Change.ofId ?_
    | with_reducible assumption
    | split
    | dsimp only
    | with_reducible refine Change.set_prl k10 ?_

theorem hbEdge_change {U : List Part} {r0 : State} {level : Bool} {s : State} (hT : ([.regs, .tt, .pins, .flt, .icu, .prl, .out] : List Part) ⊆ U) (hC0 : Change U r0 s) :
    Change U r0 (hbEdge level s) := by
  have k1 : ([.regs, .tt, .flt, .icu, .out] : List Part) ⊆ U := List.Subset.trans (by decide) hT
  have k2 : ([.regs] : List Part) ⊆ U := List.Subset.trans (by decide) hT
  have k3 : ([.pins, .prl] : List Part) ⊆ U := List.Subset.trans (by decide) hT
  have k4 : ([.prl] : List Part) ⊆ U := List.Subset.trans (by decide) hT
  have k5 : ([.pins] : List Part) ⊆ U := List.Subset.trans (by decide) hT
  unfold hbEdge
  repeat' first
    | with_reducible exact hC0
    | with_reducible refine Change.ite (fun _ => ?_) (fun _ => ?_)
    | with_reducible refine hbSource_change k1 ?_
    | with_reducible refine State.put_change k2 ?_
    | with_reducible refine Change.foldl (fun _ _ _ => ?_) ?_
    | with_reducible assumption
    | split
    | dsimp only
    | with_reducible refine Change.set_pins_prl k3 ?_
    | with_reducible refine Change.set_prl k4 ?_
    | with_reducible refine Change.set_pins k5 ?_

theorem hbSilence_change {U : List Part} {r0 : State} {s : State} (hT : ([.regs, .ports, .prl, .out] : List Part) ⊆ U) (hC0 : Change U r0 s) :
    Change U r0 (hbSilence s) := by
  have k1 : ([.regs] : List Part) ⊆ U := List.Subset.trans (by decide) hT
  have k2 : ([.ports, .out] : List Part) ⊆ U := List.Subset.trans (by decide) hT
  have k3 : ([.prl] : List Part) ⊆ U := List.Subset.trans (by decide) hT
  unfold hbSilence
  repeat' first
    | with_reducible exact hC0
    | with_reducible refine Change.ite (fun _ => ?_) (fun _ => ?_)
    | with_reducible refine State.bump_change k1 ?_
    | with_reducible refine pairReply_change k2 ?_
    | with_reducible refine State.put_change k1 ?_
    | with_reducible refine Change.foldl (fun _ _ _ => ?_) ?_
    | with_reducible assumption
    | split
    | dsimp only
    | with_reducible refine Change.set_prl k3 ?_

theorem probeSilent_change {U : List Part} {r0 : State} {s : State} (hT : ([.regs, .tt, .checks, .flt, .icu, .hep, .wxl, .qen, .ctx, .qaux, .spl, .swc, .ports, .cores, .prl, .out] : List Part) ⊆ U) (hC0 : Change U r0 s) :
    Change U r0 (probeSilent s) := by
  have k1 : ([.prl] : List Part) ⊆ U := List.Subset.trans (by decide) hT
  unfold probeSilent
  repeat' first
    | with_reducible exact hC0
    | with_reducible refine Change.ite (fun _ => ?_) (fun _ => ?_)
    | with_reducible refine failover_change hT ?_
    | with_reducible refine Change.foldl (fun _ _ _ => ?_) ?_
    | with_reducible assumption
    | split
    | dsimp only
    | with_reducible refine Change.set_prl k1 ?_

theorem confirmDelay_change {U : List Part} {r0 : State} {s : State} (hT : ([.regs, .tt, .checks, .flt, .icu, .hep, .wxl, .qen, .ctx, .qaux, .spl, .swc, .ports, .cores, .prl, .out] : List Part) ⊆ U) (hC0 : Change U r0 s) :
    Change U r0 (confirmDelay s) := by
  unfold confirmDelay
  repeat' first
    | with_reducible exact hC0
    | with_reducible refine Change.ite (fun _ => ?_) (fun _ => ?_)
    | with_reducible refine failover_change hT ?_
    | with_reducible refine Change.foldl (fun _ _ _ => ?_) ?_
    | with_reducible assumption
    | split
    | dsimp only

end Sys2Proof.Machine
end

