-- ==== Sys2Proof/Laws/Checks.lean ====
section
/-! SUPPORT. What each operation of Machine/Checks.lean may change. -/
set_option linter.all false
set_option linter.unusedTactic false
set_option linter.unreachableTactic false

namespace Sys2Proof.Machine

open Sys2Proof

theorem fltEmpty_change {U : List Part} {r0 : State} {b : Blk} {s : State} (hT : ([.regs] : List Part) ⊆ U) (hC0 : Change U r0 s) :
    Change U r0 (fltEmpty b s) := by
  unfold fltEmpty
  repeat' first
    | with_reducible exact hC0
    | with_reducible refine Change.ite (fun _ => ?_) (fun _ => ?_)
    | with_reducible refine State.put_change hT ?_
    | with_reducible refine Change.foldl (fun _ _ _ => ?_) ?_
    | with_reducible assumption
    | split
    | dsimp only

theorem tailBegin_change {U : List Part} {r0 : State} {s : State} (hT : ([.regs, .swc] : List Part) ⊆ U) (hC0 : Change U r0 s) :
    Change U r0 (tailBegin s) := by
  have k1 : ([.regs] : List Part) ⊆ U := List.Subset.trans (by decide) hT
  have k2 : ([.swc] : List Part) ⊆ U := List.Subset.trans (by decide) hT
  unfold tailBegin
  repeat' first
    | with_reducible exact hC0
    | with_reducible refine Change.ite (fun _ => ?_) (fun _ => ?_)
    | with_reducible refine State.put_change k1 ?_
    | with_reducible refine Change.foldl (fun _ _ _ => ?_) ?_
    | with_reducible assumption
    | split
    | dsimp only
    | with_reducible refine Change.set_swc k2 ?_

theorem passBlock_change {U : List Part} {r0 : State} {b : Blk} {c : Check} {s : State} (hT : ([.regs, .tt, .dev, .checks, .flt, .icu, .hep, .wxl, .qen, .ctx, .qaux, .spl, .swc, .ports, .cores, .prl, .out] : List Part) ⊆ U) (hC0 : Change U r0 s) :
    Change U r0 (passBlock b c s) := by
  have k1 : ([.regs, .swc] : List Part) ⊆ U := List.Subset.trans (by decide) hT
  have k2 : ([.regs, .icu] : List Part) ⊆ U := List.Subset.trans (by decide) hT
  have k3 : ([.regs] : List Part) ⊆ U := List.Subset.trans (by decide) hT
  have k4 : ([.regs, .ctx, .qaux, .ports, .prl, .out] : List Part) ⊆ U := List.Subset.trans (by decide) hT
  have k5 : ([.regs, .tt, .dev, .flt, .icu, .spl, .out] : List Part) ⊆ U := List.Subset.trans (by decide) hT
  have k6 : ([.regs, .tt, .checks, .flt, .icu, .hep, .wxl, .qen, .ctx, .qaux, .spl, .swc, .ports, .cores, .prl, .out] : List Part) ⊆ U := List.Subset.trans (by decide) hT
  have k7 : ([.regs, .tt, .checks, .flt, .icu, .ports, .prl, .out] : List Part) ⊆ U := List.Subset.trans (by decide) hT
  have k8 : ([.regs, .spl] : List Part) ⊆ U := List.Subset.trans (by decide) hT
  have k9 : ([.regs, .qaux] : List Part) ⊆ U := List.Subset.trans (by decide) hT
  have k10 : ([.regs, .tt, .flt, .icu, .ports, .prl, .out] : List Part) ⊆ U := List.Subset.trans (by decide) hT
  have k11 : ([.regs, .wxl] : List Part) ⊆ U := List.Subset.trans (by decide) hT
  have k12 : ([.regs, .icu, .cores] : List Part) ⊆ U := List.Subset.trans (by decide) hT
  unfold passBlock
  repeat' first
    | with_reducible exact hC0
    | with_reducible refine Change.ite (fun _ => ?_) (fun _ => ?_)
    | with_reducible refine tailBegin_change k1 ?_
    | with_reducible refine icuOfferAll_change k2 ?_
    | with_reducible refine fltEmpty_change k3 ?_
    | with_reducible refine enableQueue_change k4 ?_
    | with_reducible refine enterRun_change k5 ?_
    | with_reducible refine qResume_change k6 ?_
    | with_reducible refine portTry1_change k7 ?_
    | with_reducible refine State.put_change k3 ?_
    | with_reducible refine envBegin_change k8 ?_
    | with_reducible refine cmdFree_change k9 ?_
    | with_reducible refine icuOffer_change k2 ?_
    | with_reducible refine pairReady_change k10 ?_
    | with_reducible refine retrain_change k11 ?_
    | with_reducible refine coreStart_change k12 ?_
    | with_reducible refine Change.foldl (fun _ _ _ => ?_) ?_
    | with_reducible assumption
    | split
    | dsimp only

theorem checkPass_change {U : List Part} {r0 : State} {c : Check} {s : State} (hT : ([.regs, .tt, .dev, .checks, .flt, .icu, .hep, .wxl, .qen, .ctx, .qaux, .spl, .swc, .ports, .cores, .prl, .out] : List Part) ⊆ U) (hC0 : Change U r0 s) :
    Change U r0 (checkPass c s) := by
  have k1 : ([.regs] : List Part) ⊆ U := List.Subset.trans (by decide) hT
  have k2 : ([.regs, .tt, .flt, .icu, .out] : List Part) ⊆ U := List.Subset.trans (by decide) hT
  unfold checkPass
  repeat' first
    | with_reducible exact hC0
    | with_reducible refine Change.ite (fun _ => ?_) (fun _ => ?_)
    | with_reducible refine State.setReg_change k1 ?_
    | with_reducible refine irqSync_change k2 ?_
    | with_reducible refine State.put_change k1 ?_
    | with_reducible refine passBlock_change hT ?_
    | with_reducible refine Change.foldl (fun _ _ _ => ?_) ?_
    | with_reducible assumption
    | split
    | dsimp only

theorem checkRefuse_change {U : List Part} {r0 : State} {c : Check} {reason : Nat} {s : State} (hT : ([.regs, .tt, .checks, .flt, .icu, .hep, .wxl, .qen, .ctx, .qaux, .spl, .swc, .ports, .cores, .prl, .out] : List Part) ⊆ U) (hC0 : Change U r0 s) :
    Change U r0 (checkRefuse c reason s) := by
  have k1 : ([.regs, .tt, .flt, .icu, .prl, .out] : List Part) ⊆ U := List.Subset.trans (by decide) hT
  have k2 : ([.regs, .qaux] : List Part) ⊆ U := List.Subset.trans (by decide) hT
  unfold checkRefuse
  repeat' first
    | with_reducible exact hC0
    | with_reducible refine Change.ite (fun _ => ?_) (fun _ => ?_)
    | with_reducible refine pairEnd_change k1 ?_
    | with_reducible refine qResume_change hT ?_
    | with_reducible refine cmdFree_change k2 ?_
    | with_reducible refine Change.foldl (fun _ _ _ => ?_) ?_
    | with_reducible assumption
    | split
    | dsimp only

theorem checkEnd_change {U : List Part} {r0 : State} {s : State} (hT : ([.regs, .tt, .dev, .checks, .flt, .icu, .hep, .wxl, .qen, .ctx, .qaux, .spl, .swc, .ports, .cores, .prl, .out] : List Part) ⊆ U) (hC0 : Change U r0 s) :
    Change U r0 (checkEnd s) := by
  have k1 : ([.regs] : List Part) ⊆ U := List.Subset.trans (by decide) hT
  have k2 : ([.regs, .tt, .checks, .flt, .icu, .hep, .wxl, .qen, .ctx, .qaux, .spl, .swc, .ports, .cores, .prl, .out] : List Part) ⊆ U := List.Subset.trans (by decide) hT
  have k3 : ([.checks] : List Part) ⊆ U := List.Subset.trans (by decide) hT
  unfold checkEnd
  repeat' first
    | with_reducible exact hC0
    | with_reducible refine Change.ite (fun _ => ?_) (fun _ => ?_)
    | with_reducible refine State.setReg_change k1 ?_
    | with_reducible refine checkRefuse_change k2 ?_
    | with_reducible refine checkPass_change hT ?_
    | with_reducible refine Change.foldl (fun _ _ _ => ?_) ?_
    | with_reducible assumption
    | split
    | dsimp only
    | with_reducible refine Change.set_checks k3 ?_

theorem pushCheck_change {U : List Part} {r0 : State} {off : Nat} {v : Word} {bit : Option Nat} {s : State} (hT : ([.regs, .checks] : List Part) ⊆ U) (hC0 : Change U r0 s) :
    Change U r0 (pushCheck off v bit s) := by
  have k1 : ([.regs] : List Part) ⊆ U := List.Subset.trans (by decide) hT
  have k2 : ([.checks] : List Part) ⊆ U := List.Subset.trans (by decide) hT
  unfold pushCheck
  repeat' first
    | with_reducible exact hC0
    | with_reducible refine Change.ite (fun _ => ?_) (fun _ => ?_)
    | with_reducible refine State.setReg_change k1 ?_
    | with_reducible refine Change.foldl (fun _ _ _ => ?_) ?_
    | with_reducible assumption
    | split
    | dsimp only
    | with_reducible refine Change.set_checks k2 ?_

end Sys2Proof.Machine
end

