-- ==== Sys2Proof/Laws/FaultOps.lean ====
section
/-! SUPPORT. What each operation of Machine/FaultOps.lean may change. -/
set_option linter.all false
set_option linter.unusedTactic false
set_option linter.unreachableTactic false

namespace Sys2Proof.Machine

open Sys2Proof

theorem sramRetire_change {U : List Part} {r0 : State} {b : Blk} {bank : Nat} {s : State} (hT : ([.regs, .tt, .dev, .flt, .icu, .spl, .sram, .out] : List Part) ⊆ U) (hC0 : Change U r0 s) :
    Change U r0 (sramRetire b bank s) := by
  have k1 : ([.regs, .tt, .dev, .flt, .icu, .spl, .out] : List Part) ⊆ U := List.Subset.trans (by decide) hT
  have k2 : ([.sram] : List Part) ⊆ U := List.Subset.trans (by decide) hT
  unfold sramRetire
  repeat' first
    | with_reducible exact hC0
    | with_reducible refine Change.ite (fun _ => ?_) (fun _ => ?_)
    | with_reducible refine reduceService_change k1 ?_
    | with_reducible refine Change.foldl (fun _ _ _ => ?_) ?_
    | with_reducible assumption
    | split
    | dsimp only
    | refine Change.set_sram k2 (by first | exact fun c => KMap.wf_set _ _ _ _ c.sram | exact fun c => KMap.wf_filter _ _ _ c.sram | exact fun _ => rfl) ?_

theorem swcRetire_change {U : List Part} {r0 : State} {k : Nat} {s : State} (hT : ([.regs, .tt, .dev, .flt, .icu, .spl, .swc, .out] : List Part) ⊆ U) (hC0 : Change U r0 s) :
    Change U r0 (swcRetire k s) := by
  have k1 : ([.regs] : List Part) ⊆ U := List.Subset.trans (by decide) hT
  have k2 : ([.regs, .tt, .flt, .icu, .out] : List Part) ⊆ U := List.Subset.trans (by decide) hT
  have k3 : ([.regs, .tt, .dev, .flt, .icu, .spl, .out] : List Part) ⊆ U := List.Subset.trans (by decide) hT
  have k4 : ([.swc] : List Part) ⊆ U := List.Subset.trans (by decide) hT
  unfold swcRetire
  repeat' first
    | with_reducible exact hC0
    | with_reducible refine Change.ite (fun _ => ?_) (fun _ => ?_)
    | with_reducible refine State.bump_change k1 ?_
    | with_reducible refine faultEvent_change k2 ?_
    | with_reducible refine State.put_change k1 ?_
    | with_reducible refine reduceService_change k3 ?_
    | with_reducible refine Change.foldl (fun _ _ _ => ?_) ?_
    | with_reducible assumption
    | split
    | dsimp only
    | with_reducible refine Change.set_swc k4 ?_

theorem tcRetire_change {U : List Part} {r0 : State} {k : Nat} {s : State} (hT : ([.regs, .tt, .dev, .flt, .icu, .wxl, .spl, .out] : List Part) ⊆ U) (hC0 : Change U r0 s) :
    Change U r0 (tcRetire k s) := by
  have k1 : ([.regs] : List Part) ⊆ U := List.Subset.trans (by decide) hT
  have k2 : ([.regs, .tt, .dev, .flt, .icu, .spl, .out] : List Part) ⊆ U := List.Subset.trans (by decide) hT
  have k3 : ([.wxl] : List Part) ⊆ U := List.Subset.trans (by decide) hT
  unfold tcRetire
  repeat' first
    | with_reducible exact hC0
    | with_reducible refine Change.ite (fun _ => ?_) (fun _ => ?_)
    | with_reducible refine State.put_change k1 ?_
    | with_reducible refine reduceService_change k2 ?_
    | with_reducible refine Change.foldl (fun _ _ _ => ?_) ?_
    | with_reducible assumption
    | split
    | dsimp only
    | with_reducible refine Change.set_wxl k3 ?_

theorem ccRetire_change {U : List Part} {r0 : State} {k : Nat} {s : State} (hT : ([.regs, .tt, .dev, .flt, .icu, .qen, .qaux, .spl, .out] : List Part) ⊆ U) (hC0 : Change U r0 s) :
    Change U r0 (ccRetire k s) := by
  have k1 : ([.qaux] : List Part) ⊆ U := List.Subset.trans (by decide) hT
  have k2 : ([.regs] : List Part) ⊆ U := List.Subset.trans (by decide) hT
  have k3 : ([.regs, .tt, .dev, .flt, .icu, .spl, .out] : List Part) ⊆ U := List.Subset.trans (by decide) hT
  have k4 : ([.qen] : List Part) ⊆ U := List.Subset.trans (by decide) hT
  unfold ccRetire
  repeat' first
    | with_reducible exact hC0
    | with_reducible refine Change.ite (fun _ => ?_) (fun _ => ?_)
    | with_reducible refine dropFetched_change k1 ?_
    | with_reducible refine State.put_change k2 ?_
    | with_reducible refine reduceService_change k3 ?_
    | with_reducible refine Change.foldl (fun _ _ _ => ?_) ?_
    | with_reducible assumption
    | split
    | dsimp only
    | with_reducible refine Change.set_qen k4 ?_

theorem pipeRetire_change {U : List Part} {r0 : State} {k : Nat} {s : State} (hT : ([.regs, .tt, .dev, .flt, .icu, .qen, .spl, .out] : List Part) ⊆ U) (hC0 : Change U r0 s) :
    Change U r0 (pipeRetire k s) := by
  have k1 : ([.regs, .tt, .flt, .icu, .out] : List Part) ⊆ U := List.Subset.trans (by decide) hT
  have k2 : ([.regs] : List Part) ⊆ U := List.Subset.trans (by decide) hT
  have k3 : ([.regs, .tt, .dev, .flt, .icu, .spl, .out] : List Part) ⊆ U := List.Subset.trans (by decide) hT
  have k4 : ([.qen] : List Part) ⊆ U := List.Subset.trans (by decide) hT
  unfold pipeRetire
  repeat' first
    | with_reducible exact hC0
    | with_reducible refine Change.ite (fun _ => ?_) (fun _ => ?_)
    | with_reducible refine faultRaise_change k1 ?_
    | with_reducible refine State.put_change k2 ?_
    | with_reducible refine reduceService_change k3 ?_
    | with_reducible refine Change.foldl (fun _ _ _ => ?_) ?_
    | with_reducible assumption
    | split
    | dsimp only
    | with_reducible refine Change.set_qen k4 ?_

theorem coreRetire_change {U : List Part} {r0 : State} {c : Nat} {s : State} (hT : ([.regs, .tt, .dev, .checks, .flt, .icu, .hep, .wxl, .qen, .ctx, .qaux, .spl, .swc, .ports, .cores, .prl, .out] : List Part) ⊆ U) (hC0 : Change U r0 s) :
    Change U r0 (coreRetire c s) := by
  have k1 : ([.regs, .tt, .flt, .icu, .out] : List Part) ⊆ U := List.Subset.trans (by decide) hT
  have k2 : ([.regs, .tt, .checks, .flt, .icu, .hep, .wxl, .qen, .ctx, .qaux, .spl, .swc, .ports, .cores, .prl, .out] : List Part) ⊆ U := List.Subset.trans (by decide) hT
  have k3 : ([.regs] : List Part) ⊆ U := List.Subset.trans (by decide) hT
  have k4 : ([.regs, .tt, .dev, .flt, .icu, .spl, .out] : List Part) ⊆ U := List.Subset.trans (by decide) hT
  unfold coreRetire
  repeat' first
    | with_reducible exact hC0
    | with_reducible refine Change.ite (fun _ => ?_) (fun _ => ?_)
    | with_reducible refine faultEvent_change k1 ?_
    | with_reducible refine coreLeave_change k2 ?_
    | with_reducible refine State.put_change k3 ?_
    | with_reducible refine reduceService_change k4 ?_
    | with_reducible refine Change.foldl (fun _ _ _ => ?_) ?_
    | with_reducible assumption
    | split
    | dsimp only

theorem tcmRetire_change {U : List Part} {r0 : State} {info : Nat} {s : State} (hT : ([.regs, .tt, .dev, .checks, .flt, .icu, .hep, .wxl, .qen, .ctx, .qaux, .spl, .swc, .ports, .gdc, .cores, .prl, .out] : List Part) ⊆ U) (hC0 : Change U r0 s) :
    Change U r0 (tcmRetire info s) := by
  have k1 : ([.regs, .tt, .dev, .checks, .flt, .icu, .hep, .wxl, .qen, .ctx, .qaux, .spl, .swc, .ports, .cores, .prl, .out] : List Part) ⊆ U := List.Subset.trans (by decide) hT
  have k2 : ([.gdc] : List Part) ⊆ U := List.Subset.trans (by decide) hT
  unfold tcmRetire
  repeat' first
    | with_reducible exact hC0
    | with_reducible refine Change.ite (fun _ => ?_) (fun _ => ?_)
    | with_reducible refine coreRetire_change k1 ?_
    | with_reducible refine Change.foldl (fun _ _ _ => ?_) ?_
    | with_reducible assumption
    | split
    | dsimp only
    | with_reducible refine Change.set_gdc k2 ?_

theorem l2Retire_change {U : List Part} {r0 : State} {bank : Nat} {s : State} (hT : ([.regs, .tt, .dev, .flt, .icu, .spl, .gdc, .out] : List Part) ⊆ U) (hC0 : Change U r0 s) :
    Change U r0 (l2Retire bank s) := by
  have k1 : ([.regs] : List Part) ⊆ U := List.Subset.trans (by decide) hT
  have k2 : ([.regs, .tt, .dev, .flt, .icu, .spl, .out] : List Part) ⊆ U := List.Subset.trans (by decide) hT
  have k3 : ([.gdc] : List Part) ⊆ U := List.Subset.trans (by decide) hT
  unfold l2Retire
  repeat' first
    | with_reducible exact hC0
    | with_reducible refine Change.ite (fun _ => ?_) (fun _ => ?_)
    | with_reducible refine State.bump_change k1 ?_
    | with_reducible refine State.put_change k1 ?_
    | with_reducible refine reduceService_change k2 ?_
    | with_reducible refine Change.foldl (fun _ _ _ => ?_) ?_
    | with_reducible assumption
    | split
    | dsimp only
    | with_reducible refine Change.set_gdc k3 ?_

theorem hbmRetire_change {U : List Part} {r0 : State} {p : Nat} {s : State} (hT : ([.regs, .tt, .dev, .flt, .icu, .wxl, .spl, .hbm, .out] : List Part) ⊆ U) (hC0 : Change U r0 s) :
    Change U r0 (hbmRetire p s) := by
  have k1 : ([.regs, .tt, .flt, .icu, .out] : List Part) ⊆ U := List.Subset.trans (by decide) hT
  have k2 : ([.regs] : List Part) ⊆ U := List.Subset.trans (by decide) hT
  have k3 : ([.wxl] : List Part) ⊆ U := List.Subset.trans (by decide) hT
  have k4 : ([.regs, .tt, .dev, .flt, .icu, .spl, .out] : List Part) ⊆ U := List.Subset.trans (by decide) hT
  have k5 : ([.hbm] : List Part) ⊆ U := List.Subset.trans (by decide) hT
  unfold hbmRetire
  repeat' first
    | with_reducible exact hC0
    | with_reducible refine Change.ite (fun _ => ?_) (fun _ => ?_)
    | with_reducible refine faultEvent_change k1 ?_
    | with_reducible refine State.put_change k2 ?_
    | with_reducible refine pcDrop_change k3 ?_
    | with_reducible refine reduceService_change k4 ?_
    | with_reducible refine Change.foldl (fun _ _ _ => ?_) ?_
    | with_reducible assumption
    | split
    | dsimp only
    | with_reducible refine Change.set_wxl k3 ?_
    | with_reducible refine Change.set_hbm k5 ?_

theorem retireRes_change {U : List Part} {r0 : State} {b : Blk} {id : Nat} {res : Nat} {s : State} (hT : ([.regs, .tt, .dev, .checks, .flt, .icu, .hep, .wxl, .qen, .ctx, .qaux, .spl, .swc, .ports, .hbm, .gdc, .cores, .sram, .prl, .out] : List Part) ⊆ U) (hC0 : Change U r0 s) :
    Change U r0 (retireRes b id res s) := by
  have k1 : ([.regs, .tt, .dev, .flt, .icu, .wxl, .spl, .hbm, .out] : List Part) ⊆ U := List.Subset.trans (by decide) hT
  have k2 : ([.regs, .tt, .dev, .flt, .icu, .spl, .swc, .out] : List Part) ⊆ U := List.Subset.trans (by decide) hT
  have k3 : ([.regs, .tt, .dev, .flt, .icu, .wxl, .spl, .out] : List Part) ⊆ U := List.Subset.trans (by decide) hT
  have k4 : ([.regs, .tt, .dev, .flt, .icu, .spl, .gdc, .out] : List Part) ⊆ U := List.Subset.trans (by decide) hT
  have k5 : ([.regs, .tt, .dev, .flt, .icu, .qen, .spl, .out] : List Part) ⊆ U := List.Subset.trans (by decide) hT
  have k6 : ([.regs, .tt, .dev, .flt, .icu, .qen, .qaux, .spl, .out] : List Part) ⊆ U := List.Subset.trans (by decide) hT
  have k7 : ([.regs, .tt, .dev, .flt, .icu, .spl, .sram, .out] : List Part) ⊆ U := List.Subset.trans (by decide) hT
  have k8 : ([.regs, .tt, .dev, .checks, .flt, .icu, .hep, .wxl, .qen, .ctx, .qaux, .spl, .swc, .ports, .gdc, .cores, .prl, .out] : List Part) ⊆ U := List.Subset.trans (by decide) hT
  unfold retireRes
  repeat' first
    | with_reducible exact hC0
    | with_reducible refine Change.ite (fun _ => ?_) (fun _ => ?_)
    | with_reducible refine hbmRetire_change k1 ?_
    | with_reducible refine swcRetire_change k2 ?_
    | with_reducible refine tcRetire_change k3 ?_
    | with_reducible refine l2Retire_change k4 ?_
    | with_reducible refine pipeRetire_change k5 ?_
    | with_reducible refine ccRetire_change k6 ?_
    | with_reducible refine sramRetire_change k7 ?_
    | with_reducible refine tcmRetire_change k8 ?_
    | with_reducible refine Change.foldl (fun _ _ _ => ?_) ?_
    | with_reducible refine Change.ofId ?_
    | with_reducible assumption
    | split
    | dsimp only

theorem selfTested_change {U : List Part} {r0 : State} {b : Blk} {id : Nat} {pass : Bool} {s : State} (hT : ([.regs, .tt, .dev, .checks, .flt, .icu, .hep, .wxl, .qen, .ctx, .qaux, .spl, .swc, .ports, .hbm, .gdc, .cores, .sram, .prl, .out] : List Part) ⊆ U) (hC0 : Change U r0 s) :
    Change U r0 (selfTested b id pass s) := by
  have k1 : ([.regs, .flt] : List Part) ⊆ U := List.Subset.trans (by decide) hT
  have k2 : ([.flt] : List Part) ⊆ U := List.Subset.trans (by decide) hT
  have k3 : ([.qen] : List Part) ⊆ U := List.Subset.trans (by decide) hT
  unfold selfTested
  repeat' first
    | with_reducible exact hC0
    | with_reducible refine Change.ite (fun _ => ?_) (fun _ => ?_)
    | with_reducible refine startTest_change k1 ?_
    | with_reducible refine testDone_change k1 ?_
    | with_reducible refine State.setFlt_change k2 ?_
    | with_reducible refine retireRes_change hT ?_
    | with_reducible refine Change.foldl (fun _ _ _ => ?_) ?_
    | with_reducible refine Change.ofId ?_
    | with_reducible assumption
    | split
    | dsimp only
    | with_reducible refine Change.set_qen k3 ?_

theorem fenceUnit_change {U : List Part} {r0 : State} {b : Blk} {id : Nat} {info : Nat} {s : State} (hT : ([.regs, .tt, .dev, .checks, .flt, .icu, .hep, .wxl, .qen, .ctx, .qaux, .spl, .swc, .ports, .hbm, .cores, .prl, .out] : List Part) ⊆ U) (hC0 : Change U r0 s) :
    Change U r0 (fenceUnit b id info s) := by
  have k1 : ([.regs, .tt, .checks, .flt, .icu, .hep, .wxl, .qen, .ctx, .qaux, .spl, .swc, .ports, .cores, .prl, .out] : List Part) ⊆ U := List.Subset.trans (by decide) hT
  have k2 : ([.regs, .tt, .dev, .flt, .icu, .wxl, .spl, .hbm, .out] : List Part) ⊆ U := List.Subset.trans (by decide) hT
  have k3 : ([.regs, .tt, .dev, .flt, .icu, .spl, .swc, .out] : List Part) ⊆ U := List.Subset.trans (by decide) hT
  have k4 : ([.regs, .tt, .dev, .flt, .icu, .wxl, .spl, .out] : List Part) ⊆ U := List.Subset.trans (by decide) hT
  have k5 : ([.regs, .tt, .dev, .flt, .icu, .qen, .spl, .out] : List Part) ⊆ U := List.Subset.trans (by decide) hT
  have k6 : ([.regs] : List Part) ⊆ U := List.Subset.trans (by decide) hT
  have k7 : ([.regs, .tt, .dev, .flt, .icu, .qen, .qaux, .spl, .out] : List Part) ⊆ U := List.Subset.trans (by decide) hT
  unfold fenceUnit
  repeat' first
    | with_reducible exact hC0
    | with_reducible refine Change.ite (fun _ => ?_) (fun _ => ?_)
    | with_reducible refine portDisable_change k1 ?_
    | with_reducible refine hbmRetire_change k2 ?_
    | with_reducible refine swcRetire_change k3 ?_
    | with_reducible refine tcRetire_change k4 ?_
    | with_reducible refine pipeRetire_change k5 ?_
    | with_reducible refine coreLeave_change k1 ?_
    | with_reducible refine State.put_change k6 ?_
    | with_reducible refine ccRetire_change k7 ?_
    | with_reducible refine Change.foldl (fun _ _ _ => ?_) ?_
    | with_reducible refine Change.ofId ?_
    | with_reducible assumption
    | split
    | dsimp only

theorem degradedTest_change {U : List Part} {r0 : State} {b : Blk} {id : Nat} {info : Nat} {s : State} (hT : ([.regs, .tt, .checks, .flt, .icu, .ports, .hbm, .prl, .out] : List Part) ⊆ U) (hC0 : Change U r0 s) :
    Change U r0 (degradedTest b id info s) := by
  have k1 : ([.regs, .flt] : List Part) ⊆ U := List.Subset.trans (by decide) hT
  have k2 : ([.regs, .tt, .checks, .flt, .icu, .ports, .prl, .out] : List Part) ⊆ U := List.Subset.trans (by decide) hT
  have k3 : ([.hbm] : List Part) ⊆ U := List.Subset.trans (by decide) hT
  unfold degradedTest
  repeat' first
    | with_reducible exact hC0
    | with_reducible refine Change.ite (fun _ => ?_) (fun _ => ?_)
    | with_reducible refine startTest_change k1 ?_
    | with_reducible refine laneTestDue_change k2 ?_
    | with_reducible refine Change.foldl (fun _ _ _ => ?_) ?_
    | with_reducible refine Change.ofId ?_
    | with_reducible assumption
    | split
    | dsimp only
    | with_reducible refine Change.set_hbm k3 ?_

theorem graceEnd_change {U : List Part} {r0 : State} {b : Blk} {id : Nat} {s : State} (hT : ([.regs, .tt, .dev, .checks, .flt, .icu, .hep, .wxl, .qen, .ctx, .qaux, .spl, .swc, .ports, .hbm, .cores, .prl, .out] : List Part) ⊆ U) (hC0 : Change U r0 s) :
    Change U r0 (graceEnd b id s) := by
  have k1 : ([.regs, .tt, .checks, .flt, .icu, .ports, .hbm, .prl, .out] : List Part) ⊆ U := List.Subset.trans (by decide) hT
  have k2 : ([.flt] : List Part) ⊆ U := List.Subset.trans (by decide) hT
  have k3 : ([.regs, .tt, .dev, .checks, .flt, .icu, .hep, .wxl, .qen, .ctx, .qaux, .spl, .swc, .ports, .cores, .prl, .out] : List Part) ⊆ U := List.Subset.trans (by decide) hT
  have k4 : ([.regs] : List Part) ⊆ U := List.Subset.trans (by decide) hT
  have k5 : ([.regs, .tt, .dev, .flt, .icu, .spl, .out] : List Part) ⊆ U := List.Subset.trans (by decide) hT
  unfold graceEnd
  repeat' first
    | with_reducible exact hC0
    | with_reducible refine Change.ite (fun _ => ?_) (fun _ => ?_)
    | with_reducible refine fenceUnit_change hT ?_
    | with_reducible refine degradedTest_change k1 ?_
    | with_reducible refine State.setFlt_change k2 ?_
    | with_reducible refine enterSafe_change k3 ?_
    | with_reducible refine State.put_change k4 ?_
    | with_reducible refine reduceService_change k5 ?_
    | with_reducible refine Change.foldl (fun _ _ _ => ?_) ?_
    | with_reducible refine Change.ofId ?_
    | with_reducible assumption
    | split
    | dsimp only

theorem faultClear_change {U : List Part} {r0 : State} {b : Blk} {id : Nat} {s : State} (hT : ([.regs, .tt, .flt, .icu, .out] : List Part) ⊆ U) (hC0 : Change U r0 s) :
    Change U r0 (faultClear b id s) := by
  have k1 : ([.regs] : List Part) ⊆ U := List.Subset.trans (by decide) hT
  unfold faultClear
  repeat' first
    | with_reducible exact hC0
    | with_reducible refine Change.ite (fun _ => ?_) (fun _ => ?_)
    | with_reducible refine irqSync_change hT ?_
    | with_reducible refine State.put_change k1 ?_
    | with_reducible refine Change.foldl (fun _ _ _ => ?_) ?_
    | with_reducible refine Change.ofId ?_
    | with_reducible assumption
    | split
    | dsimp only

theorem quietEnd_change {U : List Part} {r0 : State} {b : Blk} {id : Nat} {s : State} (hT : ([.regs, .tt, .flt, .icu, .out] : List Part) ⊆ U) (hC0 : Change U r0 s) :
    Change U r0 (quietEnd b id s) := by
  have k1 : ([.regs] : List Part) ⊆ U := List.Subset.trans (by decide) hT
  unfold quietEnd
  repeat' first
    | with_reducible exact hC0
    | with_reducible refine Change.ite (fun _ => ?_) (fun _ => ?_)
    | with_reducible refine State.bump_change k1 ?_
    | with_reducible refine faultClear_change hT ?_
    | with_reducible refine Change.foldl (fun _ _ _ => ?_) ?_
    | with_reducible refine Change.ofId ?_
    | with_reducible assumption
    | split
    | dsimp only

theorem faultAck_change {U : List Part} {r0 : State} {b : Blk} {v : Word} {s : State} (hT : ([.regs, .tt, .flt, .icu, .out] : List Part) ⊆ U) (hC0 : Change U r0 s) :
    Change U r0 (faultAck b v s) := by
  have k1 : ([.regs] : List Part) ⊆ U := List.Subset.trans (by decide) hT
  unfold faultAck
  repeat' first
    | with_reducible exact hC0
    | with_reducible refine Change.ite (fun _ => ?_) (fun _ => ?_)
    | with_reducible refine irqSync_change hT ?_
    | with_reducible refine State.put_change k1 ?_
    | with_reducible refine Change.foldl (fun _ _ _ => ?_) ?_
    | with_reducible assumption
    | split
    | dsimp only

end Sys2Proof.Machine
end

