-- ==== Sys2Proof/Laws/CtlRules.lean ====
section
/-! SUPPORT. What each operation of Machine/CtlRules.lean may change. -/
set_option linter.all false
set_option linter.unusedTactic false
set_option linter.unreachableTactic false

namespace Sys2Proof.Machine

open Sys2Proof

end Sys2Proof.Machine
end

