-- ==== Sys2Proof/Laws/CtlWrite.lean ====
section
/-! SUPPORT. What each operation of Machine/CtlWrite.lean may change. -/
set_option linter.all false
set_option linter.unusedTactic false
set_option linter.unreachableTactic false

namespace Sys2Proof.Machine

open Sys2Proof

theorem pushOnce_change {U : List Part} {r0 : State} {off : Nat} {v : Word} {bit : Option Nat} {s : State} (hT : ([.regs, .checks] : List Part) ⊆ U) (hC0 : Change U r0 s) :
    Change U r0 (pushOnce off v bit s) := by
  unfold pushOnce
  repeat' first
    | with_reducible exact hC0
    | with_reducible refine Change.ite (fun _ => ?_) (fun _ => ?_)
    | with_reducible refine pushCheck_change hT ?_
    | with_reducible refine Change.foldl (fun _ _ _ => ?_) ?_
    | with_reducible assumption
    | split
    | dsimp only

theorem noticeIf_change {U : List Part} {r0 : State} {c : Bool} {b : Blk} {off : Nat} {s : State} (hT : ([.regs, .tt, .flt, .icu, .out] : List Part) ⊆ U) (hC0 : Change U r0 s) :
    Change U r0 (noticeIf c b off s) := by
  unfold noticeIf
  repeat' first
    | with_reducible exact hC0
    | with_reducible refine Change.ite (fun _ => ?_) (fun _ => ?_)
    | with_reducible refine notice_change hT ?_
    | with_reducible refine Change.foldl (fun _ _ _ => ?_) ?_
    | with_reducible assumption
    | split
    | dsimp only

theorem devCtl_change {U : List Part} {r0 : State} {off : Nat} {old : Word} {v : Word} {s : State} (hT : ([.regs, .tt, .dev, .checks, .flt, .icu, .hep, .wxl, .qen, .ctx, .qaux, .spl, .swc, .ports, .cores, .prl, .out] : List Part) ⊆ U) (hC0 : Change U r0 s) :
    Change U r0 (devCtl off old v s) := by
  have k1 : ([.regs, .tt, .dev, .flt, .icu, .spl, .out] : List Part) ⊆ U := List.Subset.trans (by decide) hT
  have k2 : ([.regs, .tt, .flt, .icu, .out] : List Part) ⊆ U := List.Subset.trans (by decide) hT
  have k3 : ([.regs] : List Part) ⊆ U := List.Subset.trans (by decide) hT
  have k4 : ([.regs, .checks] : List Part) ⊆ U := List.Subset.trans (by decide) hT
  unfold devCtl
  repeat' first
    | with_reducible exact hC0
    | with_reducible refine Change.ite (fun _ => ?_) (fun _ => ?_)
    | with_reducible refine quiesceSet_change k1 ?_
    | with_reducible refine quiesceClear_change k1 ?_
    | with_reducible refine notice_change k2 ?_
    | with_reducible refine enterSafe_change hT ?_
    | with_reducible refine State.put_change k3 ?_
    | with_reducible refine enterTether_change k1 ?_
    | with_reducible refine pushOnce_change k4 ?_
    | with_reducible refine noticeIf_change k2 ?_
    | with_reducible refine Change.foldl (fun _ _ _ => ?_) ?_
    | with_reducible assumption
    | split
    | dsimp only

theorem imgFail_change {U : List Part} {r0 : State} {reason : Nat} {s : State} (hT : ([.regs, .tt, .flt, .icu, .out] : List Part) ⊆ U) (hC0 : Change U r0 s) :
    Change U r0 (imgFail reason s) := by
  have k1 : ([.regs] : List Part) ⊆ U := List.Subset.trans (by decide) hT
  unfold imgFail
  repeat' first
    | with_reducible exact hC0
    | with_reducible refine Change.ite (fun _ => ?_) (fun _ => ?_)
    | with_reducible refine faultEvent_change hT ?_
    | with_reducible refine icuEvent_change hT ?_
    | with_reducible refine State.put_change k1 ?_
    | with_reducible refine Change.foldl (fun _ _ _ => ?_) ?_
    | with_reducible assumption
    | split
    | dsimp only

theorem imgOp_change {U : List Part} {r0 : State} {op : Nat} {s : State} (hT : ([.regs, .tt, .img, .flt, .icu, .out] : List Part) ⊆ U) (hC0 : Change U r0 s) :
    Change U r0 (imgOp op s) := by
  have k1 : ([.regs, .tt, .flt, .icu, .out] : List Part) ⊆ U := List.Subset.trans (by decide) hT
  have k2 : ([.regs] : List Part) ⊆ U := List.Subset.trans (by decide) hT
  have k3 : ([.out] : List Part) ⊆ U := List.Subset.trans (by decide) hT
  have k4 : ([.img] : List Part) ⊆ U := List.Subset.trans (by decide) hT
  unfold imgOp
  repeat' first
    | with_reducible exact hC0
    | with_reducible refine Change.ite (fun _ => ?_) (fun _ => ?_)
    | with_reducible refine imgFail_change k1 ?_
    | with_reducible refine State.put_change k2 ?_
    | with_reducible refine State.emit_change k3 ?_
    | with_reducible refine Change.foldl (fun _ _ _ => ?_) ?_
    | with_reducible assumption
    | split
    | dsimp only
    | with_reducible refine Change.set_img k4 ?_

theorem flushStart_change {U : List Part} {r0 : State} {s : State} (hT : ([.regs, .wxl, .swc] : List Part) ⊆ U) (hC0 : Change U r0 s) :
    Change U r0 (flushStart s) := by
  have k1 : ([.swc] : List Part) ⊆ U := List.Subset.trans (by decide) hT
  have k2 : ([.regs] : List Part) ⊆ U := List.Subset.trans (by decide) hT
  have k3 : ([.wxl] : List Part) ⊆ U := List.Subset.trans (by decide) hT
  unfold flushStart
  repeat' first
    | with_reducible exact hC0
    | with_reducible refine Change.ite (fun _ => ?_) (fun _ => ?_)
    | with_reducible refine State.inject_change k1 ?_
    | with_reducible refine State.put_change k2 ?_
    | with_reducible refine pcDrop_change k3 ?_
    | with_reducible refine Change.foldl (fun _ _ _ => ?_) ?_
    | with_reducible assumption
    | split
    | dsimp only
    | with_reducible refine Change.set_wxl k3 ?_

theorem sediscardClr_change {U : List Part} {r0 : State} {s : State} (hT : ([.regs] : List Part) ⊆ U) (hC0 : Change U r0 s) :
    Change U r0 (sediscardClr s) := by
  unfold sediscardClr
  repeat' first
    | with_reducible exact hC0
    | with_reducible refine Change.ite (fun _ => ?_) (fun _ => ?_)
    | with_reducible refine State.put_change hT ?_
    | with_reducible refine Change.foldl (fun _ _ _ => ?_) ?_
    | with_reducible assumption
    | split
    | dsimp only

theorem retrainAll_change {U : List Part} {r0 : State} {s : State} (hT : ([.regs, .wxl] : List Part) ⊆ U) (hC0 : Change U r0 s) :
    Change U r0 (retrainAll s) := by
  unfold retrainAll
  repeat' first
    | with_reducible exact hC0
    | with_reducible refine Change.ite (fun _ => ?_) (fun _ => ?_)
    | with_reducible refine retrain_change hT ?_
    | with_reducible refine Change.foldl (fun _ _ _ => ?_) ?_
    | with_reducible assumption
    | split
    | dsimp only

theorem calWindow_change {U : List Part} {r0 : State} {s : State} (hT : ([.regs, .spl] : List Part) ⊆ U) (hC0 : Change U r0 s) :
    Change U r0 (calWindow s) := by
  have k1 : ([.regs] : List Part) ⊆ U := List.Subset.trans (by decide) hT
  have k2 : ([.spl] : List Part) ⊆ U := List.Subset.trans (by decide) hT
  unfold calWindow
  repeat' first
    | with_reducible exact hC0
    | with_reducible refine Change.ite (fun _ => ?_) (fun _ => ?_)
    | with_reducible refine State.put_change k1 ?_
    | with_reducible refine Change.foldl (fun _ _ _ => ?_) ?_
    | with_reducible assumption
    | split
    | dsimp only
    | with_reducible refine Change.set_spl k2 ?_

theorem calReload_change {U : List Part} {r0 : State} {s : State} (hT : ([.regs, .spl] : List Part) ⊆ U) (hC0 : Change U r0 s) :
    Change U r0 (calReload s) := by
  have k1 : ([.regs] : List Part) ⊆ U := List.Subset.trans (by decide) hT
  have k2 : ([.spl] : List Part) ⊆ U := List.Subset.trans (by decide) hT
  unfold calReload
  repeat' first
    | with_reducible exact hC0
    | with_reducible refine Change.ite (fun _ => ?_) (fun _ => ?_)
    | with_reducible refine State.setReg_change k1 ?_
    | with_reducible refine calWindow_change hT ?_
    | with_reducible refine State.put_change k1 ?_
    | with_reducible refine Change.foldl (fun _ _ _ => ?_) ?_
    | with_reducible assumption
    | split
    | dsimp only
    | with_reducible refine Change.set_spl k2 ?_

theorem splCtl_change {U : List Part} {r0 : State} {old : Word} {v : Word} {s : State} (hT : ([.regs, .spl] : List Part) ⊆ U) (hC0 : Change U r0 s) :
    Change U r0 (splCtl old v s) := by
  have k1 : ([.regs] : List Part) ⊆ U := List.Subset.trans (by decide) hT
  unfold splCtl
  repeat' first
    | with_reducible exact hC0
    | with_reducible refine Change.ite (fun _ => ?_) (fun _ => ?_)
    | with_reducible refine calReload_change hT ?_
    | with_reducible refine calWindow_change hT ?_
    | with_reducible refine State.put_change k1 ?_
    | with_reducible refine Change.foldl (fun _ _ _ => ?_) ?_
    | with_reducible assumption
    | split
    | dsimp only

theorem slotCtl_change {U : List Part} {r0 : State} {p : Nat} {off : Nat} {old : Word} {v : Word} {s : State} (hT : ([.regs, .tt, .pins, .checks, .flt, .icu, .hep, .wxl, .qen, .ctx, .qaux, .spl, .swc, .ports, .cores, .prl, .out] : List Part) ⊆ U) (hC0 : Change U r0 s) :
    Change U r0 (slotCtl p off old v s) := by
  have k1 : ([.regs] : List Part) ⊆ U := List.Subset.trans (by decide) hT
  have k2 : ([.regs, .tt, .flt, .icu, .out] : List Part) ⊆ U := List.Subset.trans (by decide) hT
  have k3 : ([.regs, .tt, .checks, .flt, .icu, .ports, .prl, .out] : List Part) ⊆ U := List.Subset.trans (by decide) hT
  have k4 : ([.regs, .pins] : List Part) ⊆ U := List.Subset.trans (by decide) hT
  unfold slotCtl
  repeat' first
    | with_reducible exact hC0
    | with_reducible refine Change.ite (fun _ => ?_) (fun _ => ?_)
    | with_reducible refine State.setReg_change k1 ?_
    | with_reducible refine slotSync_change k2 ?_
    | with_reducible refine portTry1_change k3 ?_
    | with_reducible refine slotOn_change k4 ?_
    | with_reducible refine slotOff_change hT ?_
    | with_reducible refine noticeIf_change k2 ?_
    | with_reducible refine Change.foldl (fun _ _ _ => ?_) ?_
    | with_reducible assumption
    | split
    | dsimp only

theorem sbSync_change {U : List Part} {r0 : State} {p : Nat} {s : State} (hT : ([.regs, .tt, .flt, .icu, .out] : List Part) ⊆ U) (hC0 : Change U r0 s) :
    Change U r0 (sbSync p s) := by
  unfold sbSync
  repeat' first
    | with_reducible exact hC0
    | with_reducible refine Change.ite (fun _ => ?_) (fun _ => ?_)
    | with_reducible refine icuLevel_change hT ?_
    | with_reducible refine Change.foldl (fun _ _ _ => ?_) ?_
    | with_reducible assumption
    | split
    | dsimp only

theorem perrSync_change {U : List Part} {r0 : State} {p : Nat} {s : State} (hT : ([.regs, .tt, .flt, .icu, .out] : List Part) ⊆ U) (hC0 : Change U r0 s) :
    Change U r0 (perrSync p s) := by
  unfold perrSync
  repeat' first
    | with_reducible exact hC0
    | with_reducible refine Change.ite (fun _ => ?_) (fun _ => ?_)
    | with_reducible refine icuLevel_change hT ?_
    | with_reducible refine Change.foldl (fun _ _ _ => ?_) ?_
    | with_reducible assumption
    | split
    | dsimp only

theorem sbOut_change {U : List Part} {r0 : State} {p : Nat} {off : Nat} {old : Word} {v : Word} {s : State} (hT : ([.regs, .tt, .flt, .icu, .ports, .out] : List Part) ⊆ U) (hC0 : Change U r0 s) :
    Change U r0 (sbOut p off old v s) := by
  have k1 : ([.regs, .tt, .flt, .icu, .out] : List Part) ⊆ U := List.Subset.trans (by decide) hT
  have k2 : ([.regs] : List Part) ⊆ U := List.Subset.trans (by decide) hT
  have k3 : ([.ports, .out] : List Part) ⊆ U := List.Subset.trans (by decide) hT
  unfold sbOut
  repeat' first
    | with_reducible exact hC0
    | with_reducible refine Change.ite (fun _ => ?_) (fun _ => ?_)
    | with_reducible refine sbSync_change k1 ?_
    | with_reducible refine State.put_change k2 ?_
    | with_reducible refine sbChanges_change k3 ?_
    | with_reducible refine noticeIf_change k1 ?_
    | with_reducible refine Change.foldl (fun _ _ _ => ?_) ?_
    | with_reducible assumption
    | split
    | dsimp only

theorem cfgGo_change {U : List Part} {r0 : State} {p : Nat} {s : State} (hT : ([.regs, .ports, .out] : List Part) ⊆ U) (hC0 : Change U r0 s) :
    Change U r0 (cfgGo p s) := by
  have k1 : ([.ports, .out] : List Part) ⊆ U := List.Subset.trans (by decide) hT
  have k2 : ([.ports] : List Part) ⊆ U := List.Subset.trans (by decide) hT
  have k3 : ([.regs] : List Part) ⊆ U := List.Subset.trans (by decide) hT
  unfold cfgGo
  repeat' first
    | with_reducible exact hC0
    | with_reducible refine Change.ite (fun _ => ?_) (fun _ => ?_)
    | with_reducible refine sendPkt_change k1 ?_
    | with_reducible refine State.modPort_change k2 ?_
    | with_reducible refine State.put_change k3 ?_
    | with_reducible refine Change.foldl (fun _ _ _ => ?_) ?_
    | with_reducible assumption
    | split
    | dsimp only

theorem prlCtl_change {U : List Part} {r0 : State} {off : Nat} {old : Word} {v : Word} {s : State} (hT : ([.regs, .tt, .dev, .checks, .flt, .icu, .hep, .wxl, .qen, .ctx, .qaux, .spl, .swc, .ports, .cores, .prl, .out] : List Part) ⊆ U) (hC0 : Change U r0 s) :
    Change U r0 (prlCtl off old v s) := by
  have k1 : ([.regs, .tt, .checks, .flt, .icu, .hep, .wxl, .qen, .ctx, .qaux, .spl, .swc, .ports, .cores, .prl, .out] : List Part) ⊆ U := List.Subset.trans (by decide) hT
  have k2 : ([.regs, .tt, .dev, .flt, .icu, .spl, .prl, .out] : List Part) ⊆ U := List.Subset.trans (by decide) hT
  have k3 : ([.regs, .tt, .flt, .icu, .out] : List Part) ⊆ U := List.Subset.trans (by decide) hT
  unfold prlCtl
  repeat' first
    | with_reducible exact hC0
    | with_reducible refine Change.ite (fun _ => ?_) (fun _ => ?_)
    | with_reducible refine holdDisable_change k1 ?_
    | with_reducible refine giveBegin_change k2 ?_
    | with_reducible refine noticeIf_change k3 ?_
    | with_reducible refine Change.foldl (fun _ _ _ => ?_) ?_
    | with_reducible assumption
    | split
    | dsimp only

theorem icuSwiAct_change {U : List Part} {r0 : State} {v : Word} {s : State} (hT : ([.regs, .tt, .flt, .icu, .out] : List Part) ⊆ U) (hC0 : Change U r0 s) :
    Change U r0 (icuSwiAct v s) := by
  unfold icuSwiAct
  repeat' first
    | with_reducible exact hC0
    | with_reducible refine Change.ite (fun _ => ?_) (fun _ => ?_)
    | with_reducible refine icuEvent_change hT ?_
    | with_reducible refine Change.foldl (fun _ _ _ => ?_) ?_
    | with_reducible assumption
    | split
    | dsimp only

theorem icuDone_change {U : List Part} {r0 : State} {c : Nat} {n : Nat} {s : State} (hT : ([.regs, .tt, .flt, .icu, .out] : List Part) ⊆ U) (hC0 : Change U r0 s) :
    Change U r0 (icuDone c n s) := by
  have k1 : ([.regs, .icu] : List Part) ⊆ U := List.Subset.trans (by decide) hT
  unfold icuDone
  repeat' first
    | with_reducible exact hC0
    | with_reducible refine Change.ite (fun _ => ?_) (fun _ => ?_)
    | with_reducible refine faultEvent_change hT ?_
    | with_reducible refine icuEndClaim_change k1 ?_
    | with_reducible refine Change.foldl (fun _ _ _ => ?_) ?_
    | with_reducible assumption
    | split
    | dsimp only

theorem icuCfg_change {U : List Part} {r0 : State} {n : Nat} {old : Word} {s : State} (hT : ([.regs, .icu, .out] : List Part) ⊆ U) (hC0 : Change U r0 s) :
    Change U r0 (icuCfg n old s) := by
  have k1 : ([.regs, .icu] : List Part) ⊆ U := List.Subset.trans (by decide) hT
  unfold icuCfg
  repeat' first
    | with_reducible exact hC0
    | with_reducible refine Change.ite (fun _ => ?_) (fun _ => ?_)
    | with_reducible refine intaFall_change hT ?_
    | with_reducible refine icuWithdraw_change k1 ?_
    | with_reducible refine icuOffer_change k1 ?_
    | with_reducible refine Change.foldl (fun _ _ _ => ?_) ?_
    | with_reducible assumption
    | split
    | dsimp only

theorem coreDisable_change {U : List Part} {r0 : State} {c : Nat} {s : State} (hT : ([.regs, .tt, .checks, .flt, .icu, .hep, .wxl, .qen, .ctx, .qaux, .spl, .swc, .ports, .cores, .prl, .out] : List Part) ⊆ U) (hC0 : Change U r0 s) :
    Change U r0 (coreDisable c s) := by
  have k1 : ([.regs] : List Part) ⊆ U := List.Subset.trans (by decide) hT
  unfold coreDisable
  repeat' first
    | with_reducible exact hC0
    | with_reducible refine Change.ite (fun _ => ?_) (fun _ => ?_)
    | with_reducible refine coreLeave_change hT ?_
    | with_reducible refine State.put_change k1 ?_
    | with_reducible refine Change.foldl (fun _ _ _ => ?_) ?_
    | with_reducible assumption
    | split
    | dsimp only

theorem loadOp_change {U : List Part} {r0 : State} {op : Nat} {c : Nat} {s : State} (hT : ([.regs, .gdc, .cores] : List Part) ⊆ U) (hC0 : Change U r0 s) :
    Change U r0 (loadOp op c s) := by
  have k1 : ([.regs] : List Part) ⊆ U := List.Subset.trans (by decide) hT
  have k2 : ([.cores] : List Part) ⊆ U := List.Subset.trans (by decide) hT
  have k3 : ([.gdc] : List Part) ⊆ U := List.Subset.trans (by decide) hT
  unfold loadOp
  repeat' first
    | with_reducible exact hC0
    | with_reducible refine Change.ite (fun _ => ?_) (fun _ => ?_)
    | with_reducible refine State.put_change k1 ?_
    | with_reducible refine State.setCore_change k2 ?_
    | with_reducible refine Change.foldl (fun _ _ _ => ?_) ?_
    | with_reducible assumption
    | split
    | dsimp only
    | with_reducible refine Change.set_gdc k3 ?_

theorem loadMeas_change {U : List Part} {r0 : State} {v : Word} {s : State} (hT : ([.cores] : List Part) ⊆ U) (hC0 : Change U r0 s) :
    Change U r0 (loadMeas v s) := by
  unfold loadMeas
  repeat' first
    | with_reducible exact hC0
    | with_reducible refine Change.ite (fun _ => ?_) (fun _ => ?_)
    | with_reducible refine State.setCore_change hT ?_
    | with_reducible refine Change.foldl (fun _ _ _ => ?_) ?_
    | with_reducible assumption
    | split
    | dsimp only

theorem tcmWrite_change {U : List Part} {r0 : State} {c : Nat} {a : Nat} {l : List Byte} {s : State} (hT : ([.tcm] : List Part) ⊆ U) (hC0 : Change U r0 s) :
    Change U r0 (tcmWrite c a l s) := by
  induction l generalizing s a with
  | nil => exact hC0
  | cons v r ih =>
    rw [tcmWrite]
    exact ih (Change.set_tcm hT (fun c => KMap.wf_set _ _ _ _ c.tcm) hC0)

theorem loadWord_change {U : List Part} {r0 : State} {v : Word} {s : State} (hT : ([.regs, .mem, .cores, .tcm] : List Part) ⊆ U) (hC0 : Change U r0 s) :
    Change U r0 (loadWord v s) := by
  have k1 : ([.mem] : List Part) ⊆ U := List.Subset.trans (by decide) hT
  have k2 : ([.regs] : List Part) ⊆ U := List.Subset.trans (by decide) hT
  have k3 : ([.cores] : List Part) ⊆ U := List.Subset.trans (by decide) hT
  have k4 : ([.tcm] : List Part) ⊆ U := List.Subset.trans (by decide) hT
  unfold loadWord
  repeat' first
    | with_reducible exact hC0
    | with_reducible refine Change.ite (fun _ => ?_) (fun _ => ?_)
    | with_reducible refine State.hbmWrite_change k1 ?_
    | with_reducible refine State.put_change k2 ?_
    | with_reducible refine loadMeas_change k3 ?_
    | with_reducible refine tcmWrite_change k4 ?_
    | with_reducible refine Change.foldl (fun _ _ _ => ?_) ?_
    | with_reducible assumption
    | split
    | dsimp only

theorem fallAct_change {U : List Part} {r0 : State} {b : Blk} {d : Nat} {i : Nat} {s : State} (hT : ([.regs, .tt, .checks, .flt, .icu, .hep, .wxl, .qen, .ctx, .qaux, .spl, .swc, .ports, .cores, .prl, .out] : List Part) ⊆ U) (hC0 : Change U r0 s) :
    Change U r0 (fallAct b d i s) := by
  have k1 : ([.regs, .tt, .flt, .icu, .prl, .out] : List Part) ⊆ U := List.Subset.trans (by decide) hT
  have k2 : ([.regs] : List Part) ⊆ U := List.Subset.trans (by decide) hT
  have k3 : ([.regs, .tt, .flt, .icu, .wxl, .swc, .out] : List Part) ⊆ U := List.Subset.trans (by decide) hT
  unfold fallAct
  repeat' first
    | with_reducible exact hC0
    | with_reducible refine Change.ite (fun _ => ?_) (fun _ => ?_)
    | with_reducible refine pairEnd_change k1 ?_
    | with_reducible refine portDisable_change hT ?_
    | with_reducible refine coreDisable_change hT ?_
    | with_reducible refine envEnd_change k2 ?_
    | with_reducible refine pfDiscard_change k3 ?_
    | with_reducible refine Change.foldl (fun _ _ _ => ?_) ?_
    | with_reducible assumption
    | split
    | dsimp only

theorem enableActs_change {U : List Part} {r0 : State} {b : Blk} {d : Nat} {off : Nat} {old : Word} {v : Word} {s : State} (hT : ([.regs, .tt, .checks, .flt, .icu, .hep, .wxl, .qen, .ctx, .qaux, .spl, .swc, .ports, .cores, .prl, .out] : List Part) ⊆ U) (hC0 : Change U r0 s) :
    Change U r0 (enableActs b d off old v s) := by
  have k1 : ([.regs, .checks] : List Part) ⊆ U := List.Subset.trans (by decide) hT
  unfold enableActs
  repeat' first
    | with_reducible exact hC0
    | with_reducible refine Change.ite (fun _ => ?_) (fun _ => ?_)
    | with_reducible refine fallAct_change hT ?_
    | with_reducible refine pushOnce_change k1 ?_
    | with_reducible refine Change.foldl (fun _ _ _ => ?_) ?_
    | with_reducible assumption
    | split
    | dsimp only

theorem pageWrite_change {U : List Part} {r0 : State} {b : Blk} {off : Nat} {e : Nat} {r : RegDef} {old : Word} {v : Word} {s : State} (hT : ([.regs, .tt, .dev, .checks, .flt, .icu, .hep, .wxl, .qen, .ctx, .qaux, .spl, .swc, .ports, .hbm, .cores, .prl, .out] : List Part) ⊆ U) (hC0 : Change U r0 s) :
    Change U r0 (pageWrite b off e r old v s) := by
  have k1 : ([.regs] : List Part) ⊆ U := List.Subset.trans (by decide) hT
  have k2 : ([.regs, .checks] : List Part) ⊆ U := List.Subset.trans (by decide) hT
  have k3 : ([.regs, .tt, .flt, .icu, .out] : List Part) ⊆ U := List.Subset.trans (by decide) hT
  unfold pageWrite
  repeat' first
    | with_reducible exact hC0
    | with_reducible refine Change.ite (fun _ => ?_) (fun _ => ?_)
    | with_reducible refine State.setReg_change k1 ?_
    | with_reducible refine graceEnd_change hT ?_
    | with_reducible refine pushCheck_change k2 ?_
    | with_reducible refine irqSync_change k3 ?_
    | with_reducible refine State.put_change k1 ?_
    | with_reducible refine pushOnce_change k2 ?_
    | with_reducible refine faultAck_change k3 ?_
    | with_reducible refine faultClear_change k3 ?_
    | with_reducible refine Change.foldl (fun _ _ _ => ?_) ?_
    | with_reducible assumption
    | split
    | dsimp only

theorem regActs_change {U : List Part} {r0 : State} {b : Blk} {d : Nat} {off : Nat} {old : Word} {v : Word} {s : State} (hT : ([.regs, .tt, .dev, .img, .checks, .flt, .icu, .hep, .wxl, .qen, .ctx, .qaux, .spl, .swc, .ports, .mem, .gdc, .cores, .tcm, .prl, .out] : List Part) ⊆ U) (hC0 : Change U r0 s) :
    Change U r0 (regActs b d off old v s) := by
  have k1 : ([.regs, .tt, .flt, .icu, .out] : List Part) ⊆ U := List.Subset.trans (by decide) hT
  have k2 : ([.regs, .tt, .checks, .flt, .icu, .hep, .wxl, .qen, .ctx, .qaux, .spl, .swc, .ports, .cores, .prl, .out] : List Part) ⊆ U := List.Subset.trans (by decide) hT
  have k3 : ([.regs, .mem, .cores, .tcm] : List Part) ⊆ U := List.Subset.trans (by decide) hT
  have k4 : ([.regs, .spl] : List Part) ⊆ U := List.Subset.trans (by decide) hT
  have k5 : ([.regs, .tt, .checks, .flt, .icu, .ports, .prl, .out] : List Part) ⊆ U := List.Subset.trans (by decide) hT
  have k6 : ([.regs, .tt, .img, .flt, .icu, .out] : List Part) ⊆ U := List.Subset.trans (by decide) hT
  have k7 : ([.regs, .gdc, .cores] : List Part) ⊆ U := List.Subset.trans (by decide) hT
  have k8 : ([.ports, .out] : List Part) ⊆ U := List.Subset.trans (by decide) hT
  have k9 : ([.regs] : List Part) ⊆ U := List.Subset.trans (by decide) hT
  have k10 : ([.regs, .wxl] : List Part) ⊆ U := List.Subset.trans (by decide) hT
  have k11 : ([.regs, .wxl, .swc] : List Part) ⊆ U := List.Subset.trans (by decide) hT
  have k12 : ([.regs, .ports, .out] : List Part) ⊆ U := List.Subset.trans (by decide) hT
  have k13 : ([.cores] : List Part) ⊆ U := List.Subset.trans (by decide) hT
  have k14 : ([.regs, .tt, .dev, .checks, .flt, .icu, .hep, .wxl, .qen, .ctx, .qaux, .spl, .swc, .ports, .cores, .prl, .out] : List Part) ⊆ U := List.Subset.trans (by decide) hT
  have k15 : ([.regs, .hep] : List Part) ⊆ U := List.Subset.trans (by decide) hT
  have k16 : ([.regs, .icu, .out] : List Part) ⊆ U := List.Subset.trans (by decide) hT
  have k17 : ([.prl] : List Part) ⊆ U := List.Subset.trans (by decide) hT
  unfold regActs
  repeat' first
    | with_reducible exact hC0
    | with_reducible refine Change.ite (fun _ => ?_) (fun _ => ?_)
    | with_reducible refine perrSync_change k1 ?_
    | with_reducible refine holdDisable_change k2 ?_
    | with_reducible refine slotSync_change k1 ?_
    | with_reducible refine icuSwiAct_change k1 ?_
    | with_reducible refine icuDone_change k1 ?_
    | with_reducible refine loadWord_change k3 ?_
    | with_reducible refine splCtl_change k4 ?_
    | with_reducible refine linkCmd_change k5 ?_
    | with_reducible refine imgOp_change k6 ?_
    | with_reducible refine loadOp_change k7 ?_
    | with_reducible refine pairPkt_change k8 ?_
    | with_reducible refine portTry1_change k5 ?_
    | with_reducible refine State.put_change k9 ?_
    | with_reducible refine retrainAll_change k10 ?_
    | with_reducible refine rttSync_change k1 ?_
    | with_reducible refine flushStart_change k11 ?_
    | with_reducible refine portRearmed_change k10 ?_
    | with_reducible refine cfgGo_change k12 ?_
    | with_reducible refine loadMeas_change k13 ?_
    | with_reducible refine prlCtl_change k14 ?_
    | with_reducible refine qArrive_change k2 ?_
    | with_reducible refine sediscardClr_change k9 ?_
    | with_reducible refine hostRetrain_change k15 ?_
    | with_reducible refine icuCfg_change k16 ?_
    | with_reducible refine Change.foldl (fun _ _ _ => ?_) ?_
    | with_reducible assumption
    | split
    | dsimp only
    | with_reducible refine Change.set_prl k17 ?_

theorem ctlTake_change {U : List Part} {r0 : State} {b : Blk} {off : Nat} {r : RegDef} {v0 : Word} {s : State} (hT : ([.regs, .tt, .pins, .dev, .img, .checks, .flt, .icu, .hep, .wxl, .qen, .ctx, .qaux, .spl, .swc, .ports, .hbm, .mem, .gdc, .cores, .tcm, .prl, .out] : List Part) ⊆ U) (hC0 : Change U r0 s) :
    Change U r0 (ctlTake b off r v0 s) := by
  have k1 : ([.regs, .tt, .pins, .checks, .flt, .icu, .hep, .wxl, .qen, .ctx, .qaux, .spl, .swc, .ports, .cores, .prl, .out] : List Part) ⊆ U := List.Subset.trans (by decide) hT
  have k2 : ([.regs] : List Part) ⊆ U := List.Subset.trans (by decide) hT
  have k3 : ([.regs, .checks] : List Part) ⊆ U := List.Subset.trans (by decide) hT
  have k4 : ([.regs, .tt, .dev, .checks, .flt, .icu, .hep, .wxl, .qen, .ctx, .qaux, .spl, .swc, .ports, .hbm, .cores, .prl, .out] : List Part) ⊆ U := List.Subset.trans (by decide) hT
  have k5 : ([.regs, .tt, .flt, .icu, .ports, .out] : List Part) ⊆ U := List.Subset.trans (by decide) hT
  have k6 : ([.regs, .tt, .checks, .flt, .icu, .hep, .wxl, .qen, .ctx, .qaux, .spl, .swc, .ports, .cores, .prl, .out] : List Part) ⊆ U := List.Subset.trans (by decide) hT
  have k7 : ([.regs, .tt, .dev, .img, .checks, .flt, .icu, .hep, .wxl, .qen, .ctx, .qaux, .spl, .swc, .ports, .mem, .gdc, .cores, .tcm, .prl, .out] : List Part) ⊆ U := List.Subset.trans (by decide) hT
  have k8 : ([.regs, .tt, .dev, .checks, .flt, .icu, .hep, .wxl, .qen, .ctx, .qaux, .spl, .swc, .ports, .cores, .prl, .out] : List Part) ⊆ U := List.Subset.trans (by decide) hT
  unfold ctlTake
  repeat' first
    | with_reducible exact hC0
    | with_reducible refine Change.ite (fun _ => ?_) (fun _ => ?_)
    | with_reducible refine slotCtl_change k1 ?_
    | with_reducible refine State.setReg_change k2 ?_
    | with_reducible refine pushCheck_change k3 ?_
    | with_reducible refine pageWrite_change k4 ?_
    | with_reducible refine sbOut_change k5 ?_
    | with_reducible refine enableActs_change k6 ?_
    | with_reducible refine regActs_change k7 ?_
    | with_reducible refine devCtl_change k8 ?_
    | with_reducible refine Change.foldl (fun _ _ _ => ?_) ?_
    | with_reducible assumption
    | split
    | dsimp only

theorem absentEnable_change {U : List Part} {r0 : State} {off : Nat} {v : Word} {s : State} (hT : ([.regs] : List Part) ⊆ U) (hC0 : Change U r0 s) :
    Change U r0 (absentEnable off v s) := by
  unfold absentEnable
  repeat' first
    | with_reducible exact hC0
    | with_reducible refine Change.ite (fun _ => ?_) (fun _ => ?_)
    | with_reducible refine State.setReg_change hT ?_
    | with_reducible refine Change.foldl (fun _ _ _ => ?_) ?_
    | with_reducible assumption
    | split
    | dsimp only

theorem tcmCtl_change {U : List Part} {r0 : State} {off : Nat} {v : Word} {width : Nat} {s : State} (hT : ([.regs, .tt, .flt, .icu, .tcm, .out] : List Part) ⊆ U) (hC0 : Change U r0 s) :
    Change U r0 (tcmCtl off v width s) := by
  have k1 : ([.regs, .tt, .flt, .icu, .out] : List Part) ⊆ U := List.Subset.trans (by decide) hT
  have k2 : ([.tcm] : List Part) ⊆ U := List.Subset.trans (by decide) hT
  unfold tcmCtl
  repeat' first
    | with_reducible exact hC0
    | with_reducible refine Change.ite (fun _ => ?_) (fun _ => ?_)
    | with_reducible refine notice_change k1 ?_
    | with_reducible refine tcmWrite_change k2 ?_
    | with_reducible refine Change.foldl (fun _ _ _ => ?_) ?_
    | with_reducible assumption
    | split
    | dsimp only

theorem ctlWriteAs_change {U : List Part} {r0 : State} {a : Agent} {off : Nat} {v : Word} {width : Nat} {s : State} (hT : ([.regs, .tt, .pins, .dev, .img, .checks, .flt, .icu, .hep, .wxl, .qen, .ctx, .qaux, .spl, .swc, .ports, .hbm, .mem, .gdc, .cores, .tcm, .prl, .out] : List Part) ⊆ U) (hC0 : Change U r0 s) :
    Change U r0 (ctlWriteAs a off v width s) := by
  have k1 : ([.regs] : List Part) ⊆ U := List.Subset.trans (by decide) hT
  have k2 : ([.regs, .tt, .flt, .icu, .out] : List Part) ⊆ U := List.Subset.trans (by decide) hT
  have k3 : ([.regs, .tt, .flt, .icu, .tcm, .out] : List Part) ⊆ U := List.Subset.trans (by decide) hT
  unfold ctlWriteAs
  repeat' first
    | with_reducible exact hC0
    | with_reducible refine Change.ite (fun _ => ?_) (fun _ => ?_)
    | with_reducible refine absentEnable_change k1 ?_
    | with_reducible refine notice_change k2 ?_
    | with_reducible refine ctlTake_change hT ?_
    | with_reducible refine tcmCtl_change k3 ?_
    | with_reducible refine Change.foldl (fun _ _ _ => ?_) ?_
    | with_reducible assumption
    | split
    | dsimp only

theorem ctlWriteBy_change {U : List Part} {r0 : State} {a : Agent} {off : Nat} {v : Word} {width : Nat} {s : State} (hT : ([.regs, .tt, .pins, .dev, .img, .checks, .flt, .icu, .hep, .wxl, .qen, .ctx, .qaux, .spl, .swc, .ports, .hbm, .mem, .gdc, .cores, .tcm, .prl, .out] : List Part) ⊆ U) (hC0 : Change U r0 s) :
    Change U r0 (ctlWriteBy a off v width s) := by
  have k1 : ([.regs, .cores, .out] : List Part) ⊆ U := List.Subset.trans (by decide) hT
  unfold ctlWriteBy
  repeat' first
    | with_reducible exact hC0
    | with_reducible refine Change.ite (fun _ => ?_) (fun _ => ?_)
    | with_reducible refine ctlWriteAs_change hT ?_
    | with_reducible refine coreFault_change k1 ?_
    | with_reducible refine Change.foldl (fun _ _ _ => ?_) ?_
    | with_reducible assumption
    | split
    | dsimp only

end Sys2Proof.Machine
end

