-- ==== Sys2Proof/Laws/CtlRead.lean ====
section
/-! SUPPORT. What each operation of Machine/CtlRead.lean may change. -/
set_option linter.all false
set_option linter.unusedTactic false
set_option linter.unreachableTactic false

namespace Sys2Proof.Machine

open Sys2Proof

theorem readClear_change {U : List Part} {r0 : State} {off : Nat} {r : RegDef} {lo : Nat} {n : Nat} {s : State} (hT : ([.regs] : List Part) ⊆ U) (hC0 : Change U r0 s) :
    Change U r0 (readClear off r lo n s) := by
  unfold readClear
  repeat' first
    | with_reducible exact hC0
    | with_reducible refine Change.ite (fun _ => ?_) (fun _ => ?_)
    | with_reducible refine State.setReg_change hT ?_
    | with_reducible refine State.put_change hT ?_
    | with_reducible refine Change.foldl (fun _ _ _ => ?_) ?_
    | with_reducible assumption
    | split
    | dsimp only

theorem spurious_change {U : List Part} {r0 : State} {s : State} (hT : ([.regs] : List Part) ⊆ U) (hC0 : Change U r0 s) :
    Change U r0 (spurious s) := by
  unfold spurious
  repeat' first
    | with_reducible exact hC0
    | with_reducible refine Change.ite (fun _ => ?_) (fun _ => ?_)
    | with_reducible refine State.bump_change hT ?_
    | with_reducible refine Change.foldl (fun _ _ _ => ?_) ?_
    | with_reducible assumption
    | split
    | dsimp only

theorem coreClaim_change {U : List Part} {r0 : State} {c : Nat} {s : State} (hT : ([.regs, .icu, .out] : List Part) ⊆ U) (hC0 : Change U r0 s) :
    Change U r0 (coreClaim c s).1 := by
  have k1 : ([.regs] : List Part) ⊆ U := List.Subset.trans (by decide) hT
  have k2 : ([.regs, .icu] : List Part) ⊆ U := List.Subset.trans (by decide) hT
  unfold coreClaim
  repeat' first
    | with_reducible exact hC0
    | with_reducible refine Change.ite (fun _ => ?_) (fun _ => ?_)
    | with_reducible refine intaFall_change hT ?_
    | with_reducible refine spurious_change k1 ?_
    | with_reducible refine icuClaim_change k2 ?_
    | (refine Change.of_pair (by assumption) ?_; with_reducible refine icuClaim_change k2 ?_)
    | with_reducible refine Change.foldl (fun _ _ _ => ?_) ?_
    | with_reducible refine Change.foldl_fst (fun _ _ _ => ?_) ?_
    | with_reducible refine Change.ite_fst (fun _ => ?_) (fun _ => ?_)
    | with_reducible assumption
    | split
    | dsimp only

theorem fnClaim_change {U : List Part} {r0 : State} {f : Nat} {s : State} (hT : ([.regs, .icu, .out] : List Part) ⊆ U) (hC0 : Change U r0 s) :
    Change U r0 (fnClaim f s).1 := by
  have k1 : ([.regs] : List Part) ⊆ U := List.Subset.trans (by decide) hT
  have k2 : ([.regs, .icu] : List Part) ⊆ U := List.Subset.trans (by decide) hT
  have k3 : ([.icu] : List Part) ⊆ U := List.Subset.trans (by decide) hT
  unfold fnClaim
  repeat' first
    | with_reducible exact hC0
    | with_reducible refine Change.ite (fun _ => ?_) (fun _ => ?_)
    | with_reducible refine intaFall_change hT ?_
    | with_reducible refine spurious_change k1 ?_
    | with_reducible refine icuClaim_change k2 ?_
    | (refine Change.of_pair (by assumption) ?_; with_reducible refine icuClaim_change k2 ?_)
    | with_reducible refine Change.foldl (fun _ _ _ => ?_) ?_
    | with_reducible refine Change.foldl_fst (fun _ _ _ => ?_) ?_
    | with_reducible refine Change.ite_fst (fun _ => ?_) (fun _ => ?_)
    | with_reducible assumption
    | split
    | dsimp only
    | with_reducible refine Change.set_icu k3 ?_

theorem ctlRead_change {U : List Part} {r0 : State} {a : Agent} {off : Nat} {width : Nat} {s : State} (hT : ([.regs, .icu, .out] : List Part) ⊆ U) (hC0 : Change U r0 s) :
    Change U r0 (ctlRead a off width s).1 := by
  have k1 : ([.regs] : List Part) ⊆ U := List.Subset.trans (by decide) hT
  unfold ctlRead
  repeat' first
    | with_reducible exact hC0
    | with_reducible refine Change.ite (fun _ => ?_) (fun _ => ?_)
    | with_reducible refine readClear_change k1 ?_
    | with_reducible refine coreClaim_change hT ?_
    | (refine Change.of_pair (by assumption) ?_; with_reducible refine coreClaim_change hT ?_)
    | with_reducible refine Change.foldl (fun _ _ _ => ?_) ?_
    | with_reducible refine Change.foldl_fst (fun _ _ _ => ?_) ?_
    | with_reducible refine Change.ite_fst (fun _ => ?_) (fun _ => ?_)
    | with_reducible assumption
    | split
    | dsimp only

theorem pageRead_change {U : List Part} {r0 : State} {f : Nat} {off : Nat} {width : Nat} {s : State} (hT : ([.regs, .icu, .out] : List Part) ⊆ U) (hC0 : Change U r0 s) :
    Change U r0 (pageRead f off width s).1 := by
  have k1 : ([.regs] : List Part) ⊆ U := List.Subset.trans (by decide) hT
  have hp : ∀ v : Word, Change U r0 (s, v).1 := fun _ => hC0
  unfold pageRead
  extract_lets o8
  refine Change.ite_fst (fun _ => hp _) (fun _ => Change.ite_fst (fun _ => ?_) (fun _ => Change.ite_fst (fun _ => ?_) (fun _ => ?_)))
  · exact Change.ite_fst (fun _ => hp _) (fun _ => fnClaim_change hT hC0)
  · exact Change.ite (fun _ => State.put_change k1 hC0) (fun _ => hC0)
  · refine Change.ite_fst (fun _ => ?_) (fun _ => Change.ite_fst (fun _ => hp _) (fun _ => hp _))
    exact Change.ite_fst (fun _ => hp _) (fun _ => hp _)

end Sys2Proof.Machine
end

