-- ==== Sys2Proof/Laws/Deliver.lean ====
section
/-! SUPPORT. What each operation of Machine/Deliver.lean may change. -/
set_option linter.all false
set_option linter.unusedTactic false
set_option linter.unreachableTactic false

namespace Sys2Proof.Machine

open Sys2Proof

theorem coreNote_change {U : List Part} {r0 : State} {c : Nat} {addr : Nat} {ans : Ans} {data : List Byte} {s : State} (hT : ([.cores] : List Part) ⊆ U) (hC0 : Change U r0 s) :
    Change U r0 (coreNote c addr ans data s) := by
  unfold coreNote
  repeat' first
    | with_reducible exact hC0
    | with_reducible refine Change.ite (fun _ => ?_) (fun _ => ?_)
    | with_reducible refine State.setCore_change hT ?_
    | with_reducible refine Change.foldl (fun _ _ _ => ?_) ?_
    | with_reducible assumption
    | split
    | dsimp only

theorem coreAnswer_change {U : List Part} {r0 : State} {c : Nat} {s : State} (hT : ([.regs, .cores, .out] : List Part) ⊆ U) (hC0 : Change U r0 s) :
    Change U r0 (coreAnswer c s) := by
  have k1 : ([.cores] : List Part) ⊆ U := List.Subset.trans (by decide) hT
  have k2 : ([.out] : List Part) ⊆ U := List.Subset.trans (by decide) hT
  unfold coreAnswer
  repeat' first
    | with_reducible exact hC0
    | with_reducible refine Change.ite (fun _ => ?_) (fun _ => ?_)
    | with_reducible refine State.setCore_change k1 ?_
    | with_reducible refine coreFault_change hT ?_
    | with_reducible refine State.emit_change k2 ?_
    | with_reducible refine Change.foldl (fun _ _ _ => ?_) ?_
    | with_reducible assumption
    | split
    | dsimp only

theorem prefetched_change {U : List Part} {r0 : State} {w : Nat} {da : Nat} {ans : Ans} {data : List Byte} {se : Bool} {s : State} (hT : ([.wxl, .swc] : List Part) ⊆ U) (hC0 : Change U r0 s) :
    Change U r0 (prefetched w da ans data se s) := by
  have k1 : ([.swc] : List Part) ⊆ U := List.Subset.trans (by decide) hT
  have k2 : ([.wxl] : List Part) ⊆ U := List.Subset.trans (by decide) hT
  unfold prefetched
  repeat' first
    | with_reducible exact hC0
    | with_reducible refine Change.ite (fun _ => ?_) (fun _ => ?_)
    | with_reducible refine State.inject_change k1 ?_
    | with_reducible refine Change.foldl (fun _ _ _ => ?_) ?_
    | with_reducible assumption
    | split
    | dsimp only
    | with_reducible refine Change.set_wxl k2 ?_

theorem deliverAns_change {U : List Part} {r0 : State} {f : Frame} {s : State} (hT : ([.regs, .tt, .flt, .icu, .hep, .wxl, .qaux, .swc, .ports, .cores, .out] : List Part) ⊆ U) (hC0 : Change U r0 s) :
    Change U r0 (deliverAns f s) := by
  have k1 : ([.qaux] : List Part) ⊆ U := List.Subset.trans (by decide) hT
  have k2 : ([.regs, .out] : List Part) ⊆ U := List.Subset.trans (by decide) hT
  have k3 : ([.regs, .wxl, .qaux, .swc, .cores, .out] : List Part) ⊆ U := List.Subset.trans (by decide) hT
  have k4 : ([.wxl, .swc] : List Part) ⊆ U := List.Subset.trans (by decide) hT
  have k5 : ([.regs, .wxl, .qaux, .swc] : List Part) ⊆ U := List.Subset.trans (by decide) hT
  have k6 : ([.cores] : List Part) ⊆ U := List.Subset.trans (by decide) hT
  unfold deliverAns
  repeat' first
    | with_reducible exact hC0
    | with_reducible refine Change.ite (fun _ => ?_) (fun _ => ?_)
    | with_reducible refine State.setQa_change k1 ?_
    | with_reducible refine hostDone_change k2 ?_
    | with_reducible refine failReadOne_change k3 ?_
    | with_reducible refine stepData_change hT ?_
    | with_reducible refine failRead_change k3 ?_
    | with_reducible refine prefetched_change k4 ?_
    | with_reducible refine pcFilled_change k5 ?_
    | with_reducible refine coreNote_change k6 ?_
    | with_reducible refine Change.foldl (fun _ _ _ => ?_) ?_
    | with_reducible assumption
    | split
    | dsimp only

theorem wroteBack_change {U : List Part} {r0 : State} {da : Nat} {s : State} (hT : ([.wxl] : List Part) ⊆ U) (hC0 : Change U r0 s) :
    Change U r0 (wroteBack da s) := by
  unfold wroteBack
  repeat' first
    | with_reducible exact hC0
    | with_reducible refine Change.ite (fun _ => ?_) (fun _ => ?_)
    | with_reducible refine Change.foldl (fun _ _ _ => ?_) ?_
    | with_reducible assumption
    | split
    | dsimp only
    | with_reducible refine Change.set_wxl hT ?_

theorem writeAccepted_change {U : List Part} {r0 : State} {f : Frame} {s : State} (hT : ([.regs, .tt, .flt, .icu, .hep, .wxl, .qaux, .swc, .ports, .cores, .out] : List Part) ⊆ U) (hC0 : Change U r0 s) :
    Change U r0 (writeAccepted f s) := by
  have k1 : ([.qaux] : List Part) ⊆ U := List.Subset.trans (by decide) hT
  have k2 : ([.wxl] : List Part) ⊆ U := List.Subset.trans (by decide) hT
  unfold writeAccepted
  repeat' first
    | with_reducible exact hC0
    | with_reducible refine Change.ite (fun _ => ?_) (fun _ => ?_)
    | with_reducible refine writeDone_change k1 ?_
    | with_reducible refine unhold_change hT ?_
    | with_reducible refine wroteBack_change k2 ?_
    | with_reducible refine mcOver_change k1 ?_
    | with_reducible refine Change.foldl (fun _ _ _ => ?_) ?_
    | with_reducible assumption
    | split
    | dsimp only

theorem sendWrite_change {U : List Part} {r0 : State} {p : Nat} {da : Nat} {f : Frame} {s : State} (hT : ([.ports, .out] : List Part) ⊆ U) (hC0 : Change U r0 s) :
    Change U r0 (sendWrite p da f s) := by
  have k1 : ([.ports] : List Part) ⊆ U := List.Subset.trans (by decide) hT
  unfold sendWrite
  repeat' first
    | with_reducible exact hC0
    | with_reducible refine Change.ite (fun _ => ?_) (fun _ => ?_)
    | with_reducible refine sendAs_change hT ?_
    | with_reducible refine State.setPort_change k1 ?_
    | with_reducible refine Change.foldl (fun _ _ _ => ?_) ?_
    | with_reducible assumption
    | split
    | dsimp only

theorem toPartner_change {U : List Part} {r0 : State} {p : Nat} {f : Frame} {s : State} (hT : ([.regs, .tt, .flt, .icu, .hep, .wxl, .qaux, .swc, .ports, .cores, .out] : List Part) ⊆ U) (hC0 : Change U r0 s) :
    Change U r0 (toPartner p f s) := by
  have k1 : ([.ports, .out] : List Part) ⊆ U := List.Subset.trans (by decide) hT
  have k2 : ([.ports] : List Part) ⊆ U := List.Subset.trans (by decide) hT
  unfold toPartner
  repeat' first
    | with_reducible exact hC0
    | with_reducible refine Change.ite (fun _ => ?_) (fun _ => ?_)
    | with_reducible refine writeAccepted_change hT ?_
    | with_reducible refine sendNow_change k1 ?_
    | with_reducible refine sendAs_change k1 ?_
    | with_reducible refine State.setPort_change k2 ?_
    | with_reducible refine npAnswered_change k2 ?_
    | with_reducible refine sendWrite_change k1 ?_
    | with_reducible refine Change.foldl (fun _ _ _ => ?_) ?_
    | with_reducible assumption
    | split
    | dsimp only

theorem hostWrite_change {U : List Part} {r0 : State} {f : Frame} {fn : Nat} {addr : Nat} {s : State} (hT : ([.regs, .tt, .flt, .icu, .fns, .hep, .wxl, .qaux, .swc, .ports, .cores, .out] : List Part) ⊆ U) (hC0 : Change U r0 s) :
    Change U r0 (hostWrite f fn addr s) := by
  have k1 : ([.regs, .hep, .out] : List Part) ⊆ U := List.Subset.trans (by decide) hT
  unfold hostWrite
  repeat' first
    | with_reducible exact hC0
    | with_reducible refine Change.ite (fun _ => ?_) (fun _ => ?_)
    | with_reducible refine unsent_change hT ?_
    | with_reducible refine hepRequest_change k1 ?_
    | with_reducible refine Change.foldl (fun _ _ _ => ?_) ?_
    | with_reducible assumption
    | split
    | dsimp only

theorem toHost_change {U : List Part} {r0 : State} {f : Frame} {s : State} (hT : ([.regs, .tt, .flt, .icu, .fns, .hep, .wxl, .qaux, .swc, .ports, .cores, .out] : List Part) ⊆ U) (hC0 : Change U r0 s) :
    Change U r0 (toHost f s) := by
  have k1 : ([.regs, .tt, .flt, .icu, .hep, .wxl, .qaux, .swc, .ports, .cores, .out] : List Part) ⊆ U := List.Subset.trans (by decide) hT
  have k2 : ([.regs] : List Part) ⊆ U := List.Subset.trans (by decide) hT
  have k3 : ([.regs, .hep, .out] : List Part) ⊆ U := List.Subset.trans (by decide) hT
  have k4 : ([.hep] : List Part) ⊆ U := List.Subset.trans (by decide) hT
  unfold toHost
  repeat' first
    | with_reducible exact hC0
    | with_reducible refine Change.ite (fun _ => ?_) (fun _ => ?_)
    | with_reducible refine unsent_change hT ?_
    | with_reducible refine writeAccepted_change k1 ?_
    | with_reducible refine State.bump_change k2 ?_
    | with_reducible refine hepRequest_change k3 ?_
    | with_reducible refine deliverAns_change k1 ?_
    | with_reducible refine hostWrite_change hT ?_
    | with_reducible refine Change.foldl (fun _ _ _ => ?_) ?_
    | with_reducible assumption
    | split
    | dsimp only
    | with_reducible refine Change.set_hep k4 ?_

theorem tailAdvance_change {U : List Part} {r0 : State} {n : Nat} {s : State} (hT : ([.regs] : List Part) ⊆ U) (hC0 : Change U r0 s) :
    Change U r0 (tailAdvance n s) := by
  unfold tailAdvance
  repeat' first
    | with_reducible exact hC0
    | with_reducible refine Change.ite (fun _ => ?_) (fun _ => ?_)
    | with_reducible refine State.put_change hT ?_
    | with_reducible refine Change.foldl (fun _ _ _ => ?_) ?_
    | with_reducible assumption
    | split
    | dsimp only

theorem toHbm_change {U : List Part} {r0 : State} {f : Frame} {s : State} (hT : ([.regs, .tt, .flt, .icu, .hep, .wxl, .qaux, .swc, .ports, .hbm, .cores, .out] : List Part) ⊆ U) (hC0 : Change U r0 s) :
    Change U r0 (toHbm f s) := by
  have k1 : ([.regs, .tt, .flt, .icu, .hep, .wxl, .qaux, .swc, .ports, .cores, .out] : List Part) ⊆ U := List.Subset.trans (by decide) hT
  have k2 : ([.regs] : List Part) ⊆ U := List.Subset.trans (by decide) hT
  have k3 : ([.hbm] : List Part) ⊆ U := List.Subset.trans (by decide) hT
  unfold toHbm
  repeat' first
    | with_reducible exact hC0
    | with_reducible refine Change.ite (fun _ => ?_) (fun _ => ?_)
    | with_reducible refine writeAccepted_change k1 ?_
    | with_reducible refine tailAdvance_change k2 ?_
    | with_reducible refine deliverAns_change k1 ?_
    | with_reducible refine Change.foldl (fun _ _ _ => ?_) ?_
    | with_reducible assumption
    | split
    | dsimp only
    | with_reducible refine Change.set_hbm k3 ?_

theorem leave_change {U : List Part} {r0 : State} {p : Nat} {f : Frame} {s : State} (hT : ([.regs, .tt, .flt, .icu, .fns, .hep, .wxl, .qaux, .swc, .ports, .hbm, .cores, .out] : List Part) ⊆ U) (hC0 : Change U r0 s) :
    Change U r0 (leave p f s) := by
  have k1 : ([.regs, .tt, .flt, .icu, .hep, .wxl, .qaux, .swc, .ports, .hbm, .cores, .out] : List Part) ⊆ U := List.Subset.trans (by decide) hT
  have k2 : ([.regs, .tt, .flt, .icu, .hep, .wxl, .qaux, .swc, .ports, .cores, .out] : List Part) ⊆ U := List.Subset.trans (by decide) hT
  have k3 : ([.regs, .tt, .flt, .icu, .fns, .hep, .wxl, .qaux, .swc, .ports, .cores, .out] : List Part) ⊆ U := List.Subset.trans (by decide) hT
  unfold leave
  repeat' first
    | with_reducible exact hC0
    | with_reducible refine Change.ite (fun _ => ?_) (fun _ => ?_)
    | with_reducible refine toHbm_change k1 ?_
    | with_reducible refine toPartner_change k2 ?_
    | with_reducible refine unhold_change k2 ?_
    | with_reducible refine toHost_change k3 ?_
    | with_reducible refine deliverAns_change k2 ?_
    | with_reducible refine Change.foldl (fun _ _ _ => ?_) ?_
    | with_reducible assumption
    | split
    | dsimp only

end Sys2Proof.Machine
end

