-- ==== Sys2Proof/Laws/HostLink.lean ====
section
/-! SUPPORT. What each operation of Machine/HostLink.lean may change. -/
set_option linter.all false
set_option linter.unusedTactic false
set_option linter.unreachableTactic false

namespace Sys2Proof.Machine

open Sys2Proof

theorem hostForget_change {U : List Part} {r0 : State} {s : State} (hT : ([.wxl, .swc, .ports, .hbm] : List Part) ⊆ U) (hC0 : Change U r0 s) :
    Change U r0 (hostForget s) := by
  refine Change.set_wxl_swc_ports_hbm hT (fun c => KMap.wf_map _ _ Port.forget c.ports fun _ v hv h => hv ?_) hC0
  have hnp : v.np = [] := by simpa [Port.forget] using congrArg Port.np h
  rw [← h]
  cases v
  simp_all [Port.forget]

theorem pmeSend_change {U : List Part} {r0 : State} {s : State} (hT : ([.regs, .tt, .out] : List Part) ⊆ U) (hC0 : Change U r0 s) :
    Change U r0 (pmeSend s) := by
  have k1 : ([.regs, .out] : List Part) ⊆ U := List.Subset.trans (by decide) hT
  have k2 : ([.tt] : List Part) ⊆ U := List.Subset.trans (by decide) hT
  unfold pmeSend
  repeat' first
    | with_reducible exact hC0
    | with_reducible refine Change.ite (fun _ => ?_) (fun _ => ?_)
    | with_reducible refine hepTlp_change k1 ?_
    | with_reducible refine Change.foldl (fun _ _ _ => ?_) ?_
    | with_reducible assumption
    | split
    | dsimp only
    | with_reducible refine Change.set_tt k2 ?_

theorem linkClear_change {U : List Part} {r0 : State} {s : State} (hT : ([.regs] : List Part) ⊆ U) (hC0 : Change U r0 s) :
    Change U r0 (linkClear s) := by
  unfold linkClear
  repeat' first
    | with_reducible exact hC0
    | with_reducible refine Change.ite (fun _ => ?_) (fun _ => ?_)
    | with_reducible refine State.put_change hT ?_
    | with_reducible refine Change.foldl (fun _ _ _ => ?_) ?_
    | with_reducible assumption
    | split
    | dsimp only

theorem dlFunctions_change {U : List Part} {r0 : State} {s : State} (hT : ([.regs, .tt, .dev, .checks, .flt, .icu, .fns, .msix, .hep, .wxl, .qen, .ctx, .qaux, .spl, .swc, .ports, .cores, .prl, .out] : List Part) ⊆ U) (hC0 : Change U r0 s) :
    Change U r0 (dlFunctions s) := by
  have k1 : ([.regs, .tt, .dev, .flt, .icu, .spl, .out] : List Part) ⊆ U := List.Subset.trans (by decide) hT
  have k2 : ([.regs, .tt, .flt, .icu, .fns, .hep, .wxl, .qaux, .spl, .swc, .ports, .cores, .out] : List Part) ⊆ U := List.Subset.trans (by decide) hT
  have k3 : ([.regs, .tt, .checks, .flt, .icu, .fns, .msix, .hep, .wxl, .qen, .ctx, .qaux, .spl, .swc, .ports, .cores, .prl, .out] : List Part) ⊆ U := List.Subset.trans (by decide) hT
  have k4 : ([.fns] : List Part) ⊆ U := List.Subset.trans (by decide) hT
  have k5 : ([.regs, .icu] : List Part) ⊆ U := List.Subset.trans (by decide) hT
  unfold dlFunctions
  repeat' first
    | with_reducible exact hC0
    | with_reducible refine Change.ite (fun _ => ?_) (fun _ => ?_)
    | with_reducible refine quiesceClear_change k1 ?_
    | with_reducible refine flrBegin_change k2 ?_
    | with_reducible refine flrFinish_change k3 ?_
    | with_reducible refine dlConfig_change k4 ?_
    | with_reducible refine icuTargetOff_change k5 ?_
    | with_reducible refine Change.foldl (fun _ _ _ => ?_) ?_
    | with_reducible assumption
    | split
    | dsimp only

theorem hostLinkDown_change {U : List Part} {r0 : State} {s : State} (hT : ([.regs, .tt, .dev, .checks, .flt, .icu, .fns, .msix, .hep, .wxl, .qen, .ctx, .qaux, .spl, .swc, .ports, .hbm, .cores, .prl, .out] : List Part) ⊆ U) (hC0 : Change U r0 s) :
    Change U r0 (hostLinkDown s) := by
  have k1 : ([.regs] : List Part) ⊆ U := List.Subset.trans (by decide) hT
  have k2 : ([.regs, .tt, .flt, .icu, .hep, .wxl, .qaux, .spl, .swc, .ports, .cores, .out] : List Part) ⊆ U := List.Subset.trans (by decide) hT
  have k3 : ([.regs, .tt, .flt, .icu, .out] : List Part) ⊆ U := List.Subset.trans (by decide) hT
  have k4 : ([.regs, .tt, .dev, .flt, .icu, .spl, .prl, .out] : List Part) ⊆ U := List.Subset.trans (by decide) hT
  have k5 : ([.regs, .tt, .dev, .checks, .flt, .icu, .fns, .msix, .hep, .wxl, .qen, .ctx, .qaux, .spl, .swc, .ports, .cores, .prl, .out] : List Part) ⊆ U := List.Subset.trans (by decide) hT
  have k6 : ([.wxl, .swc, .ports, .hbm] : List Part) ⊆ U := List.Subset.trans (by decide) hT
  have k7 : ([.icu, .hep] : List Part) ⊆ U := List.Subset.trans (by decide) hT
  have k8 : ([.hep] : List Part) ⊆ U := List.Subset.trans (by decide) hT
  have k9 : ([.icu] : List Part) ⊆ U := List.Subset.trans (by decide) hT
  unfold hostLinkDown
  repeat' first
    | with_reducible exact hC0
    | with_reducible refine Change.ite (fun _ => ?_) (fun _ => ?_)
    | with_reducible refine State.bump_change k1 ?_
    | with_reducible refine dlTags_change k2 ?_
    | with_reducible refine linkClear_change k1 ?_
    | with_reducible refine faultEvent_change k3 ?_
    | with_reducible refine giveBegin_change k4 ?_
    | with_reducible refine dlFlush_change k2 ?_
    | with_reducible refine dlFunctions_change k5 ?_
    | with_reducible refine hostForget_change k6 ?_
    | with_reducible refine Change.foldl (fun _ _ _ => ?_) ?_
    | with_reducible assumption
    | split
    | dsimp only
    | with_reducible refine Change.set_icu_hep k7 ?_
    | with_reducible refine Change.set_hep k8 ?_
    | with_reducible refine Change.set_icu k9 ?_

theorem linkTrained_change {U : List Part} {r0 : State} {speed : Nat} {width : Nat} {s : State} (hT : ([.regs] : List Part) ⊆ U) (hC0 : Change U r0 s) :
    Change U r0 (linkTrained speed width s) := by
  unfold linkTrained
  repeat' first
    | with_reducible exact hC0
    | with_reducible refine Change.ite (fun _ => ?_) (fun _ => ?_)
    | with_reducible refine State.put_change hT ?_
    | with_reducible refine Change.foldl (fun _ _ _ => ?_) ?_
    | with_reducible assumption
    | split
    | dsimp only

theorem hostLinkUp_change {U : List Part} {r0 : State} {speed : Nat} {width : Nat} {flit : Bool} {s : State} (hT : ([.regs, .tt, .icu, .hep, .out] : List Part) ⊆ U) (hC0 : Change U r0 s) :
    Change U r0 (hostLinkUp speed width flit s) := by
  have k1 : ([.regs, .tt, .out] : List Part) ⊆ U := List.Subset.trans (by decide) hT
  have k2 : ([.regs] : List Part) ⊆ U := List.Subset.trans (by decide) hT
  have k3 : ([.regs, .icu, .out] : List Part) ⊆ U := List.Subset.trans (by decide) hT
  have k4 : ([.hep] : List Part) ⊆ U := List.Subset.trans (by decide) hT
  unfold hostLinkUp
  repeat' first
    | with_reducible exact hC0
    | with_reducible refine Change.ite (fun _ => ?_) (fun _ => ?_)
    | with_reducible refine pmeSend_change k1 ?_
    | with_reducible refine State.setOut_change k2 ?_
    | with_reducible refine State.put_change k2 ?_
    | with_reducible refine linkTrained_change k2 ?_
    | with_reducible refine intaSync_change k3 ?_
    | with_reducible refine Change.foldl (fun _ _ _ => ?_) ?_
    | with_reducible assumption
    | split
    | dsimp only
    | with_reducible refine Change.set_hep k4 ?_

theorem hostLinkStop_change {U : List Part} {r0 : State} {s : State} (hT : ([.regs, .tt, .dev, .checks, .flt, .icu, .fns, .msix, .hep, .wxl, .qen, .ctx, .qaux, .spl, .swc, .ports, .hbm, .cores, .prl, .out] : List Part) ⊆ U) (hC0 : Change U r0 s) :
    Change U r0 (hostLinkStop s) := by
  have k1 : ([.hep] : List Part) ⊆ U := List.Subset.trans (by decide) hT
  unfold hostLinkStop
  repeat' first
    | with_reducible exact hC0
    | with_reducible refine Change.ite (fun _ => ?_) (fun _ => ?_)
    | with_reducible refine hostLinkDown_change hT ?_
    | with_reducible refine Change.foldl (fun _ _ _ => ?_) ?_
    | with_reducible assumption
    | split
    | dsimp only
    | with_reducible refine Change.set_hep k1 ?_

end Sys2Proof.Machine
end

