-- ==== Sys2Proof/Laws/BootOps.lean ====
section
/-! SUPPORT. What each operation of Machine/BootOps.lean may change. -/
set_option linter.all false
set_option linter.unusedTactic false
set_option linter.unreachableTactic false

namespace Sys2Proof.Machine

open Sys2Proof

theorem recoveryHold_change {U : List Part} {r0 : State} {s : State} (hT : ([.regs, .tt, .dev, .img, .checks, .flt, .icu, .fns, .msix, .hep, .wxl, .qen, .ctx, .qaux, .spl, .swc, .ports, .hbm, .cores, .prl, .out] : List Part) ⊆ U) (hC0 : Change U r0 s) :
    Change U r0 (recoveryHold s) := by
  have k1 : ([.regs, .tt, .dev, .checks, .flt, .icu, .fns, .msix, .hep, .wxl, .qen, .ctx, .qaux, .spl, .swc, .ports, .hbm, .cores, .prl, .out] : List Part) ⊆ U := List.Subset.trans (by decide) hT
  have k2 : ([.regs] : List Part) ⊆ U := List.Subset.trans (by decide) hT
  have k3 : ([.img] : List Part) ⊆ U := List.Subset.trans (by decide) hT
  unfold recoveryHold
  repeat' first
    | with_reducible exact hC0
    | with_reducible refine Change.ite (fun _ => ?_) (fun _ => ?_)
    | with_reducible refine hostLinkStop_change k1 ?_
    | with_reducible refine State.put_change k2 ?_
    | with_reducible refine Change.foldl (fun _ _ _ => ?_) ?_
    | with_reducible assumption
    | split
    | dsimp only
    | with_reducible refine Change.set_img k3 ?_

theorem nextCopy_change {U : List Part} {r0 : State} {s : State} (hT : ([.regs, .tt, .dev, .img, .checks, .flt, .icu, .fns, .msix, .hep, .wxl, .qen, .ctx, .qaux, .spl, .swc, .ports, .hbm, .cores, .prl, .out] : List Part) ⊆ U) (hC0 : Change U r0 s) :
    Change U r0 (nextCopy s) := by
  have k1 : ([.img] : List Part) ⊆ U := List.Subset.trans (by decide) hT
  unfold nextCopy
  repeat' first
    | with_reducible exact hC0
    | with_reducible refine Change.ite (fun _ => ?_) (fun _ => ?_)
    | with_reducible refine recoveryHold_change hT ?_
    | with_reducible refine Change.foldl (fun _ _ _ => ?_) ?_
    | with_reducible assumption
    | split
    | dsimp only
    | with_reducible refine Change.set_img k1 ?_

theorem bootFrom_change {U : List Part} {r0 : State} {src : Nat} {s : State} (hT : ([.regs, .tt, .dev, .img, .checks, .flt, .icu, .fns, .msix, .hep, .wxl, .qen, .ctx, .qaux, .spl, .swc, .ports, .hbm, .cores, .prl, .out] : List Part) ⊆ U) (hC0 : Change U r0 s) :
    Change U r0 (bootFrom src s) := by
  have k1 : ([.regs] : List Part) ⊆ U := List.Subset.trans (by decide) hT
  have k2 : ([.img] : List Part) ⊆ U := List.Subset.trans (by decide) hT
  unfold bootFrom
  repeat' first
    | with_reducible exact hC0
    | with_reducible refine Change.ite (fun _ => ?_) (fun _ => ?_)
    | with_reducible refine State.setReg_change k1 ?_
    | with_reducible refine nextCopy_change hT ?_
    | with_reducible refine Change.foldl (fun _ _ _ => ?_) ?_
    | with_reducible assumption
    | split
    | dsimp only
    | with_reducible refine Change.set_img k2 ?_

theorem copyFail_change {U : List Part} {r0 : State} {reason : Nat} {entry : Option Nat} {s : State} (hT : ([.regs, .tt, .dev, .img, .checks, .flt, .icu, .fns, .msix, .hep, .wxl, .qen, .ctx, .qaux, .spl, .swc, .ports, .hbm, .cores, .prl, .out] : List Part) ⊆ U) (hC0 : Change U r0 s) :
    Change U r0 (copyFail reason entry s) := by
  have k1 : ([.regs] : List Part) ⊆ U := List.Subset.trans (by decide) hT
  unfold copyFail
  repeat' first
    | with_reducible exact hC0
    | with_reducible refine Change.ite (fun _ => ?_) (fun _ => ?_)
    | with_reducible refine State.setReg_change k1 ?_
    | with_reducible refine State.put_change k1 ?_
    | with_reducible refine nextCopy_change hT ?_
    | with_reducible refine Change.foldl (fun _ _ _ => ?_) ?_
    | with_reducible assumption
    | split
    | dsimp only

theorem configApply_change {U : List Part} {r0 : State} {s : State} (hT : ([.regs, .img, .hep] : List Part) ⊆ U) (hC0 : Change U r0 s) :
    Change U r0 (configApply s) := by
  have k1 : ([.regs] : List Part) ⊆ U := List.Subset.trans (by decide) hT
  have k2 : ([.img, .hep] : List Part) ⊆ U := List.Subset.trans (by decide) hT
  have k3 : ([.hep] : List Part) ⊆ U := List.Subset.trans (by decide) hT
  have k4 : ([.img] : List Part) ⊆ U := List.Subset.trans (by decide) hT
  unfold configApply
  repeat' first
    | with_reducible exact hC0
    | with_reducible refine Change.ite (fun _ => ?_) (fun _ => ?_)
    | with_reducible refine State.setReg_change k1 ?_
    | with_reducible refine State.put_change k1 ?_
    | with_reducible refine Change.foldl (fun _ _ _ => ?_) ?_
    | with_reducible assumption
    | split
    | dsimp only
    | with_reducible refine Change.set_img_hep k2 ?_
    | with_reducible refine Change.set_hep k3 ?_
    | with_reducible refine Change.set_img k4 ?_

theorem applyAll_change {α : Type} {U : List Part} {r0 : State} {f : α → State → Applied} {l : List α} {s : State}
    (hf : ∀ a ∈ l, ∀ t, Change U r0 t → ChangeOk U r0 (f a t)) (hC0 : Change U r0 s) : ChangeOk U r0 (applyAll f l s) := by
  induction l generalizing s with
  | nil => exact ChangeOk.ok hC0
  | cons a r ih =>
    unfold applyAll
    split
    · exact ih (fun x hx => hf x (.tail _ hx)) (hf a (.head _) s hC0 _ ‹_›)
    · exact ChangeOk.error

theorem State.asConfig_change {U : List Part} {r0 : State} {s : State} (hT : ([.dev] : List Part) ⊆ U) (hC0 : Change U r0 s) :
    Change U r0 (State.asConfig s) := by
  unfold State.asConfig
  repeat' first
    | with_reducible exact hC0
    | with_reducible refine Change.ite (fun _ => ?_) (fun _ => ?_)
    | with_reducible refine Change.foldl (fun _ _ _ => ?_) ?_
    | with_reducible assumption
    | split
    | dsimp only
    | with_reducible refine Change.set_dev hT ?_

theorem imgWrite_change {U : List Part} {r0 : State} {off : Nat} {v : Word} {s : State} (hT : ([.regs, .tt, .pins, .dev, .img, .checks, .flt, .icu, .hep, .wxl, .qen, .ctx, .qaux, .spl, .swc, .ports, .hbm, .mem, .gdc, .cores, .tcm, .prl, .out] : List Part) ⊆ U) (hC0 : Change U r0 s) :
    ChangeOk U r0 (imgWrite off v s) := by
  have k1 : ([.dev] : List Part) ⊆ U := List.Subset.trans (by decide) hT
  have k2 : ([.regs, .tt, .dev, .checks, .flt, .icu, .hep, .wxl, .qen, .ctx, .qaux, .spl, .swc, .ports, .cores, .prl, .out] : List Part) ⊆ U := List.Subset.trans (by decide) hT
  unfold imgWrite
  repeat' first
    | with_reducible exact hC0
    | with_reducible refine Change.ite (fun _ => ?_) (fun _ => ?_)
    | with_reducible exact ChangeOk.error
    | with_reducible refine ChangeOk.ok ?_
    | with_reducible refine ChangeOk.ite (fun _ => ?_) (fun _ => ?_)
    | with_reducible refine ctlWriteAs_change hT ?_
    | with_reducible refine State.asConfig_change k1 ?_
    | with_reducible refine checkEnd_change k2 ?_
    | with_reducible refine Change.foldl (fun _ _ _ => ?_) ?_
    | with_reducible assumption
    | split
    | dsimp only
    | with_reducible refine Change.set_dev k1 ?_

theorem imgWrites_change {U : List Part} {r0 : State} {l : List (Nat × Word)} {s : State} (hT : ([.regs, .tt, .pins, .dev, .img, .checks, .flt, .icu, .hep, .wxl, .qen, .ctx, .qaux, .spl, .swc, .ports, .hbm, .mem, .gdc, .cores, .tcm, .prl, .out] : List Part) ⊆ U) (hC0 : Change U r0 s) :
    ChangeOk U r0 (imgWrites l s) := applyAll_change (fun _ _ _ h => imgWrite_change hT h) hC0

theorem iwinReport_change {U : List Part} {r0 : State} {w : Nat} {mode : Nat} {log2 : Nat} {s : State} (hT : ([.regs] : List Part) ⊆ U) (hC0 : Change U r0 s) :
    Change U r0 (iwinReport w mode log2 s) := by
  unfold iwinReport
  repeat' first
    | with_reducible exact hC0
    | with_reducible refine Change.ite (fun _ => ?_) (fun _ => ?_)
    | with_reducible refine State.put_change hT ?_
    | with_reducible refine Change.foldl (fun _ _ _ => ?_) ?_
    | with_reducible assumption
    | split
    | dsimp only

theorem iwinReports_change {U : List Part} {r0 : State} {f : Nat} {s : State} (hT : ([.regs] : List Part) ⊆ U) (hC0 : Change U r0 s) :
    Change U r0 (iwinReports f s) := by
  unfold iwinReports
  repeat' first
    | with_reducible exact hC0
    | with_reducible refine Change.ite (fun _ => ?_) (fun _ => ?_)
    | with_reducible refine iwinReport_change hT ?_
    | with_reducible refine Change.foldl (fun _ _ _ => ?_) ?_
    | with_reducible assumption
    | split
    | dsimp only

theorem applyFns_change {U : List Part} {r0 : State} {s : State} (hT : ([.regs, .img, .pf, .vf] : List Part) ⊆ U) (hC0 : Change U r0 s) :
    Change U r0 (applyFns s) := by
  have k1 : ([.regs] : List Part) ⊆ U := List.Subset.trans (by decide) hT
  have k2 : ([.img, .pf, .vf] : List Part) ⊆ U := List.Subset.trans (by decide) hT
  unfold applyFns
  refine Change.foldl (fun _ _ h => iwinReports_change k1 h) (Change.set_img_pf_vf k2 (fun _ => ?_) (fun _ => ?_) hC0)
  · exact KMap.wf_foldl_set (d := fun _ => ({} : PfEnt)) (k := id) rfl
  · exact KMap.wf_foldl_set (d := fun _ => ((0, 0) : Nat × Nat)) (k := fun j => 8 + j) rfl

theorem applyMap_change {U : List Part} {r0 : State} {s : State} (hT : ([.regs, .img, .hbm] : List Part) ⊆ U) (hC0 : Change U r0 s) :
    ChangeOk U r0 (applyMap s) := by
  have k1 : ([.regs] : List Part) ⊆ U := List.Subset.trans (by decide) hT
  have k2 : ([.img, .hbm] : List Part) ⊆ U := List.Subset.trans (by decide) hT
  have k3 : ([.hbm] : List Part) ⊆ U := List.Subset.trans (by decide) hT
  have k4 : ([.img] : List Part) ⊆ U := List.Subset.trans (by decide) hT
  unfold applyMap
  repeat' first
    | with_reducible exact hC0
    | with_reducible refine Change.ite (fun _ => ?_) (fun _ => ?_)
    | with_reducible exact ChangeOk.error
    | with_reducible refine ChangeOk.ok ?_
    | with_reducible refine ChangeOk.ite (fun _ => ?_) (fun _ => ?_)
    | with_reducible refine State.put_change k1 ?_
    | with_reducible refine Change.foldl (fun _ _ _ => ?_) ?_
    | with_reducible assumption
    | split
    | dsimp only
    | with_reducible refine Change.set_img_hbm k2 ?_
    | with_reducible refine Change.set_hbm k3 ?_
    | with_reducible refine Change.set_img k4 ?_

theorem setCoefs_change {U : List Part} {r0 : State} {l : List Word} {op : Word} {s : State} (hT : ([.regs, .spl] : List Part) ⊆ U) (hC0 : Change U r0 s) :
    Change U r0 (setCoefs l op s) := by
  have k1 : ([.regs] : List Part) ⊆ U := List.Subset.trans (by decide) hT
  have k2 : ([.spl] : List Part) ⊆ U := List.Subset.trans (by decide) hT
  unfold setCoefs
  repeat' first
    | with_reducible exact hC0
    | with_reducible refine Change.ite (fun _ => ?_) (fun _ => ?_)
    | with_reducible refine State.setReg_change k1 ?_
    | with_reducible refine Change.foldl (fun _ _ _ => ?_) ?_
    | with_reducible assumption
    | split
    | dsimp only
    | with_reducible refine Change.set_spl k2 ?_

theorem applyCoefs_change {U : List Part} {r0 : State} {s : State} (hT : ([.regs, .spl] : List Part) ⊆ U) (hC0 : Change U r0 s) :
    ChangeOk U r0 (applyCoefs s) := by
  unfold applyCoefs
  repeat' first
    | with_reducible exact hC0
    | with_reducible refine Change.ite (fun _ => ?_) (fun _ => ?_)
    | with_reducible exact ChangeOk.error
    | with_reducible refine ChangeOk.ok ?_
    | with_reducible refine ChangeOk.ite (fun _ => ?_) (fun _ => ?_)
    | with_reducible refine setCoefs_change hT ?_
    | with_reducible refine Change.foldl (fun _ _ _ => ?_) ?_
    | with_reducible assumption
    | split
    | dsimp only

theorem applyEnv_change {U : List Part} {r0 : State} {e : Nat} {v : Word} {s : State} (hT : ([.regs, .dev, .spl] : List Part) ⊆ U) (hC0 : Change U r0 s) :
    ChangeOk U r0 (applyEnv e v s) := by
  have k1 : ([.regs] : List Part) ⊆ U := List.Subset.trans (by decide) hT
  have k2 : ([.dev] : List Part) ⊆ U := List.Subset.trans (by decide) hT
  have k3 : ([.regs, .spl] : List Part) ⊆ U := List.Subset.trans (by decide) hT
  unfold applyEnv
  repeat' first
    | with_reducible exact hC0
    | with_reducible refine Change.ite (fun _ => ?_) (fun _ => ?_)
    | with_reducible exact ChangeOk.error
    | with_reducible refine ChangeOk.ok ?_
    | with_reducible refine ChangeOk.ite (fun _ => ?_) (fun _ => ?_)
    | with_reducible refine State.setReg_change k1 ?_
    | with_reducible refine State.asConfig_change k2 ?_
    | with_reducible refine envBegin_change k3 ?_
    | with_reducible refine Change.foldl (fun _ _ _ => ?_) ?_
    | with_reducible assumption
    | split
    | dsimp only

theorem applyItem_change {U : List Part} {r0 : State} {r : WinRec} {k : Nat} {s : State} (hT : ([.regs, .tt, .pins, .dev, .img, .checks, .flt, .icu, .hep, .wxl, .xt, .qen, .ctx, .qaux, .spl, .swc, .ports, .hbm, .mem, .gdc, .cores, .tcm, .prl, .out] : List Part) ⊆ U) (hC0 : Change U r0 s) :
    ChangeOk U r0 (applyItem r k s) := by
  have k1 : ([.regs] : List Part) ⊆ U := List.Subset.trans (by decide) hT
  have k2 : ([.regs, .dev, .spl] : List Part) ⊆ U := List.Subset.trans (by decide) hT
  have k3 : ([.regs, .tt, .pins, .dev, .img, .checks, .flt, .icu, .hep, .wxl, .qen, .ctx, .qaux, .spl, .swc, .ports, .hbm, .mem, .gdc, .cores, .tcm, .prl, .out] : List Part) ⊆ U := List.Subset.trans (by decide) hT
  have k4 : ([.xt] : List Part) ⊆ U := List.Subset.trans (by decide) hT
  unfold applyItem
  repeat' first
    | with_reducible exact hC0
    | with_reducible refine Change.ite (fun _ => ?_) (fun _ => ?_)
    | with_reducible exact ChangeOk.error
    | with_reducible refine ChangeOk.ok ?_
    | with_reducible refine ChangeOk.ite (fun _ => ?_) (fun _ => ?_)
    | with_reducible refine State.setReg_change k1 ?_
    | with_reducible refine applyEnv_change k2 ?_
    | (refine applyEnv_change k2 ?_ _ (by assumption))
    | with_reducible refine imgWrites_change k3 ?_
    | (refine imgWrites_change k3 ?_ _ (by assumption))
    | with_reducible refine Change.foldl (fun _ _ _ => ?_) ?_
    | with_reducible assumption
    | split
    | dsimp only
    | refine Change.set_xt k4 (by first | exact fun c => KMap.wf_set _ _ _ _ c.xt | exact fun c => KMap.wf_filter _ _ _ c.xt | exact fun _ => rfl) ?_

theorem applyRec_change {U : List Part} {r0 : State} {r : WinRec} {s : State} (hT : ([.regs, .tt, .pins, .dev, .img, .checks, .flt, .icu, .hep, .wxl, .xt, .qen, .ctx, .qaux, .spl, .swc, .ports, .hbm, .mem, .gdc, .cores, .tcm, .prl, .out] : List Part) ⊆ U) (hC0 : Change U r0 s) :
    ChangeOk U r0 (applyRec r s) := applyAll_change (fun _ _ _ h => applyItem_change hT h) hC0

theorem applyWins_change {U : List Part} {r0 : State} {s : State} (hT : ([.regs, .tt, .pins, .dev, .img, .checks, .flt, .icu, .hep, .wxl, .xt, .qen, .ctx, .qaux, .spl, .swc, .ports, .hbm, .mem, .gdc, .cores, .tcm, .prl, .out] : List Part) ⊆ U) (hC0 : Change U r0 s) :
    ChangeOk U r0 (applyWins s) := by
  unfold applyWins
  refine ChangeOk.ite (fun _ => ChangeOk.error) (fun _ => ?_)
  split
  · exact ChangeOk.ite (fun _ => ChangeOk.error)
      (fun _ => ChangeOk.ok (applyAll_change (fun _ _ _ h => applyRec_change hT h) hC0 _ ‹_›))
  · exact ChangeOk.error

theorem applyPort_change {U : List Part} {r0 : State} {l : List Byte} {p : Nat} {s : State} (hT : ([.regs, .tt, .pins, .dev, .img, .checks, .flt, .icu, .hep, .wxl, .qen, .ctx, .qaux, .spl, .swc, .ports, .hbm, .mem, .gdc, .cores, .tcm, .prl, .out] : List Part) ⊆ U) (hC0 : Change U r0 s) :
    ChangeOk U r0 (applyPort l p s) := by
  have k1 : ([.regs] : List Part) ⊆ U := List.Subset.trans (by decide) hT
  unfold applyPort
  repeat' first
    | with_reducible exact hC0
    | with_reducible refine Change.ite (fun _ => ?_) (fun _ => ?_)
    | with_reducible exact ChangeOk.error
    | with_reducible refine ChangeOk.ok ?_
    | with_reducible refine ChangeOk.ite (fun _ => ?_) (fun _ => ?_)
    | with_reducible refine State.setReg_change k1 ?_
    | with_reducible refine imgWrites_change hT ?_
    | (refine imgWrites_change hT ?_ _ (by assumption))
    | with_reducible refine Change.foldl (fun _ _ _ => ?_) ?_
    | with_reducible assumption
    | split
    | dsimp only

theorem applyPorts_change {U : List Part} {r0 : State} {s : State} (hT : ([.regs, .tt, .pins, .dev, .img, .checks, .flt, .icu, .hep, .wxl, .qen, .ctx, .qaux, .spl, .swc, .ports, .hbm, .mem, .gdc, .cores, .tcm, .prl, .out] : List Part) ⊆ U) (hC0 : Change U r0 s) :
    ChangeOk U r0 (applyPorts s) := by
  unfold applyPorts
  split
  · exact ChangeOk.ok hC0
  · exact ChangeOk.ite (fun _ => ChangeOk.error) (fun _ => applyAll_change (fun _ _ _ h => applyPort_change hT h) hC0)

theorem applyDefault_change {U : List Part} {r0 : State} {l : List Byte} {i : Nat} {s : State} (hT : ([.regs, .tt, .pins, .dev, .img, .checks, .flt, .icu, .hep, .wxl, .qen, .ctx, .qaux, .spl, .swc, .ports, .hbm, .mem, .gdc, .cores, .tcm, .prl, .out] : List Part) ⊆ U) (hC0 : Change U r0 s) :
    ChangeOk U r0 (applyDefault l i s) := by
  unfold applyDefault
  repeat' first
    | with_reducible exact hC0
    | with_reducible refine Change.ite (fun _ => ?_) (fun _ => ?_)
    | with_reducible exact ChangeOk.error
    | with_reducible refine ChangeOk.ok ?_
    | with_reducible refine ChangeOk.ite (fun _ => ?_) (fun _ => ?_)
    | with_reducible refine imgWrite_change hT ?_
    | (refine imgWrite_change hT ?_ _ (by assumption))
    | with_reducible refine Change.foldl (fun _ _ _ => ?_) ?_
    | with_reducible assumption
    | split
    | dsimp only

theorem applyDefaults_change {U : List Part} {r0 : State} {s : State} (hT : ([.regs, .tt, .pins, .dev, .img, .checks, .flt, .icu, .hep, .wxl, .qen, .ctx, .qaux, .spl, .swc, .ports, .hbm, .mem, .gdc, .cores, .tcm, .prl, .out] : List Part) ⊆ U) (hC0 : Change U r0 s) :
    ChangeOk U r0 (applyDefaults s) := applyAll_change (fun _ _ _ h => applyDefault_change hT h) hC0

theorem imgApply_change {U : List Part} {r0 : State} {s : State} (hT : ([.regs, .tt, .pins, .dev, .img, .checks, .flt, .icu, .pf, .vf, .hep, .wxl, .xt, .qen, .ctx, .qaux, .spl, .swc, .ports, .hbm, .mem, .gdc, .cores, .tcm, .prl, .out] : List Part) ⊆ U) (hC0 : Change U r0 s) :
    ChangeOk U r0 (imgApply s) := by
  have k0 : ([.regs] : List Part) ⊆ U := List.Subset.trans (by decide) hT
  have k1 : ([.regs, .img, .hbm] : List Part) ⊆ U := List.Subset.trans (by decide) hT
  have k2 : ([.regs, .spl] : List Part) ⊆ U := List.Subset.trans (by decide) hT
  have k3 : ([.regs, .tt, .pins, .dev, .img, .checks, .flt, .icu, .hep, .wxl, .xt, .qen, .ctx, .qaux, .spl, .swc, .ports, .hbm, .mem, .gdc, .cores, .tcm, .prl, .out] : List Part) ⊆ U := List.Subset.trans (by decide) hT
  have k4 : ([.regs, .tt, .pins, .dev, .img, .checks, .flt, .icu, .hep, .wxl, .qen, .ctx, .qaux, .spl, .swc, .ports, .hbm, .mem, .gdc, .cores, .tcm, .prl, .out] : List Part) ⊆ U := List.Subset.trans (by decide) hT
  have k5 : ([.regs, .tt, .pins, .dev, .img, .checks, .flt, .icu, .hep, .wxl, .qen, .ctx, .qaux, .spl, .swc, .ports, .hbm, .mem, .gdc, .cores, .tcm, .prl, .out] : List Part) ⊆ U := List.Subset.trans (by decide) hT
  have k6 : ([.regs, .img, .pf, .vf] : List Part) ⊆ U := List.Subset.trans (by decide) hT
  refine applyAll_change (fun f hf t h => ?_) (State.put_change k0 (applyFns_change k6 hC0))
  simp only [List.mem_cons, List.not_mem_nil, or_false] at hf
  rcases hf with rfl | rfl | rfl | rfl | rfl
  · exact applyMap_change k1 h
  · exact applyCoefs_change k2 h
  · exact applyWins_change k3 h
  · exact applyPorts_change k4 h
  · exact applyDefaults_change k5 h

theorem imgKeep_change {U : List Part} {r0 : State} {s : State} (hT : ([.img] : List Part) ⊆ U) (hC0 : Change U r0 s) :
    Change U r0 (imgKeep s) := by
  unfold imgKeep
  repeat' first
    | with_reducible exact hC0
    | with_reducible refine Change.ite (fun _ => ?_) (fun _ => ?_)
    | with_reducible refine Change.foldl (fun _ _ _ => ?_) ?_
    | with_reducible assumption
    | split
    | dsimp only
    | with_reducible refine Change.set_img hT ?_

theorem imgInstall_change {U : List Part} {r0 : State} {s : State} (hT : ([.regs, .tt, .pins, .dev, .img, .checks, .flt, .icu, .pf, .vf, .hep, .wxl, .xt, .qen, .ctx, .qaux, .spl, .swc, .ports, .hbm, .mem, .gdc, .cores, .tcm, .prl, .out] : List Part) ⊆ U) (hC0 : Change U r0 s) :
    Change U r0 (imgInstall s) := by
  have k1 : ([.img] : List Part) ⊆ U := List.Subset.trans (by decide) hT
  unfold imgInstall
  refine Change.ite (fun _ => ?_) (fun _ => hC0)
  have h := imgApply_change hT hC0
  generalize imgApply s = x at h
  cases x with
  | ok t => exact Change.set_img k1 (imgKeep_change k1 (h t rfl))
  | error e => exact hC0

theorem earlyRead_change {U : List Part} {r0 : State} {bodies : List (List Byte)} {s : State} (hT : ([.regs, .tt, .pins, .dev, .img, .checks, .flt, .icu, .pf, .vf, .fns, .msix, .hep, .wxl, .xt, .qen, .ctx, .qaux, .spl, .swc, .ports, .hbm, .mem, .gdc, .cores, .tcm, .prl, .out] : List Part) ⊆ U) (hC0 : Change U r0 s) :
    Change U r0 (earlyRead bodies s) := by
  have k0 : ([.regs, .tt, .pins, .dev, .img, .checks, .flt, .icu, .pf, .vf, .hep, .wxl, .xt, .qen, .ctx, .qaux, .spl, .swc, .ports, .hbm, .mem, .gdc, .cores, .tcm, .prl, .out] : List Part) ⊆ U := List.Subset.trans (by decide) hT
  have k1 : ([.regs, .img, .hep] : List Part) ⊆ U := List.Subset.trans (by decide) hT
  have k2 : ([.regs, .tt, .dev, .img, .checks, .flt, .icu, .fns, .msix, .hep, .wxl, .qen, .ctx, .qaux, .spl, .swc, .ports, .hbm, .cores, .prl, .out] : List Part) ⊆ U := List.Subset.trans (by decide) hT
  have k3 : ([.img] : List Part) ⊆ U := List.Subset.trans (by decide) hT
  have h1 : Change U r0 { s with img := { s.img with bodies := bodies } } := Change.set_img k3 hC0
  unfold earlyRead
  dsimp only
  split
  · exact copyFail_change k2 h1
  · refine Change.ite (fun _ => copyFail_change k2 (configApply_change k1 h1)) (fun _ => ?_)
    generalize imgApply _ = x
    cases x with
    | ok t => exact imgInstall_change k0 (Change.set_img k3 (configApply_change k1 h1))
    | error e => exact copyFail_change k2 (configApply_change k1 h1)

theorem flashRead_change {U : List Part} {r0 : State} {rd : FlashRead} {s : State} (hT : ([.regs, .tt, .pins, .dev, .img, .checks, .flt, .icu, .pf, .vf, .fns, .msix, .hep, .wxl, .xt, .qen, .ctx, .qaux, .spl, .swc, .ports, .hbm, .mem, .gdc, .cores, .tcm, .prl, .out] : List Part) ⊆ U) (hC0 : Change U r0 s) :
    Change U r0 (flashRead rd s) := by
  have k1 : ([.regs, .tt, .dev, .img, .checks, .flt, .icu, .fns, .msix, .hep, .wxl, .qen, .ctx, .qaux, .spl, .swc, .ports, .hbm, .cores, .prl, .out] : List Part) ⊆ U := List.Subset.trans (by decide) hT
  have k2 : ([.img] : List Part) ⊆ U := List.Subset.trans (by decide) hT
  unfold flashRead
  repeat' first
    | with_reducible exact hC0
    | with_reducible refine Change.ite (fun _ => ?_) (fun _ => ?_)
    | with_reducible refine earlyRead_change hT ?_
    | with_reducible refine copyFail_change k1 ?_
    | with_reducible refine Change.foldl (fun _ _ _ => ?_) ?_
    | with_reducible assumption
    | split
    | dsimp only
    | with_reducible refine Change.set_img k2 ?_

theorem hbmPlace_change {U : List Part} {r0 : State} {s : State} (hT : ([.regs, .hbm] : List Part) ⊆ U) (hC0 : Change U r0 s) :
    Change U r0 (hbmPlace s) := by
  have k1 : ([.regs] : List Part) ⊆ U := List.Subset.trans (by decide) hT
  have k2 : ([.hbm] : List Part) ⊆ U := List.Subset.trans (by decide) hT
  unfold hbmPlace
  repeat' first
    | with_reducible exact hC0
    | with_reducible refine Change.ite (fun _ => ?_) (fun _ => ?_)
    | with_reducible refine State.setReg_change k1 ?_
    | with_reducible refine State.put_change k1 ?_
    | with_reducible refine Change.foldl (fun _ _ _ => ?_) ?_
    | with_reducible assumption
    | split
    | dsimp only
    | with_reducible refine Change.set_hbm k2 ?_

theorem slotBegin_change {U : List Part} {r0 : State} {p : Nat} {s : State} (hT : ([.regs, .pins, .ports] : List Part) ⊆ U) (hC0 : Change U r0 s) :
    Change U r0 (slotBegin p s) := by
  have k1 : ([.ports] : List Part) ⊆ U := List.Subset.trans (by decide) hT
  have k2 : ([.regs, .pins] : List Part) ⊆ U := List.Subset.trans (by decide) hT
  have k3 : ([.regs] : List Part) ⊆ U := List.Subset.trans (by decide) hT
  have k4 : ([.pins] : List Part) ⊆ U := List.Subset.trans (by decide) hT
  unfold slotBegin
  repeat' first
    | with_reducible exact hC0
    | with_reducible refine Change.ite (fun _ => ?_) (fun _ => ?_)
    | with_reducible refine State.modPort_change k1 ?_
    | with_reducible refine pwrenDrive_change k2 ?_
    | with_reducible refine State.put_change k3 ?_
    | with_reducible refine Change.foldl (fun _ _ _ => ?_) ?_
    | with_reducible assumption
    | split
    | dsimp only
    | with_reducible refine Change.set_pins k4 ?_

theorem enterConfigMode_change {U : List Part} {r0 : State} {s : State} (hT : ([.regs, .tt, .pins, .dev, .img, .flt, .icu, .hep, .spl, .ports, .hbm, .out] : List Part) ⊆ U) (hC0 : Change U r0 s) :
    Change U r0 (enterConfigMode s) := by
  have k1 : ([.regs] : List Part) ⊆ U := List.Subset.trans (by decide) hT
  have k2 : ([.regs, .ports, .out] : List Part) ⊆ U := List.Subset.trans (by decide) hT
  have k3 : ([.regs, .pins, .ports] : List Part) ⊆ U := List.Subset.trans (by decide) hT
  have k4 : ([.regs, .tt, .dev, .flt, .icu, .spl, .out] : List Part) ⊆ U := List.Subset.trans (by decide) hT
  have k5 : ([.regs, .hbm] : List Part) ⊆ U := List.Subset.trans (by decide) hT
  have k6 : ([.regs, .hep] : List Part) ⊆ U := List.Subset.trans (by decide) hT
  have k7 : ([.pins, .img] : List Part) ⊆ U := List.Subset.trans (by decide) hT
  have k8 : ([.img] : List Part) ⊆ U := List.Subset.trans (by decide) hT
  have k9 : ([.pins] : List Part) ⊆ U := List.Subset.trans (by decide) hT
  unfold enterConfigMode
  repeat' first
    | with_reducible exact hC0
    | with_reducible refine Change.ite (fun _ => ?_) (fun _ => ?_)
    | with_reducible refine State.setReg_change k1 ?_
    | with_reducible refine sbPair_change k2 ?_
    | with_reducible refine State.setOut_change k1 ?_
    | with_reducible refine slotBegin_change k3 ?_
    | with_reducible refine setMode_change k4 ?_
    | with_reducible refine State.put_change k1 ?_
    | with_reducible refine hbmPlace_change k5 ?_
    | with_reducible refine hostRetrain_change k6 ?_
    | with_reducible refine Change.foldl (fun _ _ _ => ?_) ?_
    | with_reducible assumption
    | split
    | dsimp only
    | with_reducible refine Change.set_pins_img k7 ?_
    | with_reducible refine Change.set_img k8 ?_
    | with_reducible refine Change.set_pins k9 ?_

end Sys2Proof.Machine
end

