-- ==== Sys2Proof/Laws/State.lean ====
section
/-! SUPPORT. Laws of the state's named updates: each leaves every other field of State alone, and each accessor reads what
its own update wrote. -/
namespace Sys2Proof.Machine

open Sys2Proof

/-! ### Every update leaves the other fields alone -/

@[simp] theorem State.setReg_pending (s : State) (off : Nat) (v : Word) : (s.setReg off v).pending = s.pending := rfl
@[simp] theorem State.setReg_tt (s : State) (off : Nat) (v : Word) : (s.setReg off v).tt = s.tt := rfl
@[simp] theorem State.setReg_pins (s : State) (off : Nat) (v : Word) : (s.setReg off v).pins = s.pins := rfl
@[simp] theorem State.setReg_dev (s : State) (off : Nat) (v : Word) : (s.setReg off v).dev = s.dev := rfl
@[simp] theorem State.setReg_pwr (s : State) (off : Nat) (v : Word) : (s.setReg off v).pwr = s.pwr := rfl
@[simp] theorem State.setReg_img (s : State) (off : Nat) (v : Word) : (s.setReg off v).img = s.img := rfl
@[simp] theorem State.setReg_checks (s : State) (off : Nat) (v : Word) : (s.setReg off v).checks = s.checks := rfl
@[simp] theorem State.setReg_flt (s : State) (off : Nat) (v : Word) : (s.setReg off v).flt = s.flt := rfl
@[simp] theorem State.setReg_icu (s : State) (off : Nat) (v : Word) : (s.setReg off v).icu = s.icu := rfl
@[simp] theorem State.setReg_pf (s : State) (off : Nat) (v : Word) : (s.setReg off v).pf = s.pf := rfl
@[simp] theorem State.setReg_vf (s : State) (off : Nat) (v : Word) : (s.setReg off v).vf = s.vf := rfl
@[simp] theorem State.setReg_fns (s : State) (off : Nat) (v : Word) : (s.setReg off v).fns = s.fns := rfl
@[simp] theorem State.setReg_msix (s : State) (off : Nat) (v : Word) : (s.setReg off v).msix = s.msix := rfl
@[simp] theorem State.setReg_hep (s : State) (off : Nat) (v : Word) : (s.setReg off v).hep = s.hep := rfl
@[simp] theorem State.setReg_wxl (s : State) (off : Nat) (v : Word) : (s.setReg off v).wxl = s.wxl := rfl
@[simp] theorem State.setReg_xt (s : State) (off : Nat) (v : Word) : (s.setReg off v).xt = s.xt := rfl
@[simp] theorem State.setReg_qen (s : State) (off : Nat) (v : Word) : (s.setReg off v).qen = s.qen := rfl
@[simp] theorem State.setReg_ctx (s : State) (off : Nat) (v : Word) : (s.setReg off v).ctx = s.ctx := rfl
@[simp] theorem State.setReg_qaux (s : State) (off : Nat) (v : Word) : (s.setReg off v).qaux = s.qaux := rfl
@[simp] theorem State.setReg_spl (s : State) (off : Nat) (v : Word) : (s.setReg off v).spl = s.spl := rfl
@[simp] theorem State.setReg_swc (s : State) (off : Nat) (v : Word) : (s.setReg off v).swc = s.swc := rfl
@[simp] theorem State.setReg_ports (s : State) (off : Nat) (v : Word) : (s.setReg off v).ports = s.ports := rfl
@[simp] theorem State.setReg_hbm (s : State) (off : Nat) (v : Word) : (s.setReg off v).hbm = s.hbm := rfl
@[simp] theorem State.setReg_mem (s : State) (off : Nat) (v : Word) : (s.setReg off v).mem = s.mem := rfl
@[simp] theorem State.setReg_gdc (s : State) (off : Nat) (v : Word) : (s.setReg off v).gdc = s.gdc := rfl
@[simp] theorem State.setReg_cores (s : State) (off : Nat) (v : Word) : (s.setReg off v).cores = s.cores := rfl
@[simp] theorem State.setReg_sram (s : State) (off : Nat) (v : Word) : (s.setReg off v).sram = s.sram := rfl
@[simp] theorem State.setReg_tcm (s : State) (off : Nat) (v : Word) : (s.setReg off v).tcm = s.tcm := rfl
@[simp] theorem State.setReg_prl (s : State) (off : Nat) (v : Word) : (s.setReg off v).prl = s.prl := rfl
@[simp] theorem State.setReg_out (s : State) (off : Nat) (v : Word) : (s.setReg off v).out = s.out := rfl
@[simp] theorem State.setReg_free (s : State) (off : Nat) (v : Word) : (s.setReg off v).free = s.free := rfl

@[simp] theorem State.put_pending (s : State) (f : Field) (v : Nat) : (s.put f v).pending = s.pending := rfl
@[simp] theorem State.put_tt (s : State) (f : Field) (v : Nat) : (s.put f v).tt = s.tt := rfl
@[simp] theorem State.put_pins (s : State) (f : Field) (v : Nat) : (s.put f v).pins = s.pins := rfl
@[simp] theorem State.put_dev (s : State) (f : Field) (v : Nat) : (s.put f v).dev = s.dev := rfl
@[simp] theorem State.put_pwr (s : State) (f : Field) (v : Nat) : (s.put f v).pwr = s.pwr := rfl
@[simp] theorem State.put_img (s : State) (f : Field) (v : Nat) : (s.put f v).img = s.img := rfl
@[simp] theorem State.put_checks (s : State) (f : Field) (v : Nat) : (s.put f v).checks = s.checks := rfl
@[simp] theorem State.put_flt (s : State) (f : Field) (v : Nat) : (s.put f v).flt = s.flt := rfl
@[simp] theorem State.put_icu (s : State) (f : Field) (v : Nat) : (s.put f v).icu = s.icu := rfl
@[simp] theorem State.put_pf (s : State) (f : Field) (v : Nat) : (s.put f v).pf = s.pf := rfl
@[simp] theorem State.put_vf (s : State) (f : Field) (v : Nat) : (s.put f v).vf = s.vf := rfl
@[simp] theorem State.put_fns (s : State) (f : Field) (v : Nat) : (s.put f v).fns = s.fns := rfl
@[simp] theorem State.put_msix (s : State) (f : Field) (v : Nat) : (s.put f v).msix = s.msix := rfl
@[simp] theorem State.put_hep (s : State) (f : Field) (v : Nat) : (s.put f v).hep = s.hep := rfl
@[simp] theorem State.put_wxl (s : State) (f : Field) (v : Nat) : (s.put f v).wxl = s.wxl := rfl
@[simp] theorem State.put_xt (s : State) (f : Field) (v : Nat) : (s.put f v).xt = s.xt := rfl
@[simp] theorem State.put_qen (s : State) (f : Field) (v : Nat) : (s.put f v).qen = s.qen := rfl
@[simp] theorem State.put_ctx (s : State) (f : Field) (v : Nat) : (s.put f v).ctx = s.ctx := rfl
@[simp] theorem State.put_qaux (s : State) (f : Field) (v : Nat) : (s.put f v).qaux = s.qaux := rfl
@[simp] theorem State.put_spl (s : State) (f : Field) (v : Nat) : (s.put f v).spl = s.spl := rfl
@[simp] theorem State.put_swc (s : State) (f : Field) (v : Nat) : (s.put f v).swc = s.swc := rfl
@[simp] theorem State.put_ports (s : State) (f : Field) (v : Nat) : (s.put f v).ports = s.ports := rfl
@[simp] theorem State.put_hbm (s : State) (f : Field) (v : Nat) : (s.put f v).hbm = s.hbm := rfl
@[simp] theorem State.put_mem (s : State) (f : Field) (v : Nat) : (s.put f v).mem = s.mem := rfl
@[simp] theorem State.put_gdc (s : State) (f : Field) (v : Nat) : (s.put f v).gdc = s.gdc := rfl
@[simp] theorem State.put_cores (s : State) (f : Field) (v : Nat) : (s.put f v).cores = s.cores := rfl
@[simp] theorem State.put_sram (s : State) (f : Field) (v : Nat) : (s.put f v).sram = s.sram := rfl
@[simp] theorem State.put_tcm (s : State) (f : Field) (v : Nat) : (s.put f v).tcm = s.tcm := rfl
@[simp] theorem State.put_prl (s : State) (f : Field) (v : Nat) : (s.put f v).prl = s.prl := rfl
@[simp] theorem State.put_out (s : State) (f : Field) (v : Nat) : (s.put f v).out = s.out := rfl
@[simp] theorem State.put_free (s : State) (f : Field) (v : Nat) : (s.put f v).free = s.free := rfl

@[simp] theorem State.bump_pending (s : State) (f : Field) : (s.bump f).pending = s.pending := rfl
@[simp] theorem State.bump_tt (s : State) (f : Field) : (s.bump f).tt = s.tt := rfl
@[simp] theorem State.bump_pins (s : State) (f : Field) : (s.bump f).pins = s.pins := rfl
@[simp] theorem State.bump_dev (s : State) (f : Field) : (s.bump f).dev = s.dev := rfl
@[simp] theorem State.bump_pwr (s : State) (f : Field) : (s.bump f).pwr = s.pwr := rfl
@[simp] theorem State.bump_img (s : State) (f : Field) : (s.bump f).img = s.img := rfl
@[simp] theorem State.bump_checks (s : State) (f : Field) : (s.bump f).checks = s.checks := rfl
@[simp] theorem State.bump_flt (s : State) (f : Field) : (s.bump f).flt = s.flt := rfl
@[simp] theorem State.bump_icu (s : State) (f : Field) : (s.bump f).icu = s.icu := rfl
@[simp] theorem State.bump_pf (s : State) (f : Field) : (s.bump f).pf = s.pf := rfl
@[simp] theorem State.bump_vf (s : State) (f : Field) : (s.bump f).vf = s.vf := rfl
@[simp] theorem State.bump_fns (s : State) (f : Field) : (s.bump f).fns = s.fns := rfl
@[simp] theorem State.bump_msix (s : State) (f : Field) : (s.bump f).msix = s.msix := rfl
@[simp] theorem State.bump_hep (s : State) (f : Field) : (s.bump f).hep = s.hep := rfl
@[simp] theorem State.bump_wxl (s : State) (f : Field) : (s.bump f).wxl = s.wxl := rfl
@[simp] theorem State.bump_xt (s : State) (f : Field) : (s.bump f).xt = s.xt := rfl
@[simp] theorem State.bump_qen (s : State) (f : Field) : (s.bump f).qen = s.qen := rfl
@[simp] theorem State.bump_ctx (s : State) (f : Field) : (s.bump f).ctx = s.ctx := rfl
@[simp] theorem State.bump_qaux (s : State) (f : Field) : (s.bump f).qaux = s.qaux := rfl
@[simp] theorem State.bump_spl (s : State) (f : Field) : (s.bump f).spl = s.spl := rfl
@[simp] theorem State.bump_swc (s : State) (f : Field) : (s.bump f).swc = s.swc := rfl
@[simp] theorem State.bump_ports (s : State) (f : Field) : (s.bump f).ports = s.ports := rfl
@[simp] theorem State.bump_hbm (s : State) (f : Field) : (s.bump f).hbm = s.hbm := rfl
@[simp] theorem State.bump_mem (s : State) (f : Field) : (s.bump f).mem = s.mem := rfl
@[simp] theorem State.bump_gdc (s : State) (f : Field) : (s.bump f).gdc = s.gdc := rfl
@[simp] theorem State.bump_cores (s : State) (f : Field) : (s.bump f).cores = s.cores := rfl
@[simp] theorem State.bump_sram (s : State) (f : Field) : (s.bump f).sram = s.sram := rfl
@[simp] theorem State.bump_tcm (s : State) (f : Field) : (s.bump f).tcm = s.tcm := rfl
@[simp] theorem State.bump_prl (s : State) (f : Field) : (s.bump f).prl = s.prl := rfl
@[simp] theorem State.bump_out (s : State) (f : Field) : (s.bump f).out = s.out := rfl
@[simp] theorem State.bump_free (s : State) (f : Field) : (s.bump f).free = s.free := rfl

@[simp] theorem State.bumpBy_pending (s : State) (f : Field) (n : Nat) : (s.bumpBy f n).pending = s.pending := rfl
@[simp] theorem State.bumpBy_tt (s : State) (f : Field) (n : Nat) : (s.bumpBy f n).tt = s.tt := rfl
@[simp] theorem State.bumpBy_pins (s : State) (f : Field) (n : Nat) : (s.bumpBy f n).pins = s.pins := rfl
@[simp] theorem State.bumpBy_dev (s : State) (f : Field) (n : Nat) : (s.bumpBy f n).dev = s.dev := rfl
@[simp] theorem State.bumpBy_pwr (s : State) (f : Field) (n : Nat) : (s.bumpBy f n).pwr = s.pwr := rfl
@[simp] theorem State.bumpBy_img (s : State) (f : Field) (n : Nat) : (s.bumpBy f n).img = s.img := rfl
@[simp] theorem State.bumpBy_checks (s : State) (f : Field) (n : Nat) : (s.bumpBy f n).checks = s.checks := rfl
@[simp] theorem State.bumpBy_flt (s : State) (f : Field) (n : Nat) : (s.bumpBy f n).flt = s.flt := rfl
@[simp] theorem State.bumpBy_icu (s : State) (f : Field) (n : Nat) : (s.bumpBy f n).icu = s.icu := rfl
@[simp] theorem State.bumpBy_pf (s : State) (f : Field) (n : Nat) : (s.bumpBy f n).pf = s.pf := rfl
@[simp] theorem State.bumpBy_vf (s : State) (f : Field) (n : Nat) : (s.bumpBy f n).vf = s.vf := rfl
@[simp] theorem State.bumpBy_fns (s : State) (f : Field) (n : Nat) : (s.bumpBy f n).fns = s.fns := rfl
@[simp] theorem State.bumpBy_msix (s : State) (f : Field) (n : Nat) : (s.bumpBy f n).msix = s.msix := rfl
@[simp] theorem State.bumpBy_hep (s : State) (f : Field) (n : Nat) : (s.bumpBy f n).hep = s.hep := rfl
@[simp] theorem State.bumpBy_wxl (s : State) (f : Field) (n : Nat) : (s.bumpBy f n).wxl = s.wxl := rfl
@[simp] theorem State.bumpBy_xt (s : State) (f : Field) (n : Nat) : (s.bumpBy f n).xt = s.xt := rfl
@[simp] theorem State.bumpBy_qen (s : State) (f : Field) (n : Nat) : (s.bumpBy f n).qen = s.qen := rfl
@[simp] theorem State.bumpBy_ctx (s : State) (f : Field) (n : Nat) : (s.bumpBy f n).ctx = s.ctx := rfl
@[simp] theorem State.bumpBy_qaux (s : State) (f : Field) (n : Nat) : (s.bumpBy f n).qaux = s.qaux := rfl
@[simp] theorem State.bumpBy_spl (s : State) (f : Field) (n : Nat) : (s.bumpBy f n).spl = s.spl := rfl
@[simp] theorem State.bumpBy_swc (s : State) (f : Field) (n : Nat) : (s.bumpBy f n).swc = s.swc := rfl
@[simp] theorem State.bumpBy_ports (s : State) (f : Field) (n : Nat) : (s.bumpBy f n).ports = s.ports := rfl
@[simp] theorem State.bumpBy_hbm (s : State) (f : Field) (n : Nat) : (s.bumpBy f n).hbm = s.hbm := rfl
@[simp] theorem State.bumpBy_mem (s : State) (f : Field) (n : Nat) : (s.bumpBy f n).mem = s.mem := rfl
@[simp] theorem State.bumpBy_gdc (s : State) (f : Field) (n : Nat) : (s.bumpBy f n).gdc = s.gdc := rfl
@[simp] theorem State.bumpBy_cores (s : State) (f : Field) (n : Nat) : (s.bumpBy f n).cores = s.cores := rfl
@[simp] theorem State.bumpBy_sram (s : State) (f : Field) (n : Nat) : (s.bumpBy f n).sram = s.sram := rfl
@[simp] theorem State.bumpBy_tcm (s : State) (f : Field) (n : Nat) : (s.bumpBy f n).tcm = s.tcm := rfl
@[simp] theorem State.bumpBy_prl (s : State) (f : Field) (n : Nat) : (s.bumpBy f n).prl = s.prl := rfl
@[simp] theorem State.bumpBy_out (s : State) (f : Field) (n : Nat) : (s.bumpBy f n).out = s.out := rfl
@[simp] theorem State.bumpBy_free (s : State) (f : Field) (n : Nat) : (s.bumpBy f n).free = s.free := rfl

@[simp] theorem State.emit_pending (s : State) (o : Out) : (s.emit o).pending = s.pending := rfl
@[simp] theorem State.emit_regs (s : State) (o : Out) : (s.emit o).regs = s.regs := rfl
@[simp] theorem State.emit_tt (s : State) (o : Out) : (s.emit o).tt = s.tt := rfl
@[simp] theorem State.emit_pins (s : State) (o : Out) : (s.emit o).pins = s.pins := rfl
@[simp] theorem State.emit_dev (s : State) (o : Out) : (s.emit o).dev = s.dev := rfl
@[simp] theorem State.emit_pwr (s : State) (o : Out) : (s.emit o).pwr = s.pwr := rfl
@[simp] theorem State.emit_img (s : State) (o : Out) : (s.emit o).img = s.img := rfl
@[simp] theorem State.emit_checks (s : State) (o : Out) : (s.emit o).checks = s.checks := rfl
@[simp] theorem State.emit_flt (s : State) (o : Out) : (s.emit o).flt = s.flt := rfl
@[simp] theorem State.emit_icu (s : State) (o : Out) : (s.emit o).icu = s.icu := rfl
@[simp] theorem State.emit_pf (s : State) (o : Out) : (s.emit o).pf = s.pf := rfl
@[simp] theorem State.emit_vf (s : State) (o : Out) : (s.emit o).vf = s.vf := rfl
@[simp] theorem State.emit_fns (s : State) (o : Out) : (s.emit o).fns = s.fns := rfl
@[simp] theorem State.emit_msix (s : State) (o : Out) : (s.emit o).msix = s.msix := rfl
@[simp] theorem State.emit_hep (s : State) (o : Out) : (s.emit o).hep = s.hep := rfl
@[simp] theorem State.emit_wxl (s : State) (o : Out) : (s.emit o).wxl = s.wxl := rfl
@[simp] theorem State.emit_xt (s : State) (o : Out) : (s.emit o).xt = s.xt := rfl
@[simp] theorem State.emit_qen (s : State) (o : Out) : (s.emit o).qen = s.qen := rfl
@[simp] theorem State.emit_ctx (s : State) (o : Out) : (s.emit o).ctx = s.ctx := rfl
@[simp] theorem State.emit_qaux (s : State) (o : Out) : (s.emit o).qaux = s.qaux := rfl
@[simp] theorem State.emit_spl (s : State) (o : Out) : (s.emit o).spl = s.spl := rfl
@[simp] theorem State.emit_swc (s : State) (o : Out) : (s.emit o).swc = s.swc := rfl
@[simp] theorem State.emit_ports (s : State) (o : Out) : (s.emit o).ports = s.ports := rfl
@[simp] theorem State.emit_hbm (s : State) (o : Out) : (s.emit o).hbm = s.hbm := rfl
@[simp] theorem State.emit_mem (s : State) (o : Out) : (s.emit o).mem = s.mem := rfl
@[simp] theorem State.emit_gdc (s : State) (o : Out) : (s.emit o).gdc = s.gdc := rfl
@[simp] theorem State.emit_cores (s : State) (o : Out) : (s.emit o).cores = s.cores := rfl
@[simp] theorem State.emit_sram (s : State) (o : Out) : (s.emit o).sram = s.sram := rfl
@[simp] theorem State.emit_tcm (s : State) (o : Out) : (s.emit o).tcm = s.tcm := rfl
@[simp] theorem State.emit_prl (s : State) (o : Out) : (s.emit o).prl = s.prl := rfl
@[simp] theorem State.emit_free (s : State) (o : Out) : (s.emit o).free = s.free := rfl

@[simp] theorem State.useFree_pending (s : State) : (s.useFree).pending = s.pending := rfl
@[simp] theorem State.useFree_regs (s : State) : (s.useFree).regs = s.regs := rfl
@[simp] theorem State.useFree_tt (s : State) : (s.useFree).tt = s.tt := rfl
@[simp] theorem State.useFree_pins (s : State) : (s.useFree).pins = s.pins := rfl
@[simp] theorem State.useFree_dev (s : State) : (s.useFree).dev = s.dev := rfl
@[simp] theorem State.useFree_pwr (s : State) : (s.useFree).pwr = s.pwr := rfl
@[simp] theorem State.useFree_img (s : State) : (s.useFree).img = s.img := rfl
@[simp] theorem State.useFree_checks (s : State) : (s.useFree).checks = s.checks := rfl
@[simp] theorem State.useFree_flt (s : State) : (s.useFree).flt = s.flt := rfl
@[simp] theorem State.useFree_icu (s : State) : (s.useFree).icu = s.icu := rfl
@[simp] theorem State.useFree_pf (s : State) : (s.useFree).pf = s.pf := rfl
@[simp] theorem State.useFree_vf (s : State) : (s.useFree).vf = s.vf := rfl
@[simp] theorem State.useFree_fns (s : State) : (s.useFree).fns = s.fns := rfl
@[simp] theorem State.useFree_msix (s : State) : (s.useFree).msix = s.msix := rfl
@[simp] theorem State.useFree_hep (s : State) : (s.useFree).hep = s.hep := rfl
@[simp] theorem State.useFree_wxl (s : State) : (s.useFree).wxl = s.wxl := rfl
@[simp] theorem State.useFree_xt (s : State) : (s.useFree).xt = s.xt := rfl
@[simp] theorem State.useFree_qen (s : State) : (s.useFree).qen = s.qen := rfl
@[simp] theorem State.useFree_ctx (s : State) : (s.useFree).ctx = s.ctx := rfl
@[simp] theorem State.useFree_qaux (s : State) : (s.useFree).qaux = s.qaux := rfl
@[simp] theorem State.useFree_spl (s : State) : (s.useFree).spl = s.spl := rfl
@[simp] theorem State.useFree_swc (s : State) : (s.useFree).swc = s.swc := rfl
@[simp] theorem State.useFree_ports (s : State) : (s.useFree).ports = s.ports := rfl
@[simp] theorem State.useFree_hbm (s : State) : (s.useFree).hbm = s.hbm := rfl
@[simp] theorem State.useFree_mem (s : State) : (s.useFree).mem = s.mem := rfl
@[simp] theorem State.useFree_gdc (s : State) : (s.useFree).gdc = s.gdc := rfl
@[simp] theorem State.useFree_cores (s : State) : (s.useFree).cores = s.cores := rfl
@[simp] theorem State.useFree_sram (s : State) : (s.useFree).sram = s.sram := rfl
@[simp] theorem State.useFree_tcm (s : State) : (s.useFree).tcm = s.tcm := rfl
@[simp] theorem State.useFree_prl (s : State) : (s.useFree).prl = s.prl := rfl
@[simp] theorem State.useFree_out (s : State) : (s.useFree).out = s.out := rfl

@[simp] theorem State.useFreeBytes_pending (s : State) (n : Nat) : (s.useFreeBytes n).pending = s.pending := rfl
@[simp] theorem State.useFreeBytes_regs (s : State) (n : Nat) : (s.useFreeBytes n).regs = s.regs := rfl
@[simp] theorem State.useFreeBytes_tt (s : State) (n : Nat) : (s.useFreeBytes n).tt = s.tt := rfl
@[simp] theorem State.useFreeBytes_pins (s : State) (n : Nat) : (s.useFreeBytes n).pins = s.pins := rfl
@[simp] theorem State.useFreeBytes_dev (s : State) (n : Nat) : (s.useFreeBytes n).dev = s.dev := rfl
@[simp] theorem State.useFreeBytes_pwr (s : State) (n : Nat) : (s.useFreeBytes n).pwr = s.pwr := rfl
@[simp] theorem State.useFreeBytes_img (s : State) (n : Nat) : (s.useFreeBytes n).img = s.img := rfl
@[simp] theorem State.useFreeBytes_checks (s : State) (n : Nat) : (s.useFreeBytes n).checks = s.checks := rfl
@[simp] theorem State.useFreeBytes_flt (s : State) (n : Nat) : (s.useFreeBytes n).flt = s.flt := rfl
@[simp] theorem State.useFreeBytes_icu (s : State) (n : Nat) : (s.useFreeBytes n).icu = s.icu := rfl
@[simp] theorem State.useFreeBytes_pf (s : State) (n : Nat) : (s.useFreeBytes n).pf = s.pf := rfl
@[simp] theorem State.useFreeBytes_vf (s : State) (n : Nat) : (s.useFreeBytes n).vf = s.vf := rfl
@[simp] theorem State.useFreeBytes_fns (s : State) (n : Nat) : (s.useFreeBytes n).fns = s.fns := rfl
@[simp] theorem State.useFreeBytes_msix (s : State) (n : Nat) : (s.useFreeBytes n).msix = s.msix := rfl
@[simp] theorem State.useFreeBytes_hep (s : State) (n : Nat) : (s.useFreeBytes n).hep = s.hep := rfl
@[simp] theorem State.useFreeBytes_wxl (s : State) (n : Nat) : (s.useFreeBytes n).wxl = s.wxl := rfl
@[simp] theorem State.useFreeBytes_xt (s : State) (n : Nat) : (s.useFreeBytes n).xt = s.xt := rfl
@[simp] theorem State.useFreeBytes_qen (s : State) (n : Nat) : (s.useFreeBytes n).qen = s.qen := rfl
@[simp] theorem State.useFreeBytes_ctx (s : State) (n : Nat) : (s.useFreeBytes n).ctx = s.ctx := rfl
@[simp] theorem State.useFreeBytes_qaux (s : State) (n : Nat) : (s.useFreeBytes n).qaux = s.qaux := rfl
@[simp] theorem State.useFreeBytes_spl (s : State) (n : Nat) : (s.useFreeBytes n).spl = s.spl := rfl
@[simp] theorem State.useFreeBytes_swc (s : State) (n : Nat) : (s.useFreeBytes n).swc = s.swc := rfl
@[simp] theorem State.useFreeBytes_ports (s : State) (n : Nat) : (s.useFreeBytes n).ports = s.ports := rfl
@[simp] theorem State.useFreeBytes_hbm (s : State) (n : Nat) : (s.useFreeBytes n).hbm = s.hbm := rfl
@[simp] theorem State.useFreeBytes_mem (s : State) (n : Nat) : (s.useFreeBytes n).mem = s.mem := rfl
@[simp] theorem State.useFreeBytes_gdc (s : State) (n : Nat) : (s.useFreeBytes n).gdc = s.gdc := rfl
@[simp] theorem State.useFreeBytes_cores (s : State) (n : Nat) : (s.useFreeBytes n).cores = s.cores := rfl
@[simp] theorem State.useFreeBytes_sram (s : State) (n : Nat) : (s.useFreeBytes n).sram = s.sram := rfl
@[simp] theorem State.useFreeBytes_tcm (s : State) (n : Nat) : (s.useFreeBytes n).tcm = s.tcm := rfl
@[simp] theorem State.useFreeBytes_prl (s : State) (n : Nat) : (s.useFreeBytes n).prl = s.prl := rfl
@[simp] theorem State.useFreeBytes_out (s : State) (n : Nat) : (s.useFreeBytes n).out = s.out := rfl

@[simp] theorem State.setFn_pending (s : State) (f : Nat) (x : Fn) : (s.setFn f x).pending = s.pending := rfl
@[simp] theorem State.setFn_regs (s : State) (f : Nat) (x : Fn) : (s.setFn f x).regs = s.regs := rfl
@[simp] theorem State.setFn_tt (s : State) (f : Nat) (x : Fn) : (s.setFn f x).tt = s.tt := rfl
@[simp] theorem State.setFn_pins (s : State) (f : Nat) (x : Fn) : (s.setFn f x).pins = s.pins := rfl
@[simp] theorem State.setFn_dev (s : State) (f : Nat) (x : Fn) : (s.setFn f x).dev = s.dev := rfl
@[simp] theorem State.setFn_pwr (s : State) (f : Nat) (x : Fn) : (s.setFn f x).pwr = s.pwr := rfl
@[simp] theorem State.setFn_img (s : State) (f : Nat) (x : Fn) : (s.setFn f x).img = s.img := rfl
@[simp] theorem State.setFn_checks (s : State) (f : Nat) (x : Fn) : (s.setFn f x).checks = s.checks := rfl
@[simp] theorem State.setFn_flt (s : State) (f : Nat) (x : Fn) : (s.setFn f x).flt = s.flt := rfl
@[simp] theorem State.setFn_icu (s : State) (f : Nat) (x : Fn) : (s.setFn f x).icu = s.icu := rfl
@[simp] theorem State.setFn_pf (s : State) (f : Nat) (x : Fn) : (s.setFn f x).pf = s.pf := rfl
@[simp] theorem State.setFn_vf (s : State) (f : Nat) (x : Fn) : (s.setFn f x).vf = s.vf := rfl
@[simp] theorem State.setFn_msix (s : State) (f : Nat) (x : Fn) : (s.setFn f x).msix = s.msix := rfl
@[simp] theorem State.setFn_hep (s : State) (f : Nat) (x : Fn) : (s.setFn f x).hep = s.hep := rfl
@[simp] theorem State.setFn_wxl (s : State) (f : Nat) (x : Fn) : (s.setFn f x).wxl = s.wxl := rfl
@[simp] theorem State.setFn_xt (s : State) (f : Nat) (x : Fn) : (s.setFn f x).xt = s.xt := rfl
@[simp] theorem State.setFn_qen (s : State) (f : Nat) (x : Fn) : (s.setFn f x).qen = s.qen := rfl
@[simp] theorem State.setFn_ctx (s : State) (f : Nat) (x : Fn) : (s.setFn f x).ctx = s.ctx := rfl
@[simp] theorem State.setFn_qaux (s : State) (f : Nat) (x : Fn) : (s.setFn f x).qaux = s.qaux := rfl
@[simp] theorem State.setFn_spl (s : State) (f : Nat) (x : Fn) : (s.setFn f x).spl = s.spl := rfl
@[simp] theorem State.setFn_swc (s : State) (f : Nat) (x : Fn) : (s.setFn f x).swc = s.swc := rfl
@[simp] theorem State.setFn_ports (s : State) (f : Nat) (x : Fn) : (s.setFn f x).ports = s.ports := rfl
@[simp] theorem State.setFn_hbm (s : State) (f : Nat) (x : Fn) : (s.setFn f x).hbm = s.hbm := rfl
@[simp] theorem State.setFn_mem (s : State) (f : Nat) (x : Fn) : (s.setFn f x).mem = s.mem := rfl
@[simp] theorem State.setFn_gdc (s : State) (f : Nat) (x : Fn) : (s.setFn f x).gdc = s.gdc := rfl
@[simp] theorem State.setFn_cores (s : State) (f : Nat) (x : Fn) : (s.setFn f x).cores = s.cores := rfl
@[simp] theorem State.setFn_sram (s : State) (f : Nat) (x : Fn) : (s.setFn f x).sram = s.sram := rfl
@[simp] theorem State.setFn_tcm (s : State) (f : Nat) (x : Fn) : (s.setFn f x).tcm = s.tcm := rfl
@[simp] theorem State.setFn_prl (s : State) (f : Nat) (x : Fn) : (s.setFn f x).prl = s.prl := rfl
@[simp] theorem State.setFn_out (s : State) (f : Nat) (x : Fn) : (s.setFn f x).out = s.out := rfl
@[simp] theorem State.setFn_free (s : State) (f : Nat) (x : Fn) : (s.setFn f x).free = s.free := rfl

@[simp] theorem State.setCore_pending (s : State) (c : Nat) (x : Core) : (s.setCore c x).pending = s.pending := rfl
@[simp] theorem State.setCore_regs (s : State) (c : Nat) (x : Core) : (s.setCore c x).regs = s.regs := rfl
@[simp] theorem State.setCore_tt (s : State) (c : Nat) (x : Core) : (s.setCore c x).tt = s.tt := rfl
@[simp] theorem State.setCore_pins (s : State) (c : Nat) (x : Core) : (s.setCore c x).pins = s.pins := rfl
@[simp] theorem State.setCore_dev (s : State) (c : Nat) (x : Core) : (s.setCore c x).dev = s.dev := rfl
@[simp] theorem State.setCore_pwr (s : State) (c : Nat) (x : Core) : (s.setCore c x).pwr = s.pwr := rfl
@[simp] theorem State.setCore_img (s : State) (c : Nat) (x : Core) : (s.setCore c x).img = s.img := rfl
@[simp] theorem State.setCore_checks (s : State) (c : Nat) (x : Core) : (s.setCore c x).checks = s.checks := rfl
@[simp] theorem State.setCore_flt (s : State) (c : Nat) (x : Core) : (s.setCore c x).flt = s.flt := rfl
@[simp] theorem State.setCore_icu (s : State) (c : Nat) (x : Core) : (s.setCore c x).icu = s.icu := rfl
@[simp] theorem State.setCore_pf (s : State) (c : Nat) (x : Core) : (s.setCore c x).pf = s.pf := rfl
@[simp] theorem State.setCore_vf (s : State) (c : Nat) (x : Core) : (s.setCore c x).vf = s.vf := rfl
@[simp] theorem State.setCore_fns (s : State) (c : Nat) (x : Core) : (s.setCore c x).fns = s.fns := rfl
@[simp] theorem State.setCore_msix (s : State) (c : Nat) (x : Core) : (s.setCore c x).msix = s.msix := rfl
@[simp] theorem State.setCore_hep (s : State) (c : Nat) (x : Core) : (s.setCore c x).hep = s.hep := rfl
@[simp] theorem State.setCore_wxl (s : State) (c : Nat) (x : Core) : (s.setCore c x).wxl = s.wxl := rfl
@[simp] theorem State.setCore_xt (s : State) (c : Nat) (x : Core) : (s.setCore c x).xt = s.xt := rfl
@[simp] theorem State.setCore_qen (s : State) (c : Nat) (x : Core) : (s.setCore c x).qen = s.qen := rfl
@[simp] theorem State.setCore_ctx (s : State) (c : Nat) (x : Core) : (s.setCore c x).ctx = s.ctx := rfl
@[simp] theorem State.setCore_qaux (s : State) (c : Nat) (x : Core) : (s.setCore c x).qaux = s.qaux := rfl
@[simp] theorem State.setCore_spl (s : State) (c : Nat) (x : Core) : (s.setCore c x).spl = s.spl := rfl
@[simp] theorem State.setCore_swc (s : State) (c : Nat) (x : Core) : (s.setCore c x).swc = s.swc := rfl
@[simp] theorem State.setCore_ports (s : State) (c : Nat) (x : Core) : (s.setCore c x).ports = s.ports := rfl
@[simp] theorem State.setCore_hbm (s : State) (c : Nat) (x : Core) : (s.setCore c x).hbm = s.hbm := rfl
@[simp] theorem State.setCore_mem (s : State) (c : Nat) (x : Core) : (s.setCore c x).mem = s.mem := rfl
@[simp] theorem State.setCore_gdc (s : State) (c : Nat) (x : Core) : (s.setCore c x).gdc = s.gdc := rfl
@[simp] theorem State.setCore_sram (s : State) (c : Nat) (x : Core) : (s.setCore c x).sram = s.sram := rfl
@[simp] theorem State.setCore_tcm (s : State) (c : Nat) (x : Core) : (s.setCore c x).tcm = s.tcm := rfl
@[simp] theorem State.setCore_prl (s : State) (c : Nat) (x : Core) : (s.setCore c x).prl = s.prl := rfl
@[simp] theorem State.setCore_out (s : State) (c : Nat) (x : Core) : (s.setCore c x).out = s.out := rfl
@[simp] theorem State.setCore_free (s : State) (c : Nat) (x : Core) : (s.setCore c x).free = s.free := rfl

@[simp] theorem State.setPort_pending (s : State) (p : Nat) (x : Port) : (s.setPort p x).pending = s.pending := rfl
@[simp] theorem State.setPort_regs (s : State) (p : Nat) (x : Port) : (s.setPort p x).regs = s.regs := rfl
@[simp] theorem State.setPort_tt (s : State) (p : Nat) (x : Port) : (s.setPort p x).tt = s.tt := rfl
@[simp] theorem State.setPort_pins (s : State) (p : Nat) (x : Port) : (s.setPort p x).pins = s.pins := rfl
@[simp] theorem State.setPort_dev (s : State) (p : Nat) (x : Port) : (s.setPort p x).dev = s.dev := rfl
@[simp] theorem State.setPort_pwr (s : State) (p : Nat) (x : Port) : (s.setPort p x).pwr = s.pwr := rfl
@[simp] theorem State.setPort_img (s : State) (p : Nat) (x : Port) : (s.setPort p x).img = s.img := rfl
@[simp] theorem State.setPort_checks (s : State) (p : Nat) (x : Port) : (s.setPort p x).checks = s.checks := rfl
@[simp] theorem State.setPort_flt (s : State) (p : Nat) (x : Port) : (s.setPort p x).flt = s.flt := rfl
@[simp] theorem State.setPort_icu (s : State) (p : Nat) (x : Port) : (s.setPort p x).icu = s.icu := rfl
@[simp] theorem State.setPort_pf (s : State) (p : Nat) (x : Port) : (s.setPort p x).pf = s.pf := rfl
@[simp] theorem State.setPort_vf (s : State) (p : Nat) (x : Port) : (s.setPort p x).vf = s.vf := rfl
@[simp] theorem State.setPort_fns (s : State) (p : Nat) (x : Port) : (s.setPort p x).fns = s.fns := rfl
@[simp] theorem State.setPort_msix (s : State) (p : Nat) (x : Port) : (s.setPort p x).msix = s.msix := rfl
@[simp] theorem State.setPort_hep (s : State) (p : Nat) (x : Port) : (s.setPort p x).hep = s.hep := rfl
@[simp] theorem State.setPort_wxl (s : State) (p : Nat) (x : Port) : (s.setPort p x).wxl = s.wxl := rfl
@[simp] theorem State.setPort_xt (s : State) (p : Nat) (x : Port) : (s.setPort p x).xt = s.xt := rfl
@[simp] theorem State.setPort_qen (s : State) (p : Nat) (x : Port) : (s.setPort p x).qen = s.qen := rfl
@[simp] theorem State.setPort_ctx (s : State) (p : Nat) (x : Port) : (s.setPort p x).ctx = s.ctx := rfl
@[simp] theorem State.setPort_qaux (s : State) (p : Nat) (x : Port) : (s.setPort p x).qaux = s.qaux := rfl
@[simp] theorem State.setPort_spl (s : State) (p : Nat) (x : Port) : (s.setPort p x).spl = s.spl := rfl
@[simp] theorem State.setPort_swc (s : State) (p : Nat) (x : Port) : (s.setPort p x).swc = s.swc := rfl
@[simp] theorem State.setPort_hbm (s : State) (p : Nat) (x : Port) : (s.setPort p x).hbm = s.hbm := rfl
@[simp] theorem State.setPort_mem (s : State) (p : Nat) (x : Port) : (s.setPort p x).mem = s.mem := rfl
@[simp] theorem State.setPort_gdc (s : State) (p : Nat) (x : Port) : (s.setPort p x).gdc = s.gdc := rfl
@[simp] theorem State.setPort_cores (s : State) (p : Nat) (x : Port) : (s.setPort p x).cores = s.cores := rfl
@[simp] theorem State.setPort_sram (s : State) (p : Nat) (x : Port) : (s.setPort p x).sram = s.sram := rfl
@[simp] theorem State.setPort_tcm (s : State) (p : Nat) (x : Port) : (s.setPort p x).tcm = s.tcm := rfl
@[simp] theorem State.setPort_prl (s : State) (p : Nat) (x : Port) : (s.setPort p x).prl = s.prl := rfl
@[simp] theorem State.setPort_out (s : State) (p : Nat) (x : Port) : (s.setPort p x).out = s.out := rfl
@[simp] theorem State.setPort_free (s : State) (p : Nat) (x : Port) : (s.setPort p x).free = s.free := rfl

@[simp] theorem State.setCtxW_pending (s : State) (q j : Nat) (v : Word) : (s.setCtxW q j v).pending = s.pending := rfl
@[simp] theorem State.setCtxW_regs (s : State) (q j : Nat) (v : Word) : (s.setCtxW q j v).regs = s.regs := rfl
@[simp] theorem State.setCtxW_tt (s : State) (q j : Nat) (v : Word) : (s.setCtxW q j v).tt = s.tt := rfl
@[simp] theorem State.setCtxW_pins (s : State) (q j : Nat) (v : Word) : (s.setCtxW q j v).pins = s.pins := rfl
@[simp] theorem State.setCtxW_dev (s : State) (q j : Nat) (v : Word) : (s.setCtxW q j v).dev = s.dev := rfl
@[simp] theorem State.setCtxW_pwr (s : State) (q j : Nat) (v : Word) : (s.setCtxW q j v).pwr = s.pwr := rfl
@[simp] theorem State.setCtxW_img (s : State) (q j : Nat) (v : Word) : (s.setCtxW q j v).img = s.img := rfl
@[simp] theorem State.setCtxW_checks (s : State) (q j : Nat) (v : Word) : (s.setCtxW q j v).checks = s.checks := rfl
@[simp] theorem State.setCtxW_flt (s : State) (q j : Nat) (v : Word) : (s.setCtxW q j v).flt = s.flt := rfl
@[simp] theorem State.setCtxW_icu (s : State) (q j : Nat) (v : Word) : (s.setCtxW q j v).icu = s.icu := rfl
@[simp] theorem State.setCtxW_pf (s : State) (q j : Nat) (v : Word) : (s.setCtxW q j v).pf = s.pf := rfl
@[simp] theorem State.setCtxW_vf (s : State) (q j : Nat) (v : Word) : (s.setCtxW q j v).vf = s.vf := rfl
@[simp] theorem State.setCtxW_fns (s : State) (q j : Nat) (v : Word) : (s.setCtxW q j v).fns = s.fns := rfl
@[simp] theorem State.setCtxW_msix (s : State) (q j : Nat) (v : Word) : (s.setCtxW q j v).msix = s.msix := rfl
@[simp] theorem State.setCtxW_hep (s : State) (q j : Nat) (v : Word) : (s.setCtxW q j v).hep = s.hep := rfl
@[simp] theorem State.setCtxW_wxl (s : State) (q j : Nat) (v : Word) : (s.setCtxW q j v).wxl = s.wxl := rfl
@[simp] theorem State.setCtxW_xt (s : State) (q j : Nat) (v : Word) : (s.setCtxW q j v).xt = s.xt := rfl
@[simp] theorem State.setCtxW_qen (s : State) (q j : Nat) (v : Word) : (s.setCtxW q j v).qen = s.qen := rfl
@[simp] theorem State.setCtxW_qaux (s : State) (q j : Nat) (v : Word) : (s.setCtxW q j v).qaux = s.qaux := rfl
@[simp] theorem State.setCtxW_spl (s : State) (q j : Nat) (v : Word) : (s.setCtxW q j v).spl = s.spl := rfl
@[simp] theorem State.setCtxW_swc (s : State) (q j : Nat) (v : Word) : (s.setCtxW q j v).swc = s.swc := rfl
@[simp] theorem State.setCtxW_ports (s : State) (q j : Nat) (v : Word) : (s.setCtxW q j v).ports = s.ports := rfl
@[simp] theorem State.setCtxW_hbm (s : State) (q j : Nat) (v : Word) : (s.setCtxW q j v).hbm = s.hbm := rfl
@[simp] theorem State.setCtxW_mem (s : State) (q j : Nat) (v : Word) : (s.setCtxW q j v).mem = s.mem := rfl
@[simp] theorem State.setCtxW_gdc (s : State) (q j : Nat) (v : Word) : (s.setCtxW q j v).gdc = s.gdc := rfl
@[simp] theorem State.setCtxW_cores (s : State) (q j : Nat) (v : Word) : (s.setCtxW q j v).cores = s.cores := rfl
@[simp] theorem State.setCtxW_sram (s : State) (q j : Nat) (v : Word) : (s.setCtxW q j v).sram = s.sram := rfl
@[simp] theorem State.setCtxW_tcm (s : State) (q j : Nat) (v : Word) : (s.setCtxW q j v).tcm = s.tcm := rfl
@[simp] theorem State.setCtxW_prl (s : State) (q j : Nat) (v : Word) : (s.setCtxW q j v).prl = s.prl := rfl
@[simp] theorem State.setCtxW_out (s : State) (q j : Nat) (v : Word) : (s.setCtxW q j v).out = s.out := rfl
@[simp] theorem State.setCtxW_free (s : State) (q j : Nat) (v : Word) : (s.setCtxW q j v).free = s.free := rfl

@[simp] theorem State.cput_pending (s : State) (q : Nat) (f : CtxF) (v : Nat) : (s.cput q f v).pending = s.pending := rfl
@[simp] theorem State.cput_regs (s : State) (q : Nat) (f : CtxF) (v : Nat) : (s.cput q f v).regs = s.regs := rfl
@[simp] theorem State.cput_tt (s : State) (q : Nat) (f : CtxF) (v : Nat) : (s.cput q f v).tt = s.tt := rfl
@[simp] theorem State.cput_pins (s : State) (q : Nat) (f : CtxF) (v : Nat) : (s.cput q f v).pins = s.pins := rfl
@[simp] theorem State.cput_dev (s : State) (q : Nat) (f : CtxF) (v : Nat) : (s.cput q f v).dev = s.dev := rfl
@[simp] theorem State.cput_pwr (s : State) (q : Nat) (f : CtxF) (v : Nat) : (s.cput q f v).pwr = s.pwr := rfl
@[simp] theorem State.cput_img (s : State) (q : Nat) (f : CtxF) (v : Nat) : (s.cput q f v).img = s.img := rfl
@[simp] theorem State.cput_checks (s : State) (q : Nat) (f : CtxF) (v : Nat) : (s.cput q f v).checks = s.checks := rfl
@[simp] theorem State.cput_flt (s : State) (q : Nat) (f : CtxF) (v : Nat) : (s.cput q f v).flt = s.flt := rfl
@[simp] theorem State.cput_icu (s : State) (q : Nat) (f : CtxF) (v : Nat) : (s.cput q f v).icu = s.icu := rfl
@[simp] theorem State.cput_pf (s : State) (q : Nat) (f : CtxF) (v : Nat) : (s.cput q f v).pf = s.pf := rfl
@[simp] theorem State.cput_vf (s : State) (q : Nat) (f : CtxF) (v : Nat) : (s.cput q f v).vf = s.vf := rfl
@[simp] theorem State.cput_fns (s : State) (q : Nat) (f : CtxF) (v : Nat) : (s.cput q f v).fns = s.fns := rfl
@[simp] theorem State.cput_msix (s : State) (q : Nat) (f : CtxF) (v : Nat) : (s.cput q f v).msix = s.msix := rfl
@[simp] theorem State.cput_hep (s : State) (q : Nat) (f : CtxF) (v : Nat) : (s.cput q f v).hep = s.hep := rfl
@[simp] theorem State.cput_wxl (s : State) (q : Nat) (f : CtxF) (v : Nat) : (s.cput q f v).wxl = s.wxl := rfl
@[simp] theorem State.cput_xt (s : State) (q : Nat) (f : CtxF) (v : Nat) : (s.cput q f v).xt = s.xt := rfl
@[simp] theorem State.cput_qen (s : State) (q : Nat) (f : CtxF) (v : Nat) : (s.cput q f v).qen = s.qen := rfl
@[simp] theorem State.cput_qaux (s : State) (q : Nat) (f : CtxF) (v : Nat) : (s.cput q f v).qaux = s.qaux := rfl
@[simp] theorem State.cput_spl (s : State) (q : Nat) (f : CtxF) (v : Nat) : (s.cput q f v).spl = s.spl := rfl
@[simp] theorem State.cput_swc (s : State) (q : Nat) (f : CtxF) (v : Nat) : (s.cput q f v).swc = s.swc := rfl
@[simp] theorem State.cput_ports (s : State) (q : Nat) (f : CtxF) (v : Nat) : (s.cput q f v).ports = s.ports := rfl
@[simp] theorem State.cput_hbm (s : State) (q : Nat) (f : CtxF) (v : Nat) : (s.cput q f v).hbm = s.hbm := rfl
@[simp] theorem State.cput_mem (s : State) (q : Nat) (f : CtxF) (v : Nat) : (s.cput q f v).mem = s.mem := rfl
@[simp] theorem State.cput_gdc (s : State) (q : Nat) (f : CtxF) (v : Nat) : (s.cput q f v).gdc = s.gdc := rfl
@[simp] theorem State.cput_cores (s : State) (q : Nat) (f : CtxF) (v : Nat) : (s.cput q f v).cores = s.cores := rfl
@[simp] theorem State.cput_sram (s : State) (q : Nat) (f : CtxF) (v : Nat) : (s.cput q f v).sram = s.sram := rfl
@[simp] theorem State.cput_tcm (s : State) (q : Nat) (f : CtxF) (v : Nat) : (s.cput q f v).tcm = s.tcm := rfl
@[simp] theorem State.cput_prl (s : State) (q : Nat) (f : CtxF) (v : Nat) : (s.cput q f v).prl = s.prl := rfl
@[simp] theorem State.cput_out (s : State) (q : Nat) (f : CtxF) (v : Nat) : (s.cput q f v).out = s.out := rfl
@[simp] theorem State.cput_free (s : State) (q : Nat) (f : CtxF) (v : Nat) : (s.cput q f v).free = s.free := rfl

@[simp] theorem State.setQa_pending (s : State) (q : Nat) (x : QAux) : (s.setQa q x).pending = s.pending := rfl
@[simp] theorem State.setQa_regs (s : State) (q : Nat) (x : QAux) : (s.setQa q x).regs = s.regs := rfl
@[simp] theorem State.setQa_tt (s : State) (q : Nat) (x : QAux) : (s.setQa q x).tt = s.tt := rfl
@[simp] theorem State.setQa_pins (s : State) (q : Nat) (x : QAux) : (s.setQa q x).pins = s.pins := rfl
@[simp] theorem State.setQa_dev (s : State) (q : Nat) (x : QAux) : (s.setQa q x).dev = s.dev := rfl
@[simp] theorem State.setQa_pwr (s : State) (q : Nat) (x : QAux) : (s.setQa q x).pwr = s.pwr := rfl
@[simp] theorem State.setQa_img (s : State) (q : Nat) (x : QAux) : (s.setQa q x).img = s.img := rfl
@[simp] theorem State.setQa_checks (s : State) (q : Nat) (x : QAux) : (s.setQa q x).checks = s.checks := rfl
@[simp] theorem State.setQa_flt (s : State) (q : Nat) (x : QAux) : (s.setQa q x).flt = s.flt := rfl
@[simp] theorem State.setQa_icu (s : State) (q : Nat) (x : QAux) : (s.setQa q x).icu = s.icu := rfl
@[simp] theorem State.setQa_pf (s : State) (q : Nat) (x : QAux) : (s.setQa q x).pf = s.pf := rfl
@[simp] theorem State.setQa_vf (s : State) (q : Nat) (x : QAux) : (s.setQa q x).vf = s.vf := rfl
@[simp] theorem State.setQa_fns (s : State) (q : Nat) (x : QAux) : (s.setQa q x).fns = s.fns := rfl
@[simp] theorem State.setQa_msix (s : State) (q : Nat) (x : QAux) : (s.setQa q x).msix = s.msix := rfl
@[simp] theorem State.setQa_hep (s : State) (q : Nat) (x : QAux) : (s.setQa q x).hep = s.hep := rfl
@[simp] theorem State.setQa_wxl (s : State) (q : Nat) (x : QAux) : (s.setQa q x).wxl = s.wxl := rfl
@[simp] theorem State.setQa_xt (s : State) (q : Nat) (x : QAux) : (s.setQa q x).xt = s.xt := rfl
@[simp] theorem State.setQa_qen (s : State) (q : Nat) (x : QAux) : (s.setQa q x).qen = s.qen := rfl
@[simp] theorem State.setQa_ctx (s : State) (q : Nat) (x : QAux) : (s.setQa q x).ctx = s.ctx := rfl
@[simp] theorem State.setQa_spl (s : State) (q : Nat) (x : QAux) : (s.setQa q x).spl = s.spl := rfl
@[simp] theorem State.setQa_swc (s : State) (q : Nat) (x : QAux) : (s.setQa q x).swc = s.swc := rfl
@[simp] theorem State.setQa_ports (s : State) (q : Nat) (x : QAux) : (s.setQa q x).ports = s.ports := rfl
@[simp] theorem State.setQa_hbm (s : State) (q : Nat) (x : QAux) : (s.setQa q x).hbm = s.hbm := rfl
@[simp] theorem State.setQa_mem (s : State) (q : Nat) (x : QAux) : (s.setQa q x).mem = s.mem := rfl
@[simp] theorem State.setQa_gdc (s : State) (q : Nat) (x : QAux) : (s.setQa q x).gdc = s.gdc := rfl
@[simp] theorem State.setQa_cores (s : State) (q : Nat) (x : QAux) : (s.setQa q x).cores = s.cores := rfl
@[simp] theorem State.setQa_sram (s : State) (q : Nat) (x : QAux) : (s.setQa q x).sram = s.sram := rfl
@[simp] theorem State.setQa_tcm (s : State) (q : Nat) (x : QAux) : (s.setQa q x).tcm = s.tcm := rfl
@[simp] theorem State.setQa_prl (s : State) (q : Nat) (x : QAux) : (s.setQa q x).prl = s.prl := rfl
@[simp] theorem State.setQa_out (s : State) (q : Nat) (x : QAux) : (s.setQa q x).out = s.out := rfl
@[simp] theorem State.setQa_free (s : State) (q : Nat) (x : QAux) : (s.setQa q x).free = s.free := rfl

@[simp] theorem State.setHbmByte_pending (s : State) (a : Nat) (b : Byte) : (s.setHbmByte a b).pending = s.pending := rfl
@[simp] theorem State.setHbmByte_regs (s : State) (a : Nat) (b : Byte) : (s.setHbmByte a b).regs = s.regs := rfl
@[simp] theorem State.setHbmByte_tt (s : State) (a : Nat) (b : Byte) : (s.setHbmByte a b).tt = s.tt := rfl
@[simp] theorem State.setHbmByte_pins (s : State) (a : Nat) (b : Byte) : (s.setHbmByte a b).pins = s.pins := rfl
@[simp] theorem State.setHbmByte_dev (s : State) (a : Nat) (b : Byte) : (s.setHbmByte a b).dev = s.dev := rfl
@[simp] theorem State.setHbmByte_pwr (s : State) (a : Nat) (b : Byte) : (s.setHbmByte a b).pwr = s.pwr := rfl
@[simp] theorem State.setHbmByte_img (s : State) (a : Nat) (b : Byte) : (s.setHbmByte a b).img = s.img := rfl
@[simp] theorem State.setHbmByte_checks (s : State) (a : Nat) (b : Byte) : (s.setHbmByte a b).checks = s.checks := rfl
@[simp] theorem State.setHbmByte_flt (s : State) (a : Nat) (b : Byte) : (s.setHbmByte a b).flt = s.flt := rfl
@[simp] theorem State.setHbmByte_icu (s : State) (a : Nat) (b : Byte) : (s.setHbmByte a b).icu = s.icu := rfl
@[simp] theorem State.setHbmByte_pf (s : State) (a : Nat) (b : Byte) : (s.setHbmByte a b).pf = s.pf := rfl
@[simp] theorem State.setHbmByte_vf (s : State) (a : Nat) (b : Byte) : (s.setHbmByte a b).vf = s.vf := rfl
@[simp] theorem State.setHbmByte_fns (s : State) (a : Nat) (b : Byte) : (s.setHbmByte a b).fns = s.fns := rfl
@[simp] theorem State.setHbmByte_msix (s : State) (a : Nat) (b : Byte) : (s.setHbmByte a b).msix = s.msix := rfl
@[simp] theorem State.setHbmByte_hep (s : State) (a : Nat) (b : Byte) : (s.setHbmByte a b).hep = s.hep := rfl
@[simp] theorem State.setHbmByte_wxl (s : State) (a : Nat) (b : Byte) : (s.setHbmByte a b).wxl = s.wxl := rfl
@[simp] theorem State.setHbmByte_xt (s : State) (a : Nat) (b : Byte) : (s.setHbmByte a b).xt = s.xt := rfl
@[simp] theorem State.setHbmByte_qen (s : State) (a : Nat) (b : Byte) : (s.setHbmByte a b).qen = s.qen := rfl
@[simp] theorem State.setHbmByte_ctx (s : State) (a : Nat) (b : Byte) : (s.setHbmByte a b).ctx = s.ctx := rfl
@[simp] theorem State.setHbmByte_qaux (s : State) (a : Nat) (b : Byte) : (s.setHbmByte a b).qaux = s.qaux := rfl
@[simp] theorem State.setHbmByte_spl (s : State) (a : Nat) (b : Byte) : (s.setHbmByte a b).spl = s.spl := rfl
@[simp] theorem State.setHbmByte_swc (s : State) (a : Nat) (b : Byte) : (s.setHbmByte a b).swc = s.swc := rfl
@[simp] theorem State.setHbmByte_ports (s : State) (a : Nat) (b : Byte) : (s.setHbmByte a b).ports = s.ports := rfl
@[simp] theorem State.setHbmByte_hbm (s : State) (a : Nat) (b : Byte) : (s.setHbmByte a b).hbm = s.hbm := rfl
@[simp] theorem State.setHbmByte_gdc (s : State) (a : Nat) (b : Byte) : (s.setHbmByte a b).gdc = s.gdc := rfl
@[simp] theorem State.setHbmByte_cores (s : State) (a : Nat) (b : Byte) : (s.setHbmByte a b).cores = s.cores := rfl
@[simp] theorem State.setHbmByte_sram (s : State) (a : Nat) (b : Byte) : (s.setHbmByte a b).sram = s.sram := rfl
@[simp] theorem State.setHbmByte_tcm (s : State) (a : Nat) (b : Byte) : (s.setHbmByte a b).tcm = s.tcm := rfl
@[simp] theorem State.setHbmByte_prl (s : State) (a : Nat) (b : Byte) : (s.setHbmByte a b).prl = s.prl := rfl
@[simp] theorem State.setHbmByte_out (s : State) (a : Nat) (b : Byte) : (s.setHbmByte a b).out = s.out := rfl
@[simp] theorem State.setHbmByte_free (s : State) (a : Nat) (b : Byte) : (s.setHbmByte a b).free = s.free := rfl

@[simp] theorem State.inject_pending (s : State) (f : Frame) : (s.inject f).pending = s.pending := rfl
@[simp] theorem State.inject_regs (s : State) (f : Frame) : (s.inject f).regs = s.regs := rfl
@[simp] theorem State.inject_tt (s : State) (f : Frame) : (s.inject f).tt = s.tt := rfl
@[simp] theorem State.inject_pins (s : State) (f : Frame) : (s.inject f).pins = s.pins := rfl
@[simp] theorem State.inject_dev (s : State) (f : Frame) : (s.inject f).dev = s.dev := rfl
@[simp] theorem State.inject_pwr (s : State) (f : Frame) : (s.inject f).pwr = s.pwr := rfl
@[simp] theorem State.inject_img (s : State) (f : Frame) : (s.inject f).img = s.img := rfl
@[simp] theorem State.inject_checks (s : State) (f : Frame) : (s.inject f).checks = s.checks := rfl
@[simp] theorem State.inject_flt (s : State) (f : Frame) : (s.inject f).flt = s.flt := rfl
@[simp] theorem State.inject_icu (s : State) (f : Frame) : (s.inject f).icu = s.icu := rfl
@[simp] theorem State.inject_pf (s : State) (f : Frame) : (s.inject f).pf = s.pf := rfl
@[simp] theorem State.inject_vf (s : State) (f : Frame) : (s.inject f).vf = s.vf := rfl
@[simp] theorem State.inject_fns (s : State) (f : Frame) : (s.inject f).fns = s.fns := rfl
@[simp] theorem State.inject_msix (s : State) (f : Frame) : (s.inject f).msix = s.msix := rfl
@[simp] theorem State.inject_hep (s : State) (f : Frame) : (s.inject f).hep = s.hep := rfl
@[simp] theorem State.inject_wxl (s : State) (f : Frame) : (s.inject f).wxl = s.wxl := rfl
@[simp] theorem State.inject_xt (s : State) (f : Frame) : (s.inject f).xt = s.xt := rfl
@[simp] theorem State.inject_qen (s : State) (f : Frame) : (s.inject f).qen = s.qen := rfl
@[simp] theorem State.inject_ctx (s : State) (f : Frame) : (s.inject f).ctx = s.ctx := rfl
@[simp] theorem State.inject_qaux (s : State) (f : Frame) : (s.inject f).qaux = s.qaux := rfl
@[simp] theorem State.inject_spl (s : State) (f : Frame) : (s.inject f).spl = s.spl := rfl
@[simp] theorem State.inject_ports (s : State) (f : Frame) : (s.inject f).ports = s.ports := rfl
@[simp] theorem State.inject_hbm (s : State) (f : Frame) : (s.inject f).hbm = s.hbm := rfl
@[simp] theorem State.inject_mem (s : State) (f : Frame) : (s.inject f).mem = s.mem := rfl
@[simp] theorem State.inject_gdc (s : State) (f : Frame) : (s.inject f).gdc = s.gdc := rfl
@[simp] theorem State.inject_cores (s : State) (f : Frame) : (s.inject f).cores = s.cores := rfl
@[simp] theorem State.inject_sram (s : State) (f : Frame) : (s.inject f).sram = s.sram := rfl
@[simp] theorem State.inject_tcm (s : State) (f : Frame) : (s.inject f).tcm = s.tcm := rfl
@[simp] theorem State.inject_prl (s : State) (f : Frame) : (s.inject f).prl = s.prl := rfl
@[simp] theorem State.inject_out (s : State) (f : Frame) : (s.inject f).out = s.out := rfl
@[simp] theorem State.inject_free (s : State) (f : Frame) : (s.inject f).free = s.free := rfl

/-! ### Registers -/

@[simp] theorem State.reg_setReg_same (s : State) (off : Nat) (v : Word) : (s.setReg off v).reg off = v :=
  KMap.get_set_same s.regs (resetOf off) off v

@[simp] theorem State.reg_setReg_other (s : State) {off o : Nat} (v : Word) (h : o ≠ off) :
    (s.setReg off v).reg o = s.reg o := KMap.get_set_other s.regs (resetOf off) (resetOf o) v h

theorem State.reg_put_same (s : State) (f : Field) (v : Nat) :
    (s.put f v).reg f.off = withField (s.reg f.off) f.lo f.w v := State.reg_setReg_same s f.off _

@[simp] theorem State.reg_put_other (s : State) {f : Field} {o : Nat} (v : Nat) (h : o ≠ f.off) :
    (s.put f v).reg o = s.reg o := State.reg_setReg_other s _ h

/-- A field reads what was written to it. -/
theorem State.get_put_same (s : State) {f : Field} (v : Nat) (h : f.lo + f.w ≤ 64) : (s.put f v).get f = v % 2 ^ f.w := by
  rw [State.get, State.reg_put_same, fieldOf_withField_same _ _ h]

/-- A write of a field leaves the fields of other registers alone. -/
theorem State.get_put_other (s : State) {f g : Field} (v : Nat) (h : g.off ≠ f.off) : (s.put f v).get g = s.get g := by
  rw [State.get, State.reg_put_other s v h, State.get]

/-- A write of a field leaves the other fields of its register alone. -/
theorem State.get_put_disjoint (s : State) {f g : Field} (v : Nat) (ho : g.off = f.off)
    (h : f.lo + f.w ≤ g.lo ∨ g.lo + g.w ≤ f.lo) : (s.put f v).get g = s.get g := by
  rw [State.get, ho, State.reg_put_same, fieldOf_withField_disjoint _ _ h, State.get, ho]

theorem State.is_iff (s : State) (f : Field) : s.is f = true ↔ s.get f ≠ 0 := by simp [State.is]

theorem State.get_lt (s : State) (f : Field) : s.get f < 2 ^ f.w := fieldOf_lt _ _ _

/-- What is not a register leaves every register alone. -/
theorem State.reg_congr {s t : State} (h : t.regs = s.regs) (o : Nat) : t.reg o = s.reg o := by
  rw [State.reg, State.reg, h]

theorem State.get_congr {s t : State} (h : t.regs = s.regs) (f : Field) : t.get f = s.get f := by
  rw [State.get, State.get, State.reg_congr h]

theorem State.is_congr {s t : State} (h : t.regs = s.regs) (f : Field) : t.is f = s.is f := by
  rw [State.is, State.is, State.get_congr h]

/-- A counter below its maximum counts; at the maximum it stays. -/
theorem State.get_bump (s : State) {f : Field} (h : f.lo + f.w ≤ 64) :
    (s.bump f).get f = min (s.get f + 1) (2 ^ f.w - 1) := by
  have h2 : 0 < 2 ^ f.w := Nat.two_pow_pos f.w
  have h1 : satAdd f.w (s.get f) 1 < 2 ^ f.w := by unfold satAdd; omega
  rw [State.bump, State.bumpBy, State.get_put_same s _ h, Nat.mod_eq_of_lt h1]
  rfl

/-! ### Records and memories -/

@[simp] theorem State.fnOf_setFn_same (s : State) (f : Nat) (x : Fn) : (s.setFn f x).fnOf f = x :=
  KMap.get_set_same s.fns {} f x

@[simp] theorem State.fnOf_setFn_other (s : State) {f g : Nat} (x : Fn) (h : g ≠ f) : (s.setFn f x).fnOf g = s.fnOf g :=
  KMap.get_set_other s.fns {} {} x h

@[simp] theorem State.coreOf_setCore_same (s : State) (c : Nat) (x : Core) : (s.setCore c x).coreOf c = x :=
  KMap.get_set_same s.cores {} c x

@[simp] theorem State.coreOf_setCore_other (s : State) {c d : Nat} (x : Core) (h : d ≠ c) :
    (s.setCore c x).coreOf d = s.coreOf d := KMap.get_set_other s.cores {} {} x h

@[simp] theorem State.port_setPort_same (s : State) (p : Nat) (x : Port) : (s.setPort p x).port p = x :=
  KMap.get_set_same s.ports {} p x

@[simp] theorem State.port_setPort_other (s : State) {p r : Nat} (x : Port) (h : r ≠ p) :
    (s.setPort p x).port r = s.port r := KMap.get_set_other s.ports {} {} x h

@[simp] theorem State.qa_setQa_same (s : State) (q : Nat) (x : QAux) : (s.setQa q x).qa q = x :=
  KMap.get_set_same s.qaux {} q x

@[simp] theorem State.qa_setQa_other (s : State) {q r : Nat} (x : QAux) (h : r ≠ q) : (s.setQa q x).qa r = s.qa r :=
  KMap.get_set_other s.qaux {} {} x h

@[simp] theorem State.ctxW_setCtxW_same (s : State) (q j : Nat) (v : Word) : (s.setCtxW q j v).ctxW q j = v :=
  KMap.get_set_same s.ctx 0 (16 * q + j) v

@[simp] theorem State.ctxW_setCtxW_other (s : State) {q j r i : Nat} (v : Word) (h : 16 * r + i ≠ 16 * q + j) :
    (s.setCtxW q j v).ctxW r i = s.ctxW r i := KMap.get_set_other s.ctx 0 0 v h

/-- A field of a context reads what was written to it. -/
theorem State.cget_cput_same (s : State) (q : Nat) {f : CtxF} (v : Nat) (h : f.lo + f.w ≤ 64) :
    (s.cput q f v).cget q f = v % 2 ^ f.w := by
  rw [State.cget, State.cput, State.ctxW_setCtxW_same, fieldOf_withField_same _ _ h]

/-- A write of a context field leaves the other fields of that context word alone. -/
theorem State.cget_cput_disjoint (s : State) (q : Nat) {f g : CtxF} (v : Nat) (hj : g.j = f.j)
    (h : f.lo + f.w ≤ g.lo ∨ g.lo + g.w ≤ f.lo) : (s.cput q f v).cget q g = s.cget q g := by
  rw [State.cget, State.cput, hj, State.ctxW_setCtxW_same, fieldOf_withField_disjoint _ _ h, State.cget, hj]

/-- A write of a context field leaves the other words and the other queues alone. -/
theorem State.cget_cput_other (s : State) {q r : Nat} {f g : CtxF} (v : Nat) (h : 16 * r + g.j ≠ 16 * q + f.j) :
    (s.cput q f v).cget r g = s.cget r g := by
  rw [State.cget, State.cput, State.ctxW_setCtxW_other s _ h, State.cget]

@[simp] theorem State.hbmByte_setHbmByte_same (s : State) (a : Nat) (b : Byte) : (s.setHbmByte a b).hbmByte a = b :=
  KMap.get_set_same s.mem 0 a b

@[simp] theorem State.hbmByte_setHbmByte_other (s : State) {a c : Nat} (b : Byte) (h : c ≠ a) :
    (s.setHbmByte a b).hbmByte c = s.hbmByte c := KMap.get_set_other s.mem 0 0 b h

/-- A write of bytes leaves every byte outside its range alone. -/
theorem State.hbmByte_hbmWrite_outside (s : State) (a : Nat) (l : List Byte) {c : Nat} (h : c < a ∨ a + l.length ≤ c) :
    (s.hbmWrite a l).hbmByte c = s.hbmByte c := by
  induction l generalizing s a with
  | nil => rfl
  | cons b r ih =>
    rw [State.hbmWrite, ih _ _ (by simp at h; omega), State.hbmByte_setHbmByte_other _ _ (by simp at h; omega)]

/-- A write of bytes is read back. -/
theorem State.hbmByte_hbmWrite_inside (s : State) (a : Nat) (l : List Byte) {i : Nat} (h : i < l.length) :
    (s.hbmWrite a l).hbmByte (a + i) = l[i] := by
  induction l generalizing s a i with
  | nil => cases h
  | cons b r ih =>
    rw [State.hbmWrite]
    cases i with
    | zero =>
      rw [State.hbmByte_hbmWrite_outside _ _ _ (by omega)]
      exact State.hbmByte_setHbmByte_same s a b
    | succ i =>
      have := ih (s.setHbmByte a b) (a + 1) (i := i) (by simpa using h)
      rw [show a + (i + 1) = a + 1 + i by omega, this]
      rfl

end Sys2Proof.Machine
end

