-- ==== Sys2Proof/Laws/Events.lean ====
section
/-! SUPPORT. Which registers the shared events write: a fault event its block's fault page and the interrupt controller, an
interrupt event the interrupt controller, a change of mode likewise; every other register is left alone. -/
namespace Sys2Proof.Machine

open Sys2Proof

/-- A register outside the interrupt controller and the Tether, where interrupt events and their wake reports write. -/
abbrev offIrq (o : Nat) : Prop := o < 0xF00000 ∨ 0x1100000 ≤ o

/-- A register outside the fault page of block `b`. -/
abbrev offPage (b : Blk) (o : Nat) : Prop := o < b.base + 0xF000 ∨ b.base + 0x10000 ≤ o

theorem State.reg_bump_other (s : State) {f : Field} {o : Nat} (h : o ≠ f.off) : (s.bump f).reg o = s.reg o :=
  State.reg_put_other s _ h

/-- A branch leaves a register alone if both its sides do. -/
theorem State.reg_ite {c : Prop} [Decidable c] {x y s : State} {o : Nat} (hx : c → x.reg o = s.reg o)
    (hy : ¬ c → y.reg o = s.reg o) : (if c then x else y).reg o = s.reg o := by
  split
  · exact hx ‹_›
  · exact hy ‹_›

theorem State.reg_foldl {α : Type} {f : State → α → State} {l : List α} {s : State} {o : Nat}
    (hf : ∀ a ∈ l, ∀ t, (f t a).reg o = t.reg o) : (l.foldl f s).reg o = s.reg o := by
  induction l generalizing s with
  | nil => rfl
  | cons a r ih =>
    rw [List.foldl_cons, ih (fun x hx => hf x (.tail _ hx)), hf a (.head _)]

theorem offIrq.ne_sts {o n : Nat} (h : offIrq o) (hn : n < 1024) : o ≠ 0xF20000 + 8 * n := by
  rcases h with h | h <;> omega

theorem icuOffer_reg {n o : Nat} {s : State} (hn : n < 1024) (h : offIrq o) : (icuOffer n s).reg o = s.reg o := by
  have hne := h.ne_sts hn
  unfold icuOffer
  refine State.reg_ite (fun _ => ?_) (fun _ => rfl)
  exact State.reg_ite (fun _ => State.reg_put_other s _ hne) (fun _ => State.reg_put_other s _ hne)

theorem icuWithdraw_reg {n o : Nat} {s : State} (hn : n < 1024) (h : offIrq o) : (icuWithdraw n s).reg o = s.reg o :=
  State.reg_put_other s _ (h.ne_sts hn)

theorem offIrq.ne_tth {o : Nat} (h : offIrq o) : o ≠ 0x1000018 := by
  rcases h with h | h <;> omega

theorem wakeNLow_reg {o : Nat} {s : State} : (wakeNLow s).reg o = s.reg o :=
  State.reg_ite (fun _ => rfl) (fun _ => rfl)

theorem icuWake_reg {n o : Nat} {s : State} (h : offIrq o) : (icuWake n s).reg o = s.reg o := by
  have hne := h.ne_tth
  unfold icuWake
  refine State.reg_ite (fun _ => ?_) (fun _ => rfl)
  exact State.reg_ite (fun _ => wakeNLow_reg.trans (State.reg_put_other s _ hne)) (fun _ => State.reg_put_other s _ hne)

theorem icuCount_reg {n o : Nat} {s : State} (hn : n < 1024) (h : offIrq o) : (icuCount n s).1.reg o = s.reg o := by
  unfold icuCount
  split
  · exact (icuOffer_reg hn h).trans ((icuWake_reg h).trans (State.reg_bump_other s (h.ne_sts hn)))
  · rfl

theorem icuInput_reg {n o : Nat} {lvl : Bool} {s : State} (hn : n < 1024) (h : offIrq o) :
    (icuInput n lvl s).1.reg o = s.reg o := by
  have hp := State.reg_put_other s (f := F.ICU_SRC_STS_LEVEL n) (b2n lvl) (h.ne_sts hn)
  unfold icuInput
  split
  · rfl
  · dsimp only
    split
    · exact (icuCount_reg hn h).trans hp
    · exact hp

/-- The fields of a fault page that events write: one of its registers, or an entry of source `id`. -/
structure pageField (b : Blk) (f : Field) : Prop where
  lo : b.base + 0xF000 ≤ f.off
  hi : f.off < b.base + 0x10000

theorem offPage.ne {b : Blk} {f : Field} {o : Nat} (h : offPage b o) (hf : pageField b f) : o ≠ f.off := by
  obtain ⟨h1, h2⟩ := hf
  rcases h with h | h <;> omega

theorem offPage.put {b : Blk} {f : Field} {o v : Nat} {s : State} (h : offPage b o) (hf : pageField b f) :
    (s.put f v).reg o = s.reg o := State.reg_put_other s _ (h.ne hf)

theorem pageField.total {b : Blk} {id : Nat} (hid : id < 64) : pageField b (F.FLT_SRC_CNT_TOTAL b.base id) := by
  constructor <;> simp only [F.FLT_SRC_CNT_TOTAL, R.FLT_SRC_CNT] <;> omega

theorem pageField.active {b : Blk} {id : Nat} (hid : id < 64) : pageField b (F.FLT_SRC_CNT_ACTIVE b.base id) := by
  constructor <;> simp only [F.FLT_SRC_CNT_ACTIVE, R.FLT_SRC_CNT] <;> omega

theorem pageField.level {b : Blk} {id : Nat} (hid : id < 64) : pageField b (F.FLT_SRC_CNT_LEVEL b.base id) := by
  constructor <;> simp only [F.FLT_SRC_CNT_LEVEL, R.FLT_SRC_CNT] <;> omega

theorem pageField.winCnt {b : Blk} {id : Nat} (hid : id < 64) : pageField b (F.FLT_SRC_CNT_WIN_CNT b.base id) := by
  constructor <;> simp only [F.FLT_SRC_CNT_WIN_CNT, R.FLT_SRC_CNT] <;> omega

theorem pageField.ackPend {b : Blk} {id : Nat} (hid : id < 64) : pageField b (F.FLT_SRC_CNT_ACK_PEND b.base id) := by
  constructor <;> simp only [F.FLT_SRC_CNT_ACK_PEND, R.FLT_SRC_CNT] <;> omega

theorem pageField.grace {b : Blk} {id : Nat} (hid : id < 64) : pageField b (F.FLT_SRC_CNT_GRACE b.base id) := by
  constructor <;> simp only [F.FLT_SRC_CNT_GRACE, R.FLT_SRC_CNT] <;> omega

theorem pageField.testing {b : Blk} {id : Nat} (hid : id < 64) : pageField b (F.FLT_SRC_CNT_TESTING b.base id) := by
  constructor <;> simp only [F.FLT_SRC_CNT_TESTING, R.FLT_SRC_CNT] <;> omega

theorem pageField.firstId {b : Blk} : pageField b (F.FLT_FIRST_ID b.base) := by
  constructor <;> simp only [F.FLT_FIRST_ID, R.FLT_FIRST] <;> omega

theorem pageField.firstLevel {b : Blk} : pageField b (F.FLT_FIRST_LEVEL b.base) := by
  constructor <;> simp only [F.FLT_FIRST_LEVEL, R.FLT_FIRST] <;> omega

theorem pageField.firstValid {b : Blk} : pageField b (F.FLT_FIRST_VALID b.base) := by
  constructor <;> simp only [F.FLT_FIRST_VALID, R.FLT_FIRST] <;> omega

theorem pageField.firstTime {b : Blk} : pageField b (F.FLT_FIRST_TIME_TICKS b.base) := by
  constructor <;> simp only [F.FLT_FIRST_TIME_TICKS, R.FLT_FIRST_TIME] <;> omega

theorem pageField.firstInfo {b : Blk} : pageField b (F.FLT_FIRST_INFO_INFO b.base) := by
  constructor <;> simp only [F.FLT_FIRST_INFO_INFO, R.FLT_FIRST_INFO] <;> omega

theorem pageField.ovf {b : Blk} : pageField b (F.FLT_OVF_OVF b.base) := by
  constructor <;> simp only [F.FLT_OVF_OVF, R.FLT_OVF] <;> omega

theorem pageField.ovfCount {b : Blk} : pageField b (F.FLT_OVF_COUNT b.base) := by
  constructor <;> simp only [F.FLT_OVF_COUNT, R.FLT_OVF] <;> omega

theorem pageField.busy {b : Blk} : pageField b (F.FLT_SELFTEST_BUSY b.base) := by
  constructor <;> simp only [F.FLT_SELFTEST_BUSY, R.FLT_SELFTEST] <;> omega

theorem pageField.recov {b : Blk} : pageField b (F.FLT_RECOV_COUNT b.base) := by
  constructor <;> simp only [F.FLT_RECOV_COUNT, R.FLT_RECOV] <;> omega

@[simp] theorem State.reg_setFlt (s : State) (b : Blk) (id : Nat) (x : FltSrc) (o : Nat) : (s.setFlt b id x).reg o = s.reg o := rfl

@[simp] theorem State.reg_emit (s : State) (x : Out) (o : Nat) : (s.emit x).reg o = s.reg o := rfl

theorem offPage.bump {b : Blk} {f : Field} {o : Nat} {s : State} (h : offPage b o) (hf : pageField b f) :
    (s.bump f).reg o = s.reg o := h.put hf

theorem startTest_reg {b : Blk} {id res o : Nat} {s : State} (hid : id < 64) (h : offPage b o) :
    (startTest b id res s).reg o = s.reg o := by
  unfold startTest
  refine State.reg_ite (fun _ => rfl) (fun _ => State.reg_ite (fun _ => State.reg_ite (fun _ => rfl) (fun _ => rfl)) (fun _ => ?_))
  rw [State.reg_setFlt, h.put .busy, h.put (.testing hid)]

theorem fltLatch_reg {b : Blk} {id info lvl o : Nat} {ev : Bool} {s : State} (h : offPage b o) :
    (fltLatch b id info lvl ev s).reg o = s.reg o := by
  unfold fltLatch
  refine State.reg_ite (fun _ => ?_) (fun _ => State.reg_ite (fun _ => ?_) (fun _ => rfl))
  · rw [State.reg_setReg_other _ _ (show o ≠ R.FLT_FIRST_INFO b.base from h.ne .firstInfo),
      State.reg_setReg_other _ _ (show o ≠ R.FLT_FIRST_TIME b.base from h.ne .firstTime), h.put .firstValid,
      h.put .firstLevel, h.put .firstId]
  · rw [h.bump .ovfCount, h.put .ovf]

theorem fltGrace_reg {b : Blk} {id lvl o : Nat} {s : State} (hid : id < 64) (h : offPage b o) :
    (fltGrace b id lvl s).reg o = s.reg o := by
  unfold fltGrace
  exact State.reg_ite (fun _ => State.reg_ite (fun _ => rfl) (fun _ => by rw [State.reg_setFlt, h.put (.grace hid)])) (fun _ => rfl)

theorem aerReport_reg {b : Blk} {id info lvl o : Nat} {s : State} : (aerReport b id info lvl s).reg o = s.reg o := by
  unfold aerReport
  exact State.reg_ite (fun _ => rfl) (fun _ => State.reg_foldl fun _ _ _ => State.reg_emit _ _ _)

theorem fltRise_reg {b : Blk} {id info lvl o : Nat} {s : State} (hid : id < 64) (h : offPage b o) :
    (fltRise b id info lvl s).reg o = s.reg o :=
  aerReport_reg.trans ((fltGrace_reg hid h).trans (State.reg_setFlt _ _ _ _ _))

/-- An event on a source writes only its block's fault page. -/
theorem faultCore_reg {b : Blk} {id info o : Nat} {s : State} (hid : id < 64) (h : offPage b o) :
    (faultCore b id info s).reg o = s.reg o := by
  unfold faultCore
  refine State.reg_ite (fun _ => h.bump (.total hid)) (fun _ => ?_)
  extract_lets lvl0 active n cnt0 w up lvl s1 x s2 s3 s4 s5
  have h1 : s1.reg o = s.reg o := by
    rw [h.put (.winCnt hid), h.put (.level hid), h.put (.active hid)]
  have h2 : s2.reg o = s.reg o := (State.reg_setFlt _ _ _ _ _).trans h1
  have h3 : s3.reg o = s.reg o := (State.reg_ite (fun _ => h.put (.ackPend hid)) (fun _ => rfl)).trans h2
  have h4 : s4.reg o = s.reg o := (State.reg_ite (fun _ => fltRise_reg hid h) (fun _ => rfl)).trans h3
  have h5 : s5.reg o = s.reg o := ((h.bump (.total hid)).trans (fltLatch_reg h)).trans h4
  exact (State.reg_ite (fun _ => startTest_reg hid h) (fun _ => rfl)).trans h5

theorem offIrq.offPage_icu {o : Nat} (h : offIrq o) : offPage .icu o := by
  rcases h with h | h
  · exact .inl (by simp only [Blk.base]; omega)
  · exact .inr (by simp only [Blk.base]; omega)

theorem Blk.bit_lt (b : Blk) (h : ∀ n, b = .lp n → n < 1000) : b.bit < 1024 := by
  cases b <;> simp [Blk.bit]
  have := h _ rfl
  omega

/-- The interrupt request of a page reaches only the interrupt controller and the Tether. -/
theorem irqSync_reg {n o : Nat} {b : Blk} {s : State} (hb : b.bit < 1024) (h : offIrq o) : (irqSync n b s).reg o = s.reg o := by
  induction n generalizing b s with
  | zero => rfl
  | succ n ih =>
    rw [irqSync]
    refine State.reg_ite (fun _ => ?_) (fun _ => icuInput_reg hb h)
    exact (ih (by simp [Blk.bit])).trans ((faultCore_reg (by omega) h.offPage_icu).trans (icuInput_reg hb h))

/-- A fault event writes its block's fault page, the interrupt controller and the Tether's wake status, and nothing else. -/
theorem faultEvent_reg {b : Blk} {id info o : Nat} {s : State} (hid : id < 64) (hb : b.bit < 1024) (hp : offPage b o) (h : offIrq o) :
    (faultEvent b id info s).reg o = s.reg o := (irqSync_reg hb h).trans (faultCore_reg hid hp)

theorem regWriteId_lt (b : Blk) : regWriteId b < 64 := by cases b <;> simp [regWriteId]

theorem notice_reg {b : Blk} {off o : Nat} {s : State} (hb : b.bit < 1024) (hp : offPage b o) (h : offIrq o) :
    (notice b off s).reg o = s.reg o := faultEvent_reg (regWriteId_lt b) hb hp h

theorem faultRaise_reg {b : Blk} {id info lvl o : Nat} {s : State} (hid : id < 64) (hb : b.bit < 1024) (hp : offPage b o) (h : offIrq o) :
    (faultRaise b id info lvl s).reg o = s.reg o := by
  unfold faultRaise
  refine State.reg_ite (fun _ => rfl) (fun _ => ?_)
  rw [irqSync_reg hb h, fltLatch_reg hp, fltRise_reg hid hp, hp.put (.ackPend hid), hp.put (.level hid), hp.put (.active hid)]

theorem icuEvent_reg {n o : Nat} {s : State} (hn : n < 1024) (h : offIrq o) : (icuEvent n s).reg o = s.reg o := by
  unfold icuEvent
  exact State.reg_ite (fun _ => (faultEvent_reg (by omega) (by simp [Blk.bit]) h.offPage_icu h).trans (icuCount_reg hn h))
    (fun _ => icuCount_reg hn h)

theorem icuLevel_reg {n o : Nat} {lvl : Bool} {s : State} (hn : n < 1024) (h : offIrq o) : (icuLevel n lvl s).reg o = s.reg o := by
  unfold icuLevel
  exact State.reg_ite (fun _ => (faultEvent_reg (by omega) (by simp [Blk.bit]) h.offPage_icu h).trans (icuInput_reg hn h))
    (fun _ => icuInput_reg hn h)

theorem icuOfferAll_reg {o : Nat} {s : State} (h : offIrq o) : (icuOfferAll s).reg o = s.reg o := by
  unfold icuOfferAll
  refine State.reg_foldl fun n hn t => ?_
  obtain ⟨e, _, he⟩ := List.mem_filterMap.1 hn
  have : n < 1024 := by
    split at he
    · rename_i hr
      simp only [Option.some.injEq] at he
      simp only [Bool.and_eq_true, decide_eq_true_eq] at hr
      omega
    · cases he
  exact icuOffer_reg this h

theorem setMode_reg {m : Mode} {n o : Nat} {s : State} (h : offIrq o) : (setMode m n s).reg o = s.reg o := by
  unfold setMode
  exact (icuOfferAll_reg h).trans (State.reg_ite (fun _ => rfl) (fun _ => icuEvent_reg (by omega) h))

end Sys2Proof.Machine
end

