-- ==== Sys2Proof/Laws/Regs.lean ====
section
/-! SUPPORT. Register fields as functions of the register map alone: every read and write of a field is brought to `rget` and
`rput` of `State.regs`, where simp compares fields by place. -/
namespace Sys2Proof.Machine

open Sys2Proof

/-- The value of a field in a register map. -/
def rget (m : KMap Word) (f : Field) : Nat := fieldOf (KMap.get m (resetOf f.off) f.off) f.lo f.w

/-- A register map with a field set. -/
def rput (m : KMap Word) (f : Field) (v : Nat) : KMap Word :=
  KMap.set m (resetOf f.off) f.off (withField (KMap.get m (resetOf f.off) f.off) f.lo f.w v)

/-- A register map with a register set. -/
def rset (m : KMap Word) (off : Nat) (v : Word) : KMap Word := KMap.set m (resetOf off) off v

@[simp] theorem State.get_eq (s : State) (f : Field) : s.get f = rget s.regs f := rfl
@[simp] theorem State.is_eq (s : State) (f : Field) : s.is f = (rget s.regs f != 0) := rfl
@[simp] theorem State.put_regs (s : State) (f : Field) (v : Nat) : (s.put f v).regs = rput s.regs f v := rfl
@[simp] theorem State.setReg_regs (s : State) (o : Nat) (v : Word) : (s.setReg o v).regs = rset s.regs o v := rfl
@[simp] theorem State.bump_regs (s : State) (f : Field) : (s.bump f).regs = rput s.regs f (satAdd f.w (rget s.regs f) 1) := rfl
@[simp] theorem State.bumpBy_regs (s : State) (f : Field) (n : Nat) :
    (s.bumpBy f n).regs = rput s.regs f (satAdd f.w (rget s.regs f) n) := rfl

theorem rget_lt (m : KMap Word) (f : Field) : rget m f < 2 ^ f.w := fieldOf_lt _ _ _

@[simp] theorem rget_rput_same (m : KMap Word) {f : Field} (v : Nat) (h : f.lo + f.w ≤ 64) : rget (rput m f v) f = v % 2 ^ f.w := by
  rw [rget, rput, KMap.get_set_same, fieldOf_withField_same _ _ h]

@[simp] theorem rget_rput_other (m : KMap Word) {f g : Field} (v : Nat) (h : g.off ≠ f.off) : rget (rput m f v) g = rget m g := by
  rw [rget, rput, KMap.get_set_other _ _ _ _ h, rget]

@[simp] theorem rget_rput_disjoint (m : KMap Word) {f g : Field} (v : Nat) (ho : g.off = f.off)
    (h : f.lo + f.w ≤ g.lo ∨ g.lo + g.w ≤ f.lo) : rget (rput m f v) g = rget m g := by
  rw [rget, rput, ho, KMap.get_set_same, fieldOf_withField_disjoint _ _ h, rget, ho]

/-- A counter that counts reads the saturated sum. -/
@[simp high] theorem rget_rput_sat (m : KMap Word) {f : Field} (a n : Nat) (h : f.lo + f.w ≤ 64) :
    rget (rput m f (satAdd f.w a n)) f = satAdd f.w a n := by
  have h2 : 0 < 2 ^ f.w := Nat.two_pow_pos f.w
  have h1 := satAdd_le f.w a n
  rw [rget_rput_same m _ h, Nat.mod_eq_of_lt (by omega)]

@[simp] theorem get_rput_other (m : KMap Word) {f : Field} {o : Nat} (d : Word) (v : Nat) (h : o ≠ f.off) :
    KMap.get (rput m f v) d o = KMap.get m d o := KMap.get_set_other _ _ _ _ h

theorem rget_rset_same (m : KMap Word) (f : Field) (v : Word) : rget (rset m f.off v) f = fieldOf v f.lo f.w := by
  rw [rget, rset, KMap.get_set_same]

@[simp] theorem rget_rset_other (m : KMap Word) {f : Field} {o : Nat} (v : Word) (h : f.off ≠ o) : rget (rset m o v) f = rget m f := by
  rw [rget, rset, KMap.get_set_other _ _ _ _ h, rget]

theorem rget_congr {s t : State} {f : Field} (h : t.reg f.off = s.reg f.off) : rget t.regs f = rget s.regs f := by
  have : KMap.get t.regs (resetOf f.off) f.off = KMap.get s.regs (resetOf f.off) f.off := h
  rw [rget, rget, this]

@[simp] theorem rget_faultEvent {b : Blk} {id info : Nat} {f : Field} {s : State} (hid : id < 64) (hb : b.bit < 1024)
    (hp : offPage b f.off) (h : offIrq f.off) : rget (faultEvent b id info s).regs f = rget s.regs f :=
  rget_congr (faultEvent_reg hid hb hp h)

@[simp] theorem rget_faultRaise {b : Blk} {id info lvl : Nat} {f : Field} {s : State} (hid : id < 64) (hb : b.bit < 1024)
    (hp : offPage b f.off) (h : offIrq f.off) : rget (faultRaise b id info lvl s).regs f = rget s.regs f :=
  rget_congr (faultRaise_reg hid hb hp h)

@[simp] theorem rget_notice {b : Blk} {off : Nat} {f : Field} {s : State} (hb : b.bit < 1024)
    (hp : offPage b f.off) (h : offIrq f.off) : rget (notice b off s).regs f = rget s.regs f :=
  rget_congr (notice_reg hb hp h)

@[simp] theorem rget_icuEvent {n : Nat} {f : Field} {s : State} (hn : n < 1024) (h : offIrq f.off) :
    rget (icuEvent n s).regs f = rget s.regs f := rget_congr (icuEvent_reg hn h)

@[simp] theorem rget_icuLevel {n : Nat} {lvl : Bool} {f : Field} {s : State} (hn : n < 1024) (h : offIrq f.off) :
    rget (icuLevel n lvl s).regs f = rget s.regs f := rget_congr (icuLevel_reg hn h)

@[simp] theorem rget_icuOfferAll {f : Field} {s : State} (h : offIrq f.off) :
    rget (icuOfferAll s).regs f = rget s.regs f := rget_congr (icuOfferAll_reg h)

@[simp] theorem rget_setMode {m : Mode} {n : Nat} {f : Field} {s : State} (h : offIrq f.off) :
    rget (setMode m n s).regs f = rget s.regs f := rget_congr (setMode_reg h)

@[simp] theorem rget_irqSync {n : Nat} {b : Blk} {f : Field} {s : State} (hb : b.bit < 1024) (h : offIrq f.off) :
    rget (irqSync n b s).regs f = rget s.regs f := rget_congr (irqSync_reg hb h)

theorem KMap.find_filter {α : Type} (m : KMap α) (p : Nat → Bool) {k : Nat} (h : p k = true) :
    KMap.find (m.filter fun e => p e.1) k = KMap.find m k := by
  induction m with
  | nil => rfl
  | cons e r ih =>
    obtain ⟨j, w⟩ := e
    by_cases hj : j = k
    · subst hj
      simp [KMap.find, h]
    · by_cases hp : p j = true
      · simpa [KMap.find, hp, hj] using ih
      · simpa [KMap.find, hp, hj] using ih

/-- A reset of the main domain keeps the Tether's registers. -/
@[simp] theorem rget_tether (m : KMap Word) {f : Field} (h : tetherReg f.off = true) :
    rget (m.filter fun e => tetherReg e.1) f = rget m f := by
  rw [rget, rget, KMap.get, KMap.get, KMap.find_filter m tetherReg h]

end Sys2Proof.Machine
end

