-- ==== Sys2Proof/Laws/Parts.lean ====
section
/-! SUPPORT. The parts of the state that the shared events leave alone, read off their laws of change. -/
namespace Sys2Proof.Machine

open Sys2Proof

/-- A part outside the touched ones, read off a law of change. -/
theorem Change.keep {T : List Part} {s t : State} (h : Change T s t) (p : Part) (hp : p ∉ T) : p.Same s t := h.frame p hp

@[simp] theorem State.emit_out (s : State) (o : Out) : (s.emit o).out = s.out ++ [o] := rfl

theorem faultEvent_only {b : Blk} {id info : Nat} {s : State} :
    Change [.regs, .tt, .flt, .icu, .out] s (faultEvent b id info s) := faultEvent_change (List.Subset.refl _) (Change.refl _ s)

@[simp] theorem faultEvent_pending {b : Blk} {id info : Nat} {s : State} : (faultEvent b id info s).pending = s.pending := faultEvent_only.pending
@[simp] theorem faultEvent_pins {b : Blk} {id info : Nat} {s : State} : (faultEvent b id info s).pins = s.pins := faultEvent_only.keep .pins (by decide)
@[simp] theorem faultEvent_dev {b : Blk} {id info : Nat} {s : State} : (faultEvent b id info s).dev = s.dev := faultEvent_only.keep .dev (by decide)
@[simp] theorem faultEvent_pwr {b : Blk} {id info : Nat} {s : State} : (faultEvent b id info s).pwr = s.pwr := faultEvent_only.keep .pwr (by decide)
@[simp] theorem faultEvent_img {b : Blk} {id info : Nat} {s : State} : (faultEvent b id info s).img = s.img := faultEvent_only.keep .img (by decide)
@[simp] theorem faultEvent_checks {b : Blk} {id info : Nat} {s : State} : (faultEvent b id info s).checks = s.checks := faultEvent_only.keep .checks (by decide)
@[simp] theorem faultEvent_pf {b : Blk} {id info : Nat} {s : State} : (faultEvent b id info s).pf = s.pf := faultEvent_only.keep .pf (by decide)
@[simp] theorem faultEvent_vf {b : Blk} {id info : Nat} {s : State} : (faultEvent b id info s).vf = s.vf := faultEvent_only.keep .vf (by decide)
@[simp] theorem faultEvent_fns {b : Blk} {id info : Nat} {s : State} : (faultEvent b id info s).fns = s.fns := faultEvent_only.keep .fns (by decide)
@[simp] theorem faultEvent_msix {b : Blk} {id info : Nat} {s : State} : (faultEvent b id info s).msix = s.msix := faultEvent_only.keep .msix (by decide)
@[simp] theorem faultEvent_hep {b : Blk} {id info : Nat} {s : State} : (faultEvent b id info s).hep = s.hep := faultEvent_only.keep .hep (by decide)
@[simp] theorem faultEvent_wxl {b : Blk} {id info : Nat} {s : State} : (faultEvent b id info s).wxl = s.wxl := faultEvent_only.keep .wxl (by decide)
@[simp] theorem faultEvent_xt {b : Blk} {id info : Nat} {s : State} : (faultEvent b id info s).xt = s.xt := faultEvent_only.keep .xt (by decide)
@[simp] theorem faultEvent_qen {b : Blk} {id info : Nat} {s : State} : (faultEvent b id info s).qen = s.qen := faultEvent_only.keep .qen (by decide)
@[simp] theorem faultEvent_ctx {b : Blk} {id info : Nat} {s : State} : (faultEvent b id info s).ctx = s.ctx := faultEvent_only.keep .ctx (by decide)
@[simp] theorem faultEvent_qaux {b : Blk} {id info : Nat} {s : State} : (faultEvent b id info s).qaux = s.qaux := faultEvent_only.keep .qaux (by decide)
@[simp] theorem faultEvent_spl {b : Blk} {id info : Nat} {s : State} : (faultEvent b id info s).spl = s.spl := faultEvent_only.keep .spl (by decide)
@[simp] theorem faultEvent_swc {b : Blk} {id info : Nat} {s : State} : (faultEvent b id info s).swc = s.swc := faultEvent_only.keep .swc (by decide)
@[simp] theorem faultEvent_ports {b : Blk} {id info : Nat} {s : State} : (faultEvent b id info s).ports = s.ports := faultEvent_only.keep .ports (by decide)
@[simp] theorem faultEvent_hbm {b : Blk} {id info : Nat} {s : State} : (faultEvent b id info s).hbm = s.hbm := faultEvent_only.keep .hbm (by decide)
@[simp] theorem faultEvent_mem {b : Blk} {id info : Nat} {s : State} : (faultEvent b id info s).mem = s.mem := faultEvent_only.keep .mem (by decide)
@[simp] theorem faultEvent_gdc {b : Blk} {id info : Nat} {s : State} : (faultEvent b id info s).gdc = s.gdc := faultEvent_only.keep .gdc (by decide)
@[simp] theorem faultEvent_cores {b : Blk} {id info : Nat} {s : State} : (faultEvent b id info s).cores = s.cores := faultEvent_only.keep .cores (by decide)
@[simp] theorem faultEvent_sram {b : Blk} {id info : Nat} {s : State} : (faultEvent b id info s).sram = s.sram := faultEvent_only.keep .sram (by decide)
@[simp] theorem faultEvent_tcm {b : Blk} {id info : Nat} {s : State} : (faultEvent b id info s).tcm = s.tcm := faultEvent_only.keep .tcm (by decide)
@[simp] theorem faultEvent_prl {b : Blk} {id info : Nat} {s : State} : (faultEvent b id info s).prl = s.prl := faultEvent_only.keep .prl (by decide)
@[simp] theorem faultEvent_free {b : Blk} {id info : Nat} {s : State} : (faultEvent b id info s).free = s.free := faultEvent_only.keep .free (by decide)

theorem faultRaise_only {b : Blk} {id info lvl : Nat} {s : State} :
    Change [.regs, .tt, .flt, .icu, .out] s (faultRaise b id info lvl s) := faultRaise_change (List.Subset.refl _) (Change.refl _ s)

@[simp] theorem faultRaise_pending {b : Blk} {id info lvl : Nat} {s : State} : (faultRaise b id info lvl s).pending = s.pending := faultRaise_only.pending
@[simp] theorem faultRaise_pins {b : Blk} {id info lvl : Nat} {s : State} : (faultRaise b id info lvl s).pins = s.pins := faultRaise_only.keep .pins (by decide)
@[simp] theorem faultRaise_dev {b : Blk} {id info lvl : Nat} {s : State} : (faultRaise b id info lvl s).dev = s.dev := faultRaise_only.keep .dev (by decide)
@[simp] theorem faultRaise_pwr {b : Blk} {id info lvl : Nat} {s : State} : (faultRaise b id info lvl s).pwr = s.pwr := faultRaise_only.keep .pwr (by decide)
@[simp] theorem faultRaise_img {b : Blk} {id info lvl : Nat} {s : State} : (faultRaise b id info lvl s).img = s.img := faultRaise_only.keep .img (by decide)
@[simp] theorem faultRaise_checks {b : Blk} {id info lvl : Nat} {s : State} : (faultRaise b id info lvl s).checks = s.checks := faultRaise_only.keep .checks (by decide)
@[simp] theorem faultRaise_pf {b : Blk} {id info lvl : Nat} {s : State} : (faultRaise b id info lvl s).pf = s.pf := faultRaise_only.keep .pf (by decide)
@[simp] theorem faultRaise_vf {b : Blk} {id info lvl : Nat} {s : State} : (faultRaise b id info lvl s).vf = s.vf := faultRaise_only.keep .vf (by decide)
@[simp] theorem faultRaise_fns {b : Blk} {id info lvl : Nat} {s : State} : (faultRaise b id info lvl s).fns = s.fns := faultRaise_only.keep .fns (by decide)
@[simp] theorem faultRaise_msix {b : Blk} {id info lvl : Nat} {s : State} : (faultRaise b id info lvl s).msix = s.msix := faultRaise_only.keep .msix (by decide)
@[simp] theorem faultRaise_hep {b : Blk} {id info lvl : Nat} {s : State} : (faultRaise b id info lvl s).hep = s.hep := faultRaise_only.keep .hep (by decide)
@[simp] theorem faultRaise_wxl {b : Blk} {id info lvl : Nat} {s : State} : (faultRaise b id info lvl s).wxl = s.wxl := faultRaise_only.keep .wxl (by decide)
@[simp] theorem faultRaise_xt {b : Blk} {id info lvl : Nat} {s : State} : (faultRaise b id info lvl s).xt = s.xt := faultRaise_only.keep .xt (by decide)
@[simp] theorem faultRaise_qen {b : Blk} {id info lvl : Nat} {s : State} : (faultRaise b id info lvl s).qen = s.qen := faultRaise_only.keep .qen (by decide)
@[simp] theorem faultRaise_ctx {b : Blk} {id info lvl : Nat} {s : State} : (faultRaise b id info lvl s).ctx = s.ctx := faultRaise_only.keep .ctx (by decide)
@[simp] theorem faultRaise_qaux {b : Blk} {id info lvl : Nat} {s : State} : (faultRaise b id info lvl s).qaux = s.qaux := faultRaise_only.keep .qaux (by decide)
@[simp] theorem faultRaise_spl {b : Blk} {id info lvl : Nat} {s : State} : (faultRaise b id info lvl s).spl = s.spl := faultRaise_only.keep .spl (by decide)
@[simp] theorem faultRaise_swc {b : Blk} {id info lvl : Nat} {s : State} : (faultRaise b id info lvl s).swc = s.swc := faultRaise_only.keep .swc (by decide)
@[simp] theorem faultRaise_ports {b : Blk} {id info lvl : Nat} {s : State} : (faultRaise b id info lvl s).ports = s.ports := faultRaise_only.keep .ports (by decide)
@[simp] theorem faultRaise_hbm {b : Blk} {id info lvl : Nat} {s : State} : (faultRaise b id info lvl s).hbm = s.hbm := faultRaise_only.keep .hbm (by decide)
@[simp] theorem faultRaise_mem {b : Blk} {id info lvl : Nat} {s : State} : (faultRaise b id info lvl s).mem = s.mem := faultRaise_only.keep .mem (by decide)
@[simp] theorem faultRaise_gdc {b : Blk} {id info lvl : Nat} {s : State} : (faultRaise b id info lvl s).gdc = s.gdc := faultRaise_only.keep .gdc (by decide)
@[simp] theorem faultRaise_cores {b : Blk} {id info lvl : Nat} {s : State} : (faultRaise b id info lvl s).cores = s.cores := faultRaise_only.keep .cores (by decide)
@[simp] theorem faultRaise_sram {b : Blk} {id info lvl : Nat} {s : State} : (faultRaise b id info lvl s).sram = s.sram := faultRaise_only.keep .sram (by decide)
@[simp] theorem faultRaise_tcm {b : Blk} {id info lvl : Nat} {s : State} : (faultRaise b id info lvl s).tcm = s.tcm := faultRaise_only.keep .tcm (by decide)
@[simp] theorem faultRaise_prl {b : Blk} {id info lvl : Nat} {s : State} : (faultRaise b id info lvl s).prl = s.prl := faultRaise_only.keep .prl (by decide)
@[simp] theorem faultRaise_free {b : Blk} {id info lvl : Nat} {s : State} : (faultRaise b id info lvl s).free = s.free := faultRaise_only.keep .free (by decide)

theorem notice_only {b : Blk} {off : Nat} {s : State} :
    Change [.regs, .tt, .flt, .icu, .out] s (notice b off s) := notice_change (List.Subset.refl _) (Change.refl _ s)

@[simp] theorem notice_pending {b : Blk} {off : Nat} {s : State} : (notice b off s).pending = s.pending := notice_only.pending
@[simp] theorem notice_pins {b : Blk} {off : Nat} {s : State} : (notice b off s).pins = s.pins := notice_only.keep .pins (by decide)
@[simp] theorem notice_dev {b : Blk} {off : Nat} {s : State} : (notice b off s).dev = s.dev := notice_only.keep .dev (by decide)
@[simp] theorem notice_pwr {b : Blk} {off : Nat} {s : State} : (notice b off s).pwr = s.pwr := notice_only.keep .pwr (by decide)
@[simp] theorem notice_img {b : Blk} {off : Nat} {s : State} : (notice b off s).img = s.img := notice_only.keep .img (by decide)
@[simp] theorem notice_checks {b : Blk} {off : Nat} {s : State} : (notice b off s).checks = s.checks := notice_only.keep .checks (by decide)
@[simp] theorem notice_pf {b : Blk} {off : Nat} {s : State} : (notice b off s).pf = s.pf := notice_only.keep .pf (by decide)
@[simp] theorem notice_vf {b : Blk} {off : Nat} {s : State} : (notice b off s).vf = s.vf := notice_only.keep .vf (by decide)
@[simp] theorem notice_fns {b : Blk} {off : Nat} {s : State} : (notice b off s).fns = s.fns := notice_only.keep .fns (by decide)
@[simp] theorem notice_msix {b : Blk} {off : Nat} {s : State} : (notice b off s).msix = s.msix := notice_only.keep .msix (by decide)
@[simp] theorem notice_hep {b : Blk} {off : Nat} {s : State} : (notice b off s).hep = s.hep := notice_only.keep .hep (by decide)
@[simp] theorem notice_wxl {b : Blk} {off : Nat} {s : State} : (notice b off s).wxl = s.wxl := notice_only.keep .wxl (by decide)
@[simp] theorem notice_xt {b : Blk} {off : Nat} {s : State} : (notice b off s).xt = s.xt := notice_only.keep .xt (by decide)
@[simp] theorem notice_qen {b : Blk} {off : Nat} {s : State} : (notice b off s).qen = s.qen := notice_only.keep .qen (by decide)
@[simp] theorem notice_ctx {b : Blk} {off : Nat} {s : State} : (notice b off s).ctx = s.ctx := notice_only.keep .ctx (by decide)
@[simp] theorem notice_qaux {b : Blk} {off : Nat} {s : State} : (notice b off s).qaux = s.qaux := notice_only.keep .qaux (by decide)
@[simp] theorem notice_spl {b : Blk} {off : Nat} {s : State} : (notice b off s).spl = s.spl := notice_only.keep .spl (by decide)
@[simp] theorem notice_swc {b : Blk} {off : Nat} {s : State} : (notice b off s).swc = s.swc := notice_only.keep .swc (by decide)
@[simp] theorem notice_ports {b : Blk} {off : Nat} {s : State} : (notice b off s).ports = s.ports := notice_only.keep .ports (by decide)
@[simp] theorem notice_hbm {b : Blk} {off : Nat} {s : State} : (notice b off s).hbm = s.hbm := notice_only.keep .hbm (by decide)
@[simp] theorem notice_mem {b : Blk} {off : Nat} {s : State} : (notice b off s).mem = s.mem := notice_only.keep .mem (by decide)
@[simp] theorem notice_gdc {b : Blk} {off : Nat} {s : State} : (notice b off s).gdc = s.gdc := notice_only.keep .gdc (by decide)
@[simp] theorem notice_cores {b : Blk} {off : Nat} {s : State} : (notice b off s).cores = s.cores := notice_only.keep .cores (by decide)
@[simp] theorem notice_sram {b : Blk} {off : Nat} {s : State} : (notice b off s).sram = s.sram := notice_only.keep .sram (by decide)
@[simp] theorem notice_tcm {b : Blk} {off : Nat} {s : State} : (notice b off s).tcm = s.tcm := notice_only.keep .tcm (by decide)
@[simp] theorem notice_prl {b : Blk} {off : Nat} {s : State} : (notice b off s).prl = s.prl := notice_only.keep .prl (by decide)
@[simp] theorem notice_free {b : Blk} {off : Nat} {s : State} : (notice b off s).free = s.free := notice_only.keep .free (by decide)

theorem icuEvent_only {n : Nat} {s : State} :
    Change [.regs, .tt, .flt, .icu, .out] s (icuEvent n s) := icuEvent_change (List.Subset.refl _) (Change.refl _ s)

@[simp] theorem icuEvent_pending {n : Nat} {s : State} : (icuEvent n s).pending = s.pending := icuEvent_only.pending
@[simp] theorem icuEvent_pins {n : Nat} {s : State} : (icuEvent n s).pins = s.pins := icuEvent_only.keep .pins (by decide)
@[simp] theorem icuEvent_dev {n : Nat} {s : State} : (icuEvent n s).dev = s.dev := icuEvent_only.keep .dev (by decide)
@[simp] theorem icuEvent_pwr {n : Nat} {s : State} : (icuEvent n s).pwr = s.pwr := icuEvent_only.keep .pwr (by decide)
@[simp] theorem icuEvent_img {n : Nat} {s : State} : (icuEvent n s).img = s.img := icuEvent_only.keep .img (by decide)
@[simp] theorem icuEvent_checks {n : Nat} {s : State} : (icuEvent n s).checks = s.checks := icuEvent_only.keep .checks (by decide)
@[simp] theorem icuEvent_pf {n : Nat} {s : State} : (icuEvent n s).pf = s.pf := icuEvent_only.keep .pf (by decide)
@[simp] theorem icuEvent_vf {n : Nat} {s : State} : (icuEvent n s).vf = s.vf := icuEvent_only.keep .vf (by decide)
@[simp] theorem icuEvent_fns {n : Nat} {s : State} : (icuEvent n s).fns = s.fns := icuEvent_only.keep .fns (by decide)
@[simp] theorem icuEvent_msix {n : Nat} {s : State} : (icuEvent n s).msix = s.msix := icuEvent_only.keep .msix (by decide)
@[simp] theorem icuEvent_hep {n : Nat} {s : State} : (icuEvent n s).hep = s.hep := icuEvent_only.keep .hep (by decide)
@[simp] theorem icuEvent_wxl {n : Nat} {s : State} : (icuEvent n s).wxl = s.wxl := icuEvent_only.keep .wxl (by decide)
@[simp] theorem icuEvent_xt {n : Nat} {s : State} : (icuEvent n s).xt = s.xt := icuEvent_only.keep .xt (by decide)
@[simp] theorem icuEvent_qen {n : Nat} {s : State} : (icuEvent n s).qen = s.qen := icuEvent_only.keep .qen (by decide)
@[simp] theorem icuEvent_ctx {n : Nat} {s : State} : (icuEvent n s).ctx = s.ctx := icuEvent_only.keep .ctx (by decide)
@[simp] theorem icuEvent_qaux {n : Nat} {s : State} : (icuEvent n s).qaux = s.qaux := icuEvent_only.keep .qaux (by decide)
@[simp] theorem icuEvent_spl {n : Nat} {s : State} : (icuEvent n s).spl = s.spl := icuEvent_only.keep .spl (by decide)
@[simp] theorem icuEvent_swc {n : Nat} {s : State} : (icuEvent n s).swc = s.swc := icuEvent_only.keep .swc (by decide)
@[simp] theorem icuEvent_ports {n : Nat} {s : State} : (icuEvent n s).ports = s.ports := icuEvent_only.keep .ports (by decide)
@[simp] theorem icuEvent_hbm {n : Nat} {s : State} : (icuEvent n s).hbm = s.hbm := icuEvent_only.keep .hbm (by decide)
@[simp] theorem icuEvent_mem {n : Nat} {s : State} : (icuEvent n s).mem = s.mem := icuEvent_only.keep .mem (by decide)
@[simp] theorem icuEvent_gdc {n : Nat} {s : State} : (icuEvent n s).gdc = s.gdc := icuEvent_only.keep .gdc (by decide)
@[simp] theorem icuEvent_cores {n : Nat} {s : State} : (icuEvent n s).cores = s.cores := icuEvent_only.keep .cores (by decide)
@[simp] theorem icuEvent_sram {n : Nat} {s : State} : (icuEvent n s).sram = s.sram := icuEvent_only.keep .sram (by decide)
@[simp] theorem icuEvent_tcm {n : Nat} {s : State} : (icuEvent n s).tcm = s.tcm := icuEvent_only.keep .tcm (by decide)
@[simp] theorem icuEvent_prl {n : Nat} {s : State} : (icuEvent n s).prl = s.prl := icuEvent_only.keep .prl (by decide)
@[simp] theorem icuEvent_free {n : Nat} {s : State} : (icuEvent n s).free = s.free := icuEvent_only.keep .free (by decide)

theorem icuLevel_only {n : Nat} {lvl : Bool} {s : State} :
    Change [.regs, .tt, .flt, .icu, .out] s (icuLevel n lvl s) := icuLevel_change (List.Subset.refl _) (Change.refl _ s)

@[simp] theorem icuLevel_pending {n : Nat} {lvl : Bool} {s : State} : (icuLevel n lvl s).pending = s.pending := icuLevel_only.pending
@[simp] theorem icuLevel_pins {n : Nat} {lvl : Bool} {s : State} : (icuLevel n lvl s).pins = s.pins := icuLevel_only.keep .pins (by decide)
@[simp] theorem icuLevel_dev {n : Nat} {lvl : Bool} {s : State} : (icuLevel n lvl s).dev = s.dev := icuLevel_only.keep .dev (by decide)
@[simp] theorem icuLevel_pwr {n : Nat} {lvl : Bool} {s : State} : (icuLevel n lvl s).pwr = s.pwr := icuLevel_only.keep .pwr (by decide)
@[simp] theorem icuLevel_img {n : Nat} {lvl : Bool} {s : State} : (icuLevel n lvl s).img = s.img := icuLevel_only.keep .img (by decide)
@[simp] theorem icuLevel_checks {n : Nat} {lvl : Bool} {s : State} : (icuLevel n lvl s).checks = s.checks := icuLevel_only.keep .checks (by decide)
@[simp] theorem icuLevel_pf {n : Nat} {lvl : Bool} {s : State} : (icuLevel n lvl s).pf = s.pf := icuLevel_only.keep .pf (by decide)
@[simp] theorem icuLevel_vf {n : Nat} {lvl : Bool} {s : State} : (icuLevel n lvl s).vf = s.vf := icuLevel_only.keep .vf (by decide)
@[simp] theorem icuLevel_fns {n : Nat} {lvl : Bool} {s : State} : (icuLevel n lvl s).fns = s.fns := icuLevel_only.keep .fns (by decide)
@[simp] theorem icuLevel_msix {n : Nat} {lvl : Bool} {s : State} : (icuLevel n lvl s).msix = s.msix := icuLevel_only.keep .msix (by decide)
@[simp] theorem icuLevel_hep {n : Nat} {lvl : Bool} {s : State} : (icuLevel n lvl s).hep = s.hep := icuLevel_only.keep .hep (by decide)
@[simp] theorem icuLevel_wxl {n : Nat} {lvl : Bool} {s : State} : (icuLevel n lvl s).wxl = s.wxl := icuLevel_only.keep .wxl (by decide)
@[simp] theorem icuLevel_xt {n : Nat} {lvl : Bool} {s : State} : (icuLevel n lvl s).xt = s.xt := icuLevel_only.keep .xt (by decide)
@[simp] theorem icuLevel_qen {n : Nat} {lvl : Bool} {s : State} : (icuLevel n lvl s).qen = s.qen := icuLevel_only.keep .qen (by decide)
@[simp] theorem icuLevel_ctx {n : Nat} {lvl : Bool} {s : State} : (icuLevel n lvl s).ctx = s.ctx := icuLevel_only.keep .ctx (by decide)
@[simp] theorem icuLevel_qaux {n : Nat} {lvl : Bool} {s : State} : (icuLevel n lvl s).qaux = s.qaux := icuLevel_only.keep .qaux (by decide)
@[simp] theorem icuLevel_spl {n : Nat} {lvl : Bool} {s : State} : (icuLevel n lvl s).spl = s.spl := icuLevel_only.keep .spl (by decide)
@[simp] theorem icuLevel_swc {n : Nat} {lvl : Bool} {s : State} : (icuLevel n lvl s).swc = s.swc := icuLevel_only.keep .swc (by decide)
@[simp] theorem icuLevel_ports {n : Nat} {lvl : Bool} {s : State} : (icuLevel n lvl s).ports = s.ports := icuLevel_only.keep .ports (by decide)
@[simp] theorem icuLevel_hbm {n : Nat} {lvl : Bool} {s : State} : (icuLevel n lvl s).hbm = s.hbm := icuLevel_only.keep .hbm (by decide)
@[simp] theorem icuLevel_mem {n : Nat} {lvl : Bool} {s : State} : (icuLevel n lvl s).mem = s.mem := icuLevel_only.keep .mem (by decide)
@[simp] theorem icuLevel_gdc {n : Nat} {lvl : Bool} {s : State} : (icuLevel n lvl s).gdc = s.gdc := icuLevel_only.keep .gdc (by decide)
@[simp] theorem icuLevel_cores {n : Nat} {lvl : Bool} {s : State} : (icuLevel n lvl s).cores = s.cores := icuLevel_only.keep .cores (by decide)
@[simp] theorem icuLevel_sram {n : Nat} {lvl : Bool} {s : State} : (icuLevel n lvl s).sram = s.sram := icuLevel_only.keep .sram (by decide)
@[simp] theorem icuLevel_tcm {n : Nat} {lvl : Bool} {s : State} : (icuLevel n lvl s).tcm = s.tcm := icuLevel_only.keep .tcm (by decide)
@[simp] theorem icuLevel_prl {n : Nat} {lvl : Bool} {s : State} : (icuLevel n lvl s).prl = s.prl := icuLevel_only.keep .prl (by decide)
@[simp] theorem icuLevel_free {n : Nat} {lvl : Bool} {s : State} : (icuLevel n lvl s).free = s.free := icuLevel_only.keep .free (by decide)

theorem irqSync_only {n : Nat} {b : Blk} {s : State} :
    Change [.regs, .tt, .flt, .icu, .out] s (irqSync n b s) := irqSync_change (List.Subset.refl _) (Change.refl _ s)

@[simp] theorem irqSync_pending {n : Nat} {b : Blk} {s : State} : (irqSync n b s).pending = s.pending := irqSync_only.pending
@[simp] theorem irqSync_pins {n : Nat} {b : Blk} {s : State} : (irqSync n b s).pins = s.pins := irqSync_only.keep .pins (by decide)
@[simp] theorem irqSync_dev {n : Nat} {b : Blk} {s : State} : (irqSync n b s).dev = s.dev := irqSync_only.keep .dev (by decide)
@[simp] theorem irqSync_pwr {n : Nat} {b : Blk} {s : State} : (irqSync n b s).pwr = s.pwr := irqSync_only.keep .pwr (by decide)
@[simp] theorem irqSync_img {n : Nat} {b : Blk} {s : State} : (irqSync n b s).img = s.img := irqSync_only.keep .img (by decide)
@[simp] theorem irqSync_checks {n : Nat} {b : Blk} {s : State} : (irqSync n b s).checks = s.checks := irqSync_only.keep .checks (by decide)
@[simp] theorem irqSync_pf {n : Nat} {b : Blk} {s : State} : (irqSync n b s).pf = s.pf := irqSync_only.keep .pf (by decide)
@[simp] theorem irqSync_vf {n : Nat} {b : Blk} {s : State} : (irqSync n b s).vf = s.vf := irqSync_only.keep .vf (by decide)
@[simp] theorem irqSync_fns {n : Nat} {b : Blk} {s : State} : (irqSync n b s).fns = s.fns := irqSync_only.keep .fns (by decide)
@[simp] theorem irqSync_msix {n : Nat} {b : Blk} {s : State} : (irqSync n b s).msix = s.msix := irqSync_only.keep .msix (by decide)
@[simp] theorem irqSync_hep {n : Nat} {b : Blk} {s : State} : (irqSync n b s).hep = s.hep := irqSync_only.keep .hep (by decide)
@[simp] theorem irqSync_wxl {n : Nat} {b : Blk} {s : State} : (irqSync n b s).wxl = s.wxl := irqSync_only.keep .wxl (by decide)
@[simp] theorem irqSync_xt {n : Nat} {b : Blk} {s : State} : (irqSync n b s).xt = s.xt := irqSync_only.keep .xt (by decide)
@[simp] theorem irqSync_qen {n : Nat} {b : Blk} {s : State} : (irqSync n b s).qen = s.qen := irqSync_only.keep .qen (by decide)
@[simp] theorem irqSync_ctx {n : Nat} {b : Blk} {s : State} : (irqSync n b s).ctx = s.ctx := irqSync_only.keep .ctx (by decide)
@[simp] theorem irqSync_qaux {n : Nat} {b : Blk} {s : State} : (irqSync n b s).qaux = s.qaux := irqSync_only.keep .qaux (by decide)
@[simp] theorem irqSync_spl {n : Nat} {b : Blk} {s : State} : (irqSync n b s).spl = s.spl := irqSync_only.keep .spl (by decide)
@[simp] theorem irqSync_swc {n : Nat} {b : Blk} {s : State} : (irqSync n b s).swc = s.swc := irqSync_only.keep .swc (by decide)
@[simp] theorem irqSync_ports {n : Nat} {b : Blk} {s : State} : (irqSync n b s).ports = s.ports := irqSync_only.keep .ports (by decide)
@[simp] theorem irqSync_hbm {n : Nat} {b : Blk} {s : State} : (irqSync n b s).hbm = s.hbm := irqSync_only.keep .hbm (by decide)
@[simp] theorem irqSync_mem {n : Nat} {b : Blk} {s : State} : (irqSync n b s).mem = s.mem := irqSync_only.keep .mem (by decide)
@[simp] theorem irqSync_gdc {n : Nat} {b : Blk} {s : State} : (irqSync n b s).gdc = s.gdc := irqSync_only.keep .gdc (by decide)
@[simp] theorem irqSync_cores {n : Nat} {b : Blk} {s : State} : (irqSync n b s).cores = s.cores := irqSync_only.keep .cores (by decide)
@[simp] theorem irqSync_sram {n : Nat} {b : Blk} {s : State} : (irqSync n b s).sram = s.sram := irqSync_only.keep .sram (by decide)
@[simp] theorem irqSync_tcm {n : Nat} {b : Blk} {s : State} : (irqSync n b s).tcm = s.tcm := irqSync_only.keep .tcm (by decide)
@[simp] theorem irqSync_prl {n : Nat} {b : Blk} {s : State} : (irqSync n b s).prl = s.prl := irqSync_only.keep .prl (by decide)
@[simp] theorem irqSync_free {n : Nat} {b : Blk} {s : State} : (irqSync n b s).free = s.free := irqSync_only.keep .free (by decide)

theorem icuOfferAll_only  {s : State} :
    Change [.regs, .icu] s (icuOfferAll s) := icuOfferAll_change (List.Subset.refl _) (Change.refl _ s)

@[simp] theorem icuOfferAll_pending  {s : State} : (icuOfferAll s).pending = s.pending := icuOfferAll_only.pending
@[simp] theorem icuOfferAll_tt  {s : State} : (icuOfferAll s).tt = s.tt := icuOfferAll_only.keep .tt (by decide)
@[simp] theorem icuOfferAll_pins  {s : State} : (icuOfferAll s).pins = s.pins := icuOfferAll_only.keep .pins (by decide)
@[simp] theorem icuOfferAll_dev  {s : State} : (icuOfferAll s).dev = s.dev := icuOfferAll_only.keep .dev (by decide)
@[simp] theorem icuOfferAll_pwr  {s : State} : (icuOfferAll s).pwr = s.pwr := icuOfferAll_only.keep .pwr (by decide)
@[simp] theorem icuOfferAll_img  {s : State} : (icuOfferAll s).img = s.img := icuOfferAll_only.keep .img (by decide)
@[simp] theorem icuOfferAll_checks  {s : State} : (icuOfferAll s).checks = s.checks := icuOfferAll_only.keep .checks (by decide)
@[simp] theorem icuOfferAll_flt  {s : State} : (icuOfferAll s).flt = s.flt := icuOfferAll_only.keep .flt (by decide)
@[simp] theorem icuOfferAll_pf  {s : State} : (icuOfferAll s).pf = s.pf := icuOfferAll_only.keep .pf (by decide)
@[simp] theorem icuOfferAll_vf  {s : State} : (icuOfferAll s).vf = s.vf := icuOfferAll_only.keep .vf (by decide)
@[simp] theorem icuOfferAll_fns  {s : State} : (icuOfferAll s).fns = s.fns := icuOfferAll_only.keep .fns (by decide)
@[simp] theorem icuOfferAll_msix  {s : State} : (icuOfferAll s).msix = s.msix := icuOfferAll_only.keep .msix (by decide)
@[simp] theorem icuOfferAll_hep  {s : State} : (icuOfferAll s).hep = s.hep := icuOfferAll_only.keep .hep (by decide)
@[simp] theorem icuOfferAll_wxl  {s : State} : (icuOfferAll s).wxl = s.wxl := icuOfferAll_only.keep .wxl (by decide)
@[simp] theorem icuOfferAll_xt  {s : State} : (icuOfferAll s).xt = s.xt := icuOfferAll_only.keep .xt (by decide)
@[simp] theorem icuOfferAll_qen  {s : State} : (icuOfferAll s).qen = s.qen := icuOfferAll_only.keep .qen (by decide)
@[simp] theorem icuOfferAll_ctx  {s : State} : (icuOfferAll s).ctx = s.ctx := icuOfferAll_only.keep .ctx (by decide)
@[simp] theorem icuOfferAll_qaux  {s : State} : (icuOfferAll s).qaux = s.qaux := icuOfferAll_only.keep .qaux (by decide)
@[simp] theorem icuOfferAll_spl  {s : State} : (icuOfferAll s).spl = s.spl := icuOfferAll_only.keep .spl (by decide)
@[simp] theorem icuOfferAll_swc  {s : State} : (icuOfferAll s).swc = s.swc := icuOfferAll_only.keep .swc (by decide)
@[simp] theorem icuOfferAll_ports  {s : State} : (icuOfferAll s).ports = s.ports := icuOfferAll_only.keep .ports (by decide)
@[simp] theorem icuOfferAll_hbm  {s : State} : (icuOfferAll s).hbm = s.hbm := icuOfferAll_only.keep .hbm (by decide)
@[simp] theorem icuOfferAll_mem  {s : State} : (icuOfferAll s).mem = s.mem := icuOfferAll_only.keep .mem (by decide)
@[simp] theorem icuOfferAll_gdc  {s : State} : (icuOfferAll s).gdc = s.gdc := icuOfferAll_only.keep .gdc (by decide)
@[simp] theorem icuOfferAll_cores  {s : State} : (icuOfferAll s).cores = s.cores := icuOfferAll_only.keep .cores (by decide)
@[simp] theorem icuOfferAll_sram  {s : State} : (icuOfferAll s).sram = s.sram := icuOfferAll_only.keep .sram (by decide)
@[simp] theorem icuOfferAll_tcm  {s : State} : (icuOfferAll s).tcm = s.tcm := icuOfferAll_only.keep .tcm (by decide)
@[simp] theorem icuOfferAll_prl  {s : State} : (icuOfferAll s).prl = s.prl := icuOfferAll_only.keep .prl (by decide)
@[simp] theorem icuOfferAll_out  {s : State} : (icuOfferAll s).out = s.out := icuOfferAll_only.keep .out (by decide)
@[simp] theorem icuOfferAll_free  {s : State} : (icuOfferAll s).free = s.free := icuOfferAll_only.keep .free (by decide)

theorem setMode_only {m : Mode} {n : Nat} {s : State} :
    Change [.regs, .tt, .dev, .flt, .icu, .spl, .out] s (setMode m n s) := setMode_change (List.Subset.refl _) (Change.refl _ s)

@[simp] theorem setMode_pending {m : Mode} {n : Nat} {s : State} : (setMode m n s).pending = s.pending := setMode_only.pending
@[simp] theorem setMode_pins {m : Mode} {n : Nat} {s : State} : (setMode m n s).pins = s.pins := setMode_only.keep .pins (by decide)
@[simp] theorem setMode_pwr {m : Mode} {n : Nat} {s : State} : (setMode m n s).pwr = s.pwr := setMode_only.keep .pwr (by decide)
@[simp] theorem setMode_img {m : Mode} {n : Nat} {s : State} : (setMode m n s).img = s.img := setMode_only.keep .img (by decide)
@[simp] theorem setMode_checks {m : Mode} {n : Nat} {s : State} : (setMode m n s).checks = s.checks := setMode_only.keep .checks (by decide)
@[simp] theorem setMode_pf {m : Mode} {n : Nat} {s : State} : (setMode m n s).pf = s.pf := setMode_only.keep .pf (by decide)
@[simp] theorem setMode_vf {m : Mode} {n : Nat} {s : State} : (setMode m n s).vf = s.vf := setMode_only.keep .vf (by decide)
@[simp] theorem setMode_fns {m : Mode} {n : Nat} {s : State} : (setMode m n s).fns = s.fns := setMode_only.keep .fns (by decide)
@[simp] theorem setMode_msix {m : Mode} {n : Nat} {s : State} : (setMode m n s).msix = s.msix := setMode_only.keep .msix (by decide)
@[simp] theorem setMode_hep {m : Mode} {n : Nat} {s : State} : (setMode m n s).hep = s.hep := setMode_only.keep .hep (by decide)
@[simp] theorem setMode_wxl {m : Mode} {n : Nat} {s : State} : (setMode m n s).wxl = s.wxl := setMode_only.keep .wxl (by decide)
@[simp] theorem setMode_xt {m : Mode} {n : Nat} {s : State} : (setMode m n s).xt = s.xt := setMode_only.keep .xt (by decide)
@[simp] theorem setMode_qen {m : Mode} {n : Nat} {s : State} : (setMode m n s).qen = s.qen := setMode_only.keep .qen (by decide)
@[simp] theorem setMode_ctx {m : Mode} {n : Nat} {s : State} : (setMode m n s).ctx = s.ctx := setMode_only.keep .ctx (by decide)
@[simp] theorem setMode_qaux {m : Mode} {n : Nat} {s : State} : (setMode m n s).qaux = s.qaux := setMode_only.keep .qaux (by decide)
@[simp] theorem setMode_swc {m : Mode} {n : Nat} {s : State} : (setMode m n s).swc = s.swc := setMode_only.keep .swc (by decide)
@[simp] theorem setMode_ports {m : Mode} {n : Nat} {s : State} : (setMode m n s).ports = s.ports := setMode_only.keep .ports (by decide)
@[simp] theorem setMode_hbm {m : Mode} {n : Nat} {s : State} : (setMode m n s).hbm = s.hbm := setMode_only.keep .hbm (by decide)
@[simp] theorem setMode_mem {m : Mode} {n : Nat} {s : State} : (setMode m n s).mem = s.mem := setMode_only.keep .mem (by decide)
@[simp] theorem setMode_gdc {m : Mode} {n : Nat} {s : State} : (setMode m n s).gdc = s.gdc := setMode_only.keep .gdc (by decide)
@[simp] theorem setMode_cores {m : Mode} {n : Nat} {s : State} : (setMode m n s).cores = s.cores := setMode_only.keep .cores (by decide)
@[simp] theorem setMode_sram {m : Mode} {n : Nat} {s : State} : (setMode m n s).sram = s.sram := setMode_only.keep .sram (by decide)
@[simp] theorem setMode_tcm {m : Mode} {n : Nat} {s : State} : (setMode m n s).tcm = s.tcm := setMode_only.keep .tcm (by decide)
@[simp] theorem setMode_prl {m : Mode} {n : Nat} {s : State} : (setMode m n s).prl = s.prl := setMode_only.keep .prl (by decide)
@[simp] theorem setMode_free {m : Mode} {n : Nat} {s : State} : (setMode m n s).free = s.free := setMode_only.keep .free (by decide)

theorem startTest_only {b : Blk} {id res : Nat} {s : State} :
    Change [.regs, .flt] s (startTest b id res s) := startTest_change (List.Subset.refl _) (Change.refl _ s)

@[simp] theorem startTest_pending {b : Blk} {id res : Nat} {s : State} : (startTest b id res s).pending = s.pending := startTest_only.pending
@[simp] theorem startTest_tt {b : Blk} {id res : Nat} {s : State} : (startTest b id res s).tt = s.tt := startTest_only.keep .tt (by decide)
@[simp] theorem startTest_pins {b : Blk} {id res : Nat} {s : State} : (startTest b id res s).pins = s.pins := startTest_only.keep .pins (by decide)
@[simp] theorem startTest_dev {b : Blk} {id res : Nat} {s : State} : (startTest b id res s).dev = s.dev := startTest_only.keep .dev (by decide)
@[simp] theorem startTest_pwr {b : Blk} {id res : Nat} {s : State} : (startTest b id res s).pwr = s.pwr := startTest_only.keep .pwr (by decide)
@[simp] theorem startTest_img {b : Blk} {id res : Nat} {s : State} : (startTest b id res s).img = s.img := startTest_only.keep .img (by decide)
@[simp] theorem startTest_checks {b : Blk} {id res : Nat} {s : State} : (startTest b id res s).checks = s.checks := startTest_only.keep .checks (by decide)
@[simp] theorem startTest_icu {b : Blk} {id res : Nat} {s : State} : (startTest b id res s).icu = s.icu := startTest_only.keep .icu (by decide)
@[simp] theorem startTest_pf {b : Blk} {id res : Nat} {s : State} : (startTest b id res s).pf = s.pf := startTest_only.keep .pf (by decide)
@[simp] theorem startTest_vf {b : Blk} {id res : Nat} {s : State} : (startTest b id res s).vf = s.vf := startTest_only.keep .vf (by decide)
@[simp] theorem startTest_fns {b : Blk} {id res : Nat} {s : State} : (startTest b id res s).fns = s.fns := startTest_only.keep .fns (by decide)
@[simp] theorem startTest_msix {b : Blk} {id res : Nat} {s : State} : (startTest b id res s).msix = s.msix := startTest_only.keep .msix (by decide)
@[simp] theorem startTest_hep {b : Blk} {id res : Nat} {s : State} : (startTest b id res s).hep = s.hep := startTest_only.keep .hep (by decide)
@[simp] theorem startTest_wxl {b : Blk} {id res : Nat} {s : State} : (startTest b id res s).wxl = s.wxl := startTest_only.keep .wxl (by decide)
@[simp] theorem startTest_xt {b : Blk} {id res : Nat} {s : State} : (startTest b id res s).xt = s.xt := startTest_only.keep .xt (by decide)
@[simp] theorem startTest_qen {b : Blk} {id res : Nat} {s : State} : (startTest b id res s).qen = s.qen := startTest_only.keep .qen (by decide)
@[simp] theorem startTest_ctx {b : Blk} {id res : Nat} {s : State} : (startTest b id res s).ctx = s.ctx := startTest_only.keep .ctx (by decide)
@[simp] theorem startTest_qaux {b : Blk} {id res : Nat} {s : State} : (startTest b id res s).qaux = s.qaux := startTest_only.keep .qaux (by decide)
@[simp] theorem startTest_spl {b : Blk} {id res : Nat} {s : State} : (startTest b id res s).spl = s.spl := startTest_only.keep .spl (by decide)
@[simp] theorem startTest_swc {b : Blk} {id res : Nat} {s : State} : (startTest b id res s).swc = s.swc := startTest_only.keep .swc (by decide)
@[simp] theorem startTest_ports {b : Blk} {id res : Nat} {s : State} : (startTest b id res s).ports = s.ports := startTest_only.keep .ports (by decide)
@[simp] theorem startTest_hbm {b : Blk} {id res : Nat} {s : State} : (startTest b id res s).hbm = s.hbm := startTest_only.keep .hbm (by decide)
@[simp] theorem startTest_mem {b : Blk} {id res : Nat} {s : State} : (startTest b id res s).mem = s.mem := startTest_only.keep .mem (by decide)
@[simp] theorem startTest_gdc {b : Blk} {id res : Nat} {s : State} : (startTest b id res s).gdc = s.gdc := startTest_only.keep .gdc (by decide)
@[simp] theorem startTest_cores {b : Blk} {id res : Nat} {s : State} : (startTest b id res s).cores = s.cores := startTest_only.keep .cores (by decide)
@[simp] theorem startTest_sram {b : Blk} {id res : Nat} {s : State} : (startTest b id res s).sram = s.sram := startTest_only.keep .sram (by decide)
@[simp] theorem startTest_tcm {b : Blk} {id res : Nat} {s : State} : (startTest b id res s).tcm = s.tcm := startTest_only.keep .tcm (by decide)
@[simp] theorem startTest_prl {b : Blk} {id res : Nat} {s : State} : (startTest b id res s).prl = s.prl := startTest_only.keep .prl (by decide)
@[simp] theorem startTest_out {b : Blk} {id res : Nat} {s : State} : (startTest b id res s).out = s.out := startTest_only.keep .out (by decide)
@[simp] theorem startTest_free {b : Blk} {id res : Nat} {s : State} : (startTest b id res s).free = s.free := startTest_only.keep .free (by decide)

/-- A transition sets the mode, and what DEV keeps of it. -/
@[simp] theorem setMode_dev {m : Mode} {n : Nat} {s : State} :
    (setMode m n s).dev = { s.dev with mode := m, prev := s.dev.mode.code, cause := n, entry := s.dev.time % 2 ^ 48 } := by
  unfold setMode
  simp only [icuOfferAll_dev]
  split <;> simp

end Sys2Proof.Machine
end

