-- ==== Sys2Proof/Laws/Control.lean ====
section
/-! SUPPORT. Control-space writes that are taken. -/
namespace Sys2Proof.Machine

open Sys2Proof

/-- A write that is taken does what its register does. -/
theorem ctlWriteBy_of_takes {s : State} {a : Agent} {b : Blk} {off : Nat} {r : RegDef} {v : Word} (h : s.Takes a b off r v) :
    ctlWriteBy a off v 64 s = ctlTake b off r v s := by
  obtain ⟨h1, h2, h3, h4, h5, h6, h7, h8⟩ := h
  have e : ctlWriteAs a off v 64 s = ctlTake b off r v s := by
    have e1 : ¬ (0x1600000 ≤ off ∧ off < 0x1800000) := by omega
    have e2 : off / 8 * 8 = off := by omega
    have e3 : ¬ 0x1600000 ≤ off := by omega
    simp [ctlWriteAs, h2, h3, h4, e2, e3, h6, h7, h8]
  cases a with
  | pf0 => exact e
  | smbus => exact e
  | core c =>
    simp only [State.mayControl, Bool.and_eq_true, decide_eq_true_eq] at h1
    simp [ctlWriteBy, Nat.not_le.2 h1.1.1, h1.1.2, h1.2, e]
  | img => simp [State.mayControl] at h1
  | fn f => simp [State.mayControl] at h1

/-- The effect of a taken write outside the fault pages, `DEV_CTL`, the checked values, and the slot and side-band registers. -/
theorem ctlTake_plain {s : State} {b : Blk} {off : Nat} {r : RegDef} {v : Word} (hd : off - b.base < 0xF000 ∨ 0x10000 ≤ off - b.base)
    (h0 : off ≠ R.DEV_CTL) (hv : s.valueChecked b (off - b.base) (s.reg off) (s.shaped b (off - b.base) v) = false)
    (hs : ∀ p, b = .lp p → off - b.base ≠ 0x68 ∧ off - b.base ≠ 0x1070) :
    ctlTake b off r v s = enableActs b (off - b.base) off (s.reg off) (s.shaped b (off - b.base) v)
      (regActs b (off - b.base) off (s.reg off) (s.shaped b (off - b.base) v)
        (s.stored b off r (s.shaped b (off - b.base) v))) := by
  have e1 : ¬ (0xF000 ≤ off - b.base ∧ off - b.base < 0x10000) := by omega
  unfold ctlTake
  simp only [e1, h0, hv, Bool.and_eq_true, decide_eq_true_eq, if_false, Bool.false_eq_true]
  cases b with
  | lp p =>
    have := hs p rfl
    simp only [this.1, this.2, if_false]
    rfl
  | _ => rfl

/-- A taken write of a fault page's register. -/
theorem ctlTake_page {s : State} {b : Blk} {e : Nat} {r : RegDef} {v : Word} (h : e < 0x1000) :
    ctlTake b (b.base + (0xF000 + e)) r v s
      = pageWrite b (b.base + (0xF000 + e)) e r (s.reg (b.base + (0xF000 + e))) v s := by
  have h1 : b.base + (0xF000 + e) - b.base = 0xF000 + e := Nat.add_sub_cancel_left ..
  have h2 : s.shaped b (0xF000 + e) v = v := by
    unfold State.shaped
    cases b <;> first
      | rfl
      | (simp only [Bool.and_eq_true, decide_eq_true_eq]
         repeat' split
         all_goals first | rfl | omega)
  unfold ctlTake
  simp only [h1, h2]
  rw [if_pos (by simp; omega), Nat.add_sub_cancel_left]

/-- SAFE: transition 10 from any mode. -/
@[simp] theorem enterSafe_dev {src : Nat} {s : State} :
    (enterSafe src s).dev = { s.dev with mode := .safe, prev := s.dev.mode.code, cause := 10, entry := s.dev.time % 2 ^ 48 } := by
  unfold enterSafe
  dsimp only
  have hf : ∀ (l : List Nat) (u : State), (l.foldl (fun t p => if t.hasPort p then portDrop p t else t) u).dev = u.dev := by
    intro l
    induction l with
    | nil => intro _; rfl
    | cons p r ih =>
      intro u
      rw [List.foldl_cons, ih]
      split
      · exact (portDrop_change (List.Subset.refl _) (Change.refl _ u)).keep .dev (by decide)
      · rfl
  rw [(coresSafe_change (List.Subset.refl _) (Change.refl _ _)).keep .dev (by decide),
    (swcSafe_change (List.Subset.refl _) (Change.refl _ _)).keep .dev (by decide), hf, setMode_dev]
  have h1 : (if (s.cfg = 3 && s.flits 6 && s.dev.mode.serving) = true then pairPkt 0x0D 0 s else s).dev = s.dev := by
    split
    · exact (pairPkt_change (List.Subset.refl _) (Change.refl _ _)).keep .dev (by decide)
    · rfl
  have h2 (u : State) : (wxlSafe (qenSafe u)).dev = u.dev := by
    have a : (wxlSafe (qenSafe u)).dev = (qenSafe u).dev := (wxlSafe_change (List.Subset.refl _) (Change.refl _ _)).keep .dev (by decide)
    have b : (qenSafe u).dev = u.dev := (qenSafe_change (List.Subset.refl _) (Change.refl _ _)).keep .dev (by decide)
    rw [a, b]
  simp only [State.put_dev, h2]
  rw [h1]

/-- A power-down leaves DEV's mode alone. -/
@[simp] theorem powerDown_dev {s : State} : (powerDown s).dev = s.dev :=
  (powerDown_change (List.Subset.refl _) (Change.refl _ s)).keep .dev (by decide)

end Sys2Proof.Machine
end

