-- ==== Sys2Proof/Laws/HbmOps.lean ====
section
/-! SUPPORT. What each operation of Machine/HbmOps.lean may change. -/
set_option linter.all false
set_option linter.unusedTactic false
set_option linter.unreachableTactic false

namespace Sys2Proof.Machine

open Sys2Proof

theorem setPoison_change {U : List Part} {r0 : State} {o : Nat} {p : Bool} {s : State} (hT : ([.hbm] : List Part) ⊆ U) (hC0 : Change U r0 s) :
    Change U r0 (setPoison o p s) := by
  unfold setPoison
  repeat' first
    | with_reducible exact hC0
    | with_reducible refine Change.ite (fun _ => ?_) (fun _ => ?_)
    | with_reducible refine Change.foldl (fun _ _ _ => ?_) ?_
    | with_reducible assumption
    | split
    | dsimp only
    | with_reducible refine Change.set_hbm hT ?_

theorem rowTestStart_change {U : List Part} {r0 : State} {src : Nat} {loc : Nat × Nat × Nat} {s : State} (hT : ([.regs, .flt, .hbm] : List Part) ⊆ U) (hC0 : Change U r0 s) :
    Change U r0 (rowTestStart src loc s) := by
  have k1 : ([.regs, .flt] : List Part) ⊆ U := List.Subset.trans (by decide) hT
  have k2 : ([.hbm] : List Part) ⊆ U := List.Subset.trans (by decide) hT
  unfold rowTestStart
  repeat' first
    | with_reducible exact hC0
    | with_reducible refine Change.ite (fun _ => ?_) (fun _ => ?_)
    | with_reducible refine startTest_change k1 ?_
    | with_reducible refine Change.foldl (fun _ _ _ => ?_) ?_
    | with_reducible assumption
    | split
    | dsimp only
    | with_reducible refine Change.set_hbm k2 ?_

theorem trackRow_change {U : List Part} {r0 : State} {loc : Nat × Nat × Nat} {s : State} (hT : ([.hbm] : List Part) ⊆ U) (hC0 : Change U r0 s) :
    Change U r0 (trackRow loc s).1 := by
  unfold trackRow
  repeat' first
    | with_reducible exact hC0
    | with_reducible refine Change.ite (fun _ => ?_) (fun _ => ?_)
    | with_reducible refine Change.foldl (fun _ _ _ => ?_) ?_
    | with_reducible refine Change.foldl_fst (fun _ _ _ => ?_) ?_
    | with_reducible refine Change.ite_fst (fun _ => ?_) (fun _ => ?_)
    | with_reducible assumption
    | split
    | dsimp only
    | with_reducible refine Change.set_hbm hT ?_

theorem untrackRow_change {U : List Part} {r0 : State} {pc : Nat} {bank : Nat} {row : Nat} {s : State} (hT : ([.hbm] : List Part) ⊆ U) (hC0 : Change U r0 s) :
    Change U r0 (untrackRow pc bank row s) := by
  unfold untrackRow
  repeat' first
    | with_reducible exact hC0
    | with_reducible refine Change.ite (fun _ => ?_) (fun _ => ?_)
    | with_reducible refine Change.foldl (fun _ _ _ => ?_) ?_
    | with_reducible assumption
    | split
    | dsimp only
    | with_reducible refine Change.set_hbm hT ?_

theorem eccCe_change {U : List Part} {r0 : State} {o : Nat} {s : State} (hT : ([.regs, .tt, .flt, .icu, .hbm, .out] : List Part) ⊆ U) (hC0 : Change U r0 s) :
    Change U r0 (eccCe o s) := by
  have k1 : ([.regs] : List Part) ⊆ U := List.Subset.trans (by decide) hT
  have k2 : ([.regs, .tt, .flt, .icu, .out] : List Part) ⊆ U := List.Subset.trans (by decide) hT
  have k3 : ([.hbm] : List Part) ⊆ U := List.Subset.trans (by decide) hT
  have k4 : ([.regs, .flt, .hbm] : List Part) ⊆ U := List.Subset.trans (by decide) hT
  unfold eccCe
  repeat' first
    | with_reducible exact hC0
    | with_reducible refine Change.ite (fun _ => ?_) (fun _ => ?_)
    | with_reducible refine State.bump_change k1 ?_
    | with_reducible refine faultEvent_change k2 ?_
    | with_reducible refine trackRow_change k3 ?_
    | (refine Change.of_pair (by assumption) ?_; with_reducible refine trackRow_change k3 ?_)
    | with_reducible refine rowTestStart_change k4 ?_
    | with_reducible refine Change.foldl (fun _ _ _ => ?_) ?_
    | with_reducible refine Change.foldl_fst (fun _ _ _ => ?_) ?_
    | with_reducible refine Change.ite_fst (fun _ => ?_) (fun _ => ?_)
    | with_reducible assumption
    | split
    | dsimp only

theorem eccUe_change {U : List Part} {r0 : State} {o : Nat} {s : State} (hT : ([.regs, .tt, .flt, .icu, .hbm, .out] : List Part) ⊆ U) (hC0 : Change U r0 s) :
    Change U r0 (eccUe o s) := by
  have k1 : ([.regs] : List Part) ⊆ U := List.Subset.trans (by decide) hT
  have k2 : ([.regs, .tt, .flt, .icu, .out] : List Part) ⊆ U := List.Subset.trans (by decide) hT
  have k3 : ([.hbm] : List Part) ⊆ U := List.Subset.trans (by decide) hT
  have k4 : ([.regs, .flt, .hbm] : List Part) ⊆ U := List.Subset.trans (by decide) hT
  unfold eccUe
  repeat' first
    | with_reducible exact hC0
    | with_reducible refine Change.ite (fun _ => ?_) (fun _ => ?_)
    | with_reducible refine State.bump_change k1 ?_
    | with_reducible refine faultEvent_change k2 ?_
    | with_reducible refine setPoison_change k3 ?_
    | with_reducible refine rowTestStart_change k4 ?_
    | with_reducible refine Change.foldl (fun _ _ _ => ?_) ?_
    | with_reducible assumption
    | split
    | dsimp only

theorem eccFound_change {U : List Part} {r0 : State} {o : Nat} {e : Ecc} {s : State} (hT : ([.regs, .tt, .flt, .icu, .hbm, .out] : List Part) ⊆ U) (hC0 : Change U r0 s) :
    Change U r0 (eccFound o e s) := by
  unfold eccFound
  repeat' first
    | with_reducible exact hC0
    | with_reducible refine Change.ite (fun _ => ?_) (fun _ => ?_)
    | with_reducible refine eccUe_change hT ?_
    | with_reducible refine eccCe_change hT ?_
    | with_reducible refine Change.foldl (fun _ _ _ => ?_) ?_
    | with_reducible assumption
    | split
    | dsimp only

theorem hbmServeRead_change {U : List Part} {r0 : State} {o : Nat} {len : Nat} {e : Ecc} {s : State} (hT : ([.regs, .tt, .flt, .icu, .hbm, .out] : List Part) ⊆ U) (hC0 : Change U r0 s) :
    Change U r0 (hbmServeRead o len e s).1 := by
  have k1 : ([.regs] : List Part) ⊆ U := List.Subset.trans (by decide) hT
  unfold hbmServeRead
  repeat' first
    | with_reducible exact hC0
    | with_reducible refine Change.ite (fun _ => ?_) (fun _ => ?_)
    | with_reducible refine State.bump_change k1 ?_
    | with_reducible refine eccFound_change hT ?_
    | with_reducible refine Change.foldl (fun _ _ _ => ?_) ?_
    | with_reducible refine Change.foldl_fst (fun _ _ _ => ?_) ?_
    | with_reducible refine Change.ite_fst (fun _ => ?_) (fun _ => ?_)
    | with_reducible assumption
    | split
    | dsimp only

theorem hbmServeWrite_change {U : List Part} {r0 : State} {o : Nat} {data : List Byte} {e : Ecc} {s : State} (hT : ([.regs, .tt, .flt, .icu, .hbm, .mem, .out] : List Part) ⊆ U) (hC0 : Change U r0 s) :
    Change U r0 (hbmServeWrite o data e s) := by
  have k1 : ([.regs] : List Part) ⊆ U := List.Subset.trans (by decide) hT
  have k2 : ([.mem] : List Part) ⊆ U := List.Subset.trans (by decide) hT
  have k3 : ([.hbm] : List Part) ⊆ U := List.Subset.trans (by decide) hT
  have k4 : ([.regs, .tt, .flt, .icu, .hbm, .out] : List Part) ⊆ U := List.Subset.trans (by decide) hT
  unfold hbmServeWrite
  repeat' first
    | with_reducible exact hC0
    | with_reducible refine Change.ite (fun _ => ?_) (fun _ => ?_)
    | with_reducible refine State.bump_change k1 ?_
    | with_reducible refine State.hbmWrite_change k2 ?_
    | with_reducible refine setPoison_change k3 ?_
    | with_reducible refine eccFound_change k4 ?_
    | with_reducible refine Change.foldl (fun _ _ _ => ?_) ?_
    | with_reducible assumption
    | split
    | dsimp only

theorem hbmServe_change {U : List Part} {r0 : State} {f : Frame} {e : Ecc} {s : State} (hT : ([.regs, .tt, .flt, .icu, .swc, .hbm, .mem, .out, .free] : List Part) ⊆ U) (hC0 : Change U r0 s) :
    Change U r0 (hbmServe f e s) := by
  have k1 : ([.swc] : List Part) ⊆ U := List.Subset.trans (by decide) hT
  have k2 : ([.regs, .tt, .flt, .icu, .hbm, .out] : List Part) ⊆ U := List.Subset.trans (by decide) hT
  have k3 : ([.free] : List Part) ⊆ U := List.Subset.trans (by decide) hT
  have k4 : ([.regs, .tt, .flt, .icu, .hbm, .mem, .out] : List Part) ⊆ U := List.Subset.trans (by decide) hT
  unfold hbmServe
  repeat' first
    | with_reducible exact hC0
    | with_reducible refine Change.ite (fun _ => ?_) (fun _ => ?_)
    | with_reducible refine State.inject_change k1 ?_
    | with_reducible refine hbmServeRead_change k2 ?_
    | (refine Change.of_pair (by assumption) ?_; with_reducible refine hbmServeRead_change k2 ?_)
    | with_reducible refine State.useFreeBytes_change k3 ?_
    | with_reducible refine hbmServeWrite_change k4 ?_
    | with_reducible refine Change.foldl (fun _ _ _ => ?_) ?_
    | with_reducible refine Change.foldl_fst (fun _ _ _ => ?_) ?_
    | with_reducible refine Change.ite_fst (fun _ => ?_) (fun _ => ?_)
    | with_reducible assumption
    | split
    | dsimp only

theorem srDone_change {U : List Part} {r0 : State} {s : State} (hT : ([.regs, .hbm] : List Part) ⊆ U) (hC0 : Change U r0 s) :
    Change U r0 (srDone s) := by
  have k1 : ([.regs] : List Part) ⊆ U := List.Subset.trans (by decide) hT
  have k2 : ([.hbm] : List Part) ⊆ U := List.Subset.trans (by decide) hT
  unfold srDone
  repeat' first
    | with_reducible exact hC0
    | with_reducible refine Change.ite (fun _ => ?_) (fun _ => ?_)
    | with_reducible refine State.put_change k1 ?_
    | with_reducible refine State.peak_change k1 ?_
    | with_reducible refine Change.foldl (fun _ _ _ => ?_) ?_
    | with_reducible assumption
    | split
    | dsimp only
    | with_reducible refine Change.set_hbm k2 ?_

theorem pcTestStart_change {U : List Part} {r0 : State} {p : Nat} {s : State} (hT : ([.regs, .flt, .hbm] : List Part) ⊆ U) (hC0 : Change U r0 s) :
    Change U r0 (pcTestStart p s) := by
  have k1 : ([.regs, .flt] : List Part) ⊆ U := List.Subset.trans (by decide) hT
  have k2 : ([.hbm] : List Part) ⊆ U := List.Subset.trans (by decide) hT
  unfold pcTestStart
  repeat' first
    | with_reducible exact hC0
    | with_reducible refine Change.ite (fun _ => ?_) (fun _ => ?_)
    | with_reducible refine startTest_change k1 ?_
    | with_reducible refine Change.foldl (fun _ _ _ => ?_) ?_
    | with_reducible assumption
    | split
    | dsimp only
    | with_reducible refine Change.set_hbm k2 ?_

end Sys2Proof.Machine
end

