-- ==== Sys2Proof/Laws/HostCfg.lean ====
section
/-! SUPPORT. What each operation of Machine/HostCfg.lean may change. -/
set_option linter.all false
set_option linter.unusedTactic false
set_option linter.unreachableTactic false

namespace Sys2Proof.Machine

open Sys2Proof

theorem vfEnable_change {U : List Part} {r0 : State} {p : Nat} {on : Bool} {s : State} (hT : ([.regs, .tt, .checks, .flt, .icu, .fns, .msix, .hep, .wxl, .qen, .ctx, .qaux, .spl, .swc, .ports, .cores, .prl, .out] : List Part) ⊆ U) (hC0 : Change U r0 s) :
    Change U r0 (vfEnable p on s) := by
  have k1 : ([.regs, .icu] : List Part) ⊆ U := List.Subset.trans (by decide) hT
  have k2 : ([.fns] : List Part) ⊆ U := List.Subset.trans (by decide) hT
  unfold vfEnable
  repeat' first
    | with_reducible exact hC0
    | with_reducible refine Change.ite (fun _ => ?_) (fun _ => ?_)
    | with_reducible refine vfsRemove_change hT ?_
    | with_reducible refine icuOfferAll_change k1 ?_
    | with_reducible refine State.setFn_change k2 ?_
    | with_reducible refine Change.foldl (fun _ _ _ => ?_) ?_
    | with_reducible assumption
    | split
    | dsimp only

theorem flrStart_change {U : List Part} {r0 : State} {f : Nat} {s : State} (hT : ([.regs, .tt, .checks, .flt, .icu, .fns, .msix, .hep, .wxl, .qen, .ctx, .qaux, .spl, .swc, .ports, .cores, .prl, .out] : List Part) ⊆ U) (hC0 : Change U r0 s) :
    Change U r0 (flrStart f s) := by
  have k1 : ([.regs, .tt, .flt, .icu, .fns, .hep, .wxl, .qaux, .spl, .swc, .ports, .cores, .out] : List Part) ⊆ U := List.Subset.trans (by decide) hT
  unfold flrStart
  repeat' first
    | with_reducible exact hC0
    | with_reducible refine Change.ite (fun _ => ?_) (fun _ => ?_)
    | with_reducible refine vfsRemove_change hT ?_
    | with_reducible refine flrBegin_change k1 ?_
    | with_reducible refine Change.foldl (fun _ _ _ => ?_) ?_
    | with_reducible assumption
    | split
    | dsimp only

theorem flrEnd_change {U : List Part} {r0 : State} {f : Nat} {s : State} (hT : ([.regs, .tt, .dev, .checks, .flt, .icu, .fns, .msix, .hep, .wxl, .qen, .ctx, .qaux, .spl, .swc, .ports, .cores, .prl, .out] : List Part) ⊆ U) (hC0 : Change U r0 s) :
    Change U r0 (flrEnd f s) := by
  have k1 : ([.regs, .tt, .dev, .flt, .icu, .spl, .out] : List Part) ⊆ U := List.Subset.trans (by decide) hT
  have k2 : ([.regs, .icu] : List Part) ⊆ U := List.Subset.trans (by decide) hT
  have k3 : ([.regs, .tt, .checks, .flt, .icu, .fns, .msix, .hep, .wxl, .qen, .ctx, .qaux, .spl, .swc, .ports, .cores, .prl, .out] : List Part) ⊆ U := List.Subset.trans (by decide) hT
  unfold flrEnd
  repeat' first
    | with_reducible exact hC0
    | with_reducible refine Change.ite (fun _ => ?_) (fun _ => ?_)
    | with_reducible refine quiesceClear_change k1 ?_
    | with_reducible refine icuOfferAll_change k2 ?_
    | with_reducible refine flrFinish_change k3 ?_
    | with_reducible refine Change.foldl (fun _ _ _ => ?_) ?_
    | with_reducible assumption
    | split
    | dsimp only

theorem bmeWrite_change {U : List Part} {r0 : State} {f : Nat} {on : Bool} {s : State} (hT : ([.regs, .tt, .checks, .flt, .icu, .fns, .msix, .hep, .wxl, .qen, .ctx, .qaux, .spl, .swc, .ports, .cores, .prl, .out] : List Part) ⊆ U) (hC0 : Change U r0 s) :
    Change U r0 (bmeWrite f on s) := by
  have k1 : ([.regs, .icu, .fns, .msix, .hep, .swc, .out] : List Part) ⊆ U := List.Subset.trans (by decide) hT
  have k2 : ([.regs, .tt, .checks, .flt, .icu, .fns, .hep, .wxl, .qen, .ctx, .qaux, .spl, .swc, .ports, .cores, .prl, .out] : List Part) ⊆ U := List.Subset.trans (by decide) hT
  have k3 : ([.fns] : List Part) ⊆ U := List.Subset.trans (by decide) hT
  unfold bmeWrite
  repeat' first
    | with_reducible exact hC0
    | with_reducible refine Change.ite (fun _ => ?_) (fun _ => ?_)
    | with_reducible refine fnGo_change k1 ?_
    | with_reducible refine fnStop_change k2 ?_
    | with_reducible refine State.setFn_change k3 ?_
    | with_reducible refine Change.foldl (fun _ _ _ => ?_) ?_
    | with_reducible assumption
    | split
    | dsimp only

theorem pmeEnWrite_change {U : List Part} {r0 : State} {f : Nat} {en : Bool} {s : State} (hT : ([.regs, .tt, .fns, .out] : List Part) ⊆ U) (hC0 : Change U r0 s) :
    Change U r0 (pmeEnWrite f en s) := by
  have k1 : ([.regs, .tt, .out] : List Part) ⊆ U := List.Subset.trans (by decide) hT
  have k2 : ([.regs] : List Part) ⊆ U := List.Subset.trans (by decide) hT
  have k3 : ([.fns] : List Part) ⊆ U := List.Subset.trans (by decide) hT
  have k4 : ([.tt] : List Part) ⊆ U := List.Subset.trans (by decide) hT
  unfold pmeEnWrite
  repeat' first
    | with_reducible exact hC0
    | with_reducible refine Change.ite (fun _ => ?_) (fun _ => ?_)
    | with_reducible refine pmeSend_change k1 ?_
    | with_reducible refine State.put_change k2 ?_
    | with_reducible refine State.setFn_change k3 ?_
    | with_reducible refine Change.foldl (fun _ _ _ => ?_) ?_
    | with_reducible assumption
    | split
    | dsimp only
    | with_reducible refine Change.set_tt k4 ?_

theorem powerState_change {U : List Part} {r0 : State} {f : Nat} {d3 : Bool} {s : State} (hT : ([.regs, .tt, .dev, .checks, .flt, .icu, .fns, .msix, .hep, .wxl, .qen, .ctx, .qaux, .spl, .swc, .ports, .cores, .prl, .out] : List Part) ⊆ U) (hC0 : Change U r0 s) :
    Change U r0 (powerState f d3 s) := by
  have k1 : ([.regs, .tt, .dev, .flt, .icu, .spl, .out] : List Part) ⊆ U := List.Subset.trans (by decide) hT
  have k2 : ([.regs, .icu, .fns, .msix, .hep, .swc, .out] : List Part) ⊆ U := List.Subset.trans (by decide) hT
  have k3 : ([.regs, .tt, .checks, .flt, .icu, .fns, .hep, .wxl, .qen, .ctx, .qaux, .spl, .swc, .ports, .cores, .prl, .out] : List Part) ⊆ U := List.Subset.trans (by decide) hT
  have k4 : ([.fns] : List Part) ⊆ U := List.Subset.trans (by decide) hT
  unfold powerState
  repeat' first
    | with_reducible exact hC0
    | with_reducible refine Change.ite (fun _ => ?_) (fun _ => ?_)
    | with_reducible refine quiesceSet_change k1 ?_
    | with_reducible refine quiesceClear_change k1 ?_
    | with_reducible refine fnGo_change k2 ?_
    | with_reducible refine fnStop_change k3 ?_
    | with_reducible refine State.setFn_change k4 ?_
    | with_reducible refine Change.foldl (fun _ _ _ => ?_) ?_
    | with_reducible assumption
    | split
    | dsimp only

theorem pmcsrWrite_change {U : List Part} {r0 : State} {f : Nat} {d3 : Bool} {pmeEn : Bool} {s : State} (hT : ([.regs, .tt, .dev, .checks, .flt, .icu, .fns, .msix, .hep, .wxl, .qen, .ctx, .qaux, .spl, .swc, .ports, .cores, .prl, .out] : List Part) ⊆ U) (hC0 : Change U r0 s) :
    Change U r0 (pmcsrWrite f d3 pmeEn s) := by
  have k1 : ([.regs, .tt, .fns, .out] : List Part) ⊆ U := List.Subset.trans (by decide) hT
  unfold pmcsrWrite
  repeat' first
    | with_reducible exact hC0
    | with_reducible refine Change.ite (fun _ => ?_) (fun _ => ?_)
    | with_reducible refine powerState_change hT ?_
    | with_reducible refine pmeEnWrite_change k1 ?_
    | with_reducible refine Change.foldl (fun _ _ _ => ?_) ?_
    | with_reducible assumption
    | split
    | dsimp only

theorem heldGo_change {U : List Part} {r0 : State} {f : Nat} {s : State} (hT : ([.regs, .icu, .fns, .msix, .swc, .out] : List Part) ⊆ U) (hC0 : Change U r0 s) :
    Change U r0 (heldGo f s) := by
  have k1 : ([.regs, .icu, .out] : List Part) ⊆ U := List.Subset.trans (by decide) hT
  have k2 : ([.icu] : List Part) ⊆ U := List.Subset.trans (by decide) hT
  unfold heldGo
  repeat' first
    | with_reducible exact hC0
    | with_reducible refine Change.ite (fun _ => ?_) (fun _ => ?_)
    | with_reducible refine hpDeliver_change hT ?_
    | with_reducible refine redeliver_change hT ?_
    | with_reducible refine intaSync_change k1 ?_
    | with_reducible refine Change.foldl (fun _ _ _ => ?_) ?_
    | with_reducible assumption
    | split
    | dsimp only
    | with_reducible refine Change.set_icu k2 ?_

theorem unmask_change {U : List Part} {r0 : State} {f : Nat} {w : Unmask} {s : State} (hT : ([.regs, .icu, .fns, .msix, .swc, .out] : List Part) ⊆ U) (hC0 : Change U r0 s) :
    Change U r0 (unmask f w s) := by
  have k1 : ([.msix] : List Part) ⊆ U := List.Subset.trans (by decide) hT
  have k2 : ([.icu] : List Part) ⊆ U := List.Subset.trans (by decide) hT
  have k3 : ([.fns, .swc] : List Part) ⊆ U := List.Subset.trans (by decide) hT
  have k4 : ([.fns] : List Part) ⊆ U := List.Subset.trans (by decide) hT
  unfold unmask
  repeat' first
    | with_reducible exact hC0
    | with_reducible refine Change.ite (fun _ => ?_) (fun _ => ?_)
    | with_reducible refine heldGo_change hT ?_
    | with_reducible refine State.setMsixE_change k1 ?_
    | with_reducible refine msixPendGo_change k2 ?_
    | with_reducible refine msiPendGo_change k3 ?_
    | with_reducible refine State.setFn_change k4 ?_
    | with_reducible refine Change.foldl (fun _ _ _ => ?_) ?_
    | with_reducible assumption
    | split
    | dsimp only

theorem cmdWrite_change {U : List Part} {r0 : State} {f : Nat} {v : Nat} {s : State} (hT : ([.regs, .tt, .checks, .flt, .icu, .fns, .msix, .hep, .wxl, .qen, .ctx, .qaux, .spl, .swc, .ports, .cores, .prl, .out] : List Part) ⊆ U) (hC0 : Change U r0 s) :
    Change U r0 (cmdWrite f v s) := by
  have k1 : ([.regs, .icu, .fns, .msix, .swc, .out] : List Part) ⊆ U := List.Subset.trans (by decide) hT
  have k2 : ([.regs, .icu, .out] : List Part) ⊆ U := List.Subset.trans (by decide) hT
  have k3 : ([.fns] : List Part) ⊆ U := List.Subset.trans (by decide) hT
  unfold cmdWrite
  repeat' first
    | with_reducible exact hC0
    | with_reducible refine Change.ite (fun _ => ?_) (fun _ => ?_)
    | with_reducible refine redeliver_change k1 ?_
    | with_reducible refine intaSync_change k2 ?_
    | with_reducible refine bmeWrite_change hT ?_
    | with_reducible refine State.setFn_change k3 ?_
    | with_reducible refine Change.foldl (fun _ _ _ => ?_) ?_
    | with_reducible assumption
    | split
    | dsimp only

theorem msiCtl_change {U : List Part} {r0 : State} {f : Nat} {v : Nat} {s : State} (hT : ([.regs, .icu, .fns, .msix, .swc, .out] : List Part) ⊆ U) (hC0 : Change U r0 s) :
    Change U r0 (msiCtl f v s) := by
  have k1 : ([.regs, .icu, .out] : List Part) ⊆ U := List.Subset.trans (by decide) hT
  have k2 : ([.fns] : List Part) ⊆ U := List.Subset.trans (by decide) hT
  unfold msiCtl
  repeat' first
    | with_reducible exact hC0
    | with_reducible refine Change.ite (fun _ => ?_) (fun _ => ?_)
    | with_reducible refine intaSync_change k1 ?_
    | with_reducible refine unmask_change hT ?_
    | with_reducible refine State.setFn_change k2 ?_
    | with_reducible refine Change.foldl (fun _ _ _ => ?_) ?_
    | with_reducible assumption
    | split
    | dsimp only

theorem msixCtl_change {U : List Part} {r0 : State} {f : Nat} {v : Nat} {s : State} (hT : ([.regs, .icu, .fns, .msix, .swc, .out] : List Part) ⊆ U) (hC0 : Change U r0 s) :
    Change U r0 (msixCtl f v s) := by
  have k1 : ([.regs, .icu, .out] : List Part) ⊆ U := List.Subset.trans (by decide) hT
  have k2 : ([.fns] : List Part) ⊆ U := List.Subset.trans (by decide) hT
  unfold msixCtl
  repeat' first
    | with_reducible exact hC0
    | with_reducible refine Change.ite (fun _ => ?_) (fun _ => ?_)
    | with_reducible refine intaSync_change k1 ?_
    | with_reducible refine unmask_change hT ?_
    | with_reducible refine State.setFn_change k2 ?_
    | with_reducible refine Change.foldl (fun _ _ _ => ?_) ?_
    | with_reducible assumption
    | split
    | dsimp only

theorem extWrite_change {U : List Part} {r0 : State} {f : Nat} {off : Nat} {v : Nat} {s : State} (hT : ([.regs, .tt, .checks, .flt, .icu, .fns, .msix, .hep, .wxl, .qen, .ctx, .qaux, .spl, .swc, .ports, .cores, .prl, .out] : List Part) ⊆ U) (hC0 : Change U r0 s) :
    Change U r0 (extWrite f off v s) := by
  have k1 : ([.fns] : List Part) ⊆ U := List.Subset.trans (by decide) hT
  have k2 : ([.wxl] : List Part) ⊆ U := List.Subset.trans (by decide) hT
  unfold extWrite
  repeat' first
    | with_reducible exact hC0
    | with_reducible refine Change.ite (fun _ => ?_) (fun _ => ?_)
    | with_reducible refine vfEnable_change hT ?_
    | with_reducible refine State.setFn_change k1 ?_
    | with_reducible refine Change.foldl (fun _ _ _ => ?_) ?_
    | with_reducible assumption
    | split
    | dsimp only
    | with_reducible refine Change.set_wxl k2 ?_

theorem barCfg_change {U : List Part} {r0 : State} {f : Nat} {off : Nat} {v : Nat} {s : State} (hT : ([.fns] : List Part) ⊆ U) (hC0 : Change U r0 s) :
    Change U r0 (barCfg f off v s) := by
  unfold barCfg
  repeat' first
    | with_reducible exact hC0
    | with_reducible refine Change.ite (fun _ => ?_) (fun _ => ?_)
    | with_reducible refine State.setFn_change hT ?_
    | with_reducible refine Change.foldl (fun _ _ _ => ?_) ?_
    | with_reducible assumption
    | split
    | dsimp only

theorem pcieWrite_change {U : List Part} {r0 : State} {f : Nat} {off : Nat} {v : Nat} {one : Nat} {s : State} (hT : ([.regs, .tt, .checks, .flt, .icu, .fns, .msix, .hep, .wxl, .qen, .ctx, .qaux, .spl, .swc, .ports, .cores, .prl, .out] : List Part) ⊆ U) (hC0 : Change U r0 s) :
    Change U r0 (pcieWrite f off v one s) := by
  have k1 : ([.fns] : List Part) ⊆ U := List.Subset.trans (by decide) hT
  unfold pcieWrite
  repeat' first
    | with_reducible exact hC0
    | with_reducible refine Change.ite (fun _ => ?_) (fun _ => ?_)
    | with_reducible refine flrStart_change hT ?_
    | with_reducible refine State.setFn_change k1 ?_
    | with_reducible refine Change.foldl (fun _ _ _ => ?_) ?_
    | with_reducible assumption
    | split
    | dsimp only

theorem pmWrite_change {U : List Part} {r0 : State} {f : Nat} {v : Nat} {one : Nat} {s : State} (hT : ([.regs, .tt, .dev, .checks, .flt, .icu, .fns, .msix, .hep, .wxl, .qen, .ctx, .qaux, .spl, .swc, .ports, .cores, .prl, .out] : List Part) ⊆ U) (hC0 : Change U r0 s) :
    Change U r0 (pmWrite f v one s) := by
  have k1 : ([.tt] : List Part) ⊆ U := List.Subset.trans (by decide) hT
  unfold pmWrite
  repeat' first
    | with_reducible exact hC0
    | with_reducible refine Change.ite (fun _ => ?_) (fun _ => ?_)
    | with_reducible refine pmcsrWrite_change hT ?_
    | with_reducible refine Change.foldl (fun _ _ _ => ?_) ?_
    | with_reducible assumption
    | split
    | dsimp only
    | with_reducible refine Change.set_tt k1 ?_

theorem cfgWrite_change {U : List Part} {r0 : State} {f : Nat} {off : Nat} {be : Nat} {data : Nat} {s : State} (hT : ([.regs, .tt, .dev, .checks, .flt, .icu, .fns, .msix, .hep, .wxl, .qen, .ctx, .qaux, .spl, .swc, .ports, .cores, .prl, .out] : List Part) ⊆ U) (hC0 : Change U r0 s) :
    Change U r0 (cfgWrite f off be data s) := by
  have k1 : ([.regs, .tt, .checks, .flt, .icu, .fns, .msix, .hep, .wxl, .qen, .ctx, .qaux, .spl, .swc, .ports, .cores, .prl, .out] : List Part) ⊆ U := List.Subset.trans (by decide) hT
  have k2 : ([.regs, .icu, .fns, .msix, .swc, .out] : List Part) ⊆ U := List.Subset.trans (by decide) hT
  have k3 : ([.fns] : List Part) ⊆ U := List.Subset.trans (by decide) hT
  have k4 : ([.fns, .swc] : List Part) ⊆ U := List.Subset.trans (by decide) hT
  unfold cfgWrite
  repeat' first
    | with_reducible exact hC0
    | with_reducible refine Change.ite (fun _ => ?_) (fun _ => ?_)
    | with_reducible refine pcieWrite_change k1 ?_
    | with_reducible refine pmWrite_change hT ?_
    | with_reducible refine msiCtl_change k2 ?_
    | with_reducible refine msixCtl_change k2 ?_
    | with_reducible refine extWrite_change k1 ?_
    | with_reducible refine barCfg_change k3 ?_
    | with_reducible refine cmdWrite_change k1 ?_
    | with_reducible refine msiPendGo_change k4 ?_
    | with_reducible refine State.setFn_change k3 ?_
    | with_reducible refine Change.foldl (fun _ _ _ => ?_) ?_
    | with_reducible assumption
    | split
    | dsimp only

theorem cfgReadDone_change {U : List Part} {r0 : State} {f : Nat} {off : Nat} {s : State} (hT : ([.free] : List Part) ⊆ U) (hC0 : Change U r0 s) :
    Change U r0 (cfgReadDone f off s) := by
  unfold cfgReadDone
  repeat' first
    | with_reducible exact hC0
    | with_reducible refine Change.ite (fun _ => ?_) (fun _ => ?_)
    | with_reducible refine State.useFree_change hT ?_
    | with_reducible refine Change.foldl (fun _ _ _ => ?_) ?_
    | with_reducible assumption
    | split
    | dsimp only

end Sys2Proof.Machine
end

