-- ==== Sys2Proof/Laws/HostReq.lean ====
section
/-! SUPPORT. What each operation of Machine/HostReq.lean may change. -/
set_option linter.all false
set_option linter.unusedTactic false
set_option linter.unreachableTactic false

namespace Sys2Proof.Machine

open Sys2Proof

theorem hostUr_change {U : List Part} {r0 : State} {r : HostReq} {s : State} (hT : ([.regs, .out] : List Part) ⊆ U) (hC0 : Change U r0 s) :
    Change U r0 (hostUr r s) := by
  unfold hostUr
  repeat' first
    | with_reducible exact hC0
    | with_reducible refine Change.ite (fun _ => ?_) (fun _ => ?_)
    | with_reducible refine hostRefuse_change hT ?_
    | with_reducible refine Change.foldl (fun _ _ _ => ?_) ?_
    | with_reducible assumption
    | split
    | dsimp only

theorem hostCa_change {U : List Part} {r0 : State} {r : HostReq} {s : State} (hT : ([.regs, .out] : List Part) ⊆ U) (hC0 : Change U r0 s) :
    Change U r0 (hostCa r s) := by
  unfold hostCa
  repeat' first
    | with_reducible exact hC0
    | with_reducible refine Change.ite (fun _ => ?_) (fun _ => ?_)
    | with_reducible refine hostRefuse_change hT ?_
    | with_reducible refine Change.foldl (fun _ _ _ => ?_) ?_
    | with_reducible assumption
    | split
    | dsimp only

theorem hostPoisoned_change {U : List Part} {r0 : State} {r : HostReq} {s : State} (hT : ([.out] : List Part) ⊆ U) (hC0 : Change U r0 s) :
    Change U r0 (hostPoisoned r s) := by
  unfold hostPoisoned
  repeat' first
    | with_reducible exact hC0
    | with_reducible refine Change.ite (fun _ => ?_) (fun _ => ?_)
    | with_reducible refine State.emit_change hT ?_
    | with_reducible refine Change.foldl (fun _ _ _ => ?_) ?_
    | with_reducible assumption
    | split
    | dsimp only

theorem hostControl_change {U : List Part} {r0 : State} {r : HostReq} {s : State} (hT : ([.regs, .tt, .pins, .dev, .img, .checks, .flt, .icu, .hep, .wxl, .qen, .ctx, .qaux, .spl, .swc, .ports, .hbm, .mem, .gdc, .cores, .tcm, .prl, .out] : List Part) ⊆ U) (hC0 : Change U r0 s) :
    Change U r0 (hostControl r s) := by
  have k1 : ([.regs, .icu, .out] : List Part) ⊆ U := List.Subset.trans (by decide) hT
  have k2 : ([.regs, .out] : List Part) ⊆ U := List.Subset.trans (by decide) hT
  have k3 : ([.out] : List Part) ⊆ U := List.Subset.trans (by decide) hT
  unfold hostControl
  repeat' first
    | with_reducible exact hC0
    | with_reducible refine Change.ite (fun _ => ?_) (fun _ => ?_)
    | with_reducible refine ctlRead_change k1 ?_
    | (refine Change.of_pair (by assumption) ?_; with_reducible refine ctlRead_change k1 ?_)
    | with_reducible refine hostUr_change k2 ?_
    | with_reducible refine hostDone_change k2 ?_
    | with_reducible refine ctlWriteBy_change hT ?_
    | with_reducible refine hostPoisoned_change k3 ?_
    | with_reducible refine Change.foldl (fun _ _ _ => ?_) ?_
    | with_reducible refine Change.foldl_fst (fun _ _ _ => ?_) ?_
    | with_reducible refine Change.ite_fst (fun _ => ?_) (fun _ => ?_)
    | with_reducible assumption
    | split
    | dsimp only

theorem fnComplete_change {U : List Part} {r0 : State} {f : Nat} {n : Nat} {s : State} (hT : ([.regs, .tt, .flt, .icu, .out] : List Part) ⊆ U) (hC0 : Change U r0 s) :
    Change U r0 (fnComplete f n s) := by
  have k1 : ([.regs, .icu] : List Part) ⊆ U := List.Subset.trans (by decide) hT
  unfold fnComplete
  repeat' first
    | with_reducible exact hC0
    | with_reducible refine Change.ite (fun _ => ?_) (fun _ => ?_)
    | with_reducible refine faultEvent_change hT ?_
    | with_reducible refine icuEndClaim_change k1 ?_
    | with_reducible refine Change.foldl (fun _ _ _ => ?_) ?_
    | with_reducible assumption
    | split
    | dsimp only

theorem fnFaultClear_change {U : List Part} {r0 : State} {f : Nat} {v : Word} {s : State} (hT : ([.regs] : List Part) ⊆ U) (hC0 : Change U r0 s) :
    Change U r0 (fnFaultClear f v s) := by
  unfold fnFaultClear
  repeat' first
    | with_reducible exact hC0
    | with_reducible refine Change.ite (fun _ => ?_) (fun _ => ?_)
    | with_reducible refine State.setReg_change hT ?_
    | with_reducible refine Change.foldl (fun _ _ _ => ?_) ?_
    | with_reducible assumption
    | split
    | dsimp only

theorem msixWrite_change {U : List Part} {r0 : State} {f : Nat} {v : Nat} {j : Nat} {w : Nat} {s : State} (hT : ([.icu, .msix] : List Part) ⊆ U) (hC0 : Change U r0 s) :
    Change U r0 (msixWrite f v j w s) := by
  have k1 : ([.msix] : List Part) ⊆ U := List.Subset.trans (by decide) hT
  have k2 : ([.icu] : List Part) ⊆ U := List.Subset.trans (by decide) hT
  unfold msixWrite
  repeat' first
    | with_reducible exact hC0
    | with_reducible refine Change.ite (fun _ => ?_) (fun _ => ?_)
    | with_reducible refine State.setMsixE_change k1 ?_
    | with_reducible refine msixPendGo_change k2 ?_
    | with_reducible refine Change.foldl (fun _ _ _ => ?_) ?_
    | with_reducible assumption
    | split
    | dsimp only

theorem msixTable_change {U : List Part} {r0 : State} {r : HostReq} {s : State} (hT : ([.icu, .msix] : List Part) ⊆ U) (hC0 : Change U r0 s) :
    Change U r0 (msixTable r s) := by
  unfold msixTable
  repeat' first
    | with_reducible exact hC0
    | with_reducible refine Change.ite (fun _ => ?_) (fun _ => ?_)
    | with_reducible refine msixWrite_change hT ?_
    | with_reducible refine Change.foldl (fun _ _ _ => ?_) ?_
    | with_reducible assumption
    | split
    | dsimp only

theorem hostDoorbell_change {U : List Part} {r0 : State} {f : Nat} {v : Word} {s : State} (hT : ([.regs, .tt, .checks, .flt, .icu, .hep, .wxl, .qen, .ctx, .qaux, .spl, .swc, .ports, .cores, .prl, .out] : List Part) ⊆ U) (hC0 : Change U r0 s) :
    Change U r0 (hostDoorbell f v s) := by
  have k1 : ([.regs, .tt, .flt, .icu, .out] : List Part) ⊆ U := List.Subset.trans (by decide) hT
  have k2 : ([.regs, .out] : List Part) ⊆ U := List.Subset.trans (by decide) hT
  have k3 : ([.regs] : List Part) ⊆ U := List.Subset.trans (by decide) hT
  unfold hostDoorbell
  repeat' first
    | with_reducible exact hC0
    | with_reducible refine Change.ite (fun _ => ?_) (fun _ => ?_)
    | with_reducible refine dbDrop_change k1 ?_
    | with_reducible refine hostRefuse_change k2 ?_
    | with_reducible refine fnFault_change k3 ?_
    | with_reducible refine qArrive_change hT ?_
    | with_reducible refine Change.foldl (fun _ _ _ => ?_) ?_
    | with_reducible assumption
    | split
    | dsimp only

theorem pageBytes_change {U : List Part} {r0 : State} {f : Nat} {off : Nat} {len : Nat} {s : State} (hT : ([.regs, .icu, .out] : List Part) ⊆ U) (hC0 : Change U r0 s) :
    Change U r0 (pageBytes f off len s).1 := by
  unfold pageBytes
  repeat' first
    | with_reducible exact hC0
    | with_reducible refine Change.ite (fun _ => ?_) (fun _ => ?_)
    | with_reducible refine pageRead_change hT ?_
    | (refine Change.of_pair (by assumption) ?_; with_reducible refine pageRead_change hT ?_)
    | with_reducible refine Change.foldl (fun _ _ _ => ?_) ?_
    | with_reducible refine Change.foldl_fst (fun _ _ _ => ?_) ?_
    | with_reducible refine Change.ite_fst (fun _ => ?_) (fun _ => ?_)
    | with_reducible assumption
    | split
    | dsimp only

theorem pageStore_change {U : List Part} {r0 : State} {r : HostReq} {s : State} (hT : ([.regs, .tt, .checks, .flt, .icu, .msix, .hep, .wxl, .qen, .ctx, .qaux, .spl, .swc, .ports, .cores, .prl, .out] : List Part) ⊆ U) (hC0 : Change U r0 s) :
    Change U r0 (pageStore r s) := by
  have k1 : ([.icu, .msix] : List Part) ⊆ U := List.Subset.trans (by decide) hT
  have k2 : ([.regs, .tt, .flt, .icu, .out] : List Part) ⊆ U := List.Subset.trans (by decide) hT
  have k3 : ([.regs, .tt, .checks, .flt, .icu, .hep, .wxl, .qen, .ctx, .qaux, .spl, .swc, .ports, .cores, .prl, .out] : List Part) ⊆ U := List.Subset.trans (by decide) hT
  have k4 : ([.regs] : List Part) ⊆ U := List.Subset.trans (by decide) hT
  unfold pageStore
  repeat' first
    | with_reducible exact hC0
    | with_reducible refine Change.ite (fun _ => ?_) (fun _ => ?_)
    | with_reducible refine msixTable_change k1 ?_
    | with_reducible refine noticePage_change k2 ?_
    | with_reducible refine hostDoorbell_change k3 ?_
    | with_reducible refine fnFaultClear_change k4 ?_
    | with_reducible refine fnComplete_change k2 ?_
    | with_reducible refine Change.foldl (fun _ _ _ => ?_) ?_
    | with_reducible assumption
    | split
    | dsimp only

theorem hostPage_change {U : List Part} {r0 : State} {r : HostReq} {s : State} (hT : ([.regs, .tt, .checks, .flt, .icu, .msix, .hep, .wxl, .qen, .ctx, .qaux, .spl, .swc, .ports, .cores, .prl, .out] : List Part) ⊆ U) (hC0 : Change U r0 s) :
    Change U r0 (hostPage r s) := by
  have k1 : ([.regs, .out] : List Part) ⊆ U := List.Subset.trans (by decide) hT
  have k2 : ([.regs, .icu, .out] : List Part) ⊆ U := List.Subset.trans (by decide) hT
  have k3 : ([.out] : List Part) ⊆ U := List.Subset.trans (by decide) hT
  unfold hostPage
  repeat' first
    | with_reducible exact hC0
    | with_reducible refine Change.ite (fun _ => ?_) (fun _ => ?_)
    | with_reducible refine pageStore_change hT ?_
    | with_reducible refine hostUr_change k1 ?_
    | with_reducible refine pageBytes_change k2 ?_
    | (refine Change.of_pair (by assumption) ?_; with_reducible refine pageBytes_change k2 ?_)
    | with_reducible refine hostDone_change k1 ?_
    | with_reducible refine hostPoisoned_change k3 ?_
    | with_reducible refine Change.foldl (fun _ _ _ => ?_) ?_
    | with_reducible refine Change.foldl_fst (fun _ _ _ => ?_) ?_
    | with_reducible refine Change.ite_fst (fun _ => ?_) (fun _ => ?_)
    | with_reducible assumption
    | split
    | dsimp only

theorem hostWindow_change {U : List Part} {r0 : State} {r : HostReq} {b : Nat} {s : State} (hT : ([.regs, .tt, .flt, .icu, .hep, .wxl, .qaux, .swc, .ports, .cores, .out] : List Part) ⊆ U) (hC0 : Change U r0 s) :
    Change U r0 (hostWindow r b s) := by
  unfold hostWindow
  repeat' first
    | with_reducible exact hC0
    | with_reducible refine Change.ite (fun _ => ?_) (fun _ => ?_)
    | with_reducible refine wxlAccess_change hT ?_
    | with_reducible refine Change.foldl (fun _ _ _ => ?_) ?_
    | with_reducible assumption
    | split
    | dsimp only

theorem hostMem_change {U : List Part} {r0 : State} {r : HostReq} {s0 : State} (hT : ([.regs, .tt, .pins, .dev, .img, .checks, .flt, .icu, .msix, .hep, .wxl, .qen, .ctx, .qaux, .spl, .swc, .ports, .hbm, .mem, .gdc, .cores, .tcm, .prl, .out] : List Part) ⊆ U) (hC0 : Change U r0 s0) :
    Change U r0 (hostMem r s0) := by
  have k1 : ([.regs] : List Part) ⊆ U := List.Subset.trans (by decide) hT
  have k2 : ([.regs, .out] : List Part) ⊆ U := List.Subset.trans (by decide) hT
  have k3 : ([.regs, .tt, .checks, .flt, .icu, .msix, .hep, .wxl, .qen, .ctx, .qaux, .spl, .swc, .ports, .cores, .prl, .out] : List Part) ⊆ U := List.Subset.trans (by decide) hT
  have k4 : ([.regs, .tt, .flt, .icu, .hep, .wxl, .qaux, .swc, .ports, .cores, .out] : List Part) ⊆ U := List.Subset.trans (by decide) hT
  have k5 : ([.regs, .tt, .pins, .dev, .img, .checks, .flt, .icu, .hep, .wxl, .qen, .ctx, .qaux, .spl, .swc, .ports, .hbm, .mem, .gdc, .cores, .tcm, .prl, .out] : List Part) ⊆ U := List.Subset.trans (by decide) hT
  unfold hostMem
  repeat' first
    | with_reducible exact hC0
    | with_reducible refine Change.ite (fun _ => ?_) (fun _ => ?_)
    | with_reducible refine State.bump_change k1 ?_
    | with_reducible refine hostUr_change k2 ?_
    | with_reducible refine hostPage_change k3 ?_
    | with_reducible refine hostWindow_change k4 ?_
    | with_reducible refine hostControl_change k5 ?_
    | with_reducible refine hostCa_change k2 ?_
    | with_reducible refine l1Exit_change k1 ?_
    | with_reducible refine Change.foldl (fun _ _ _ => ?_) ?_
    | with_reducible assumption
    | split
    | dsimp only

theorem hostConfig_change {U : List Part} {r0 : State} {r : CfgReq} {s0 : State} (hT : ([.regs, .tt, .dev, .checks, .flt, .icu, .fns, .msix, .hep, .wxl, .qen, .ctx, .qaux, .spl, .swc, .ports, .cores, .prl, .out, .free] : List Part) ⊆ U) (hC0 : Change U r0 s0) :
    Change U r0 (hostConfig r s0) := by
  have k1 : ([.free] : List Part) ⊆ U := List.Subset.trans (by decide) hT
  have k2 : ([.regs, .tt, .dev, .checks, .flt, .icu, .fns, .msix, .hep, .wxl, .qen, .ctx, .qaux, .spl, .swc, .ports, .cores, .prl, .out] : List Part) ⊆ U := List.Subset.trans (by decide) hT
  have k3 : ([.regs, .out] : List Part) ⊆ U := List.Subset.trans (by decide) hT
  have k4 : ([.regs] : List Part) ⊆ U := List.Subset.trans (by decide) hT
  have k5 : ([.hep] : List Part) ⊆ U := List.Subset.trans (by decide) hT
  unfold hostConfig
  repeat' first
    | with_reducible exact hC0
    | with_reducible refine Change.ite (fun _ => ?_) (fun _ => ?_)
    | with_reducible refine cfgReadDone_change k1 ?_
    | with_reducible refine cfgWrite_change k2 ?_
    | with_reducible refine hepTlp_change k3 ?_
    | with_reducible refine l1Exit_change k4 ?_
    | with_reducible refine Change.foldl (fun _ _ _ => ?_) ?_
    | with_reducible assumption
    | split
    | dsimp only
    | with_reducible refine Change.set_hep k5 ?_

end Sys2Proof.Machine
end

