-- ==== Sys2Proof/Laws/Host.lean ====
section
/-! SUPPORT. What each operation of Machine/Host.lean may change. -/
set_option linter.all false
set_option linter.unusedTactic false
set_option linter.unreachableTactic false

namespace Sys2Proof.Machine

open Sys2Proof

theorem doConfigRequest_change {U : List Part} {r0 : State} {r : CfgReq} {s : State} (hT : ([.regs, .tt, .dev, .checks, .flt, .icu, .fns, .msix, .hep, .wxl, .qen, .ctx, .qaux, .spl, .swc, .ports, .cores, .prl, .out, .free] : List Part) ⊆ U) (hC0 : Change U r0 s) :
    Change U r0 (doConfigRequest r s) := by
  unfold doConfigRequest
  repeat' first
    | with_reducible exact hC0
    | with_reducible refine Change.ite (fun _ => ?_) (fun _ => ?_)
    | with_reducible refine hostConfig_change hT ?_
    | with_reducible refine Change.foldl (fun _ _ _ => ?_) ?_
    | with_reducible assumption
    | split
    | dsimp only

theorem doVfEnableWrite_change {U : List Part} {r0 : State} {pf : Nat} {vfe : Bool} {s : State} (hT : ([.regs, .tt, .checks, .flt, .icu, .fns, .msix, .hep, .wxl, .qen, .ctx, .qaux, .spl, .swc, .ports, .cores, .prl, .out] : List Part) ⊆ U) (hC0 : Change U r0 s) :
    Change U r0 (doVfEnableWrite pf vfe s) := by
  unfold doVfEnableWrite
  repeat' first
    | with_reducible exact hC0
    | with_reducible refine Change.ite (fun _ => ?_) (fun _ => ?_)
    | with_reducible refine vfEnable_change hT ?_
    | with_reducible refine Change.foldl (fun _ _ _ => ?_) ?_
    | with_reducible assumption
    | split
    | dsimp only

theorem doInitiateFlr_change {U : List Part} {r0 : State} {fn : Nat} {s : State} (hT : ([.regs, .tt, .checks, .flt, .icu, .fns, .msix, .hep, .wxl, .qen, .ctx, .qaux, .spl, .swc, .ports, .cores, .prl, .out] : List Part) ⊆ U) (hC0 : Change U r0 s) :
    Change U r0 (doInitiateFlr fn s) := by
  unfold doInitiateFlr
  repeat' first
    | with_reducible exact hC0
    | with_reducible refine Change.ite (fun _ => ?_) (fun _ => ?_)
    | with_reducible refine flrStart_change hT ?_
    | with_reducible refine Change.foldl (fun _ _ _ => ?_) ?_
    | with_reducible assumption
    | split
    | dsimp only

theorem doFlrEnd_change {U : List Part} {r0 : State} {fn : Nat} {s : State} (hT : ([.regs, .tt, .dev, .checks, .flt, .icu, .fns, .msix, .hep, .wxl, .qen, .ctx, .qaux, .spl, .swc, .ports, .cores, .prl, .out] : List Part) ⊆ U) (hC0 : Change U r0 s) :
    Change U r0 (doFlrEnd fn s) := by
  unfold doFlrEnd
  repeat' first
    | with_reducible exact hC0
    | with_reducible refine Change.ite (fun _ => ?_) (fun _ => ?_)
    | with_reducible refine flrEnd_change hT ?_
    | with_reducible refine Change.foldl (fun _ _ _ => ?_) ?_
    | with_reducible assumption
    | split
    | dsimp only

theorem doBusMasterEnableClear_change {U : List Part} {r0 : State} {fn : Nat} {s : State} (hT : ([.regs, .tt, .checks, .flt, .icu, .fns, .msix, .hep, .wxl, .qen, .ctx, .qaux, .spl, .swc, .ports, .cores, .prl, .out] : List Part) ⊆ U) (hC0 : Change U r0 s) :
    Change U r0 (doBusMasterEnableClear fn s) := by
  unfold doBusMasterEnableClear
  repeat' first
    | with_reducible exact hC0
    | with_reducible refine Change.ite (fun _ => ?_) (fun _ => ?_)
    | with_reducible refine bmeWrite_change hT ?_
    | with_reducible refine Change.foldl (fun _ _ _ => ?_) ?_
    | with_reducible assumption
    | split
    | dsimp only

theorem doBusMasterEnableSet_change {U : List Part} {r0 : State} {fn : Nat} {s : State} (hT : ([.regs, .tt, .checks, .flt, .icu, .fns, .msix, .hep, .wxl, .qen, .ctx, .qaux, .spl, .swc, .ports, .cores, .prl, .out] : List Part) ⊆ U) (hC0 : Change U r0 s) :
    Change U r0 (doBusMasterEnableSet fn s) := by
  unfold doBusMasterEnableSet
  repeat' first
    | with_reducible exact hC0
    | with_reducible refine Change.ite (fun _ => ?_) (fun _ => ?_)
    | with_reducible refine bmeWrite_change hT ?_
    | with_reducible refine Change.foldl (fun _ _ _ => ?_) ?_
    | with_reducible assumption
    | split
    | dsimp only

theorem doPowerStateWrite_change {U : List Part} {r0 : State} {fn : Nat} {d3 : Bool} {pmeEn : Bool} {s : State} (hT : ([.regs, .tt, .dev, .checks, .flt, .icu, .fns, .msix, .hep, .wxl, .qen, .ctx, .qaux, .spl, .swc, .ports, .cores, .prl, .out] : List Part) ⊆ U) (hC0 : Change U r0 s) :
    Change U r0 (doPowerStateWrite fn d3 pmeEn s) := by
  unfold doPowerStateWrite
  repeat' first
    | with_reducible exact hC0
    | with_reducible refine Change.ite (fun _ => ?_) (fun _ => ?_)
    | with_reducible refine pmcsrWrite_change hT ?_
    | with_reducible refine Change.foldl (fun _ _ _ => ?_) ?_
    | with_reducible assumption
    | split
    | dsimp only

theorem doMsixUnmask_change {U : List Part} {r0 : State} {fn : Nat} {what : Unmask} {s : State} (hT : ([.regs, .icu, .fns, .msix, .swc, .out] : List Part) ⊆ U) (hC0 : Change U r0 s) :
    Change U r0 (doMsixUnmask fn what s) := by
  unfold doMsixUnmask
  repeat' first
    | with_reducible exact hC0
    | with_reducible refine Change.ite (fun _ => ?_) (fun _ => ?_)
    | with_reducible refine unmask_change hT ?_
    | with_reducible refine Change.foldl (fun _ _ _ => ?_) ?_
    | with_reducible assumption
    | split
    | dsimp only

theorem doPmeTurnOff_change {U : List Part} {r0 : State} {s : State} (hT : ([.regs, .out] : List Part) ⊆ U) (hC0 : Change U r0 s) :
    Change U r0 (doPmeTurnOff s) := by
  have k1 : ([.regs] : List Part) ⊆ U := List.Subset.trans (by decide) hT
  unfold doPmeTurnOff
  repeat' first
    | with_reducible exact hC0
    | with_reducible refine Change.ite (fun _ => ?_) (fun _ => ?_)
    | with_reducible refine State.put_change k1 ?_
    | with_reducible refine hepTlp_change hT ?_
    | with_reducible refine Change.foldl (fun _ _ _ => ?_) ?_
    | with_reducible assumption
    | split
    | dsimp only

theorem doHostMemoryRequest_change {U : List Part} {r0 : State} {r : HostReq} {s : State} (hT : ([.regs, .tt, .pins, .dev, .img, .checks, .flt, .icu, .msix, .hep, .wxl, .qen, .ctx, .qaux, .spl, .swc, .ports, .hbm, .mem, .gdc, .cores, .tcm, .prl, .out] : List Part) ⊆ U) (hC0 : Change U r0 s) :
    Change U r0 (doHostMemoryRequest r s) := by
  unfold doHostMemoryRequest
  repeat' first
    | with_reducible exact hC0
    | with_reducible refine Change.ite (fun _ => ?_) (fun _ => ?_)
    | with_reducible refine hostMem_change hT ?_
    | with_reducible refine Change.foldl (fun _ _ _ => ?_) ?_
    | with_reducible assumption
    | split
    | dsimp only

theorem doWindowAccess_change {U : List Part} {r0 : State} {r : HostReq} {s : State} (hT : ([.regs, .tt, .pins, .dev, .img, .checks, .flt, .icu, .msix, .hep, .wxl, .qen, .ctx, .qaux, .spl, .swc, .ports, .hbm, .mem, .gdc, .cores, .tcm, .prl, .out] : List Part) ⊆ U) (hC0 : Change U r0 s) :
    Change U r0 (doWindowAccess r s) := by
  unfold doWindowAccess
  repeat' first
    | with_reducible exact hC0
    | with_reducible refine Change.ite (fun _ => ?_) (fun _ => ?_)
    | with_reducible refine hostMem_change hT ?_
    | with_reducible refine Change.foldl (fun _ _ _ => ?_) ?_
    | with_reducible assumption
    | split
    | dsimp only

theorem doDoorbell_change {U : List Part} {r0 : State} {fn : Nat} {v : Word} {s : State} (hT : ([.regs, .tt, .pins, .dev, .img, .checks, .flt, .icu, .msix, .hep, .wxl, .qen, .ctx, .qaux, .spl, .swc, .ports, .hbm, .mem, .gdc, .cores, .tcm, .prl, .out] : List Part) ⊆ U) (hC0 : Change U r0 s) :
    Change U r0 (doDoorbell fn v s) := by
  unfold doDoorbell
  repeat' first
    | with_reducible exact hC0
    | with_reducible refine Change.ite (fun _ => ?_) (fun _ => ?_)
    | with_reducible refine hostMem_change hT ?_
    | with_reducible refine Change.foldl (fun _ _ _ => ?_) ?_
    | with_reducible assumption
    | split
    | dsimp only

theorem doDlDown_change {U : List Part} {r0 : State} {s : State} (hT : ([.regs, .tt, .dev, .checks, .flt, .icu, .fns, .msix, .hep, .wxl, .qen, .ctx, .qaux, .spl, .swc, .ports, .hbm, .cores, .prl, .out] : List Part) ⊆ U) (hC0 : Change U r0 s) :
    Change U r0 (doDlDown s) := by
  unfold doDlDown
  repeat' first
    | with_reducible exact hC0
    | with_reducible refine Change.ite (fun _ => ?_) (fun _ => ?_)
    | with_reducible refine hostLinkDown_change hT ?_
    | with_reducible refine Change.foldl (fun _ _ _ => ?_) ?_
    | with_reducible assumption
    | split
    | dsimp only

theorem doDlUp_change {U : List Part} {r0 : State} {speed : Nat} {width : Nat} {flit : Bool} {s : State} (hT : ([.regs, .tt, .icu, .hep, .out] : List Part) ⊆ U) (hC0 : Change U r0 s) :
    Change U r0 (doDlUp speed width flit s) := by
  unfold doDlUp
  repeat' first
    | with_reducible exact hC0
    | with_reducible refine Change.ite (fun _ => ?_) (fun _ => ?_)
    | with_reducible refine hostLinkUp_change hT ?_
    | with_reducible refine Change.foldl (fun _ _ _ => ?_) ?_
    | with_reducible assumption
    | split
    | dsimp only

theorem doHostLinkRecovery_change {U : List Part} {r0 : State} {back : Bool} {speed : Nat} {width : Nat} {s : State} (hT : ([.regs, .tt, .hep, .out] : List Part) ⊆ U) (hC0 : Change U r0 s) :
    Change U r0 (doHostLinkRecovery back speed width s) := by
  have k1 : ([.regs, .tt, .out] : List Part) ⊆ U := List.Subset.trans (by decide) hT
  have k2 : ([.regs] : List Part) ⊆ U := List.Subset.trans (by decide) hT
  have k3 : ([.hep] : List Part) ⊆ U := List.Subset.trans (by decide) hT
  unfold doHostLinkRecovery
  repeat' first
    | with_reducible exact hC0
    | with_reducible refine Change.ite (fun _ => ?_) (fun _ => ?_)
    | with_reducible refine pmeSend_change k1 ?_
    | with_reducible refine linkTrained_change k2 ?_
    | with_reducible refine Change.foldl (fun _ _ _ => ?_) ?_
    | with_reducible assumption
    | split
    | dsimp only
    | with_reducible refine Change.set_hep k3 ?_

theorem doHostLinkRetrain_change {U : List Part} {r0 : State} {a : Agent} {v : Word} {s : State} (hT : ([.regs, .tt, .pins, .dev, .img, .checks, .flt, .icu, .hep, .wxl, .qen, .ctx, .qaux, .spl, .swc, .ports, .hbm, .mem, .gdc, .cores, .tcm, .prl, .out] : List Part) ⊆ U) (hC0 : Change U r0 s) :
    Change U r0 (doHostLinkRetrain a v s) := by
  unfold doHostLinkRetrain
  repeat' first
    | with_reducible exact hC0
    | with_reducible refine Change.ite (fun _ => ?_) (fun _ => ?_)
    | with_reducible refine ctlWriteBy_change hT ?_
    | with_reducible refine Change.foldl (fun _ _ _ => ?_) ?_
    | with_reducible assumption
    | split
    | dsimp only

theorem doL1Request_change {U : List Part} {r0 : State} {s : State} (hT : ([.regs, .hep, .out] : List Part) ⊆ U) (hC0 : Change U r0 s) :
    Change U r0 (doL1Request s) := by
  have k1 : ([.regs] : List Part) ⊆ U := List.Subset.trans (by decide) hT
  have k2 : ([.regs, .out] : List Part) ⊆ U := List.Subset.trans (by decide) hT
  have k3 : ([.hep] : List Part) ⊆ U := List.Subset.trans (by decide) hT
  unfold doL1Request
  repeat' first
    | with_reducible exact hC0
    | with_reducible refine Change.ite (fun _ => ?_) (fun _ => ?_)
    | with_reducible refine State.put_change k1 ?_
    | with_reducible refine hepTlp_change k2 ?_
    | with_reducible refine Change.foldl (fun _ _ _ => ?_) ?_
    | with_reducible assumption
    | split
    | dsimp only
    | with_reducible refine Change.set_hep k3 ?_

theorem doL0pNarrow_change {U : List Part} {r0 : State} {s : State} (hT : ([.regs, .hep, .out] : List Part) ⊆ U) (hC0 : Change U r0 s) :
    Change U r0 (doL0pNarrow s) := by
  have k1 : ([.regs] : List Part) ⊆ U := List.Subset.trans (by decide) hT
  have k2 : ([.out] : List Part) ⊆ U := List.Subset.trans (by decide) hT
  have k3 : ([.hep] : List Part) ⊆ U := List.Subset.trans (by decide) hT
  unfold doL0pNarrow
  repeat' first
    | with_reducible exact hC0
    | with_reducible refine Change.ite (fun _ => ?_) (fun _ => ?_)
    | with_reducible refine State.put_change k1 ?_
    | with_reducible refine State.emit_change k2 ?_
    | with_reducible refine Change.foldl (fun _ _ _ => ?_) ?_
    | with_reducible assumption
    | split
    | dsimp only
    | with_reducible refine Change.set_hep k3 ?_

theorem doL0pWiden_change {U : List Part} {r0 : State} {s : State} (hT : ([.regs, .hep, .out] : List Part) ⊆ U) (hC0 : Change U r0 s) :
    Change U r0 (doL0pWiden s) := by
  have k1 : ([.regs] : List Part) ⊆ U := List.Subset.trans (by decide) hT
  have k2 : ([.out] : List Part) ⊆ U := List.Subset.trans (by decide) hT
  have k3 : ([.hep] : List Part) ⊆ U := List.Subset.trans (by decide) hT
  unfold doL0pWiden
  repeat' first
    | with_reducible exact hC0
    | with_reducible refine Change.ite (fun _ => ?_) (fun _ => ?_)
    | with_reducible refine State.put_change k1 ?_
    | with_reducible refine State.emit_change k2 ?_
    | with_reducible refine Change.foldl (fun _ _ _ => ?_) ?_
    | with_reducible assumption
    | split
    | dsimp only
    | with_reducible refine Change.set_hep k3 ?_

theorem doTagIssue_change {U : List Part} {r0 : State} {tag : Nat} {s : State} (hT : ([.regs, .hep, .out] : List Part) ⊆ U) (hC0 : Change U r0 s) :
    Change U r0 (doTagIssue tag s) := by
  have k1 : ([.regs] : List Part) ⊆ U := List.Subset.trans (by decide) hT
  have k2 : ([.hep] : List Part) ⊆ U := List.Subset.trans (by decide) hT
  unfold doTagIssue
  repeat' first
    | with_reducible exact hC0
    | with_reducible refine Change.ite (fun _ => ?_) (fun _ => ?_)
    | with_reducible refine hepRequest_change hT ?_
    | with_reducible refine tagPeak_change k1 ?_
    | with_reducible refine Change.foldl (fun _ _ _ => ?_) ?_
    | with_reducible assumption
    | split
    | dsimp only
    | with_reducible refine Change.set_hep k2 ?_

theorem unexpected_change {U : List Part} {r0 : State} {fn : Nat} {s : State} (hT : ([.regs, .tt, .flt, .icu, .out] : List Part) ⊆ U) (hC0 : Change U r0 s) :
    Change U r0 (unexpected fn s) := by
  have k1 : ([.out] : List Part) ⊆ U := List.Subset.trans (by decide) hT
  unfold unexpected
  repeat' first
    | with_reducible exact hC0
    | with_reducible refine Change.ite (fun _ => ?_) (fun _ => ?_)
    | with_reducible refine faultEvent_change hT ?_
    | with_reducible refine State.emit_change k1 ?_
    | with_reducible refine Change.foldl (fun _ _ _ => ?_) ?_
    | with_reducible assumption
    | split
    | dsimp only

theorem onTime_change {U : List Part} {r0 : State} {e : TagEnt} {off : Nat} {data : List Byte} {ans : Ans} {s : State} (hT : ([.hep, .swc] : List Part) ⊆ U) (hC0 : Change U r0 s) :
    Change U r0 (onTime e off data ans s) := by
  have k1 : ([.swc] : List Part) ⊆ U := List.Subset.trans (by decide) hT
  have k2 : ([.hep] : List Part) ⊆ U := List.Subset.trans (by decide) hT
  unfold onTime
  repeat' first
    | with_reducible exact hC0
    | with_reducible refine Change.ite (fun _ => ?_) (fun _ => ?_)
    | with_reducible refine State.inject_change k1 ?_
    | with_reducible refine dropTag_change k2 ?_
    | with_reducible refine setTag_change k2 ?_
    | with_reducible refine Change.foldl (fun _ _ _ => ?_) ?_
    | with_reducible assumption
    | split
    | dsimp only

theorem doHostCompletion_change {U : List Part} {r0 : State} {fn : Nat} {tag : Nat} {off : Nat} {data : List Byte} {ans : Ans} {s : State} (hT : ([.regs, .tt, .flt, .icu, .hep, .swc, .out] : List Part) ⊆ U) (hC0 : Change U r0 s) :
    Change U r0 (doHostCompletion fn tag off data ans s) := by
  have k1 : ([.regs] : List Part) ⊆ U := List.Subset.trans (by decide) hT
  have k2 : ([.hep] : List Part) ⊆ U := List.Subset.trans (by decide) hT
  have k3 : ([.hep, .swc] : List Part) ⊆ U := List.Subset.trans (by decide) hT
  have k4 : ([.regs, .tt, .flt, .icu, .out] : List Part) ⊆ U := List.Subset.trans (by decide) hT
  unfold doHostCompletion
  repeat' first
    | with_reducible exact hC0
    | with_reducible refine Change.ite (fun _ => ?_) (fun _ => ?_)
    | with_reducible refine State.bump_change k1 ?_
    | with_reducible refine dropTag_change k2 ?_
    | with_reducible refine onTime_change k3 ?_
    | with_reducible refine unexpected_change k4 ?_
    | with_reducible refine State.put_change k1 ?_
    | with_reducible refine Change.foldl (fun _ _ _ => ?_) ?_
    | with_reducible assumption
    | split
    | dsimp only

theorem doCompletionTimeout_change {U : List Part} {r0 : State} {fn : Nat} {tag : Nat} {s : State} (hT : ([.regs, .tt, .flt, .icu, .hep, .wxl, .qaux, .swc, .cores, .out] : List Part) ⊆ U) (hC0 : Change U r0 s) :
    Change U r0 (doCompletionTimeout fn tag s) := by
  have k1 : ([.regs] : List Part) ⊆ U := List.Subset.trans (by decide) hT
  have k2 : ([.regs, .tt, .flt, .icu, .out] : List Part) ⊆ U := List.Subset.trans (by decide) hT
  have k3 : ([.regs, .wxl, .qaux, .swc, .cores, .out] : List Part) ⊆ U := List.Subset.trans (by decide) hT
  have k4 : ([.hep] : List Part) ⊆ U := List.Subset.trans (by decide) hT
  have k5 : ([.out] : List Part) ⊆ U := List.Subset.trans (by decide) hT
  unfold doCompletionTimeout
  repeat' first
    | with_reducible exact hC0
    | with_reducible refine Change.ite (fun _ => ?_) (fun _ => ?_)
    | with_reducible refine State.bump_change k1 ?_
    | with_reducible refine faultEvent_change k2 ?_
    | with_reducible refine State.put_change k1 ?_
    | with_reducible refine failRead_change k3 ?_
    | with_reducible refine setTag_change k4 ?_
    | with_reducible refine State.emit_change k5 ?_
    | with_reducible refine Change.foldl (fun _ _ _ => ?_) ?_
    | with_reducible assumption
    | split
    | dsimp only

theorem doQuarantineExpiry_change {U : List Part} {r0 : State} {fn : Nat} {tag : Nat} {s : State} (hT : ([.hep] : List Part) ⊆ U) (hC0 : Change U r0 s) :
    Change U r0 (doQuarantineExpiry fn tag s) := by
  unfold doQuarantineExpiry
  repeat' first
    | with_reducible exact hC0
    | with_reducible refine Change.ite (fun _ => ?_) (fun _ => ?_)
    | with_reducible refine dropTag_change hT ?_
    | with_reducible refine Change.foldl (fun _ _ _ => ?_) ?_
    | with_reducible assumption
    | split
    | dsimp only

theorem spdmSend_change {U : List Part} {r0 : State} {code : Nat} {data : List Byte} {s : State} (hT : ([.regs, .out] : List Part) ⊆ U) (hC0 : Change U r0 s) :
    Change U r0 (spdmSend code data s) := by
  have k1 : ([.regs] : List Part) ⊆ U := List.Subset.trans (by decide) hT
  have k2 : ([.out] : List Part) ⊆ U := List.Subset.trans (by decide) hT
  unfold spdmSend
  repeat' first
    | with_reducible exact hC0
    | with_reducible refine Change.ite (fun _ => ?_) (fun _ => ?_)
    | with_reducible refine l1Exit_change k1 ?_
    | with_reducible refine State.emit_change k2 ?_
    | with_reducible refine Change.foldl (fun _ _ _ => ?_) ?_
    | with_reducible assumption
    | split
    | dsimp only

theorem spdmError_change {U : List Part} {r0 : State} {s : State} (hT : ([.regs, .out] : List Part) ⊆ U) (hC0 : Change U r0 s) :
    Change U r0 (spdmError s) := by
  unfold spdmError
  repeat' first
    | with_reducible exact hC0
    | with_reducible refine Change.ite (fun _ => ?_) (fun _ => ?_)
    | with_reducible refine spdmSend_change hT ?_
    | with_reducible refine Change.foldl (fun _ _ _ => ?_) ?_
    | with_reducible assumption
    | split
    | dsimp only

theorem doGetVersion_change {U : List Part} {r0 : State} {req : List Byte} {s : State} (hT : ([.regs, .out] : List Part) ⊆ U) (hC0 : Change U r0 s) :
    Change U r0 (doGetVersion req s) := by
  unfold doGetVersion
  repeat' first
    | with_reducible exact hC0
    | with_reducible refine Change.ite (fun _ => ?_) (fun _ => ?_)
    | with_reducible refine spdmSend_change hT ?_
    | with_reducible refine Change.foldl (fun _ _ _ => ?_) ?_
    | with_reducible assumption
    | split
    | dsimp only

theorem doGetCapabilities_change {U : List Part} {r0 : State} {req : List Byte} {s : State} (hT : ([.regs, .out] : List Part) ⊆ U) (hC0 : Change U r0 s) :
    Change U r0 (doGetCapabilities req s) := by
  unfold doGetCapabilities
  repeat' first
    | with_reducible exact hC0
    | with_reducible refine Change.ite (fun _ => ?_) (fun _ => ?_)
    | with_reducible refine spdmSend_change hT ?_
    | with_reducible refine Change.foldl (fun _ _ _ => ?_) ?_
    | with_reducible assumption
    | split
    | dsimp only

theorem doNegotiateAlgorithms_change {U : List Part} {r0 : State} {req : List Byte} {s : State} (hT : ([.regs, .out] : List Part) ⊆ U) (hC0 : Change U r0 s) :
    Change U r0 (doNegotiateAlgorithms req s) := by
  unfold doNegotiateAlgorithms
  repeat' first
    | with_reducible exact hC0
    | with_reducible refine Change.ite (fun _ => ?_) (fun _ => ?_)
    | with_reducible refine spdmSend_change hT ?_
    | with_reducible refine Change.foldl (fun _ _ _ => ?_) ?_
    | with_reducible assumption
    | split
    | dsimp only

theorem doGetDigests_change {U : List Part} {r0 : State} {req : List Byte} {s : State} (hT : ([.regs, .out] : List Part) ⊆ U) (hC0 : Change U r0 s) :
    Change U r0 (doGetDigests req s) := by
  unfold doGetDigests
  repeat' first
    | with_reducible exact hC0
    | with_reducible refine Change.ite (fun _ => ?_) (fun _ => ?_)
    | with_reducible refine spdmSend_change hT ?_
    | with_reducible refine Change.foldl (fun _ _ _ => ?_) ?_
    | with_reducible assumption
    | split
    | dsimp only

theorem doGetCertificate_change {U : List Part} {r0 : State} {off : Nat} {len : Nat} {s : State} (hT : ([.regs, .out] : List Part) ⊆ U) (hC0 : Change U r0 s) :
    Change U r0 (doGetCertificate off len s) := by
  unfold doGetCertificate
  repeat' first
    | with_reducible exact hC0
    | with_reducible refine Change.ite (fun _ => ?_) (fun _ => ?_)
    | with_reducible refine spdmError_change hT ?_
    | with_reducible refine spdmSend_change hT ?_
    | with_reducible refine Change.foldl (fun _ _ _ => ?_) ?_
    | with_reducible assumption
    | split
    | dsimp only

theorem doChallenge_change {U : List Part} {r0 : State} {req : List Byte} {s : State} (hT : ([.regs, .out] : List Part) ⊆ U) (hC0 : Change U r0 s) :
    Change U r0 (doChallenge req s) := by
  unfold doChallenge
  repeat' first
    | with_reducible exact hC0
    | with_reducible refine Change.ite (fun _ => ?_) (fun _ => ?_)
    | with_reducible refine spdmSend_change hT ?_
    | with_reducible refine Change.foldl (fun _ _ _ => ?_) ?_
    | with_reducible assumption
    | split
    | dsimp only

theorem doGetMeasurements_change {U : List Part} {r0 : State} {index : Nat} {req : List Byte} {s : State} (hT : ([.regs, .out] : List Part) ⊆ U) (hC0 : Change U r0 s) :
    Change U r0 (doGetMeasurements index req s) := by
  unfold doGetMeasurements
  repeat' first
    | with_reducible exact hC0
    | with_reducible refine Change.ite (fun _ => ?_) (fun _ => ?_)
    | with_reducible refine spdmError_change hT ?_
    | with_reducible refine spdmSend_change hT ?_
    | with_reducible refine Change.foldl (fun _ _ _ => ?_) ?_
    | with_reducible assumption
    | split
    | dsimp only

theorem doDoeDiscovery_change {U : List Part} {r0 : State} {index : Nat} {s : State} (hT : ([.regs, .out] : List Part) ⊆ U) (hC0 : Change U r0 s) :
    Change U r0 (doDoeDiscovery index s) := by
  unfold doDoeDiscovery
  repeat' first
    | with_reducible exact hC0
    | with_reducible refine Change.ite (fun _ => ?_) (fun _ => ?_)
    | with_reducible refine spdmSend_change hT ?_
    | with_reducible refine Change.foldl (fun _ _ _ => ?_) ?_
    | with_reducible assumption
    | split
    | dsimp only

theorem doHepEnable_change {U : List Part} {r0 : State} {a : Agent} {v : Word} {s : State} (hT : ([.regs, .tt, .pins, .dev, .img, .checks, .flt, .icu, .hep, .wxl, .qen, .ctx, .qaux, .spl, .swc, .ports, .hbm, .mem, .gdc, .cores, .tcm, .prl, .out] : List Part) ⊆ U) (hC0 : Change U r0 s) :
    Change U r0 (doHepEnable a v s) := by
  unfold doHepEnable
  repeat' first
    | with_reducible exact hC0
    | with_reducible refine Change.ite (fun _ => ?_) (fun _ => ?_)
    | with_reducible refine ctlWriteBy_change hT ?_
    | with_reducible refine Change.foldl (fun _ _ _ => ?_) ?_
    | with_reducible assumption
    | split
    | dsimp only

end Sys2Proof.Machine
end

