-- ==== Sys2Proof/Laws/Windows.lean ====
section
/-! SUPPORT. What each operation of Machine/Windows.lean may change. -/
set_option linter.all false
set_option linter.unusedTactic false
set_option linter.unreachableTactic false

namespace Sys2Proof.Machine

open Sys2Proof

theorem doWxlEnable_change {U : List Part} {r0 : State} {a : Agent} {v : Word} {s : State} (hT : ([.regs, .tt, .pins, .dev, .img, .checks, .flt, .icu, .hep, .wxl, .qen, .ctx, .qaux, .spl, .swc, .ports, .hbm, .mem, .gdc, .cores, .tcm, .prl, .out] : List Part) ⊆ U) (hC0 : Change U r0 s) :
    Change U r0 (doWxlEnable a v s) := by
  unfold doWxlEnable
  repeat' first
    | with_reducible exact hC0
    | with_reducible refine Change.ite (fun _ => ?_) (fun _ => ?_)
    | with_reducible refine ctlWriteBy_change hT ?_
    | with_reducible refine Change.foldl (fun _ _ _ => ?_) ?_
    | with_reducible assumption
    | split
    | dsimp only

theorem doInboundWindowEnable_change {U : List Part} {r0 : State} {a : Agent} {w : Nat} {v : Word} {s : State} (hT : ([.regs, .tt, .pins, .dev, .img, .checks, .flt, .icu, .hep, .wxl, .qen, .ctx, .qaux, .spl, .swc, .ports, .hbm, .mem, .gdc, .cores, .tcm, .prl, .out] : List Part) ⊆ U) (hC0 : Change U r0 s) :
    Change U r0 (doInboundWindowEnable a w v s) := by
  unfold doInboundWindowEnable
  repeat' first
    | with_reducible exact hC0
    | with_reducible refine Change.ite (fun _ => ?_) (fun _ => ?_)
    | with_reducible refine ctlWriteBy_change hT ?_
    | with_reducible refine Change.foldl (fun _ _ _ => ?_) ?_
    | with_reducible assumption
    | split
    | dsimp only

theorem doOutboundWindowEnable_change {U : List Part} {r0 : State} {a : Agent} {m : Nat} {v : Word} {s : State} (hT : ([.regs, .tt, .pins, .dev, .img, .checks, .flt, .icu, .hep, .wxl, .qen, .ctx, .qaux, .spl, .swc, .ports, .hbm, .mem, .gdc, .cores, .tcm, .prl, .out] : List Part) ⊆ U) (hC0 : Change U r0 s) :
    Change U r0 (doOutboundWindowEnable a m v s) := by
  unfold doOutboundWindowEnable
  repeat' first
    | with_reducible exact hC0
    | with_reducible refine Change.ite (fun _ => ?_) (fun _ => ?_)
    | with_reducible refine ctlWriteBy_change hT ?_
    | with_reducible refine Change.foldl (fun _ _ _ => ?_) ?_
    | with_reducible assumption
    | split
    | dsimp only

theorem doEnvelopeRangeEnable_change {U : List Part} {r0 : State} {a : Agent} {g : Nat} {v : Word} {s : State} (hT : ([.regs, .tt, .pins, .dev, .img, .checks, .flt, .icu, .hep, .wxl, .qen, .ctx, .qaux, .spl, .swc, .ports, .hbm, .mem, .gdc, .cores, .tcm, .prl, .out] : List Part) ⊆ U) (hC0 : Change U r0 s) :
    Change U r0 (doEnvelopeRangeEnable a g v s) := by
  unfold doEnvelopeRangeEnable
  repeat' first
    | with_reducible exact hC0
    | with_reducible refine Change.ite (fun _ => ?_) (fun _ => ?_)
    | with_reducible refine ctlWriteBy_change hT ?_
    | with_reducible refine Change.foldl (fun _ _ _ => ?_) ?_
    | with_reducible assumption
    | split
    | dsimp only

theorem walkRetry_change {U : List Part} {r0 : State} {a : Access} {s : State} (hT : ([.regs, .tt, .flt, .icu, .hep, .wxl, .qaux, .swc, .ports, .cores, .out] : List Part) ⊆ U) (hC0 : Change U r0 s) :
    Change U r0 (walkRetry a s) := by
  have k1 : ([.wxl] : List Part) ⊆ U := List.Subset.trans (by decide) hT
  have k2 : ([.regs, .tt, .flt, .icu, .wxl, .qaux, .swc, .ports, .cores, .out] : List Part) ⊆ U := List.Subset.trans (by decide) hT
  unfold walkRetry
  repeat' first
    | with_reducible exact hC0
    | with_reducible refine Change.ite (fun _ => ?_) (fun _ => ?_)
    | with_reducible refine walkFor_change k1 ?_
    | with_reducible refine wxlAccess_change hT ?_
    | with_reducible refine tcUse_change k1 ?_
    | with_reducible refine windowEntry_change k2 ?_
    | with_reducible refine Change.foldl (fun _ _ _ => ?_) ?_
    | with_reducible assumption
    | split
    | dsimp only

theorem doTableWalkDone_change {U : List Part} {r0 : State} {i : Nat} {ecc : Ecc} {s : State} (hT : ([.regs, .tt, .flt, .icu, .hep, .wxl, .qaux, .swc, .ports, .hbm, .cores, .out] : List Part) ⊆ U) (hC0 : Change U r0 s) :
    Change U r0 (doTableWalkDone i ecc s) := by
  have k1 : ([.regs, .tt, .flt, .icu, .out] : List Part) ⊆ U := List.Subset.trans (by decide) hT
  have k2 : ([.wxl] : List Part) ⊆ U := List.Subset.trans (by decide) hT
  have k3 : ([.regs, .tt, .flt, .icu, .hbm, .out] : List Part) ⊆ U := List.Subset.trans (by decide) hT
  have k4 : ([.regs, .tt, .flt, .icu, .wxl, .qaux, .swc, .ports, .cores, .out] : List Part) ⊆ U := List.Subset.trans (by decide) hT
  have k5 : ([.regs, .tt, .flt, .icu, .hep, .wxl, .qaux, .swc, .ports, .cores, .out] : List Part) ⊆ U := List.Subset.trans (by decide) hT
  unfold doTableWalkDone
  repeat' first
    | with_reducible exact hC0
    | with_reducible refine Change.ite (fun _ => ?_) (fun _ => ?_)
    | with_reducible refine faultEvent_change k1 ?_
    | with_reducible refine tcUse_change k2 ?_
    | with_reducible refine eccFound_change k3 ?_
    | with_reducible refine windowEntry_change k4 ?_
    | with_reducible refine walkRetry_change k5 ?_
    | with_reducible refine Change.foldl (fun _ _ _ => ?_) ?_
    | with_reducible assumption
    | split
    | dsimp only
    | with_reducible refine Change.set_wxl k2 ?_

theorem doTcInv_change {U : List Part} {r0 : State} {a : Agent} {v : Word} {s : State} (hT : ([.regs, .tt, .pins, .dev, .img, .checks, .flt, .icu, .hep, .wxl, .qen, .ctx, .qaux, .spl, .swc, .ports, .hbm, .mem, .gdc, .cores, .tcm, .prl, .out] : List Part) ⊆ U) (hC0 : Change U r0 s) :
    Change U r0 (doTcInv a v s) := by
  unfold doTcInv
  repeat' first
    | with_reducible exact hC0
    | with_reducible refine Change.ite (fun _ => ?_) (fun _ => ?_)
    | with_reducible refine ctlWriteBy_change hT ?_
    | with_reducible refine Change.foldl (fun _ _ _ => ?_) ?_
    | with_reducible assumption
    | split
    | dsimp only

theorem doTcInvDone_change {U : List Part} {r0 : State} {s : State} (hT : ([.regs, .wxl] : List Part) ⊆ U) (hC0 : Change U r0 s) :
    Change U r0 (doTcInvDone s) := by
  have k1 : ([.regs] : List Part) ⊆ U := List.Subset.trans (by decide) hT
  have k2 : ([.wxl] : List Part) ⊆ U := List.Subset.trans (by decide) hT
  unfold doTcInvDone
  repeat' first
    | with_reducible exact hC0
    | with_reducible refine Change.ite (fun _ => ?_) (fun _ => ?_)
    | with_reducible refine State.put_change k1 ?_
    | with_reducible refine Change.foldl (fun _ _ _ => ?_) ?_
    | with_reducible assumption
    | split
    | dsimp only
    | with_reducible refine Change.set_wxl k2 ?_

theorem doWriteBack_change {U : List Part} {r0 : State} {a : Agent} {v : Word} {s : State} (hT : ([.regs, .tt, .pins, .dev, .img, .checks, .flt, .icu, .hep, .wxl, .qen, .ctx, .qaux, .spl, .swc, .ports, .hbm, .mem, .gdc, .cores, .tcm, .prl, .out] : List Part) ⊆ U) (hC0 : Change U r0 s) :
    Change U r0 (doWriteBack a v s) := by
  unfold doWriteBack
  repeat' first
    | with_reducible exact hC0
    | with_reducible refine Change.ite (fun _ => ?_) (fun _ => ?_)
    | with_reducible refine ctlWriteBy_change hT ?_
    | with_reducible refine Change.foldl (fun _ _ _ => ?_) ?_
    | with_reducible assumption
    | split
    | dsimp only

theorem doWriteBackInvalidate_change {U : List Part} {r0 : State} {a : Agent} {v : Word} {s : State} (hT : ([.regs, .tt, .pins, .dev, .img, .checks, .flt, .icu, .hep, .wxl, .qen, .ctx, .qaux, .spl, .swc, .ports, .hbm, .mem, .gdc, .cores, .tcm, .prl, .out] : List Part) ⊆ U) (hC0 : Change U r0 s) :
    Change U r0 (doWriteBackInvalidate a v s) := by
  unfold doWriteBackInvalidate
  repeat' first
    | with_reducible exact hC0
    | with_reducible refine Change.ite (fun _ => ?_) (fun _ => ?_)
    | with_reducible refine ctlWriteBy_change hT ?_
    | with_reducible refine Change.foldl (fun _ _ _ => ?_) ?_
    | with_reducible assumption
    | split
    | dsimp only

theorem flushMore_change {U : List Part} {r0 : State} {s : State} (hT : ([.wxl, .swc] : List Part) ⊆ U) (hC0 : Change U r0 s) :
    Change U r0 (flushMore s) := by
  have k1 : ([.swc] : List Part) ⊆ U := List.Subset.trans (by decide) hT
  have k2 : ([.wxl] : List Part) ⊆ U := List.Subset.trans (by decide) hT
  unfold flushMore
  repeat' first
    | with_reducible exact hC0
    | with_reducible refine Change.ite (fun _ => ?_) (fun _ => ?_)
    | with_reducible refine State.inject_change k1 ?_
    | with_reducible refine Change.foldl (fun _ _ _ => ?_) ?_
    | with_reducible assumption
    | split
    | dsimp only
    | with_reducible refine Change.set_wxl k2 ?_

theorem doPcFlushDone_change {U : List Part} {r0 : State} {s : State} (hT : ([.regs, .wxl, .swc] : List Part) ⊆ U) (hC0 : Change U r0 s) :
    Change U r0 (doPcFlushDone s) := by
  have k1 : ([.regs] : List Part) ⊆ U := List.Subset.trans (by decide) hT
  have k2 : ([.wxl, .swc] : List Part) ⊆ U := List.Subset.trans (by decide) hT
  unfold doPcFlushDone
  repeat' first
    | with_reducible exact hC0
    | with_reducible refine Change.ite (fun _ => ?_) (fun _ => ?_)
    | with_reducible refine State.put_change k1 ?_
    | with_reducible refine flushMore_change k2 ?_
    | with_reducible refine Change.foldl (fun _ _ _ => ?_) ?_
    | with_reducible assumption
    | split
    | dsimp only

theorem doSediscardClear_change {U : List Part} {r0 : State} {a : Agent} {v : Word} {s : State} (hT : ([.regs, .tt, .pins, .dev, .img, .checks, .flt, .icu, .hep, .wxl, .qen, .ctx, .qaux, .spl, .swc, .ports, .hbm, .mem, .gdc, .cores, .tcm, .prl, .out] : List Part) ⊆ U) (hC0 : Change U r0 s) :
    Change U r0 (doSediscardClear a v s) := by
  unfold doSediscardClear
  repeat' first
    | with_reducible exact hC0
    | with_reducible refine Change.ite (fun _ => ?_) (fun _ => ?_)
    | with_reducible refine ctlWriteBy_change hT ?_
    | with_reducible refine Change.foldl (fun _ _ _ => ?_) ?_
    | with_reducible assumption
    | split
    | dsimp only

theorem doPfCfgWrite_change {U : List Part} {r0 : State} {a : Agent} {v : Word} {s : State} (hT : ([.regs, .tt, .pins, .dev, .img, .checks, .flt, .icu, .hep, .wxl, .qen, .ctx, .qaux, .spl, .swc, .ports, .hbm, .mem, .gdc, .cores, .tcm, .prl, .out] : List Part) ⊆ U) (hC0 : Change U r0 s) :
    Change U r0 (doPfCfgWrite a v s) := by
  unfold doPfCfgWrite
  repeat' first
    | with_reducible exact hC0
    | with_reducible refine Change.ite (fun _ => ?_) (fun _ => ?_)
    | with_reducible refine ctlWriteBy_change hT ?_
    | with_reducible refine Change.foldl (fun _ _ _ => ?_) ?_
    | with_reducible assumption
    | split
    | dsimp only

theorem doPrefetchLifeExpiry_change {U : List Part} {r0 : State} {da : Nat} {s : State} (hT : ([.regs, .tt, .flt, .icu, .wxl, .swc, .out] : List Part) ⊆ U) (hC0 : Change U r0 s) :
    Change U r0 (doPrefetchLifeExpiry da s) := by
  unfold doPrefetchLifeExpiry
  repeat' first
    | with_reducible exact hC0
    | with_reducible refine Change.ite (fun _ => ?_) (fun _ => ?_)
    | with_reducible refine pfDiscard_change hT ?_
    | with_reducible refine Change.foldl (fun _ _ _ => ?_) ?_
    | with_reducible assumption
    | split
    | dsimp only

theorem atcKeep_change {U : List Part} {r0 : State} {a : Atc} {s : State} (hT : ([.wxl] : List Part) ⊆ U) (hC0 : Change U r0 s) :
    Change U r0 (atcKeep a s) := by
  unfold atcKeep
  repeat' first
    | with_reducible exact hC0
    | with_reducible refine Change.ite (fun _ => ?_) (fun _ => ?_)
    | with_reducible refine Change.foldl (fun _ _ _ => ?_) ?_
    | with_reducible assumption
    | split
    | dsimp only
    | with_reducible refine Change.set_wxl hT ?_

theorem atsGo_change {U : List Part} {r0 : State} {t : Atc} {ok : Bool} {a : Access} {s : State} (hT : ([.regs, .tt, .flt, .icu, .wxl, .qaux, .swc, .ports, .cores, .out] : List Part) ⊆ U) (hC0 : Change U r0 s) :
    Change U r0 (atsGo t ok a s) := by
  have k1 : ([.regs, .tt, .flt, .icu, .wxl, .qaux, .swc, .out] : List Part) ⊆ U := List.Subset.trans (by decide) hT
  unfold atsGo
  repeat' first
    | with_reducible exact hC0
    | with_reducible refine Change.ite (fun _ => ?_) (fun _ => ?_)
    | with_reducible refine wxlRefuse_change hT ?_
    | with_reducible refine wxlForward_change k1 ?_
    | with_reducible refine Change.foldl (fun _ _ _ => ?_) ?_
    | with_reducible assumption
    | split
    | dsimp only

theorem doTranslationCompletion_change {U : List Part} {r0 : State} {fn : Nat} {pasid : Nat} {page : Nat} {addr : Nat} {r : Bool} {w : Bool} {ok : Bool} {s : State} (hT : ([.regs, .tt, .flt, .icu, .wxl, .qaux, .swc, .ports, .cores, .out] : List Part) ⊆ U) (hC0 : Change U r0 s) :
    Change U r0 (doTranslationCompletion fn pasid page addr r w ok s) := by
  have k1 : ([.wxl] : List Part) ⊆ U := List.Subset.trans (by decide) hT
  unfold doTranslationCompletion
  repeat' first
    | with_reducible exact hC0
    | with_reducible refine Change.ite (fun _ => ?_) (fun _ => ?_)
    | with_reducible refine atcKeep_change k1 ?_
    | with_reducible refine atsGo_change hT ?_
    | with_reducible refine Change.foldl (fun _ _ _ => ?_) ?_
    | with_reducible assumption
    | split
    | dsimp only
    | with_reducible refine Change.set_wxl k1 ?_

theorem doInvalidationRequest_change {U : List Part} {r0 : State} {fn : Nat} {pasid : Nat} {page : Nat} {pages : Nat} {itag : Nat} {s : State} (hT : ([.wxl] : List Part) ⊆ U) (hC0 : Change U r0 s) :
    Change U r0 (doInvalidationRequest fn pasid page pages itag s) := by
  unfold doInvalidationRequest
  repeat' first
    | with_reducible exact hC0
    | with_reducible refine Change.ite (fun _ => ?_) (fun _ => ?_)
    | with_reducible refine Change.foldl (fun _ _ _ => ?_) ?_
    | with_reducible assumption
    | split
    | dsimp only
    | with_reducible refine Change.set_wxl hT ?_

theorem doInvalidationCompletion_change {U : List Part} {r0 : State} {fn : Nat} {itag : Nat} {s : State} (hT : ([.regs, .wxl, .out] : List Part) ⊆ U) (hC0 : Change U r0 s) :
    Change U r0 (doInvalidationCompletion fn itag s) := by
  have k1 : ([.regs, .out] : List Part) ⊆ U := List.Subset.trans (by decide) hT
  have k2 : ([.wxl] : List Part) ⊆ U := List.Subset.trans (by decide) hT
  unfold doInvalidationCompletion
  repeat' first
    | with_reducible exact hC0
    | with_reducible refine Change.ite (fun _ => ?_) (fun _ => ?_)
    | with_reducible refine hepTlp_change k1 ?_
    | with_reducible refine Change.foldl (fun _ _ _ => ?_) ?_
    | with_reducible assumption
    | split
    | dsimp only
    | with_reducible refine Change.set_wxl k2 ?_

theorem setMig_change {U : List Part} {r0 : State} {m : Mig} {s : State} (hT : ([.wxl] : List Part) ⊆ U) (hC0 : Change U r0 s) :
    Change U r0 (setMig m s) := by
  unfold setMig
  repeat' first
    | with_reducible exact hC0
    | with_reducible refine Change.ite (fun _ => ?_) (fun _ => ?_)
    | with_reducible refine Change.foldl (fun _ _ _ => ?_) ?_
    | with_reducible assumption
    | split
    | dsimp only
    | with_reducible refine Change.set_wxl hT ?_

theorem doMigratePassEnd_change {U : List Part} {r0 : State} {q : Nat} {s : State} (hT : ([.wxl, .qaux] : List Part) ⊆ U) (hC0 : Change U r0 s) :
    Change U r0 (doMigratePassEnd q s) := by
  have k1 : ([.qaux] : List Part) ⊆ U := List.Subset.trans (by decide) hT
  have k2 : ([.wxl] : List Part) ⊆ U := List.Subset.trans (by decide) hT
  unfold doMigratePassEnd
  repeat' first
    | with_reducible exact hC0
    | with_reducible refine Change.ite (fun _ => ?_) (fun _ => ?_)
    | with_reducible refine State.setQa_change k1 ?_
    | with_reducible refine setMig_change k2 ?_
    | with_reducible refine Change.foldl (fun _ _ _ => ?_) ?_
    | with_reducible assumption
    | split
    | dsimp only

theorem migRetarget_change {U : List Part} {r0 : State} {m : Mig} {s : State} (hT : ([.regs, .tt, .flt, .icu, .wxl, .xt, .swc, .out] : List Part) ⊆ U) (hC0 : Change U r0 s) :
    Change U r0 (migRetarget m s) := by
  unfold migRetarget
  repeat' first
    | with_reducible exact hC0
    | with_reducible refine Change.ite (fun _ => ?_) (fun _ => ?_)
    | with_reducible refine xtChange_change hT ?_
    | with_reducible refine Change.foldl (fun _ _ _ => ?_) ?_
    | with_reducible assumption
    | split
    | dsimp only

theorem migFinish_change {U : List Part} {r0 : State} {q : Nat} {m : Mig} {s : State} (hT : ([.regs, .tt, .checks, .flt, .icu, .hep, .wxl, .qen, .ctx, .qaux, .spl, .swc, .ports, .cores, .prl, .out] : List Part) ⊆ U) (hC0 : Change U r0 s) :
    Change U r0 (migFinish q m s) := by
  have k1 : ([.regs] : List Part) ⊆ U := List.Subset.trans (by decide) hT
  have k2 : ([.regs, .tt, .flt, .icu, .hep, .wxl, .qen, .ctx, .qaux, .spl, .swc, .ports, .cores, .prl, .out] : List Part) ⊆ U := List.Subset.trans (by decide) hT
  have k3 : ([.wxl] : List Part) ⊆ U := List.Subset.trans (by decide) hT
  unfold migFinish
  repeat' first
    | with_reducible exact hC0
    | with_reducible refine Change.ite (fun _ => ?_) (fun _ => ?_)
    | with_reducible refine State.bumpBy_change k1 ?_
    | with_reducible refine finishOp_change k2 ?_
    | with_reducible refine qResume_change hT ?_
    | with_reducible refine State.peak_change k1 ?_
    | with_reducible refine pcDrop_change k3 ?_
    | with_reducible refine Change.foldl (fun _ _ _ => ?_) ?_
    | with_reducible assumption
    | split
    | dsimp only

theorem doMigrateRelease_change {U : List Part} {r0 : State} {q : Nat} {s : State} (hT : ([.regs, .tt, .checks, .flt, .icu, .hep, .wxl, .xt, .qen, .ctx, .qaux, .spl, .swc, .ports, .cores, .prl, .out] : List Part) ⊆ U) (hC0 : Change U r0 s) :
    Change U r0 (doMigrateRelease q s) := by
  have k1 : ([.ports, .prl, .out] : List Part) ⊆ U := List.Subset.trans (by decide) hT
  have k2 : ([.wxl] : List Part) ⊆ U := List.Subset.trans (by decide) hT
  have k3 : ([.regs, .tt, .flt, .icu, .wxl, .xt, .swc, .out] : List Part) ⊆ U := List.Subset.trans (by decide) hT
  have k4 : ([.regs, .tt, .checks, .flt, .icu, .hep, .wxl, .qen, .ctx, .qaux, .spl, .swc, .ports, .cores, .prl, .out] : List Part) ⊆ U := List.Subset.trans (by decide) hT
  unfold doMigrateRelease
  repeat' first
    | with_reducible exact hC0
    | with_reducible refine Change.ite (fun _ => ?_) (fun _ => ?_)
    | with_reducible refine mirror_change k1 ?_
    | with_reducible refine setMig_change k2 ?_
    | with_reducible refine migRetarget_change k3 ?_
    | with_reducible refine migFinish_change k4 ?_
    | with_reducible refine Change.foldl (fun _ _ _ => ?_) ?_
    | with_reducible assumption
    | split
    | dsimp only

theorem doXlateUpdateDone_change {U : List Part} {r0 : State} {q : Nat} {s : State} (hT : ([.regs, .tt, .checks, .flt, .icu, .hep, .wxl, .qen, .ctx, .qaux, .spl, .swc, .ports, .cores, .prl, .out] : List Part) ⊆ U) (hC0 : Change U r0 s) :
    Change U r0 (doXlateUpdateDone q s) := by
  have k1 : ([.regs, .tt, .flt, .icu, .hep, .wxl, .ctx, .qaux, .spl, .swc, .ports, .cores, .prl, .out] : List Part) ⊆ U := List.Subset.trans (by decide) hT
  have k2 : ([.regs, .tt, .flt, .icu, .hep, .wxl, .qen, .ctx, .qaux, .spl, .swc, .ports, .cores, .prl, .out] : List Part) ⊆ U := List.Subset.trans (by decide) hT
  have k3 : ([.wxl] : List Part) ⊆ U := List.Subset.trans (by decide) hT
  unfold doXlateUpdateDone
  repeat' first
    | with_reducible exact hC0
    | with_reducible refine Change.ite (fun _ => ?_) (fun _ => ?_)
    | with_reducible refine stopSettle_change k1 ?_
    | with_reducible refine finishOp_change k2 ?_
    | with_reducible refine qResume_change hT ?_
    | with_reducible refine Change.foldl (fun _ _ _ => ?_) ?_
    | with_reducible assumption
    | split
    | dsimp only
    | with_reducible refine Change.set_wxl k3 ?_

end Sys2Proof.Machine
end

