-- ==== Sys2Proof/Laws/Hbm.lean ====
section
/-! SUPPORT. What each operation of Machine/Hbm.lean may change. -/
set_option linter.all false
set_option linter.unusedTactic false
set_option linter.unreachableTactic false

namespace Sys2Proof.Machine

open Sys2Proof

theorem doHbmTrainingEnd_change {U : List Part} {r0 : State} {trained : Nat} {s : State} (hT : ([.regs, .hbm] : List Part) ⊆ U) (hC0 : Change U r0 s) :
    Change U r0 (doHbmTrainingEnd trained s) := by
  have k1 : ([.regs] : List Part) ⊆ U := List.Subset.trans (by decide) hT
  have k2 : ([.hbm] : List Part) ⊆ U := List.Subset.trans (by decide) hT
  unfold doHbmTrainingEnd
  repeat' first
    | with_reducible exact hC0
    | with_reducible refine Change.ite (fun _ => ?_) (fun _ => ?_)
    | with_reducible refine State.put_change k1 ?_
    | with_reducible refine Change.foldl (fun _ _ _ => ?_) ?_
    | with_reducible assumption
    | split
    | dsimp only
    | with_reducible refine Change.set_hbm k2 ?_

theorem doHbmFillEnd_change {U : List Part} {r0 : State} {s : State} (hT : ([.regs, .tt, .pins, .dev, .img, .checks, .flt, .icu, .pf, .vf, .hep, .wxl, .xt, .qen, .ctx, .qaux, .spl, .swc, .ports, .hbm, .mem, .gdc, .cores, .tcm, .prl, .out] : List Part) ⊆ U) (hC0 : Change U r0 s) :
    Change U r0 (doHbmFillEnd s) := by
  have k1 : ([.hbm, .mem] : List Part) ⊆ U := List.Subset.trans (by decide) hT
  have k2 : ([.hbm] : List Part) ⊆ U := List.Subset.trans (by decide) hT
  have k3 : ([.mem] : List Part) ⊆ U := List.Subset.trans (by decide) hT
  unfold doHbmFillEnd
  repeat' first
    | with_reducible exact hC0
    | with_reducible refine Change.ite (fun _ => ?_) (fun _ => ?_)
    | with_reducible refine imgInstall_change hT ?_
    | with_reducible refine Change.foldl (fun _ _ _ => ?_) ?_
    | with_reducible assumption
    | split
    | dsimp only
    | refine Change.set_hbm_mem k1 (by first | exact fun c => KMap.wf_set _ _ _ _ c.mem | exact fun c => KMap.wf_filter _ _ _ c.mem | exact fun _ => rfl) ?_
    | with_reducible refine Change.set_hbm k2 ?_
    | refine Change.set_mem k3 (by first | exact fun c => KMap.wf_set _ _ _ _ c.mem | exact fun c => KMap.wf_filter _ _ _ c.mem | exact fun _ => rfl) ?_

theorem doHbmEnable_change {U : List Part} {r0 : State} {a : Agent} {v : Word} {s : State} (hT : ([.regs, .tt, .pins, .dev, .img, .checks, .flt, .icu, .hep, .wxl, .qen, .ctx, .qaux, .spl, .swc, .ports, .hbm, .mem, .gdc, .cores, .tcm, .prl, .out] : List Part) ⊆ U) (hC0 : Change U r0 s) :
    Change U r0 (doHbmEnable a v s) := by
  unfold doHbmEnable
  repeat' first
    | with_reducible exact hC0
    | with_reducible refine Change.ite (fun _ => ?_) (fun _ => ?_)
    | with_reducible refine ctlWriteBy_change hT ?_
    | with_reducible refine Change.foldl (fun _ _ _ => ?_) ?_
    | with_reducible assumption
    | split
    | dsimp only

theorem doHbmAccess_change {U : List Part} {r0 : State} {r : HbmReq} {s : State} (hT : ([.regs, .tt, .flt, .icu, .swc, .hbm, .mem, .out, .free] : List Part) ⊆ U) (hC0 : Change U r0 s) :
    Change U r0 (doHbmAccess r s) := by
  have k1 : ([.regs, .tt, .flt, .icu, .hbm, .out] : List Part) ⊆ U := List.Subset.trans (by decide) hT
  have k2 : ([.regs, .tt, .flt, .icu, .hbm, .mem, .out] : List Part) ⊆ U := List.Subset.trans (by decide) hT
  have k3 : ([.hbm] : List Part) ⊆ U := List.Subset.trans (by decide) hT
  unfold doHbmAccess
  repeat' first
    | with_reducible exact hC0
    | with_reducible refine Change.ite (fun _ => ?_) (fun _ => ?_)
    | with_reducible refine hbmServeRead_change k1 ?_
    | (refine Change.of_pair (by assumption) ?_; with_reducible refine hbmServeRead_change k1 ?_)
    | with_reducible refine hbmServe_change hT ?_
    | with_reducible refine hbmServeWrite_change k2 ?_
    | with_reducible refine Change.foldl (fun _ _ _ => ?_) ?_
    | with_reducible refine Change.foldl_fst (fun _ _ _ => ?_) ?_
    | with_reducible refine Change.ite_fst (fun _ => ?_) (fun _ => ?_)
    | with_reducible assumption
    | split
    | dsimp only
    | with_reducible refine Change.set_hbm k3 ?_

theorem doRefreshInterval_change {U : List Part} {r0 : State} {s : State} (hT : ([.hbm] : List Part) ⊆ U) (hC0 : Change U r0 s) :
    Change U r0 (doRefreshInterval s) := by
  unfold doRefreshInterval
  repeat' first
    | with_reducible exact hC0
    | with_reducible refine Change.ite (fun _ => ?_) (fun _ => ?_)
    | with_reducible refine Change.foldl (fun _ _ _ => ?_) ?_
    | with_reducible assumption
    | split
    | dsimp only
    | with_reducible refine Change.set_hbm hT ?_

theorem doHbmTempReading_change {U : List Part} {r0 : State} {t : Nat} {s : State} (hT : ([.regs, .tt, .flt, .icu, .hbm, .out] : List Part) ⊆ U) (hC0 : Change U r0 s) :
    Change U r0 (doHbmTempReading t s) := by
  have k1 : ([.regs, .tt, .flt, .icu, .out] : List Part) ⊆ U := List.Subset.trans (by decide) hT
  have k2 : ([.regs] : List Part) ⊆ U := List.Subset.trans (by decide) hT
  have k3 : ([.hbm] : List Part) ⊆ U := List.Subset.trans (by decide) hT
  unfold doHbmTempReading
  repeat' first
    | with_reducible exact hC0
    | with_reducible refine Change.ite (fun _ => ?_) (fun _ => ?_)
    | with_reducible refine faultEvent_change k1 ?_
    | with_reducible refine State.put_change k2 ?_
    | with_reducible refine Change.foldl (fun _ _ _ => ?_) ?_
    | with_reducible assumption
    | split
    | dsimp only
    | with_reducible refine Change.set_hbm k3 ?_

theorem repairLog_change {U : List Part} {r0 : State} {pc : Nat} {bank : Nat} {row : Nat} {s : State} (hT : ([.regs] : List Part) ⊆ U) (hC0 : Change U r0 s) :
    Change U r0 (repairLog pc bank row s) := by
  unfold repairLog
  repeat' first
    | with_reducible exact hC0
    | with_reducible refine Change.ite (fun _ => ?_) (fun _ => ?_)
    | with_reducible refine State.setReg_change hT ?_
    | with_reducible refine State.put_change hT ?_
    | with_reducible refine Change.foldl (fun _ _ _ => ?_) ?_
    | with_reducible assumption
    | split
    | dsimp only

theorem doRowTestEnd_change {U : List Part} {r0 : State} {pc : Nat} {bank : Nat} {row : Nat} {pass : Bool} {s : State} (hT : ([.regs, .tt, .dev, .flt, .icu, .wxl, .spl, .hbm, .out] : List Part) ⊆ U) (hC0 : Change U r0 s) :
    Change U r0 (doRowTestEnd pc bank row pass s) := by
  have k1 : ([.regs, .flt] : List Part) ⊆ U := List.Subset.trans (by decide) hT
  have k2 : ([.regs] : List Part) ⊆ U := List.Subset.trans (by decide) hT
  have k3 : ([.regs, .tt, .flt, .icu, .out] : List Part) ⊆ U := List.Subset.trans (by decide) hT
  have k4 : ([.hbm] : List Part) ⊆ U := List.Subset.trans (by decide) hT
  unfold doRowTestEnd
  repeat' first
    | with_reducible exact hC0
    | with_reducible refine Change.ite (fun _ => ?_) (fun _ => ?_)
    | with_reducible refine startTest_change k1 ?_
    | with_reducible refine State.bump_change k2 ?_
    | with_reducible refine testDone_change k1 ?_
    | with_reducible refine hbmRetire_change hT ?_
    | with_reducible refine faultEvent_change k3 ?_
    | with_reducible refine untrackRow_change k4 ?_
    | with_reducible refine repairLog_change k2 ?_
    | with_reducible refine Change.foldl (fun _ _ _ => ?_) ?_
    | with_reducible assumption
    | split
    | dsimp only
    | with_reducible refine Change.set_hbm k4 ?_

theorem doPcTestEnd_change {U : List Part} {r0 : State} {pc : Nat} {pass : Bool} {s : State} (hT : ([.regs, .tt, .dev, .flt, .icu, .wxl, .spl, .hbm, .out] : List Part) ⊆ U) (hC0 : Change U r0 s) :
    Change U r0 (doPcTestEnd pc pass s) := by
  have k1 : ([.regs, .flt] : List Part) ⊆ U := List.Subset.trans (by decide) hT
  have k2 : ([.hbm] : List Part) ⊆ U := List.Subset.trans (by decide) hT
  unfold doPcTestEnd
  repeat' first
    | with_reducible exact hC0
    | with_reducible refine Change.ite (fun _ => ?_) (fun _ => ?_)
    | with_reducible refine startTest_change k1 ?_
    | with_reducible refine testDone_change k1 ?_
    | with_reducible refine hbmRetire_change hT ?_
    | with_reducible refine Change.foldl (fun _ _ _ => ?_) ?_
    | with_reducible assumption
    | split
    | dsimp only
    | with_reducible refine Change.set_hbm k2 ?_

theorem doPatrolScrub_change {U : List Part} {r0 : State} {off : Nat} {ecc : Ecc} {s : State} (hT : ([.regs, .tt, .flt, .icu, .hbm, .out] : List Part) ⊆ U) (hC0 : Change U r0 s) :
    Change U r0 (doPatrolScrub off ecc s) := by
  have k1 : ([.regs] : List Part) ⊆ U := List.Subset.trans (by decide) hT
  have k2 : ([.hbm] : List Part) ⊆ U := List.Subset.trans (by decide) hT
  unfold doPatrolScrub
  repeat' first
    | with_reducible exact hC0
    | with_reducible refine Change.ite (fun _ => ?_) (fun _ => ?_)
    | with_reducible refine State.bump_change k1 ?_
    | with_reducible refine eccUe_change hT ?_
    | with_reducible refine eccCe_change hT ?_
    | with_reducible refine Change.foldl (fun _ _ _ => ?_) ?_
    | with_reducible assumption
    | split
    | dsimp only
    | with_reducible refine Change.set_hbm k2 ?_

theorem doSelfRefreshEntry_change {U : List Part} {r0 : State} {s : State} (hT : ([.regs, .hbm] : List Part) ⊆ U) (hC0 : Change U r0 s) :
    Change U r0 (doSelfRefreshEntry s) := by
  have k1 : ([.regs] : List Part) ⊆ U := List.Subset.trans (by decide) hT
  have k2 : ([.hbm] : List Part) ⊆ U := List.Subset.trans (by decide) hT
  unfold doSelfRefreshEntry
  repeat' first
    | with_reducible exact hC0
    | with_reducible refine Change.ite (fun _ => ?_) (fun _ => ?_)
    | with_reducible refine State.bump_change k1 ?_
    | with_reducible refine State.put_change k1 ?_
    | with_reducible refine Change.foldl (fun _ _ _ => ?_) ?_
    | with_reducible assumption
    | split
    | dsimp only
    | with_reducible refine Change.set_hbm k2 ?_

theorem doSelfRefreshExit_change {U : List Part} {r0 : State} {s : State} (hT : ([.regs, .hbm] : List Part) ⊆ U) (hC0 : Change U r0 s) :
    Change U r0 (doSelfRefreshExit s) := by
  have k1 : ([.regs] : List Part) ⊆ U := List.Subset.trans (by decide) hT
  have k2 : ([.hbm] : List Part) ⊆ U := List.Subset.trans (by decide) hT
  unfold doSelfRefreshExit
  repeat' first
    | with_reducible exact hC0
    | with_reducible refine Change.ite (fun _ => ?_) (fun _ => ?_)
    | with_reducible refine State.bump_change k1 ?_
    | with_reducible refine Change.foldl (fun _ _ _ => ?_) ?_
    | with_reducible assumption
    | split
    | dsimp only
    | with_reducible refine Change.set_hbm k2 ?_

theorem doSelfRefreshPairExit_change {U : List Part} {r0 : State} {first : Nat} {s : State} (hT : ([.regs, .hbm] : List Part) ⊆ U) (hC0 : Change U r0 s) :
    Change U r0 (doSelfRefreshPairExit first s) := by
  have k1 : ([.hbm] : List Part) ⊆ U := List.Subset.trans (by decide) hT
  unfold doSelfRefreshPairExit
  repeat' first
    | with_reducible exact hC0
    | with_reducible refine Change.ite (fun _ => ?_) (fun _ => ?_)
    | with_reducible refine srDone_change hT ?_
    | with_reducible refine Change.foldl (fun _ _ _ => ?_) ?_
    | with_reducible assumption
    | split
    | dsimp only
    | with_reducible refine Change.set_hbm k1 ?_

theorem doDqRecalibrationEnd_change {U : List Part} {r0 : State} {pc : Nat} {ok : Bool} {s : State} (hT : ([.regs, .flt, .hbm] : List Part) ⊆ U) (hC0 : Change U r0 s) :
    Change U r0 (doDqRecalibrationEnd pc ok s) := by
  have k1 : ([.regs, .hbm] : List Part) ⊆ U := List.Subset.trans (by decide) hT
  have k2 : ([.hbm] : List Part) ⊆ U := List.Subset.trans (by decide) hT
  unfold doDqRecalibrationEnd
  repeat' first
    | with_reducible exact hC0
    | with_reducible refine Change.ite (fun _ => ?_) (fun _ => ?_)
    | with_reducible refine pcTestStart_change hT ?_
    | with_reducible refine srDone_change k1 ?_
    | with_reducible refine Change.foldl (fun _ _ _ => ?_) ?_
    | with_reducible assumption
    | split
    | dsimp only
    | with_reducible refine Change.set_hbm k2 ?_

end Sys2Proof.Machine
end

