-- ==== Sys2Proof/Laws/Power.lean ====
section
/-! SUPPORT. What each operation of Machine/Power.lean may change. -/
set_option linter.all false
set_option linter.unusedTactic false
set_option linter.unreachableTactic false

namespace Sys2Proof.Machine

open Sys2Proof

theorem railsOn_change {U : List Part} {r0 : State} {cause : Nat} {s : State} (hT : ([.regs, .tt] : List Part) ⊆ U) (hC0 : Change U r0 s) :
    Change U r0 (railsOn cause s) := by
  have k1 : ([.tt] : List Part) ⊆ U := List.Subset.trans (by decide) hT
  unfold railsOn
  repeat' first
    | with_reducible exact hC0
    | with_reducible refine Change.ite (fun _ => ?_) (fun _ => ?_)
    | with_reducible refine powerUp_change hT ?_
    | with_reducible refine Change.foldl (fun _ _ _ => ?_) ?_
    | with_reducible assumption
    | split
    | dsimp only
    | with_reducible refine Change.set_tt k1 ?_

theorem doTetherResetRelease_change {U : List Part} {r0 : State} {s : State} (hT : ([.regs, .tt, .dev, .free] : List Part) ⊆ U) (hC0 : Change U r0 s) :
    Change U r0 (doTetherResetRelease s) := by
  have k1 : ([.regs] : List Part) ⊆ U := List.Subset.trans (by decide) hT
  have k2 : ([.free] : List Part) ⊆ U := List.Subset.trans (by decide) hT
  have k3 : ([.regs, .tt] : List Part) ⊆ U := List.Subset.trans (by decide) hT
  have k4 : ([.tt, .dev] : List Part) ⊆ U := List.Subset.trans (by decide) hT
  have k5 : ([.tt] : List Part) ⊆ U := List.Subset.trans (by decide) hT
  have k6 : ([.dev] : List Part) ⊆ U := List.Subset.trans (by decide) hT
  unfold doTetherResetRelease
  repeat' first
    | with_reducible exact hC0
    | with_reducible refine Change.ite (fun _ => ?_) (fun _ => ?_)
    | with_reducible refine State.put_change k1 ?_
    | with_reducible refine State.useFree_change k2 ?_
    | with_reducible refine railsOn_change k3 ?_
    | with_reducible refine Change.foldl (fun _ _ _ => ?_) ?_
    | with_reducible assumption
    | split
    | dsimp only
    | with_reducible refine Change.set_tt_dev k4 ?_
    | with_reducible refine Change.set_tt k5 ?_
    | with_reducible refine Change.set_dev k6 ?_

theorem doVddTtLoss_change {U : List Part} {r0 : State} {s : State} (hT : ([.regs, .tt, .pins, .dev, .pwr, .img, .checks, .flt, .icu, .pf, .vf, .fns, .msix, .hep, .wxl, .xt, .qen, .ctx, .qaux, .spl, .swc, .ports, .hbm, .mem, .gdc, .cores, .sram, .tcm, .prl, .out, .free] : List Part) ⊆ U) (hC0 : Change U r0 s) :
    Change U r0 (doVddTtLoss s) := by
  exact hC0.trans (Change.mono hT ⟨rfl, fun c => ⟨rfl, rfl, rfl, rfl, rfl, rfl, rfl, rfl, rfl, rfl, rfl, rfl, rfl, rfl⟩,
    List.prefix_refl _, Nat.le_refl _, fun p hp => by cases p <;> exact absurd (by decide) hp⟩)

theorem doTtPgoodMainAssert_change {U : List Part} {r0 : State} {s : State} (hT : ([.regs, .tt, .dev] : List Part) ⊆ U) (hC0 : Change U r0 s) :
    Change U r0 (doTtPgoodMainAssert s) := by
  have k1 : ([.regs] : List Part) ⊆ U := List.Subset.trans (by decide) hT
  have k2 : ([.tt, .dev] : List Part) ⊆ U := List.Subset.trans (by decide) hT
  have k3 : ([.tt] : List Part) ⊆ U := List.Subset.trans (by decide) hT
  have k4 : ([.dev] : List Part) ⊆ U := List.Subset.trans (by decide) hT
  unfold doTtPgoodMainAssert
  repeat' first
    | with_reducible exact hC0
    | with_reducible refine Change.ite (fun _ => ?_) (fun _ => ?_)
    | with_reducible refine State.bump_change k1 ?_
    | with_reducible refine State.put_change k1 ?_
    | with_reducible refine Change.foldl (fun _ _ _ => ?_) ?_
    | with_reducible assumption
    | split
    | dsimp only
    | with_reducible refine Change.set_tt_dev k2 ?_
    | with_reducible refine Change.set_tt k3 ?_
    | with_reducible refine Change.set_dev k4 ?_

theorem doMainPowerLoss_change {U : List Part} {r0 : State} {s : State} (hT : ([.regs, .tt, .pins, .dev, .pwr, .img, .checks, .flt, .icu, .pf, .vf, .fns, .msix, .hep, .wxl, .xt, .qen, .ctx, .qaux, .spl, .swc, .ports, .hbm, .mem, .gdc, .cores, .sram, .tcm, .prl, .out, .free] : List Part) ⊆ U) (hC0 : Change U r0 s) :
    Change U r0 (doMainPowerLoss s) := by
  have k1 : ([.regs] : List Part) ⊆ U := List.Subset.trans (by decide) hT
  have k2 : ([.tt, .dev] : List Part) ⊆ U := List.Subset.trans (by decide) hT
  have k3 : ([.tt] : List Part) ⊆ U := List.Subset.trans (by decide) hT
  have k4 : ([.dev] : List Part) ⊆ U := List.Subset.trans (by decide) hT
  unfold doMainPowerLoss
  repeat' first
    | with_reducible exact hC0
    | with_reducible refine Change.ite (fun _ => ?_) (fun _ => ?_)
    | with_reducible refine State.put_change k1 ?_
    | with_reducible refine mainReset_change hT ?_
    | with_reducible refine Change.foldl (fun _ _ _ => ?_) ?_
    | with_reducible assumption
    | split
    | dsimp only
    | with_reducible refine Change.set_tt_dev k2 ?_
    | with_reducible refine Change.set_tt k3 ?_
    | with_reducible refine Change.set_dev k4 ?_

theorem doMainPowerDownDone_change {U : List Part} {r0 : State} {s : State} (hT : ([.regs, .tt, .pins, .dev, .pwr, .img, .checks, .flt, .icu, .pf, .vf, .fns, .msix, .hep, .wxl, .xt, .qen, .ctx, .qaux, .spl, .swc, .ports, .hbm, .mem, .gdc, .cores, .sram, .tcm, .prl, .out, .free] : List Part) ⊆ U) (hC0 : Change U r0 s) :
    Change U r0 (doMainPowerDownDone s) := by
  have k1 : ([.regs] : List Part) ⊆ U := List.Subset.trans (by decide) hT
  have k2 : ([.tt, .dev] : List Part) ⊆ U := List.Subset.trans (by decide) hT
  have k3 : ([.tt] : List Part) ⊆ U := List.Subset.trans (by decide) hT
  have k4 : ([.dev] : List Part) ⊆ U := List.Subset.trans (by decide) hT
  unfold doMainPowerDownDone
  repeat' first
    | with_reducible exact hC0
    | with_reducible refine Change.ite (fun _ => ?_) (fun _ => ?_)
    | with_reducible refine State.put_change k1 ?_
    | with_reducible refine mainReset_change hT ?_
    | with_reducible refine Change.foldl (fun _ _ _ => ?_) ?_
    | with_reducible assumption
    | split
    | dsimp only
    | with_reducible refine Change.set_tt_dev k2 ?_
    | with_reducible refine Change.set_tt k3 ?_
    | with_reducible refine Change.set_dev k4 ?_

theorem doMainOffTimeExpiry_change {U : List Part} {r0 : State} {s : State} (hT : ([.regs, .tt] : List Part) ⊆ U) (hC0 : Change U r0 s) :
    Change U r0 (doMainOffTimeExpiry s) := by
  have k1 : ([.tt] : List Part) ⊆ U := List.Subset.trans (by decide) hT
  unfold doMainOffTimeExpiry
  repeat' first
    | with_reducible exact hC0
    | with_reducible refine Change.ite (fun _ => ?_) (fun _ => ?_)
    | with_reducible refine railsOn_change hT ?_
    | with_reducible refine Change.foldl (fun _ _ _ => ?_) ?_
    | with_reducible assumption
    | split
    | dsimp only
    | with_reducible refine Change.set_tt k1 ?_

theorem wakeUp_change {U : List Part} {r0 : State} {cause : Nat} {s : State} (hT : ([.regs, .tt] : List Part) ⊆ U) (hC0 : Change U r0 s) :
    Change U r0 (wakeUp cause s) := by
  have k1 : ([.tt] : List Part) ⊆ U := List.Subset.trans (by decide) hT
  unfold wakeUp
  repeat' first
    | with_reducible exact hC0
    | with_reducible refine Change.ite (fun _ => ?_) (fun _ => ?_)
    | with_reducible refine wakeNLow_change k1 ?_
    | with_reducible refine railsOn_change hT ?_
    | with_reducible refine Change.foldl (fun _ _ _ => ?_) ?_
    | with_reducible assumption
    | split
    | dsimp only
    | with_reducible refine Change.set_tt k1 ?_

theorem wakeBit_change {U : List Part} {r0 : State} {sts : Field} {en : Field} {i : Nat} {cause : Nat} {s : State} (hT : ([.regs, .tt] : List Part) ⊆ U) (hC0 : Change U r0 s) :
    Change U r0 (wakeBit sts en i cause s) := by
  have k1 : ([.regs] : List Part) ⊆ U := List.Subset.trans (by decide) hT
  unfold wakeBit
  repeat' first
    | with_reducible exact hC0
    | with_reducible refine Change.ite (fun _ => ?_) (fun _ => ?_)
    | with_reducible refine wakeUp_change hT ?_
    | with_reducible refine State.put_change k1 ?_
    | with_reducible refine Change.foldl (fun _ _ _ => ?_) ?_
    | with_reducible assumption
    | split
    | dsimp only

theorem doWakeCause_change {U : List Part} {r0 : State} {src : WakeSrc} {s : State} (hT : ([.regs, .tt] : List Part) ⊆ U) (hC0 : Change U r0 s) :
    Change U r0 (doWakeCause src s) := by
  have k1 : ([.regs] : List Part) ⊆ U := List.Subset.trans (by decide) hT
  unfold doWakeCause
  repeat' first
    | with_reducible exact hC0
    | with_reducible refine Change.ite (fun _ => ?_) (fun _ => ?_)
    | with_reducible refine icuWake_change hT ?_
    | with_reducible refine wakeUp_change hT ?_
    | with_reducible refine State.put_change k1 ?_
    | with_reducible refine wakeBit_change hT ?_
    | with_reducible refine Change.foldl (fun _ _ _ => ?_) ?_
    | with_reducible assumption
    | split
    | dsimp only

theorem doTtWakeDebounced_change {U : List Part} {r0 : State} {k : Nat} {s : State} (hT : ([.regs, .tt] : List Part) ⊆ U) (hC0 : Change U r0 s) :
    Change U r0 (doTtWakeDebounced k s) := by
  unfold doTtWakeDebounced
  repeat' first
    | with_reducible exact hC0
    | with_reducible refine Change.ite (fun _ => ?_) (fun _ => ?_)
    | with_reducible refine doWakeCause_change hT ?_
    | with_reducible refine Change.foldl (fun _ _ _ => ?_) ?_
    | with_reducible assumption
    | split
    | dsimp only

theorem doPerstNAssert_change {U : List Part} {r0 : State} {s : State} (hT : ([.regs, .tt, .pins, .dev, .pwr, .img, .checks, .flt, .icu, .pf, .vf, .fns, .msix, .hep, .wxl, .xt, .qen, .ctx, .qaux, .spl, .swc, .ports, .hbm, .mem, .gdc, .cores, .sram, .tcm, .prl, .out, .free] : List Part) ⊆ U) (hC0 : Change U r0 s) :
    Change U r0 (doPerstNAssert s) := by
  have k1 : ([.regs, .tt, .dev, .flt, .icu, .spl, .out] : List Part) ⊆ U := List.Subset.trans (by decide) hT
  have k2 : ([.pins, .dev] : List Part) ⊆ U := List.Subset.trans (by decide) hT
  have k3 : ([.dev] : List Part) ⊆ U := List.Subset.trans (by decide) hT
  have k4 : ([.pins] : List Part) ⊆ U := List.Subset.trans (by decide) hT
  unfold doPerstNAssert
  repeat' first
    | with_reducible exact hC0
    | with_reducible refine Change.ite (fun _ => ?_) (fun _ => ?_)
    | with_reducible refine mainReset_change hT ?_
    | with_reducible refine enterTether_change k1 ?_
    | with_reducible refine Change.foldl (fun _ _ _ => ?_) ?_
    | with_reducible assumption
    | split
    | dsimp only
    | with_reducible refine Change.set_pins_dev k2 ?_
    | with_reducible refine Change.set_dev k3 ?_
    | with_reducible refine Change.set_pins k4 ?_

theorem doPerstNDeassert_change {U : List Part} {r0 : State} {strap : Nat} {pairId : Nat} {s : State} (hT : ([.regs, .tt, .pins, .dev] : List Part) ⊆ U) (hC0 : Change U r0 s) :
    Change U r0 (doPerstNDeassert strap pairId s) := by
  have k1 : ([.regs, .tt] : List Part) ⊆ U := List.Subset.trans (by decide) hT
  have k2 : ([.pins, .dev] : List Part) ⊆ U := List.Subset.trans (by decide) hT
  have k3 : ([.dev] : List Part) ⊆ U := List.Subset.trans (by decide) hT
  have k4 : ([.pins] : List Part) ⊆ U := List.Subset.trans (by decide) hT
  unfold doPerstNDeassert
  repeat' first
    | with_reducible exact hC0
    | with_reducible refine Change.ite (fun _ => ?_) (fun _ => ?_)
    | with_reducible refine doWakeCause_change k1 ?_
    | with_reducible refine Change.foldl (fun _ _ _ => ?_) ?_
    | with_reducible assumption
    | split
    | dsimp only
    | with_reducible refine Change.set_pins_dev k2 ?_
    | with_reducible refine Change.set_dev k3 ?_
    | with_reducible refine Change.set_pins k4 ?_

theorem hbmBegin_change {U : List Part} {r0 : State} {s : State} (hT : ([.regs, .msix, .xt, .ctx, .hbm, .mem] : List Part) ⊆ U) (hC0 : Change U r0 s) :
    Change U r0 (hbmBegin s) := by
  have k1 : ([.regs] : List Part) ⊆ U := List.Subset.trans (by decide) hT
  have k2 : ([.msix, .xt, .ctx, .hbm, .mem] : List Part) ⊆ U := List.Subset.trans (by decide) hT
  have k3 : ([.hbm, .mem] : List Part) ⊆ U := List.Subset.trans (by decide) hT
  have k4 : ([.hbm] : List Part) ⊆ U := List.Subset.trans (by decide) hT
  have k5 : ([.mem] : List Part) ⊆ U := List.Subset.trans (by decide) hT
  have k6 : ([.xt] : List Part) ⊆ U := List.Subset.trans (by decide) hT
  have k7 : ([.ctx] : List Part) ⊆ U := List.Subset.trans (by decide) hT
  have k8 : ([.msix] : List Part) ⊆ U := List.Subset.trans (by decide) hT
  unfold hbmBegin
  repeat' first
    | with_reducible exact hC0
    | with_reducible refine Change.ite (fun _ => ?_) (fun _ => ?_)
    | with_reducible refine State.setReg_change k1 ?_
    | with_reducible refine Change.foldl (fun _ _ _ => ?_) ?_
    | with_reducible assumption
    | split
    | dsimp only
    | refine Change.set_msix_xt_ctx_hbm_mem k2 (by first | exact fun c => KMap.wf_set _ _ _ _ c.msix | exact fun c => KMap.wf_filter _ _ _ c.msix | exact fun _ => rfl) (by first | exact fun c => KMap.wf_set _ _ _ _ c.xt | exact fun c => KMap.wf_filter _ _ _ c.xt | exact fun _ => rfl) (by first | exact fun c => KMap.wf_set _ _ _ _ c.ctx | exact fun c => KMap.wf_filter _ _ _ c.ctx | exact fun _ => rfl) (by first | exact fun c => KMap.wf_set _ _ _ _ c.mem | exact fun c => KMap.wf_filter _ _ _ c.mem | exact fun _ => rfl) ?_
    | refine Change.set_hbm_mem k3 (by first | exact fun c => KMap.wf_set _ _ _ _ c.mem | exact fun c => KMap.wf_filter _ _ _ c.mem | exact fun _ => rfl) ?_
    | with_reducible refine Change.set_hbm k4 ?_
    | refine Change.set_mem k5 (by first | exact fun c => KMap.wf_set _ _ _ _ c.mem | exact fun c => KMap.wf_filter _ _ _ c.mem | exact fun _ => rfl) ?_
    | refine Change.set_xt k6 (by first | exact fun c => KMap.wf_set _ _ _ _ c.xt | exact fun c => KMap.wf_filter _ _ _ c.xt | exact fun _ => rfl) ?_
    | refine Change.set_ctx k7 (by first | exact fun c => KMap.wf_set _ _ _ _ c.ctx | exact fun c => KMap.wf_filter _ _ _ c.ctx | exact fun _ => rfl) ?_
    | refine Change.set_msix k8 (by first | exact fun c => KMap.wf_set _ _ _ _ c.msix | exact fun c => KMap.wf_filter _ _ _ c.msix | exact fun _ => rfl) ?_

theorem epochsNew_change {U : List Part} {r0 : State} {s : State} (hT : ([.regs] : List Part) ⊆ U) (hC0 : Change U r0 s) :
    Change U r0 (epochsNew s) := by
  unfold epochsNew
  repeat' first
    | with_reducible exact hC0
    | with_reducible refine Change.ite (fun _ => ?_) (fun _ => ?_)
    | with_reducible refine State.put_change hT ?_
    | with_reducible refine Change.foldl (fun _ _ _ => ?_) ?_
    | with_reducible assumption
    | split
    | dsimp only

theorem bootBegin_change {U : List Part} {r0 : State} {src : Nat} {s : State} (hT : ([.regs, .tt, .dev, .img, .checks, .flt, .icu, .fns, .msix, .hep, .wxl, .xt, .qen, .ctx, .qaux, .spl, .swc, .ports, .hbm, .mem, .cores, .prl, .out] : List Part) ⊆ U) (hC0 : Change U r0 s) :
    Change U r0 (bootBegin src s) := by
  have k1 : ([.regs, .tt, .dev, .img, .checks, .flt, .icu, .fns, .msix, .hep, .wxl, .qen, .ctx, .qaux, .spl, .swc, .ports, .hbm, .cores, .prl, .out] : List Part) ⊆ U := List.Subset.trans (by decide) hT
  have k2 : ([.regs] : List Part) ⊆ U := List.Subset.trans (by decide) hT
  have k3 : ([.regs, .msix, .xt, .ctx, .hbm, .mem] : List Part) ⊆ U := List.Subset.trans (by decide) hT
  have k4 : ([.tt] : List Part) ⊆ U := List.Subset.trans (by decide) hT
  unfold bootBegin
  repeat' first
    | with_reducible exact hC0
    | with_reducible refine Change.ite (fun _ => ?_) (fun _ => ?_)
    | with_reducible refine bootFrom_change k1 ?_
    | with_reducible refine epochsNew_change k2 ?_
    | with_reducible refine hbmBegin_change k3 ?_
    | with_reducible refine Change.foldl (fun _ _ _ => ?_) ?_
    | with_reducible assumption
    | split
    | dsimp only
    | with_reducible refine Change.set_tt k4 ?_

theorem doRootPllLock_change {U : List Part} {r0 : State} {s : State} (hT : ([.regs, .tt, .dev, .img, .checks, .flt, .icu, .fns, .msix, .hep, .wxl, .xt, .qen, .ctx, .qaux, .spl, .swc, .ports, .hbm, .mem, .cores, .prl, .out] : List Part) ⊆ U) (hC0 : Change U r0 s) :
    Change U r0 (doRootPllLock s) := by
  have k1 : ([.regs] : List Part) ⊆ U := List.Subset.trans (by decide) hT
  have k2 : ([.regs, .tt, .flt, .icu, .out] : List Part) ⊆ U := List.Subset.trans (by decide) hT
  have k3 : ([.tt, .dev] : List Part) ⊆ U := List.Subset.trans (by decide) hT
  have k4 : ([.tt] : List Part) ⊆ U := List.Subset.trans (by decide) hT
  have k5 : ([.dev] : List Part) ⊆ U := List.Subset.trans (by decide) hT
  unfold doRootPllLock
  repeat' first
    | with_reducible exact hC0
    | with_reducible refine Change.ite (fun _ => ?_) (fun _ => ?_)
    | with_reducible refine State.setReg_change k1 ?_
    | with_reducible refine faultEvent_change k2 ?_
    | with_reducible refine State.put_change k1 ?_
    | with_reducible refine bootBegin_change hT ?_
    | with_reducible refine Change.foldl (fun _ _ _ => ?_) ?_
    | with_reducible assumption
    | split
    | dsimp only
    | with_reducible refine Change.set_tt_dev k3 ?_
    | with_reducible refine Change.set_tt k4 ?_
    | with_reducible refine Change.set_dev k5 ?_

theorem doPllUnlock_change {U : List Part} {r0 : State} {clkStopped : Bool} {s : State} (hT : ([.regs, .tt, .flt, .icu, .out] : List Part) ⊆ U) (hC0 : Change U r0 s) :
    Change U r0 (doPllUnlock clkStopped s) := by
  have k1 : ([.regs] : List Part) ⊆ U := List.Subset.trans (by decide) hT
  unfold doPllUnlock
  repeat' first
    | with_reducible exact hC0
    | with_reducible refine Change.ite (fun _ => ?_) (fun _ => ?_)
    | with_reducible refine State.bump_change k1 ?_
    | with_reducible refine faultEvent_change hT ?_
    | with_reducible refine State.put_change k1 ?_
    | with_reducible refine Change.foldl (fun _ _ _ => ?_) ?_
    | with_reducible assumption
    | split
    | dsimp only

theorem portClockLoss_change {U : List Part} {r0 : State} {p : Nat} {s : State} (hT : ([.regs, .tt, .checks, .flt, .icu, .hep, .wxl, .qen, .ctx, .qaux, .spl, .swc, .ports, .cores, .prl, .out] : List Part) ⊆ U) (hC0 : Change U r0 s) :
    Change U r0 (portClockLoss p s) := by
  have k1 : ([.regs, .tt, .checks, .flt, .icu, .ports, .prl, .out] : List Part) ⊆ U := List.Subset.trans (by decide) hT
  unfold portClockLoss
  repeat' first
    | with_reducible exact hC0
    | with_reducible refine Change.ite (fun _ => ?_) (fun _ => ?_)
    | with_reducible refine toRetrain_change k1 ?_
    | with_reducible refine trainFail_change hT ?_
    | with_reducible refine Change.foldl (fun _ _ _ => ?_) ?_
    | with_reducible assumption
    | split
    | dsimp only

theorem doRefclkLoss_change {U : List Part} {r0 : State} {host : Bool} {s : State} (hT : ([.regs, .tt, .dev, .checks, .flt, .icu, .fns, .msix, .hep, .wxl, .qen, .ctx, .qaux, .spl, .swc, .ports, .hbm, .cores, .prl, .out] : List Part) ⊆ U) (hC0 : Change U r0 s) :
    Change U r0 (doRefclkLoss host s) := by
  have k1 : ([.regs, .tt, .checks, .flt, .icu, .hep, .wxl, .qen, .ctx, .qaux, .spl, .swc, .ports, .cores, .prl, .out] : List Part) ⊆ U := List.Subset.trans (by decide) hT
  have k2 : ([.regs] : List Part) ⊆ U := List.Subset.trans (by decide) hT
  unfold doRefclkLoss
  repeat' first
    | with_reducible exact hC0
    | with_reducible refine Change.ite (fun _ => ?_) (fun _ => ?_)
    | with_reducible refine portClockLoss_change k1 ?_
    | with_reducible refine State.put_change k2 ?_
    | with_reducible refine hostLinkDown_change hT ?_
    | with_reducible refine Change.foldl (fun _ _ _ => ?_) ?_
    | with_reducible assumption
    | split
    | dsimp only

theorem stretchSync_change {U : List Part} {r0 : State} {s : State} (hT : ([.regs, .pwr] : List Part) ⊆ U) (hC0 : Change U r0 s) :
    Change U r0 (stretchSync s) := by
  have k1 : ([.regs] : List Part) ⊆ U := List.Subset.trans (by decide) hT
  have k2 : ([.pwr] : List Part) ⊆ U := List.Subset.trans (by decide) hT
  unfold stretchSync
  repeat' first
    | with_reducible exact hC0
    | with_reducible refine Change.ite (fun _ => ?_) (fun _ => ?_)
    | with_reducible refine State.put_change k1 ?_
    | with_reducible refine Change.foldl (fun _ _ _ => ?_) ?_
    | with_reducible assumption
    | split
    | dsimp only
    | with_reducible refine Change.set_pwr k2 ?_

theorem doDroopThresholdCrossing_change {U : List Part} {r0 : State} {mv : Nat} {s : State} (hT : ([.regs, .tt, .pwr, .flt, .icu, .out] : List Part) ⊆ U) (hC0 : Change U r0 s) :
    Change U r0 (doDroopThresholdCrossing mv s) := by
  have k1 : ([.regs] : List Part) ⊆ U := List.Subset.trans (by decide) hT
  have k2 : ([.regs, .tt, .flt, .icu, .out] : List Part) ⊆ U := List.Subset.trans (by decide) hT
  have k3 : ([.regs, .pwr] : List Part) ⊆ U := List.Subset.trans (by decide) hT
  have k4 : ([.pwr] : List Part) ⊆ U := List.Subset.trans (by decide) hT
  unfold doDroopThresholdCrossing
  repeat' first
    | with_reducible exact hC0
    | with_reducible refine Change.ite (fun _ => ?_) (fun _ => ?_)
    | with_reducible refine State.bump_change k1 ?_
    | with_reducible refine faultEvent_change k2 ?_
    | with_reducible refine stretchSync_change k3 ?_
    | with_reducible refine Change.foldl (fun _ _ _ => ?_) ?_
    | with_reducible assumption
    | split
    | dsimp only
    | with_reducible refine Change.set_pwr k4 ?_

theorem doDroopCauseEnd_change {U : List Part} {r0 : State} {th2 : Bool} {s : State} (hT : ([.regs, .pwr] : List Part) ⊆ U) (hC0 : Change U r0 s) :
    Change U r0 (doDroopCauseEnd th2 s) := by
  have k1 : ([.pwr] : List Part) ⊆ U := List.Subset.trans (by decide) hT
  unfold doDroopCauseEnd
  repeat' first
    | with_reducible exact hC0
    | with_reducible refine Change.ite (fun _ => ?_) (fun _ => ?_)
    | with_reducible refine stretchSync_change hT ?_
    | with_reducible refine Change.foldl (fun _ _ _ => ?_) ?_
    | with_reducible assumption
    | split
    | dsimp only
    | with_reducible refine Change.set_pwr k1 ?_

theorem doStretchReturnIncrement_change {U : List Part} {r0 : State} {s : State} (hT : ([.regs, .pwr] : List Part) ⊆ U) (hC0 : Change U r0 s) :
    Change U r0 (doStretchReturnIncrement s) := by
  have k1 : ([.pwr] : List Part) ⊆ U := List.Subset.trans (by decide) hT
  unfold doStretchReturnIncrement
  repeat' first
    | with_reducible exact hC0
    | with_reducible refine Change.ite (fun _ => ?_) (fun _ => ?_)
    | with_reducible refine stretchSync_change hT ?_
    | with_reducible refine Change.foldl (fun _ _ _ => ?_) ?_
    | with_reducible assumption
    | split
    | dsimp only
    | with_reducible refine Change.set_pwr k1 ?_

theorem doLswRecognised_change {U : List Part} {r0 : State} {s : State} (hT : ([.regs, .pins, .pwr, .spl] : List Part) ⊆ U) (hC0 : Change U r0 s) :
    Change U r0 (doLswRecognised s) := by
  have k1 : ([.regs] : List Part) ⊆ U := List.Subset.trans (by decide) hT
  have k2 : ([.regs, .pwr] : List Part) ⊆ U := List.Subset.trans (by decide) hT
  have k3 : ([.pwr, .spl] : List Part) ⊆ U := List.Subset.trans (by decide) hT
  have k4 : ([.pins, .pwr] : List Part) ⊆ U := List.Subset.trans (by decide) hT
  have k5 : ([.spl] : List Part) ⊆ U := List.Subset.trans (by decide) hT
  have k6 : ([.pins] : List Part) ⊆ U := List.Subset.trans (by decide) hT
  have k7 : ([.pwr] : List Part) ⊆ U := List.Subset.trans (by decide) hT
  unfold doLswRecognised
  repeat' first
    | with_reducible exact hC0
    | with_reducible refine Change.ite (fun _ => ?_) (fun _ => ?_)
    | with_reducible refine State.bump_change k1 ?_
    | with_reducible refine stretchSync_change k2 ?_
    | with_reducible refine State.put_change k1 ?_
    | with_reducible refine Change.foldl (fun _ _ _ => ?_) ?_
    | with_reducible assumption
    | split
    | dsimp only
    | with_reducible refine Change.set_pwr_spl k3 ?_
    | with_reducible refine Change.set_pins_pwr k4 ?_
    | with_reducible refine Change.set_spl k5 ?_
    | with_reducible refine Change.set_pins k6 ?_
    | with_reducible refine Change.set_pwr k7 ?_

theorem lswCauseEnd_change {U : List Part} {r0 : State} {s : State} (hT : ([.regs, .pwr] : List Part) ⊆ U) (hC0 : Change U r0 s) :
    Change U r0 (lswCauseEnd s) := by
  have k1 : ([.regs] : List Part) ⊆ U := List.Subset.trans (by decide) hT
  unfold lswCauseEnd
  repeat' first
    | with_reducible exact hC0
    | with_reducible refine Change.ite (fun _ => ?_) (fun _ => ?_)
    | with_reducible refine stretchSync_change hT ?_
    | with_reducible refine State.put_change k1 ?_
    | with_reducible refine Change.foldl (fun _ _ _ => ?_) ?_
    | with_reducible assumption
    | split
    | dsimp only

theorem doLswNRelease_change {U : List Part} {r0 : State} {s : State} (hT : ([.regs, .pins, .pwr] : List Part) ⊆ U) (hC0 : Change U r0 s) :
    Change U r0 (doLswNRelease s) := by
  have k1 : ([.regs, .pwr] : List Part) ⊆ U := List.Subset.trans (by decide) hT
  have k2 : ([.pins] : List Part) ⊆ U := List.Subset.trans (by decide) hT
  unfold doLswNRelease
  repeat' first
    | with_reducible exact hC0
    | with_reducible refine Change.ite (fun _ => ?_) (fun _ => ?_)
    | with_reducible refine lswCauseEnd_change k1 ?_
    | with_reducible refine Change.foldl (fun _ _ _ => ?_) ?_
    | with_reducible assumption
    | split
    | dsimp only
    | with_reducible refine Change.set_pins k2 ?_

theorem doLswHoldExpiry_change {U : List Part} {r0 : State} {s : State} (hT : ([.regs, .pwr, .spl] : List Part) ⊆ U) (hC0 : Change U r0 s) :
    Change U r0 (doLswHoldExpiry s) := by
  have k1 : ([.regs] : List Part) ⊆ U := List.Subset.trans (by decide) hT
  have k2 : ([.regs, .pwr] : List Part) ⊆ U := List.Subset.trans (by decide) hT
  have k3 : ([.pwr, .spl] : List Part) ⊆ U := List.Subset.trans (by decide) hT
  have k4 : ([.spl] : List Part) ⊆ U := List.Subset.trans (by decide) hT
  have k5 : ([.pwr] : List Part) ⊆ U := List.Subset.trans (by decide) hT
  unfold doLswHoldExpiry
  repeat' first
    | with_reducible exact hC0
    | with_reducible refine Change.ite (fun _ => ?_) (fun _ => ?_)
    | with_reducible refine State.bump_change k1 ?_
    | with_reducible refine lswCauseEnd_change k2 ?_
    | with_reducible refine State.put_change k1 ?_
    | with_reducible refine Change.foldl (fun _ _ _ => ?_) ?_
    | with_reducible assumption
    | split
    | dsimp only
    | with_reducible refine Change.set_pwr_spl k3 ?_
    | with_reducible refine Change.set_spl k4 ?_
    | with_reducible refine Change.set_pwr k5 ?_

theorem doLswStuck_change {U : List Part} {r0 : State} {s : State} (hT : ([.regs, .tt, .flt, .icu, .out] : List Part) ⊆ U) (hC0 : Change U r0 s) :
    Change U r0 (doLswStuck s) := by
  unfold doLswStuck
  repeat' first
    | with_reducible exact hC0
    | with_reducible refine Change.ite (fun _ => ?_) (fun _ => ?_)
    | with_reducible refine faultEvent_change hT ?_
    | with_reducible refine Change.foldl (fun _ _ _ => ?_) ?_
    | with_reducible assumption
    | split
    | dsimp only

theorem doRampGrant_change {U : List Part} {r0 : State} {k : Ramp} {s : State} (hT : ([.regs, .out] : List Part) ⊆ U) (hC0 : Change U r0 s) :
    Change U r0 (doRampGrant k s) := by
  have k1 : ([.regs] : List Part) ⊆ U := List.Subset.trans (by decide) hT
  have k2 : ([.out] : List Part) ⊆ U := List.Subset.trans (by decide) hT
  unfold doRampGrant
  repeat' first
    | with_reducible exact hC0
    | with_reducible refine Change.ite (fun _ => ?_) (fun _ => ?_)
    | with_reducible refine State.bump_change k1 ?_
    | with_reducible refine State.emit_change k2 ?_
    | with_reducible refine Change.foldl (fun _ _ _ => ?_) ?_
    | with_reducible assumption
    | split
    | dsimp only

theorem doTemperatureReading_change {U : List Part} {r0 : State} {tj : Nat} {s : State} (hT : ([.regs, .tt, .pins, .pwr, .flt, .icu, .out] : List Part) ⊆ U) (hC0 : Change U r0 s) :
    Change U r0 (doTemperatureReading tj s) := by
  have k1 : ([.regs, .tt, .flt, .icu, .out] : List Part) ⊆ U := List.Subset.trans (by decide) hT
  have k2 : ([.regs] : List Part) ⊆ U := List.Subset.trans (by decide) hT
  have k3 : ([.pins, .pwr] : List Part) ⊆ U := List.Subset.trans (by decide) hT
  have k4 : ([.pins] : List Part) ⊆ U := List.Subset.trans (by decide) hT
  have k5 : ([.pwr] : List Part) ⊆ U := List.Subset.trans (by decide) hT
  unfold doTemperatureReading
  repeat' first
    | with_reducible exact hC0
    | with_reducible refine Change.ite (fun _ => ?_) (fun _ => ?_)
    | with_reducible refine faultEvent_change k1 ?_
    | with_reducible refine State.put_change k2 ?_
    | with_reducible refine icuLevel_change k1 ?_
    | with_reducible refine Change.foldl (fun _ _ _ => ?_) ?_
    | with_reducible assumption
    | split
    | dsimp only
    | with_reducible refine Change.set_pins_pwr k3 ?_
    | with_reducible refine Change.set_pins k4 ?_
    | with_reducible refine Change.set_pwr k5 ?_

theorem doHeartbeatToggle_change {U : List Part} {r0 : State} {s : State} (hT : ([.pins] : List Part) ⊆ U) (hC0 : Change U r0 s) :
    Change U r0 (doHeartbeatToggle s) := by
  unfold doHeartbeatToggle
  repeat' first
    | with_reducible exact hC0
    | with_reducible refine Change.ite (fun _ => ?_) (fun _ => ?_)
    | with_reducible refine Change.foldl (fun _ _ _ => ?_) ?_
    | with_reducible assumption
    | split
    | dsimp only
    | with_reducible refine Change.set_pins hT ?_

theorem doPwrEnable_change {U : List Part} {r0 : State} {a : Agent} {v : Word} {s : State} (hT : ([.regs, .tt, .pins, .dev, .img, .checks, .flt, .icu, .hep, .wxl, .qen, .ctx, .qaux, .spl, .swc, .ports, .hbm, .mem, .gdc, .cores, .tcm, .prl, .out] : List Part) ⊆ U) (hC0 : Change U r0 s) :
    Change U r0 (doPwrEnable a v s) := by
  unfold doPwrEnable
  repeat' first
    | with_reducible exact hC0
    | with_reducible refine Change.ite (fun _ => ?_) (fun _ => ?_)
    | with_reducible refine ctlWriteBy_change hT ?_
    | with_reducible refine Change.foldl (fun _ _ _ => ?_) ?_
    | with_reducible assumption
    | split
    | dsimp only

end Sys2Proof.Machine
end

