-- ==== Sys2Proof/Laws/Startup.lean ====
section
/-! SUPPORT. What each operation of Machine/Startup.lean may change. -/
set_option linter.all false
set_option linter.unusedTactic false
set_option linter.unreachableTactic false

namespace Sys2Proof.Machine

open Sys2Proof

theorem doFlashReadDone_change {U : List Part} {r0 : State} {rd : FlashRead} {s : State} (hT : ([.regs, .tt, .pins, .dev, .img, .checks, .flt, .icu, .pf, .vf, .fns, .msix, .hep, .wxl, .xt, .qen, .ctx, .qaux, .spl, .swc, .ports, .hbm, .mem, .gdc, .cores, .tcm, .prl, .out] : List Part) ⊆ U) (hC0 : Change U r0 s) :
    Change U r0 (doFlashReadDone rd s) := by
  unfold doFlashReadDone
  repeat' first
    | with_reducible exact hC0
    | with_reducible refine Change.ite (fun _ => ?_) (fun _ => ?_)
    | with_reducible refine flashRead_change hT ?_
    | with_reducible refine Change.foldl (fun _ _ _ => ?_) ?_
    | with_reducible assumption
    | split
    | dsimp only

theorem doEnterConfig_change {U : List Part} {r0 : State} {s : State} (hT : ([.regs, .tt, .pins, .dev, .img, .flt, .icu, .hep, .spl, .ports, .hbm, .out] : List Part) ⊆ U) (hC0 : Change U r0 s) :
    Change U r0 (doEnterConfig s) := by
  unfold doEnterConfig
  repeat' first
    | with_reducible exact hC0
    | with_reducible refine Change.ite (fun _ => ?_) (fun _ => ?_)
    | with_reducible refine enterConfigMode_change hT ?_
    | with_reducible refine Change.foldl (fun _ _ _ => ?_) ?_
    | with_reducible assumption
    | split
    | dsimp only

theorem fwLoad_change {U : List Part} {r0 : State} {l : List Byte} {c : Nat} {s : State} (hT : ([.regs, .mem, .cores, .tcm] : List Part) ⊆ U) (hC0 : Change U r0 s) :
    Change U r0 (fwLoad l c s) := by
  have k1 : ([.mem] : List Part) ⊆ U := List.Subset.trans (by decide) hT
  have k2 : ([.regs] : List Part) ⊆ U := List.Subset.trans (by decide) hT
  have k3 : ([.cores] : List Part) ⊆ U := List.Subset.trans (by decide) hT
  have k4 : ([.tcm] : List Part) ⊆ U := List.Subset.trans (by decide) hT
  unfold fwLoad
  repeat' first
    | with_reducible exact hC0
    | with_reducible refine Change.ite (fun _ => ?_) (fun _ => ?_)
    | with_reducible refine State.hbmWrite_change k1 ?_
    | with_reducible refine State.put_change k2 ?_
    | with_reducible refine State.setCore_change k3 ?_
    | with_reducible refine tcmWrite_change k4 ?_
    | with_reducible refine Change.foldl (fun _ _ _ => ?_) ?_
    | with_reducible assumption
    | split
    | dsimp only

theorem doLateSectionLoaded_change {U : List Part} {r0 : State} {i : Nat} {body : List Byte} {s : State} (hT : ([.regs, .tt, .img, .flt, .icu, .mem, .cores, .tcm, .out] : List Part) ⊆ U) (hC0 : Change U r0 s) :
    Change U r0 (doLateSectionLoaded i body s) := by
  have k1 : ([.regs, .tt, .flt, .icu, .out] : List Part) ⊆ U := List.Subset.trans (by decide) hT
  have k2 : ([.regs] : List Part) ⊆ U := List.Subset.trans (by decide) hT
  have k3 : ([.regs, .mem, .cores, .tcm] : List Part) ⊆ U := List.Subset.trans (by decide) hT
  have k4 : ([.img] : List Part) ⊆ U := List.Subset.trans (by decide) hT
  unfold doLateSectionLoaded
  repeat' first
    | with_reducible exact hC0
    | with_reducible refine Change.ite (fun _ => ?_) (fun _ => ?_)
    | with_reducible refine faultEvent_change k1 ?_
    | with_reducible refine State.put_change k2 ?_
    | with_reducible refine fwLoad_change k3 ?_
    | with_reducible refine Change.foldl (fun _ _ _ => ?_) ?_
    | with_reducible assumption
    | split
    | dsimp only
    | with_reducible refine Change.set_img k4 ?_

theorem flashCtl_change {U : List Part} {r0 : State} {op : Nat} {a : Agent} {v : Word} {s : State} (hT : ([.regs, .tt, .pins, .dev, .img, .checks, .flt, .icu, .hep, .wxl, .qen, .ctx, .qaux, .spl, .swc, .ports, .hbm, .mem, .gdc, .cores, .tcm, .prl, .out] : List Part) ⊆ U) (hC0 : Change U r0 s) :
    Change U r0 (flashCtl op a v s) := by
  unfold flashCtl
  repeat' first
    | with_reducible exact hC0
    | with_reducible refine Change.ite (fun _ => ?_) (fun _ => ?_)
    | with_reducible refine ctlWriteBy_change hT ?_
    | with_reducible refine Change.foldl (fun _ _ _ => ?_) ?_
    | with_reducible assumption
    | split
    | dsimp only

theorem doErase_change {U : List Part} {r0 : State} {a : Agent} {v : Word} {s : State} (hT : ([.regs, .tt, .pins, .dev, .img, .checks, .flt, .icu, .hep, .wxl, .qen, .ctx, .qaux, .spl, .swc, .ports, .hbm, .mem, .gdc, .cores, .tcm, .prl, .out] : List Part) ⊆ U) (hC0 : Change U r0 s) :
    Change U r0 (doErase a v s) := by
  unfold doErase
  repeat' first
    | with_reducible exact hC0
    | with_reducible refine Change.ite (fun _ => ?_) (fun _ => ?_)
    | with_reducible refine flashCtl_change hT ?_
    | with_reducible refine Change.foldl (fun _ _ _ => ?_) ?_
    | with_reducible assumption
    | split
    | dsimp only

theorem doProgram_change {U : List Part} {r0 : State} {a : Agent} {v : Word} {s : State} (hT : ([.regs, .tt, .pins, .dev, .img, .checks, .flt, .icu, .hep, .wxl, .qen, .ctx, .qaux, .spl, .swc, .ports, .hbm, .mem, .gdc, .cores, .tcm, .prl, .out] : List Part) ⊆ U) (hC0 : Change U r0 s) :
    Change U r0 (doProgram a v s) := by
  unfold doProgram
  repeat' first
    | with_reducible exact hC0
    | with_reducible refine Change.ite (fun _ => ?_) (fun _ => ?_)
    | with_reducible refine flashCtl_change hT ?_
    | with_reducible refine Change.foldl (fun _ _ _ => ?_) ?_
    | with_reducible assumption
    | split
    | dsimp only

theorem doVerify_change {U : List Part} {r0 : State} {a : Agent} {v : Word} {s : State} (hT : ([.regs, .tt, .pins, .dev, .img, .checks, .flt, .icu, .hep, .wxl, .qen, .ctx, .qaux, .spl, .swc, .ports, .hbm, .mem, .gdc, .cores, .tcm, .prl, .out] : List Part) ⊆ U) (hC0 : Change U r0 s) :
    Change U r0 (doVerify a v s) := by
  unfold doVerify
  repeat' first
    | with_reducible exact hC0
    | with_reducible refine Change.ite (fun _ => ?_) (fun _ => ?_)
    | with_reducible refine flashCtl_change hT ?_
    | with_reducible refine Change.foldl (fun _ _ _ => ?_) ?_
    | with_reducible assumption
    | split
    | dsimp only

theorem flashEnd_change {U : List Part} {r0 : State} {s : State} (hT : ([.regs, .img] : List Part) ⊆ U) (hC0 : Change U r0 s) :
    Change U r0 (flashEnd s) := by
  have k1 : ([.regs] : List Part) ⊆ U := List.Subset.trans (by decide) hT
  have k2 : ([.img] : List Part) ⊆ U := List.Subset.trans (by decide) hT
  unfold flashEnd
  repeat' first
    | with_reducible exact hC0
    | with_reducible refine Change.ite (fun _ => ?_) (fun _ => ?_)
    | with_reducible refine State.put_change k1 ?_
    | with_reducible refine Change.foldl (fun _ _ _ => ?_) ?_
    | with_reducible assumption
    | split
    | dsimp only
    | with_reducible refine Change.set_img k2 ?_

theorem otherOk_change {U : List Part} {r0 : State} {v : Bool} {s : State} (hT : ([.regs] : List Part) ⊆ U) (hC0 : Change U r0 s) :
    Change U r0 (otherOk v s) := by
  unfold otherOk
  repeat' first
    | with_reducible exact hC0
    | with_reducible refine Change.ite (fun _ => ?_) (fun _ => ?_)
    | with_reducible refine State.put_change hT ?_
    | with_reducible refine Change.foldl (fun _ _ _ => ?_) ?_
    | with_reducible assumption
    | split
    | dsimp only

theorem doFlashOpDone_change {U : List Part} {r0 : State} {failed : Bool} {header : List Byte} {bodies : List (List Byte)} {s : State} (hT : ([.regs, .tt, .pins, .dev, .pwr, .img, .checks, .flt, .icu, .pf, .vf, .fns, .msix, .hep, .wxl, .xt, .qen, .ctx, .qaux, .spl, .swc, .ports, .hbm, .mem, .gdc, .cores, .sram, .tcm, .prl, .out, .free] : List Part) ⊆ U) (hC0 : Change U r0 s) :
    Change U r0 (doFlashOpDone failed header bodies s) := by
  have k1 : ([.regs] : List Part) ⊆ U := List.Subset.trans (by decide) hT
  have k2 : ([.regs, .tt, .flt, .icu, .out] : List Part) ⊆ U := List.Subset.trans (by decide) hT
  have k3 : ([.regs, .img] : List Part) ⊆ U := List.Subset.trans (by decide) hT
  unfold doFlashOpDone
  repeat' first
    | with_reducible exact hC0
    | with_reducible refine Change.ite (fun _ => ?_) (fun _ => ?_)
    | with_reducible refine otherOk_change k1 ?_
    | with_reducible refine imgFail_change k2 ?_
    | with_reducible refine icuEvent_change k2 ?_
    | with_reducible refine State.put_change k1 ?_
    | with_reducible refine flashEnd_change k3 ?_
    | with_reducible refine Change.foldl (fun _ _ _ => ?_) ?_
    | with_reducible assumption
    | split
    | dsimp only

theorem doFlashOpTimeout_change {U : List Part} {r0 : State} {s : State} (hT : ([.regs, .tt, .img, .flt, .icu, .out] : List Part) ⊆ U) (hC0 : Change U r0 s) :
    Change U r0 (doFlashOpTimeout s) := by
  have k1 : ([.regs, .tt, .flt, .icu, .out] : List Part) ⊆ U := List.Subset.trans (by decide) hT
  have k2 : ([.regs, .img] : List Part) ⊆ U := List.Subset.trans (by decide) hT
  unfold doFlashOpTimeout
  repeat' first
    | with_reducible exact hC0
    | with_reducible refine Change.ite (fun _ => ?_) (fun _ => ?_)
    | with_reducible refine imgFail_change k1 ?_
    | with_reducible refine flashEnd_change k2 ?_
    | with_reducible refine Change.foldl (fun _ _ _ => ?_) ?_
    | with_reducible assumption
    | split
    | dsimp only

theorem doStatus_change {U : List Part} {r0 : State} {s : State} (hT : ([.out] : List Part) ⊆ U) (hC0 : Change U r0 s) :
    Change U r0 (doStatus s) := by
  unfold doStatus
  repeat' first
    | with_reducible exact hC0
    | with_reducible refine Change.ite (fun _ => ?_) (fun _ => ?_)
    | with_reducible refine State.emit_change hT ?_
    | with_reducible refine Change.foldl (fun _ _ _ => ?_) ?_
    | with_reducible assumption
    | split
    | dsimp only

theorem doCtlRead_change {U : List Part} {r0 : State} {off : Nat} {s : State} (hT : ([.regs, .icu, .out] : List Part) ⊆ U) (hC0 : Change U r0 s) :
    Change U r0 (doCtlRead off s) := by
  have k1 : ([.out] : List Part) ⊆ U := List.Subset.trans (by decide) hT
  unfold doCtlRead
  repeat' first
    | with_reducible exact hC0
    | with_reducible refine Change.ite (fun _ => ?_) (fun _ => ?_)
    | with_reducible refine ctlRead_change hT ?_
    | (refine Change.of_pair (by assumption) ?_; with_reducible refine ctlRead_change hT ?_)
    | with_reducible refine State.emit_change k1 ?_
    | with_reducible refine Change.foldl (fun _ _ _ => ?_) ?_
    | with_reducible refine Change.foldl_fst (fun _ _ _ => ?_) ?_
    | with_reducible refine Change.ite_fst (fun _ => ?_) (fun _ => ?_)
    | with_reducible assumption
    | split
    | dsimp only

theorem doCtlWrite_change {U : List Part} {r0 : State} {off : Nat} {v : Word} {s : State} (hT : ([.regs, .tt, .pins, .dev, .img, .checks, .flt, .icu, .hep, .wxl, .qen, .ctx, .qaux, .spl, .swc, .ports, .hbm, .mem, .gdc, .cores, .tcm, .prl, .out] : List Part) ⊆ U) (hC0 : Change U r0 s) :
    Change U r0 (doCtlWrite off v s) := by
  have k1 : ([.out] : List Part) ⊆ U := List.Subset.trans (by decide) hT
  unfold doCtlWrite
  repeat' first
    | with_reducible exact hC0
    | with_reducible refine Change.ite (fun _ => ?_) (fun _ => ?_)
    | with_reducible refine ctlWriteBy_change hT ?_
    | with_reducible refine State.emit_change k1 ?_
    | with_reducible refine Change.foldl (fun _ _ _ => ?_) ?_
    | with_reducible assumption
    | split
    | dsimp only

theorem doRestart_change {U : List Part} {r0 : State} {src : Nat} {s : State} (hT : ([.regs, .tt, .dev, .img, .checks, .flt, .icu, .fns, .msix, .hep, .wxl, .xt, .qen, .ctx, .qaux, .spl, .swc, .ports, .hbm, .mem, .cores, .prl, .out] : List Part) ⊆ U) (hC0 : Change U r0 s) :
    Change U r0 (doRestart src s) := by
  have k1 : ([.out] : List Part) ⊆ U := List.Subset.trans (by decide) hT
  have k2 : ([.dev] : List Part) ⊆ U := List.Subset.trans (by decide) hT
  unfold doRestart
  repeat' first
    | with_reducible exact hC0
    | with_reducible refine Change.ite (fun _ => ?_) (fun _ => ?_)
    | with_reducible refine bootBegin_change hT ?_
    | with_reducible refine State.emit_change k1 ?_
    | with_reducible refine Change.foldl (fun _ _ _ => ?_) ?_
    | with_reducible assumption
    | split
    | dsimp only
    | with_reducible refine Change.set_dev k2 ?_

theorem State.setKey_change {U : List Part} {r0 : State} {s : State} {i : Nat} {k : KeySlot} (hT : ([.tt] : List Part) ⊆ U) (hC0 : Change U r0 s) :
    Change U r0 (State.setKey s i k) := by
  unfold State.setKey
  repeat' first
    | with_reducible exact hC0
    | with_reducible refine Change.ite (fun _ => ?_) (fun _ => ?_)
    | with_reducible refine Change.foldl (fun _ _ _ => ?_) ?_
    | with_reducible assumption
    | split
    | dsimp only
    | with_reducible refine Change.set_tt hT ?_

theorem doKeyProgram_change {U : List Part} {r0 : State} {slot : Nat} {hash : BitVec 384} {s : State} (hT : ([.tt, .out] : List Part) ⊆ U) (hC0 : Change U r0 s) :
    Change U r0 (doKeyProgram slot hash s) := by
  have k1 : ([.tt] : List Part) ⊆ U := List.Subset.trans (by decide) hT
  have k2 : ([.out] : List Part) ⊆ U := List.Subset.trans (by decide) hT
  unfold doKeyProgram
  repeat' first
    | with_reducible exact hC0
    | with_reducible refine Change.ite (fun _ => ?_) (fun _ => ?_)
    | with_reducible refine State.setKey_change k1 ?_
    | with_reducible refine State.emit_change k2 ?_
    | with_reducible refine Change.foldl (fun _ _ _ => ?_) ?_
    | with_reducible assumption
    | split
    | dsimp only

theorem doKeyRevoke_change {U : List Part} {r0 : State} {slot : Nat} {s : State} (hT : ([.tt, .out] : List Part) ⊆ U) (hC0 : Change U r0 s) :
    Change U r0 (doKeyRevoke slot s) := by
  have k1 : ([.tt] : List Part) ⊆ U := List.Subset.trans (by decide) hT
  have k2 : ([.out] : List Part) ⊆ U := List.Subset.trans (by decide) hT
  unfold doKeyRevoke
  repeat' first
    | with_reducible exact hC0
    | with_reducible refine Change.ite (fun _ => ?_) (fun _ => ?_)
    | with_reducible refine State.setKey_change k1 ?_
    | with_reducible refine State.emit_change k2 ?_
    | with_reducible refine Change.foldl (fun _ _ _ => ?_) ?_
    | with_reducible assumption
    | split
    | dsimp only

theorem doDevEnable_change {U : List Part} {r0 : State} {a : Agent} {v : Word} {s : State} (hT : ([.regs, .tt, .pins, .dev, .img, .checks, .flt, .icu, .hep, .wxl, .qen, .ctx, .qaux, .spl, .swc, .ports, .hbm, .mem, .gdc, .cores, .tcm, .prl, .out] : List Part) ⊆ U) (hC0 : Change U r0 s) :
    Change U r0 (doDevEnable a v s) := by
  unfold doDevEnable
  repeat' first
    | with_reducible exact hC0
    | with_reducible refine Change.ite (fun _ => ?_) (fun _ => ?_)
    | with_reducible refine ctlWriteBy_change hT ?_
    | with_reducible refine Change.foldl (fun _ _ _ => ?_) ?_
    | with_reducible assumption
    | split
    | dsimp only

theorem doConsistencyCheckEnd_change {U : List Part} {r0 : State} {s : State} (hT : ([.regs, .tt, .dev, .checks, .flt, .icu, .hep, .wxl, .qen, .ctx, .qaux, .spl, .swc, .ports, .cores, .prl, .out] : List Part) ⊆ U) (hC0 : Change U r0 s) :
    Change U r0 (doConsistencyCheckEnd s) := by
  unfold doConsistencyCheckEnd
  repeat' first
    | with_reducible exact hC0
    | with_reducible refine Change.ite (fun _ => ?_) (fun _ => ?_)
    | with_reducible refine checkEnd_change hT ?_
    | with_reducible refine Change.foldl (fun _ _ _ => ?_) ?_
    | with_reducible assumption
    | split
    | dsimp only

theorem doDevQuiesce_change {U : List Part} {r0 : State} {a : Agent} {v : Word} {s : State} (hT : ([.regs, .tt, .pins, .dev, .img, .checks, .flt, .icu, .hep, .wxl, .qen, .ctx, .qaux, .spl, .swc, .ports, .hbm, .mem, .gdc, .cores, .tcm, .prl, .out] : List Part) ⊆ U) (hC0 : Change U r0 s) :
    Change U r0 (doDevQuiesce a v s) := by
  unfold doDevQuiesce
  repeat' first
    | with_reducible exact hC0
    | with_reducible refine Change.ite (fun _ => ?_) (fun _ => ?_)
    | with_reducible refine ctlWriteBy_change hT ?_
    | with_reducible refine Change.foldl (fun _ _ _ => ?_) ?_
    | with_reducible assumption
    | split
    | dsimp only

theorem doSleep_change {U : List Part} {r0 : State} {a : Agent} {v : Word} {s : State} (hT : ([.regs, .tt, .pins, .dev, .img, .checks, .flt, .icu, .hep, .wxl, .qen, .ctx, .qaux, .spl, .swc, .ports, .hbm, .mem, .gdc, .cores, .tcm, .prl, .out] : List Part) ⊆ U) (hC0 : Change U r0 s) :
    Change U r0 (doSleep a v s) := by
  unfold doSleep
  repeat' first
    | with_reducible exact hC0
    | with_reducible refine Change.ite (fun _ => ?_) (fun _ => ?_)
    | with_reducible refine ctlWriteBy_change hT ?_
    | with_reducible refine Change.foldl (fun _ _ _ => ?_) ?_
    | with_reducible assumption
    | split
    | dsimp only

theorem doForceSafe_change {U : List Part} {r0 : State} {a : Agent} {v : Word} {s : State} (hT : ([.regs, .tt, .pins, .dev, .img, .checks, .flt, .icu, .hep, .wxl, .qen, .ctx, .qaux, .spl, .swc, .ports, .hbm, .mem, .gdc, .cores, .tcm, .prl, .out] : List Part) ⊆ U) (hC0 : Change U r0 s) :
    Change U r0 (doForceSafe a v s) := by
  unfold doForceSafe
  repeat' first
    | with_reducible exact hC0
    | with_reducible refine Change.ite (fun _ => ?_) (fun _ => ?_)
    | with_reducible refine ctlWriteBy_change hT ?_
    | with_reducible refine Change.foldl (fun _ _ _ => ?_) ?_
    | with_reducible assumption
    | split
    | dsimp only

theorem doQuiesceDrained_change {U : List Part} {r0 : State} {s : State} (hT : ([.regs] : List Part) ⊆ U) (hC0 : Change U r0 s) :
    Change U r0 (doQuiesceDrained s) := by
  unfold doQuiesceDrained
  repeat' first
    | with_reducible exact hC0
    | with_reducible refine Change.ite (fun _ => ?_) (fun _ => ?_)
    | with_reducible refine State.put_change hT ?_
    | with_reducible refine Change.foldl (fun _ _ _ => ?_) ?_
    | with_reducible assumption
    | split
    | dsimp only

end Sys2Proof.Machine
end

