-- ==== Sys2Proof/Laws/Switch.lean ====
section
/-! SUPPORT. What each operation of Machine/Switch.lean may change. -/
set_option linter.all false
set_option linter.unusedTactic false
set_option linter.unreachableTactic false

namespace Sys2Proof.Machine

open Sys2Proof

theorem uninject_change {U : List Part} {r0 : State} {f : Frame} {s : State} (hT : ([.swc] : List Part) ⊆ U) (hC0 : Change U r0 s) :
    Change U r0 (uninject f s) := by
  unfold uninject
  repeat' first
    | with_reducible exact hC0
    | with_reducible refine Change.ite (fun _ => ?_) (fun _ => ?_)
    | with_reducible refine Change.foldl (fun _ _ _ => ?_) ?_
    | with_reducible assumption
    | split
    | dsimp only
    | with_reducible refine Change.set_swc hT ?_

theorem pfGone_change {U : List Part} {r0 : State} {f : Frame} {s : State} (hT : ([.regs, .tt, .flt, .icu, .wxl, .swc, .out] : List Part) ⊆ U) (hC0 : Change U r0 s) :
    Change U r0 (pfGone f s) := by
  unfold pfGone
  repeat' first
    | with_reducible exact hC0
    | with_reducible refine Change.ite (fun _ => ?_) (fun _ => ?_)
    | with_reducible refine pfDiscard_change hT ?_
    | with_reducible refine Change.foldl (fun _ _ _ => ?_) ?_
    | with_reducible assumption
    | split
    | dsimp only

theorem hostClosed_change {U : List Part} {r0 : State} {f : Frame} {s : State} (hT : ([.regs, .tt, .flt, .icu, .hep, .wxl, .qaux, .spl, .swc, .ports, .cores, .out] : List Part) ⊆ U) (hC0 : Change U r0 s) :
    Change U r0 (hostClosed f s) := by
  have k1 : ([.regs, .wxl, .qaux, .swc, .cores, .out] : List Part) ⊆ U := List.Subset.trans (by decide) hT
  have k2 : ([.regs, .wxl, .qaux] : List Part) ⊆ U := List.Subset.trans (by decide) hT
  have k3 : ([.hep] : List Part) ⊆ U := List.Subset.trans (by decide) hT
  unfold hostClosed
  repeat' first
    | with_reducible exact hC0
    | with_reducible refine Change.ite (fun _ => ?_) (fun _ => ?_)
    | with_reducible refine dlFail_change hT ?_
    | with_reducible refine dlPrefetch_change k1 ?_
    | with_reducible refine failWrite_change k2 ?_
    | with_reducible refine Change.foldl (fun _ _ _ => ?_) ?_
    | with_reducible assumption
    | split
    | dsimp only
    | with_reducible refine Change.set_hep k3 ?_

theorem answerFlushed_change {U : List Part} {r0 : State} {f : Frame} {s : State} (hT : ([.regs, .tt, .flt, .icu, .hep, .wxl, .qaux, .spl, .swc, .ports, .cores, .out] : List Part) ⊆ U) (hC0 : Change U r0 s) :
    Change U r0 (answerFlushed f s) := by
  have k1 : ([.regs, .wxl, .qaux, .swc, .ports, .cores, .out] : List Part) ⊆ U := List.Subset.trans (by decide) hT
  have k2 : ([.regs, .wxl, .qaux, .swc, .cores, .out] : List Part) ⊆ U := List.Subset.trans (by decide) hT
  have k3 : ([.regs, .tt, .flt, .icu, .hep, .wxl, .qaux, .swc, .ports, .cores, .out] : List Part) ⊆ U := List.Subset.trans (by decide) hT
  have k4 : ([.regs, .tt, .flt, .icu, .wxl, .swc, .out] : List Part) ⊆ U := List.Subset.trans (by decide) hT
  unfold answerFlushed
  repeat' first
    | with_reducible exact hC0
    | with_reducible refine Change.ite (fun _ => ?_) (fun _ => ?_)
    | with_reducible refine modeRefuse_change k1 ?_
    | with_reducible refine failFrame_change k2 ?_
    | with_reducible refine flushFrame_change k3 ?_
    | with_reducible refine hostClosed_change hT ?_
    | with_reducible refine pfGone_change k4 ?_
    | with_reducible refine Change.foldl (fun _ _ _ => ?_) ?_
    | with_reducible assumption
    | split
    | dsimp only

theorem mcTrim_change {U : List Part} {r0 : State} {f : Frame} {s : State} (hT : ([.regs, .tt, .checks, .flt, .icu, .hep, .wxl, .qen, .ctx, .qaux, .spl, .swc, .ports, .cores, .prl, .out] : List Part) ⊆ U) (hC0 : Change U r0 s) :
    Change U r0 (mcTrim f s).1 := by
  have k1 : ([.regs, .tt, .flt, .icu, .qaux, .swc, .out] : List Part) ⊆ U := List.Subset.trans (by decide) hT
  unfold mcTrim
  repeat' first
    | with_reducible exact hC0
    | with_reducible refine Change.ite (fun _ => ?_) (fun _ => ?_)
    | with_reducible refine portDrop_change hT ?_
    | with_reducible refine mcDropOne_change k1 ?_
    | with_reducible refine Change.foldl (fun _ _ _ => ?_) ?_
    | with_reducible refine Change.foldl_fst (fun _ _ _ => ?_) ?_
    | with_reducible refine Change.ite_fst (fun _ => ?_) (fun _ => ?_)
    | with_reducible assumption
    | split
    | dsimp only

theorem admitMc_change {U : List Part} {r0 : State} {f : Frame} {s : State} (hT : ([.regs, .tt, .checks, .flt, .icu, .hep, .wxl, .qen, .ctx, .qaux, .spl, .swc, .ports, .cores, .prl, .out] : List Part) ⊆ U) (hC0 : Change U r0 s) :
    Change U r0 (admitMc f s) := by
  have k1 : ([.regs, .wxl, .qaux, .swc, .ports, .cores, .out] : List Part) ⊆ U := List.Subset.trans (by decide) hT
  have k2 : ([.swc] : List Part) ⊆ U := List.Subset.trans (by decide) hT
  have k3 : ([.regs, .swc] : List Part) ⊆ U := List.Subset.trans (by decide) hT
  have k4 : ([.qaux] : List Part) ⊆ U := List.Subset.trans (by decide) hT
  unfold admitMc
  repeat' first
    | with_reducible exact hC0
    | with_reducible refine Change.ite (fun _ => ?_) (fun _ => ?_)
    | with_reducible refine modeRefuse_change k1 ?_
    | with_reducible refine mcTrim_change hT ?_
    | (refine Change.of_pair (by assumption) ?_; with_reducible refine mcTrim_change hT ?_)
    | with_reducible refine uninject_change k2 ?_
    | with_reducible refine enqueue_change k3 ?_
    | with_reducible refine mcOver_change k4 ?_
    | with_reducible refine Change.foldl (fun _ _ _ => ?_) ?_
    | with_reducible refine Change.foldl_fst (fun _ _ _ => ?_) ?_
    | with_reducible refine Change.ite_fst (fun _ => ?_) (fun _ => ?_)
    | with_reducible assumption
    | split
    | dsimp only
    | with_reducible refine Change.set_swc k2 ?_

theorem inputSync_change {U : List Part} {r0 : State} {i : Nat} {s : State} (hT : ([.regs] : List Part) ⊆ U) (hC0 : Change U r0 s) :
    Change U r0 (inputSync i s) := by
  unfold inputSync
  repeat' first
    | with_reducible exact hC0
    | with_reducible refine Change.ite (fun _ => ?_) (fun _ => ?_)
    | with_reducible refine xoffSync_change hT ?_
    | with_reducible refine Change.foldl (fun _ _ _ => ?_) ?_
    | with_reducible assumption
    | split
    | dsimp only

theorem admitOne_change {U : List Part} {r0 : State} {f : Frame} {s : State} (hT : ([.regs, .tt, .checks, .flt, .icu, .hep, .wxl, .qen, .ctx, .qaux, .spl, .swc, .ports, .cores, .prl, .out] : List Part) ⊆ U) (hC0 : Change U r0 s) :
    Change U r0 (admitOne f s) := by
  have k1 : ([.regs, .tt, .flt, .icu, .swc, .out] : List Part) ⊆ U := List.Subset.trans (by decide) hT
  have k2 : ([.swc] : List Part) ⊆ U := List.Subset.trans (by decide) hT
  have k3 : ([.regs, .swc] : List Part) ⊆ U := List.Subset.trans (by decide) hT
  have k4 : ([.regs, .tt, .flt, .icu, .wxl, .swc, .out] : List Part) ⊆ U := List.Subset.trans (by decide) hT
  have k5 : ([.regs, .tt, .flt, .icu, .hep, .wxl, .qaux, .spl, .swc, .ports, .cores, .out] : List Part) ⊆ U := List.Subset.trans (by decide) hT
  unfold admitOne
  repeat' first
    | with_reducible exact hC0
    | with_reducible refine Change.ite (fun _ => ?_) (fun _ => ?_)
    | with_reducible refine tailLoss_change k1 ?_
    | with_reducible refine evictOne_change k1 ?_
    | with_reducible refine uninject_change k2 ?_
    | with_reducible refine enqueue_change k3 ?_
    | with_reducible refine portDrop_change hT ?_
    | with_reducible refine pfGone_change k4 ?_
    | with_reducible refine answerFlushed_change k5 ?_
    | with_reducible refine Change.foldl (fun _ _ _ => ?_) ?_
    | with_reducible assumption
    | split
    | dsimp only

theorem doFrameAdmit_change {U : List Part} {r0 : State} {i : Nat} {s : State} (hT : ([.regs, .tt, .checks, .flt, .icu, .hep, .wxl, .qen, .ctx, .qaux, .spl, .swc, .ports, .cores, .prl, .out] : List Part) ⊆ U) (hC0 : Change U r0 s) :
    Change U r0 (doFrameAdmit i s) := by
  have k1 : ([.regs] : List Part) ⊆ U := List.Subset.trans (by decide) hT
  unfold doFrameAdmit
  repeat' first
    | with_reducible exact hC0
    | with_reducible refine Change.ite (fun _ => ?_) (fun _ => ?_)
    | with_reducible refine inputSync_change k1 ?_
    | with_reducible refine admitOne_change hT ?_
    | with_reducible refine admitMc_change hT ?_
    | with_reducible refine Change.foldl (fun _ _ _ => ?_) ?_
    | with_reducible assumption
    | split
    | dsimp only

theorem doEvictionRetry_change {U : List Part} {r0 : State} {s : State} (hT : ([.regs, .tt, .flt, .icu, .wxl, .swc, .out] : List Part) ⊆ U) (hC0 : Change U r0 s) :
    Change U r0 (doEvictionRetry s) := by
  have k1 : ([.swc] : List Part) ⊆ U := List.Subset.trans (by decide) hT
  unfold doEvictionRetry
  repeat' first
    | with_reducible exact hC0
    | with_reducible refine Change.ite (fun _ => ?_) (fun _ => ?_)
    | with_reducible refine State.inject_change k1 ?_
    | with_reducible refine pfGone_change hT ?_
    | with_reducible refine Change.foldl (fun _ _ _ => ?_) ?_
    | with_reducible assumption
    | split
    | dsimp only
    | with_reducible refine Change.set_swc k1 ?_

theorem doOutputGrant_change {U : List Part} {r0 : State} {p : Nat} {s : State} (hT : ([.regs, .tt, .flt, .icu, .fns, .hep, .wxl, .qaux, .swc, .ports, .hbm, .cores, .out] : List Part) ⊆ U) (hC0 : Change U r0 s) :
    Change U r0 (doOutputGrant p s) := by
  have k1 : ([.regs, .tt, .flt, .icu, .swc, .out] : List Part) ⊆ U := List.Subset.trans (by decide) hT
  unfold doOutputGrant
  repeat' first
    | with_reducible exact hC0
    | with_reducible refine Change.ite (fun _ => ?_) (fun _ => ?_)
    | with_reducible refine leave_change hT ?_
    | with_reducible refine depart_change k1 ?_
    | with_reducible refine Change.foldl (fun _ _ _ => ?_) ?_
    | with_reducible assumption
    | split
    | dsimp only

theorem doMulticastGhlExpiry_change {U : List Part} {r0 : State} {p : Nat} {s : State} (hT : ([.regs, .tt, .flt, .icu, .qaux, .swc, .out] : List Part) ⊆ U) (hC0 : Change U r0 s) :
    Change U r0 (doMulticastGhlExpiry p s) := by
  have k1 : ([.qaux] : List Part) ⊆ U := List.Subset.trans (by decide) hT
  have k2 : ([.swc] : List Part) ⊆ U := List.Subset.trans (by decide) hT
  unfold doMulticastGhlExpiry
  repeat' first
    | with_reducible exact hC0
    | with_reducible refine Change.ite (fun _ => ?_) (fun _ => ?_)
    | with_reducible refine mcOver_change k1 ?_
    | with_reducible refine mcDropOne_change hT ?_
    | with_reducible refine Change.foldl (fun _ _ _ => ?_) ?_
    | with_reducible assumption
    | split
    | dsimp only
    | with_reducible refine Change.set_swc k2 ?_

theorem doTailBatchWrite_change {U : List Part} {r0 : State} {s : State} (hT : ([.regs, .tt, .flt, .icu, .swc, .out, .free] : List Part) ⊆ U) (hC0 : Change U r0 s) :
    Change U r0 (doTailBatchWrite s) := by
  have k1 : ([.regs, .tt, .flt, .icu, .swc, .out] : List Part) ⊆ U := List.Subset.trans (by decide) hT
  have k2 : ([.regs, .swc] : List Part) ⊆ U := List.Subset.trans (by decide) hT
  have k3 : ([.free] : List Part) ⊆ U := List.Subset.trans (by decide) hT
  have k4 : ([.swc] : List Part) ⊆ U := List.Subset.trans (by decide) hT
  unfold doTailBatchWrite
  repeat' first
    | with_reducible exact hC0
    | with_reducible refine Change.ite (fun _ => ?_) (fun _ => ?_)
    | with_reducible refine tailLoss_change k1 ?_
    | with_reducible refine evictOne_change k1 ?_
    | with_reducible refine enqueue_change k2 ?_
    | with_reducible refine State.useFree_change k3 ?_
    | with_reducible refine Change.foldl (fun _ _ _ => ?_) ?_
    | with_reducible assumption
    | split
    | dsimp only
    | with_reducible refine Change.set_swc k4 ?_

theorem doTailEn_change {U : List Part} {r0 : State} {a : Agent} {v : Word} {s : State} (hT : ([.regs, .tt, .pins, .dev, .img, .checks, .flt, .icu, .hep, .wxl, .qen, .ctx, .qaux, .spl, .swc, .ports, .hbm, .mem, .gdc, .cores, .tcm, .prl, .out] : List Part) ⊆ U) (hC0 : Change U r0 s) :
    Change U r0 (doTailEn a v s) := by
  unfold doTailEn
  repeat' first
    | with_reducible exact hC0
    | with_reducible refine Change.ite (fun _ => ?_) (fun _ => ?_)
    | with_reducible refine ctlWriteBy_change hT ?_
    | with_reducible refine Change.foldl (fun _ _ _ => ?_) ?_
    | with_reducible assumption
    | split
    | dsimp only

theorem doTailSelWrite_change {U : List Part} {r0 : State} {a : Agent} {p : Nat} {v : Word} {s : State} (hT : ([.regs, .tt, .pins, .dev, .img, .checks, .flt, .icu, .hep, .wxl, .qen, .ctx, .qaux, .spl, .swc, .ports, .hbm, .mem, .gdc, .cores, .tcm, .prl, .out] : List Part) ⊆ U) (hC0 : Change U r0 s) :
    Change U r0 (doTailSelWrite a p v s) := by
  unfold doTailSelWrite
  repeat' first
    | with_reducible exact hC0
    | with_reducible refine Change.ite (fun _ => ?_) (fun _ => ?_)
    | with_reducible refine ctlWriteBy_change hT ?_
    | with_reducible refine Change.foldl (fun _ _ _ => ?_) ?_
    | with_reducible assumption
    | split
    | dsimp only

theorem doSwcEnable_change {U : List Part} {r0 : State} {a : Agent} {v : Word} {s : State} (hT : ([.regs, .tt, .pins, .dev, .img, .checks, .flt, .icu, .hep, .wxl, .qen, .ctx, .qaux, .spl, .swc, .ports, .hbm, .mem, .gdc, .cores, .tcm, .prl, .out] : List Part) ⊆ U) (hC0 : Change U r0 s) :
    Change U r0 (doSwcEnable a v s) := by
  unfold doSwcEnable
  repeat' first
    | with_reducible exact hC0
    | with_reducible refine Change.ite (fun _ => ?_) (fun _ => ?_)
    | with_reducible refine ctlWriteBy_change hT ?_
    | with_reducible refine Change.foldl (fun _ _ _ => ?_) ?_
    | with_reducible assumption
    | split
    | dsimp only

theorem doBankCellsReleased_change {U : List Part} {r0 : State} {b : Nat} {s : State} (hT : ([.regs, .swc] : List Part) ⊆ U) (hC0 : Change U r0 s) :
    Change U r0 (doBankCellsReleased b s) := by
  have k1 : ([.regs] : List Part) ⊆ U := List.Subset.trans (by decide) hT
  have k2 : ([.swc] : List Part) ⊆ U := List.Subset.trans (by decide) hT
  unfold doBankCellsReleased
  repeat' first
    | with_reducible exact hC0
    | with_reducible refine Change.ite (fun _ => ?_) (fun _ => ?_)
    | with_reducible refine State.put_change k1 ?_
    | with_reducible refine Change.foldl (fun _ _ _ => ?_) ?_
    | with_reducible assumption
    | split
    | dsimp only
    | with_reducible refine Change.set_swc k2 ?_

end Sys2Proof.Machine
end

