-- ==== Sys2Proof/Laws/Protocol.lean ====
section
/-! SUPPORT. What each operation of Machine/Protocol.lean may change. -/
set_option linter.all false
set_option linter.unusedTactic false
set_option linter.unreachableTactic false

namespace Sys2Proof.Machine

open Sys2Proof

theorem linkFault_change {U : List Part} {r0 : State} {p : Nat} {s : State} (hT : ([.regs, .tt, .checks, .flt, .icu, .ports, .prl, .out] : List Part) ⊆ U) (hC0 : Change U r0 s) :
    Change U r0 (linkFault p s) := by
  unfold linkFault
  repeat' first
    | with_reducible exact hC0
    | with_reducible refine Change.ite (fun _ => ?_) (fun _ => ?_)
    | with_reducible refine toRetrain_change hT ?_
    | with_reducible refine Change.foldl (fun _ _ _ => ?_) ?_
    | with_reducible assumption
    | split
    | dsimp only

theorem sendNak_change {U : List Part} {r0 : State} {p : Nat} {s : State} (hT : ([.regs, .ports, .out] : List Part) ⊆ U) (hC0 : Change U r0 s) :
    Change U r0 (sendNak p s) := by
  have k1 : ([.ports] : List Part) ⊆ U := List.Subset.trans (by decide) hT
  have k2 : ([.regs] : List Part) ⊆ U := List.Subset.trans (by decide) hT
  have k3 : ([.out] : List Part) ⊆ U := List.Subset.trans (by decide) hT
  unfold sendNak
  repeat' first
    | with_reducible exact hC0
    | with_reducible refine Change.ite (fun _ => ?_) (fun _ => ?_)
    | with_reducible refine State.modPort_change k1 ?_
    | with_reducible refine State.bump_change k2 ?_
    | with_reducible refine State.emit_change k3 ?_
    | with_reducible refine Change.foldl (fun _ _ _ => ?_) ?_
    | with_reducible assumption
    | split
    | dsimp only

theorem flitError_change {U : List Part} {r0 : State} {p : Nat} {s : State} (hT : ([.regs, .ports, .out] : List Part) ⊆ U) (hC0 : Change U r0 s) :
    Change U r0 (flitError p s) := by
  have k1 : ([.ports] : List Part) ⊆ U := List.Subset.trans (by decide) hT
  unfold flitError
  repeat' first
    | with_reducible exact hC0
    | with_reducible refine Change.ite (fun _ => ?_) (fun _ => ?_)
    | with_reducible refine State.modPort_change k1 ?_
    | with_reducible refine sendNak_change hT ?_
    | with_reducible refine Change.foldl (fun _ _ _ => ?_) ?_
    | with_reducible assumption
    | split
    | dsimp only

theorem laneCharge_change {U : List Part} {r0 : State} {p : Nat} {errs : List Nat} {s : State} (hT : ([.regs, .tt, .flt, .icu, .out] : List Part) ⊆ U) (hC0 : Change U r0 s) :
    Change U r0 (laneCharge p errs s) := by
  have k1 : ([.regs] : List Part) ⊆ U := List.Subset.trans (by decide) hT
  unfold laneCharge
  repeat' first
    | with_reducible exact hC0
    | with_reducible refine Change.ite (fun _ => ?_) (fun _ => ?_)
    | with_reducible refine State.bump_change k1 ?_
    | with_reducible refine faultEvent_change hT ?_
    | with_reducible refine Change.foldl (fun _ _ _ => ?_) ?_
    | with_reducible assumption
    | split
    | dsimp only

theorem echoNote_change {U : List Part} {r0 : State} {p : Nat} {v : Nat} {s : State} (hT : ([.regs, .tt, .flt, .icu, .ports, .out] : List Part) ⊆ U) (hC0 : Change U r0 s) :
    Change U r0 (echoNote p v s) := by
  have k1 : ([.ports] : List Part) ⊆ U := List.Subset.trans (by decide) hT
  have k2 : ([.regs, .tt, .flt, .icu, .out] : List Part) ⊆ U := List.Subset.trans (by decide) hT
  unfold echoNote
  repeat' first
    | with_reducible exact hC0
    | with_reducible refine Change.ite (fun _ => ?_) (fun _ => ?_)
    | with_reducible refine State.modPort_change k1 ?_
    | with_reducible refine rttSync_change k2 ?_
    | with_reducible refine Change.foldl (fun _ _ _ => ?_) ?_
    | with_reducible assumption
    | split
    | dsimp only

theorem lcwNote_change {U : List Part} {r0 : State} {p : Nat} {f : FlitIn} {s : State} (hT : ([.regs, .tt, .checks, .flt, .icu, .ports, .prl, .out] : List Part) ⊆ U) (hC0 : Change U r0 s) :
    Change U r0 (lcwNote p f s) := by
  have k1 : ([.ports] : List Part) ⊆ U := List.Subset.trans (by decide) hT
  have k2 : ([.ports, .out] : List Part) ⊆ U := List.Subset.trans (by decide) hT
  have k3 : ([.regs, .tt, .flt, .icu, .ports, .out] : List Part) ⊆ U := List.Subset.trans (by decide) hT
  have k4 : ([.regs] : List Part) ⊆ U := List.Subset.trans (by decide) hT
  unfold lcwNote
  repeat' first
    | with_reducible exact hC0
    | with_reducible refine Change.ite (fun _ => ?_) (fun _ => ?_)
    | with_reducible refine State.modPort_change k1 ?_
    | with_reducible refine txDrain_change k2 ?_
    | with_reducible refine echoNote_change k3 ?_
    | with_reducible refine State.put_change k4 ?_
    | with_reducible refine peerRequest_change hT ?_
    | with_reducible refine Change.foldl (fun _ _ _ => ?_) ?_
    | with_reducible assumption
    | split
    | dsimp only

theorem replay_change {U : List Part} {r0 : State} {p : Nat} {s : State} (hT : ([.regs, .tt, .checks, .flt, .icu, .ports, .prl, .out] : List Part) ⊆ U) (hC0 : Change U r0 s) :
    Change U r0 (replay p s) := by
  have k1 : ([.ports] : List Part) ⊆ U := List.Subset.trans (by decide) hT
  have k2 : ([.regs] : List Part) ⊆ U := List.Subset.trans (by decide) hT
  have k3 : ([.regs, .tt, .flt, .icu, .out] : List Part) ⊆ U := List.Subset.trans (by decide) hT
  have k4 : ([.out] : List Part) ⊆ U := List.Subset.trans (by decide) hT
  unfold replay
  repeat' first
    | with_reducible exact hC0
    | with_reducible refine Change.ite (fun _ => ?_) (fun _ => ?_)
    | with_reducible refine State.modPort_change k1 ?_
    | with_reducible refine State.bump_change k2 ?_
    | with_reducible refine linkFault_change hT ?_
    | with_reducible refine faultEvent_change k3 ?_
    | with_reducible refine resend_change k4 ?_
    | with_reducible refine Change.foldl (fun _ _ _ => ?_) ?_
    | with_reducible assumption
    | split
    | dsimp only

theorem ackNote_change {U : List Part} {r0 : State} {p : Nat} {f : FlitIn} {s : State} (hT : ([.regs, .tt, .checks, .flt, .icu, .ports, .prl, .out] : List Part) ⊆ U) (hC0 : Change U r0 s) :
    ∀ t, ackNote p f s = some t → Change U r0 t := by
  have k1 : ([.ports] : List Part) ⊆ U := List.Subset.trans (by decide) hT
  have k2 : ([.regs] : List Part) ⊆ U := List.Subset.trans (by decide) hT
  have k3 : ([.ports, .out] : List Part) ⊆ U := List.Subset.trans (by decide) hT
  intro t ht
  unfold ackNote at ht
  dsimp only at ht
  split at ht
  · injection ht with ht
    exact ht ▸ hC0
  · split at ht
    · cases ht
    · have h1 : Change U r0 (if (f.ack + 4096 - (s.port p).acked) % 4096 = 0 then s else
          txDrain p (s.setPort p { s.port p with
            acked := f.ack % 4096, unacked := ackDrop (s.port p).unacked ((f.ack + 4096 - (s.port p).acked) % 4096),
            replays := 0, ackTime := s.dev.time })) :=
        Change.ite (fun _ => hC0) (fun _ => txDrain_change k3 (State.setPort_change k1 hC0))
      split at ht
      · injection ht with ht
        rw [← ht]
        exact replay_change hT (State.bump_change k2 (State.modPort_change k1 h1))
      · injection ht with ht
        exact ht ▸ h1

theorem flitAccept_change {U : List Part} {r0 : State} {p : Nat} {f : FlitIn} {s : State} (hT : ([.regs, .tt, .flt, .icu, .ports, .out] : List Part) ⊆ U) (hC0 : Change U r0 s) :
    Change U r0 (flitAccept p f s) := by
  have k1 : ([.ports] : List Part) ⊆ U := List.Subset.trans (by decide) hT
  have k2 : ([.regs] : List Part) ⊆ U := List.Subset.trans (by decide) hT
  have k3 : ([.regs, .tt, .flt, .icu, .out] : List Part) ⊆ U := List.Subset.trans (by decide) hT
  have k4 : ([.regs, .ports, .out] : List Part) ⊆ U := List.Subset.trans (by decide) hT
  unfold flitAccept
  repeat' first
    | with_reducible exact hC0
    | with_reducible refine Change.ite (fun _ => ?_) (fun _ => ?_)
    | with_reducible refine State.modPort_change k1 ?_
    | with_reducible refine State.bump_change k2 ?_
    | with_reducible refine xoffSync_change k2 ?_
    | with_reducible refine faultEvent_change k3 ?_
    | with_reducible refine flitError_change k4 ?_
    | with_reducible refine Change.foldl (fun _ _ _ => ?_) ?_
    | with_reducible assumption
    | split
    | dsimp only

theorem flitSeq_change {U : List Part} {r0 : State} {p : Nat} {f : FlitIn} {s : State} (hT : ([.regs, .tt, .flt, .icu, .ports, .out] : List Part) ⊆ U) (hC0 : Change U r0 s) :
    Change U r0 (flitSeq p f s) := by
  have k1 : ([.regs, .ports, .out] : List Part) ⊆ U := List.Subset.trans (by decide) hT
  unfold flitSeq
  repeat' first
    | with_reducible exact hC0
    | with_reducible refine Change.ite (fun _ => ?_) (fun _ => ?_)
    | with_reducible refine flitAccept_change hT ?_
    | with_reducible refine flitError_change k1 ?_
    | with_reducible refine Change.foldl (fun _ _ _ => ?_) ?_
    | with_reducible assumption
    | split
    | dsimp only

theorem doFlitReceived_change {U : List Part} {r0 : State} {p : Nat} {f : FlitIn} {s : State} (hT : ([.regs, .tt, .checks, .flt, .icu, .ports, .prl, .out] : List Part) ⊆ U) (hC0 : Change U r0 s) :
    Change U r0 (doFlitReceived p f s) := by
  have k1 : ([.regs, .ports, .out] : List Part) ⊆ U := List.Subset.trans (by decide) hT
  have k2 : ([.regs, .tt, .flt, .icu, .out] : List Part) ⊆ U := List.Subset.trans (by decide) hT
  have k3 : ([.regs, .tt, .flt, .icu, .ports, .out] : List Part) ⊆ U := List.Subset.trans (by decide) hT
  unfold doFlitReceived
  repeat' first
    | with_reducible exact hC0
    | with_reducible refine Change.ite (fun _ => ?_) (fun _ => ?_)
    | with_reducible refine Change.getD (ackNote_change hT ?_) ?_
    | (refine ackNote_change hT ?_ _ (by assumption))
    | with_reducible refine linkFault_change hT ?_
    | with_reducible refine flitError_change k1 ?_
    | with_reducible refine lcwNote_change hT ?_
    | with_reducible refine laneCharge_change k2 ?_
    | with_reducible refine flitSeq_change k3 ?_
    | with_reducible refine Change.foldl (fun _ _ _ => ?_) ?_
    | with_reducible assumption
    | split
    | dsimp only

theorem doNakRepeatTimeout_change {U : List Part} {r0 : State} {p : Nat} {s : State} (hT : ([.regs, .ports, .out] : List Part) ⊆ U) (hC0 : Change U r0 s) :
    Change U r0 (doNakRepeatTimeout p s) := by
  unfold doNakRepeatTimeout
  repeat' first
    | with_reducible exact hC0
    | with_reducible refine Change.ite (fun _ => ?_) (fun _ => ?_)
    | with_reducible refine sendNak_change hT ?_
    | with_reducible refine Change.foldl (fun _ _ _ => ?_) ?_
    | with_reducible assumption
    | split
    | dsimp only

theorem doReplayTimeout_change {U : List Part} {r0 : State} {p : Nat} {s : State} (hT : ([.regs, .tt, .checks, .flt, .icu, .ports, .prl, .out] : List Part) ⊆ U) (hC0 : Change U r0 s) :
    Change U r0 (doReplayTimeout p s) := by
  unfold doReplayTimeout
  repeat' first
    | with_reducible exact hC0
    | with_reducible refine Change.ite (fun _ => ?_) (fun _ => ?_)
    | with_reducible refine replay_change hT ?_
    | with_reducible refine Change.foldl (fun _ _ _ => ?_) ?_
    | with_reducible assumption
    | split
    | dsimp only

theorem doProbeTick_change {U : List Part} {r0 : State} {p : Nat} {s : State} (hT : ([.ports] : List Part) ⊆ U) (hC0 : Change U r0 s) :
    Change U r0 (doProbeTick p s) := by
  unfold doProbeTick
  repeat' first
    | with_reducible exact hC0
    | with_reducible refine Change.ite (fun _ => ?_) (fun _ => ?_)
    | with_reducible refine State.modPort_change hT ?_
    | with_reducible refine Change.foldl (fun _ _ _ => ?_) ?_
    | with_reducible assumption
    | split
    | dsimp only

theorem doProbeSampleTimeout_change {U : List Part} {r0 : State} {p : Nat} {s : State} (hT : ([.ports] : List Part) ⊆ U) (hC0 : Change U r0 s) :
    Change U r0 (doProbeSampleTimeout p s) := by
  unfold doProbeSampleTimeout
  repeat' first
    | with_reducible exact hC0
    | with_reducible refine Change.ite (fun _ => ?_) (fun _ => ?_)
    | with_reducible refine State.modPort_change hT ?_
    | with_reducible refine Change.foldl (fun _ _ _ => ?_) ?_
    | with_reducible assumption
    | split
    | dsimp only

theorem takeRx_change {U : List Part} {r0 : State} {p : Nat} {k : Pkt} {s : State} (hT : ([.ports] : List Part) ⊆ U) (hC0 : Change U r0 s) :
    Change U r0 (takeRx p k s) := by
  unfold takeRx
  repeat' first
    | with_reducible exact hC0
    | with_reducible refine Change.ite (fun _ => ?_) (fun _ => ?_)
    | with_reducible refine State.modPort_change hT ?_
    | with_reducible refine Change.foldl (fun _ _ _ => ?_) ?_
    | with_reducible assumption
    | split
    | dsimp only

theorem malformed_change {U : List Part} {r0 : State} {p : Nat} {s : State} (hT : ([.regs, .tt, .flt, .icu, .out] : List Part) ⊆ U) (hC0 : Change U r0 s) :
    Change U r0 (malformed p s) := by
  unfold malformed
  repeat' first
    | with_reducible exact hC0
    | with_reducible refine Change.ite (fun _ => ?_) (fun _ => ?_)
    | with_reducible refine faultEvent_change hT ?_
    | with_reducible refine Change.foldl (fun _ _ _ => ?_) ?_
    | with_reducible assumption
    | split
    | dsimp only

theorem malformedReq_change {U : List Part} {r0 : State} {p : Nat} {k : Pkt} {s : State} (hT : ([.regs, .tt, .flt, .icu, .ports, .out] : List Part) ⊆ U) (hC0 : Change U r0 s) :
    Change U r0 (malformedReq p k s) := by
  have k1 : ([.regs, .tt, .flt, .icu, .out] : List Part) ⊆ U := List.Subset.trans (by decide) hT
  have k2 : ([.ports, .out] : List Part) ⊆ U := List.Subset.trans (by decide) hT
  unfold malformedReq
  repeat' first
    | with_reducible exact hC0
    | with_reducible refine Change.ite (fun _ => ?_) (fun _ => ?_)
    | with_reducible refine malformed_change k1 ?_
    | with_reducible refine errPkt_change k2 ?_
    | with_reducible refine Change.foldl (fun _ _ _ => ?_) ?_
    | with_reducible assumption
    | split
    | dsimp only

theorem badPkt_change {U : List Part} {r0 : State} {p : Nat} {k : Pkt} {s : State} (hT : ([.regs, .tt, .flt, .icu, .ports, .out] : List Part) ⊆ U) (hC0 : Change U r0 s) :
    Change U r0 (badPkt p k s) := by
  have k1 : ([.regs, .tt, .flt, .icu, .out] : List Part) ⊆ U := List.Subset.trans (by decide) hT
  unfold badPkt
  exact Change.ite (fun _ => malformedReq_change hT hC0) (fun _ => malformed_change k1 hC0)

theorem act_change {U : List Part} {r0 : State} {p : Nat} {k : Pkt} {f : State → State} {s : State} (hT : ([.regs, .tt, .flt, .icu, .ports, .out] : List Part) ⊆ U) (hf : ∀ x0, Change U r0 x0 → Change U r0 (f x0)) (hC0 : Change U r0 s) :
    Change U r0 (act p k f s) := by
  have k1 : ([.ports] : List Part) ⊆ U := List.Subset.trans (by decide) hT
  have k2 : ([.regs] : List Part) ⊆ U := List.Subset.trans (by decide) hT
  have h1 : Change U r0 (takeRx p k s) := takeRx_change k1 hC0
  unfold act
  refine xoffSync_change k2 ?_
  split
  · exact badPkt_change hT h1
  · exact hf _ h1

theorem request_change {U : List Part} {r0 : State} {p : Nat} {k : Pkt} {bad : Bool} {f : State → State} {s : State} (hT : ([.regs, .tt, .flt, .icu, .ports, .out] : List Part) ⊆ U) (hf : ∀ x0, Change U r0 x0 → Change U r0 (f x0)) (hC0 : Change U r0 s) :
    Change U r0 (request p k bad f s) := by
  have k1 : ([.regs, .tt, .flt, .icu, .out] : List Part) ⊆ U := List.Subset.trans (by decide) hT
  have k2 : ([.ports, .out] : List Part) ⊆ U := List.Subset.trans (by decide) hT
  unfold request
  repeat' first
    | with_reducible exact hC0
    | with_reducible refine Change.ite (fun _ => ?_) (fun _ => ?_)
    | with_reducible refine hf _ ?_
    | with_reducible refine malformedReq_change hT ?_
    | with_reducible refine faultEvent_change k1 ?_
    | with_reducible refine errPkt_change k2 ?_
    | with_reducible refine Change.foldl (fun _ _ _ => ?_) ?_
    | with_reducible assumption
    | split
    | dsimp only

theorem npRequest_change {U : List Part} {r0 : State} {p : Nat} {typ : FTyp} {k : Pkt} {len : Nat} {s : State} (hT : ([.regs, .tt, .flt, .icu, .hep, .wxl, .qaux, .swc, .ports, .cores, .out] : List Part) ⊆ U) (hC0 : Change U r0 s) :
    Change U r0 (npRequest p typ k len s) := by
  have k1 : ([.ports] : List Part) ⊆ U := List.Subset.trans (by decide) hT
  have k2 : ([.ports, .out] : List Part) ⊆ U := List.Subset.trans (by decide) hT
  unfold npRequest
  repeat' first
    | with_reducible exact hC0
    | with_reducible refine Change.ite (fun _ => ?_) (fun _ => ?_)
    | with_reducible refine State.modPort_change k1 ?_
    | with_reducible refine wxlAccess_change hT ?_
    | with_reducible refine errPkt_change k2 ?_
    | with_reducible refine Change.foldl (fun _ _ _ => ?_) ?_
    | with_reducible assumption
    | split
    | dsimp only

theorem doMrd_change {U : List Part} {r0 : State} {p : Nat} {k : Pkt} {s : State} (hT : ([.regs, .tt, .flt, .icu, .hep, .wxl, .qaux, .swc, .ports, .cores, .out] : List Part) ⊆ U) (hC0 : Change U r0 s) :
    Change U r0 (doMrd p k s) := by
  have k9 : ([.regs, .tt, .flt, .icu, .ports, .out] : List Part) ⊆ U := List.Subset.trans (by decide) hT
  have k1 : ([.regs, .tt, .flt, .icu, .ports, .out] : List Part) ⊆ U := List.Subset.trans (by decide) hT
  have k2 : ([.regs, .ports] : List Part) ⊆ U := List.Subset.trans (by decide) hT
  unfold doMrd
  repeat' first
    | with_reducible exact hC0
    | with_reducible refine Change.ite (fun _ => ?_) (fun _ => ?_)
    | with_reducible refine npRequest_change hT ?_
    | with_reducible refine request_change k1 (fun _ _ => ?_) ?_
    | with_reducible refine act_change k9 (fun _ _ => ?_) ?_
    | with_reducible refine Change.foldl (fun _ _ _ => ?_) ?_
    | with_reducible assumption
    | split
    | dsimp only

theorem doMwr_change {U : List Part} {r0 : State} {p : Nat} {k : Pkt} {s : State} (hT : ([.regs, .tt, .flt, .icu, .hep, .wxl, .qaux, .swc, .ports, .cores, .out] : List Part) ⊆ U) (hC0 : Change U r0 s) :
    Change U r0 (doMwr p k s) := by
  have k9 : ([.regs, .tt, .flt, .icu, .ports, .out] : List Part) ⊆ U := List.Subset.trans (by decide) hT
  have k1 : ([.regs, .tt, .flt, .icu, .ports, .out] : List Part) ⊆ U := List.Subset.trans (by decide) hT
  have k2 : ([.regs, .ports] : List Part) ⊆ U := List.Subset.trans (by decide) hT
  unfold doMwr
  repeat' first
    | with_reducible exact hC0
    | with_reducible refine Change.ite (fun _ => ?_) (fun _ => ?_)
    | with_reducible refine request_change k1 (fun _ _ => ?_) ?_
    | with_reducible refine act_change k9 (fun _ _ => ?_) ?_
    | with_reducible refine wxlAccess_change hT ?_
    | with_reducible refine Change.foldl (fun _ _ _ => ?_) ?_
    | with_reducible assumption
    | split
    | dsimp only

theorem doAtom_change {U : List Part} {r0 : State} {p : Nat} {k : Pkt} {s : State} (hT : ([.regs, .tt, .flt, .icu, .hep, .wxl, .qaux, .swc, .ports, .cores, .out] : List Part) ⊆ U) (hC0 : Change U r0 s) :
    Change U r0 (doAtom p k s) := by
  have k9 : ([.regs, .tt, .flt, .icu, .ports, .out] : List Part) ⊆ U := List.Subset.trans (by decide) hT
  have k1 : ([.regs, .tt, .flt, .icu, .ports, .out] : List Part) ⊆ U := List.Subset.trans (by decide) hT
  have k2 : ([.regs, .ports] : List Part) ⊆ U := List.Subset.trans (by decide) hT
  unfold doAtom
  repeat' first
    | with_reducible exact hC0
    | with_reducible refine Change.ite (fun _ => ?_) (fun _ => ?_)
    | with_reducible refine npRequest_change hT ?_
    | with_reducible refine request_change k1 (fun _ _ => ?_) ?_
    | with_reducible refine act_change k9 (fun _ _ => ?_) ?_
    | with_reducible refine Change.foldl (fun _ _ _ => ?_) ?_
    | with_reducible assumption
    | split
    | dsimp only

theorem doCfg_change {U : List Part} {r0 : State} {p : Nat} {k : Pkt} {s : State} (hT : ([.regs, .tt, .flt, .icu, .ports, .out] : List Part) ⊆ U) (hC0 : Change U r0 s) :
    Change U r0 (doCfg p k s) := by
  have k1 : ([.regs, .ports] : List Part) ⊆ U := List.Subset.trans (by decide) hT
  have k2 : ([.ports, .out] : List Part) ⊆ U := List.Subset.trans (by decide) hT
  unfold doCfg
  repeat' first
    | with_reducible exact hC0
    | with_reducible refine Change.ite (fun _ => ?_) (fun _ => ?_)
    | with_reducible refine malformedReq_change hT ?_
    | with_reducible refine act_change hT (fun _ _ => ?_) ?_
    | with_reducible refine errPkt_change k2 ?_
    | with_reducible refine Change.foldl (fun _ _ _ => ?_) ?_
    | with_reducible assumption
    | split
    | dsimp only

theorem npReturn_change {U : List Part} {r0 : State} {p : Nat} {f : Frame} {ans : Ans} {data : List Byte} {se : Bool} {s : State} (hT : ([.regs, .tt, .flt, .icu, .hep, .wxl, .qaux, .swc, .ports, .cores, .out] : List Part) ⊆ U) (hC0 : Change U r0 s) :
    Change U r0 (npReturn p f ans data se s) := by
  have k1 : ([.swc] : List Part) ⊆ U := List.Subset.trans (by decide) hT
  unfold npReturn
  repeat' first
    | with_reducible exact hC0
    | with_reducible refine Change.ite (fun _ => ?_) (fun _ => ?_)
    | with_reducible refine State.inject_change k1 ?_
    | with_reducible refine deliverAns_change hT ?_
    | with_reducible refine Change.foldl (fun _ _ _ => ?_) ?_
    | with_reducible assumption
    | split
    | dsimp only

theorem npPoison_change {U : List Part} {r0 : State} {p : Nat} {n : LinkNp} {s : State} (hT : ([.regs, .tt, .flt, .icu, .hep, .wxl, .qaux, .swc, .ports, .cores, .out, .free] : List Part) ⊆ U) (hC0 : Change U r0 s) :
    Change U r0 (npPoison p n s) := by
  have k1 : ([.regs, .tt, .flt, .icu, .hep, .wxl, .qaux, .swc, .ports, .cores, .out] : List Part) ⊆ U := List.Subset.trans (by decide) hT
  have k2 : ([.free] : List Part) ⊆ U := List.Subset.trans (by decide) hT
  unfold npPoison
  repeat' first
    | with_reducible exact hC0
    | with_reducible refine Change.ite (fun _ => ?_) (fun _ => ?_)
    | with_reducible refine npReturn_change k1 ?_
    | with_reducible refine State.useFreeBytes_change k2 ?_
    | with_reducible refine Change.foldl (fun _ _ _ => ?_) ?_
    | with_reducible assumption
    | split
    | dsimp only

theorem npFree_change {U : List Part} {r0 : State} {p : Nat} {tag : Nat} {s : State} (hT : ([.ports] : List Part) ⊆ U) (hC0 : Change U r0 s) :
    Change U r0 (npFree p tag s) := by
  unfold npFree
  repeat' first
    | with_reducible exact hC0
    | with_reducible refine Change.ite (fun _ => ?_) (fun _ => ?_)
    | with_reducible refine State.modPort_change hT ?_
    | with_reducible refine Change.foldl (fun _ _ _ => ?_) ?_
    | with_reducible assumption
    | split
    | dsimp only

theorem cfgDone_change {U : List Part} {r0 : State} {p : Nat} {result : Nat} {s : State} (hT : ([.regs, .ports] : List Part) ⊆ U) (hC0 : Change U r0 s) :
    Change U r0 (cfgDone p result s) := by
  have k1 : ([.ports] : List Part) ⊆ U := List.Subset.trans (by decide) hT
  have k2 : ([.regs] : List Part) ⊆ U := List.Subset.trans (by decide) hT
  unfold cfgDone
  repeat' first
    | with_reducible exact hC0
    | with_reducible refine Change.ite (fun _ => ?_) (fun _ => ?_)
    | with_reducible refine State.modPort_change k1 ?_
    | with_reducible refine State.put_change k2 ?_
    | with_reducible refine Change.foldl (fun _ _ _ => ?_) ?_
    | with_reducible assumption
    | split
    | dsimp only

theorem response_change {U : List Part} {r0 : State} {p : Nat} {k : Pkt} {last : Bool} {toNp : LinkNp → State → State} {toCfg : State → State} {s : State} (hT : ([.regs, .tt, .flt, .icu, .ports, .out] : List Part) ⊆ U) (htoNp : ∀ x0 x1, Change U r0 x1 → Change U r0 (toNp x0 x1)) (htoCfg : ∀ x0, Change U r0 x0 → Change U r0 (toCfg x0)) (hC0 : Change U r0 s) :
    Change U r0 (response p k last toNp toCfg s) := by
  have k1 : ([.regs] : List Part) ⊆ U := List.Subset.trans (by decide) hT
  have k2 : ([.ports] : List Part) ⊆ U := List.Subset.trans (by decide) hT
  have k3 : ([.regs, .tt, .flt, .icu, .out] : List Part) ⊆ U := List.Subset.trans (by decide) hT
  unfold response
  repeat' first
    | with_reducible exact hC0
    | with_reducible refine Change.ite (fun _ => ?_) (fun _ => ?_)
    | with_reducible refine htoNp _ _ ?_
    | with_reducible refine htoCfg _ ?_
    | with_reducible refine State.bump_change k1 ?_
    | with_reducible refine npFree_change k2 ?_
    | with_reducible refine malformed_change k3 ?_
    | with_reducible refine Change.foldl (fun _ _ _ => ?_) ?_
    | with_reducible refine Change.ofId ?_
    | with_reducible assumption
    | split
    | dsimp only

theorem cpldNp_change {U : List Part} {r0 : State} {p : Nat} {k : Pkt} {n : LinkNp} {s : State} (hT : ([.regs, .tt, .flt, .icu, .hep, .wxl, .qaux, .swc, .ports, .cores, .out] : List Part) ⊆ U) (hC0 : Change U r0 s) :
    Change U r0 (cpldNp p k n s) := by
  have k1 : ([.ports] : List Part) ⊆ U := List.Subset.trans (by decide) hT
  have k2 : ([.regs, .tt, .flt, .icu, .out] : List Part) ⊆ U := List.Subset.trans (by decide) hT
  unfold cpldNp
  repeat' first
    | with_reducible exact hC0
    | with_reducible refine Change.ite (fun _ => ?_) (fun _ => ?_)
    | with_reducible refine State.modPort_change k1 ?_
    | with_reducible refine npFree_change k1 ?_
    | with_reducible refine npReturn_change hT ?_
    | with_reducible refine malformed_change k2 ?_
    | with_reducible refine Change.foldl (fun _ _ _ => ?_) ?_
    | with_reducible assumption
    | split
    | dsimp only

theorem doCpld_change {U : List Part} {r0 : State} {p : Nat} {k : Pkt} {s : State} (hT : ([.regs, .tt, .flt, .icu, .hep, .wxl, .qaux, .swc, .ports, .cores, .out] : List Part) ⊆ U) (hC0 : Change U r0 s) :
    Change U r0 (doCpld p k s) := by
  have k9 : ([.regs, .tt, .flt, .icu, .ports, .out] : List Part) ⊆ U := List.Subset.trans (by decide) hT
  have k1 : ([.regs, .ports] : List Part) ⊆ U := List.Subset.trans (by decide) hT
  have k2 : ([.regs, .tt, .flt, .icu, .ports, .out] : List Part) ⊆ U := List.Subset.trans (by decide) hT
  have k3 : ([.regs] : List Part) ⊆ U := List.Subset.trans (by decide) hT
  have k4 : ([.regs, .tt, .flt, .icu, .out] : List Part) ⊆ U := List.Subset.trans (by decide) hT
  unfold doCpld
  repeat' first
    | with_reducible exact hC0
    | with_reducible refine Change.ite (fun _ => ?_) (fun _ => ?_)
    | with_reducible refine act_change k9 (fun _ _ => ?_) ?_
    | with_reducible refine response_change k2 (fun _ _ _ => ?_) (fun _ _ => ?_) ?_
    | with_reducible refine cfgDone_change k1 ?_
    | with_reducible refine State.put_change k3 ?_
    | with_reducible refine malformed_change k4 ?_
    | with_reducible refine cpldNp_change hT ?_
    | with_reducible refine Change.foldl (fun _ _ _ => ?_) ?_
    | with_reducible assumption
    | split
    | dsimp only

theorem doCpl_change {U : List Part} {r0 : State} {p : Nat} {k : Pkt} {s : State} (hT : ([.regs, .tt, .flt, .icu, .hep, .wxl, .qaux, .swc, .ports, .cores, .out, .free] : List Part) ⊆ U) (hC0 : Change U r0 s) :
    Change U r0 (doCpl p k s) := by
  have k9 : ([.regs, .tt, .flt, .icu, .ports, .out] : List Part) ⊆ U := List.Subset.trans (by decide) hT
  have k1 : ([.ports] : List Part) ⊆ U := List.Subset.trans (by decide) hT
  have k2 : ([.regs, .ports] : List Part) ⊆ U := List.Subset.trans (by decide) hT
  have k3 : ([.regs, .tt, .flt, .icu, .ports, .out] : List Part) ⊆ U := List.Subset.trans (by decide) hT
  unfold doCpl
  repeat' first
    | with_reducible exact hC0
    | with_reducible refine Change.ite (fun _ => ?_) (fun _ => ?_)
    | with_reducible refine npFree_change k1 ?_
    | with_reducible refine npPoison_change hT ?_
    | with_reducible refine act_change k9 (fun _ _ => ?_) ?_
    | with_reducible refine response_change k3 (fun _ _ _ => ?_) (fun _ _ => ?_) ?_
    | with_reducible refine cfgDone_change k2 ?_
    | with_reducible refine Change.foldl (fun _ _ _ => ?_) ?_
    | with_reducible assumption
    | split
    | dsimp only

theorem perrLog_change {U : List Part} {r0 : State} {p : Nat} {k : Pkt} {a : Attrib} {s : State} (hT : ([.regs] : List Part) ⊆ U) (hC0 : Change U r0 s) :
    Change U r0 (perrLog p k a s) := by
  unfold perrLog
  repeat' first
    | with_reducible exact hC0
    | with_reducible refine Change.ite (fun _ => ?_) (fun _ => ?_)
    | with_reducible refine State.setReg_change hT ?_
    | with_reducible refine State.bump_change hT ?_
    | with_reducible refine State.put_change hT ?_
    | with_reducible refine Change.foldl (fun _ _ _ => ?_) ?_
    | with_reducible assumption
    | split
    | dsimp only

theorem postedErr_change {U : List Part} {r0 : State} {p : Nat} {k : Pkt} {s : State} (hT : ([.regs, .tt, .flt, .icu, .out] : List Part) ⊆ U) (hC0 : Change U r0 s) :
    Change U r0 (postedErr p k s) := by
  have k1 : ([.regs] : List Part) ⊆ U := List.Subset.trans (by decide) hT
  have k2 : ([.icu] : List Part) ⊆ U := List.Subset.trans (by decide) hT
  unfold postedErr
  repeat' first
    | with_reducible exact hC0
    | with_reducible refine Change.ite (fun _ => ?_) (fun _ => ?_)
    | with_reducible refine perrSync_change hT ?_
    | with_reducible refine State.bump_change k1 ?_
    | with_reducible refine hpEvent_change k2 ?_
    | with_reducible refine faultEvent_change hT ?_
    | with_reducible refine perrLog_change k1 ?_
    | with_reducible refine fnFault_change k1 ?_
    | with_reducible refine Change.foldl (fun _ _ _ => ?_) ?_
    | with_reducible assumption
    | split
    | dsimp only

theorem doErr_change {U : List Part} {r0 : State} {p : Nat} {k : Pkt} {s : State} (hT : ([.regs, .tt, .flt, .icu, .hep, .wxl, .qaux, .swc, .ports, .cores, .out, .free] : List Part) ⊆ U) (hC0 : Change U r0 s) :
    Change U r0 (doErr p k s) := by
  have k9 : ([.regs, .tt, .flt, .icu, .ports, .out] : List Part) ⊆ U := List.Subset.trans (by decide) hT
  have k1 : ([.ports] : List Part) ⊆ U := List.Subset.trans (by decide) hT
  have k2 : ([.regs, .tt, .flt, .icu, .out] : List Part) ⊆ U := List.Subset.trans (by decide) hT
  have k3 : ([.regs, .ports] : List Part) ⊆ U := List.Subset.trans (by decide) hT
  have k4 : ([.regs, .tt, .flt, .icu, .ports, .out] : List Part) ⊆ U := List.Subset.trans (by decide) hT
  unfold doErr
  repeat' first
    | with_reducible exact hC0
    | with_reducible refine Change.ite (fun _ => ?_) (fun _ => ?_)
    | with_reducible refine npFree_change k1 ?_
    | with_reducible refine postedErr_change k2 ?_
    | with_reducible refine npPoison_change hT ?_
    | with_reducible refine act_change k9 (fun _ _ => ?_) ?_
    | with_reducible refine response_change k4 (fun _ _ _ => ?_) (fun _ _ => ?_) ?_
    | with_reducible refine cfgDone_change k3 ?_
    | with_reducible refine Change.foldl (fun _ _ _ => ?_) ?_
    | with_reducible assumption
    | split
    | dsimp only

theorem plMessage_change {U : List Part} {r0 : State} {p : Nat} {k : Pkt} {f : State → State} {s : State} (hT : ([.regs, .tt, .flt, .icu, .ports, .out] : List Part) ⊆ U) (hf : ∀ x0, Change U r0 x0 → Change U r0 (f x0)) (hC0 : Change U r0 s) :
    Change U r0 (plMessage p k f s) := by
  have k1 : ([.regs, .tt, .flt, .icu, .out] : List Part) ⊆ U := List.Subset.trans (by decide) hT
  unfold plMessage
  repeat' first
    | with_reducible exact hC0
    | with_reducible refine Change.ite (fun _ => ?_) (fun _ => ?_)
    | with_reducible refine hf _ ?_
    | with_reducible refine request_change hT (fun _ _ => ?_) ?_
    | with_reducible refine malformed_change k1 ?_
    | with_reducible refine Change.foldl (fun _ _ _ => ?_) ?_
    | with_reducible assumption
    | split
    | dsimp only

theorem doMsgInt_change {U : List Part} {r0 : State} {p : Nat} {k : Pkt} {s : State} (hT : ([.regs, .tt, .flt, .icu, .ports, .out] : List Part) ⊆ U) (hC0 : Change U r0 s) :
    Change U r0 (doMsgInt p k s) := by
  have k1 : ([.regs, .ports] : List Part) ⊆ U := List.Subset.trans (by decide) hT
  have k2 : ([.icu] : List Part) ⊆ U := List.Subset.trans (by decide) hT
  unfold doMsgInt
  repeat' first
    | with_reducible exact hC0
    | with_reducible refine Change.ite (fun _ => ?_) (fun _ => ?_)
    | with_reducible refine act_change hT (fun _ _ => ?_) ?_
    | with_reducible refine plMessage_change hT (fun _ _ => ?_) ?_
    | with_reducible refine Change.foldl (fun _ _ _ => ?_) ?_
    | with_reducible assumption
    | split
    | dsimp only
    | with_reducible refine Change.set_icu k2 ?_

theorem partnerSource_change {U : List Part} {r0 : State} {m : MsgInt} {s : State} (hT : ([.regs, .tt, .flt, .icu, .out] : List Part) ⊆ U) (hC0 : Change U r0 s) :
    Change U r0 (partnerSource m s) := by
  have k1 : ([.regs] : List Part) ⊆ U := List.Subset.trans (by decide) hT
  unfold partnerSource
  repeat' first
    | with_reducible exact hC0
    | with_reducible refine Change.ite (fun _ => ?_) (fun _ => ?_)
    | with_reducible refine State.bump_change k1 ?_
    | with_reducible refine faultEvent_change hT ?_
    | with_reducible refine icuEvent_change hT ?_
    | with_reducible refine State.put_change k1 ?_
    | with_reducible refine icuLevel_change hT ?_
    | with_reducible refine Change.foldl (fun _ _ _ => ?_) ?_
    | with_reducible assumption
    | split
    | dsimp only

theorem doMsgIntEffect_change {U : List Part} {r0 : State} {p : Nat} {s : State} (hT : ([.regs, .tt, .flt, .icu, .out] : List Part) ⊆ U) (hC0 : Change U r0 s) :
    Change U r0 (doMsgIntEffect p s) := by
  have k1 : ([.icu] : List Part) ⊆ U := List.Subset.trans (by decide) hT
  unfold doMsgIntEffect
  repeat' first
    | with_reducible exact hC0
    | with_reducible refine Change.ite (fun _ => ?_) (fun _ => ?_)
    | with_reducible refine partnerSource_change hT ?_
    | with_reducible refine Change.foldl (fun _ _ _ => ?_) ?_
    | with_reducible assumption
    | split
    | dsimp only
    | with_reducible refine Change.set_icu k1 ?_

theorem sbIn_change {U : List Part} {r0 : State} {p : Nat} {k : Pkt} {s : State} (hT : ([.regs, .tt, .flt, .icu, .out] : List Part) ⊆ U) (hC0 : Change U r0 s) :
    Change U r0 (sbIn p k s) := by
  have k1 : ([.regs] : List Part) ⊆ U := List.Subset.trans (by decide) hT
  unfold sbIn
  repeat' first
    | with_reducible exact hC0
    | with_reducible refine Change.ite (fun _ => ?_) (fun _ => ?_)
    | with_reducible refine sbSync_change hT ?_
    | with_reducible refine State.put_change k1 ?_
    | with_reducible refine Change.foldl (fun _ _ _ => ?_) ?_
    | with_reducible assumption
    | split
    | dsimp only

theorem doMsgSb_change {U : List Part} {r0 : State} {p : Nat} {k : Pkt} {s : State} (hT : ([.regs, .tt, .flt, .icu, .ports, .out] : List Part) ⊆ U) (hC0 : Change U r0 s) :
    Change U r0 (doMsgSb p k s) := by
  have k1 : ([.regs, .tt, .flt, .icu, .out] : List Part) ⊆ U := List.Subset.trans (by decide) hT
  have k2 : ([.regs, .ports] : List Part) ⊆ U := List.Subset.trans (by decide) hT
  have k3 : ([.ports, .out] : List Part) ⊆ U := List.Subset.trans (by decide) hT
  unfold doMsgSb
  repeat' first
    | with_reducible exact hC0
    | with_reducible refine Change.ite (fun _ => ?_) (fun _ => ?_)
    | with_reducible refine malformedReq_change hT ?_
    | with_reducible refine faultEvent_change k1 ?_
    | with_reducible refine act_change hT (fun _ _ => ?_) ?_
    | with_reducible refine sbIn_change k1 ?_
    | with_reducible refine malformed_change k1 ?_
    | with_reducible refine errPkt_change k3 ?_
    | with_reducible refine Change.foldl (fun _ _ _ => ?_) ?_
    | with_reducible assumption
    | split
    | dsimp only

theorem doEpoch_change {U : List Part} {r0 : State} {p : Nat} {k : Pkt} {s : State} (hT : ([.regs, .tt, .checks, .flt, .icu, .ports, .prl, .out] : List Part) ⊆ U) (hC0 : Change U r0 s) :
    Change U r0 (doEpoch p k s) := by
  have k9 : ([.regs, .tt, .flt, .icu, .ports, .out] : List Part) ⊆ U := List.Subset.trans (by decide) hT
  have k1 : ([.regs, .ports] : List Part) ⊆ U := List.Subset.trans (by decide) hT
  unfold doEpoch
  repeat' first
    | with_reducible exact hC0
    | with_reducible refine Change.ite (fun _ => ?_) (fun _ => ?_)
    | with_reducible refine linkFault_change hT ?_
    | with_reducible refine act_change k9 (fun _ _ => ?_) ?_
    | with_reducible refine Change.foldl (fun _ _ _ => ?_) ?_
    | with_reducible assumption
    | split
    | dsimp only

theorem sendPm_change {U : List Part} {r0 : State} {p : Nat} {a : Nat} {s : State} (hT : ([.ports, .out] : List Part) ⊆ U) (hC0 : Change U r0 s) :
    Change U r0 (sendPm p a s) := by
  unfold sendPm
  repeat' first
    | with_reducible exact hC0
    | with_reducible refine Change.ite (fun _ => ?_) (fun _ => ?_)
    | with_reducible refine sendPkt_change hT ?_
    | with_reducible refine Change.foldl (fun _ _ _ => ?_) ?_
    | with_reducible assumption
    | split
    | dsimp only

theorem setSleep_change {U : List Part} {r0 : State} {p : Nat} {n : Nat} {s : State} (hT : ([.ports] : List Part) ⊆ U) (hC0 : Change U r0 s) :
    Change U r0 (setSleep p n s) := by
  unfold setSleep
  repeat' first
    | with_reducible exact hC0
    | with_reducible refine Change.ite (fun _ => ?_) (fun _ => ?_)
    | with_reducible refine State.modPort_change hT ?_
    | with_reducible refine Change.foldl (fun _ _ _ => ?_) ?_
    | with_reducible assumption
    | split
    | dsimp only

theorem doSleepReq_change {U : List Part} {r0 : State} {p : Nat} {s : State} (hT : ([.regs, .tt, .flt, .icu, .ports, .out] : List Part) ⊆ U) (hC0 : Change U r0 s) :
    Change U r0 (doSleepReq p s) := by
  have k9 : ([.regs, .tt, .flt, .icu, .ports, .out] : List Part) ⊆ U := List.Subset.trans (by decide) hT
  have k8 : ([.regs, .ports, .out] : List Part) ⊆ U := List.Subset.trans (by decide) hT
  have k1 : ([.regs, .ports] : List Part) ⊆ U := List.Subset.trans (by decide) hT
  have k2 : ([.ports] : List Part) ⊆ U := List.Subset.trans (by decide) hT
  have k3 : ([.ports, .out] : List Part) ⊆ U := List.Subset.trans (by decide) hT
  unfold doSleepReq
  repeat' first
    | with_reducible exact hC0
    | with_reducible refine Change.ite (fun _ => ?_) (fun _ => ?_)
    | with_reducible refine act_change k9 (fun _ _ => ?_) ?_
    | with_reducible refine setSleep_change k2 ?_
    | with_reducible refine sendPm_change k3 ?_
    | with_reducible refine Change.foldl (fun _ _ _ => ?_) ?_
    | with_reducible assumption
    | split
    | dsimp only

theorem doSleepAck_change {U : List Part} {r0 : State} {p : Nat} {s : State} (hT : ([.regs, .tt, .flt, .icu, .ports, .out] : List Part) ⊆ U) (hC0 : Change U r0 s) :
    Change U r0 (doSleepAck p s) := by
  have k9 : ([.regs, .tt, .flt, .icu, .ports, .out] : List Part) ⊆ U := List.Subset.trans (by decide) hT
  have k8 : ([.regs, .ports] : List Part) ⊆ U := List.Subset.trans (by decide) hT
  have k1 : ([.ports] : List Part) ⊆ U := List.Subset.trans (by decide) hT
  unfold doSleepAck
  repeat' first
    | with_reducible exact hC0
    | with_reducible refine Change.ite (fun _ => ?_) (fun _ => ?_)
    | with_reducible refine act_change k9 (fun _ _ => ?_) ?_
    | with_reducible refine setSleep_change k1 ?_
    | with_reducible refine Change.foldl (fun _ _ _ => ?_) ?_
    | with_reducible assumption
    | split
    | dsimp only

theorem doSleepNak_change {U : List Part} {r0 : State} {p : Nat} {s : State} (hT : ([.regs, .tt, .flt, .icu, .ports, .out] : List Part) ⊆ U) (hC0 : Change U r0 s) :
    Change U r0 (doSleepNak p s) := by
  have k9 : ([.regs, .tt, .flt, .icu, .ports, .out] : List Part) ⊆ U := List.Subset.trans (by decide) hT
  have k8 : ([.regs, .ports] : List Part) ⊆ U := List.Subset.trans (by decide) hT
  have k1 : ([.ports] : List Part) ⊆ U := List.Subset.trans (by decide) hT
  unfold doSleepNak
  repeat' first
    | with_reducible exact hC0
    | with_reducible refine Change.ite (fun _ => ?_) (fun _ => ?_)
    | with_reducible refine act_change k9 (fun _ _ => ?_) ?_
    | with_reducible refine setSleep_change k1 ?_
    | with_reducible refine Change.foldl (fun _ _ _ => ?_) ?_
    | with_reducible assumption
    | split
    | dsimp only

theorem doSleepIdleExpiry_change {U : List Part} {r0 : State} {p : Nat} {s : State} (hT : ([.ports, .out] : List Part) ⊆ U) (hC0 : Change U r0 s) :
    Change U r0 (doSleepIdleExpiry p s) := by
  have k1 : ([.ports] : List Part) ⊆ U := List.Subset.trans (by decide) hT
  unfold doSleepIdleExpiry
  repeat' first
    | with_reducible exact hC0
    | with_reducible refine Change.ite (fun _ => ?_) (fun _ => ?_)
    | with_reducible refine setSleep_change k1 ?_
    | with_reducible refine sendPm_change hT ?_
    | with_reducible refine Change.foldl (fun _ _ _ => ?_) ?_
    | with_reducible assumption
    | split
    | dsimp only

theorem doSleepHandshakeTimeout_change {U : List Part} {r0 : State} {p : Nat} {s : State} (hT : ([.ports, .out] : List Part) ⊆ U) (hC0 : Change U r0 s) :
    Change U r0 (doSleepHandshakeTimeout p s) := by
  have k1 : ([.ports] : List Part) ⊆ U := List.Subset.trans (by decide) hT
  unfold doSleepHandshakeTimeout
  repeat' first
    | with_reducible exact hC0
    | with_reducible refine Change.ite (fun _ => ?_) (fun _ => ?_)
    | with_reducible refine txDrain_change hT ?_
    | with_reducible refine setSleep_change k1 ?_
    | with_reducible refine Change.foldl (fun _ _ _ => ?_) ?_
    | with_reducible assumption
    | split
    | dsimp only

theorem doSleepEntry_change {U : List Part} {r0 : State} {p : Nat} {s : State} (hT : ([.regs, .tt, .checks, .flt, .icu, .ports, .prl, .out] : List Part) ⊆ U) (hC0 : Change U r0 s) :
    Change U r0 (doSleepEntry p s) := by
  have k1 : ([.out] : List Part) ⊆ U := List.Subset.trans (by decide) hT
  unfold doSleepEntry
  repeat' first
    | with_reducible exact hC0
    | with_reducible refine Change.ite (fun _ => ?_) (fun _ => ?_)
    | with_reducible refine linkTo_change hT ?_
    | with_reducible refine State.emit_change k1 ?_
    | with_reducible refine Change.foldl (fun _ _ _ => ?_) ?_
    | with_reducible assumption
    | split
    | dsimp only

theorem doSleepExit_change {U : List Part} {r0 : State} {p : Nat} {s : State} (hT : ([.regs, .tt, .checks, .flt, .icu, .ports, .prl, .out] : List Part) ⊆ U) (hC0 : Change U r0 s) :
    Change U r0 (doSleepExit p s) := by
  have k1 : ([.ports] : List Part) ⊆ U := List.Subset.trans (by decide) hT
  unfold doSleepExit
  repeat' first
    | with_reducible exact hC0
    | with_reducible refine Change.ite (fun _ => ?_) (fun _ => ?_)
    | with_reducible refine State.modPort_change k1 ?_
    | with_reducible refine toRetrain_change hT ?_
    | with_reducible refine Change.foldl (fun _ _ _ => ?_) ?_
    | with_reducible assumption
    | split
    | dsimp only

theorem doPortRearm_change {U : List Part} {r0 : State} {a : Agent} {p : Nat} {v : Word} {s : State} (hT : ([.regs, .tt, .pins, .dev, .img, .checks, .flt, .icu, .hep, .wxl, .qen, .ctx, .qaux, .spl, .swc, .ports, .hbm, .mem, .gdc, .cores, .tcm, .prl, .out] : List Part) ⊆ U) (hC0 : Change U r0 s) :
    Change U r0 (doPortRearm a p v s) := by
  unfold doPortRearm
  repeat' first
    | with_reducible exact hC0
    | with_reducible refine Change.ite (fun _ => ?_) (fun _ => ?_)
    | with_reducible refine ctlWriteBy_change hT ?_
    | with_reducible refine Change.foldl (fun _ _ _ => ?_) ?_
    | with_reducible assumption
    | split
    | dsimp only

theorem doCfgCmd_change {U : List Part} {r0 : State} {a : Agent} {p : Nat} {v : Word} {s : State} (hT : ([.regs, .tt, .pins, .dev, .img, .checks, .flt, .icu, .hep, .wxl, .qen, .ctx, .qaux, .spl, .swc, .ports, .hbm, .mem, .gdc, .cores, .tcm, .prl, .out] : List Part) ⊆ U) (hC0 : Change U r0 s) :
    Change U r0 (doCfgCmd a p v s) := by
  unfold doCfgCmd
  repeat' first
    | with_reducible exact hC0
    | with_reducible refine Change.ite (fun _ => ?_) (fun _ => ?_)
    | with_reducible refine ctlWriteBy_change hT ?_
    | with_reducible refine Change.foldl (fun _ _ _ => ?_) ?_
    | with_reducible assumption
    | split
    | dsimp only

theorem doCfgAnswerTimeout_change {U : List Part} {r0 : State} {p : Nat} {s : State} (hT : ([.regs, .ports] : List Part) ⊆ U) (hC0 : Change U r0 s) :
    Change U r0 (doCfgAnswerTimeout p s) := by
  unfold doCfgAnswerTimeout
  repeat' first
    | with_reducible exact hC0
    | with_reducible refine Change.ite (fun _ => ?_) (fun _ => ?_)
    | with_reducible refine cfgDone_change hT ?_
    | with_reducible refine Change.foldl (fun _ _ _ => ?_) ?_
    | with_reducible assumption
    | split
    | dsimp only

theorem doSidebandOut_change {U : List Part} {r0 : State} {a : Agent} {p : Nat} {v : Word} {s : State} (hT : ([.regs, .tt, .pins, .dev, .img, .checks, .flt, .icu, .hep, .wxl, .qen, .ctx, .qaux, .spl, .swc, .ports, .hbm, .mem, .gdc, .cores, .tcm, .prl, .out] : List Part) ⊆ U) (hC0 : Change U r0 s) :
    Change U r0 (doSidebandOut a p v s) := by
  unfold doSidebandOut
  repeat' first
    | with_reducible exact hC0
    | with_reducible refine Change.ite (fun _ => ?_) (fun _ => ?_)
    | with_reducible refine ctlWriteBy_change hT ?_
    | with_reducible refine Change.foldl (fun _ _ _ => ?_) ?_
    | with_reducible assumption
    | split
    | dsimp only

end Sys2Proof.Machine
end

