-- ==== Sys2Proof/Laws/Gondola.lean ====
section
/-! SUPPORT. What each operation of Machine/Gondola.lean may change. -/
set_option linter.all false
set_option linter.unusedTactic false
set_option linter.unreachableTactic false

namespace Sys2Proof.Machine

open Sys2Proof

theorem gdcNotice_change {U : List Part} {r0 : State} {s : State} (hT : ([.regs, .tt, .flt, .icu, .out] : List Part) ⊆ U) (hC0 : Change U r0 s) :
    Change U r0 (gdcNotice s) := by
  unfold gdcNotice
  repeat' first
    | with_reducible exact hC0
    | with_reducible refine Change.ite (fun _ => ?_) (fun _ => ?_)
    | with_reducible refine faultEvent_change hT ?_
    | with_reducible refine Change.foldl (fun _ _ _ => ?_) ?_
    | with_reducible assumption
    | split
    | dsimp only

theorem coreAct_change {U : List Part} {r0 : State} {c : Nat} {f : State → State} {s : State} (hT : ([.regs, .tt, .checks, .flt, .icu, .hep, .wxl, .qen, .ctx, .qaux, .spl, .swc, .ports, .cores, .prl, .out] : List Part) ⊆ U) (hf : ∀ x0, Change U r0 x0 → Change U r0 (f x0)) (hC0 : Change U r0 s) :
    Change U r0 (coreAct c f s) := by
  unfold coreAct
  repeat' first
    | with_reducible exact hC0
    | with_reducible refine Change.ite (fun _ => ?_) (fun _ => ?_)
    | with_reducible refine hf _ ?_
    | with_reducible refine coreLeave_change hT ?_
    | with_reducible refine Change.foldl (fun _ _ _ => ?_) ?_
    | with_reducible assumption
    | split
    | dsimp only

theorem csrAct_change {U : List Part} {r0 : State} {c : Nat} {csr : Nat} {f : State → State} {s : State} (hT : ([.regs, .tt, .checks, .flt, .icu, .hep, .wxl, .qen, .ctx, .qaux, .spl, .swc, .ports, .cores, .prl, .out] : List Part) ⊆ U) (hf : ∀ x0, Change U r0 x0 → Change U r0 (f x0)) (hC0 : Change U r0 s) :
    Change U r0 (csrAct c csr f s) := by
  have k1 : ([.out] : List Part) ⊆ U := List.Subset.trans (by decide) hT
  unfold csrAct
  repeat' first
    | with_reducible exact hC0
    | with_reducible refine Change.ite (fun _ => ?_) (fun _ => ?_)
    | with_reducible refine hf _ ?_
    | with_reducible refine coreAct_change hT (fun _ _ => ?_) ?_
    | with_reducible refine State.emit_change k1 ?_
    | with_reducible refine Change.foldl (fun _ _ _ => ?_) ?_
    | with_reducible assumption
    | split
    | dsimp only

theorem doFastEntry_change {U : List Part} {r0 : State} {c : Nat} {s : State} (hT : ([.regs, .tt, .checks, .flt, .icu, .hep, .wxl, .qen, .ctx, .qaux, .spl, .swc, .ports, .cores, .prl, .out] : List Part) ⊆ U) (hC0 : Change U r0 s) :
    Change U r0 (doFastEntry c s) := by
  have k1 : ([.cores] : List Part) ⊆ U := List.Subset.trans (by decide) hT
  unfold doFastEntry
  repeat' first
    | with_reducible exact hC0
    | with_reducible refine Change.ite (fun _ => ?_) (fun _ => ?_)
    | with_reducible refine State.setCore_change k1 ?_
    | with_reducible refine coreAct_change hT (fun _ _ => ?_) ?_
    | with_reducible refine Change.foldl (fun _ _ _ => ?_) ?_
    | with_reducible assumption
    | split
    | dsimp only

theorem fastCtl_change {U : List Part} {r0 : State} {c : Nat} {v : Word} {s : State} (hT : ([.cores] : List Part) ⊆ U) (hC0 : Change U r0 s) :
    Change U r0 (fastCtl c v s) := by
  unfold fastCtl
  repeat' first
    | with_reducible exact hC0
    | with_reducible refine Change.ite (fun _ => ?_) (fun _ => ?_)
    | with_reducible refine State.setCore_change hT ?_
    | with_reducible refine Change.foldl (fun _ _ _ => ?_) ?_
    | with_reducible assumption
    | split
    | dsimp only

theorem doFastReturn_change {U : List Part} {r0 : State} {c : Nat} {v : Word} {s : State} (hT : ([.regs, .tt, .checks, .flt, .icu, .hep, .wxl, .qen, .ctx, .qaux, .spl, .swc, .ports, .cores, .prl, .out] : List Part) ⊆ U) (hC0 : Change U r0 s) :
    Change U r0 (doFastReturn c v s) := by
  have k1 : ([.cores] : List Part) ⊆ U := List.Subset.trans (by decide) hT
  unfold doFastReturn
  repeat' first
    | with_reducible exact hC0
    | with_reducible refine Change.ite (fun _ => ?_) (fun _ => ?_)
    | with_reducible refine fastCtl_change k1 ?_
    | with_reducible refine csrAct_change hT (fun _ _ => ?_) ?_
    | with_reducible refine Change.foldl (fun _ _ _ => ?_) ?_
    | with_reducible assumption
    | split
    | dsimp only

theorem doFastTrap_change {U : List Part} {r0 : State} {c : Nat} {s : State} (hT : ([.regs, .tt, .checks, .flt, .icu, .hep, .wxl, .qen, .ctx, .qaux, .spl, .swc, .ports, .cores, .prl, .out] : List Part) ⊆ U) (hC0 : Change U r0 s) :
    Change U r0 (doFastTrap c s) := by
  unfold doFastTrap
  repeat' first
    | with_reducible exact hC0
    | with_reducible refine Change.ite (fun _ => ?_) (fun _ => ?_)
    | with_reducible refine coreLeave_change hT ?_
    | with_reducible refine coreAct_change hT (fun _ _ => ?_) ?_
    | with_reducible refine Change.foldl (fun _ _ _ => ?_) ?_
    | with_reducible assumption
    | split
    | dsimp only

theorem gclaimRead_change {U : List Part} {r0 : State} {c : Nat} {s : State} (hT : ([.regs, .icu, .out] : List Part) ⊆ U) (hC0 : Change U r0 s) :
    Change U r0 (gclaimRead c s) := by
  have k1 : ([.out] : List Part) ⊆ U := List.Subset.trans (by decide) hT
  unfold gclaimRead
  repeat' first
    | with_reducible exact hC0
    | with_reducible refine Change.ite (fun _ => ?_) (fun _ => ?_)
    | with_reducible refine coreClaim_change hT ?_
    | (refine Change.of_pair (by assumption) ?_; with_reducible refine coreClaim_change hT ?_)
    | with_reducible refine State.emit_change k1 ?_
    | with_reducible refine Change.foldl (fun _ _ _ => ?_) ?_
    | with_reducible refine Change.foldl_fst (fun _ _ _ => ?_) ?_
    | with_reducible refine Change.ite_fst (fun _ => ?_) (fun _ => ?_)
    | with_reducible assumption
    | split
    | dsimp only

theorem doGclaim_change {U : List Part} {r0 : State} {c : Nat} {s : State} (hT : ([.regs, .tt, .checks, .flt, .icu, .hep, .wxl, .qen, .ctx, .qaux, .spl, .swc, .ports, .cores, .prl, .out] : List Part) ⊆ U) (hC0 : Change U r0 s) :
    Change U r0 (doGclaim c s) := by
  have k1 : ([.regs, .icu, .out] : List Part) ⊆ U := List.Subset.trans (by decide) hT
  unfold doGclaim
  repeat' first
    | with_reducible exact hC0
    | with_reducible refine Change.ite (fun _ => ?_) (fun _ => ?_)
    | with_reducible refine csrAct_change hT (fun _ _ => ?_) ?_
    | with_reducible refine gclaimRead_change k1 ?_
    | with_reducible refine Change.foldl (fun _ _ _ => ?_) ?_
    | with_reducible assumption
    | split
    | dsimp only

theorem doGcomplete_change {U : List Part} {r0 : State} {c : Nat} {n : Nat} {s : State} (hT : ([.regs, .tt, .checks, .flt, .icu, .hep, .wxl, .qen, .ctx, .qaux, .spl, .swc, .ports, .cores, .prl, .out] : List Part) ⊆ U) (hC0 : Change U r0 s) :
    Change U r0 (doGcomplete c n s) := by
  have k1 : ([.regs, .tt, .flt, .icu, .out] : List Part) ⊆ U := List.Subset.trans (by decide) hT
  unfold doGcomplete
  repeat' first
    | with_reducible exact hC0
    | with_reducible refine Change.ite (fun _ => ?_) (fun _ => ?_)
    | with_reducible refine icuDone_change k1 ?_
    | with_reducible refine csrAct_change hT (fun _ _ => ?_) ?_
    | with_reducible refine Change.foldl (fun _ _ _ => ?_) ?_
    | with_reducible assumption
    | split
    | dsimp only

theorem mbHead_change {U : List Part} {r0 : State} {c : Nat} {h : Nat} {s : State} (hT : ([.regs, .tt, .flt, .icu, .cores, .out] : List Part) ⊆ U) (hC0 : Change U r0 s) :
    Change U r0 (mbHead c h s) := by
  have k1 : ([.regs, .tt, .flt, .icu, .out] : List Part) ⊆ U := List.Subset.trans (by decide) hT
  have k2 : ([.cores] : List Part) ⊆ U := List.Subset.trans (by decide) hT
  unfold mbHead
  repeat' first
    | with_reducible exact hC0
    | with_reducible refine Change.ite (fun _ => ?_) (fun _ => ?_)
    | with_reducible refine mboxSync_change k1 ?_
    | with_reducible refine State.setMbox_change k2 ?_
    | with_reducible refine State.setCore_change k2 ?_
    | with_reducible refine gdcNotice_change k1 ?_
    | with_reducible refine Change.foldl (fun _ _ _ => ?_) ?_
    | with_reducible assumption
    | split
    | dsimp only

theorem doGmbhead_change {U : List Part} {r0 : State} {c : Nat} {n : Nat} {s : State} (hT : ([.regs, .tt, .checks, .flt, .icu, .hep, .wxl, .qen, .ctx, .qaux, .spl, .swc, .ports, .cores, .prl, .out] : List Part) ⊆ U) (hC0 : Change U r0 s) :
    Change U r0 (doGmbhead c n s) := by
  have k1 : ([.regs, .tt, .flt, .icu, .cores, .out] : List Part) ⊆ U := List.Subset.trans (by decide) hT
  unfold doGmbhead
  repeat' first
    | with_reducible exact hC0
    | with_reducible refine Change.ite (fun _ => ?_) (fun _ => ?_)
    | with_reducible refine csrAct_change hT (fun _ _ => ?_) ?_
    | with_reducible refine mbHead_change k1 ?_
    | with_reducible refine Change.foldl (fun _ _ _ => ?_) ?_
    | with_reducible assumption
    | split
    | dsimp only

theorem mbDone_change {U : List Part} {r0 : State} {c : Nat} {i : Nat} {s : State} (hT : ([.regs, .tt, .checks, .flt, .icu, .hep, .wxl, .qen, .ctx, .qaux, .spl, .swc, .ports, .cores, .prl, .out] : List Part) ⊆ U) (hC0 : Change U r0 s) :
    Change U r0 (mbDone c i s) := by
  have k1 : ([.regs, .tt, .flt, .icu, .hep, .wxl, .ctx, .qaux, .spl, .swc, .ports, .cores, .prl, .out] : List Part) ⊆ U := List.Subset.trans (by decide) hT
  have k2 : ([.regs, .tt, .flt, .icu, .out] : List Part) ⊆ U := List.Subset.trans (by decide) hT
  unfold mbDone
  repeat' first
    | with_reducible exact hC0
    | with_reducible refine Change.ite (fun _ => ?_) (fun _ => ?_)
    | with_reducible refine stopSettle_change k1 ?_
    | with_reducible refine mboxDone_change hT ?_
    | with_reducible refine faultEvent_change k2 ?_
    | with_reducible refine qResume_change hT ?_
    | with_reducible refine gdcNotice_change k2 ?_
    | with_reducible refine Change.foldl (fun _ _ _ => ?_) ?_
    | with_reducible assumption
    | split
    | dsimp only

theorem doGmbdone_change {U : List Part} {r0 : State} {c : Nat} {v : Word} {s : State} (hT : ([.regs, .tt, .checks, .flt, .icu, .hep, .wxl, .qen, .ctx, .qaux, .spl, .swc, .ports, .cores, .prl, .out] : List Part) ⊆ U) (hC0 : Change U r0 s) :
    Change U r0 (doGmbdone c v s) := by
  unfold doGmbdone
  repeat' first
    | with_reducible exact hC0
    | with_reducible refine Change.ite (fun _ => ?_) (fun _ => ?_)
    | with_reducible refine mbDone_change hT ?_
    | with_reducible refine csrAct_change hT (fun _ _ => ?_) ?_
    | with_reducible refine Change.foldl (fun _ _ _ => ?_) ?_
    | with_reducible assumption
    | split
    | dsimp only

theorem mbYield_change {U : List Part} {r0 : State} {c : Nat} {nj : Nat} {i : Nat} {s : State} (hT : ([.regs, .tt, .flt, .icu, .ctx, .qaux, .spl, .ports, .cores, .prl, .out] : List Part) ⊆ U) (hC0 : Change U r0 s) :
    Change U r0 (mbYield c nj i s) := by
  have k1 : ([.qaux] : List Part) ⊆ U := List.Subset.trans (by decide) hT
  have k2 : ([.ctx] : List Part) ⊆ U := List.Subset.trans (by decide) hT
  have k3 : ([.ports, .prl, .out] : List Part) ⊆ U := List.Subset.trans (by decide) hT
  have k4 : ([.cores] : List Part) ⊆ U := List.Subset.trans (by decide) hT
  have k5 : ([.regs, .ctx, .spl] : List Part) ⊆ U := List.Subset.trans (by decide) hT
  have k6 : ([.regs, .tt, .flt, .icu, .out] : List Part) ⊆ U := List.Subset.trans (by decide) hT
  unfold mbYield
  repeat' first
    | with_reducible exact hC0
    | with_reducible refine Change.ite (fun _ => ?_) (fun _ => ?_)
    | with_reducible refine State.setQa_change k1 ?_
    | with_reducible refine State.cput_change k2 ?_
    | with_reducible refine mirror_change k3 ?_
    | with_reducible refine State.setCore_change k4 ?_
    | with_reducible refine chargeOp_change k5 ?_
    | with_reducible refine gdcNotice_change k6 ?_
    | with_reducible refine Change.foldl (fun _ _ _ => ?_) ?_
    | with_reducible assumption
    | split
    | dsimp only

theorem doGyield_change {U : List Part} {r0 : State} {c : Nat} {v : Word} {s : State} (hT : ([.regs, .tt, .checks, .flt, .icu, .hep, .wxl, .qen, .ctx, .qaux, .spl, .swc, .ports, .cores, .prl, .out] : List Part) ⊆ U) (hC0 : Change U r0 s) :
    Change U r0 (doGyield c v s) := by
  have k1 : ([.regs, .tt, .flt, .icu, .ctx, .qaux, .spl, .ports, .cores, .prl, .out] : List Part) ⊆ U := List.Subset.trans (by decide) hT
  unfold doGyield
  repeat' first
    | with_reducible exact hC0
    | with_reducible refine Change.ite (fun _ => ?_) (fun _ => ?_)
    | with_reducible refine csrAct_change hT (fun _ _ => ?_) ?_
    | with_reducible refine mbYield_change k1 ?_
    | with_reducible refine Change.foldl (fun _ _ _ => ?_) ?_
    | with_reducible assumption
    | split
    | dsimp only

theorem coreDoorbell_change {U : List Part} {r0 : State} {c : Nat} {v : Word} {s : State} (hT : ([.regs, .tt, .checks, .flt, .icu, .hep, .wxl, .qen, .ctx, .qaux, .spl, .swc, .ports, .cores, .prl, .out] : List Part) ⊆ U) (hC0 : Change U r0 s) :
    Change U r0 (coreDoorbell c v s) := by
  have k1 : ([.regs, .tt, .flt, .icu, .out] : List Part) ⊆ U := List.Subset.trans (by decide) hT
  unfold coreDoorbell
  repeat' first
    | with_reducible exact hC0
    | with_reducible refine Change.ite (fun _ => ?_) (fun _ => ?_)
    | with_reducible refine dbDrop_change k1 ?_
    | with_reducible refine qArrive_change hT ?_
    | with_reducible refine Change.foldl (fun _ _ _ => ?_) ?_
    | with_reducible assumption
    | split
    | dsimp only

theorem doGdoorbell_change {U : List Part} {r0 : State} {c : Nat} {v : Word} {s : State} (hT : ([.regs, .tt, .checks, .flt, .icu, .hep, .wxl, .qen, .ctx, .qaux, .spl, .swc, .ports, .cores, .prl, .out] : List Part) ⊆ U) (hC0 : Change U r0 s) :
    Change U r0 (doGdoorbell c v s) := by
  unfold doGdoorbell
  repeat' first
    | with_reducible exact hC0
    | with_reducible refine Change.ite (fun _ => ?_) (fun _ => ?_)
    | with_reducible refine csrAct_change hT (fun _ _ => ?_) ?_
    | with_reducible refine coreDoorbell_change hT ?_
    | with_reducible refine Change.foldl (fun _ _ _ => ?_) ?_
    | with_reducible assumption
    | split
    | dsimp only

theorem mbStat_change {U : List Part} {r0 : State} {c : Nat} {s : State} (hT : ([.regs, .tt, .flt, .icu, .cores, .out] : List Part) ⊆ U) (hC0 : Change U r0 s) :
    Change U r0 (mbStat c s) := by
  have k1 : ([.regs, .tt, .flt, .icu, .out] : List Part) ⊆ U := List.Subset.trans (by decide) hT
  have k2 : ([.cores] : List Part) ⊆ U := List.Subset.trans (by decide) hT
  have k3 : ([.out] : List Part) ⊆ U := List.Subset.trans (by decide) hT
  unfold mbStat
  repeat' first
    | with_reducible exact hC0
    | with_reducible refine Change.ite (fun _ => ?_) (fun _ => ?_)
    | with_reducible refine mboxSync_change k1 ?_
    | with_reducible refine State.setCore_change k2 ?_
    | with_reducible refine State.emit_change k3 ?_
    | with_reducible refine Change.foldl (fun _ _ _ => ?_) ?_
    | with_reducible assumption
    | split
    | dsimp only

theorem doGmbstatRead_change {U : List Part} {r0 : State} {c : Nat} {s : State} (hT : ([.regs, .tt, .checks, .flt, .icu, .hep, .wxl, .qen, .ctx, .qaux, .spl, .swc, .ports, .cores, .prl, .out] : List Part) ⊆ U) (hC0 : Change U r0 s) :
    Change U r0 (doGmbstatRead c s) := by
  have k1 : ([.regs, .tt, .flt, .icu, .cores, .out] : List Part) ⊆ U := List.Subset.trans (by decide) hT
  unfold doGmbstatRead
  repeat' first
    | with_reducible exact hC0
    | with_reducible refine Change.ite (fun _ => ?_) (fun _ => ?_)
    | with_reducible refine mbStat_change k1 ?_
    | with_reducible refine csrAct_change hT (fun _ _ => ?_) ?_
    | with_reducible refine Change.foldl (fun _ _ _ => ?_) ?_
    | with_reducible assumption
    | split
    | dsimp only

theorem doMailboxPlace_change {U : List Part} {r0 : State} {q : Nat} {s : State} (hT : ([.regs, .tt, .checks, .flt, .icu, .hep, .wxl, .qen, .ctx, .qaux, .spl, .swc, .ports, .cores, .prl, .out] : List Part) ⊆ U) (hC0 : Change U r0 s) :
    Change U r0 (doMailboxPlace q s) := by
  have k1 : ([.regs, .tt, .flt, .icu, .out] : List Part) ⊆ U := List.Subset.trans (by decide) hT
  have k2 : ([.cores] : List Part) ⊆ U := List.Subset.trans (by decide) hT
  unfold doMailboxPlace
  repeat' first
    | with_reducible exact hC0
    | with_reducible refine Change.ite (fun _ => ?_) (fun _ => ?_)
    | with_reducible refine opDone_change hT ?_
    | with_reducible refine mboxSync_change k1 ?_
    | with_reducible refine State.setMbox_change k2 ?_
    | with_reducible refine State.setCore_change k2 ?_
    | with_reducible refine Change.foldl (fun _ _ _ => ?_) ?_
    | with_reducible assumption
    | split
    | dsimp only

theorem coreData_change {U : List Part} {r0 : State} {c : Nat} {l : List Byte} {s : State} (hT : ([.out] : List Part) ⊆ U) (hC0 : Change U r0 s) :
    Change U r0 (coreData c l s) := by
  unfold coreData
  repeat' first
    | with_reducible exact hC0
    | with_reducible refine Change.ite (fun _ => ?_) (fun _ => ?_)
    | with_reducible refine State.emit_change hT ?_
    | with_reducible refine Change.foldl (fun _ _ _ => ?_) ?_
    | with_reducible assumption
    | split
    | dsimp only

theorem tcmAccess_change {U : List Part} {r0 : State} {r : CoreReq} {s : State} (hT : ([.tcm, .out] : List Part) ⊆ U) (hC0 : Change U r0 s) :
    Change U r0 (tcmAccess r s) := by
  have k1 : ([.out] : List Part) ⊆ U := List.Subset.trans (by decide) hT
  have k2 : ([.tcm] : List Part) ⊆ U := List.Subset.trans (by decide) hT
  unfold tcmAccess
  repeat' first
    | with_reducible exact hC0
    | with_reducible refine Change.ite (fun _ => ?_) (fun _ => ?_)
    | with_reducible refine coreData_change k1 ?_
    | with_reducible refine tcmWrite_change k2 ?_
    | with_reducible refine Change.foldl (fun _ _ _ => ?_) ?_
    | with_reducible assumption
    | split
    | dsimp only

theorem mboxAccess_change {U : List Part} {r0 : State} {r : CoreReq} {s : State} (hT : ([.regs, .cores, .out] : List Part) ⊆ U) (hC0 : Change U r0 s) :
    Change U r0 (mboxAccess r s) := by
  have k1 : ([.out] : List Part) ⊆ U := List.Subset.trans (by decide) hT
  have k2 : ([.cores] : List Part) ⊆ U := List.Subset.trans (by decide) hT
  unfold mboxAccess
  repeat' first
    | with_reducible exact hC0
    | with_reducible refine Change.ite (fun _ => ?_) (fun _ => ?_)
    | with_reducible refine coreData_change k1 ?_
    | with_reducible refine State.setMbox_change k2 ?_
    | with_reducible refine coreFault_change hT ?_
    | with_reducible refine Change.foldl (fun _ _ _ => ?_) ?_
    | with_reducible assumption
    | split
    | dsimp only

theorem timeCmpAccess_change {U : List Part} {r0 : State} {r : CoreReq} {s : State} (hT : ([.cores, .out] : List Part) ⊆ U) (hC0 : Change U r0 s) :
    Change U r0 (timeCmpAccess r s) := by
  have k1 : ([.out] : List Part) ⊆ U := List.Subset.trans (by decide) hT
  have k2 : ([.cores] : List Part) ⊆ U := List.Subset.trans (by decide) hT
  unfold timeCmpAccess
  repeat' first
    | with_reducible exact hC0
    | with_reducible refine Change.ite (fun _ => ?_) (fun _ => ?_)
    | with_reducible refine coreData_change k1 ?_
    | with_reducible refine State.setCore_change k2 ?_
    | with_reducible refine Change.foldl (fun _ _ _ => ?_) ?_
    | with_reducible assumption
    | split
    | dsimp only

theorem gdcMemAccess_change {U : List Part} {r0 : State} {r : CoreReq} {s : State} (hT : ([.regs, .mem, .cores, .out] : List Part) ⊆ U) (hC0 : Change U r0 s) :
    Change U r0 (gdcMemAccess r s) := by
  have k1 : ([.out] : List Part) ⊆ U := List.Subset.trans (by decide) hT
  have k2 : ([.mem] : List Part) ⊆ U := List.Subset.trans (by decide) hT
  have k3 : ([.regs, .cores, .out] : List Part) ⊆ U := List.Subset.trans (by decide) hT
  unfold gdcMemAccess
  repeat' first
    | with_reducible exact hC0
    | with_reducible refine Change.ite (fun _ => ?_) (fun _ => ?_)
    | with_reducible refine coreData_change k1 ?_
    | with_reducible refine State.hbmWrite_change k2 ?_
    | with_reducible refine coreFault_change k3 ?_
    | with_reducible refine Change.foldl (fun _ _ _ => ?_) ?_
    | with_reducible assumption
    | split
    | dsimp only

theorem coreControl_change {U : List Part} {r0 : State} {r : CoreReq} {s : State} (hT : ([.regs, .tt, .pins, .dev, .img, .checks, .flt, .icu, .hep, .wxl, .qen, .ctx, .qaux, .spl, .swc, .ports, .hbm, .mem, .gdc, .cores, .tcm, .prl, .out] : List Part) ⊆ U) (hC0 : Change U r0 s) :
    Change U r0 (coreControl r s) := by
  have k1 : ([.regs, .icu, .out] : List Part) ⊆ U := List.Subset.trans (by decide) hT
  have k2 : ([.regs, .cores, .out] : List Part) ⊆ U := List.Subset.trans (by decide) hT
  have k3 : ([.out] : List Part) ⊆ U := List.Subset.trans (by decide) hT
  unfold coreControl
  repeat' first
    | with_reducible exact hC0
    | with_reducible refine Change.ite (fun _ => ?_) (fun _ => ?_)
    | with_reducible refine ctlRead_change k1 ?_
    | (refine Change.of_pair (by assumption) ?_; with_reducible refine ctlRead_change k1 ?_)
    | with_reducible refine ctlWriteBy_change hT ?_
    | with_reducible refine coreFault_change k2 ?_
    | with_reducible refine State.emit_change k3 ?_
    | with_reducible refine Change.foldl (fun _ _ _ => ?_) ?_
    | with_reducible refine Change.foldl_fst (fun _ _ _ => ?_) ?_
    | with_reducible refine Change.ite_fst (fun _ => ?_) (fun _ => ?_)
    | with_reducible assumption
    | split
    | dsimp only

theorem coreView_change {U : List Part} {r0 : State} {r : CoreReq} {s : State} (hT : ([.regs, .tt, .flt, .icu, .hep, .wxl, .qaux, .swc, .ports, .cores, .out] : List Part) ⊆ U) (hC0 : Change U r0 s) :
    Change U r0 (coreView r s) := by
  have k1 : ([.cores] : List Part) ⊆ U := List.Subset.trans (by decide) hT
  unfold coreView
  repeat' first
    | with_reducible exact hC0
    | with_reducible refine Change.ite (fun _ => ?_) (fun _ => ?_)
    | with_reducible refine wxlAccess_change hT ?_
    | with_reducible refine State.setCore_change k1 ?_
    | with_reducible refine Change.foldl (fun _ _ _ => ?_) ?_
    | with_reducible assumption
    | split
    | dsimp only

theorem coreMem_change {U : List Part} {r0 : State} {r : CoreReq} {s : State} (hT : ([.regs, .tt, .pins, .dev, .img, .checks, .flt, .icu, .hep, .wxl, .qen, .ctx, .qaux, .spl, .swc, .ports, .hbm, .mem, .gdc, .cores, .tcm, .prl, .out] : List Part) ⊆ U) (hC0 : Change U r0 s) :
    Change U r0 (coreMem r s) := by
  have k1 : ([.cores, .out] : List Part) ⊆ U := List.Subset.trans (by decide) hT
  have k2 : ([.regs, .mem, .cores, .out] : List Part) ⊆ U := List.Subset.trans (by decide) hT
  have k3 : ([.tcm, .out] : List Part) ⊆ U := List.Subset.trans (by decide) hT
  have k4 : ([.regs, .tt, .flt, .icu, .hep, .wxl, .qaux, .swc, .ports, .cores, .out] : List Part) ⊆ U := List.Subset.trans (by decide) hT
  have k5 : ([.regs, .cores, .out] : List Part) ⊆ U := List.Subset.trans (by decide) hT
  unfold coreMem
  repeat' first
    | with_reducible exact hC0
    | with_reducible refine Change.ite (fun _ => ?_) (fun _ => ?_)
    | with_reducible refine timeCmpAccess_change k1 ?_
    | with_reducible refine gdcMemAccess_change k2 ?_
    | with_reducible refine tcmAccess_change k3 ?_
    | with_reducible refine coreView_change k4 ?_
    | with_reducible refine coreControl_change hT ?_
    | with_reducible refine mboxAccess_change k5 ?_
    | with_reducible refine coreFault_change k5 ?_
    | with_reducible refine Change.foldl (fun _ _ _ => ?_) ?_
    | with_reducible assumption
    | split
    | dsimp only

theorem csrRead_change {U : List Part} {r0 : State} {c : Nat} {n : Nat} {s : State} (hT : ([.regs, .tt, .flt, .icu, .cores, .out] : List Part) ⊆ U) (hC0 : Change U r0 s) :
    Change U r0 (csrRead c n s) := by
  have k1 : ([.out] : List Part) ⊆ U := List.Subset.trans (by decide) hT
  have k2 : ([.regs, .icu, .out] : List Part) ⊆ U := List.Subset.trans (by decide) hT
  unfold csrRead
  repeat' first
    | with_reducible exact hC0
    | with_reducible refine Change.ite (fun _ => ?_) (fun _ => ?_)
    | with_reducible refine mbStat_change hT ?_
    | with_reducible refine State.emit_change k1 ?_
    | with_reducible refine gclaimRead_change k2 ?_
    | with_reducible refine Change.foldl (fun _ _ _ => ?_) ?_
    | with_reducible assumption
    | split
    | dsimp only

theorem csrWrite_change {U : List Part} {r0 : State} {c : Nat} {n : Nat} {v : Word} {s : State} (hT : ([.regs, .tt, .checks, .flt, .icu, .hep, .wxl, .qen, .ctx, .qaux, .spl, .swc, .ports, .cores, .prl, .out] : List Part) ⊆ U) (hC0 : Change U r0 s) :
    Change U r0 (csrWrite c n v s) := by
  have k1 : ([.cores] : List Part) ⊆ U := List.Subset.trans (by decide) hT
  have k2 : ([.regs, .tt, .flt, .icu, .out] : List Part) ⊆ U := List.Subset.trans (by decide) hT
  have k3 : ([.regs, .tt, .flt, .icu, .ctx, .qaux, .spl, .ports, .cores, .prl, .out] : List Part) ⊆ U := List.Subset.trans (by decide) hT
  have k4 : ([.regs, .tt, .flt, .icu, .cores, .out] : List Part) ⊆ U := List.Subset.trans (by decide) hT
  have k5 : ([.out] : List Part) ⊆ U := List.Subset.trans (by decide) hT
  unfold csrWrite
  repeat' first
    | with_reducible exact hC0
    | with_reducible refine Change.ite (fun _ => ?_) (fun _ => ?_)
    | with_reducible refine mbDone_change hT ?_
    | with_reducible refine fastCtl_change k1 ?_
    | with_reducible refine icuDone_change k2 ?_
    | with_reducible refine State.setCore_change k1 ?_
    | with_reducible refine mbYield_change k3 ?_
    | with_reducible refine mbHead_change k4 ?_
    | with_reducible refine coreDoorbell_change hT ?_
    | with_reducible refine State.emit_change k5 ?_
    | with_reducible refine Change.foldl (fun _ _ _ => ?_) ?_
    | with_reducible assumption
    | split
    | dsimp only

theorem doCoreMemoryAccess_change {U : List Part} {r0 : State} {r : CoreReq} {s : State} (hT : ([.regs, .tt, .pins, .dev, .img, .checks, .flt, .icu, .hep, .wxl, .qen, .ctx, .qaux, .spl, .swc, .ports, .hbm, .mem, .gdc, .cores, .tcm, .prl, .out] : List Part) ⊆ U) (hC0 : Change U r0 s) :
    Change U r0 (doCoreMemoryAccess r s) := by
  have k1 : ([.regs, .tt, .checks, .flt, .icu, .hep, .wxl, .qen, .ctx, .qaux, .spl, .swc, .ports, .cores, .prl, .out] : List Part) ⊆ U := List.Subset.trans (by decide) hT
  have k2 : ([.cores] : List Part) ⊆ U := List.Subset.trans (by decide) hT
  have k3 : ([.regs, .tt, .flt, .icu, .cores, .out] : List Part) ⊆ U := List.Subset.trans (by decide) hT
  have k4 : ([.out] : List Part) ⊆ U := List.Subset.trans (by decide) hT
  unfold doCoreMemoryAccess
  repeat' first
    | with_reducible exact hC0
    | with_reducible refine Change.ite (fun _ => ?_) (fun _ => ?_)
    | with_reducible refine coreMem_change hT ?_
    | with_reducible refine csrWrite_change k1 ?_
    | with_reducible refine State.setCore_change k2 ?_
    | with_reducible refine coreAct_change k1 (fun _ _ => ?_) ?_
    | with_reducible refine csrRead_change k3 ?_
    | with_reducible refine State.emit_change k4 ?_
    | with_reducible refine Change.foldl (fun _ _ _ => ?_) ?_
    | with_reducible assumption
    | split
    | dsimp only

theorem doEnvelopeViewAnswer_change {U : List Part} {r0 : State} {c : Nat} {s : State} (hT : ([.regs, .tt, .checks, .flt, .icu, .hep, .wxl, .qen, .ctx, .qaux, .spl, .swc, .ports, .cores, .prl, .out] : List Part) ⊆ U) (hC0 : Change U r0 s) :
    Change U r0 (doEnvelopeViewAnswer c s) := by
  have k1 : ([.regs, .cores, .out] : List Part) ⊆ U := List.Subset.trans (by decide) hT
  unfold doEnvelopeViewAnswer
  repeat' first
    | with_reducible exact hC0
    | with_reducible refine Change.ite (fun _ => ?_) (fun _ => ?_)
    | with_reducible refine coreAnswer_change k1 ?_
    | with_reducible refine coreAct_change hT (fun _ _ => ?_) ?_
    | with_reducible refine Change.foldl (fun _ _ _ => ?_) ?_
    | with_reducible assumption
    | split
    | dsimp only

theorem loadCtl_change {U : List Part} {r0 : State} {a : Agent} {op : Nat} {v : Word} {s : State} (hT : ([.regs, .tt, .pins, .dev, .img, .checks, .flt, .icu, .hep, .wxl, .qen, .ctx, .qaux, .spl, .swc, .ports, .hbm, .mem, .gdc, .cores, .tcm, .prl, .out] : List Part) ⊆ U) (hC0 : Change U r0 s) :
    Change U r0 (loadCtl a op v s) := by
  unfold loadCtl
  repeat' first
    | with_reducible exact hC0
    | with_reducible refine Change.ite (fun _ => ?_) (fun _ => ?_)
    | with_reducible refine ctlWriteBy_change hT ?_
    | with_reducible refine Change.foldl (fun _ _ _ => ?_) ?_
    | with_reducible assumption
    | split
    | dsimp only

theorem doLoadBegin_change {U : List Part} {r0 : State} {a : Agent} {v : Word} {s : State} (hT : ([.regs, .tt, .pins, .dev, .img, .checks, .flt, .icu, .hep, .wxl, .qen, .ctx, .qaux, .spl, .swc, .ports, .hbm, .mem, .gdc, .cores, .tcm, .prl, .out] : List Part) ⊆ U) (hC0 : Change U r0 s) :
    Change U r0 (doLoadBegin a v s) := by
  unfold doLoadBegin
  repeat' first
    | with_reducible exact hC0
    | with_reducible refine Change.ite (fun _ => ?_) (fun _ => ?_)
    | with_reducible refine loadCtl_change hT ?_
    | with_reducible refine Change.foldl (fun _ _ _ => ?_) ?_
    | with_reducible assumption
    | split
    | dsimp only

theorem doLoadData_change {U : List Part} {r0 : State} {a : Agent} {v : Word} {s : State} (hT : ([.regs, .tt, .pins, .dev, .img, .checks, .flt, .icu, .hep, .wxl, .qen, .ctx, .qaux, .spl, .swc, .ports, .hbm, .mem, .gdc, .cores, .tcm, .prl, .out] : List Part) ⊆ U) (hC0 : Change U r0 s) :
    Change U r0 (doLoadData a v s) := by
  unfold doLoadData
  repeat' first
    | with_reducible exact hC0
    | with_reducible refine Change.ite (fun _ => ?_) (fun _ => ?_)
    | with_reducible refine ctlWriteBy_change hT ?_
    | with_reducible refine Change.foldl (fun _ _ _ => ?_) ?_
    | with_reducible assumption
    | split
    | dsimp only

theorem doLoadEnd_change {U : List Part} {r0 : State} {a : Agent} {v : Word} {s : State} (hT : ([.regs, .tt, .pins, .dev, .img, .checks, .flt, .icu, .hep, .wxl, .qen, .ctx, .qaux, .spl, .swc, .ports, .hbm, .mem, .gdc, .cores, .tcm, .prl, .out] : List Part) ⊆ U) (hC0 : Change U r0 s) :
    Change U r0 (doLoadEnd a v s) := by
  unfold doLoadEnd
  repeat' first
    | with_reducible exact hC0
    | with_reducible refine Change.ite (fun _ => ?_) (fun _ => ?_)
    | with_reducible refine loadCtl_change hT ?_
    | with_reducible refine Change.foldl (fun _ _ _ => ?_) ?_
    | with_reducible assumption
    | split
    | dsimp only

theorem doLoadCancel_change {U : List Part} {r0 : State} {a : Agent} {v : Word} {s : State} (hT : ([.regs, .tt, .pins, .dev, .img, .checks, .flt, .icu, .hep, .wxl, .qen, .ctx, .qaux, .spl, .swc, .ports, .hbm, .mem, .gdc, .cores, .tcm, .prl, .out] : List Part) ⊆ U) (hC0 : Change U r0 s) :
    Change U r0 (doLoadCancel a v s) := by
  unfold doLoadCancel
  repeat' first
    | with_reducible exact hC0
    | with_reducible refine Change.ite (fun _ => ?_) (fun _ => ?_)
    | with_reducible refine loadCtl_change hT ?_
    | with_reducible refine Change.foldl (fun _ _ _ => ?_) ?_
    | with_reducible assumption
    | split
    | dsimp only

theorem doGdcEnable_change {U : List Part} {r0 : State} {a : Agent} {v : Word} {s : State} (hT : ([.regs, .tt, .pins, .dev, .img, .checks, .flt, .icu, .hep, .wxl, .qen, .ctx, .qaux, .spl, .swc, .ports, .hbm, .mem, .gdc, .cores, .tcm, .prl, .out] : List Part) ⊆ U) (hC0 : Change U r0 s) :
    Change U r0 (doGdcEnable a v s) := by
  unfold doGdcEnable
  repeat' first
    | with_reducible exact hC0
    | with_reducible refine Change.ite (fun _ => ?_) (fun _ => ?_)
    | with_reducible refine ctlWriteBy_change hT ?_
    | with_reducible refine Change.foldl (fun _ _ _ => ?_) ?_
    | with_reducible assumption
    | split
    | dsimp only

theorem doCoreEnable_change {U : List Part} {r0 : State} {a : Agent} {c : Nat} {v : Word} {s : State} (hT : ([.regs, .tt, .pins, .dev, .img, .checks, .flt, .icu, .hep, .wxl, .qen, .ctx, .qaux, .spl, .swc, .ports, .hbm, .mem, .gdc, .cores, .tcm, .prl, .out] : List Part) ⊆ U) (hC0 : Change U r0 s) :
    Change U r0 (doCoreEnable a c v s) := by
  unfold doCoreEnable
  repeat' first
    | with_reducible exact hC0
    | with_reducible refine Change.ite (fun _ => ?_) (fun _ => ?_)
    | with_reducible refine ctlWriteBy_change hT ?_
    | with_reducible refine Change.foldl (fun _ _ _ => ?_) ?_
    | with_reducible assumption
    | split
    | dsimp only

theorem doCoreQuiesce_change {U : List Part} {r0 : State} {a : Agent} {c : Nat} {v : Word} {s : State} (hT : ([.regs, .tt, .pins, .dev, .img, .checks, .flt, .icu, .hep, .wxl, .qen, .ctx, .qaux, .spl, .swc, .ports, .hbm, .mem, .gdc, .cores, .tcm, .prl, .out] : List Part) ⊆ U) (hC0 : Change U r0 s) :
    Change U r0 (doCoreQuiesce a c v s) := by
  unfold doCoreQuiesce
  repeat' first
    | with_reducible exact hC0
    | with_reducible refine Change.ite (fun _ => ?_) (fun _ => ?_)
    | with_reducible refine ctlWriteBy_change hT ?_
    | with_reducible refine Change.foldl (fun _ _ _ => ?_) ?_
    | with_reducible assumption
    | split
    | dsimp only

theorem doCoreQuiesceEnd_change {U : List Part} {r0 : State} {c : Nat} {s : State} (hT : ([.regs, .tt, .checks, .flt, .icu, .hep, .wxl, .qen, .ctx, .qaux, .spl, .swc, .ports, .cores, .prl, .out] : List Part) ⊆ U) (hC0 : Change U r0 s) :
    Change U r0 (doCoreQuiesceEnd c s) := by
  unfold doCoreQuiesceEnd
  repeat' first
    | with_reducible exact hC0
    | with_reducible refine Change.ite (fun _ => ?_) (fun _ => ?_)
    | with_reducible refine coreLeave_change hT ?_
    | with_reducible refine Change.foldl (fun _ _ _ => ?_) ?_
    | with_reducible assumption
    | split
    | dsimp only

end Sys2Proof.Machine
end

