-- ==== Sys2Proof/Laws/Pair.lean ====
section
/-! SUPPORT. What each operation of Machine/Pair.lean may change. -/
set_option linter.all false
set_option linter.unusedTactic false
set_option linter.unreachableTactic false

namespace Sys2Proof.Machine

open Sys2Proof

theorem withPair_change {U : List Part} {r0 : State} {k : State → State} {s : State} (hT : ([] : List Part) ⊆ U) (hk : ∀ x0, Change U r0 x0 → Change U r0 (k x0)) (hC0 : Change U r0 s) :
    Change U r0 (withPair k s) := by
  unfold withPair
  repeat' first
    | with_reducible exact hC0
    | with_reducible refine Change.ite (fun _ => ?_) (fun _ => ?_)
    | with_reducible refine hk _ ?_
    | with_reducible refine Change.foldl (fun _ _ _ => ?_) ?_
    | with_reducible assumption
    | split
    | dsimp only

theorem doPrlEnable_change {U : List Part} {r0 : State} {a : Agent} {v : Word} {s : State} (hT : ([.regs, .tt, .pins, .dev, .img, .checks, .flt, .icu, .hep, .wxl, .qen, .ctx, .qaux, .spl, .swc, .ports, .hbm, .mem, .gdc, .cores, .tcm, .prl, .out] : List Part) ⊆ U) (hC0 : Change U r0 s) :
    Change U r0 (doPrlEnable a v s) := by
  unfold doPrlEnable
  repeat' first
    | with_reducible exact hC0
    | with_reducible refine Change.ite (fun _ => ?_) (fun _ => ?_)
    | with_reducible refine ctlWriteBy_change hT ?_
    | with_reducible refine Change.foldl (fun _ _ _ => ?_) ?_
    | with_reducible assumption
    | split
    | dsimp only

theorem doPairEn_change {U : List Part} {r0 : State} {a : Agent} {v : Word} {s : State} (hT : ([.regs, .tt, .pins, .dev, .img, .checks, .flt, .icu, .hep, .wxl, .qen, .ctx, .qaux, .spl, .swc, .ports, .hbm, .mem, .gdc, .cores, .tcm, .prl, .out] : List Part) ⊆ U) (hC0 : Change U r0 s) :
    Change U r0 (doPairEn a v s) := by
  unfold doPairEn
  repeat' first
    | with_reducible exact hC0
    | with_reducible refine Change.ite (fun _ => ?_) (fun _ => ?_)
    | with_reducible refine ctlWriteBy_change hT ?_
    | with_reducible refine Change.foldl (fun _ _ _ => ?_) ?_
    | with_reducible assumption
    | split
    | dsimp only

theorem doHandover_change {U : List Part} {r0 : State} {a : Agent} {v : Word} {s : State} (hT : ([.regs, .tt, .pins, .dev, .img, .checks, .flt, .icu, .hep, .wxl, .qen, .ctx, .qaux, .spl, .swc, .ports, .hbm, .mem, .gdc, .cores, .tcm, .prl, .out] : List Part) ⊆ U) (hC0 : Change U r0 s) :
    Change U r0 (doHandover a v s) := by
  unfold doHandover
  repeat' first
    | with_reducible exact hC0
    | with_reducible refine Change.ite (fun _ => ?_) (fun _ => ?_)
    | with_reducible refine ctlWriteBy_change hT ?_
    | with_reducible refine Change.foldl (fun _ _ _ => ?_) ?_
    | with_reducible assumption
    | split
    | dsimp only

theorem doHandback_change {U : List Part} {r0 : State} {a : Agent} {v : Word} {s : State} (hT : ([.regs, .tt, .pins, .dev, .img, .checks, .flt, .icu, .hep, .wxl, .qen, .ctx, .qaux, .spl, .swc, .ports, .hbm, .mem, .gdc, .cores, .tcm, .prl, .out] : List Part) ⊆ U) (hC0 : Change U r0 s) :
    Change U r0 (doHandback a v s) := by
  unfold doHandback
  repeat' first
    | with_reducible exact hC0
    | with_reducible refine Change.ite (fun _ => ?_) (fun _ => ?_)
    | with_reducible refine ctlWriteBy_change hT ?_
    | with_reducible refine Change.foldl (fun _ _ _ => ?_) ?_
    | with_reducible assumption
    | split
    | dsimp only

theorem doHandoverGive_change {U : List Part} {r0 : State} {s : State} (hT : ([.regs, .tt, .dev, .flt, .icu, .wxl, .spl, .ports, .prl, .out] : List Part) ⊆ U) (hC0 : Change U r0 s) :
    Change U r0 (doHandoverGive s) := by
  have k1 : ([] : List Part) ⊆ U := List.Subset.trans (by decide) hT
  unfold doHandoverGive
  repeat' first
    | with_reducible exact hC0
    | with_reducible refine Change.ite (fun _ => ?_) (fun _ => ?_)
    | with_reducible refine withPair_change k1 (fun _ _ => ?_) ?_
    | with_reducible refine giveEnd_change hT ?_
    | with_reducible refine Change.foldl (fun _ _ _ => ?_) ?_
    | with_reducible assumption
    | split
    | dsimp only

theorem doPairControlPacket_change {U : List Part} {r0 : State} {m : PairMsg} {s : State} (hT : ([.regs, .tt, .checks, .flt, .icu, .hep, .wxl, .xt, .qen, .ctx, .qaux, .spl, .swc, .ports, .cores, .prl, .out] : List Part) ⊆ U) (hC0 : Change U r0 s) :
    Change U r0 (doPairControlPacket m s) := by
  have k1 : ([] : List Part) ⊆ U := List.Subset.trans (by decide) hT
  unfold doPairControlPacket
  repeat' first
    | with_reducible exact hC0
    | with_reducible refine Change.ite (fun _ => ?_) (fun _ => ?_)
    | with_reducible refine withPair_change k1 (fun _ _ => ?_) ?_
    | with_reducible refine pairMsg_change hT ?_
    | with_reducible refine Change.foldl (fun _ _ _ => ?_) ?_
    | with_reducible assumption
    | split
    | dsimp only

theorem doSyncComplete_change {U : List Part} {r0 : State} {s : State} (hT : ([.regs, .tt, .dev, .flt, .icu, .hep, .wxl, .ctx, .qaux, .spl, .swc, .ports, .cores, .prl, .out] : List Part) ⊆ U) (hC0 : Change U r0 s) :
    Change U r0 (doSyncComplete s) := by
  have k1 : ([] : List Part) ⊆ U := List.Subset.trans (by decide) hT
  unfold doSyncComplete
  repeat' first
    | with_reducible exact hC0
    | with_reducible refine Change.ite (fun _ => ?_) (fun _ => ?_)
    | with_reducible refine withPair_change k1 (fun _ _ => ?_) ?_
    | with_reducible refine syncAgreed_change hT ?_
    | with_reducible refine Change.foldl (fun _ _ _ => ?_) ?_
    | with_reducible assumption
    | split
    | dsimp only

theorem doSyncTimeout_change {U : List Part} {r0 : State} {s : State} (hT : ([.regs, .tt, .checks, .flt, .icu, .ports, .prl, .out] : List Part) ⊆ U) (hC0 : Change U r0 s) :
    Change U r0 (doSyncTimeout s) := by
  have k1 : ([] : List Part) ⊆ U := List.Subset.trans (by decide) hT
  unfold doSyncTimeout
  repeat' first
    | with_reducible exact hC0
    | with_reducible refine Change.ite (fun _ => ?_) (fun _ => ?_)
    | with_reducible refine withPair_change k1 (fun _ _ => ?_) ?_
    | with_reducible refine pairSyncFail_change hT ?_
    | with_reducible refine Change.foldl (fun _ _ _ => ?_) ?_
    | with_reducible assumption
    | split
    | dsimp only

theorem doHeartbeatEdge_change {U : List Part} {r0 : State} {level : Bool} {s : State} (hT : ([.regs, .tt, .pins, .flt, .icu, .prl, .out] : List Part) ⊆ U) (hC0 : Change U r0 s) :
    Change U r0 (doHeartbeatEdge level s) := by
  have k1 : ([] : List Part) ⊆ U := List.Subset.trans (by decide) hT
  unfold doHeartbeatEdge
  repeat' first
    | with_reducible exact hC0
    | with_reducible refine Change.ite (fun _ => ?_) (fun _ => ?_)
    | with_reducible refine hbEdge_change hT ?_
    | with_reducible refine withPair_change k1 (fun _ _ => ?_) ?_
    | with_reducible refine Change.foldl (fun _ _ _ => ?_) ?_
    | with_reducible assumption
    | split
    | dsimp only

theorem doHeartbeatSilence_change {U : List Part} {r0 : State} {s : State} (hT : ([.regs, .ports, .prl, .out] : List Part) ⊆ U) (hC0 : Change U r0 s) :
    Change U r0 (doHeartbeatSilence s) := by
  have k1 : ([] : List Part) ⊆ U := List.Subset.trans (by decide) hT
  unfold doHeartbeatSilence
  repeat' first
    | with_reducible exact hC0
    | with_reducible refine Change.ite (fun _ => ?_) (fun _ => ?_)
    | with_reducible refine withPair_change k1 (fun _ _ => ?_) ?_
    | with_reducible refine hbSilence_change hT ?_
    | with_reducible refine Change.foldl (fun _ _ _ => ?_) ?_
    | with_reducible assumption
    | split
    | dsimp only

theorem doPairProbeTimeout_change {U : List Part} {r0 : State} {s : State} (hT : ([.regs, .tt, .checks, .flt, .icu, .hep, .wxl, .qen, .ctx, .qaux, .spl, .swc, .ports, .cores, .prl, .out] : List Part) ⊆ U) (hC0 : Change U r0 s) :
    Change U r0 (doPairProbeTimeout s) := by
  have k1 : ([] : List Part) ⊆ U := List.Subset.trans (by decide) hT
  unfold doPairProbeTimeout
  repeat' first
    | with_reducible exact hC0
    | with_reducible refine Change.ite (fun _ => ?_) (fun _ => ?_)
    | with_reducible refine probeSilent_change hT ?_
    | with_reducible refine withPair_change k1 (fun _ _ => ?_) ?_
    | with_reducible refine Change.foldl (fun _ _ _ => ?_) ?_
    | with_reducible assumption
    | split
    | dsimp only

theorem doFailoverConfirmDelay_change {U : List Part} {r0 : State} {s : State} (hT : ([.regs, .tt, .checks, .flt, .icu, .hep, .wxl, .qen, .ctx, .qaux, .spl, .swc, .ports, .cores, .prl, .out] : List Part) ⊆ U) (hC0 : Change U r0 s) :
    Change U r0 (doFailoverConfirmDelay s) := by
  have k1 : ([] : List Part) ⊆ U := List.Subset.trans (by decide) hT
  unfold doFailoverConfirmDelay
  repeat' first
    | with_reducible exact hC0
    | with_reducible refine Change.ite (fun _ => ?_) (fun _ => ?_)
    | with_reducible refine withPair_change k1 (fun _ _ => ?_) ?_
    | with_reducible refine confirmDelay_change hT ?_
    | with_reducible refine Change.foldl (fun _ _ _ => ?_) ?_
    | with_reducible assumption
    | split
    | dsimp only

end Sys2Proof.Machine
end

