-- ==== Sys2Proof/Laws/Registers.lean ====
section
/-! SUPPORT. What each operation of Machine/Registers.lean may change. -/
set_option linter.all false
set_option linter.unusedTactic false
set_option linter.unreachableTactic false

namespace Sys2Proof.Machine

open Sys2Proof

theorem doRegisterWrite_change {U : List Part} {r0 : State} {a : Agent} {off : Nat} {v : Word} {width : Nat} {s : State} (hT : ([.regs, .tt, .pins, .dev, .img, .checks, .flt, .icu, .msix, .hep, .wxl, .qen, .ctx, .qaux, .spl, .swc, .ports, .hbm, .mem, .gdc, .cores, .tcm, .prl, .out] : List Part) ⊆ U) (hC0 : Change U r0 s) :
    Change U r0 (doRegisterWrite a off v width s) := by
  have k1 : ([.regs, .tt, .pins, .dev, .img, .checks, .flt, .icu, .hep, .wxl, .qen, .ctx, .qaux, .spl, .swc, .ports, .hbm, .mem, .gdc, .cores, .tcm, .prl, .out] : List Part) ⊆ U := List.Subset.trans (by decide) hT
  unfold doRegisterWrite
  repeat' first
    | with_reducible exact hC0
    | with_reducible refine Change.ite (fun _ => ?_) (fun _ => ?_)
    | with_reducible refine hostMem_change hT ?_
    | with_reducible refine ctlWriteBy_change k1 ?_
    | with_reducible refine Change.foldl (fun _ _ _ => ?_) ?_
    | with_reducible assumption
    | split
    | dsimp only

end Sys2Proof.Machine
end

