-- ==== Sys2Proof/WellFormed.lean ====
section
/-! DEFINITION. Which operands a command can have on this hardware: indices within the counts the spec gives (ports, queues,
envelopes, functions, cores, windows, sources), field values within their widths, and data as long as the length beside it
says. -/
namespace Sys2Proof

/-- A core below 8 (R337), a function's RID offset below 2048 (R78). -/
def Agent.wf : Agent → Bool
  | .pf0 => true
  | .core c => decide (c < 8)
  | .smbus => true
  | .img => true
  | .fn f => decide (f < 2048)

/-- 8 wake pins, 6 slots, 1024 interrupt sources (R39). -/
def WakeSrc.wf : WakeSrc → Bool
  | .perst => true
  | .ttWake k => decide (k < 8)
  | .prsnt n => decide (n < 6)
  | .attn n => decide (n < 6)
  | .icu s => decide (s < 1024)

/-- The header is 4 KiB (R54). -/
def FlashRead.wf : FlashRead → Bool
  | .sfdp _ => true
  | .header bytes => decide (bytes.length = 4096)
  | .early _ => true

/-- A dword of a function's 4 KiB of configuration space. -/
def CfgReq.wf (r : CfgReq) : Bool :=
  decide (r.fn < 2048) && decide (r.bus < 256) && decide (r.off < 4096) && r.off % 4 == 0 && decide (r.be < 16)
    && decide (r.data < 4294967296) && decide (r.tag < 16384)

/-- A request of at most 4096 bytes to BAR 0, 2 or 4; a write carries its bytes. -/
def HostReq.wf (r : HostReq) : Bool :=
  decide (r.fn < 2048) && [0, 2, 4].contains r.bar && decide (r.kind < 3) && decide (r.len ≤ 4096)
    && (r.kind != 1 || r.data.length == r.len) && decide (r.tag < 16384)

/-- Vectors of a function's table; up to 32 MSI messages. -/
def Unmask.wf : Unmask → Bool
  | .entry v => decide (v < 2048)
  | .function => true
  | .msixEnable => true
  | .msiEnable mme => decide (mme < 6)
  | .msiVector m => decide (m < 32)

/-- Field widths of a packet header (Table 12.3). -/
def Pkt.wf (k : Pkt) : Bool :=
  decide (k.op < 256) && decide (k.vc < 8) && decide (k.env < 1024) && decide (k.tag < 16384) && decide (k.len ≤ 256)
    && decide (k.status < 128) && decide (k.flags < 8)

/-- A core's access of at most 8 bytes; a store or an atomic carries its bytes. -/
def CoreReq.wf (r : CoreReq) : Bool :=
  decide (r.core < 8) && decide (r.kind < 6) && decide (r.len ≤ 8) && (!(r.kind == 1 || r.kind == 2) || r.data.length == r.len)

/-- A request within 16 GiB (R14); a write carries its bytes. -/
def HbmReq.wf (r : HbmReq) : Bool :=
  decide (r.off + r.len ≤ 17179869184) && (!r.write || r.data.length == r.len)

/-- Queues below 2^22, envelopes below 1024, a queue item of 16 or 22 words (R404). -/
def PairMsg.wf : PairMsg → Bool
  | .queueItem q words => decide (q < 4194304) && (words.length == 16 || words.length == 22)
  | .recordMark q => decide (q < 4194304)
  | .atomMark q => decide (q < 4194304)
  | .xlate _ => true
  | .ack => true
  | .safe => true
  | .handover envs => envs.all fun e => decide (e < 1024)
  | .probe => true
  | .probeAnswer => true
  | .checkAsk => true
  | .checkAnswer pairId _ _ mode home => decide (pairId < 2) && decide (mode < 4) && home.length == 16
  | .syncBegin => true
  | .syncItem q words => decide (q < 4194304) && (words.length == 16 || words.length == 22)
  | .syncDone own => own.length == 16

/-- A lane count of a host link. -/
def laneCount (w : Nat) : Bool := [1, 2, 4, 8, 16].contains w

/-- A width of a register access, in bits (R6). -/
def accWidth (w : Nat) : Bool := [8, 16, 32, 64].contains w

/-- Whether the operands of a command are ones that the hardware can meet. REQUEST_DEADLINE names a tag of Table 12.3, or from 4,096
on a place among the frames that wait for the port, of which there are at most as many as cells. -/
def Instr.wf : Instr → Bool
  | .tetherResetRelease => true
  | .vddTtLoss => true
  | .ttPgoodMainAssert => true
  | .mainPowerLoss => true
  | .mainPowerDownDone => true
  | .mainOffTimeExpiry => true
  | .wakeCause src => src.wf
  | .ttWakeDebounced k => decide (k < 8)
  | .perstNAssert => true
  | .perstNDeassert strap pairId => decide (strap < 4) && decide (pairId < 2)
  | .rootPllLock => true
  | .pllUnlock _ => true
  | .refclkLoss _ => true
  | .droopThresholdCrossing mv => decide (mv < 4096)
  | .droopCauseEnd _ => true
  | .stretchReturnIncrement => true
  | .lswRecognised => true
  | .lswNRelease => true
  | .lswHoldExpiry => true
  | .lswStuck => true
  | .rampGrant _ => true
  | .temperatureReading tj => decide (tj < 256)
  | .heartbeatToggle => true
  | .pwrEnable a _ => a.wf
  | .flashReadDone rd => rd.wf
  | .enterConfig => true
  | .lateSectionLoaded i _ => decide (i < 256)
  | .erase a _ => a.wf
  | .program a _ => a.wf
  | .verify a _ => a.wf
  | .flashOpDone _ _ _ => true
  | .flashOpTimeout => true
  | .status => true
  | .ctlRead off => decide (off < 67108864)
  | .ctlWrite off _ => decide (off < 67108864)
  | .restart src => decide (src < 3)
  | .keyProgram slot _ => decide (slot < 4)
  | .keyRevoke slot => decide (slot < 4)
  | .devEnable a _ => a.wf
  | .consistencyCheckEnd => true
  | .devQuiesce a _ => a.wf
  | .sleep a _ => a.wf
  | .forceSafe a _ => a.wf
  | .quiesceDrained => true
  | .configRequest r => r.wf
  | .vfEnableWrite pf _ => decide (pf < 8)
  | .initiateFlr fn => decide (fn < 2048)
  | .flrEnd fn => decide (fn < 2048)
  | .busMasterEnableClear fn => decide (fn < 2048)
  | .busMasterEnableSet fn => decide (fn < 2048)
  | .powerStateWrite fn _ _ => decide (fn < 2048)
  | .msixUnmask fn what => decide (fn < 2048) && what.wf
  | .pmeTurnOff => true
  | .hostMemoryRequest r => r.wf
  | .windowAccess r => r.wf
  | .doorbell fn _ => decide (fn < 2048)
  | .dlDown => true
  | .dlUp speed width _ => decide (speed < 8) && laneCount width
  | .hostLinkRecovery _ speed width => decide (speed < 8) && laneCount width
  | .hostLinkRetrain a _ => a.wf
  | .l1Request => true
  | .l0pNarrow => true
  | .l0pWiden => true
  | .tagIssue tag => decide (tag < 16384)
  | .hostCompletion fn tag _ _ _ => decide (fn < 2048) && decide (tag < 16384)
  | .completionTimeout fn tag => decide (fn < 2048) && decide (tag < 16384)
  | .quarantineExpiry fn tag => decide (fn < 2048) && decide (tag < 16384)
  | .getVersion _ => true
  | .getCapabilities _ => true
  | .negotiateAlgorithms _ => true
  | .getDigests _ => true
  | .getCertificate off len => decide (off < 65536) && decide (len < 65536)
  | .challenge _ => true
  | .getMeasurements index _ => decide (index < 256)
  | .doeDiscovery index => decide (index < 256)
  | .hepEnable a _ => a.wf
  | .wxlEnable a _ => a.wf
  | .inboundWindowEnable a w _ => a.wf && decide (w < 4096)
  | .outboundWindowEnable a m _ => a.wf && decide (m < 4096)
  | .envelopeRangeEnable a g _ => a.wf && decide (g < 8192)
  | .tableWalkDone i _ => decide (i < 268435456)
  | .tcInv a _ => a.wf
  | .tcInvDone => true
  | .writeBack a _ => a.wf
  | .writeBackInvalidate a _ => a.wf
  | .pcFlushDone => true
  | .sediscardClear a _ => a.wf
  | .pfCfgWrite a _ => a.wf
  | .prefetchLifeExpiry da => decide (da < 281474976710656)
  | .translationCompletion fn pasid _ _ _ _ _ => decide (fn < 2048) && decide (pasid < 1048577)
  | .invalidationRequest fn pasid _ _ itag => decide (fn < 2048) && decide (pasid < 1048577) && decide (itag < 32)
  | .invalidationCompletion fn itag => decide (fn < 2048) && decide (itag < 32)
  | .migratePassEnd q => decide (q < 4194304)
  | .migrateRelease q => decide (q < 4194304)
  | .xlateUpdateDone q => decide (q < 4194304)
  | .contextLoaded q _ => decide (q < 4194304)
  | .descriptorFetched q => decide (q < 4194304)
  | .operationStart q => decide (q < 4194304)
  | .completionRecordWrite q => decide (q < 4194304)
  | .cqModerationExpiry q => decide (q < 4194304)
  | .queueRead k q a => decide (k < 9) && decide (q < 4194304) && a.wf
  | .queueWrite k q a => decide (k < 9) && decide (q < 4194304) && a.wf
  | .queueEnable k q a => decide (k < 9) && decide (q < 4194304) && a.wf
  | .queueModify k q a => decide (k < 9) && decide (q < 4194304) && a.wf
  | .queueStop k q a => decide (k < 9) && decide (q < 4194304) && a.wf
  | .queueStart k q a => decide (k < 9) && decide (q < 4194304) && a.wf
  | .queueDrain k q a => decide (k < 9) && decide (q < 4194304) && a.wf
  | .queueDisable k q a => decide (k < 9) && decide (q < 4194304) && a.wf
  | .queuePrefetch k q a => decide (k < 9) && decide (q < 4194304) && a.wf
  | .qenEnable a _ => a.wf
  | .stepRelease path => decide (path < 2048)
  | .stepBoundary q => decide (q < 4194304)
  | .moverPipeError pipe => decide (pipe < 16)
  | .copy q => decide (q < 4194304)
  | .fill q => decide (q < 4194304)
  | .check q => decide (q < 4194304)
  | .copyCheck q => decide (q < 4194304)
  | .scrub q => decide (q < 4194304)
  | .migrate q => decide (q < 4194304)
  | .multicastWrite q => decide (q < 4194304)
  | .atomic q => decide (q < 4194304)
  | .fence q => decide (q < 4194304)
  | .fenceComplete q => decide (q < 4194304)
  | .notify q => decide (q < 4194304)
  | .xlateUpdate q => decide (q < 4194304)
  | .abort q => decide (q < 4194304)
  | .ctxPrefetch q => decide (q < 4194304)
  | .serviceCall q => decide (q < 4194304)
  | .nop q => decide (q < 4194304)
  | .creditTick => true
  | .reconciliationInterval _ _ => true
  | .calibrationWindowEnd => true
  | .envelopeDefine a e _ => a.wf && decide (e < 1024)
  | .envelopeUndefine a e _ => a.wf && decide (e < 1024)
  | .envCfgWrite a e _ => a.wf && decide (e < 1024)
  | .envQblkWrite a i _ => a.wf && decide (i < 1024)
  | .splEnable a _ => a.wf
  | .splStepWrite a _ => a.wf
  | .calFreeze a _ => a.wf
  | .calRestart a _ => a.wf
  | .frameAdmit i => decide (i < 11)
  | .evictionRetry => true
  | .outputGrant p => decide (p < 11)
  | .multicastGhlExpiry p => decide (p < 11)
  | .tailBatchWrite => true
  | .tailEn a _ => a.wf
  | .tailSelWrite a p _ => a.wf && decide (p < 11)
  | .swcEnable a _ => a.wf
  | .bankCellsReleased b => decide (b < 264)
  | .receiverDetection p lanes => decide (p < 7) && decide (lanes < 65536)
  | .gtsReceived p l => decide (p < 7) && decide (1 ≤ l.length) && decide (l.length ≤ 16) && l.all fun b => b.length == 16
  | .trainingPhaseComplete p _ => decide (p < 7)
  | .linkActiveEntry p => decide (p < 7)
  | .trainingLimitExpiry p => decide (p < 7)
  | .retrainLimitExpiry p => decide (p < 7)
  | .blockAlignmentLoss p lane => decide (p < 7) && decide (lane < 16)
  | .retrain a p _ => a.wf && decide (p < 7)
  | .resize a p _ => a.wf && decide (p < 7)
  | .restore a p _ => a.wf && decide (p < 7)
  | .resizeSwitch p _ => decide (p < 7)
  | .laneTestEnd p _ => decide (p < 7)
  | .portEnable a p _ => a.wf && decide (p < 7)
  | .holdDisable a p _ => a.wf && decide (p < 7)
  | .graceExpiry p => decide (p < 7)
  | .requestDeadline p tag => decide (p < 7) && decide (tag < 20480)
  | .portTagQuarantineExpiry p tag => decide (p < 7) && decide (tag < 4096)
  | .presenceChange p _ => decide (p < 6)
  | .attentionPress p => decide (p < 6)
  | .slotPowerFault p => decide (p < 6)
  | .pwrOnWrite a p _ => a.wf && decide (p < 6)
  | .pwrDone p => decide (p < 6)
  | .cancelWindowExpiry p => decide (p < 6)
  | .slotQuiesceEnd p => decide (p < 6)
  | .flitReceived p b => decide (p < 7) && b.length == 256
  | .nakRepeatTimeout p => decide (p < 7)
  | .replayTimeout p => decide (p < 7)
  | .probeTick p => decide (p < 7)
  | .probeSampleTimeout p => decide (p < 7)
  | .mrd p k => decide (p < 7) && k.wf
  | .mwr p k => decide (p < 7) && k.wf
  | .cpl p k => decide (p < 7) && k.wf
  | .cpld p k => decide (p < 7) && k.wf
  | .atom p k => decide (p < 7) && k.wf
  | .msgInt p k => decide (p < 7) && k.wf
  | .msgIntEffect p => decide (p < 7)
  | .msgSb p k => decide (p < 7) && k.wf
  | .err p k => decide (p < 7) && k.wf
  | .cfg p k => decide (p < 7) && k.wf
  | .epoch p k => decide (p < 7) && k.wf
  | .sleepReq p => decide (p < 7)
  | .sleepAck p => decide (p < 7)
  | .sleepNak p => decide (p < 7)
  | .sleepIdleExpiry p => decide (p < 7)
  | .sleepHandshakeTimeout p => decide (p < 7)
  | .sleepEntry p => decide (p < 7)
  | .sleepExit p => decide (p < 7)
  | .portRearm a p _ => a.wf && decide (p < 7)
  | .cfgCmd a p _ => a.wf && decide (p < 7)
  | .cfgAnswerTimeout p => decide (p < 7)
  | .sidebandOut a p _ => a.wf && decide (p < 7)
  | .icuEnable a _ => a.wf
  | .sourceEnable a n _ => a.wf && decide (n < 1024)
  | .sourceMask a n _ => a.wf && decide (n < 1024)
  | .icuSwi a _ => a.wf
  | .claim c a => decide (c < 8) && a.wf
  | .complete c a n => decide (c < 8) && a.wf && decide (n < 1024)
  | .hostClaim fn tag => decide (fn < 2048) && decide (tag < 16384)
  | .hostComplete fn _ => decide (fn < 2048)
  | .hostProxyEvent => true
  | .msixEntryReadDone fn vec _ => decide (fn < 2048) && decide (vec < 2048)
  | .fastEntry c => decide (c < 8)
  | .fastReturn c _ => decide (c < 8)
  | .gclaim c => decide (c < 8)
  | .gcomplete c n => decide (c < 8) && decide (n < 1024)
  | .gmbhead c n => decide (c < 8) && decide (n < 16)
  | .gmbdone c _ => decide (c < 8)
  | .gyield c _ => decide (c < 8)
  | .gdoorbell c _ => decide (c < 8)
  | .gmbstatRead c => decide (c < 8)
  | .mailboxPlace q => decide (q < 4194304)
  | .envelopeViewAnswer c => decide (c < 8)
  | .loadBegin a _ => a.wf
  | .loadData a _ => a.wf
  | .loadEnd a _ => a.wf
  | .loadCancel a _ => a.wf
  | .gdcEnable a _ => a.wf
  | .coreEnable a c _ => a.wf && decide (c < 8)
  | .coreQuiesce a c _ => a.wf && decide (c < 8)
  | .coreQuiesceEnd c => decide (c < 8)
  | .hbmTrainingEnd trained => decide (trained < 65536)
  | .hbmFillEnd => true
  | .hbmEnable a _ => a.wf
  | .hbmAccess r => r.wf
  | .refreshInterval => true
  | .hbmTempReading t => decide (t < 256)
  | .rowTestEnd pc bank row _ => decide (pc < 16) && decide (bank < 32) && decide (row < 32768)
  | .pcTestEnd pc _ => decide (pc < 16)
  | .patrolScrub off _ => decide (off < 17179869184)
  | .selfRefreshEntry => true
  | .selfRefreshExit => true
  | .selfRefreshPairExit first => decide (first < 16)
  | .faultWindowClose b id => decide (b < 19) && decide (id < 64)
  | .faultGraceExpiry b id => decide (b < 19) && decide (id < 64)
  | .faultQuietExpiry b id => decide (b < 19) && decide (id < 64)
  | .selfTestEnd b id _ => decide (b < 19) && decide (id < 64)
  | .acknowledge a b id => a.wf && decide (b < 19) && decide (id < 64)
  | .acknowledgeAll a b => a.wf && decide (b < 19)
  | .latchRearm a b => a.wf && decide (b < 19)
  | .selftestGo a b id => a.wf && decide (b < 19) && decide (id < 64)
  | .sourceConfigWrite a b id _ => a.wf && decide (b < 19) && decide (id < 64)
  | .graceWrite a b _ => a.wf && decide (b < 19)
  | .prlEnable a _ => a.wf
  | .pairEn a _ => a.wf
  | .handover a _ => a.wf
  | .handback a _ => a.wf
  | .handoverGive => true
  | .pairControlPacket m => m.wf
  | .syncComplete => true
  | .syncTimeout => true
  | .heartbeatEdge _ => true
  | .heartbeatSilence => true
  | .pairProbeTimeout => true
  | .failoverConfirmDelay => true
  | .registerWrite a _ _ width => a.wf && accWidth width
  | .coreMemoryAccess r => r.wf
  | .fastTrap c => decide (c < 8)
  | .trainingPhaseLimitExpiry p => decide (p < 7)
  | .dqRecalibrationEnd pc _ => decide (pc < 16)

end Sys2Proof
end

