-- ==== Sys2Proof/Tests/Slice0.lean ====
section
/-! SUPPORT. The model's own tests: ill-formed operands that WellFormed refuses, steps checked against values worked out by hand from the spec,
and for every statement of `Certificates/Slice0/Obligations.lean` that has hypotheses a theorem `wit_<statement>` with states and operands that meet them,
clause by clause and at the ends of the ranges. -/
namespace Sys2Proof.Tests
open Sys2Proof Sys2Proof.Machine

set_option Elab.async false

def okPkt : Pkt := { op := 1, vc := 0, env := 0, tag := 0, addr := 0, len := 0, status := 0, flags := 0, data := [] }
def okCfg : CfgReq := { fn := 0, bus := 0, write := false, off := 0, be := 15, data := 0, tag := 0 }
def okHost : HostReq := { fn := 0, bar := 0, off := 0, kind := 0, len := 8, data := [], tag := 0, poisoned := false, single := true }
def okCore : CoreReq := { core := 0, kind := 0, addr := 0, len := 8, data := [], machine := true }
def okHbm : HbmReq := { write := false, off := 0, len := 8, data := [], ecc := .ok }
def badPkt : Pkt := { okPkt with len := 257 }
def badCfg : CfgReq := { okCfg with off := 2 }
def badHost : HostReq := { okHost with bar := 1 }
def badCore : CoreReq := { okCore with core := 8 }
def badHbm : HbmReq := { okHbm with off := 17179869184 }

/-! ### Ill-formed operands are refused, one for each check -/

theorem test_wf_ok : okPkt.wf && okCfg.wf && okHost.wf && okCore.wf && okHbm.wf = true := by decide

theorem test_wf_operands : ([Agent.core 8, .fn 2048].all fun a => !a.wf) && ([WakeSrc.ttWake 8, .prsnt 6, .attn 6, .icu 1024].all fun w => !w.wf)
    && !(FlashRead.header []).wf && ([Unmask.entry 2048, .msiEnable 6, .msiVector 32].all fun u => !u.wf)
    && ([{ okCfg with fn := 2048 }, { okCfg with bus := 256 }, { okCfg with off := 4096 }, badCfg, { okCfg with be := 16 }, { okCfg with data := 4294967296 },
      { okCfg with tag := 16384 }].all fun r => !r.wf)
    && ([{ okHost with fn := 2048 }, badHost, { okHost with kind := 3 }, { okHost with len := 4097 }, { okHost with kind := 1 },
      { okHost with tag := 16384 }].all fun r => !r.wf)
    && ([{ okPkt with op := 256 }, { okPkt with vc := 8 }, { okPkt with env := 1024 }, { okPkt with tag := 16384 }, badPkt, { okPkt with status := 128 },
      { okPkt with flags := 8 }].all fun k => !k.wf)
    && ([badCore, { okCore with kind := 6 }, { okCore with len := 9 }, { okCore with kind := 1 }].all fun r => !r.wf)
    && ([badHbm, { okHbm with write := true }].all fun r => !r.wf)
    && ([PairMsg.queueItem 4194304 (List.replicate 16 0), .queueItem 0 [], .recordMark 4194304, .atomMark 4194304, .handover [1024],
      .checkAnswer 2 0 0 0 (List.replicate 16 0), .checkAnswer 0 0 0 4 (List.replicate 16 0), .checkAnswer 0 0 0 0 [], .syncItem 4194304 (List.replicate 16 0),
      .syncItem 0 [], .syncDone []].all fun m => !m.wf) = true := by decide

theorem test_wf_commands1 : ([.wakeCause (.ttWake 8), .ttWakeDebounced 8, .perstNDeassert 4 0, .perstNDeassert 0 2, .droopThresholdCrossing 4096, .temperatureReading 256,
    .pwrEnable (.core 8) 0, .flashReadDone (.header []), .lateSectionLoaded 256 [], .erase (.core 8) 0, .program (.core 8) 0, .verify (.core 8) 0,
    .ctlRead 67108864, .ctlWrite 67108864 0, .restart 3, .keyProgram 4 0, .keyRevoke 4, .devEnable (.core 8) 0,
    .devQuiesce (.core 8) 0, .sleep (.core 8) 0, .forceSafe (.core 8) 0, .configRequest badCfg, .vfEnableWrite 8 true, .initiateFlr 2048,
    .flrEnd 2048, .busMasterEnableClear 2048, .busMasterEnableSet 2048, .powerStateWrite 2048 true true, .msixUnmask 2048 .function, .msixUnmask 0 (.entry 2048),
    .hostMemoryRequest badHost, .windowAccess badHost, .doorbell 2048 0, .dlUp 8 16 true, .dlUp 0 3 true, .hostLinkRecovery true 8 16,
    .hostLinkRecovery true 0 3, .hostLinkRetrain (.core 8) 0, .tagIssue 16384, .hostCompletion 2048 0 0 [] .ok, .hostCompletion 0 16384 0 [] .ok, .completionTimeout 2048 0,
    .completionTimeout 0 16384, .quarantineExpiry 2048 0, .quarantineExpiry 0 16384, .getCertificate 65536 0, .getCertificate 0 65536, .getMeasurements 256 [],
    .doeDiscovery 256, .hepEnable (.core 8) 0, .wxlEnable (.core 8) 0, .inboundWindowEnable (.core 8) 0 0, .inboundWindowEnable .pf0 4096 0, .outboundWindowEnable (.core 8) 0 0,
    .outboundWindowEnable .pf0 4096 0, .envelopeRangeEnable (.core 8) 0 0, .envelopeRangeEnable .pf0 8192 0, .tableWalkDone 268435456 .ok, .tcInv (.core 8) 0, .writeBack (.core 8) 0,
    .writeBackInvalidate (.core 8) 0, .sediscardClear (.core 8) 0, .pfCfgWrite (.core 8) 0, .prefetchLifeExpiry 281474976710656].all fun i => !Instr.wf i) = true := by decide

theorem test_wf_commands2 : ([.translationCompletion 2048 0 0 0 true true true, .translationCompletion 0 1048577 0 0 true true true, .invalidationRequest 2048 0 0 0 0, .invalidationRequest 0 1048577 0 0 0, .invalidationRequest 0 0 0 0 32, .invalidationCompletion 2048 0,
    .invalidationCompletion 0 32, .migratePassEnd 4194304, .migrateRelease 4194304, .xlateUpdateDone 4194304, .contextLoaded 4194304 .ok, .descriptorFetched 4194304,
    .operationStart 4194304, .completionRecordWrite 4194304, .cqModerationExpiry 4194304, .queueRead 9 0 .pf0, .queueRead 0 4194304 .pf0, .queueRead 0 0 (.core 8),
    .queueWrite 9 0 .pf0, .queueWrite 0 4194304 .pf0, .queueWrite 0 0 (.core 8), .queueEnable 9 0 .pf0, .queueEnable 0 4194304 .pf0, .queueEnable 0 0 (.core 8),
    .queueModify 9 0 .pf0, .queueModify 0 4194304 .pf0, .queueModify 0 0 (.core 8), .queueStop 9 0 .pf0, .queueStop 0 4194304 .pf0, .queueStop 0 0 (.core 8),
    .queueStart 9 0 .pf0, .queueStart 0 4194304 .pf0, .queueStart 0 0 (.core 8), .queueDrain 9 0 .pf0, .queueDrain 0 4194304 .pf0, .queueDrain 0 0 (.core 8),
    .queueDisable 9 0 .pf0, .queueDisable 0 4194304 .pf0, .queueDisable 0 0 (.core 8), .queuePrefetch 9 0 .pf0, .queuePrefetch 0 4194304 .pf0, .queuePrefetch 0 0 (.core 8),
    .qenEnable (.core 8) 0, .stepRelease 2048, .stepBoundary 4194304, .moverPipeError 16, .copy 4194304, .fill 4194304,
    .check 4194304, .copyCheck 4194304, .scrub 4194304, .migrate 4194304, .multicastWrite 4194304, .atomic 4194304,
    .fence 4194304, .fenceComplete 4194304, .notify 4194304, .xlateUpdate 4194304, .abort 4194304, .ctxPrefetch 4194304,
    .serviceCall 4194304, .nop 4194304, .envelopeDefine (.core 8) 0 0, .envelopeDefine .pf0 1024 0].all fun i => !Instr.wf i) = true := by decide

theorem test_wf_commands3 : ([.envelopeUndefine (.core 8) 0 0, .envelopeUndefine .pf0 1024 0, .envCfgWrite (.core 8) 0 0, .envCfgWrite .pf0 1024 0, .envQblkWrite (.core 8) 0 0, .envQblkWrite .pf0 1024 0,
    .splEnable (.core 8) 0, .splStepWrite (.core 8) 0, .calFreeze (.core 8) 0, .calRestart (.core 8) 0, .frameAdmit 11, .outputGrant 11,
    .multicastGhlExpiry 11, .tailEn (.core 8) 0, .tailSelWrite (.core 8) 0 0, .tailSelWrite .pf0 11 0, .swcEnable (.core 8) 0, .bankCellsReleased 264,
    .receiverDetection 7 0, .receiverDetection 0 65536, .gtsReceived 7 [], .trainingPhaseComplete 7 0, .linkActiveEntry 7, .trainingLimitExpiry 7,
    .retrainLimitExpiry 7, .blockAlignmentLoss 7 0, .blockAlignmentLoss 0 16, .retrain (.core 8) 0 0, .retrain .pf0 7 0, .resize (.core 8) 0 0,
    .resize .pf0 7 0, .restore (.core 8) 0 0, .restore .pf0 7 0, .resizeSwitch 7 true, .laneTestEnd 7 true, .portEnable (.core 8) 0 0,
    .portEnable .pf0 7 0, .holdDisable (.core 8) 0 0, .holdDisable .pf0 7 0, .graceExpiry 7, .requestDeadline 7 0, .requestDeadline 0 20480,
    .portTagQuarantineExpiry 7 0, .portTagQuarantineExpiry 0 4096, .presenceChange 6 true, .attentionPress 6, .slotPowerFault 6, .pwrOnWrite (.core 8) 0 0,
    .pwrOnWrite .pf0 6 0, .pwrDone 6, .cancelWindowExpiry 6, .slotQuiesceEnd 6, .flitReceived 7 [], .nakRepeatTimeout 7,
    .replayTimeout 7, .probeTick 7, .probeSampleTimeout 7, .mrd 7 okPkt, .mrd 0 badPkt, .mwr 7 okPkt,
    .mwr 0 badPkt, .cpl 7 okPkt, .cpl 0 badPkt, .cpld 7 okPkt].all fun i => !Instr.wf i) = true := by decide

theorem test_wf_commands4 : ([.cpld 0 badPkt, .atom 7 okPkt, .atom 0 badPkt, .msgInt 7 okPkt, .msgInt 0 badPkt, .msgIntEffect 7,
    .msgSb 7 okPkt, .msgSb 0 badPkt, .err 7 okPkt, .err 0 badPkt, .cfg 7 okPkt, .cfg 0 badPkt,
    .epoch 7 okPkt, .epoch 0 badPkt, .sleepReq 7, .sleepAck 7, .sleepNak 7, .sleepIdleExpiry 7,
    .sleepHandshakeTimeout 7, .sleepEntry 7, .sleepExit 7, .portRearm (.core 8) 0 0, .portRearm .pf0 7 0, .cfgCmd (.core 8) 0 0,
    .cfgCmd .pf0 7 0, .cfgAnswerTimeout 7, .sidebandOut (.core 8) 0 0, .sidebandOut .pf0 7 0, .icuEnable (.core 8) 0, .sourceEnable (.core 8) 0 0,
    .sourceEnable .pf0 1024 0, .sourceMask (.core 8) 0 0, .sourceMask .pf0 1024 0, .icuSwi (.core 8) 0, .claim 8 .pf0, .claim 0 (.core 8),
    .complete 8 .pf0 0, .complete 0 (.core 8) 0, .complete 0 .pf0 1024, .hostClaim 2048 0, .hostClaim 0 16384, .hostComplete 2048 0,
    .msixEntryReadDone 2048 0 .ok, .msixEntryReadDone 0 2048 .ok, .fastEntry 8, .fastReturn 8 0, .gclaim 8, .gcomplete 8 0,
    .gcomplete 0 1024, .gmbhead 8 0, .gmbhead 0 16, .gmbdone 8 0, .gyield 8 0, .gdoorbell 8 0,
    .gmbstatRead 8, .mailboxPlace 4194304, .envelopeViewAnswer 8, .loadBegin (.core 8) 0, .loadData (.core 8) 0, .loadEnd (.core 8) 0,
    .loadCancel (.core 8) 0, .gdcEnable (.core 8) 0, .coreEnable (.core 8) 0 0, .coreEnable .pf0 8 0].all fun i => !Instr.wf i) = true := by decide

theorem test_wf_commands5 : ([.coreQuiesce (.core 8) 0 0, .coreQuiesce .pf0 8 0, .coreQuiesceEnd 8, .hbmTrainingEnd 65536, .hbmEnable (.core 8) 0, .hbmAccess badHbm,
    .hbmTempReading 256, .rowTestEnd 16 0 0 true, .rowTestEnd 0 32 0 true, .rowTestEnd 0 0 32768 true, .pcTestEnd 16 true, .patrolScrub 17179869184 .ok,
    .selfRefreshPairExit 16, .faultWindowClose 19 0, .faultWindowClose 0 64, .faultGraceExpiry 19 0, .faultGraceExpiry 0 64, .faultQuietExpiry 19 0,
    .faultQuietExpiry 0 64, .selfTestEnd 19 0 true, .selfTestEnd 0 64 true, .acknowledge (.core 8) 0 0, .acknowledge .pf0 19 0, .acknowledge .pf0 0 64,
    .acknowledgeAll (.core 8) 0, .acknowledgeAll .pf0 19, .latchRearm (.core 8) 0, .latchRearm .pf0 19, .selftestGo (.core 8) 0 0, .selftestGo .pf0 19 0,
    .selftestGo .pf0 0 64, .sourceConfigWrite (.core 8) 0 0 0, .sourceConfigWrite .pf0 19 0 0, .sourceConfigWrite .pf0 0 64 0, .graceWrite (.core 8) 0 0, .graceWrite .pf0 19 0,
    .prlEnable (.core 8) 0, .pairEn (.core 8) 0, .handover (.core 8) 0, .handback (.core 8) 0, .pairControlPacket (.recordMark 4194304), .registerWrite (.core 8) 0 0 16,
    .registerWrite .pf0 0 0 3, .coreMemoryAccess badCore, .fastTrap 8, .trainingPhaseLimitExpiry 7, .dqRecalibrationEnd 16 true, .gtsReceived 0 [],
    .gtsReceived 0 [[]], .flitReceived 0 [], .flitReceived 7 (List.replicate 256 0), .gtsReceived 7 [List.replicate 16 0]].all fun i => !Instr.wf i) = true := by decide


def stu : State := { State.reset with pins := { perstN := true }, dev := { mode := .run, up := true, stage1 := true }, img := { cfg := 3 } }
def regAt (s : State) (off : Nat) : RegDef := (s.regDef off).getD { base := 0, dims := [], fields := [], reset := 0 }
def takesB (s : State) (a : Agent) (b : Blk) (off : Nat) (v : Word) : Bool :=
  s.mayControl a && (blockAt off == some b) && s.reaches a b && s.hasBlk b && decide (off < 0x1600000) && decide (off % 8 = 0)
    && (s.regDef off).isSome && !s.ctlRefused s.dev.mode off v
theorem takes_of {s : State} {a : Agent} {b : Blk} {off : Nat} {v : Word} (h : takesB s a b off v = true) :
    s.Takes a b off (regAt s off) v := by
  simp only [takesB, Bool.and_eq_true, beq_iff_eq, decide_eq_true_eq, Bool.not_eq_true', Option.isSome_iff_exists] at h
  obtain ⟨⟨⟨⟨⟨⟨⟨h1, h2⟩, h3⟩, h4⟩, h5⟩, h6⟩, ⟨r, h7⟩⟩, h8⟩ := h
  exact ⟨h1, h2, h3, h4, h5, h6, by simp [regAt, h7], h8⟩
/-- SQ 0 and its CQ 1, cached, of envelope 0, which this bridge serves. -/
def stq2 : State := ((({ stu with qen := { stu.qen with cache := [(0, 0), (1, 0)] } }.cput 0 C.CQ 1).cput 1 C.KIND 1).cput 1 C.STATE 1).setReg (R.PRL_OWN 0) 1
    |> fun s => s.put F.QEN_CTL_ENABLE 1
/-- The path between QEN and HBM enabled, with a request at input 1. -/
def fr : Frame := { typ := .read, cls := 2, inp := 1, out := 2 }
def stsw : State := { (stu.put F.QEN_CTL_ENABLE 1).put F.HBM_CTL_ENABLE 1 with swc := { stu.swc with inject := [fr] } }
/-- The shared buffer full: a write to output 1 and two small reads to output 3, with which `fr` waits at input 1. -/
def stfull : State := (({ stsw with swc := { stsw.swc with queued := [{ typ := .write, cls := 7, inp := 2, out := 1, len := 256 * 19965 },
  { typ := .read, cls := 7, inp := 1, out := 3 }, { typ := .read, cls := 7, inp := 1, out := 3 }] } }).put (F.SWC_PORT_CFG_MIN_CELLS 2) 0).put
  (F.SWC_PORT_CFG_ALPHA 2) 6
/-- A full calibration window of two kinds of intervals, measured and charged energy each; calibration in state `st`. -/
def calOf (a b : Nat × Nat) (st : Nat) : State :=
  { stu with spl := { stu.spl with samples := List.replicate 500 a ++ List.replicate 500 b } }.put F.SPL_CAL_STATE_STATE st
theorem pair4 {α β γ δ : Type} (x : α × β × γ × δ) : x = (x.1, x.2.1, x.2.2.1, x.2.2.2) := rfl
theorem reset_canonical : State.reset.Canonical := by constructor <;> rfl
/-- A flit with header `h` and no packets. -/
def mkFl (h : Nat) : List Byte := flitBytes h 0 0 (List.replicate 224 0)
/-- 256 bytes of 0, whose CRC fails. -/
def zeroFlit : List Byte := List.replicate 256 0

/-! ### Single steps, against values worked out by hand from the spec -/

/-- The state that a command answers; the state before it where it stops. -/
def after (c : Instr) (s : State) : State :=
  match exec c s with
  | .next t => t
  | _ => s

/-- R3: byte 0 holds bits 7 to 0. -/
theorem test_little_endian : toBytes 4 0x01020304 = [4, 3, 2, 1] ∧ ofBytes [4, 3, 2, 1] = 0x01020304 := by decide +kernel

/-- R5: an empty queue is one tick; R31: none before the main domain is out of reset. -/
theorem test_idle : (step stu) = .next { stu with dev := { stu.dev with time := 1 } } ∧ step State.reset = .next State.reset := ⟨rfl, rfl⟩

/-- The command in front runs with the rest of the queue. -/
theorem test_step_front :
    step { stu with pending := [.heartbeatToggle, .creditTick] } = exec .heartbeatToggle { stu with pending := [.creditTick] } := rfl

/-- Table 2.5: PAIR_HB_OUT toggles in RUN of the PAIR configuration. -/
theorem test_heartbeat : (after .heartbeatToggle stu).pins.hbOut = true := by decide +kernel

/-- R46: 700 mV lies below TH1 (725 mV) and TH2 (705 mV), so 3/4; 710 mV below TH1 only, so 7/8. -/
theorem test_droop : (after (.droopThresholdCrossing 700) stu).get F.PWR_STRETCH_STS_RATIO = 2
    ∧ (after (.droopThresholdCrossing 710) stu).get F.PWR_STRETCH_STS_RATIO = 1 := by decide +kernel

/-- R47: one increment of 1/64, still returning. -/
theorem test_stretch_return :
    (after .stretchReturnIncrement { stu with pwr := { stu.pwr with ratio := 56 } }).pwr.ratio = 57 := by decide +kernel

/-- R201, R202: SHARE 500 of 3,000 mW is 1,500 nJ a tick; BW_CAP 64 is 6,400 B a tick. -/
theorem test_credit_tick :
    let s := ((((((stu.put F.SPL_BUDGET_MW 3000).put F.SPL_CTL_ENABLE 1).put (F.ENV_CFG_DEFINE 1) 1).put (F.ENV_CFG_SHARE 1) 500).put (F.ENV_CFG_BURST_256 1) 100).put
      (F.ENV_CFG_BW_CAP 1) 64)
    (after .creditTick s).sget (F.ENV_CREDIT_CREDIT 1) = 1500 ∧ (after .creditTick s).sget (F.ENV_CREDIT_BW_TOK 1) = 6400 := by decide +kernel

/-- R201: CREDIT holds at 100 × 256 nJ. -/
theorem test_credit_limit :
    let s := ((((((stu.put F.SPL_BUDGET_MW 3000).put F.SPL_CTL_ENABLE 1).put (F.ENV_CFG_DEFINE 1) 1).put (F.ENV_CFG_SHARE 1) 500).put (F.ENV_CFG_BURST_256 1) 100).sput
      (F.ENV_CREDIT_CREDIT 1) 25000)
    (after .creditTick s).sget (F.ENV_CREDIT_CREDIT 1) = 25600 := by decide +kernel

/-- R55: the last programmed, unrevoked slot is not revoked. -/
theorem test_key_revoke_last :
    let s := { stu.put F.IMG_STS_RECOVERY 1 with pins := { stu.pins with strapBoot := 3 } }
    (after (.keyRevoke 0) s).out = [.smbusNack] ∧ (after (.keyRevoke 0) s).tt.keys = s.tt.keys := by decide +kernel

/-- R6: a 32-bit write has no effect on its register. -/
theorem test_narrow_write : (after (.registerWrite .pf0 R.SPL_STEP 1 32) stu).reg R.SPL_STEP = stu.reg R.SPL_STEP := by decide +kernel

/-- R320: a FAST source comes before a lower NORMAL one, and its COUNT is taken. -/
theorem test_claim_fast :
    let s := (({ stu with icu := { stu.icu with offer := [(3, 1), (9, 1)] } }.put (F.ICU_SRC_STS_OFFERED 3) 1).put (F.ICU_SRC_STS_OFFERED 9) 1).put
      (F.ICU_SRC_CFG_FAST 9) 1
    ((icuClaim 0 (fun _ => true) (s.put (F.ICU_SRC_STS_COUNT 9) 5)).2 = some (9, 5, false))
      ∧ ((icuClaim 0 (fun _ => true) s).1.get (F.ICU_SRC_STS_CLAIMED 9) = 1) := by decide +kernel

/-- R320: nothing offered is source 0x7FF, counted. -/
theorem test_claim_nothing : ((ctlRead .pf0 (R.ICU_CLAIM 0) 64 stu).2.map fun v => fieldOf v 0 11) = some 0x7FF
    ∧ (after (.claim 0 .pf0) stu).get F.ICU_STS_SPURIOUS = 1 := by decide +kernel

/-- A flit with TYPE `typ`, SEQ `seq` and the slots `sl`, padded with empty ones. -/
def mkFlit (typ seq : Nat) (sl : List Byte) : List Byte :=
  flitBytes (seq + typ * 2 ^ 24) 0 0 (sl ++ List.replicate (224 - sl.length) 0)

/-- R276: E advances from 4,095 to 0; a flit among the 2,048 values before E changes nothing. -/
theorem test_flit_sequence :
    let s := (stu.put (F.LPn_LINK_STS_STATE 0) 3).modPort 0 fun x => { x with rxSeq := 4095 }
    ((after (.flitReceived 0 (mkFlit 1 4095 [])) s).port 0).rxSeq = 0
      ∧ ((after (.flitReceived 0 (mkFlit 1 4094 [])) s).port 0).rxSeq = 4095 := by decide +kernel

/-- R276: a flit that fails its CRC is answered by one NAK. -/
theorem test_flit_nak :
    let s := stu.put (F.LPn_LINK_STS_STATE 0) 3
    let b := (mkFlit 1 0 []).set 100 1
    (after (.flitReceived 0 b) s).out.length = 1 ∧ (after (.flitReceived 0 b) (after (.flitReceived 0 b) s)).out.length = 1 := by decide +kernel

/-- Table 11.1: the check value of CRC-16 with polynomial 0x1021 and initial value 0xFFFF over "123456789" is 0x29B1. -/
theorem test_gts_crc : gtsCrc [0x31, 0x32, 0x33, 0x34, 0x35, 0x36, 0x37, 0x38, 0x39] = 0x29B1 := by decide +kernel

/-- R274: a MWR of 256 B takes 17 slots, 14 in a DATA flit and 3 in the DATA_CONT after it; Table 12.4 gives its header. -/
theorem test_packet_across_flits :
    let s := stu.put (F.LPn_LINK_STS_STATE 0) 3
    let sl : List Byte := [0x02, 0x20, 0x10, 0x00, 0x34, 0x12, 0x05, 0x00, 0x00, 0x10, 0x00, 0x00, 0x00, 0x00, 0x00, 0x01] ++ List.replicate 256 7
    let k : Pkt :=
      { op := 2, vc := 0, env := 5, tag := 0x1234, addr := 0x0100000000001000, len := 16, status := 0, flags := 4, data := List.replicate 256 7 }
    ((after (.flitReceived 0 (mkFlit 2 1 (sl.drop 224))) (after (.flitReceived 0 (mkFlit 1 0 (sl.take 224))) s)).port 0).rx = [k] := by decide +kernel

/-- R295: the same header with a RSV bit set is malformed. -/
theorem test_packet_rsv :
    (pktRead [0x01, 0x60, 0, 0, 9, 0, 5, 0, 0, 0x20, 0, 0, 0, 0, 0x40, 0] []).bad = true
      ∧ (pktRead [0x01, 0x20, 0, 0, 9, 0, 5, 0, 0, 0x20, 0, 0, 0, 0, 0x40, 0] []).bad = false := by decide +kernel

/-- R245: of lanes 0 to 3 and 8 to 15 the widest aligned group is lanes 8 to 15. -/
theorem test_lane_group : (stu.put (F.LPn_LANE_STS_DETECTED 0) 0xFF0F).groupOf 0 16 = some (8, 8) := by decide +kernel

/-- R361, R3: bytes written to HBM are read back in order; the byte after them is still 0. -/
theorem test_hbm_write :
    let s := after (.hbmAccess { write := true, off := 62, len := 3, data := [1, 2, 3], ecc := .ok }) (stu.put F.HBM_STS_SET_N 1)
    s.hbmRead 61 5 = [0, 1, 2, 3, 0] := by decide +kernel

/-- R346: HEAD moves to 2, and the two entries passed are taken. -/
theorem test_mailbox_head :
    let s := (((stu.put (F.GDC_CORE_STS_STATE 0) 1).setMbox 0 0 { st := 1 }).setMbox 0 1 { st := 1 }).setMbox 0 2 { st := 1 }
    ((after (.gmbhead 0 2) s).coreOf 0).head = 2 ∧ (List.range 3).map (fun k => ((after (.gmbhead 0 2) s).mbox 0 k).st) = [2, 2, 1] := by
  decide +kernel

/-- R14, Table 1.3: 16 GiB of HBM, 64 MiB of control space, nothing at 0x9. -/
theorem test_da : daValid (7 * 2 ^ 44 + 0x3FFFFFFFF) 1 = true ∧ daValid (7 * 2 ^ 44 + 0x3FFFFFFFF) 2 = false
    ∧ daValid (8 * 2 ^ 44 + 0x3FFFFF8) 8 = true ∧ daValid (9 * 2 ^ 44) 1 = false := by decide +kernel


/-! ### The hypotheses of the statements are met -/

theorem wit_StepRunsFront :
  ∃ (s : State) (c : Instr) (rest : List Instr), s.pending = c :: rest :=
  ⟨{ stu with pending := [.heartbeatToggle] }, .heartbeatToggle, [], rfl⟩

theorem wit_StepIdles :
  ∃ (s : State), (s.pending = []) :=
  ⟨(stu
    |> fun s => ({ s with pending := [] })), by decide +kernel⟩

theorem wit_StepKeepsCanonical :
  ∃ (s t : State), s.Canonical ∧ step s = .next t :=
  ⟨State.reset, State.reset, reset_canonical, rfl⟩

theorem wit_EveryCommandFrame :
  ∃ (c : Instr) (s t : State), exec c s = .next t :=
  ⟨.heartbeatToggle, stu, _, rfl⟩

theorem wit_ConfigurationFixed :
  ∃ (c : Instr) (s t : State), exec c s = .next t ∧ s.dev.mode ∉ [Mode.off, .tether, .boot] :=
  ⟨.heartbeatToggle, stu, _, rfl, by decide⟩

theorem wit_SafeLeavesOnlyByReset :
  ∃ (c : Instr) (s t : State), exec c s = .next t ∧ s.dev.mode = .safe :=
  ⟨.heartbeatToggle, { stu with dev := { stu.dev with mode := .safe } }, _, rfl, rfl⟩

theorem wit_OnlyHbmAccessStops :
  (∃ (c : Instr), ∀ r, c ≠ .hbmAccess r)
  ∧ (∃ (s : State) (r : HbmReq), exec (.hbmAccess r) s = .fault .hbmOutOfRange) :=
  ⟨⟨.heartbeatToggle, fun r h => by cases h⟩,
   ⟨stu, { write := false, off := 0, len := 1, data := [], ecc := .ok }, by simp only [exec, execHbmAccess]; rw [if_pos (by decide +kernel)]⟩⟩

theorem wit_MemoryFrame :
  ∃ (s t : State) (r : HbmReq) (n a : Nat), exec (.hbmAccess r) s = .next t ∧ n = (match s.hbmPick r.write r.off with | some f => if f.typ = .write ∨ f.typ = .tailBatch then f.data.length else if f.typ = .atomic then 8 else 0 | none => if r.write then r.data.length else 0) ∧ (a < r.off ∨ r.off + n ≤ a) :=
  ⟨stu.put F.HBM_STS_SET_N 1, _, { write := true, off := 64, len := 0, data := [1, 2], ecc := .ok }, 2, 66, by simp only [exec, execHbmAccess]; rw [if_neg (by decide +kernel)], by decide +kernel, Or.inr (by decide)⟩

theorem wit_HbmBytes :
  ∃ (k j : Nat), j < k :=
  ⟨8, 7, by decide⟩

theorem wit_ControlWriteCommands_1 :
  (∃ (w : _), (w < 4096))
  ∧ (∃ (w : _), (w < 4096))
  ∧ (∃ (w : _), (w < 8192))
  ∧ (∃ (c : _), (c < 8))
  ∧ (∃ (c : _), (c < 8))
  ∧ (∃ (p : _), (p < 7))
  ∧ (∃ (p : _), (p < 7))
  ∧ (∃ (e : _), (e < 1024)) :=
  ⟨⟨(4095), by decide +kernel⟩,
   ⟨(4095), by decide +kernel⟩,
   ⟨(8191), by decide +kernel⟩,
   ⟨(7), by decide +kernel⟩,
   ⟨(7), by decide +kernel⟩,
   ⟨(6), by decide +kernel⟩,
   ⟨(6), by decide +kernel⟩,
   ⟨(1023), by decide +kernel⟩⟩

theorem wit_ControlWriteCommands_2 :
  (∃ (e : _), (e < 1024))
  ∧ (∃ (e : _), (e < 1024))
  ∧ (∃ (e : _), (e < 1024))
  ∧ (∃ (p : _), (p < 11))
  ∧ (∃ (p : _), (p < 7))
  ∧ (∃ (p : _), (p < 7))
  ∧ (∃ (p : _), (p < 7))
  ∧ (∃ (p : _), (p < 6)) :=
  ⟨⟨(1023), by decide +kernel⟩,
   ⟨(1023), by decide +kernel⟩,
   ⟨(1023), by decide +kernel⟩,
   ⟨(10), by decide +kernel⟩,
   ⟨(6), by decide +kernel⟩,
   ⟨(6), by decide +kernel⟩,
   ⟨(6), by decide +kernel⟩,
   ⟨(5), by decide +kernel⟩⟩

theorem wit_ControlWriteCommands_3 :
  (∃ (p : _), (p < 6))
  ∧ (∃ (p : _), (p < 6))
  ∧ (∃ (p : _), (p < 6))
  ∧ (∃ (k : _) (q : _), (k < 9) ∧ (q < 2 ^ 22)) :=
  ⟨⟨(5), by decide +kernel⟩,
   ⟨(5), by decide +kernel⟩,
   ⟨(5), by decide +kernel⟩,
   ⟨(8), (0), by decide +kernel, by decide +kernel⟩⟩

theorem wit_ReservedEncodingIgnored :
  ∃ (s : State) (a : Agent) (b : Blk) (off : Nat) (r : RegDef) (v : Word), s.mayControl a = true ∧ blockAt off = some b ∧ s.reaches a b = true ∧ s.hasBlk b = true ∧ off < 0x1600000 ∧ off % 8 = 0 ∧ s.regDef off = some r ∧ r.writable = true ∧ r.reserved v = true ∧ (off - b.base < 0xF000 ∨ 0x10000 ≤ off - b.base) ∧ (off < 0xF00000 ∨ 0x1100000 ≤ off) :=
  ⟨stu, .pf0, .swc, 0x600110, regAt stu 0x600110, 0x0007000000000000, by decide +kernel⟩

theorem wit_BandwidthTokens :
  (∃ s : State, s.dev.up = true ∧ s.is F.SPL_CTL_ENABLE = true) ∧ (∃ (s : State) (e : Nat), s.envDefined e = true) ∧ ∃ (s : State) (q : Nat), isData (s.opc q) = true ∧ s.sget (F.ENV_CREDIT_BW_TOK (s.cget q C.ENV)) ≤ 0 :=
  ⟨⟨stu.put F.SPL_CTL_ENABLE 1, by decide +kernel⟩, ⟨stu.put (F.ENV_CFG_DEFINE 1023) 1, 1023, by decide +kernel⟩, ⟨stu.setCtxW 0 8 1, 0, by decide +kernel⟩⟩

theorem wit_NoReleaseInQuiesceOrSafe :
  (∃ s : State, s.dev.mode = .quiesce ∧ s.dev.up = true ∧ s.is F.SPL_CTL_ENABLE = true) ∧ ∃ s : State, s.dev.mode = .config :=
  ⟨⟨{ stu with dev := { stu.dev with mode := .quiesce } }.put F.SPL_CTL_ENABLE 1, by decide +kernel⟩, ⟨{ stu with dev := { stu.dev with mode := .config } }, rfl⟩⟩

theorem wit_FlitAcceptance :
  (∃ (s : State) (p : _) (b : List Byte) (f : FlitIn) (u : State), (p < 6) ∧ (f = State.flitIn s p b) ∧ (f.seq < 4096) ∧ ((s.port p).rxSeq < 4096) ∧ (s.flits p = true) ∧ (f.crcOk = true) ∧ (ackNote p f s = some u) ∧ (1 ≤ f.typ) ∧ (f.typ ≤ 3))
  ∧ (∃ (s : State) (p : _) (b : List Byte) (f : FlitIn), (p < 6) ∧ (f = State.flitIn s p b) ∧ (f.seq < 4096) ∧ ((s.port p).rxSeq < 4096) ∧ (s.flits p = true) ∧ (f.crcOk = false))
  ∧ (∃ (s : State) (p : _) (b : List Byte) (f : FlitIn), (p < 6) ∧ (f = State.flitIn s p b) ∧ (f.seq < 4096) ∧ ((s.port p).rxSeq < 4096) ∧ (s.flits p = true) ∧ (f.typ ≠ 3) ∧ (f.seq = (s.port p).rxSeq) ∧ (s.overfull p (s.flitPkts p f) = false) ∧ ((s.port p).framing = false) ∧ (f.framing = false) ∧ (f.pkts.all pktQueued = true))
  ∧ (∃ (s : State) (p : _) (b : List Byte) (f : FlitIn) (d : _), (p < 6) ∧ (f = State.flitIn s p b) ∧ (f.seq < 4096) ∧ ((s.port p).rxSeq < 4096) ∧ (s.flits p = true) ∧ (1 ≤ d) ∧ (d ≤ 2048) ∧ (f.seq = ((s.port p).rxSeq + 4096 - d) % 4096))
  ∧ (∃ (s : State) (p : _) (b : List Byte) (f : FlitIn) (d : _), (p < 6) ∧ (f = State.flitIn s p b) ∧ (f.seq < 4096) ∧ ((s.port p).rxSeq < 4096) ∧ (s.flits p = true) ∧ (1 ≤ d) ∧ (d ≤ 2047) ∧ (f.seq = ((s.port p).rxSeq + d) % 4096))
  ∧ (∃ (s : State) (p : _) (b : List Byte) (f : FlitIn), (p < 6) ∧ (f = State.flitIn s p b) ∧ (f.seq < 4096) ∧ ((s.port p).rxSeq < 4096) ∧ (s.flits p = true) ∧ ((s.port p).discarding = false))
  ∧ (∃ (s : State) (p : _) (b : List Byte) (f : FlitIn), (p < 6) ∧ (f = State.flitIn s p b) ∧ (f.seq < 4096) ∧ ((s.port p).rxSeq < 4096) ∧ (s.flits p = true) ∧ ((s.port p).discarding = true)) :=
  ⟨⟨(stu
    |> fun s => (s.put (F.LPn_LINK_STS_STATE 5) 3)), (5), (mkFl (2 ^ 24)), (State.flitIn (stu
    |> fun s => (s.put (F.LPn_LINK_STS_STATE 5) 3)) 5 (mkFl (2 ^ 24))), ((stu.put (F.LPn_LINK_STS_STATE 5) 3)), by decide +kernel, rfl, by decide +kernel, by decide +kernel, by decide +kernel, by decide +kernel, by decide +kernel, by decide +kernel, by decide +kernel⟩,
   ⟨(stu
    |> fun s => (s.put (F.LPn_LINK_STS_STATE 5) 3)), (5), (zeroFlit), (State.flitIn (stu
    |> fun s => (s.put (F.LPn_LINK_STS_STATE 5) 3)) 5 zeroFlit), by decide +kernel, by with_reducible rfl, by decide +kernel, by decide +kernel, by decide +kernel, by decide +kernel⟩,
   ⟨(stu
    |> fun s => (s.put (F.LPn_LINK_STS_STATE 5) 3)
    |> fun s => (s.modPort 5 fun x => { x with framing := false })), (5), (mkFl (2 ^ 24)), (State.flitIn (stu
    |> fun s => (s.put (F.LPn_LINK_STS_STATE 5) 3)
    |> fun s => (s.modPort 5 fun x => { x with framing := false })) 5 (mkFl (2 ^ 24))), by decide +kernel, rfl, by decide +kernel, by decide +kernel, by decide +kernel, by decide +kernel, by decide +kernel, by decide +kernel, by decide +kernel, by decide +kernel, by decide +kernel⟩,
   ⟨(stu
    |> fun s => (s.put (F.LPn_LINK_STS_STATE 5) 3)), (5), (mkFl (2 ^ 24 + 2048)), (State.flitIn (stu
    |> fun s => (s.put (F.LPn_LINK_STS_STATE 5) 3)) 5 (mkFl (2 ^ 24 + 2048))), (2048), by decide +kernel, rfl, by decide +kernel, by decide +kernel, by decide +kernel, by decide +kernel, by decide +kernel, by decide +kernel⟩,
   ⟨(stu
    |> fun s => (s.put (F.LPn_LINK_STS_STATE 5) 3)), (5), (mkFl (2 ^ 24 + 2047)), (State.flitIn (stu
    |> fun s => (s.put (F.LPn_LINK_STS_STATE 5) 3)) 5 (mkFl (2 ^ 24 + 2047))), (2047), by decide +kernel, rfl, by decide +kernel, by decide +kernel, by decide +kernel, by decide +kernel, by decide +kernel, by decide +kernel⟩,
   ⟨(stu
    |> fun s => (s.put (F.LPn_LINK_STS_STATE 5) 3)
    |> fun s => (s.modPort 5 fun x => { x with discarding := false })), (5), (mkFl (2 ^ 24)), (State.flitIn (stu
    |> fun s => (s.put (F.LPn_LINK_STS_STATE 5) 3)
    |> fun s => (s.modPort 5 fun x => { x with discarding := false })) 5 (mkFl (2 ^ 24))), by decide +kernel, rfl, by decide +kernel, by decide +kernel, by decide +kernel, by decide +kernel⟩,
   ⟨(stu
    |> fun s => (s.put (F.LPn_LINK_STS_STATE 5) 3)
    |> fun s => (s.modPort 5 fun x => { x with discarding := true })), (5), (mkFl (2 ^ 24)), (State.flitIn (stu
    |> fun s => (s.put (F.LPn_LINK_STS_STATE 5) 3)
    |> fun s => (s.modPort 5 fun x => { x with discarding := true })) 5 (mkFl (2 ^ 24))), by decide +kernel, rfl, by decide +kernel, by decide +kernel, by decide +kernel, by decide +kernel⟩⟩

theorem wit_SourcePending :
  (∃ (s : State) (n : Nat), s.get (F.ICU_SRC_CFG_LEVEL n) = 0) ∧ ∃ n, n < 1024 ∧ n ≠ Blk.icu.bit :=
  ⟨⟨stu, 1023, by decide +kernel⟩, ⟨1023, by decide⟩⟩

theorem wit_MailboxTaken :
  (∃ (s : State) (c h n k : Nat), c < 8 ∧ h < 16 ∧ n = (h + 16 - (s.coreOf c).head) % 16 ∧ n ≠ 0 ∧ (s.coreOf c).head < 16 ∧ k < 16 ∧ n ≤ k + 1 ∧ (s.mbox c (((s.coreOf c).head + k) % 16)).st = 1 ∧ s.coreOnline c = true ∧ (s.coreOf c).fastActive = false ∧ (s.coreOf c).machine = true) ∧ (∃ (s : State) (c h n : Nat), c < 8 ∧ h < 16 ∧ n = (h + 16 - (s.coreOf c).head) % 16 ∧ n ≠ 0 ∧ (s.coreOf c).head < 16 ∧ (List.range 16).all (fun k => decide ((s.mbox c (((s.coreOf c).head + k) % 16)).st = 1 → k + 1 < n)) = true) ∧ ∃ (s : State) (q c k : Nat), s.ctlWaits 0x0E q = true ∧ s.callEntry q = none ∧ s.callCheck q = none ∧ c = s.df q 0 8 3 ∧ (((List.range 16).map fun j => ((s.coreOf c).tail + j) % 16).find? fun j => (s.mbox c j).st == 0) = some k :=
  ⟨⟨(stu.put (F.GDC_CORE_STS_STATE 7) 1).setMbox 7 0 { st := 1 }, 7, 1, 1, 0, by decide +kernel⟩, ⟨stu, 7, 15, 15, by decide +kernel⟩, ⟨((((stu.setCtxW 0 8 0x70E).cput 0 C.OP_ACTIVE 1).cput 0 C.STATE 1).setQa 0 { phase := .ctl }).put (F.GDC_CORE_STS_STATE 7) 1, 0, 7, 0, by decide +kernel⟩⟩

theorem wit_WireFormat :
  (∃ (p vcs w h c par : Nat) (part slots : List Byte) (f : FlitIn), slots.length = 224 ∧ f = flitRead p vcs w part (flitBytes h c par slots))
  ∧ (∃ (k j : Pkt) (payload : List Byte), k.op < 256 ∧ k.vc < 8 ∧ k.flags < 8 ∧ k.len < 512 ∧ k.status < 128 ∧ k.tag < 16384 ∧ k.env < 1024 ∧ k.addr < 2 ^ 64 ∧ j = pktRead (packetHeader k) payload)
  ∧ (∃ (g : Gts) (n : Nat), 1 ≤ n ∧ n ≤ 16 ∧ g.kind = 2 ∧ g.lane = 0 ∧ g.width ≤ 4 ∧ g.txp ≤ 10 ∧ (g.reqp ≤ 10 ∨ g.reqp = 15) ∧ g.testLane < 16 ∧ g.index = 0 ∧ g.linkId < 65536 ∧ g.epoch < 2 ^ 32 ∧ 1 ≤ g.vcs ∧ g.vcs ≤ 7 ∧ g.roles < 2 ^ (g.vcs + 1) ∧ g.rxbuf = 0 ∧ g.probe = 0 ∧ g.echo = 0 ∧ g.ok = true) :=
  ⟨⟨6, 8, 16, 2 ^ 64 - 1, 2 ^ 64 - 1, 0, [], List.replicate 224 0xFF, _, List.length_replicate, rfl⟩,
   ⟨{ op := 255, vc := 7, env := 1023, tag := 16383, addr := 2 ^ 64 - 1, len := 511, status := 127, flags := 7, data := [] }, _, [], by decide, by decide, by decide, by decide, by decide, by decide, by decide, by decide, rfl⟩,
   ⟨{ kind := 2, lane := 0, width := 4, eq := true, test := true, txp := 10, reqp := 15, testLane := 15, index := 0, linkId := 65535, epoch := 2 ^ 32 - 1, vcs := 7, roles := 255, rxbuf := 0, probe := 0, echo := 0, ok := true }, 16, by decide, by decide, by decide, by decide, by decide, by decide, by decide, by decide, by decide, by decide, by decide, by decide, by decide, by decide, by decide, by decide, by decide, by decide⟩⟩

theorem wit_RecoveryHold :
  ∃ (s : State), (s.dev.mode = .boot) ∧ (s.dev.prev < 16) ∧ (s.dev.cause < 256) ∧ (s.is F.IMG_STS_RECOVERY = true) :=
  ⟨(stu
    |> fun s => ({ s with dev := { s.dev with mode := .boot } })
    |> fun s => (s.put F.IMG_STS_RECOVERY 1)), by decide +kernel, by decide +kernel, by decide +kernel, by decide +kernel⟩

theorem wit_DaFields :
  (∃ (t : _) (o : _), (t < 16) ∧ (o < 2 ^ 44))
  ∧ (∃ (t : _) (o : _) (n : _), (t < 16) ∧ (o < 2 ^ 44) ∧ (1 ≤ n))
  ∧ (∃ (p : _), (p < 7)) :=
  ⟨⟨(15), (0), by decide +kernel, by decide +kernel⟩,
   ⟨(15), (0), (1), by decide +kernel, by decide +kernel, by decide +kernel⟩,
   ⟨(6), by decide +kernel⟩⟩

theorem wit_TetherResults_1 :
  (∃ (s : State), (s.dev.mode = .off))
  ∧ (∃ (s : State), (s.is F.TTH_STS_MAIN_ON = true) ∧ (s.is F.TTH_STS_PGOOD = false))
  ∧ (∃ (s : State), (s.is F.TTH_STS_MAIN_ON = true) ∧ (s.is F.TTH_STS_PGOOD = true))
  ∧ (∃ (s : State), (s.tt.downReq = true))
  ∧ (∃ (s : State), (s.tt.offTime = true))
  ∧ (∃ (s : State) (n : _), (n < 6) ∧ (s.dev.mode ≠ .off) ∧ (s.is F.TTH_STS_MAIN_ON = false) ∧ (s.tt.downReq = false) ∧ (s.tt.offTime = false) ∧ (bitOf (s.get F.TTH_WAKE_EN_PRSNT) n = true))
  ∧ (∃ (s : State) (k : _), (k < 8) ∧ (s.dev.mode ≠ .off) ∧ (s.is F.TTH_STS_MAIN_ON = false) ∧ (s.tt.downReq = true) ∧ (s.tt.wake = none) ∧ (bitOf (s.get F.TTH_WAKE_EN_TT_WAKE) k = true))
  ∧ (∃ (s : State), (s.pins.perstN = true) ∧ (s.dev.up = true) ∧ (s.tt.downReq = false) ∧ (s.dev.mode ≠ .quiesce)) :=
  ⟨⟨(stu
    |> fun s => ({ s with dev := { s.dev with mode := .off } })), by decide +kernel⟩,
   ⟨(stu
    |> fun s => (s.put F.TTH_STS_MAIN_ON 1)
    |> fun s => (s.put F.TTH_STS_PGOOD 0)), by decide +kernel, by decide +kernel⟩,
   ⟨(stu
    |> fun s => (s.put F.TTH_STS_MAIN_ON 1)
    |> fun s => (s.put F.TTH_STS_PGOOD 1)), by decide +kernel, by decide +kernel⟩,
   ⟨(stu
    |> fun s => ({ s with tt := { s.tt with downReq := true } })), by decide +kernel⟩,
   ⟨(stu
    |> fun s => ({ s with tt := { s.tt with offTime := true } })), by decide +kernel⟩,
   ⟨(stu
    |> fun s => (s.put F.TTH_STS_MAIN_ON 0)
    |> fun s => ({ s with tt := { s.tt with downReq := false } })
    |> fun s => ({ s with tt := { s.tt with offTime := false } })
    |> fun s => (s.put F.TTH_WAKE_EN_PRSNT (2 ^ 5))), (5), by decide +kernel, by decide +kernel, by decide +kernel, by decide +kernel, by decide +kernel, by decide +kernel⟩,
   ⟨(stu
    |> fun s => (s.put F.TTH_STS_MAIN_ON 0)
    |> fun s => ({ s with tt := { s.tt with downReq := true } })
    |> fun s => ({ s with tt := { s.tt with wake := none } })
    |> fun s => (s.put F.TTH_WAKE_EN_TT_WAKE (2 ^ 7))), (7), by decide +kernel, by decide +kernel, by decide +kernel, by decide +kernel, by decide +kernel, by decide +kernel⟩,
   ⟨(stu
    |> fun s => ({ s with pins := { s.pins with perstN := true } })
    |> fun s => ({ s with tt := { s.tt with downReq := false } })), by decide +kernel, by decide +kernel, by decide +kernel, by decide +kernel⟩⟩

theorem wit_TetherResults_2 :
  ∃ (s : State), (s.pins.perstN = false) ∧ (s.dev.mode ≠ .off) ∧ (s.is F.TTH_STS_MAIN_ON = true) ∧ (s.is F.TTH_STS_PGOOD = true) :=
  ⟨(stu
    |> fun s => ({ s with pins := { s.pins with perstN := false } })
    |> fun s => (s.put F.TTH_STS_MAIN_ON 1)
    |> fun s => (s.put F.TTH_STS_PGOOD 1)), by decide +kernel, by decide +kernel, by decide +kernel, by decide +kernel⟩

theorem wit_ClockPowerResults_1 :
  (∃ (s : State), (s.dev.up = false) ∧ (s.dev.stage1 = true) ∧ (s.is F.TTH_STS_POWER_LOSS = false) ∧ (s.pins.strapBoot < 3))
  ∧ (∃ (s : State), (s.dev.up = true) ∧ (s.is F.CLK_STS_ROOT_LOCK = false))
  ∧ (∃ (s : State), (s.dev.up = true))
  ∧ (∃ (s : State), (s.dev.up = true))
  ∧ (∃ (s : State), (s.dev.up = true) ∧ ((∀ p, p < 7 → s.flits p = false ∧ s.lst p ≠ 2)))
  ∧ (∃ (s : State) (mv : _), (s.dev.up = true) ∧ (650 ≤ mv) ∧ (s.pwr.droop1 = false) ∧ (s.pwr.droop2 = false) ∧ (mv < 600 + 5 * s.get F.PWR_DROOP_CFG_TH1) ∧ (600 + 5 * s.get F.PWR_DROOP_CFG_TH2 ≤ mv))
  ∧ (∃ (s : State), (s.dev.up = true))
  ∧ (∃ (s : State), (s.dev.up = true) ∧ (s.pwr.ratio < s.ratioWanted)) :=
  ⟨⟨(stu
    |> fun s => ({ s with dev := { s.dev with up := false } })
    |> fun s => ({ s with dev := { s.dev with stage1 := true } })
    |> fun s => (s.put F.TTH_STS_POWER_LOSS 0)), by decide +kernel, by decide +kernel, by decide +kernel, by decide +kernel⟩,
   ⟨(stu
    |> fun s => (s.put F.CLK_STS_ROOT_LOCK 0)), by decide +kernel, by decide +kernel⟩,
   ⟨(stu), by decide +kernel⟩,
   ⟨(stu), by decide +kernel⟩,
   ⟨(stu), by decide +kernel, by decide +kernel⟩,
   ⟨(stu
    |> fun s => ({ s with pwr := { s.pwr with droop1 := false } })
    |> fun s => ({ s with pwr := { s.pwr with droop2 := false } })
    |> fun s => (s.put F.PWR_DROOP_CFG_TH2 19)), (700), by decide +kernel, by decide +kernel, by decide +kernel, by decide +kernel, by decide +kernel, by decide +kernel⟩,
   ⟨(stu), by decide +kernel⟩,
   ⟨(stu
    |> fun s => ({ s with pwr := { s.pwr with ratio := 63 } })), by decide +kernel, by decide +kernel⟩⟩

theorem wit_ClockPowerResults_2 :
  (∃ (s : State), (s.dev.up = true) ∧ (s.is F.PWR_CTL_ENABLE = true))
  ∧ (∃ (s : State), (s.pwr.lswHold = false))
  ∧ (∃ (s : State), (s.pwr.lswHold = true))
  ∧ (∃ (s : State), (s.dev.up = true) ∧ (s.is F.PWR_CTL_ENABLE = true) ∧ (s.pins.lswN = false))
  ∧ (∃ (s : State), (s.dev.up = true))
  ∧ (∃ (s : State) (tj : _), (s.dev.up = true) ∧ (tj < 120))
  ∧ (∃ (s : State), (s.cfg = 3) ∧ (s.dev.mode.serving = true)) :=
  ⟨⟨(stu
    |> fun s => (s.put F.PWR_CTL_ENABLE 1)), by decide +kernel, by decide +kernel⟩,
   ⟨(stu
    |> fun s => ({ s with pwr := { s.pwr with lswHold := false } })), by decide +kernel⟩,
   ⟨(stu
    |> fun s => ({ s with pwr := { s.pwr with lswHold := true } })), by decide +kernel⟩,
   ⟨(stu
    |> fun s => (s.put F.PWR_CTL_ENABLE 1)
    |> fun s => ({ s with pins := { s.pins with lswN := false } })), by decide +kernel, by decide +kernel, by decide +kernel⟩,
   ⟨(stu), by decide +kernel⟩,
   ⟨(stu), (119), by decide +kernel, by decide +kernel⟩,
   ⟨(stu), by decide +kernel, by decide +kernel⟩⟩

theorem wit_BootResults_1 :
  (∃ (s : State), (s.dev.up = true) ∧ (s.dev.mode = .boot) ∧ (s.img.stage = .sfdp))
  ∧ (∃ (s : State), (s.dev.up = true) ∧ (s.dev.mode = .boot) ∧ (s.img.stage = .sfdp) ∧ (s.img.copy = 0) ∧ (s.img.next = [1]))
  ∧ (∃ (s : State) (h : List Byte) (r : _), (s.dev.up = true) ∧ (s.dev.mode = .boot) ∧ (s.img.stage = .header) ∧ (s.headerFails h = some r))
  ∧ (∃ (s : State), (s.dev.up = true) ∧ (s.dev.mode = .boot) ∧ (s.img.stage = .header))
  ∧ (∃ (s : State), (s.dev.up = true) ∧ (s.dev.mode = .boot) ∧ (s.img.stage = .done) ∧ (s.hbm.training = false))
  ∧ (∃ (s : State) (x : Section) (b : List Byte), (s.img.secs[0]? = some x) ∧ s.dev.mode.configured = true ∧ 0 ∈ s.img.late ∧ b.length ≠ x.length)
  ∧ (∃ (s : State), s.img.op = 1 ∨ s.img.op = 2)
  ∧ (∃ (s : State), (s.img.op ≠ 0)) :=
  ⟨⟨(stu
    |> fun s => ({ s with dev := { s.dev with mode := .boot } })
    |> fun s => ({ s with img := { s.img with stage := .sfdp } })), by decide +kernel, by decide +kernel, by decide +kernel⟩,
   ⟨(stu
    |> fun s => ({ s with dev := { s.dev with mode := .boot } })
    |> fun s => ({ s with img := { s.img with stage := .sfdp } })
    |> fun s => ({ s with img := { s.img with copy := 0 } })
    |> fun s => ({ s with img := { s.img with next := [1] } })), by decide +kernel, by decide +kernel, by decide +kernel, by decide +kernel, by decide +kernel⟩,
   ⟨(stu
    |> fun s => ({ s with dev := { s.dev with mode := .boot } })
    |> fun s => ({ s with img := { s.img with stage := .header } })), (([] : List Byte)), (9), by decide +kernel, by decide +kernel, by decide +kernel, by decide +kernel⟩,
   ⟨(stu
    |> fun s => ({ s with dev := { s.dev with mode := .boot } })
    |> fun s => ({ s with img := { s.img with stage := .header } })), by decide +kernel, by decide +kernel, by decide +kernel⟩,
   ⟨(stu
    |> fun s => ({ s with dev := { s.dev with mode := .boot } })
    |> fun s => ({ s with img := { s.img with stage := .done } })
    |> fun s => ({ s with hbm := { s.hbm with training := false } })), by decide +kernel, by decide +kernel, by decide +kernel, by decide +kernel⟩,
   ⟨{ stu with img := { stu.img with secs := [{ typ := 4, flags := 0, offset := 0, length := 4, rsv := 0, hash := 0 }], late := [0] } }, { typ := 4, flags := 0, offset := 0, length := 4, rsv := 0, hash := 0 }, [1], by decide +kernel, by decide +kernel, by decide +kernel, by decide +kernel⟩,
   ⟨{ stu with img := { stu.img with op := 2 } }, by decide +kernel⟩,
   ⟨(stu
    |> fun s => ({ s with img := { s.img with op := 1 } })), by decide +kernel⟩⟩

theorem wit_BootResults_2 :
  (∃ (s : State), (s.img.op ≠ 0))
  ∧ (∃ (s : State) (src : _), (src < 3) ∧ (s.inHold = true))
  ∧ (∃ (s : State) (slot : _), (1 ≤ slot) ∧ (slot ≤ 3) ∧ (s.keysOpen = true) ∧ ((s.keySlot slot).hash = none))
  ∧ (∃ (s : State) (slot : _), (slot ≤ 3) ∧ (s.keysOpen = true) ∧ ((s.setKey slot { s.keySlot slot with revoked := true }).tt.keys.any (fun k => k.hash.isSome && !k.revoked) = true))
  ∧ (∃ (s : State) (slot : _), (slot ≤ 3) ∧ (s.keysOpen = true) ∧ ((s.setKey slot { s.keySlot slot with revoked := true }).tt.keys.any (fun k => k.hash.isSome && !k.revoked) = false)) :=
  ⟨⟨(stu
    |> fun s => ({ s with img := { s.img with op := 1 } })), by decide +kernel⟩,
   ⟨(stu
    |> fun s => (s.put F.IMG_STS_RECOVERY 1)), (2), by decide +kernel, by decide +kernel⟩,
   ⟨(stu
    |> fun s => ({ s.put F.IMG_STS_RECOVERY 1 with pins := { s.pins with strapBoot := 3 } })), (1), by decide +kernel, by decide +kernel, by decide +kernel, by decide +kernel⟩,
   ⟨(stu
    |> fun s => ({ s.put F.IMG_STS_RECOVERY 1 with pins := { s.pins with strapBoot := 3 } })
    |> fun s => (s.setKey 2 { hash := some .edbex })), (3), by decide +kernel, by decide +kernel, by decide +kernel⟩,
   ⟨(stu
    |> fun s => ({ s.put F.IMG_STS_RECOVERY 1 with pins := { s.pins with strapBoot := 3 } })), (0), by decide +kernel, by decide +kernel, by decide +kernel⟩⟩

theorem wit_SmbusResults_1 :
  (∃ (s : State), (s.smbusOn = true))
  ∧ (∃ (s : State), (s.smbusOn = false))
  ∧ (∃ (s : State) (off : _), (s.smbusOn = true) ∧ (off % 8 = 0))
  ∧ (∃ (s : State) (off : _), (s.smbusOn = false ∨ off % 8 ≠ 0))
  ∧ (∃ (s : State) (off : _), (s.smbusOn = true) ∧ (s.smbusReaches off = true))
  ∧ (∃ (s : State) (off : _), (s.smbusOn = false ∨ s.smbusReaches off = false))
  ∧ (∃ (s : State) (c : Check) (rest : List Check) (x : _) (o : _), (s.dev.up = true) ∧ (s.checks = c :: rest) ∧ (checkResult c { s with checks := rest } = some (x, o)))
  ∧ (∃ (s : State) (c : Check) (rest : List Check), (s.dev.up = true) ∧ (s.checks = c :: rest) ∧ (checkResult c { s with checks := rest } = none)) :=
  ⟨⟨(stu), by decide +kernel⟩,
   ⟨(stu
    |> fun s => ({ s with dev := { s.dev with up := false } })), by decide +kernel⟩,
   ⟨(stu), (0), by decide +kernel, by decide +kernel⟩,
   ⟨(stu), (7), by decide +kernel⟩,
   ⟨(stu), (0), by decide +kernel, by decide +kernel⟩,
   ⟨(stu
    |> fun s => ({ s with dev := { s.dev with up := false } })), (0), by decide +kernel⟩,
   ⟨(stu
    |> fun s => ({ s with checks := ({ off := 0x1F030, val := 0 } : Check) :: ([] : List Check) })), (({ off := 0x1F030, val := 0 } : Check)), (([] : List Check)), (0x92), (3), by decide +kernel, by decide +kernel, by decide +kernel⟩,
   ⟨(stu
    |> fun s => ({ s with checks := ({ off := 0x1F030, val := BitVec.ofNat 64 0x64006400640064 } : Check) :: ([] : List Check) })), (({ off := 0x1F030, val := BitVec.ofNat 64 0x64006400640064 } : Check)), (([] : List Check)), by decide +kernel, by decide +kernel, by decide +kernel⟩⟩

theorem wit_SmbusResults_2 :
  ∃ (s : State), (s.dev.mode = .quiesce) ∧ (s.drained = true) :=
  ⟨(stu
    |> fun s => ({ s with dev := { s.dev with mode := .quiesce } })), by decide +kernel, by decide +kernel⟩

theorem wit_HostFunctionResults_1 :
  (∃ (s : State), (s.hostRx = true) ∧ (s.dev.mode = .boot))
  ∧ (∃ (s : State) (r : CfgReq), (s.hostRx = true) ∧ (s.dev.mode ≠ .boot) ∧ (s.fnExists r.fn = false) ∧ (s.get F.HEP_LINK_STS_PSTATE ≠ 2))
  ∧ (∃ (s : State) (r : CfgReq), (s.hostRx = true) ∧ (s.dev.mode ≠ .boot) ∧ (s.fnExists r.fn = true) ∧ (s.get F.HEP_LINK_STS_PSTATE ≠ 2) ∧ (r.write = false))
  ∧ (∃ (s : State) (r : CfgReq), (s.hostRx = true) ∧ (s.dev.mode ≠ .boot) ∧ (s.fnExists r.fn = true) ∧ (s.get F.HEP_LINK_STS_PSTATE ≠ 2) ∧ (r.write = true) ∧ (r.fn ≠ 0))
  ∧ (∃ (s : State) (p : _), (s.hostRx = true) ∧ (1 ≤ p) ∧ (p < 8) ∧ (s.fnExists p = true) ∧ ((s.fnOf p).vfe = false))
  ∧ (∃ (s : State) (p : _), (s.hostRx = true) ∧ (1 ≤ p) ∧ (p < 8) ∧ (s.fnExists p = true) ∧ ((s.fnOf p).vfe = true))
  ∧ (∃ (s : State) (f : _), (s.hostRx = true) ∧ (s.fnExists f = true) ∧ (8 ≤ f))
  ∧ (∃ (s : State) (f : _), (s.hostRx = true) ∧ (s.fnExists f = true) ∧ (f < 8)) :=
  ⟨⟨(stu
    |> fun s => (s.put F.HEP_LINK_STS_UP 1)
    |> fun s => ({ s with dev := { s.dev with mode := .boot } })), by decide +kernel, by decide +kernel⟩,
   ⟨(stu
    |> fun s => (s.put F.HEP_LINK_STS_UP 1)
    |> fun s => (s.put F.HEP_LINK_STS_PSTATE 0)), (({ fn := 8, bus := 0, write := false, off := 0, be := 15, data := 0, tag := 0 } : CfgReq)), by decide +kernel, by decide +kernel, by decide +kernel, by decide +kernel⟩,
   ⟨(stu
    |> fun s => (s.put F.HEP_LINK_STS_UP 1)
    |> fun s => (s.put F.HEP_LINK_STS_PSTATE 0)), (({ fn := 1, bus := 0, write := false, off := 0, be := 15, data := 0, tag := 0 } : CfgReq)), by decide +kernel, by decide +kernel, by decide +kernel, by decide +kernel, by decide +kernel⟩,
   ⟨(stu
    |> fun s => (s.put F.HEP_LINK_STS_UP 1)
    |> fun s => (s.put F.HEP_LINK_STS_PSTATE 0)), (({ fn := 1, bus := 0, write := true, off := 0, be := 15, data := 0, tag := 0 } : CfgReq)), by decide +kernel, by decide +kernel, by decide +kernel, by decide +kernel, by decide +kernel, by decide +kernel⟩,
   ⟨(stu
    |> fun s => (s.put F.HEP_LINK_STS_UP 1)
    |> fun s => (s.setFn 1 { s.fnOf 1 with vfe := false })), (1), by decide +kernel, by decide +kernel, by decide +kernel, by decide +kernel, by decide +kernel⟩,
   ⟨(stu
    |> fun s => (s.put F.HEP_LINK_STS_UP 1)
    |> fun s => (s.setFn 1 { s.fnOf 1 with vfe := true })), (1), by decide +kernel, by decide +kernel, by decide +kernel, by decide +kernel, by decide +kernel⟩,
   ⟨(stu
    |> fun s => (s.put F.HEP_LINK_STS_UP 1)
    |> fun s => ({ s with fns := [(1, { vfe := true, numVfs := 1 })], pf := [(1, { totalVfs := 1 })] })), (8), by decide +kernel, by decide +kernel, by decide +kernel⟩,
   ⟨(stu
    |> fun s => (s.put F.HEP_LINK_STS_UP 1)), (7), by decide +kernel, by decide +kernel, by decide +kernel⟩⟩

theorem wit_HostFunctionResults_2 :
  (∃ (s : State) (f : _), ((s.fnOf f).flr = true) ∧ (f ≠ 0))
  ∧ (∃ (s : State) (f : _), (s.hostRx = true) ∧ (s.fnExists f = true) ∧ ((s.fnOf f).bme = true))
  ∧ (∃ (s : State) (f : _), (s.hostRx = true) ∧ (s.fnExists f = true) ∧ ((s.fnOf f).bme = false))
  ∧ (∃ (s : State) (f : _), (s.hostRx = true) ∧ (s.fnExists f = true))
  ∧ (∃ (s : State) (f : _) (k : _), (s.hostRx = true) ∧ (s.fnExists f = true) ∧ (k ≤ s.fnMsix f))
  ∧ (∃ (s : State) (f : _), (s.hostRx = true) ∧ (s.fnExists f = true))
  ∧ (∃ (s : State) (r : HostReq), (s.hostRx = true) ∧ (s.get F.HEP_LINK_STS_PSTATE ≠ 2) ∧ (s.fnExists r.fn = true) ∧ (s.barKind r.fn r.bar = none))
  ∧ (∃ (s : State) (r : HostReq) (k : BarKind), (s.hostRx = true) ∧ (s.get F.HEP_LINK_STS_PSTATE ≠ 2) ∧ (s.fnExists r.fn = true) ∧ (s.barKind r.fn r.bar = some k) ∧ (s.fnD3 r.fn = false) ∧ (s.fnMse r.fn = true) ∧ ((s.fnOf r.fn).flr = false) ∧ (s.modeServes r k = true) ∧ (r.kind < 2)) :=
  ⟨⟨(stu
    |> fun s => (s.setFn 7 { s.fnOf 7 with flr := true })), (7), by decide +kernel, by decide +kernel⟩,
   ⟨(stu
    |> fun s => (s.put F.HEP_LINK_STS_UP 1)
    |> fun s => (s.setFn 0 { s.fnOf 0 with bme := true })), (0), by decide +kernel, by decide +kernel, by decide +kernel⟩,
   ⟨(stu
    |> fun s => (s.put F.HEP_LINK_STS_UP 1)
    |> fun s => (s.setFn 0 { s.fnOf 0 with bme := false })), (0), by decide +kernel, by decide +kernel, by decide +kernel⟩,
   ⟨(stu
    |> fun s => (s.put F.HEP_LINK_STS_UP 1)), (0), by decide +kernel, by decide +kernel⟩,
   ⟨(stu
    |> fun s => (s.put F.HEP_LINK_STS_UP 1)), (0), (0), by decide +kernel, by decide +kernel, by decide +kernel⟩,
   ⟨(stu
    |> fun s => (s.put F.HEP_LINK_STS_UP 1)), (0), by decide +kernel, by decide +kernel⟩,
   ⟨(stu
    |> fun s => (s.put F.HEP_LINK_STS_UP 1)
    |> fun s => (s.put F.HEP_LINK_STS_PSTATE 0)), (({ fn := 1, bar := 5, off := 0, kind := 0, len := 8, data := [], tag := 0, poisoned := false, single := true } : HostReq)), by decide +kernel, by decide +kernel, by decide +kernel, by decide +kernel⟩,
   ⟨(stu
    |> fun s => (s.put F.HEP_LINK_STS_UP 1)
    |> fun s => (s.put F.HEP_LINK_STS_PSTATE 0)
    |> fun s => (s.setFn ({ fn := 0, bar := 0, off := 0, kind := 0, len := 8, data := [], tag := 0, poisoned := false, single := true } : HostReq).fn { s.fnOf ({ fn := 0, bar := 0, off := 0, kind := 0, len := 8, data := [], tag := 0, poisoned := false, single := true } : HostReq).fn with flr := false })
    |> fun s => (s.setFn 0 { s.fnOf 0 with mse := true })), (({ fn := 0, bar := 0, off := 0, kind := 0, len := 8, data := [], tag := 0, poisoned := false, single := true } : HostReq)), (.control), by decide +kernel, by decide +kernel, by decide +kernel, by decide +kernel, by decide +kernel, by decide +kernel, by decide +kernel, by decide +kernel, by decide +kernel⟩⟩

theorem wit_HostFunctionResults_3 :
  (∃ (s : State) (r : HostReq) (b : _), (s.hostRx = true) ∧ (s.get F.HEP_LINK_STS_PSTATE ≠ 2) ∧ (s.fnExists r.fn = true) ∧ (s.barKind r.fn r.bar = some (.window b)) ∧ (s.fnD3 r.fn = false) ∧ (s.fnMse r.fn = true) ∧ ((s.fnOf r.fn).flr = false) ∧ (s.modeServes r (.window b) = true) ∧ (r.kind < 2))
  ∧ (∃ (s : State), (s.hostRx = true)) :=
  ⟨⟨(stu
    |> fun s => (s.put F.HEP_LINK_STS_UP 1)
    |> fun s => (s.put F.HEP_LINK_STS_PSTATE 0)
    |> fun s => (s.setFn ({ fn := 0, bar := 4, off := 0, kind := 0, len := 8, data := [], tag := 0, poisoned := false, single := true } : HostReq).fn { s.fnOf ({ fn := 0, bar := 4, off := 0, kind := 0, len := 8, data := [], tag := 0, poisoned := false, single := true } : HostReq).fn with flr := false })
    |> fun s => ({ s with pf := [(0, { bar4Mode := 1, bar4Log2 := 20 })] })
    |> fun s => (s.setFn 0 { s.fnOf 0 with mse := true })), (({ fn := 0, bar := 4, off := 0, kind := 0, len := 8, data := [], tag := 0, poisoned := false, single := true } : HostReq)), (1), by decide +kernel, by decide +kernel, by decide +kernel, by decide +kernel, by decide +kernel, by decide +kernel, by decide +kernel, by decide +kernel, by decide +kernel⟩,
   ⟨(stu
    |> fun s => (s.put F.HEP_LINK_STS_UP 1)), by decide +kernel⟩⟩

theorem wit_HostLinkResults_1 :
  (∃ (s : State), (s.hostRx = true))
  ∧ (∃ (s : State), (s.is F.HEP_LINK_STS_UP = false))
  ∧ (∃ (s : State), (s.is F.HEP_LINK_STS_UP = true) ∧ (s.paired = false))
  ∧ (∃ (s : State) (sp : _) (w : _), (s.is F.HEP_LINK_STS_UP = false) ∧ (s.hep.training = true) ∧ (s.hostTrains sp w = true))
  ∧ (∃ (s : State), (s.is F.HEP_LINK_STS_UP = true))
  ∧ (∃ (s : State) (sp : _) (w : _), (s.is F.HEP_LINK_STS_UP = true) ∧ (s.hep.recovery = true) ∧ (s.hostTrains sp w = true))
  ∧ (∃ (s : State), (s.cfg ≤ 1) ∧ (s.hostUp = true) ∧ (s.get F.HEP_LINK_STS_PSTATE ≤ 1) ∧ (s.hostIdle = true) ∧ ((s.fnOf 0).ltrEn = false))
  ∧ (∃ (s : State), (s.cfg ≤ 1) ∧ (s.hostUp = true) ∧ (s.is F.HEP_LINK_STS_FLIT = true) ∧ (s.get F.HEP_LINK_STS_SPEED = 6) ∧ (s.is F.HEP_PM_CFG_L0P_EN = true) ∧ (s.get F.HEP_LINK_STS_PSTATE ≤ 1) ∧ (1 ≤ s.hostWidth / 2) ∧ (s.get F.HEP_PM_CFG_L0P_MIN_WIDTH ≤ s.hostWidth / 2)) :=
  ⟨⟨(stu
    |> fun s => (s.put F.HEP_LINK_STS_UP 1)), by decide +kernel⟩,
   ⟨(stu
    |> fun s => (s.put F.HEP_LINK_STS_UP 0)), by decide +kernel⟩,
   ⟨(stu
    |> fun s => (s.put F.HEP_LINK_STS_UP 1)), by decide +kernel, by decide +kernel⟩,
   ⟨(stu
    |> fun s => (s.put F.HEP_LINK_STS_UP 0)
    |> fun s => ({ s with hep := { s.hep with training := true } })), (6), (16), by decide +kernel, by decide +kernel, by decide +kernel⟩,
   ⟨(stu
    |> fun s => (s.put F.HEP_LINK_STS_UP 1)), by decide +kernel⟩,
   ⟨(stu
    |> fun s => (s.put F.HEP_LINK_STS_UP 1)
    |> fun s => ({ s with hep := { s.hep with recovery := true } })), (6), (16), by decide +kernel, by decide +kernel, by decide +kernel⟩,
   ⟨(stu
    |> fun s => ({ s with img := { s.img with cfg := 1 } })
    |> fun s => (s.put F.HEP_LINK_STS_UP 1)
    |> fun s => (s.put F.HEP_LINK_STS_PSTATE 1)
    |> fun s => (s.setFn 0 { s.fnOf 0 with ltrEn := false })), by decide +kernel, by decide +kernel, by decide +kernel, by decide +kernel, by decide +kernel⟩,
   ⟨(stu
    |> fun s => ({ s with img := { s.img with cfg := 1 } })
    |> fun s => (s.put F.HEP_LINK_STS_UP 1)
    |> fun s => (s.put F.HEP_LINK_STS_FLIT 1)
    |> fun s => (s.put F.HEP_LINK_STS_SPEED 6)
    |> fun s => (s.put F.HEP_PM_CFG_L0P_EN 1)
    |> fun s => (s.put F.HEP_LINK_STS_PSTATE 1)
    |> fun s => (s.put F.HEP_LINK_STS_WIDTH 16)), by decide +kernel, by decide +kernel, by decide +kernel, by decide +kernel, by decide +kernel, by decide +kernel, by decide +kernel, by decide +kernel⟩⟩

theorem wit_HostLinkResults_2 :
  (∃ (s : State), (s.hostUp = true) ∧ (s.hep.l0pWidth ≠ 0) ∧ (s.get F.HEP_LINK_STS_PSTATE = 1))
  ∧ (∃ (s : State) (k : _) (g : Frame), (s.hostUp = true) ∧ (s.tagNext k = some g))
  ∧ (∃ (s : State) (f : _) (k : _), (s.hostRx = true) ∧ (s.tagOf f k = none))
  ∧ (∃ (s : State) (f : _) (k : _) (e : TagEnt), (s.hostRx = true) ∧ (s.tagOf f k = some e) ∧ (e.st = .inUse))
  ∧ (∃ (s : State) (f : _) (k : _) (o : _) (d : List Byte) (e : TagEnt), (s.hostRx = true) ∧ (s.tagOf f k = some e) ∧ (e.st = .quarantined) ∧ (e.heldDl = false) ∧ (e.f.len ≤ o + d.length))
  ∧ (∃ (s : State) (f : _) (k : _) (e : TagEnt), (s.tagOf f k = some e) ∧ (e.st = .inUse))
  ∧ (∃ (s : State) (f : _) (k : _) (e : TagEnt), (s.tagOf f k = some e) ∧ (e.st ≠ .inUse) ∧ (e.heldDl = false)) :=
  ⟨⟨(stu
    |> fun s => (s.put F.HEP_LINK_STS_UP 1)
    |> fun s => (s.put F.HEP_LINK_STS_PSTATE 1)
    |> fun s => ({ s with hep := { s.hep with l0pWidth := 8 } })), by decide +kernel, by decide +kernel, by decide +kernel⟩,
   ⟨(stu
    |> fun s => (s.put F.HEP_LINK_STS_UP 1)
    |> fun s => ({ s with hep := { s.hep with wait := [({ typ := .read, cls := 0, inp := 1, out := 0, fn := 1 } : Frame)] } })), (31), (({ typ := .read, cls := 0, inp := 1, out := 0, fn := 1 } : Frame)), by decide +kernel, by decide +kernel⟩,
   ⟨(stu
    |> fun s => (s.put F.HEP_LINK_STS_UP 1)), (0), (0), by decide +kernel, by decide +kernel⟩,
   ⟨(stu
    |> fun s => (s.put F.HEP_LINK_STS_UP 1)
    |> fun s => ({ s with hep := { s.hep with tags := [({ fn := 1, tag := 5, f := { typ := .read, cls := 0, inp := 0, out := 0, len := 4 } } : TagEnt)] } })), (1), (5), (({ fn := 1, tag := 5, f := { typ := .read, cls := 0, inp := 0, out := 0, len := 4 } } : TagEnt)), by decide +kernel, by decide +kernel, by decide +kernel⟩,
   ⟨(stu
    |> fun s => (s.put F.HEP_LINK_STS_UP 1)
    |> fun s => ({ s with hep := { s.hep with tags := [({ fn := 1, tag := 5, st := .quarantined, f := { typ := .read, cls := 0, inp := 0, out := 0, len := 4 } } : TagEnt)] } })
    |> fun s => ({ s with hep := { s.hep with tags := [({ fn := 1, tag := 5, st := .quarantined, f := { typ := .read, cls := 0, inp := 0, out := 0, len := 4 } } : TagEnt)] } })), (1), (5), (0), ((List.replicate 4 7 : List Byte)), (({ fn := 1, tag := 5, st := .quarantined, f := { typ := .read, cls := 0, inp := 0, out := 0, len := 4 } } : TagEnt)), by decide +kernel, by decide +kernel, by decide +kernel, by decide +kernel, by decide +kernel⟩,
   ⟨(stu
    |> fun s => ({ s with hep := { s.hep with tags := [({ fn := 1, tag := 5, f := { typ := .read, cls := 0, inp := 0, out := 0, len := 4 } } : TagEnt)] } })), (1), (5), (({ fn := 1, tag := 5, f := { typ := .read, cls := 0, inp := 0, out := 0, len := 4 } } : TagEnt)), by decide +kernel, by decide +kernel⟩,
   ⟨(stu
    |> fun s => ({ s with hep := { s.hep with tags := [({ fn := 1, tag := 5, st := .discard, f := { typ := .read, cls := 0, inp := 0, out := 0, len := 4 } } : TagEnt)] } })), (1), (5), (({ fn := 1, tag := 5, st := .discard, f := { typ := .read, cls := 0, inp := 0, out := 0, len := 4 } } : TagEnt)), by decide +kernel, by decide +kernel, by decide +kernel⟩⟩

theorem wit_AttestationResults :
  (∃ (s : State), (s.doeOn = true) ∧ (s.get F.HEP_LINK_STS_PSTATE ≠ 2))
  ∧ (∃ (s : State), (s.doeOn = true) ∧ (s.get F.HEP_LINK_STS_PSTATE ≠ 2))
  ∧ (∃ (s : State), (s.doeOn = true) ∧ (s.get F.HEP_LINK_STS_PSTATE ≠ 2))
  ∧ (∃ (s : State) (i : _), (s.doeOn = true) ∧ (s.get F.HEP_LINK_STS_PSTATE ≠ 2) ∧ (1 ≤ i) ∧ (i ≤ 6))
  ∧ (∃ (s : State) (i : _), (s.doeOn = true) ∧ (s.get F.HEP_LINK_STS_PSTATE ≠ 2) ∧ (6 < i) ∧ (i ≠ 0xFF))
  ∧ (∃ (s : State), (s.doeOn = true) ∧ (s.get F.HEP_LINK_STS_PSTATE ≠ 2))
  ∧ (∃ (s : State) (i : _), (s.doeOn = true) ∧ (s.get F.HEP_LINK_STS_PSTATE ≠ 2) ∧ (2 ≤ i))
  ∧ (∃ (s : State), (s.doeOn = false)) :=
  ⟨⟨(stu
    |> fun s => (s.put F.HEP_LINK_STS_UP 1)
    |> fun s => (s.put F.HEP_LINK_STS_PSTATE 0)), by decide +kernel, by decide +kernel⟩,
   ⟨(stu
    |> fun s => (s.put F.HEP_LINK_STS_UP 1)
    |> fun s => (s.put F.HEP_LINK_STS_PSTATE 0)), by decide +kernel, by decide +kernel⟩,
   ⟨(stu
    |> fun s => (s.put F.HEP_LINK_STS_UP 1)
    |> fun s => (s.put F.HEP_LINK_STS_PSTATE 0)), by decide +kernel, by decide +kernel⟩,
   ⟨(stu
    |> fun s => (s.put F.HEP_LINK_STS_UP 1)
    |> fun s => (s.put F.HEP_LINK_STS_PSTATE 0)), (1), by decide +kernel, by decide +kernel, by decide +kernel, by decide +kernel⟩,
   ⟨(stu
    |> fun s => (s.put F.HEP_LINK_STS_UP 1)
    |> fun s => (s.put F.HEP_LINK_STS_PSTATE 0)), (7), by decide +kernel, by decide +kernel, by decide +kernel, by decide +kernel⟩,
   ⟨(stu
    |> fun s => (s.put F.HEP_LINK_STS_UP 1)
    |> fun s => (s.put F.HEP_LINK_STS_PSTATE 0)), by decide +kernel, by decide +kernel⟩,
   ⟨(stu
    |> fun s => (s.put F.HEP_LINK_STS_UP 1)
    |> fun s => (s.put F.HEP_LINK_STS_PSTATE 0)), (2), by decide +kernel, by decide +kernel, by decide +kernel⟩,
   ⟨(stu), by decide +kernel⟩⟩

theorem wit_WindowResults_1 :
  (∃ (s : State) (k : _) (a : Access), (s.wxl.walks.find? (fun e => e.1 == k) = some (k, [a])) ∧ (s.hbmPoison (s.xtOff k) = false) ∧ (s.wxl.walkWait = []))
  ∧ (∃ (s : State) (k : _) (a : Access), (s.wxl.walks.find? (fun e => e.1 == k) = some (k, [a])) ∧ (s.wxl.walkWait = []))
  ∧ (∃ (s : State), (s.is F.WXL_TC_INV_GO = true))
  ∧ (∃ (s : State), (s.is F.WXL_PC_FLUSH_GO = true) ∧ (s.wxl.flushing = []))
  ∧ (∃ (s : State), (s.is F.WXL_PC_FLUSH_GO = true) ∧ (s.wxl.flushing ≠ []))
  ∧ (∃ (s : State) (a : Access), (s.is F.HEP_LINK_STS_UP = true) ∧ (s.wxl.atsWait.filter (fun e => e.1 == { fn := 1, pasid := 2 ^ 20, page := 1, addr := 0, r := false, w := false }) = [({ fn := 1, pasid := 2 ^ 20, page := 1, addr := 0, r := false, w := false }, a)]))
  ∧ (∃ (s : State) (f : _), (s.is F.HEP_LINK_STS_UP = true) ∧ (s.fnExists f = true) ∧ (s.wxl.invals.length < 32))
  ∧ (∃ (s : State) (f : _) (k : _) (x : Inval), (s.wxl.invals.find? (fun i => i.fn == f && i.itag == k) = some x) ∧ (s.hostUp = true) ∧ (x.wait.any (fun r => (s.fnRequests f).contains r) = false)) :=
  ⟨⟨(stu
    |> fun s => ({ s with wxl := { s.wxl with walkWait := [] } })
    |> fun s => ({ s with wxl := { s.wxl with walks := [(2 ^ 28 - 1, [({ f := { typ := .read, cls := 0, inp := 1, out := 0 } } : Access)])] } })), (2 ^ 28 - 1), (({ f := { typ := .read, cls := 0, inp := 1, out := 0 } } : Access)), by decide +kernel, by decide +kernel, by decide +kernel⟩,
   ⟨(stu
    |> fun s => ({ s with wxl := { s.wxl with walkWait := [] } })
    |> fun s => ({ s with wxl := { s.wxl with walks := [(2 ^ 28 - 1, [({ f := { typ := .read, cls := 0, inp := 1, out := 0 } } : Access)])] } })), (2 ^ 28 - 1), (({ f := { typ := .read, cls := 0, inp := 1, out := 0 } } : Access)), by decide +kernel, by decide +kernel⟩,
   ⟨(stu
    |> fun s => (s.put F.WXL_TC_INV_GO 1)), by decide +kernel⟩,
   ⟨(stu
    |> fun s => (s.put F.WXL_PC_FLUSH_GO 1)
    |> fun s => ({ s with wxl := { s.wxl with flushing := [] } })), by decide +kernel, by decide +kernel⟩,
   ⟨(stu
    |> fun s => (s.put F.WXL_PC_FLUSH_GO 1)
    |> fun s => ({ s with wxl := { s.wxl with flushing := [0x1000] } })), by decide +kernel, by decide +kernel⟩,
   ⟨({ stu with wxl := { stu.wxl with atsWait := [({ fn := 1, pasid := 2 ^ 20, page := 1, addr := 0, r := false, w := false }, { f := { typ := .read, cls := 0, inp := 1, out := 0 } })] } }.put F.HEP_LINK_STS_UP 1), { f := { typ := .read, cls := 0, inp := 1, out := 0 } }, by decide +kernel, by decide +kernel⟩,
   ⟨(stu
    |> fun s => (s.put F.HEP_LINK_STS_UP 1)), (0), by decide +kernel, by decide +kernel, by decide +kernel⟩,
   ⟨(stu
    |> fun s => (s.put F.HEP_LINK_STS_UP 1)
    |> fun s => (({ s with wxl := { s.wxl with invals := [({ fn := 1, itag := 31, wait := [] } : Inval)] } }.put F.HEP_LINK_STS_UP 1))), (1), (31), (({ fn := 1, itag := 31, wait := [] } : Inval)), by decide +kernel, by decide +kernel, by decide +kernel⟩⟩

theorem wit_WindowResults_2 :
  (∃ (s : State) (q : _) (m : Mig), (s.migOf q = some m) ∧ (m.hold = false) ∧ (s.passOver q = true))
  ∧ (∃ (s : State) (q : _) (m : Mig), (s.migOf q = some m) ∧ (m.hold = true) ∧ (s.passOver q = true) ∧ (m.done = false) ∧ (s.paired = false))
  ∧ (∃ (s : State) (q : _) (x : XlWait), (s.wxl.xlWaits.find? (fun x => x.q == q) = some x) ∧ (s.pageBusy x.das = false) ∧ (s.prl.unmirrored.any (fun i => i.q == q) = false) ∧ (s.cget q C.OP_ACTIVE = 1) ∧ (s.opc q = 0x0B)) :=
  ⟨⟨(stu
    |> fun s => ((s.setCtxW 0 8 6).cput 0 C.OP_ACTIVE 1)
    |> fun s => ({ s with wxl := { s.wxl with migs := [({ q := 0, first := 0, count := 1, dst := 0, srcs := [] } : Mig)] } })), (0), (({ q := 0, first := 0, count := 1, dst := 0, srcs := [] } : Mig)), by decide +kernel, by decide +kernel, by decide +kernel⟩,
   ⟨(stu
    |> fun s => ((s.setCtxW 0 8 6).cput 0 C.OP_ACTIVE 1)
    |> fun s => ({ s with wxl := { s.wxl with migs := [({ q := 0, first := 0, count := 1, dst := 0, srcs := [], hold := true } : Mig)] } })), (0), (({ q := 0, first := 0, count := 1, dst := 0, srcs := [], hold := true } : Mig)), by decide +kernel, by decide +kernel, by decide +kernel, by decide +kernel, by decide +kernel⟩,
   ⟨(stu
    |> fun s => (s.cput 0 C.OP_ACTIVE 1)
    |> fun s => (s.setCtxW 0 8 0x0B)
    |> fun s => ({ s with wxl := { s.wxl with xlWaits := [({ q := 0, das := [] } : XlWait)] } })), (0), (({ q := 0, das := [] } : XlWait)), by decide +kernel, by decide +kernel, by decide +kernel, by decide +kernel, by decide +kernel⟩⟩

theorem wit_HbmResults_1 :
  (∃ (s : State), (s.dev.mode = .boot) ∧ (s.hbm.training = true))
  ∧ (∃ (s : State), (s.dev.mode = .boot) ∧ (s.hbm.training = false) ∧ (s.hbm.filled = false))
  ∧ (∃ (s : State) (r : HbmReq), (r.write = true) ∧ (r.off + r.data.length ≤ s.hbmCap) ∧ (s.hbmPick true r.off = none) ∧ (s.hbmReady r.off = true) ∧ (s.hbm.out.contains (s.pcAt r.off) = false))
  ∧ (∃ (s : State) (r : HbmReq), (r.write = false) ∧ (r.off + r.len ≤ s.hbmCap) ∧ (s.hbmPick false r.off = none) ∧ (s.hbmReady r.off = true))
  ∧ (∃ (s : State) (r : HbmReq) (f : Frame), (s.hbmPick r.write r.off = some f) ∧ (s.hbmReady r.off = true) ∧ (r.off + (if r.write then r.data.length else r.len) ≤ s.hbmCap))
  ∧ (∃ (s : State), (s.hbm.training = false) ∧ (s.hbm.set ≠ []) ∧ (s.inSr = false))
  ∧ (∃ (s : State) (c : _), (s.dev.up = true) ∧ (c < 95))
  ∧ (∃ (s : State) (c : _), (s.dev.up = true) ∧ (95 ≤ c)) :=
  ⟨⟨(stu
    |> fun s => ({ s with dev := { s.dev with mode := .boot } })
    |> fun s => ({ s with hbm := { s.hbm with training := true } })), by decide +kernel, by decide +kernel⟩,
   ⟨(stu
    |> fun s => ({ s with dev := { s.dev with mode := .boot } })
    |> fun s => ({ s with hbm := { s.hbm with training := false } })
    |> fun s => ({ s with hbm := { s.hbm with filled := false } })), by decide +kernel, by decide +kernel, by decide +kernel⟩,
   ⟨(stu
    |> fun s => ((s.put F.HBM_STS_SET_N 1))
    |> fun s => ({ s with hbm := { s.hbm with set := [0] } })), (({ write := true, off := 2 ^ 30 - 2, len := 2, data := [1, 2], ecc := .ok } : HbmReq)), by decide +kernel, by decide +kernel, by decide +kernel, by decide +kernel, by decide +kernel⟩,
   ⟨(stu
    |> fun s => ((s.put F.HBM_STS_SET_N 1))), (({ write := false, off := 2 ^ 30 - 2, len := 2, data := [], ecc := .ok } : HbmReq)), by decide +kernel, by decide +kernel, by decide +kernel, by decide +kernel⟩,
   ⟨(stu
    |> fun s => ((s.put F.HBM_STS_SET_N 1))
    |> fun s => ({ s with hbm := { s.hbm with wait := [({ typ := .write, cls := 0, inp := 0, out := 2, addr := 7 * 2 ^ 44 + (2 ^ 30 - 2), len := 2, data := [1, 2] } : Frame)] } })), (({ write := true, off := 2 ^ 30 - 2, len := 2, data := [1, 2], ecc := .ok } : HbmReq)), (({ typ := .write, cls := 0, inp := 0, out := 2, addr := 7 * 2 ^ 44 + (2 ^ 30 - 2), len := 2, data := [1, 2] } : Frame)), by decide +kernel, by decide +kernel, by decide +kernel⟩,
   ⟨(stu
    |> fun s => ({ s with hbm := { s.hbm with training := false } })
    |> fun s => ({ s with hbm := { s.hbm with set := [0] } })), by decide +kernel, by decide +kernel, by decide +kernel⟩,
   ⟨(stu), (94), by decide +kernel, by decide +kernel⟩,
   ⟨(stu), (95), by decide +kernel, by decide +kernel⟩⟩

theorem wit_HbmResults_2 :
  (∃ (s : State) (p : _) (b : _) (r : Nat) (c : _), (s.hbm.rowTests = [(p, b, r, c)]))
  ∧ (∃ (s : State) (p : _), (s.hbm.pcTests = [p]))
  ∧ (∃ (s : State) (o : _), (s.get F.HBM_SCRUB_CFG_PERIOD_H ≠ 0) ∧ (s.inSr = false) ∧ (s.hbm.filled = true) ∧ (s.hbm.scrubPos ≤ o) ∧ (o < s.hbmCap))
  ∧ (∃ (s : State), (s.cfg ≤ 1) ∧ (s.get F.HBM_SR_CFG_IDLE_US ≠ 0) ∧ (s.dev.mode.serving = true) ∧ (s.inSr = false) ∧ (s.hbm.wait = []) ∧ (s.queuedTo 2 = 0) ∧ (s.hbm.rowTests = []) ∧ (s.hbm.pcTests = []) ∧ (s.hbm.set ≠ []))
  ∧ (∃ (s : State), (s.inSr = true) ∧ (s.hbm.exiting = false) ∧ (s.hbm.wait ≠ []) ∧ (s.recalDue = true))
  ∧ (∃ (s : State), (s.inSr = true) ∧ (s.hbm.exiting = false) ∧ (s.hbm.wait ≠ []) ∧ (s.recalDue = false))
  ∧ (∃ (s : State) (k : _) (p : _), (s.hbm.set[k]? = some p) ∧ (s.hbm.exiting = true) ∧ (s.hbm.sr.head? = some p) ∧ (k % 2 = 0))
  ∧ (∃ (s : State) (p : _), (s.hbm.exiting = true) ∧ (s.hbm.recal.contains p = true) ∧ (s.hbm.sr.contains p = false)) :=
  ⟨⟨(stu
    |> fun s => ({ s with hbm := { s.hbm with rowTests := [(0, 0, 0, 0)] } })), (0), (0), (0), (0), by decide +kernel⟩,
   ⟨(stu
    |> fun s => ({ s with hbm := { s.hbm with pcTests := [0] } })), (0), by decide +kernel⟩,
   ⟨(stu
    |> fun s => (s.put F.HBM_SCRUB_CFG_PERIOD_H 1)
    |> fun s => ({ s with hbm := { s.hbm with filled := true } })
    |> fun s => ((s.put F.HBM_STS_SET_N 1))), (2 ^ 30 - 1), by decide +kernel, by decide +kernel, by decide +kernel, by decide +kernel, by decide +kernel⟩,
   ⟨(stu
    |> fun s => ({ s with img := { s.img with cfg := 1 } })
    |> fun s => (s.put F.HBM_SR_CFG_IDLE_US 1)
    |> fun s => ({ s with hbm := { s.hbm with wait := [] } })
    |> fun s => ({ s with hbm := { s.hbm with rowTests := [] } })
    |> fun s => ({ s with hbm := { s.hbm with pcTests := [] } })
    |> fun s => ({ s with hbm := { s.hbm with set := [0] } })), by decide +kernel, by decide +kernel, by decide +kernel, by decide +kernel, by decide +kernel, by decide +kernel, by decide +kernel, by decide +kernel, by decide +kernel⟩,
   ⟨(stu
    |> fun s => ({ s with hbm := { s.hbm with exiting := false } })
    |> fun s => (({ s with hbm := { s.hbm with wait := [{ typ := .read, cls := 0, inp := 0, out := 2 }] } }.put F.HBM_STS_SR 1).put F.HBM_STS_TEMP 80)), by decide +kernel, by decide +kernel, by decide +kernel, by decide +kernel⟩,
   ⟨(stu
    |> fun s => ({ s with hbm := { s.hbm with exiting := false } })
    |> fun s => ({ s with hbm := { s.hbm with wait := [{ typ := .read, cls := 0, inp := 0, out := 2 }] } }.put F.HBM_STS_SR 1)), by decide +kernel, by decide +kernel, by decide +kernel, by decide +kernel⟩,
   ⟨(stu
    |> fun s => ({ s with hbm := { s.hbm with exiting := true } })
    |> fun s => ({ s with hbm := { s.hbm with set := [0, 1], sr := [0, 1] } })), (0), (0), by decide +kernel, by decide +kernel, by decide +kernel, by decide +kernel⟩,
   ⟨(stu
    |> fun s => ({ s with hbm := { s.hbm with exiting := true } })
    |> fun s => ({ s with hbm := { s.hbm with recal := [0] } })), (0), by decide +kernel, by decide +kernel, by decide +kernel⟩⟩

theorem wit_HbmResults_3 :
  ∃ (s : State), (s.hbm.exiting = true) ∧ (s.hbm.sr = []) ∧ (s.hbm.recal = []) :=
  ⟨(stu
    |> fun s => ({ s with hbm := { s.hbm with exiting := true } })
    |> fun s => ({ s with hbm := { s.hbm with sr := [] } })
    |> fun s => ({ s with hbm := { s.hbm with recal := [] } })), by decide +kernel, by decide +kernel, by decide +kernel⟩

theorem wit_QueueResults_1 :
  (∃ (s : State) (q : _) (a : QAct) (t : State), ((s.qen.loads.take 1024).find? (fun e => e.1 == q) = some (q, [a])) ∧ (ctxRoom q a.pre s = some t) ∧ ((List.range 16).any (fun j => s.hbmPoison (s.ctxOff q + 8 * j)) = false))
  ∧ (∃ (s : State) (q : _) (d : List Byte), ((s.qa q).fetchAns = some (.ok, d)) ∧ ((s.qa q).fetchDrop = false))
  ∧ (∃ (s : State) (q : _) (d : List Byte), ((s.qa q).fetchAns = some (.timeout, d)) ∧ ((s.qa q).fetchDrop = false))
  ∧ (∃ (s : State), s.mayStart 0 = true ∧ s.cached 0 = true ∧ s.cached (s.cget 0 C.CQ) = true ∧ (s.qa 0).fetched = [[1]] ∧ s.isCq (s.cget 0 C.CQ) = true ∧ s.qst (s.cget 0 C.CQ) = 1 ∧ s.cqFree (s.cget 0 C.CQ) ≠ 0 ∧ s.pinFull 0 = false)
  ∧ (∃ (s : State), s.mayStart 0 = true ∧ s.cached 0 = true ∧ s.cached (s.cget 0 C.CQ) = true ∧ (s.qa 0).fetched = [[1]] ∧ s.isCq (s.cget 0 C.CQ) = true ∧ s.qst (s.cget 0 C.CQ) = 1 ∧ s.cqFree (s.cget 0 C.CQ) = 0 ∧ (s.qa 0).slotWait = false)
  ∧ (∃ (s : State) (q : _), (s.cget q C.CQ ≠ q))
  ∧ (∃ (s : State), (s.qa 0).held = some { status := 0 } ∧ s.dev.mode.serving = true ∧ s.owns (s.cget 0 C.ENV) = true ∧ s.lagOf 0 = 0 ∧ s.cached 0 = true ∧ s.cached (s.cget 0 C.CQ) = true ∧ s.isCq (s.cget 0 C.CQ) = true ∧ s.cget (s.cget 0 C.CQ) C.GEN = s.cget 0 C.CQ_GEN ∧ s.qst (s.cget 0 C.CQ) = 1 ∧ s.recordAhead (s.cget 0 C.CQ) { status := 0 } = false ∧ s.daCheck false (s.cget 0 C.ENV) true (s.ringDa (s.cget 0 C.CQ) + 32 * (s.cget (s.cget 0 C.CQ) C.TAIL % s.ringN (s.cget 0 C.CQ))) 32 = .ok { out := 4, addr := 0 })
  ∧ (∃ (s : State), (s.qa 0).held = some { status := 0 } ∧ s.dev.mode.serving = true ∧ s.owns (s.cget 0 C.ENV) = true ∧ s.lagOf 0 = 0 ∧ s.cached 0 = true ∧ s.cached (s.cget 0 C.CQ) = true ∧ s.cget (s.cget 0 C.CQ) C.GEN ≠ s.cget 0 C.CQ_GEN) :=
  ⟨⟨(stu
    |> fun s => ({ s with qen := { s.qen with loads := [(4194303, [QAct.need])] } })), (4194303), (QAct.need), ({ stu with qen := { stu.qen with loads := [(4194303, [QAct.need])] } }), by decide +kernel, by decide +kernel, by decide +kernel⟩,
   ⟨(stu
    |> fun s => (s.setQa 0 { s.qa 0 with fetchAns := some (.ok, ([] : List Byte)) })
    |> fun s => (s.setQa 0 { s.qa 0 with fetchDrop := false })), (0), (([] : List Byte)), by decide +kernel, by decide +kernel⟩,
   ⟨(stu
    |> fun s => (s.setQa 0 { s.qa 0 with fetchAns := some (.timeout, ([] : List Byte)) })
    |> fun s => (s.setQa 0 { s.qa 0 with fetchDrop := false })), (0), (([] : List Byte)), by decide +kernel, by decide +kernel⟩,
   ⟨(((((stq2.cput 1 C.LOG2_ENTRIES 10).cput 0 C.STATE 1))).setQa 0 { fetched := [[1]] }), by decide +kernel⟩,
   ⟨(((((stq2.cput 1 C.LOG2_ENTRIES 4).cput 1 C.RESERVED 15).cput 0 C.STATE 1)).setQa 0 { fetched := [[1]] }), by decide +kernel⟩,
   ⟨(stu), (1), by decide +kernel⟩,
   ⟨((((stq2.setQa 0 { held := some { status := 0 } }).put (F.WXL_ERNG_CTL_ENABLE 0) 1).put (F.WXL_ERNG_CTL_W 0) 1).put (F.WXL_ERNG_CTL_LOG2 0) 16).put F.WXL_CTL_ENABLE 1, by decide +kernel⟩,
   ⟨(stq2.setQa 0 { held := some { status := 0 } }).cput 1 C.GEN 5, by decide +kernel⟩⟩

theorem wit_QueueResults_2 :
  ∃ (s : State) (q : _), ((s.qa q).modTimer = true) ∧ (s.isCq q = true) ∧ (s.dev.mode.serving = true) ∧ (0 < s.cget q C.PENDING) ∧ (s.cget q C.IRQ_EN = 1) :=
  ⟨(stu
    |> fun s => (s.setQa 0 { s.qa 0 with modTimer := true })
    |> fun s => (s.cput 0 C.KIND 1)
    |> fun s => (s.cput 0 C.IRQ_EN 1)
    |> fun s => (s.cput 0 C.PENDING 1)), (0), by decide +kernel, by decide +kernel, by decide +kernel, by decide +kernel, by decide +kernel⟩

theorem wit_StepResults_1 :
  (∃ (s : State) (p : _) (row : _) (q : _), (s.dev.mode.running = true) ∧ (s.is F.SPL_CTL_ENABLE = true) ∧ (s.pathOpen p = true) ∧ (s.pickRelease p (s.waiters p) = some (row, q)) ∧ (s.opc q ≠ 0x0E))
  ∧ (∃ (s : State) (p : _), (s.dev.mode.running = true) ∧ (s.is F.SPL_CTL_ENABLE = true) ∧ (s.pathOpen p = true) ∧ (s.pickRelease p (s.waiters p) = none) ∧ (s.is F.PWR_STRETCH_STS_FREEZE = false))
  ∧ (∃ (s : State) (q : _), (s.dev.mode.serving = true) ∧ (s.opc q ≠ 0x08))
  ∧ (∃ (s : State) (p : _), (s.qen.pipes.contains p = true) ∧ (testModes s.dev.mode = true) ∧ (s.qaux = []))
  ∧ (∃ (s : State) (q : _) (r : Rel) (p : Nat), (s.cget q C.OP_ACTIVE = 1) ∧ (s.dev.mode.serving = true) ∧ (s.beginable q = some (r, p)) ∧ (s.opc q = 0x01))
  ∧ (∃ (s : State) (q : _) (r : Rel) (p : Nat), (s.cget q C.OP_ACTIVE = 1) ∧ (s.dev.mode.serving = true) ∧ (s.beginable q = some (r, p)) ∧ (s.opc q = 0x02))
  ∧ (∃ (s : State) (q : _) (r : Rel) (p : Nat), (s.cget q C.OP_ACTIVE = 1) ∧ (s.dev.mode.serving = true) ∧ (s.beginable q = some (r, p)) ∧ (s.opc q = 0x03))
  ∧ (∃ (s : State) (q : _) (r : Rel) (p : Nat), (s.cget q C.OP_ACTIVE = 1) ∧ (s.dev.mode.serving = true) ∧ (s.beginable q = some (r, p)) ∧ (s.opc q = 0x04)) :=
  ⟨⟨(stu
    |> fun s => (s.put F.SPL_CTL_ENABLE 1)
    |> fun s => (((((s.setCtxW 0 8 15).cput 0 C.OP_ACTIVE 1).cput 0 C.STATE 1).setQa 0 { phase := .waiting }).put (F.ENV_CREDIT_CREDIT 0) 1)), (0), (1), (0), by decide +kernel, by decide +kernel, by decide +kernel, by decide +kernel, by decide +kernel⟩,
   ⟨(stu
    |> fun s => (s.put F.SPL_CTL_ENABLE 1)
    |> fun s => (s.put F.PWR_STRETCH_STS_FREEZE 0)), (0), by decide +kernel, by decide +kernel, by decide +kernel, by decide +kernel, by decide +kernel⟩,
   ⟨(stu), (0), by decide +kernel, by decide +kernel⟩,
   ⟨(stu
    |> fun s => ({ s with qaux := [] })), (0), by decide +kernel, by decide +kernel, by decide +kernel⟩,
   ⟨(stu
    |> fun s => (s.cput 0 C.OP_ACTIVE 1)
    |> fun s => ({ s with spl := { s.spl with rels := [({ path := 0, q := 0, off := 0, len := 64, est := 0, row := 1 } : Rel)] } })
    |> fun s => (s.setCtxW 0 8 0x01)), (0), (({ path := 0, q := 0, off := 0, len := 64, est := 0, row := 1 } : Rel)), (0), by decide +kernel, by decide +kernel, by decide +kernel, by decide +kernel⟩,
   ⟨(stu
    |> fun s => (s.cput 0 C.OP_ACTIVE 1)
    |> fun s => ({ s with spl := { s.spl with rels := [({ path := 0, q := 0, off := 0, len := 64, est := 0, row := 1 } : Rel)] } })
    |> fun s => (s.setCtxW 0 8 0x02)), (0), (({ path := 0, q := 0, off := 0, len := 64, est := 0, row := 1 } : Rel)), (0), by decide +kernel, by decide +kernel, by decide +kernel, by decide +kernel⟩,
   ⟨(stu
    |> fun s => (s.cput 0 C.OP_ACTIVE 1)
    |> fun s => ({ s with spl := { s.spl with rels := [({ path := 0, q := 0, off := 0, len := 64, est := 0, row := 1 } : Rel)] } })
    |> fun s => (s.setCtxW 0 8 0x03)), (0), (({ path := 0, q := 0, off := 0, len := 64, est := 0, row := 1 } : Rel)), (0), by decide +kernel, by decide +kernel, by decide +kernel, by decide +kernel⟩,
   ⟨(stu
    |> fun s => (s.cput 0 C.OP_ACTIVE 1)
    |> fun s => ({ s with spl := { s.spl with rels := [({ path := 0, q := 0, off := 0, len := 64, est := 0, row := 1 } : Rel)] } })
    |> fun s => (s.setCtxW 0 8 0x04)), (0), (({ path := 0, q := 0, off := 0, len := 64, est := 0, row := 1 } : Rel)), (0), by decide +kernel, by decide +kernel, by decide +kernel, by decide +kernel⟩⟩

theorem wit_StepResults_2 :
  (∃ (s : State) (q : _) (r : Rel) (p : Nat), (s.cget q C.OP_ACTIVE = 1) ∧ (s.dev.mode.serving = true) ∧ (s.beginable q = some (r, p)) ∧ (s.opc q = 0x05))
  ∧ (∃ (s : State) (q : _) (r : Rel) (p : Nat), (s.cget q C.OP_ACTIVE = 1) ∧ (s.dev.mode.serving = true) ∧ (s.beginable q = some (r, p)) ∧ (s.opc q = 0x06) ∧ ((s.qa q).phase ≠ .ctl))
  ∧ (∃ (s : State) (q : _) (r : Rel) (p : Nat), (s.cget q C.OP_ACTIVE = 1) ∧ (s.dev.mode.serving = true) ∧ (s.beginable q = some (r, p)) ∧ (s.opc q = 0x07) ∧ ((s.qa q).phase ≠ .ctl))
  ∧ (∃ (s : State) (q : _) (r : Rel) (p : Nat), (s.cget q C.OP_ACTIVE = 1) ∧ (s.dev.mode.serving = true) ∧ (s.beginable q = some (r, p)) ∧ (s.opc q = 0x08) ∧ ((s.qa q).step.on = false))
  ∧ (∃ (s : State) (q : _), (s.opc q = 0x07) ∧ (s.cget q C.OP_ACTIVE = 1) ∧ ((s.qa q).phase = .ctl) ∧ (s.sqRuns q = true) ∧ (s.qenRuns = true) ∧ (s.listSt q = .ask))
  ∧ (∃ (s : State) (q : _) (st : _), (s.opc q = 0x07) ∧ (s.cget q C.OP_ACTIVE = 1) ∧ ((s.qa q).phase = .ctl) ∧ (s.sqRuns q = true) ∧ (s.qenRuns = true) ∧ (s.listSt q = .bad st))
  ∧ (∃ (s : State) (q : _), (s.opc q = 0x07) ∧ (s.cget q C.OP_ACTIVE = 1) ∧ ((s.qa q).phase = .ctl) ∧ (s.sqRuns q = true) ∧ (s.qenRuns = true) ∧ (s.listSt q = .here) ∧ (s.mcCheck q = none))
  ∧ (∃ (s : State) (q : _), (s.opc q = 0x08) ∧ ((s.qa q).step.on = true) ∧ ((s.qa q).atomMark = true) ∧ ((s.qa q).atomSent = false) ∧ (s.dev.mode.serving = true) ∧ (s.prl.unmirrored.any (fun i => i.q == q) = false)) :=
  ⟨⟨(stu
    |> fun s => (s.cput 0 C.OP_ACTIVE 1)
    |> fun s => ({ s with spl := { s.spl with rels := [({ path := 0, q := 0, off := 0, len := 64, est := 0, row := 1 } : Rel)] } })
    |> fun s => (s.setCtxW 0 8 0x05)), (0), (({ path := 0, q := 0, off := 0, len := 64, est := 0, row := 1 } : Rel)), (0), by decide +kernel, by decide +kernel, by decide +kernel, by decide +kernel⟩,
   ⟨(stu
    |> fun s => (s.cput 0 C.OP_ACTIVE 1)
    |> fun s => ({ s with spl := { s.spl with rels := [({ path := 0, q := 0, off := 0, len := 64, est := 0, row := 1 } : Rel)] } })
    |> fun s => (s.setCtxW 0 8 0x06)), (0), (({ path := 0, q := 0, off := 0, len := 64, est := 0, row := 1 } : Rel)), (0), by decide +kernel, by decide +kernel, by decide +kernel, by decide +kernel, by decide +kernel⟩,
   ⟨(stu
    |> fun s => (s.cput 0 C.OP_ACTIVE 1)
    |> fun s => ({ s with spl := { s.spl with rels := [({ path := 0, q := 0, off := 0, len := 64, est := 0, row := 1 } : Rel)] } })
    |> fun s => (s.setCtxW 0 8 0x07)), (0), (({ path := 0, q := 0, off := 0, len := 64, est := 0, row := 1 } : Rel)), (0), by decide +kernel, by decide +kernel, by decide +kernel, by decide +kernel, by decide +kernel⟩,
   ⟨(stu
    |> fun s => (s.cput 0 C.OP_ACTIVE 1)
    |> fun s => ({ s with spl := { s.spl with rels := [({ path := 0, q := 0, off := 0, len := 64, est := 0, row := 1 } : Rel)] } })
    |> fun s => (s.setCtxW 0 8 0x08)), (0), (({ path := 0, q := 0, off := 0, len := 64, est := 0, row := 1 } : Rel)), (0), by decide +kernel, by decide +kernel, by decide +kernel, by decide +kernel, by decide +kernel⟩,
   ⟨(stu
    |> fun s => (s.setCtxW 0 8 0x07)
    |> fun s => (s.cput 0 C.OP_ACTIVE 1)
    |> fun s => (s.setQa 0 { s.qa 0 with phase := .ctl })
    |> fun s => (s.cput 0 C.STATE 1)
    |> fun s => (s.put F.QEN_CTL_ENABLE 1)), (0), by decide +kernel, by decide +kernel, by decide +kernel, by decide +kernel, by decide +kernel, by decide +kernel⟩,
   ⟨(stu
    |> fun s => (s.setCtxW 0 8 0x07)
    |> fun s => (s.cput 0 C.OP_ACTIVE 1)
    |> fun s => (s.setQa 0 { s.qa 0 with phase := .ctl })
    |> fun s => (s.cput 0 C.STATE 1)
    |> fun s => (s.put F.QEN_CTL_ENABLE 1)
    |> fun s => (s.setQa 0 { s.qa 0 with listAns := some .xlate })), (0), (4), by decide +kernel, by decide +kernel, by decide +kernel, by decide +kernel, by decide +kernel, by decide +kernel⟩,
   ⟨(stu
    |> fun s => (s.setCtxW 0 8 0x07)
    |> fun s => (s.cput 0 C.OP_ACTIVE 1)
    |> fun s => (s.setQa 0 { s.qa 0 with phase := .ctl })
    |> fun s => (s.cput 0 C.STATE 1)
    |> fun s => (s.put F.QEN_CTL_ENABLE 1)
    |> fun s => (s.setQa 0 { s.qa 0 with listAns := some .ok })), (0), by decide +kernel, by decide +kernel, by decide +kernel, by decide +kernel, by decide +kernel, by decide +kernel, by decide +kernel⟩,
   ⟨(stu
    |> fun s => (s.setCtxW 0 8 0x08)
    |> fun s => (s.setQa 0 { s.qa 0 with atomMark := true })
    |> fun s => (s.setQa 0 { s.qa 0 with atomSent := false })
    |> fun s => (s.setQa 0 { s.qa 0 with step := { on := true } })), (0), by decide +kernel, by decide +kernel, by decide +kernel, by decide +kernel, by decide +kernel, by decide +kernel⟩⟩

theorem wit_ControlOpResults_1 :
  (∃ (s : State) (q : _) (st : _), (s.ctlReady 0x09 q = true) ∧ (s.wxlWaits (s.cget q C.ENV) = false) ∧ (s.fencePort q = some st))
  ∧ (∃ (s : State) (q : _), (s.ctlReady 0x09 q = true) ∧ (s.wxlWaits (s.cget q C.ENV) = false) ∧ (s.fencePort q = none) ∧ (s.df q 0 16 1 = 0))
  ∧ (∃ (s : State) (q : _), (s.ctlWaits 0x09 q = true) ∧ (((fenceFlush q s).qa q).fenceLines = []) ∧ (((fenceFlush q s).qa q).fence = []))
  ∧ (∃ (s : State) (q : _) (st : _), (s.ctlReady 0x0A q = true) ∧ (s.notifyCheck q = some st))
  ∧ (∃ (s : State) (q : _), (s.ctlReady 0x0A q = true) ∧ (s.notifyCheck q = none) ∧ (s.df q 0 8 1 = 1))
  ∧ (∃ (s : State) (q : _), (s.ctlReady 0x0A q = true) ∧ (s.notifyCheck q = none) ∧ (s.df q 0 8 1 = 0) ∧ (s.ownWrites q = false))
  ∧ (∃ (s : State) (q : _), (s.ctlReady 0x0B q = true))
  ∧ ((∃ (s : State) (q : Nat), s.ctlReady 0x0B q = false ∧ s.ctlWaits 0x0B q = true ∧ s.wxl.xlWaits = [] ∧ s.listSt q = .here ∧ s.xlCheck q = none) ∧ ∃ (s : State) (q st : Nat), s.ctlReady 0x0B q = false ∧ s.ctlWaits 0x0B q = true ∧ s.wxl.xlWaits = [] ∧ s.listSt q = .here ∧ s.xlCheck q = some st) :=
  ⟨⟨(stu
    |> fun s => (((s.setCtxW 0 8 0x09).cput 0 C.OP_ACTIVE 1).cput 0 C.STATE 1)
    |> fun s => (s.setQa 0 { s.qa 0 with phase := .released })
    |> fun s => ({ (s.setCtxW 0 8 0x109) with wxl := { s.wxl with fenced := [0] } })), (0), (6), by decide +kernel, by decide +kernel, by decide +kernel⟩,
   ⟨(stu
    |> fun s => (((s.setCtxW 0 8 0x09).cput 0 C.OP_ACTIVE 1).cput 0 C.STATE 1)
    |> fun s => (s.setQa 0 { s.qa 0 with phase := .released })), (0), by decide +kernel, by decide +kernel, by decide +kernel, by decide +kernel⟩,
   ⟨(stu
    |> fun s => (((s.setCtxW 0 8 0x09).cput 0 C.OP_ACTIVE 1).cput 0 C.STATE 1)
    |> fun s => (s.setQa 0 { s.qa 0 with phase := .ctl })), (0), by decide +kernel, by decide +kernel, by decide +kernel⟩,
   ⟨(stu
    |> fun s => (((s.setCtxW 0 8 0x0A).cput 0 C.OP_ACTIVE 1).cput 0 C.STATE 1)
    |> fun s => (s.setQa 0 { s.qa 0 with phase := .released })
    |> fun s => (s.cput 0 C.ENV 5)), (0), (3), by decide +kernel, by decide +kernel⟩,
   ⟨(stu
    |> fun s => (((s.setCtxW 0 8 0x0A).cput 0 C.OP_ACTIVE 1).cput 0 C.STATE 1)
    |> fun s => (s.setQa 0 { s.qa 0 with phase := .released })
    |> fun s => (s.setCtxW 0 8 0x10A)), (0), by decide +kernel, by decide +kernel, by decide +kernel⟩,
   ⟨(stu
    |> fun s => (((s.setCtxW 0 8 0x0A).cput 0 C.OP_ACTIVE 1).cput 0 C.STATE 1)
    |> fun s => (s.setQa 0 { s.qa 0 with phase := .released })), (0), by decide +kernel, by decide +kernel, by decide +kernel, by decide +kernel⟩,
   ⟨(stu
    |> fun s => (((s.setCtxW 0 8 0x0B).cput 0 C.OP_ACTIVE 1).cput 0 C.STATE 1)
    |> fun s => (s.setQa 0 { s.qa 0 with phase := .released })), (0), by decide +kernel⟩,
   ⟨⟨((((stu.setCtxW 0 8 0x0B).cput 0 C.OP_ACTIVE 1).cput 0 C.STATE 1).setQa 0 { phase := .ctl, listAns := some .ok }), 0, by decide +kernel⟩, ⟨((((stu.setCtxW 0 8 0x10B).cput 0 C.OP_ACTIVE 1).cput 0 C.STATE 1).setQa 0 { phase := .ctl, listAns := some .ok }), 0, 0x0B, by decide +kernel⟩⟩⟩

theorem wit_ControlOpResults_2 :
  ((∃ (s : State) (q : Nat), s.ctlReady 0x0C q = true ∧ s.abortCheck q = none) ∧ ∃ (s : State) (q st : Nat), s.ctlReady 0x0C q = true ∧ s.abortCheck q = some st)
  ∧ (∃ (s : State) (q : _), (s.ctlReady 0x0D q = true))
  ∧ (∃ (s : State) (q : _), (s.ctlReady 0x0D q = false) ∧ (s.ctlWaits 0x0D q = true) ∧ (s.listSt q = .here) ∧ ((s.pfList q).any (fun e => e.2 != 0) = true))
  ∧ (∃ (s : State) (q : _), (s.ctlReady 0x0D q = false) ∧ (s.ctlWaits 0x0D q = true) ∧ (s.listSt q = .here) ∧ (s.pfList q = []) ∧ ((s.qa q).asked = true) ∧ ((s.qa q).loads = []))
  ∧ ((∃ (s : State) (q : Nat), s.ctlReady 0x0E q = true ∧ s.callCheck q = none) ∧ ∃ (s : State) (q st : Nat), s.ctlReady 0x0E q = true ∧ s.callCheck q = some st)
  ∧ (∃ (s : State) (q : _), (s.ctlReady 0x0F q = true))
  ∧ (∃ (s : State) (q : _), (s.ctlReady 0x0F q = false)) :=
  ⟨⟨⟨((((((stu.setCtxW 0 8 0x0C).setCtxW 0 9 1).cput 0 C.OP_ACTIVE 1).cput 0 C.STATE 1).setQa 0 { phase := .released }).cput 1 C.OP_ACTIVE 1), 0, by decide +kernel⟩, ⟨((((((stu.setCtxW 0 8 0x0C).setCtxW 0 9 1).cput 0 C.OP_ACTIVE 1).cput 0 C.STATE 1).setQa 0 { phase := .released }).cput 1 C.ENV 3), 0, 3, by decide +kernel⟩⟩,
   ⟨(stu
    |> fun s => (((s.setCtxW 0 8 0x0D).cput 0 C.OP_ACTIVE 1).cput 0 C.STATE 1)
    |> fun s => (s.setQa 0 { s.qa 0 with phase := .released })), (0), by decide +kernel⟩,
   ⟨(stu
    |> fun s => (((s.setCtxW 0 8 0x0D).cput 0 C.OP_ACTIVE 1).cput 0 C.STATE 1)
    |> fun s => (s.setQa 0 { s.qa 0 with phase := .ctl })
    |> fun s => ((s.setCtxW 0 8 0x1000D).setQa 0 { s.qa 0 with phase := .ctl, listAns := some .ok, list := [0, 0, 0, 0x40] })), (0), by decide +kernel, by decide +kernel, by decide +kernel, by decide +kernel⟩,
   ⟨(stu
    |> fun s => (((s.setCtxW 0 8 0x0D).cput 0 C.OP_ACTIVE 1).cput 0 C.STATE 1)
    |> fun s => (s.setQa 0 { s.qa 0 with phase := .ctl })
    |> fun s => (s.setQa 0 { s.qa 0 with asked := true })
    |> fun s => (s.setQa 0 { s.qa 0 with loads := [] })
    |> fun s => (s.setQa 0 { s.qa 0 with phase := .ctl, listAns := some .ok })), (0), by decide +kernel, by decide +kernel, by decide +kernel, by decide +kernel, by decide +kernel, by decide +kernel⟩,
   ⟨⟨(((((stu.setCtxW 0 8 0x70E).cput 0 C.OP_ACTIVE 1).cput 0 C.STATE 1).setQa 0 { phase := .released }).put (F.GDC_CORE_STS_STATE 7) 1), 0, by decide +kernel⟩, ⟨((((stu.setCtxW 0 8 0x70E).cput 0 C.OP_ACTIVE 1).cput 0 C.STATE 1).setQa 0 { phase := .released }), 0, 2, by decide +kernel⟩⟩,
   ⟨(stu
    |> fun s => (((s.setCtxW 0 8 0x0F).cput 0 C.OP_ACTIVE 1).cput 0 C.STATE 1)
    |> fun s => (s.setQa 0 { s.qa 0 with phase := .released })), (0), by decide +kernel⟩,
   ⟨(stu), (0), by decide +kernel⟩⟩

theorem wit_BlockEnableResults_1 :
  (∃ (s : State) (a : Agent) (v : Word) (r : _), (s.Takes a .pwr R.PWR_CTL r (withField v 0 1 1)) ∧ (fieldOf (s.reg R.PWR_CTL) 0 1 = 0))
  ∧ (∃ (s : State) (a : Agent) (v : Word) (r : _), (s.Takes a .wxl R.WXL_CTL r (withField v 0 1 1)) ∧ (fieldOf (s.reg R.WXL_CTL) 0 1 = 0))
  ∧ (∃ (s : State) (a : Agent) (v : Word) (r : _), (s.Takes a .qen R.QEN_CTL r (withField v 0 1 1)) ∧ (fieldOf (s.reg R.QEN_CTL) 0 1 = 0))
  ∧ (∃ (s : State) (a : Agent) (v : Word) (r : _), (s.Takes a .icu R.ICU_CTL r (withField v 0 1 1)) ∧ (fieldOf (s.reg R.ICU_CTL) 0 1 = 0))
  ∧ (∃ (s : State) (a : Agent) (v : Word) (r : RegDef), (s.Takes a .hbm Blk.hbm.base r (withField v 0 1 1)) ∧ (fieldOf (s.reg Blk.hbm.base) 0 1 = 0))
  ∧ (∃ (s : State) (a : Agent) (v : Word) (r : _), (s.Takes a .hep R.HEP_CTL r (withField v 0 1 1)) ∧ (fieldOf (s.reg R.HEP_CTL) 0 1 = 0) ∧ (fieldOf (withField v 0 1 1) 1 1 = 0)) :=
  ⟨⟨(stu), (.pf0), (0), (regAt (stu) R.PWR_CTL), takes_of (by decide +kernel), by decide +kernel⟩,
   ⟨(stu), (.pf0), (0), (regAt (stu) R.WXL_CTL), takes_of (by decide +kernel), by decide +kernel⟩,
   ⟨(stu), (.pf0), (0), (regAt (stu) R.QEN_CTL), takes_of (by decide +kernel), by decide +kernel⟩,
   ⟨(stu), (.pf0), (0), (regAt (stu) R.ICU_CTL), takes_of (by decide +kernel), by decide +kernel⟩,
   ⟨(stu), (.pf0), (0), ((regAt stu Blk.hbm.base)), takes_of (by decide +kernel), by decide +kernel⟩,
   ⟨(stu), (.pf0), (0), (regAt (stu) R.HEP_CTL), takes_of (by decide +kernel), by decide +kernel, by decide +kernel⟩⟩

theorem wit_BlockEnableResults_2 :
  (∃ (s : State) (a : Agent) (v : Word) (r : _), (s.Takes a .gdc R.GDC_CTL r v) ∧ (fieldOf (s.reg R.GDC_CTL) 0 1 = 0) ∧ (fieldOf v 0 1 = 1))
  ∧ (∃ (s : State) (a : Agent) (v : Word) (r : _), (s.Takes a .spl R.SPL_CTL r (withField v 0 1 1)) ∧ (fieldOf (s.reg R.SPL_CTL) 0 1 = 0) ∧ (fieldOf (withField v 0 1 1) 2 1 = fieldOf (s.reg R.SPL_CTL) 2 1) ∧ (fieldOf (withField v 0 1 1) 3 1 = 0))
  ∧ (∃ (s : State) (a : Agent) (v : Word) (r : _), (s.Takes a .swc R.SWC_CTL r (withField v 0 1 1)) ∧ (fieldOf (s.reg R.SWC_CTL) 0 1 = 0) ∧ (fieldOf (withField v 0 1 1) 1 1 = fieldOf (s.reg R.SWC_CTL) 1 1))
  ∧ (∃ (s : State) (a : Agent) (v : Word) (r : _), (s.Takes a .swc R.SWC_CTL r v) ∧ (fieldOf v 0 1 = fieldOf (s.reg R.SWC_CTL) 0 1) ∧ (fieldOf (s.reg R.SWC_CTL) 1 1 = 0) ∧ (fieldOf v 1 1 = 1)) :=
  ⟨⟨(stu), (.pf0), (0x1), (regAt (stu) R.GDC_CTL), takes_of (by decide +kernel), by decide +kernel, by decide +kernel⟩,
   ⟨(stu), (.pf0), (0), (regAt (stu) R.SPL_CTL), takes_of (by decide +kernel), by decide +kernel, by decide +kernel, by decide +kernel⟩,
   ⟨(stu), (.pf0), (0), (regAt (stu) R.SWC_CTL), takes_of (by decide +kernel), by decide +kernel, by decide +kernel⟩,
   ⟨(stu), (.pf0), (0x2), (regAt (stu) R.SWC_CTL), takes_of (by decide +kernel), by decide +kernel, by decide +kernel, by decide +kernel⟩⟩

theorem wit_IndexedEnableResults_1 :
  (∃ (s : State) (a : Agent) (v : Word) (r : _), (s.Takes a .prl R.PRL_CTL r (withField v 0 1 1)) ∧ (fieldOf (s.reg R.PRL_CTL) 0 1 = 0) ∧ (fieldOf (withField v 0 1 1) 1 1 = 0) ∧ (fieldOf (withField v 0 1 1) 3 1 = 0) ∧ (fieldOf (withField v 0 1 1) 4 1 = 0) ∧ (fieldOf (withField v 0 1 1) 2 1 = fieldOf (s.reg R.PRL_CTL) 2 1))
  ∧ (∃ (s : State) (a : Agent) (v : Word) (r : _), (s.Takes a .prl R.PRL_CTL r v) ∧ (fieldOf v 1 1 = 0) ∧ (fieldOf v 3 1 = 0) ∧ (fieldOf v 4 1 = 0) ∧ (fieldOf v 0 1 = fieldOf (s.reg R.PRL_CTL) 0 1) ∧ (fieldOf (s.reg R.PRL_CTL) 2 1 = 0) ∧ (fieldOf v 2 1 = 1) ∧ ((s.stored .prl R.PRL_CTL r v).flits 6 = false)) :=
  ⟨⟨(stu), (.pf0), (0), (regAt (stu) R.PRL_CTL), takes_of (by decide +kernel), by decide +kernel, by decide +kernel, by decide +kernel, by decide +kernel, by decide +kernel⟩,
   ⟨(stu), (.pf0), (0x4), (regAt (stu) R.PRL_CTL), takes_of (by decide +kernel), by decide +kernel, by decide +kernel, by decide +kernel, by decide +kernel, by decide +kernel, by decide +kernel, by decide +kernel⟩⟩

theorem wit_IndexedEnableResults_2 :
  (∃ (s : State) (a : Agent) (w : Nat) (v : Word) (r : RegDef), w < 4096 ∧ s.Takes a .wxl (R.WXL_IWIN_CTL w) r v ∧ fieldOf (s.reg (R.WXL_IWIN_CTL w)) 0 1 = 0 ∧ fieldOf v 0 1 = 1)
  ∧ (∃ (s : State) (a : Agent) (m : Nat) (v : Word) (r : _), (m < 4096) ∧ (s.Takes a .wxl (R.WXL_OWIN_CTL m) r v) ∧ (fieldOf (s.reg (R.WXL_OWIN_CTL m)) 0 1 = 0) ∧ (fieldOf v 0 1 = 1)) :=
  ⟨⟨(stu.put F.WXL_CTL_ENABLE 1).put (F.WXL_IWIN_CTL_MODE 4095) 1, .pf0, 4095, 1, _, by decide +kernel, takes_of (show takesB ((stu.put F.WXL_CTL_ENABLE 1).put (F.WXL_IWIN_CTL_MODE 4095) 1) .pf0 .wxl (R.WXL_IWIN_CTL 4095) 1 = true by decide +kernel), by decide +kernel, by decide +kernel⟩,
   ⟨(stu
    |> fun s => (s.put F.WXL_CTL_ENABLE 1)), (.pf0), (4095), (0x1), (regAt (stu
    |> fun s => (s.put F.WXL_CTL_ENABLE 1)) (R.WXL_OWIN_CTL 4095)), by decide +kernel, takes_of (by decide +kernel), by decide +kernel, by decide +kernel⟩⟩

theorem wit_IndexedEnableResults_3 :
  (∃ (s : State) (a : Agent) (g : Nat) (v : Word) (r : _), (g < 8192) ∧ (s.Takes a .wxl (R.WXL_ERNG_CTL g) r v) ∧ (fieldOf (s.reg (R.WXL_ERNG_CTL g)) 0 1 = 0) ∧ (fieldOf v 0 1 = 1))
  ∧ (∃ (s : State) (a : Agent) (n : Nat) (v : Word) (r : _), (n < 1024) ∧ (s.Takes a .icu (R.ICU_SRC_CFG n) r v) ∧ (fieldOf (s.reg (R.ICU_SRC_CFG n)) 0 1 = 0) ∧ (fieldOf v 0 1 = 1)) :=
  ⟨⟨(stu
    |> fun s => (s.put F.WXL_CTL_ENABLE 1)), (.pf0), (8191), (0x1), (regAt (stu
    |> fun s => (s.put F.WXL_CTL_ENABLE 1)) (R.WXL_ERNG_CTL 8191)), by decide +kernel, takes_of (by decide +kernel), by decide +kernel, by decide +kernel⟩,
   ⟨(stu
    |> fun s => (s.put F.ICU_CTL_ENABLE 1)), (.pf0), (1023), (0x1), (regAt (stu
    |> fun s => (s.put F.ICU_CTL_ENABLE 1)) (R.ICU_SRC_CFG 1023)), by decide +kernel, takes_of (by decide +kernel), by decide +kernel, by decide +kernel⟩⟩

theorem wit_IndexedEnableResults_4 :
  (∃ (s : State) (a : Agent) (c : Nat) (v : Word) (r : _), (c < 8) ∧ (s.Takes a .gdc (R.GDC_CORE_CTL c) r v) ∧ (fieldOf (s.reg (R.GDC_CORE_CTL c)) 0 1 = 0) ∧ (fieldOf v 0 1 = 1) ∧ (fieldOf v 1 1 = 0))
  ∧ (∃ (s : State) (a : Agent) (p : Nat) (v : Word) (r : _), (p < 6) ∧ (s.Takes a (.lp p) (R.LPn_CTL p) r v) ∧ (fieldOf (s.reg (R.LPn_CTL p)) 0 1 = 0) ∧ (fieldOf v 0 1 = 1) ∧ (fieldOf v 1 1 = fieldOf (s.reg (R.LPn_CTL p)) 1 1)) :=
  ⟨⟨(stu
    |> fun s => (s.put F.GDC_CTL_ENABLE 1)), (.pf0), (7), (0x100000001), (regAt (stu
    |> fun s => (s.put F.GDC_CTL_ENABLE 1)) (R.GDC_CORE_CTL 7)), by decide +kernel, takes_of (by decide +kernel), by decide +kernel, by decide +kernel, by decide +kernel⟩,
   ⟨(stu), (.pf0), (5), (0x1), (regAt (stu) (R.LPn_CTL 5)), by decide +kernel, takes_of (by decide +kernel), by decide +kernel, by decide +kernel, by decide +kernel⟩⟩

theorem wit_IndexedEnableResults_5 :
  ∃ (s : State) (a : Agent) (e : Nat) (v : Word) (r : _), (e < 1024) ∧ (s.Takes a .spl (R.ENV_CFG e) r (withField v 0 1 1)) ∧ (fieldOf (s.reg (R.ENV_CFG e)) 0 1 = 0) :=
  ⟨(stu), (.pf0), (1023), (0x0010000000000000), (regAt (stu) (R.ENV_CFG 1023)), by decide +kernel, takes_of (by decide +kernel), by decide +kernel⟩

theorem wit_CommandRegisterResults_1 :
  (∃ (s : State) (a : Agent) (v : Word) (r : _), (s.Takes a .img R.IMG_CTL r (withField v 8 2 1)))
  ∧ (∃ (s : State) (a : Agent) (v : Word) (r : _), (s.Takes a .img R.IMG_CTL r (withField v 8 2 2)))
  ∧ (∃ (s : State) (a : Agent) (v : Word) (r : _), (s.Takes a .img R.IMG_CTL r (withField v 8 2 3)))
  ∧ (∃ (s : State) (a : Agent) (v : Word) (r : _), (s.Takes a .hep R.HEP_CTL r (withField v 1 1 1)) ∧ (fieldOf (s.reg R.HEP_CTL) 1 1 = 0) ∧ (fieldOf (withField v 1 1 1) 0 1 = fieldOf (s.reg R.HEP_CTL) 0 1))
  ∧ (∃ (s : State) (a : Agent) (v : Word) (r : _), (s.Takes a .wxl R.WXL_TC_INV r (withField v 63 1 1)))
  ∧ (∃ (s : State) (a : Agent) (v : Word) (r : _), (s.Takes a .wxl R.WXL_PC_FLUSH r (withField (withField v 11 2 1) 63 1 1))) :=
  ⟨⟨(stu), (.pf0), (0), (regAt (stu) R.IMG_CTL), takes_of (by decide +kernel)⟩,
   ⟨(stu), (.pf0), (0), (regAt (stu) R.IMG_CTL), takes_of (by decide +kernel)⟩,
   ⟨(stu), (.pf0), (0), (regAt (stu) R.IMG_CTL), takes_of (by decide +kernel)⟩,
   ⟨(stu), (.pf0), (0), (regAt (stu) R.HEP_CTL), takes_of (by decide +kernel), by decide +kernel, by decide +kernel⟩,
   ⟨(stu), (.pf0), (0), (regAt (stu) R.WXL_TC_INV), takes_of (by decide +kernel)⟩,
   ⟨(stu), (.pf0), (0), (regAt (stu) R.WXL_PC_FLUSH), takes_of (by decide +kernel)⟩⟩

theorem wit_CommandRegisterResults_2 :
  (∃ (s : State) (a : Agent) (v : Word) (r : _), (s.Takes a .wxl R.WXL_PC_FLUSH r (withField (withField v 11 2 2) 63 1 1)))
  ∧ (∃ (s : State) (a : Agent) (v : Word) (r : _), (s.Takes a .wxl R.WXL_SEDISCARD_STS r (v ||| BitVec.ofNat 64 (2 ^ F.WXL_SEDISCARD_STS_CLEAR.lo))))
  ∧ (∃ (s : State) (a : Agent) (v : Word) (r : _), (s.Takes a .wxl R.WXL_PF_CFG r v))
  ∧ (∃ (s : State) (a : Agent) (p : Nat) (v : Word) (r : _), (p < 11) ∧ (s.Takes a .swc (R.SWC_TAIL_SEL p) r v))
  ∧ (∃ (s : State) (a : Agent) (v : Word) (r : _), (s.Takes a .spl R.SPL_STEP r v) ∧ (s.is F.SPL_CTL_ENABLE = false))
  ∧ (∃ (s : State) (a : Agent) (v : Word) (r : _), (s.Takes a .spl R.SPL_STEP r v) ∧ (s.is F.SPL_CTL_ENABLE = true)) :=
  ⟨⟨(stu), (.pf0), (0), (regAt (stu) R.WXL_PC_FLUSH), takes_of (by decide +kernel)⟩,
   ⟨(stu), (.pf0), (0), (regAt (stu) R.WXL_SEDISCARD_STS), takes_of (by decide +kernel)⟩,
   ⟨(stu), (.pf0), (0x40640840), (regAt (stu) R.WXL_PF_CFG), takes_of (by decide +kernel)⟩,
   ⟨(stu), (.pf0), (10), (0), (regAt (stu) (R.SWC_TAIL_SEL 10)), by decide +kernel, takes_of (by decide +kernel)⟩,
   ⟨(stu
    |> fun s => (s.put F.SPL_CTL_ENABLE 0)), (.pf0), (0), (regAt (stu
    |> fun s => (s.put F.SPL_CTL_ENABLE 0)) R.SPL_STEP), takes_of (by decide +kernel), by decide +kernel⟩,
   ⟨(stu
    |> fun s => (s.put F.SPL_CTL_ENABLE 1)), (.pf0), (0), (regAt (stu
    |> fun s => (s.put F.SPL_CTL_ENABLE 1)) R.SPL_STEP), takes_of (by decide +kernel), by decide +kernel⟩⟩

theorem wit_CommandRegisterResults_3 :
  (∃ (s : State) (a : Agent) (v : Word) (r : _), (s.Takes a .spl R.SPL_CTL r v) ∧ (fieldOf v 0 1 = fieldOf (s.reg R.SPL_CTL) 0 1) ∧ (fieldOf (s.reg R.SPL_CTL) 2 1 = 0) ∧ (fieldOf v 2 1 = 1) ∧ (fieldOf v 3 1 = 0))
  ∧ (∃ (s : State) (a : Agent) (v : Word) (r : _), (s.Takes a .spl R.SPL_CTL r (withField v 3 1 1)) ∧ (fieldOf (withField v 3 1 1) 0 1 = fieldOf (s.reg R.SPL_CTL) 0 1) ∧ (fieldOf (withField v 3 1 1) 2 1 = fieldOf (s.reg R.SPL_CTL) 2 1)) :=
  ⟨⟨(stu), (.pf0), (0x4), (regAt (stu) R.SPL_CTL), takes_of (by decide +kernel), by decide +kernel, by decide +kernel, by decide +kernel, by decide +kernel⟩,
   ⟨(stu), (.pf0), (0), (regAt (stu) R.SPL_CTL), takes_of (by decide +kernel), by decide +kernel, by decide +kernel⟩⟩

theorem wit_EnvelopeSourceCoreResults_1 :
  (∃ (s : State) (a : Agent) (e : Nat) (v : Word) (r : _), (e < 1024) ∧ (s.Takes a .spl (R.ENV_CFG e) r (withField v 0 1 0)) ∧ (fieldOf (s.reg (R.ENV_CFG e)) 0 1 = 1))
  ∧ (∃ (s : State) (a : Agent) (e : Nat) (v : Word) (r : _), (e < 1024) ∧ (s.Takes a .spl (R.ENV_CFG e) r v) ∧ (fieldOf (s.reg (R.ENV_CFG e)) 0 1 = 0) ∧ (fieldOf v 0 1 = 0))
  ∧ (∃ (s : State) (a : Agent) (i : Nat) (v : Word) (r : _), (i < 1024) ∧ (s.Takes a .spl (R.ENV_QBLK i) r v)) :=
  ⟨⟨(stu
    |> fun s => (s.put (F.ENV_CFG_DEFINE 1023) 1)), (.pf0), (1023), (0x0010000000000000), (regAt (stu
    |> fun s => (s.put (F.ENV_CFG_DEFINE 1023) 1)) (R.ENV_CFG 1023)), by decide +kernel, takes_of (by decide +kernel), by decide +kernel⟩,
   ⟨(stu), (.pf0), (1023), (0x0010000000000000), (regAt (stu) (R.ENV_CFG 1023)), by decide +kernel, takes_of (by decide +kernel), by decide +kernel, by decide +kernel⟩,
   ⟨(stu), (.pf0), (1023), (0), (regAt (stu) (R.ENV_QBLK 1023)), by decide +kernel, takes_of (by decide +kernel)⟩⟩

theorem wit_EnvelopeSourceCoreResults_2 :
  (∃ (s : State) (a : Agent) (v : Word) (r : _), (s.Takes a .icu R.ICU_SWI r v))
  ∧ (∃ (s : State) (a : Agent) (n : Nat) (v : Word) (r : _), (n < 1024) ∧ (s.Takes a .icu (R.ICU_SRC_CFG n) r v) ∧ (fieldOf v 0 1 = fieldOf (s.reg (R.ICU_SRC_CFG n)) 0 1))
  ∧ (∃ (s : State) (a : Agent) (c : Nat) (n : Nat) (r : _), (c < 8) ∧ (s.Takes a .icu (R.ICU_COMPLETE c) r (BitVec.ofNat 64 (n % 2 ^ 11)))) :=
  ⟨⟨(stu), (.pf0), (0), (regAt (stu) R.ICU_SWI), takes_of (by decide +kernel)⟩,
   ⟨(stu), (.pf0), (1023), (0x0), (regAt (stu) (R.ICU_SRC_CFG 1023)), by decide +kernel, takes_of (by decide +kernel), by decide +kernel⟩,
   ⟨(stu), (.pf0), (7), (0), (regAt (stu) (R.ICU_COMPLETE 7)), by decide +kernel, takes_of (by decide +kernel)⟩⟩

theorem wit_EnvelopeSourceCoreResults_3 :
  (∃ (s : State) (a : Agent) (c : Nat) (v : Word) (r : _), (c < 8) ∧ (s.Takes a .gdc (R.GDC_CORE_CTL c) r (withField v 1 1 1)) ∧ (fieldOf (withField v 1 1 1) 0 1 = fieldOf (s.reg (R.GDC_CORE_CTL c)) 0 1) ∧ ((s.stored .gdc (R.GDC_CORE_CTL c) r (withField v 1 1 1)).get (F.GDC_CORE_STS_STATE c) = 1))
  ∧ (∃ (s : State) (a : Agent) (v : Word) (r : _), (s.Takes a .gdc R.GDC_LOAD_CTL r (withField v 4 2 1)))
  ∧ (∃ (s : State) (a : Agent) (v : Word) (r : _), (s.Takes a .gdc R.GDC_LOAD_CTL r (withField v 4 2 2))) :=
  ⟨⟨(stu
    |> fun s => ((s.put (F.GDC_CORE_STS_STATE 7) 1).setReg (R.GDC_CORE_CTL 7) 0x100000001)), (.pf0), (7), (0x100000001), (regAt (stu
    |> fun s => ((s.put (F.GDC_CORE_STS_STATE 7) 1).setReg (R.GDC_CORE_CTL 7) 0x100000001)) (R.GDC_CORE_CTL 7)), by decide +kernel, takes_of (by decide +kernel), by decide +kernel, by decide +kernel⟩,
   ⟨(stu), (.pf0), (0), (regAt (stu) R.GDC_LOAD_CTL), takes_of (by decide +kernel)⟩,
   ⟨(stu
    |> fun s => (s.put F.GDC_LOAD_CTL_ACTIVE 1)), (.pf0), (0), (regAt (stu
    |> fun s => (s.put F.GDC_LOAD_CTL_ACTIVE 1)) R.GDC_LOAD_CTL), takes_of (by decide +kernel)⟩⟩

theorem wit_EnvelopeSourceCoreResults_4 :
  (∃ (s : State) (a : Agent) (v : Word) (r : _), (s.Takes a .gdc R.GDC_LOAD_CTL r (withField v 4 2 3)))
  ∧ (∃ (s : State) (a : Agent) (v : Word) (r : _), (s.Takes a .gdc R.GDC_LOAD_DATA r v)) :=
  ⟨⟨(stu
    |> fun s => (s.put F.GDC_LOAD_CTL_ACTIVE 1)), (.pf0), (0), (regAt (stu
    |> fun s => (s.put F.GDC_LOAD_CTL_ACTIVE 1)) R.GDC_LOAD_CTL), takes_of (by decide +kernel)⟩,
   ⟨(stu
    |> fun s => ((s.put F.GDC_LOAD_CTL_ACTIVE 1))), (.pf0), (0), (regAt (stu
    |> fun s => ((s.put F.GDC_LOAD_CTL_ACTIVE 1))) R.GDC_LOAD_DATA), takes_of (by decide +kernel)⟩⟩

theorem wit_QueueCommandResults_1 :
  (∃ (s : State) (a : Agent) (k : Nat) (q : Nat) (r : _), (k < 9 ∧ q < 2 ^ 22) ∧ (s.Takes a .qen (R.QEN_QCMD k) r (BitVec.ofNat 64 (1 * 2 ^ 32 + q))))
  ∧ (∃ (s : State) (a : Agent) (k : Nat) (q : Nat) (r : _), (k < 9 ∧ q < 2 ^ 22) ∧ (s.Takes a .qen (R.QEN_QCMD k) r (BitVec.ofNat 64 (2 * 2 ^ 32 + q))))
  ∧ (∃ (s : State) (a : Agent) (k : Nat) (q : Nat) (r : _), (k < 9 ∧ q < 2 ^ 22) ∧ (s.Takes a .qen (R.QEN_QCMD k) r (BitVec.ofNat 64 (3 * 2 ^ 32 + q)))) :=
  ⟨⟨(stu), (.pf0), (0), (0), (regAt (stu) (R.QEN_QCMD 0)), by decide +kernel, takes_of (by decide +kernel)⟩,
   ⟨(stu), (.pf0), (0), (0), (regAt (stu) (R.QEN_QCMD 0)), by decide +kernel, takes_of (by decide +kernel)⟩,
   ⟨(stu), (.pf0), (0), (0), (regAt (stu) (R.QEN_QCMD 0)), by decide +kernel, takes_of (by decide +kernel)⟩⟩

theorem wit_QueueCommandResults_2 :
  (∃ (s : State) (a : Agent) (k : Nat) (q : Nat) (r : _), (k < 9 ∧ q < 2 ^ 22) ∧ (s.Takes a .qen (R.QEN_QCMD k) r (BitVec.ofNat 64 (4 * 2 ^ 32 + q))))
  ∧ (∃ (s : State) (a : Agent) (k : Nat) (q : Nat) (r : _), (k < 9 ∧ q < 2 ^ 22) ∧ (s.Takes a .qen (R.QEN_QCMD k) r (BitVec.ofNat 64 (5 * 2 ^ 32 + q))))
  ∧ (∃ (s : State) (a : Agent) (k : Nat) (q : Nat) (r : _), (k < 9 ∧ q < 2 ^ 22) ∧ (s.Takes a .qen (R.QEN_QCMD k) r (BitVec.ofNat 64 (6 * 2 ^ 32 + q)))) :=
  ⟨⟨(stu), (.pf0), (0), (0), (regAt (stu) (R.QEN_QCMD 0)), by decide +kernel, takes_of (by decide +kernel)⟩,
   ⟨(stu), (.pf0), (0), (0), (regAt (stu) (R.QEN_QCMD 0)), by decide +kernel, takes_of (by decide +kernel)⟩,
   ⟨(stu), (.pf0), (0), (0), (regAt (stu) (R.QEN_QCMD 0)), by decide +kernel, takes_of (by decide +kernel)⟩⟩

theorem wit_QueueCommandResults_3 :
  (∃ (s : State) (a : Agent) (k : Nat) (q : Nat) (r : _), (k < 9 ∧ q < 2 ^ 22) ∧ (s.Takes a .qen (R.QEN_QCMD k) r (BitVec.ofNat 64 (7 * 2 ^ 32 + q))))
  ∧ (∃ (s : State) (a : Agent) (k : Nat) (q : Nat) (r : _), (k < 9 ∧ q < 2 ^ 22) ∧ (s.Takes a .qen (R.QEN_QCMD k) r (BitVec.ofNat 64 (8 * 2 ^ 32 + q))))
  ∧ (∃ (s : State) (a : Agent) (k : Nat) (q : Nat) (r : _), (k < 9 ∧ q < 2 ^ 22) ∧ (s.Takes a .qen (R.QEN_QCMD k) r (BitVec.ofNat 64 (9 * 2 ^ 32 + q)))) :=
  ⟨⟨(stu), (.pf0), (0), (0), (regAt (stu) (R.QEN_QCMD 0)), by decide +kernel, takes_of (by decide +kernel)⟩,
   ⟨(stu), (.pf0), (0), (0), (regAt (stu) (R.QEN_QCMD 0)), by decide +kernel, takes_of (by decide +kernel)⟩,
   ⟨(stu), (.pf0), (0), (0), (regAt (stu) (R.QEN_QCMD 0)), by decide +kernel, takes_of (by decide +kernel)⟩⟩

theorem wit_PortCommandResults_1 :
  (∃ (s : State) (a : Agent) (p : Nat) (v : Word) (r : _), (p < 7) ∧ (s.Takes a (portBlk p) (R.LPn_LINK_CMD p) r (withField v 0 2 1)))
  ∧ (∃ (s : State) (a : Agent) (p : Nat) (v : Word) (r : _), (p < 7) ∧ (s.Takes a (portBlk p) (R.LPn_LINK_CMD p) r (withField v 0 2 2)))
  ∧ (∃ (s : State) (a : Agent) (p : Nat) (v : Word) (r : _), (p < 7) ∧ (s.Takes a (portBlk p) (R.LPn_LINK_CMD p) r (withField v 0 2 3)))
  ∧ (∃ (s : State) (a : Agent) (p : Nat) (v : Word) (r : _), (p < 6) ∧ (s.Takes a (.lp p) (R.LPn_CTL p) r (withField v 1 1 1)) ∧ (fieldOf (s.reg (R.LPn_CTL p)) 1 1 = 0) ∧ (fieldOf (withField v 1 1 1) 0 1 = fieldOf (s.reg (R.LPn_CTL p)) 0 1))
  ∧ (∃ (s : State) (a : Agent) (p : Nat) (v : Word) (r : _), (p < 6) ∧ (s.Takes a (.lp p) (R.LPn_SLOT_CTL p) r v))
  ∧ (∃ (s : State) (a : Agent) (p : Nat) (v : Word) (r : _), (p < 6) ∧ (s.Takes a (.lp p) (R.LPn_REARM p) r (withField v 0 1 1))) :=
  ⟨⟨(stu
    |> fun s => (s.put (F.LPn_LINK_STS_STATE 6) 3)), (.pf0), (6), (0), (regAt (stu
    |> fun s => (s.put (F.LPn_LINK_STS_STATE 6) 3)) (R.LPn_LINK_CMD 6)), by decide +kernel, takes_of (by decide +kernel)⟩,
   ⟨(stu
    |> fun s => (s.put (F.LPn_LINK_STS_STATE 6) 3)), (.pf0), (6), (0x1000), (regAt (stu
    |> fun s => (s.put (F.LPn_LINK_STS_STATE 6) 3)) (R.LPn_LINK_CMD 6)), by decide +kernel, takes_of (by decide +kernel)⟩,
   ⟨(stu), (.pf0), (6), (0), (regAt (stu) (R.LPn_LINK_CMD 6)), by decide +kernel, takes_of (by decide +kernel)⟩,
   ⟨(stu), (.pf0), (5), (0), (regAt (stu) (R.LPn_CTL 5)), by decide +kernel, takes_of (by decide +kernel), by decide +kernel, by decide +kernel⟩,
   ⟨(stu), (.pf0), (5), (0), (regAt (stu) (R.LPn_SLOT_CTL 5)), by decide +kernel, takes_of (by decide +kernel)⟩,
   ⟨(stu
    |> fun s => (s.put (F.LPn_REARM_FENCED 5) 1)), (.pf0), (5), (0), (regAt (stu
    |> fun s => (s.put (F.LPn_REARM_FENCED 5) 1)) (R.LPn_REARM 5)), by decide +kernel, takes_of (by decide +kernel)⟩⟩

theorem wit_PortCommandResults_2 :
  (∃ (s : State) (a : Agent) (p : Nat) (v : Word) (r : _), (p < 6) ∧ (s.Takes a (.lp p) (R.LPn_CFG_CMD p) r (withField v 33 1 1)))
  ∧ (∃ (s : State) (a : Agent) (p : Nat) (v : Word) (r : _), (p < 6) ∧ (s.Takes a (.lp p) (R.LPn_SB p) r v))
  ∧ (∃ (s : State) (a : Agent) (v : Word) (r : _), (s.Takes a .prl R.PRL_CTL r (withField v 3 1 1)) ∧ ((s.stored .prl R.PRL_CTL r (withField v 3 1 1)).paired = true) ∧ ((s.stored .prl R.PRL_CTL r (withField v 3 1 1)).owned ≠ []) ∧ (fieldOf (withField v 3 1 1) 1 1 = 0) ∧ (fieldOf (withField v 3 1 1) 0 1 = fieldOf (s.reg R.PRL_CTL) 0 1) ∧ (fieldOf (withField v 3 1 1) 2 1 = fieldOf (s.reg R.PRL_CTL) 2 1))
  ∧ (∃ (s : State) (a : Agent) (v : Word) (r : _), (s.Takes a .prl R.PRL_CTL r (withField v 3 2 2)) ∧ ((s.stored .prl R.PRL_CTL r (withField v 3 2 2)).paired = true) ∧ (((s.stored .prl R.PRL_CTL r (withField v 3 2 2)).owned.filter fun e => !(s.stored .prl R.PRL_CTL r (withField v 3 2 2)).isHome e) ≠ []) ∧ (fieldOf (withField v 3 2 2) 1 1 = 0) ∧ (fieldOf (withField v 3 2 2) 0 1 = fieldOf (s.reg R.PRL_CTL) 0 1) ∧ (fieldOf (withField v 3 2 2) 2 1 = fieldOf (s.reg R.PRL_CTL) 2 1)) :=
  ⟨⟨(stu), (.pf0), (5), (0), (regAt (stu) (R.LPn_CFG_CMD 5)), by decide +kernel, takes_of (by decide +kernel)⟩,
   ⟨(stu), (.pf0), (5), (0), (regAt (stu) (R.LPn_SB 5)), by decide +kernel, takes_of (by decide +kernel)⟩,
   ⟨(stu
    |> fun s => ((s.put F.PRL_PAIR_STS_STATE 2).setReg (R.PRL_OWN 0) 1)), (.pf0), (0), (regAt (stu
    |> fun s => ((s.put F.PRL_PAIR_STS_STATE 2).setReg (R.PRL_OWN 0) 1)) R.PRL_CTL), takes_of (by decide +kernel), by decide +kernel, by decide +kernel, by decide +kernel, by decide +kernel, by decide +kernel⟩,
   ⟨(stu
    |> fun s => (((s.put F.PRL_PAIR_STS_STATE 2).setReg (R.PRL_OWN 0) 1).setReg (R.PRL_HOME 0) 1)), (.pf0), (0), (regAt (stu
    |> fun s => (((s.put F.PRL_PAIR_STS_STATE 2).setReg (R.PRL_OWN 0) 1).setReg (R.PRL_HOME 0) 1)) R.PRL_CTL), takes_of (by decide +kernel), by decide +kernel, by decide +kernel, by decide +kernel, by decide +kernel, by decide +kernel⟩⟩

theorem wit_SpoolResults :
  (∃ (s : State), (s.dev.up = true) ∧ (s.is F.SPL_CTL_ENABLE = true))
  ∧ (∃ (s : State), (s.is F.CLK_STS_ROOT_LOCK = true) ∧ (s.is F.PWR_CTL_ENABLE = false))
  ∧ (∃ (s : State), (s.is F.CLK_STS_ROOT_LOCK = true) ∧ (s.is F.PWR_CTL_ENABLE = true))
  ∧ (∃ (s : State), (1000 ≤ s.spl.samples.length) ∧ (s.get F.SPL_CAL_STATE_STATE = 2))
  ∧ (∃ (s : State), (1000 ≤ s.spl.samples.length) ∧ (s.get F.SPL_CAL_STATE_STATE ≠ 2) ∧ (calNarrow s.spl.samples = true))
  ∧ (∃ (s : State) (kn : Int) (kd : Int) (bn : Int) (bd : Int), (1000 ≤ s.spl.samples.length) ∧ (s.get F.SPL_CAL_STATE_STATE = 0) ∧ (calNarrow s.spl.samples = false) ∧ (calFit s = (kn, kd, bn, bd)) ∧ (2 * kn < kd ∨ 2 * kd < kn))
  ∧ (∃ (s : State) (kn : Int) (kd : Int) (bn : Int) (bd : Int), (1000 ≤ s.spl.samples.length) ∧ (s.get F.SPL_CAL_STATE_STATE = 0) ∧ (calNarrow s.spl.samples = false) ∧ (calFit s = (kn, kd, bn, bd)) ∧ (kd ≤ 2 * kn) ∧ (kn ≤ 2 * kd))
  ∧ (∃ (s : State) (kn : Int) (kd : Int) (bn : Int) (bd : Int), (1000 ≤ s.spl.samples.length) ∧ (s.get F.SPL_CAL_STATE_STATE = 1) ∧ (calNarrow s.spl.samples = false) ∧ (calFit s = (kn, kd, bn, bd))) :=
  ⟨⟨(stu
    |> fun s => (s.put F.SPL_CTL_ENABLE 1)), by decide +kernel, by decide +kernel⟩,
   ⟨(stu
    |> fun s => (s.put F.CLK_STS_ROOT_LOCK 1)
    |> fun s => (s.put F.PWR_CTL_ENABLE 0)), by decide +kernel, by decide +kernel⟩,
   ⟨(stu
    |> fun s => (s.put F.CLK_STS_ROOT_LOCK 1)
    |> fun s => (s.put F.PWR_CTL_ENABLE 1)), by decide +kernel, by decide +kernel⟩,
   ⟨(calOf (1000, 1000) (2000, 2000) 2), by decide +kernel, by decide +kernel⟩,
   ⟨(calOf (1000, 1000) (1000, 1000) 0
    |> fun s => (s.put F.SPL_CAL_STATE_STATE 0)), by decide +kernel, by decide +kernel, by decide +kernel⟩,
   ⟨(calOf (4000, 1000) (8000, 2000) 0), ((calFit (calOf (4000, 1000) (8000, 2000) 0)).1), ((calFit (calOf (4000, 1000) (8000, 2000) 0)).2.1), ((calFit (calOf (4000, 1000) (8000, 2000) 0)).2.2.1), ((calFit (calOf (4000, 1000) (8000, 2000) 0)).2.2.2), by decide +kernel, by decide +kernel, by decide +kernel, pair4 _, by decide +kernel⟩,
   ⟨(calOf (1000, 1000) (2000, 2000) 0), ((calFit (calOf (1000, 1000) (2000, 2000) 0)).1), ((calFit (calOf (1000, 1000) (2000, 2000) 0)).2.1), ((calFit (calOf (1000, 1000) (2000, 2000) 0)).2.2.1), ((calFit (calOf (1000, 1000) (2000, 2000) 0)).2.2.2), by decide +kernel, by decide +kernel, by decide +kernel, pair4 _, by decide +kernel, by decide +kernel⟩,
   ⟨(calOf (1000, 1000) (2000, 2000) 1), ((calFit (calOf (1000, 1000) (2000, 2000) 1)).1), ((calFit (calOf (1000, 1000) (2000, 2000) 1)).2.1), ((calFit (calOf (1000, 1000) (2000, 2000) 1)).2.2.1), ((calFit (calOf (1000, 1000) (2000, 2000) 1)).2.2.2), by decide +kernel, by decide +kernel, by decide +kernel, pair4 _⟩⟩

theorem wit_SwitchResults_1 :
  (∃ (s : State) (idx : Nat) (f : Frame) (p : Pool), ((s.swc.inject.find? fun x => x.inp == idx) = some f) ∧ (s.endsEnabled f = true) ∧ (f.mcast = false) ∧ (s.admission f = .into p))
  ∧ (∃ (s : State) (idx : Nat) (f : Frame), ((s.swc.inject.find? fun x => x.inp == idx) = some f) ∧ (s.endsEnabled f = true) ∧ (f.mcast = false) ∧ (s.admission f = .wait))
  ∧ (∃ (s : State) (idx : Nat) (f : Frame) (vs : List Frame), ((s.swc.inject.find? fun x => x.inp == idx) = some f) ∧ (s.endsEnabled f = true) ∧ (f.mcast = false) ∧ (s.admission f = .evict vs))
  ∧ (∃ (s : State) (idx : _) (f : Frame), ((s.swc.inject.find? fun x => x.inp == idx) = some f) ∧ (s.endsEnabled f = true) ∧ (f.mcast = false) ∧ (s.admission f = .flushed))
  ∧ (∃ (s : State) (idx : _) (f : Frame), ((s.swc.inject.find? fun x => x.inp == idx) = some f) ∧ (s.endsEnabled f = true) ∧ (f.mcast = false) ∧ (s.admission f = .fallback))
  ∧ (∃ (s : State) (idx : _) (f : Frame), ((s.swc.inject.find? fun x => x.inp == idx) = some f) ∧ (s.endsEnabled f = true) ∧ (f.mcast = true))
  ∧ (∃ (s : State) (idx : _) (f : Frame), ((s.swc.inject.find? fun x => x.inp == idx) = some f) ∧ (s.endsEnabled f = false))
  ∧ (∃ (s : State) (f : Frame) (l : List Frame), (s.swc.retry = f :: l) ∧ (f.typ ≠ .prefData)) :=
  ⟨⟨(stsw), (1), (fr), (Pool.reserve), by decide +kernel, by decide +kernel, by decide +kernel, by decide +kernel⟩,
   ⟨((stfull.put F.SWC_BUF_CFG_EVICT 0)), (1), (fr), by decide +kernel, by decide +kernel, by decide +kernel, by decide +kernel⟩,
   ⟨((stfull.put F.SWC_BUF_CFG_EVICT 31)), (1), (fr), ([{ typ := .read, cls := 7, inp := 1, out := 3 }, { typ := .read, cls := 7, inp := 1, out := 3 }]), by decide +kernel, by decide +kernel, by decide +kernel, by decide +kernel⟩,
   ⟨({ stsw with dev := { stsw.dev with mode := .config }, swc := { stsw.swc with inject := [{ fr with inp := 0 }] } }.put F.HEP_CTL_ENABLE 1), (0), ({ fr with inp := 0 }), by decide +kernel, by decide +kernel, by decide +kernel, by decide +kernel⟩,
   ⟨(({ stsw with swc := { stsw.swc with inject := [{ fr with out := 4 }] } }.put (F.SWC_PORT_STS_STATE 4) 1).put (F.SWC_PORT_CFG_HOLD_CELLS 4) 0 |>.put (F.LPn_CTL_ENABLE 0) 1), (1), ({ fr with out := 4 }), by decide +kernel, by decide +kernel, by decide +kernel, by decide +kernel⟩,
   ⟨({ stsw with swc := { stsw.swc with inject := [{ fr with outMask := [(2, 0)] }] } }), (1), ({ fr with outMask := [(2, 0)] }), by decide +kernel, by decide +kernel, by decide +kernel⟩,
   ⟨({ stu with swc := { stu.swc with inject := [{ fr with inp := 0 }] } }), (0), ({ fr with inp := 0 }), by decide +kernel, by decide +kernel⟩,
   ⟨(stu
    |> fun s => ({ s with swc := { s.swc with retry := fr :: [] } })), (fr), ([]), by decide +kernel, by decide +kernel⟩⟩

theorem wit_SwitchResults_2 :
  (∃ (s : State) (p : _) (f : Frame), (s.switchPorts.contains p = true) ∧ (s.grantPick p ((orderedAt p [] (s.swc.queued.filter fun x => x.typ != .prefData)).filter (s.canTake p)) = some f))
  ∧ (∃ (s : State) (p : _) (f : Frame), ((s.swc.queued.find? fun x => x.mcast && x.owes p) = some f))
  ∧ (∃ (s : State), (s.swc.tailRun = false))
  ∧ (∃ (s : State) (r : List Byte) (p : Pool), s.swc.staged = [r] ∧ s.swc.tailRun = true ∧ s.dev.mode.serving = true ∧ s.swc.tailLost = 0 ∧ s.tailFlying = 0 ∧ (s.get F.SWC_TAIL_WR_INDEX + 1) % 2 ^ s.get F.SWC_TAIL_SIZE_LOG2 ≠ s.get F.SWC_TAIL_RD_INDEX ∧ s.get F.SWC_TAIL_WR_INDEX < 2 ^ s.get F.SWC_TAIL_SIZE_LOG2 ∧ ({ s with swc := { s.swc with staged := [] } } : State).admission { typ := .tailBatch, cls := 7, inp := 2, out := 2, addr := 7 * 2 ^ 44 + s.get F.SWC_TAIL_BASE_BASE * 4096 + 64 * s.get F.SWC_TAIL_WR_INDEX, len := 64, data := tailSet r (s.swc.tailSeq + 1) 0, noEvict := true, origin := .tail } = .into p)
  ∧ (∃ (s : State) (b : _), (s.swc.banksOut.contains b = true)) :=
  ⟨⟨({ stu with swc := { stu.swc with queued := [fr] } }), (2), ({ fr with out := 2 }), by decide +kernel, by decide +kernel⟩,
   ⟨({ stu with swc := { stu.swc with queued := [{ fr with outMask := [(10, 0)] }] } }), (10), ({ fr with outMask := [(10, 0)] }), by decide +kernel⟩,
   ⟨(stu
    |> fun s => ({ s with swc := { s.swc with tailRun := false } })), by decide +kernel⟩,
   ⟨({ stu with swc := { stu.swc with staged := [List.replicate 64 1], tailRun := true } }.put F.SWC_TAIL_SIZE_LOG2 14), List.replicate 64 1, .reserve, by decide +kernel⟩,
   ⟨(stu
    |> fun s => ({ s with swc := { s.swc with banksOut := [255] } })), (255), by decide +kernel⟩⟩

theorem wit_TrainingResults_1 :
  (∃ (s : State) (p : _) (lanes : _), (p < 6) ∧ (s.lst p = 1) ∧ (((laneList p).any fun k => (s.put (F.LPn_LANE_STS_DETECTED p) (lanes % 2 ^ portLanes p)).laneOk p k) = true))
  ∧ (∃ (s : State) (p : _) (lanes : _), (p < 7) ∧ (s.lst p = 1) ∧ (((laneList p).any fun k => (s.put (F.LPn_LANE_STS_DETECTED p) (lanes % 2 ^ portLanes p)).laneOk p k) = false))
  ∧ (∃ (s : State) (p : _) (lanes : _), (p < 7) ∧ (s.lst p = 6) ∧ ((s.port p).phase = 0) ∧ (((laneList p).any fun k => (s.put (F.LPn_LANE_STS_DETECTED p) (lanes % 2 ^ portLanes p)).laneOk p k) = true))
  ∧ (∃ (s : State) (p : _) (b : List (List Byte)) (g : Gts), (p < 7) ∧ (g = gtsRead b) ∧ (s.lst p ≠ 5) ∧ (s.trains p = true) ∧ (gtsValid g = true) ∧ (g.kind = 3))
  ∧ (∃ (s : State) (p : _) (b : List (List Byte)) (g : Gts) (n : _), (p < 7) ∧ (g = gtsRead b) ∧ (s.lst p ≠ 5) ∧ (s.trains p = true) ∧ (gtsValid g = true) ∧ (g.kind = 2) ∧ ((s.port p).gtsLast = some g) ∧ ((s.port p).gtsCount = n))
  ∧ (∃ (s : State) (p : _) (b : List (List Byte)) (g : Gts), (p < 7) ∧ (g = gtsRead b) ∧ (s.lst p ≠ 5) ∧ (s.trains p = true) ∧ (gtsValid g = false))
  ∧ (∃ (s : State) (p : _) (g : Gts), (p < 7) ∧ (s.trains p = true) ∧ ((s.port p).phase = 1) ∧ ((s.port p).gtsLast = some g) ∧ (g.kind = 1) ∧ (8 ≤ (s.port p).gtsCount) ∧ ((s.port p).testLane = none))
  ∧ (∃ (s : State) (p : _) (g : Gts) (k : _), (p < 7) ∧ (s.trains p = true) ∧ ((s.port p).phase = 1) ∧ ((s.port p).gtsLast = some g) ∧ (g.kind = 1) ∧ (8 ≤ (s.port p).gtsCount) ∧ ((s.port p).testLane = some k) ∧ (s.is (F.LPn_LANE_STS_TESTING p) = false)) :=
  ⟨⟨(stu
    |> fun s => (s.put (F.LPn_LINK_STS_STATE 5) 1)), (5), (0xFFFF), by decide +kernel, by decide +kernel, by decide +kernel⟩,
   ⟨(stu
    |> fun s => (s.put (F.LPn_LINK_STS_STATE 6) 1)), (6), (0), by decide +kernel, by decide +kernel, by decide +kernel⟩,
   ⟨(stu
    |> fun s => (s.put (F.LPn_LINK_STS_STATE 6) 6)
    |> fun s => (s.modPort 6 fun x => { x with phase := 0 })), (6), (0xFFFF), by decide +kernel, by decide +kernel, by decide +kernel, by decide +kernel⟩,
   ⟨(stu
    |> fun s => (s.put (F.LPn_LINK_STS_STATE 6) 0)
    |> fun s => ((s.put (F.LPn_LINK_STS_STATE 6) 2).modPort 6 fun x => { x with phase := 1 })), (6), (List.map (gtsBytes ({ kind := 3, lane := 0, width := 4, eq := false, test := false, testLane := 0, index := 7, linkId := 0, epoch := 0, vcs := 2, roles := 1, rxbuf := 64, probe := 0, echo := 0, ok := true } : Gts)) (List.range 16)), (gtsRead (List.map (gtsBytes ({ kind := 3, lane := 0, width := 4, eq := false, test := false, testLane := 0, index := 7, linkId := 0, epoch := 0, vcs := 2, roles := 1, rxbuf := 64, probe := 0, echo := 0, ok := true } : Gts)) (List.range 16))), by decide +kernel, rfl, by decide +kernel, by decide +kernel, by decide +kernel, by decide +kernel⟩,
   ⟨(stu
    |> fun s => (s.put (F.LPn_LINK_STS_STATE 6) 0)
    |> fun s => ((s.put (F.LPn_LINK_STS_STATE 6) 2).modPort 6 fun x => { x with phase := 1 })
    |> fun s => (s.modPort 6 fun x => { x with gtsLast := some (gtsRead (List.map (gtsBytes ({ kind := 2, lane := 0, width := 4, eq := false, test := false, testLane := 0, index := 0, linkId := 0, epoch := 0, vcs := 2, roles := 1, rxbuf := 64, probe := 0, echo := 0, ok := true } : Gts)) (List.range 16))) })
    |> fun s => (s.modPort 6 fun x => { x with gtsCount := 7 })), (6), (List.map (gtsBytes ({ kind := 2, lane := 0, width := 4, eq := false, test := false, testLane := 0, index := 0, linkId := 0, epoch := 0, vcs := 2, roles := 1, rxbuf := 64, probe := 0, echo := 0, ok := true } : Gts)) (List.range 16)), (gtsRead (List.map (gtsBytes ({ kind := 2, lane := 0, width := 4, eq := false, test := false, testLane := 0, index := 0, linkId := 0, epoch := 0, vcs := 2, roles := 1, rxbuf := 64, probe := 0, echo := 0, ok := true } : Gts)) (List.range 16))), (7), by decide +kernel, rfl, by decide +kernel, by decide +kernel, by decide +kernel, by decide +kernel, by decide +kernel, by decide +kernel⟩,
   ⟨(stu
    |> fun s => (s.put (F.LPn_LINK_STS_STATE 6) 0)
    |> fun s => ((s.put (F.LPn_LINK_STS_STATE 6) 2).modPort 6 fun x => { x with phase := 1 })), (6), ([[]]), (gtsRead [[]]), by decide +kernel, rfl, by decide +kernel, by decide +kernel, by decide +kernel⟩,
   ⟨(stu
    |> fun s => ((s.put (F.LPn_LINK_STS_STATE 6) 2).modPort 6 fun x => { x with phase := 1 })
    |> fun s => (s.modPort 6 fun x => { x with phase := 1 })
    |> fun s => (s.modPort 6 fun x => { x with gtsLast := some ({ kind := 1, lane := 0, width := 4, eq := false, test := false, testLane := 0, index := 0, linkId := 0, epoch := 0, vcs := 2, roles := 2, rxbuf := 64, probe := 0, echo := 0, ok := true } : Gts) })
    |> fun s => (s.modPort 6 fun x => { x with gtsCount := 8 })
    |> fun s => (s.modPort 6 fun x => { x with testLane := none })), (6), (({ kind := 1, lane := 0, width := 4, eq := false, test := false, testLane := 0, index := 0, linkId := 0, epoch := 0, vcs := 2, roles := 2, rxbuf := 64, probe := 0, echo := 0, ok := true } : Gts)), by decide +kernel, by decide +kernel, by decide +kernel, by decide +kernel, by decide +kernel, by decide +kernel, by decide +kernel⟩,
   ⟨(stu
    |> fun s => ((s.put (F.LPn_LINK_STS_STATE 6) 2).modPort 6 fun x => { x with phase := 1 })
    |> fun s => (s.modPort 6 fun x => { x with phase := 1 })
    |> fun s => (s.modPort 6 fun x => { x with gtsLast := some ({ kind := 1, lane := 0, width := 4, eq := false, test := false, testLane := 0, index := 0, linkId := 0, epoch := 0, vcs := 2, roles := 2, rxbuf := 64, probe := 0, echo := 0, ok := true } : Gts) })
    |> fun s => (s.modPort 6 fun x => { x with gtsCount := 8 })
    |> fun s => (s.modPort 6 fun x => { x with testLane := some 0 })
    |> fun s => (s.put (F.LPn_LANE_STS_TESTING 6) 0)), (6), (({ kind := 1, lane := 0, width := 4, eq := false, test := false, testLane := 0, index := 0, linkId := 0, epoch := 0, vcs := 2, roles := 2, rxbuf := 64, probe := 0, echo := 0, ok := true } : Gts)), (0), by decide +kernel, by decide +kernel, by decide +kernel, by decide +kernel, by decide +kernel, by decide +kernel, by decide +kernel, by decide +kernel⟩⟩

theorem wit_TrainingResults_2 :
  (∃ (s : State) (p : _) (g : Gts), (p < 7) ∧ (s.trains p = true) ∧ ((s.port p).phase = 2) ∧ ((s.port p).gtsLast = some g) ∧ (g.kind = 1) ∧ (8 ≤ (s.port p).gtsCount) ∧ (g.lane ≤ 15) ∧ (2 ^ g.width ≤ (s.port p).width))
  ∧ (∃ (s : State) (p : _) (g : Gts), (p < 7) ∧ (s.trains p = true) ∧ ((s.port p).phase = 3) ∧ ((s.port p).gtsLast = some g) ∧ (g.kind = 1) ∧ (g.eq = false))
  ∧ (∃ (s : State) (p : _) (g : Gts), (p < 7) ∧ (s.trains p = true) ∧ ((s.port p).phase = 4) ∧ ((s.port p).gts2 = some g) ∧ ((List.range 9).all (fun j => (KMap.find (s.port p).gts3 j).isSome) = true) ∧ (s.pairsWith p g (s.port p).gts3 = true) ∧ (s.peerSwapped p g (s.port p).gts3 = false))
  ∧ (∃ (s : State) (p : _) (g : Gts), (p < 7) ∧ (s.trains p = true) ∧ ((s.port p).phase = 4) ∧ ((s.port p).gts2 = some g) ∧ ((List.range 9).all (fun j => (KMap.find (s.port p).gts3 j).isSome) = true) ∧ (s.pairsWith p g (s.port p).gts3 = false))
  ∧ (∃ (s : State) (p : _) (g : Gts), (p < 7) ∧ (s.trains p = true) ∧ ((s.port p).phase = 4) ∧ ((s.port p).gts2 = some g) ∧ ((List.range 9).all (fun j => (KMap.find (s.port p).gts3 j).isSome) = true) ∧ (s.peerSwapped p g (s.port p).gts3 = true))
  ∧ (∃ (s : State) (p : _) (g : Gts), (p < 6) ∧ (s.lst p = 2) ∧ ((s.port p).phase = 5) ∧ ((s.port p).gts2 = some g) ∧ ((s.port p).epochRec = none) ∧ ((s.port p).hasLl = false))
  ∧ (∃ (s : State) (p : _), (p < 6) ∧ (s.lst p = 2))
  ∧ (∃ (s : State) (p : _), (p < 7) ∧ (s.lst p = 4 ∨ s.lst p = 5) ∧ (s.holdOk p = true)) :=
  ⟨⟨(stu
    |> fun s => ((s.put (F.LPn_LINK_STS_STATE 6) 2).modPort 6 fun x => { x with phase := 1 })
    |> fun s => (s.modPort 6 fun x => { x with phase := 2 })
    |> fun s => (s.modPort 6 fun x => { x with gtsLast := some ({ kind := 1, lane := 0, width := 4, eq := false, test := false, testLane := 0, index := 0, linkId := 0, epoch := 0, vcs := 2, roles := 2, rxbuf := 64, probe := 0, echo := 0, ok := true } : Gts) })
    |> fun s => (s.modPort 6 fun x => { x with gtsCount := 8 })
    |> fun s => (s.modPort 6 fun x => { x with width := 16 })), (6), (({ kind := 1, lane := 0, width := 4, eq := false, test := false, testLane := 0, index := 0, linkId := 0, epoch := 0, vcs := 2, roles := 2, rxbuf := 64, probe := 0, echo := 0, ok := true } : Gts)), by decide +kernel, by decide +kernel, by decide +kernel, by decide +kernel, by decide +kernel, by decide +kernel, by decide +kernel, by decide +kernel⟩,
   ⟨(stu
    |> fun s => ((s.put (F.LPn_LINK_STS_STATE 6) 2).modPort 6 fun x => { x with phase := 1 })
    |> fun s => (s.modPort 6 fun x => { x with phase := 3 })
    |> fun s => (s.modPort 6 fun x => { x with gtsLast := some ({ kind := 1, lane := 0, width := 4, eq := false, test := false, testLane := 0, index := 0, linkId := 0, epoch := 0, vcs := 2, roles := 2, rxbuf := 64, probe := 0, echo := 0, ok := true } : Gts) })), (6), (({ kind := 1, lane := 0, width := 4, eq := false, test := false, testLane := 0, index := 0, linkId := 0, epoch := 0, vcs := 2, roles := 2, rxbuf := 64, probe := 0, echo := 0, ok := true } : Gts)), by decide +kernel, by decide +kernel, by decide +kernel, by decide +kernel, by decide +kernel, by decide +kernel⟩,
   ⟨(stu
    |> fun s => ((s.put (F.LPn_LINK_STS_STATE 5) 2).modPort 5 fun x => { x with phase := 1 })
    |> fun s => (s.modPort 5 fun x => { x with phase := 4 })
    |> fun s => (s.modPort 5 fun x => { x with gts2 := some ({ kind := 2, lane := 0, width := 4, eq := false, test := false, testLane := 0, index := 0, linkId := 0, epoch := 0, vcs := stu.get (F.LPn_PROTO_CFG_VCS 5), roles := stu.get (F.LPn_PROTO_CFG_ROLES 5), rxbuf := 64, probe := 0, echo := 0, ok := true } : Gts) })
    |> fun s => ((s.modPort 5 fun x => { x with gts3 := (List.range 9).map fun j => (j, 64) }))), (5), (({ kind := 2, lane := 0, width := 4, eq := false, test := false, testLane := 0, index := 0, linkId := 0, epoch := 0, vcs := stu.get (F.LPn_PROTO_CFG_VCS 5), roles := stu.get (F.LPn_PROTO_CFG_ROLES 5), rxbuf := 64, probe := 0, echo := 0, ok := true } : Gts)), by decide +kernel, by decide +kernel, by decide +kernel, by decide +kernel, by decide +kernel, by decide +kernel, by decide +kernel⟩,
   ⟨(stu
    |> fun s => ((s.put (F.LPn_LINK_STS_STATE 5) 2).modPort 5 fun x => { x with phase := 1 })
    |> fun s => (s.modPort 5 fun x => { x with phase := 4 })
    |> fun s => (s.modPort 5 fun x => { x with gts2 := some ({ kind := 2, lane := 0, width := 4, eq := false, test := false, testLane := 0, index := 0, linkId := 0, epoch := 0, vcs := 0, roles := 0, rxbuf := 64, probe := 0, echo := 0, ok := true } : Gts) })
    |> fun s => ((s.modPort 5 fun x => { x with gts3 := (List.range 9).map fun j => (j, 7) }))), (5), (({ kind := 2, lane := 0, width := 4, eq := false, test := false, testLane := 0, index := 0, linkId := 0, epoch := 0, vcs := 0, roles := 0, rxbuf := 64, probe := 0, echo := 0, ok := true } : Gts)), by decide +kernel, by decide +kernel, by decide +kernel, by decide +kernel, by decide +kernel, by decide +kernel⟩,
   ⟨(stu
    |> fun s => ((s.put (F.LPn_LINK_STS_STATE 5) 2).modPort 5 fun x => { x with phase := 1 })
    |> fun s => (s.modPort 5 fun x => { x with phase := 4 })
    |> fun s => (s.modPort 5 fun x => { x with gts2 := some ({ kind := 2, lane := 0, width := 4, eq := false, test := false, testLane := 0, index := 0, linkId := 9, epoch := 1, vcs := 2, roles := 1, rxbuf := 64, probe := 0, echo := 0, ok := true } : Gts) })
    |> fun s => ((s.modPort 5 fun x => { x with gts3 := (List.range 9).map (fun j => (j, 64)), hasLl := true, epochRec := some 1, paired := some { kind := 2, lane := 0, width := 4, eq := false, test := false, testLane := 0, index := 0, linkId := 8, epoch := 1, vcs := 2, roles := 1, rxbuf := 64, probe := 0, echo := 0, ok := true } }))), (5), (({ kind := 2, lane := 0, width := 4, eq := false, test := false, testLane := 0, index := 0, linkId := 9, epoch := 1, vcs := 2, roles := 1, rxbuf := 64, probe := 0, echo := 0, ok := true } : Gts)), by decide +kernel, by decide +kernel, by decide +kernel, by decide +kernel, by decide +kernel, by decide +kernel⟩,
   ⟨(stu
    |> fun s => (s.put (F.LPn_LINK_STS_STATE 5) 2)
    |> fun s => (s.modPort 5 fun x => { x with phase := 5 })
    |> fun s => (s.modPort 5 fun x => { x with gts2 := some ({ kind := 1, lane := 0, width := 4, eq := false, test := false, testLane := 0, index := 0, linkId := 0, epoch := 0, vcs := 2, roles := 2, rxbuf := 64, probe := 0, echo := 0, ok := true } : Gts) })
    |> fun s => (s.modPort 5 fun x => { x with epochRec := none })
    |> fun s => (s.modPort 5 fun x => { x with hasLl := false })), (5), (({ kind := 1, lane := 0, width := 4, eq := false, test := false, testLane := 0, index := 0, linkId := 0, epoch := 0, vcs := 2, roles := 2, rxbuf := 64, probe := 0, echo := 0, ok := true } : Gts)), by decide +kernel, by decide +kernel, by decide +kernel, by decide +kernel, by decide +kernel, by decide +kernel⟩,
   ⟨(stu
    |> fun s => (s.put (F.LPn_LINK_STS_STATE 5) 2)), (5), by decide +kernel, by decide +kernel⟩,
   ⟨(stu
    |> fun s => (s.put (F.LPn_LINK_STS_STATE 6) 4)), (6), by decide +kernel, by decide +kernel, by decide +kernel⟩⟩

theorem wit_TrainingResults_3 :
  (∃ (s : State) (p : _), (p < 7) ∧ (s.lst p = 4 ∨ s.lst p = 5) ∧ (s.holdOk p = false))
  ∧ (∃ (s : State) (p : _), (p < 7) ∧ (s.lst p = 6) ∧ ((s.port p).phase = 1))
  ∧ (∃ (s : State) (p : _) (lane : _), (p < 7) ∧ (s.get (F.LPn_LINK_STS_GROUP_LANE p) ≤ lane) ∧ (lane < s.get (F.LPn_LINK_STS_GROUP_LANE p) + s.width p) ∧ (s.lst p = 3))
  ∧ (∃ (s : State) (p : _) (lane : _), (p < 7) ∧ (s.get (F.LPn_LINK_STS_GROUP_LANE p) ≤ lane) ∧ (lane < s.get (F.LPn_LINK_STS_GROUP_LANE p) + s.width p) ∧ (s.lst p = 5))
  ∧ (∃ (s : State) (p : _), (p < 7) ∧ (s.lst p = 5))
  ∧ (∃ (s : State) (p : _) (k : _), (p < 7) ∧ (s.is (F.LPn_LANE_STS_TESTING p) = true) ∧ ((s.port p).testLane = some k))
  ∧ (∃ (s : State) (p : _) (k : _), (p < 7) ∧ (s.is (F.LPn_LANE_STS_TESTING p) = true) ∧ ((s.port p).testLane = some k)) :=
  ⟨⟨(stu
    |> fun s => ((s.put (F.LPn_LINK_STS_STATE 6) 5).put F.PRL_CTL_HOLD_DISABLE 1)), (6), by decide +kernel, by decide +kernel, by decide +kernel⟩,
   ⟨(stu
    |> fun s => (s.put (F.LPn_LINK_STS_STATE 6) 6)
    |> fun s => (s.modPort 6 fun x => { x with phase := 1 })), (6), by decide +kernel, by decide +kernel, by decide +kernel⟩,
   ⟨(stu
    |> fun s => (s.put (F.LPn_LINK_STS_STATE 6) 3)
    |> fun s => (s.put (F.LPn_LINK_STS_WIDTH 6) 16)), (6), (15), by decide +kernel, by decide +kernel, by decide +kernel, by decide +kernel⟩,
   ⟨(stu
    |> fun s => (s.put (F.LPn_LINK_STS_STATE 6) 5)
    |> fun s => (s.put (F.LPn_LINK_STS_WIDTH 6) 16)), (6), (15), by decide +kernel, by decide +kernel, by decide +kernel, by decide +kernel⟩,
   ⟨(stu
    |> fun s => (s.put (F.LPn_LINK_STS_STATE 6) 5)), (6), by decide +kernel, by decide +kernel⟩,
   ⟨(stu
    |> fun s => (s.put (F.LPn_LANE_STS_TESTING 6) 1)
    |> fun s => (s.modPort 6 fun x => { x with testLane := some 0 })), (6), (0), by decide +kernel, by decide +kernel, by decide +kernel⟩,
   ⟨(stu
    |> fun s => (s.put (F.LPn_LANE_STS_TESTING 6) 1)
    |> fun s => (s.modPort 6 fun x => { x with testLane := some 0 })), (6), (0), by decide +kernel, by decide +kernel, by decide +kernel⟩⟩

theorem wit_PortResults_1 :
  (∃ (s : State) (p : _), (p < 7) ∧ (s.lst p = 6))
  ∧ (∃ (s : State) (p : _) (k : Nat) (f : Frame), (p < 7) ∧ ((s.npQueued p)[k]? = some f))
  ∧ (∃ (s : State) (p : _) (tag : _) (n : LinkNp), (p < 7) ∧ (tag < 4096) ∧ (((s.port p).np.find? fun m => m.tag == tag && !m.quarantined) = some n))
  ∧ (∃ (p : _), (p < 7))
  ∧ (∃ (s : State) (p : _) (now : Bool), (p < 6) ∧ (s.pins.prsnt.getD p false ≠ now) ∧ (s.slotRuns p = false))
  ∧ (∃ (s : State) (p : _) (now : Bool), (p < 6) ∧ (s.pins.prsnt.getD p false ≠ now) ∧ (s.slotRuns p = true) ∧ ((doWakeCause (.prsnt p) { s with pins := { s.pins with prsnt := s.pins.prsnt.set p now } }).is (F.LPn_SLOT_CAP_PRSNT_PIN p) = true))
  ∧ (∃ (s : State) (p : _), (p < 6) ∧ (s.slotRuns p = true) ∧ ((doWakeCause (.attn p) s).is (F.LPn_SLOT_CAP_ATTN_BTN p) = true) ∧ (((doWakeCause (.attn p) s).put (F.LPn_SLOT_STS_ATTN p) 1).is (F.LPn_SLOT_CTL_AUTO p) = false))
  ∧ (∃ (s : State) (p : _), (p < 6) ∧ (s.slotRuns p = true) ∧ ((doWakeCause (.attn p) s).is (F.LPn_SLOT_CAP_ATTN_BTN p) = true) ∧ (((doWakeCause (.attn p) s).put (F.LPn_SLOT_STS_ATTN p) 1).is (F.LPn_SLOT_CTL_AUTO p) = true)) :=
  ⟨⟨(stu
    |> fun s => (s.put (F.LPn_LINK_STS_STATE 6) 6)), (6), by decide +kernel, by decide +kernel⟩,
   ⟨(stu
    |> fun s => ({ s with swc := { s.swc with queued := [({ typ := .read, cls := 0, inp := 0, out := 10 } : Frame)] } })), (6), (0), (({ typ := .read, cls := 0, inp := 0, out := 10 } : Frame)), by decide +kernel, by decide +kernel⟩,
   ⟨(stu
    |> fun s => (s.modPort 6 fun x => { x with np := [({ tag := 4095, frame := { typ := .read, cls := 0, inp := 0, out := 9 } } : LinkNp)] })), (6), (4095), (({ tag := 4095, frame := { typ := .read, cls := 0, inp := 0, out := 9 } } : LinkNp)), by decide +kernel, by decide +kernel, by decide +kernel⟩,
   ⟨(6), by decide +kernel⟩,
   ⟨(stu
    |> fun s => ({ s with dev := { s.dev with mode := .boot } })), (5), (true), by decide +kernel, by decide +kernel, by decide +kernel⟩,
   ⟨(stu
    |> fun s => (s.put (F.LPn_SLOT_CAP_PRSNT_PIN 5) 1)), (5), (true), by decide +kernel, by decide +kernel, by decide +kernel, by decide +kernel⟩,
   ⟨(stu
    |> fun s => (s.put (F.LPn_SLOT_CAP_ATTN_BTN 5) 1)), (5), by decide +kernel, by decide +kernel, by decide +kernel, by decide +kernel⟩,
   ⟨(stu
    |> fun s => ((s.put (F.LPn_SLOT_CAP_ATTN_BTN 5) 1).put (F.LPn_SLOT_CTL_AUTO 5) 1)), (5), by decide +kernel, by decide +kernel, by decide +kernel, by decide +kernel⟩⟩

theorem wit_PortResults_2 :
  (∃ (s : State) (p : _), (p < 6) ∧ (s.slotRuns p = false))
  ∧ (∃ (s : State) (p : _), (s.slotRuns p = true) ∧ (s.is (F.LPn_SLOT_CTL_PWR_ON p) = true))
  ∧ (∃ (s : State) (p : _), (s.slotRuns p = true) ∧ (s.is (F.LPn_SLOT_CTL_PWR_ON p) = true) ∧ ((s.port p).powered = false) ∧ ((s.port p).indDue = false))
  ∧ (∃ (s : State) (p : _), (s.slotRuns p = true) ∧ (s.get (F.LPn_SLOT_STS_SEQ p) = 1))
  ∧ (∃ (s : State) (p : _), (s.slotRuns p = true) ∧ (s.get (F.LPn_SLOT_STS_SEQ p) = 2))
  ∧ (∃ (s : State) (p : _), (s.slotRuns p = true) ∧ (s.get (F.LPn_SLOT_STS_SEQ p) = 3) ∧ ((s.portBusy p && !s.is (F.LPn_SLOT_CAP_PWR_CTRL p)) = false)) :=
  ⟨⟨(stu
    |> fun s => ({ s with dev := { s.dev with mode := .boot } })), (5), by decide +kernel, by decide +kernel⟩,
   ⟨(stu
    |> fun s => (s.put (F.LPn_SLOT_CTL_PWR_ON 0) 1)), (0), by decide +kernel, by decide +kernel⟩,
   ⟨(stu
    |> fun s => (s.put (F.LPn_SLOT_CTL_PWR_ON 0) 1)
    |> fun s => (s.modPort 0 fun x => { x with powered := false })
    |> fun s => (s.modPort 0 fun x => { x with indDue := false })), (0), by decide +kernel, by decide +kernel, by decide +kernel, by decide +kernel⟩,
   ⟨(stu
    |> fun s => (s.put (F.LPn_SLOT_STS_SEQ 0) 1)), (0), by decide +kernel, by decide +kernel⟩,
   ⟨(stu
    |> fun s => (s.put (F.LPn_SLOT_STS_SEQ 0) 2)), (0), by decide +kernel, by decide +kernel⟩,
   ⟨(stu
    |> fun s => (s.put (F.LPn_SLOT_STS_SEQ 0) 3)), (0), by decide +kernel, by decide +kernel, by decide +kernel⟩⟩

theorem wit_FlitResults_1 :
  (∃ (s : State) (p : _) (b : List Byte) (f : FlitIn), (p < 7) ∧ (f = State.flitIn s p b) ∧ (s.flits p = true) ∧ (f.crcOk = false))
  ∧ (∃ (s : State) (p : _) (b : List Byte) (f : FlitIn), (p < 7) ∧ (f = State.flitIn s p b) ∧ (s.flits p = true) ∧ (f.crcOk = true) ∧ (ackNote p f s = none))
  ∧ (∃ (s : State) (p : _) (b : List Byte) (f : FlitIn) (u : State), (p < 7) ∧ (f = State.flitIn s p b) ∧ (s.flits p = true) ∧ (f.crcOk = true) ∧ (ackNote p f s = some u) ∧ (1 ≤ f.typ) ∧ (f.typ ≤ 3))
  ∧ (∃ (s : State) (p : _) (b : List Byte) (f : FlitIn) (u : State), (p < 7) ∧ (f = State.flitIn s p b) ∧ (s.flits p = true) ∧ (f.crcOk = true) ∧ (ackNote p f s = some u) ∧ (f.typ = 0 ∨ 3 < f.typ))
  ∧ (∃ (s : State) (p : _) (f : FlitIn), (f.seq < 4096) ∧ ((s.port p).rxSeq < 4096) ∧ (f.typ ≠ 3) ∧ (f.seq = (s.port p).rxSeq))
  ∧ (∃ (s : State) (p : _) (f : FlitIn), (f.seq < 4096) ∧ ((s.port p).rxSeq < 4096) ∧ (f.typ = 3) ∧ (f.seq = (s.port p).rxSeq))
  ∧ (∃ (s : State) (p : _) (f : FlitIn), (f.seq < 4096) ∧ ((s.port p).rxSeq < 4096) ∧ (f.seq = ((s.port p).rxSeq + 4095) % 4096))
  ∧ (∃ (s : State) (p : _) (f : FlitIn), (f.seq < 4096) ∧ ((s.port p).rxSeq < 4096) ∧ (f.seq = ((s.port p).rxSeq + 1) % 4096)) :=
  ⟨⟨(stu
    |> fun s => (s.put (F.LPn_LINK_STS_STATE 6) 3)), (6), (zeroFlit), (State.flitIn (stu
    |> fun s => (s.put (F.LPn_LINK_STS_STATE 6) 3)) 6 zeroFlit), by decide +kernel, by with_reducible rfl, by decide +kernel, by decide +kernel⟩,
   ⟨(stu
    |> fun s => (s.put (F.LPn_LINK_STS_STATE 6) 3)), (6), (mkFl (2 ^ 28 + 2 ^ 24)), (State.flitIn (stu
    |> fun s => (s.put (F.LPn_LINK_STS_STATE 6) 3)) 6 (mkFl (2 ^ 28 + 2 ^ 24))), by decide +kernel, rfl, by decide +kernel, by decide +kernel, by decide +kernel⟩,
   ⟨(stu
    |> fun s => (s.put (F.LPn_LINK_STS_STATE 6) 3)), (6), (mkFl (2 ^ 24)), (State.flitIn (stu
    |> fun s => (s.put (F.LPn_LINK_STS_STATE 6) 3)) 6 (mkFl (2 ^ 24))), ((stu.put (F.LPn_LINK_STS_STATE 6) 3)), by decide +kernel, rfl, by decide +kernel, by decide +kernel, by decide +kernel, by decide +kernel, by decide +kernel⟩,
   ⟨(stu
    |> fun s => (s.put (F.LPn_LINK_STS_STATE 6) 3)), (6), (mkFl (2 ^ 26)), (State.flitIn (stu
    |> fun s => (s.put (F.LPn_LINK_STS_STATE 6) 3)) 6 (mkFl (2 ^ 26))), ((stu.put (F.LPn_LINK_STS_STATE 6) 3)), by decide +kernel, rfl, by decide +kernel, by decide +kernel, by decide +kernel, by decide +kernel⟩,
   ⟨(stu), (0), (({ crcOk := true, errLanes := [], typ := 1, seq := 0, ack := 4095, ackV := false, nak := false, hold := false, xoff := 0, req := 0, reqEq := false, reqTest := false, reqTestLane := 0, reqWidth := 0, probe := 0, echo := 0, framing := false, pkts := [], part := [] } : FlitIn)), by decide +kernel, by decide +kernel, by decide +kernel, by decide +kernel⟩,
   ⟨(stu), (0), (({ crcOk := true, errLanes := [], typ := 3, seq := 0, ack := 4095, ackV := false, nak := false, hold := false, xoff := 0, req := 0, reqEq := false, reqTest := false, reqTestLane := 0, reqWidth := 0, probe := 0, echo := 0, framing := false, pkts := [], part := [] } : FlitIn)), by decide +kernel, by decide +kernel, by decide +kernel, by decide +kernel⟩,
   ⟨(stu), (0), (({ crcOk := true, errLanes := [], typ := 1, seq := 4095, ack := 0, ackV := true, nak := false, hold := false, xoff := 0, req := 0, reqEq := false, reqTest := false, reqTestLane := 0, reqWidth := 0, probe := 0, echo := 0, framing := false, pkts := [], part := [] } : FlitIn)), by decide +kernel, by decide +kernel, by decide +kernel⟩,
   ⟨(stu), (0), (({ crcOk := true, errLanes := [], typ := 1, seq := 1, ack := 0, ackV := true, nak := false, hold := false, xoff := 0, req := 0, reqEq := false, reqTest := false, reqTestLane := 0, reqWidth := 0, probe := 0, echo := 0, framing := false, pkts := [], part := [] } : FlitIn)), by decide +kernel, by decide +kernel, by decide +kernel⟩⟩

theorem wit_FlitResults_2 :
  (∃ (s : State) (p : _), (p < 7) ∧ (s.flits p = true) ∧ ((s.port p).discarding = true))
  ∧ (∃ (s : State) (p : _), (p < 7) ∧ (s.flits p = true) ∧ ((s.port p).unacked ≠ []) ∧ ((s.port p).replays < 3))
  ∧ (∃ (s : State) (p : _), (p < 7) ∧ (s.flits p = true) ∧ ((s.port p).unacked ≠ []) ∧ (3 ≤ (s.port p).replays))
  ∧ (∃ (s : State) (p : _), (p < 7) ∧ (s.flits p = true))
  ∧ (∃ (p : _), (p < 7))
  ∧ (∃ (s : State) (p : _) (k : Pkt), (s.rxFirst p 0x0B k = true) ∧ (k.bad = false))
  ∧ (∃ (s : State) (p : _) (k : Pkt) (u : _), (s.pmFirst p 0 = some k) ∧ (k.bad = false) ∧ (u = takeRx p k s) ∧ (u.lst p ≠ 3))
  ∧ (∃ (s : State) (p : _) (k : Pkt) (u : _), (s.pmFirst p 0 = some k) ∧ (k.bad = false) ∧ (u = takeRx p k s) ∧ (u.lst p = 3) ∧ (s.portIdle p = false)) :=
  ⟨⟨(stu
    |> fun s => (s.put (F.LPn_LINK_STS_STATE 6) 3)
    |> fun s => (s.modPort 6 fun x => { x with discarding := true })), (6), by decide +kernel, by decide +kernel, by decide +kernel⟩,
   ⟨(stu
    |> fun s => (s.put (F.LPn_LINK_STS_STATE 6) 3)
    |> fun s => (s.modPort 6 fun x => { x with replays := 2, unacked := [{ first := 0, n := 1, pkt := { op := 1, vc := 0, env := 0, tag := 0, addr := 0, len := 0, status := 0, flags := 0, data := [] } }] })), (6), by decide +kernel, by decide +kernel, by decide +kernel, by decide +kernel⟩,
   ⟨(stu
    |> fun s => (s.put (F.LPn_LINK_STS_STATE 6) 3)
    |> fun s => (s.modPort 6 fun x => { x with replays := 3 })
    |> fun s => (s.modPort 6 fun x => { x with replays := 3, unacked := [{ first := 0, n := 1, pkt := { op := 1, vc := 0, env := 0, tag := 0, addr := 0, len := 0, status := 0, flags := 0, data := [] } }] })), (6), by decide +kernel, by decide +kernel, by decide +kernel, by decide +kernel⟩,
   ⟨(stu
    |> fun s => (s.put (F.LPn_LINK_STS_STATE 6) 3)), (6), by decide +kernel, by decide +kernel⟩,
   ⟨(6), by decide +kernel⟩,
   ⟨(stu
    |> fun s => (s.modPort 0 fun x => { x with rx := [({ op := 0x0B, vc := 0, env := 0, tag := 0, addr := 0, len := 0, status := 0, flags := 0, data := [] } : Pkt)] })), (0), (({ op := 0x0B, vc := 0, env := 0, tag := 0, addr := 0, len := 0, status := 0, flags := 0, data := [] } : Pkt)), by decide +kernel, by decide +kernel⟩,
   ⟨(stu
    |> fun s => (s.modPort 5 fun x => { x with rx := [({ op := 0x0C, vc := 0, env := 0, tag := 0, addr := 0, len := 0, status := 0, flags := 0, data := [] } : Pkt)] })), (5), (({ op := 0x0C, vc := 0, env := 0, tag := 0, addr := 0, len := 0, status := 0, flags := 0, data := [] } : Pkt)), (takeRx 5 ({ op := 0x0C, vc := 0, env := 0, tag := 0, addr := 0, len := 0, status := 0, flags := 0, data := [] } : Pkt) (stu
    |> fun s => (s.modPort 5 fun x => { x with rx := [({ op := 0x0C, vc := 0, env := 0, tag := 0, addr := 0, len := 0, status := 0, flags := 0, data := [] } : Pkt)] }))), by decide +kernel, by decide +kernel, rfl, by decide +kernel⟩,
   ⟨(stu
    |> fun s => (s.modPort 5 fun x => { x with rx := [({ op := 0x0C, vc := 0, env := 0, tag := 0, addr := 0, len := 0, status := 0, flags := 0, data := [] } : Pkt)] })
    |> fun s => (s.put (F.LPn_LINK_STS_STATE 5) 3)
    |> fun s => (s.modPort 5 fun x => { x with npIn := [7] })), (5), (({ op := 0x0C, vc := 0, env := 0, tag := 0, addr := 0, len := 0, status := 0, flags := 0, data := [] } : Pkt)), (takeRx 5 ({ op := 0x0C, vc := 0, env := 0, tag := 0, addr := 0, len := 0, status := 0, flags := 0, data := [] } : Pkt) (stu
    |> fun s => (s.modPort 5 fun x => { x with rx := [({ op := 0x0C, vc := 0, env := 0, tag := 0, addr := 0, len := 0, status := 0, flags := 0, data := [] } : Pkt)] })
    |> fun s => (s.put (F.LPn_LINK_STS_STATE 5) 3)
    |> fun s => (s.modPort 5 fun x => { x with npIn := [7] }))), by decide +kernel, by decide +kernel, rfl, by decide +kernel, by decide +kernel⟩⟩

theorem wit_FlitResults_3 :
  (∃ (s : State) (p : _) (k : Pkt) (u : _), (s.pmFirst p 0 = some k) ∧ (k.bad = false) ∧ (u = takeRx p k s) ∧ (u.lst p = 3) ∧ (s.portIdle p = true) ∧ ((u.port p).sleep ≠ 1))
  ∧ (∃ (s : State) (p : _) (k : Pkt) (u : _), (s.pmFirst p 0 = some k) ∧ (k.bad = false) ∧ (u = takeRx p k s) ∧ (u.lst p = 3) ∧ (s.portIdle p = true) ∧ ((u.port p).sleep = 1))
  ∧ (∃ (s : State) (p : _) (k : Pkt), (s.pmFirst p 1 = some k) ∧ (k.bad = false) ∧ (((takeRx p k s).port p).sleep = 1))
  ∧ (∃ (s : State) (p : _) (k : Pkt), (s.pmFirst p 2 = some k) ∧ (k.bad = false) ∧ (((takeRx p k s).port p).sleep = 1))
  ∧ (∃ (s : State) (p : _), (p < 7) ∧ (s.lst p = 3) ∧ (s.is (F.LPn_PROTO_CFG_SLEEP_IDLE_US p) = true) ∧ ((s.port p).sleep = 0) ∧ (s.portIdle p = true))
  ∧ (∃ (s : State) (p : _), (p < 7) ∧ (s.lst p = 3) ∧ ((s.port p).sleep ≠ 0))
  ∧ (∃ (s : State) (p : _), (p < 6) ∧ (s.lst p = 3) ∧ ((s.port p).sleep = 2) ∧ ((s.port p).peerHold = true) ∧ ((s.port p).unacked = []))
  ∧ (∃ (s : State) (p : _), (p < 7) ∧ (s.lst p = 7)) :=
  ⟨⟨(stu
    |> fun s => (s.modPort 5 fun x => { x with rx := [({ op := 0x0C, vc := 0, env := 0, tag := 0, addr := 0, len := 0, status := 0, flags := 0, data := [] } : Pkt)] })
    |> fun s => (s.put (F.LPn_LINK_STS_STATE 5) 3)), (5), (({ op := 0x0C, vc := 0, env := 0, tag := 0, addr := 0, len := 0, status := 0, flags := 0, data := [] } : Pkt)), (takeRx 5 ({ op := 0x0C, vc := 0, env := 0, tag := 0, addr := 0, len := 0, status := 0, flags := 0, data := [] } : Pkt) (stu
    |> fun s => (s.modPort 5 fun x => { x with rx := [({ op := 0x0C, vc := 0, env := 0, tag := 0, addr := 0, len := 0, status := 0, flags := 0, data := [] } : Pkt)] })
    |> fun s => (s.put (F.LPn_LINK_STS_STATE 5) 3))), by decide +kernel, by decide +kernel, rfl, by decide +kernel, by decide +kernel, by decide +kernel⟩,
   ⟨(stu
    |> fun s => (s.modPort 5 fun x => { x with rx := [({ op := 0x0C, vc := 0, env := 0, tag := 0, addr := 0, len := 0, status := 0, flags := 0, data := [] } : Pkt)] })
    |> fun s => (s.put (F.LPn_LINK_STS_STATE 5) 3)
    |> fun s => (s.modPort 5 fun x => { x with sleep := 1 })), (5), (({ op := 0x0C, vc := 0, env := 0, tag := 0, addr := 0, len := 0, status := 0, flags := 0, data := [] } : Pkt)), (takeRx 5 ({ op := 0x0C, vc := 0, env := 0, tag := 0, addr := 0, len := 0, status := 0, flags := 0, data := [] } : Pkt) (stu
    |> fun s => (s.modPort 5 fun x => { x with rx := [({ op := 0x0C, vc := 0, env := 0, tag := 0, addr := 0, len := 0, status := 0, flags := 0, data := [] } : Pkt)] })
    |> fun s => (s.put (F.LPn_LINK_STS_STATE 5) 3)
    |> fun s => (s.modPort 5 fun x => { x with sleep := 1 }))), by decide +kernel, by decide +kernel, rfl, by decide +kernel, by decide +kernel, by decide +kernel⟩,
   ⟨(stu
    |> fun s => (s.modPort 5 fun x => { x with rx := [({ op := 0x0C, vc := 0, env := 0, tag := 0, addr := 1, len := 0, status := 0, flags := 0, data := [] } : Pkt)] })
    |> fun s => (s.modPort 5 fun x => { x with sleep := 1 })), (5), (({ op := 0x0C, vc := 0, env := 0, tag := 0, addr := 1, len := 0, status := 0, flags := 0, data := [] } : Pkt)), by decide +kernel, by decide +kernel, by decide +kernel⟩,
   ⟨(stu
    |> fun s => (s.modPort 5 fun x => { x with rx := [({ op := 0x0C, vc := 0, env := 0, tag := 0, addr := 2, len := 0, status := 0, flags := 0, data := [] } : Pkt)] })
    |> fun s => (s.modPort 5 fun x => { x with sleep := 1 })), (5), (({ op := 0x0C, vc := 0, env := 0, tag := 0, addr := 2, len := 0, status := 0, flags := 0, data := [] } : Pkt)), by decide +kernel, by decide +kernel, by decide +kernel⟩,
   ⟨(stu
    |> fun s => (s.put (F.LPn_LINK_STS_STATE 6) 3)
    |> fun s => (s.put (F.LPn_PROTO_CFG_SLEEP_IDLE_US 6) 1)
    |> fun s => (s.modPort 6 fun x => { x with sleep := 0 })), (6), by decide +kernel, by decide +kernel, by decide +kernel, by decide +kernel, by decide +kernel⟩,
   ⟨(stu
    |> fun s => (s.put (F.LPn_LINK_STS_STATE 6) 3)
    |> fun s => (s.modPort 6 fun x => { x with sleep := 2 })), (6), by decide +kernel, by decide +kernel, by decide +kernel⟩,
   ⟨(stu
    |> fun s => (s.put (F.LPn_LINK_STS_STATE 5) 3)
    |> fun s => (s.modPort 5 fun x => { x with sleep := 2 })
    |> fun s => (s.modPort 5 fun x => { x with peerHold := true })
    |> fun s => (s.modPort 5 fun x => { x with unacked := [] })), (5), by decide +kernel, by decide +kernel, by decide +kernel, by decide +kernel, by decide +kernel⟩,
   ⟨(stu
    |> fun s => (s.put (F.LPn_LINK_STS_STATE 6) 7)), (6), by decide +kernel, by decide +kernel⟩⟩

theorem wit_PacketResults_1 :
  (∃ (bad : _), (bad = true))
  ∧ (∃ (u : State) (p : _) (k : Pkt) (bad : _), (bad = false) ∧ (u.isRsp p k.vc = false) ∧ (u.dev.mode.serving = false))
  ∧ (∃ (u : State) (p : Nat) (k : Pkt), u.isRsp p k.vc = false ∧ u.dev.mode.serving = true ∧ ∃ e, u.vcBound p k.vc = some e ∧ k.env ≠ e)
  ∧ (∃ (u : State) (p : Nat) (k : Pkt), u.isRsp p k.vc = false ∧ u.dev.mode.serving = true ∧ ∀ e, u.vcBound p k.vc = some e → k.env = e)
  ∧ (∃ (k : Pkt), (k.bad = true))
  ∧ (∃ (k : Pkt), (k.bad = true) ∧ ([1, 2, 5, 0x0A].contains k.op = true))
  ∧ (∃ (k : Pkt), (k.bad = true) ∧ ([3, 4, 8, 0x0B, 0x0C].contains k.op = true))
  ∧ (∃ (s : State) (p : _) (k : Pkt), (s.rxFirst p 1 k = true) ∧ (k.bad = false) ∧ ((s.port p).npIn.length < 4096)) :=
  ⟨⟨(true), rfl⟩,
   ⟨({ stu with dev := { stu.dev with mode := .config } }), (0), (({ op := 1, vc := 0, env := 0, tag := 0, addr := 0, len := 0, status := 0, flags := 0, data := [] } : Pkt)), (false), rfl, by decide +kernel, by decide +kernel⟩,
   ⟨(stu.put (F.LPn_VC_ENV_BOUND 5 0 0) 1).put (F.LPn_VC_ENV_ENV 5 0 0) 9, 5, { op := 1, vc := 0, env := 0, tag := 0, addr := 0, len := 0, status := 0, flags := 0, data := [] }, by decide +kernel, by decide +kernel, 9, by decide +kernel, by decide +kernel⟩,
   ⟨stu, 5, { op := 1, vc := 0, env := 0, tag := 0, addr := 0, len := 0, status := 0, flags := 0, data := [] }, by decide +kernel, by decide +kernel, fun e h => by rw [show stu.vcBound 5 0 = none from by decide +kernel] at h; cases h⟩,
   ⟨(({ op := 1, vc := 0, env := 0, tag := 0, addr := 0, len := 1, status := 0, flags := 4, data := [], bad := true } : Pkt)), by decide +kernel⟩,
   ⟨(({ op := 10, vc := 0, env := 0, tag := 0, addr := 0, len := 1, status := 0, flags := 4, data := [], bad := true } : Pkt)), by decide +kernel, by decide +kernel⟩,
   ⟨(({ op := 12, vc := 0, env := 0, tag := 0, addr := 0, len := 1, status := 0, flags := 4, data := [], bad := true } : Pkt)), by decide +kernel, by decide +kernel⟩,
   ⟨(stu
    |> fun s => (s.modPort 0 fun x => { x with rx := [({ op := 1, vc := 0, env := 0, tag := 0, addr := 0, len := 0, status := 0, flags := 0, data := [] } : Pkt)] })), (0), (({ op := 1, vc := 0, env := 0, tag := 0, addr := 0, len := 0, status := 0, flags := 0, data := [] } : Pkt)), by decide +kernel, by decide +kernel, by decide +kernel⟩⟩

theorem wit_PacketResults_2 :
  (∃ (s : State) (p : _) (k : Pkt), (s.rxFirst p 2 k = true) ∧ (k.bad = false))
  ∧ (∃ (s : State) (p : _) (k : Pkt), (s.rxFirst p 5 k = true) ∧ (k.bad = false) ∧ ((s.port p).npIn.length < 4096))
  ∧ (∃ (s : State) (p : _) (k : Pkt), (s.rxFirst p 0x0A k = true) ∧ (k.bad = false) ∧ ((takeRx p k s).isRsp p k.vc = false) ∧ (((takeRx p k s).port p).npIn.contains k.tag = false))
  ∧ (∃ (s : State) (p : _) (k : Pkt) (u : _) (n : LinkNp), (s.rxFirst p 4 k = true) ∧ (k.bad = false) ∧ (u = takeRx p k s) ∧ (u.isRsp p k.vc = true) ∧ (((u.port p).np.find? fun m => m.tag == k.tag) = some n) ∧ (n.quarantined = false))
  ∧ (∃ (s : State) (p : _) (k : Pkt) (u : _) (n : LinkNp), (s.rxFirst p 4 k = true) ∧ (k.bad = false) ∧ (u = takeRx p k s) ∧ (u.isRsp p k.vc = true) ∧ (((u.port p).np.find? fun m => m.tag == k.tag) = some n) ∧ (n.quarantined = true) ∧ (bitOf k.flags 2 = true))
  ∧ (∃ (s : State) (p : _) (k : Pkt) (u : _), (s.rxFirst p 4 k = true) ∧ (k.bad = false) ∧ (u = takeRx p k s) ∧ (u.isRsp p k.vc = true) ∧ (((u.port p).np.find? fun m => m.tag == k.tag) = none) ∧ ((u.port p).cfgTag ≠ some k.tag))
  ∧ (∃ (s : State) (p : _) (k : Pkt) (u : _), (s.rxFirst p 4 k = true) ∧ (k.bad = false) ∧ (u = takeRx p k s) ∧ (u.isRsp p k.vc = true) ∧ (((u.port p).np.find? fun m => m.tag == k.tag) = none) ∧ ((u.port p).cfgTag = some k.tag) ∧ (u.is (F.LPn_CFG_CMD_WRITE p) = false) ∧ (8 ≤ k.data.length))
  ∧ (∃ (s : State) (p : _) (k : Pkt) (u : _) (n : LinkNp), (s.rxFirst p 3 k = true) ∧ (k.bad = false) ∧ (u = takeRx p k s) ∧ (u.isRsp p k.vc = true) ∧ (((u.port p).np.find? fun m => m.tag == k.tag) = some n) ∧ (n.quarantined = false)) :=
  ⟨⟨(stu
    |> fun s => (s.modPort 0 fun x => { x with rx := [({ op := 2, vc := 0, env := 0, tag := 0, addr := 0, len := 0, status := 0, flags := 0, data := [] } : Pkt)] })), (0), (({ op := 2, vc := 0, env := 0, tag := 0, addr := 0, len := 0, status := 0, flags := 0, data := [] } : Pkt)), by decide +kernel, by decide +kernel⟩,
   ⟨(stu
    |> fun s => (s.modPort 0 fun x => { x with rx := [({ op := 5, vc := 0, env := 0, tag := 0, addr := 0, len := 0, status := 0, flags := 0, data := [] } : Pkt)] })), (0), (({ op := 5, vc := 0, env := 0, tag := 0, addr := 0, len := 0, status := 0, flags := 0, data := [] } : Pkt)), by decide +kernel, by decide +kernel, by decide +kernel⟩,
   ⟨(stu
    |> fun s => (s.modPort 0 fun x => { x with rx := [({ op := 0x0A, vc := 0, env := 0, tag := 0, addr := 0, len := 0, status := 0, flags := 0, data := [] } : Pkt)] })), (0), (({ op := 0x0A, vc := 0, env := 0, tag := 0, addr := 0, len := 0, status := 0, flags := 0, data := [] } : Pkt)), by decide +kernel, by decide +kernel, by decide +kernel, by decide +kernel⟩,
   ⟨(stu
    |> fun s => (s.modPort 5 fun x => { x with rx := [({ op := 4, vc := 1, env := 0, tag := 3, addr := 0, len := 0, status := 0, flags := 0, data := [] } : Pkt)] })
    |> fun s => (s.modPort 5 fun x => { x with np := [({ tag := 3, frame := { typ := .read, cls := 0, inp := 0, out := 9 } } : LinkNp)] })
    |> fun s => (s.put (F.LPn_PROTO_CFG_ROLES 5) 2)), (5), (({ op := 4, vc := 1, env := 0, tag := 3, addr := 0, len := 0, status := 0, flags := 0, data := [] } : Pkt)), (takeRx 5 ({ op := 4, vc := 1, env := 0, tag := 3, addr := 0, len := 0, status := 0, flags := 0, data := [] } : Pkt) (stu
    |> fun s => (s.modPort 5 fun x => { x with rx := [({ op := 4, vc := 1, env := 0, tag := 3, addr := 0, len := 0, status := 0, flags := 0, data := [] } : Pkt)] })
    |> fun s => (s.modPort 5 fun x => { x with np := [({ tag := 3, frame := { typ := .read, cls := 0, inp := 0, out := 9 } } : LinkNp)] })
    |> fun s => (s.put (F.LPn_PROTO_CFG_ROLES 5) 2))), (({ tag := 3, frame := { typ := .read, cls := 0, inp := 0, out := 9 } } : LinkNp)), by decide +kernel, by decide +kernel, rfl, by decide +kernel, by decide +kernel, by decide +kernel⟩,
   ⟨(stu
    |> fun s => (s.modPort 5 fun x => { x with rx := [({ op := 4, vc := 1, env := 0, tag := 3, addr := 0, len := 0, status := 0, flags := 4, data := [] } : Pkt)] })
    |> fun s => (s.modPort 5 fun x => { x with np := [({ tag := 3, frame := { typ := .read, cls := 0, inp := 0, out := 9 }, quarantined := true } : LinkNp)] })
    |> fun s => (s.put (F.LPn_PROTO_CFG_ROLES 5) 2)), (5), (({ op := 4, vc := 1, env := 0, tag := 3, addr := 0, len := 0, status := 0, flags := 4, data := [] } : Pkt)), (takeRx 5 ({ op := 4, vc := 1, env := 0, tag := 3, addr := 0, len := 0, status := 0, flags := 4, data := [] } : Pkt) (stu
    |> fun s => (s.modPort 5 fun x => { x with rx := [({ op := 4, vc := 1, env := 0, tag := 3, addr := 0, len := 0, status := 0, flags := 4, data := [] } : Pkt)] })
    |> fun s => (s.modPort 5 fun x => { x with np := [({ tag := 3, frame := { typ := .read, cls := 0, inp := 0, out := 9 }, quarantined := true } : LinkNp)] })
    |> fun s => (s.put (F.LPn_PROTO_CFG_ROLES 5) 2))), (({ tag := 3, frame := { typ := .read, cls := 0, inp := 0, out := 9 }, quarantined := true } : LinkNp)), by decide +kernel, by decide +kernel, rfl, by decide +kernel, by decide +kernel, by decide +kernel, by decide +kernel⟩,
   ⟨(stu
    |> fun s => (s.modPort 5 fun x => { x with rx := [({ op := 4, vc := 1, env := 0, tag := 3, addr := 0, len := 0, status := 0, flags := 0, data := [] } : Pkt)] })
    |> fun s => (s.put (F.LPn_PROTO_CFG_ROLES 5) 2)), (5), (({ op := 4, vc := 1, env := 0, tag := 3, addr := 0, len := 0, status := 0, flags := 0, data := [] } : Pkt)), (takeRx 5 ({ op := 4, vc := 1, env := 0, tag := 3, addr := 0, len := 0, status := 0, flags := 0, data := [] } : Pkt) (stu
    |> fun s => (s.modPort 5 fun x => { x with rx := [({ op := 4, vc := 1, env := 0, tag := 3, addr := 0, len := 0, status := 0, flags := 0, data := [] } : Pkt)] })
    |> fun s => (s.put (F.LPn_PROTO_CFG_ROLES 5) 2))), by decide +kernel, by decide +kernel, rfl, by decide +kernel, by decide +kernel, by decide +kernel⟩,
   ⟨(stu
    |> fun s => (s.modPort 5 fun x => { x with rx := [({ op := 4, vc := 1, env := 0, tag := 3, addr := 0, len := 0, status := 0, flags := 0, data := [1, 2, 3, 4, 5, 6, 7, 8] } : Pkt)] })
    |> fun s => (s.modPort 5 fun x => { x with cfgTag := some ({ op := 4, vc := 1, env := 0, tag := 3, addr := 0, len := 0, status := 0, flags := 0, data := [1, 2, 3, 4, 5, 6, 7, 8] } : Pkt).tag })
    |> fun s => (s.put (F.LPn_PROTO_CFG_ROLES 5) 2)), (5), (({ op := 4, vc := 1, env := 0, tag := 3, addr := 0, len := 0, status := 0, flags := 0, data := [1, 2, 3, 4, 5, 6, 7, 8] } : Pkt)), (takeRx 5 ({ op := 4, vc := 1, env := 0, tag := 3, addr := 0, len := 0, status := 0, flags := 0, data := [1, 2, 3, 4, 5, 6, 7, 8] } : Pkt) (stu
    |> fun s => (s.modPort 5 fun x => { x with rx := [({ op := 4, vc := 1, env := 0, tag := 3, addr := 0, len := 0, status := 0, flags := 0, data := [1, 2, 3, 4, 5, 6, 7, 8] } : Pkt)] })
    |> fun s => (s.modPort 5 fun x => { x with cfgTag := some ({ op := 4, vc := 1, env := 0, tag := 3, addr := 0, len := 0, status := 0, flags := 0, data := [1, 2, 3, 4, 5, 6, 7, 8] } : Pkt).tag })
    |> fun s => (s.put (F.LPn_PROTO_CFG_ROLES 5) 2))), by decide +kernel, by decide +kernel, rfl, by decide +kernel, by decide +kernel, by decide +kernel, by decide +kernel, by decide +kernel⟩,
   ⟨(stu
    |> fun s => (s.modPort 5 fun x => { x with rx := [({ op := 3, vc := 1, env := 0, tag := 3, addr := 0, len := 0, status := 0, flags := 0, data := [] } : Pkt)] })
    |> fun s => (s.modPort 5 fun x => { x with np := [({ tag := 3, frame := { typ := .read, cls := 0, inp := 0, out := 9 } } : LinkNp)] })
    |> fun s => (s.put (F.LPn_PROTO_CFG_ROLES 5) 2)), (5), (({ op := 3, vc := 1, env := 0, tag := 3, addr := 0, len := 0, status := 0, flags := 0, data := [] } : Pkt)), (takeRx 5 ({ op := 3, vc := 1, env := 0, tag := 3, addr := 0, len := 0, status := 0, flags := 0, data := [] } : Pkt) (stu
    |> fun s => (s.modPort 5 fun x => { x with rx := [({ op := 3, vc := 1, env := 0, tag := 3, addr := 0, len := 0, status := 0, flags := 0, data := [] } : Pkt)] })
    |> fun s => (s.modPort 5 fun x => { x with np := [({ tag := 3, frame := { typ := .read, cls := 0, inp := 0, out := 9 } } : LinkNp)] })
    |> fun s => (s.put (F.LPn_PROTO_CFG_ROLES 5) 2))), (({ tag := 3, frame := { typ := .read, cls := 0, inp := 0, out := 9 } } : LinkNp)), by decide +kernel, by decide +kernel, rfl, by decide +kernel, by decide +kernel, by decide +kernel⟩⟩

theorem wit_PacketResults_3 :
  (∃ (s : State) (p : _) (k : Pkt) (u : _), (s.rxFirst p 3 k = true) ∧ (k.bad = false) ∧ (u = takeRx p k s) ∧ (u.isRsp p k.vc = true) ∧ (((u.port p).np.find? fun m => m.tag == k.tag) = none) ∧ ((u.port p).cfgTag = some k.tag))
  ∧ (∃ (s : State) (p : _) (k : Pkt) (u : _), (s.rxFirst p 8 k = true) ∧ (k.bad = false) ∧ (u = takeRx p k s) ∧ (u.isRsp p k.vc = true) ∧ (p < 6) ∧ (0x1000 ≤ k.tag) ∧ (k.tag ≤ 0x3FFF))
  ∧ (∃ (s : State) (p : _) (k : Pkt) (u : _) (n : LinkNp), (s.rxFirst p 8 k = true) ∧ (k.bad = false) ∧ (u = takeRx p k s) ∧ (u.isRsp p k.vc = true) ∧ (k.tag < 0x1000) ∧ (((u.port p).np.find? fun m => m.tag == k.tag) = some n) ∧ (n.quarantined = false))
  ∧ (∃ (s : State) (p : _) (k : Pkt), (s.rxFirst p 6 k = true) ∧ (k.bad = false) ∧ (p < 6) ∧ ((s.icu.msgs.filter fun m => m.port == p).length < 256))
  ∧ (∃ (s : State) (m : MsgInt), s.msgReady 5 = some m ∧ bitOf (s.get (F.ICU_SRC_CFG_TARGETS (256 + 128 * m.port + m.vector))) 8 = true ∧ s.get (F.ICU_SRC_CFG_HOST_FN (256 + 128 * m.port + m.vector)) ≠ 0 ∧ s.fnEnv (s.get (F.ICU_SRC_CFG_HOST_FN (256 + 128 * m.port + m.vector))) ≠ some m.env)
  ∧ (∃ (s : State) (m : MsgInt), s.msgReady 5 = some m ∧ bitOf (s.get (F.ICU_SRC_CFG_TARGETS (256 + 128 * m.port + m.vector))) 8 = false ∧ m.action = 0)
  ∧ (∃ (s : State) (m : MsgInt), s.msgReady 5 = some m ∧ bitOf (s.get (F.ICU_SRC_CFG_TARGETS (256 + 128 * m.port + m.vector))) 8 = false ∧ m.action = 1)
  ∧ (∃ (s : State) (m : MsgInt), s.msgReady 5 = some m ∧ bitOf (s.get (F.ICU_SRC_CFG_TARGETS (256 + 128 * m.port + m.vector))) 8 = false ∧ m.action = 2) :=
  ⟨⟨(stu
    |> fun s => (s.modPort 5 fun x => { x with rx := [({ op := 3, vc := 1, env := 0, tag := 3, addr := 0, len := 0, status := 0, flags := 0, data := [] } : Pkt)] })
    |> fun s => (s.modPort 5 fun x => { x with cfgTag := some ({ op := 3, vc := 1, env := 0, tag := 3, addr := 0, len := 0, status := 0, flags := 0, data := [] } : Pkt).tag })
    |> fun s => (s.put (F.LPn_PROTO_CFG_ROLES 5) 2)), (5), (({ op := 3, vc := 1, env := 0, tag := 3, addr := 0, len := 0, status := 0, flags := 0, data := [] } : Pkt)), (takeRx 5 ({ op := 3, vc := 1, env := 0, tag := 3, addr := 0, len := 0, status := 0, flags := 0, data := [] } : Pkt) (stu
    |> fun s => (s.modPort 5 fun x => { x with rx := [({ op := 3, vc := 1, env := 0, tag := 3, addr := 0, len := 0, status := 0, flags := 0, data := [] } : Pkt)] })
    |> fun s => (s.modPort 5 fun x => { x with cfgTag := some ({ op := 3, vc := 1, env := 0, tag := 3, addr := 0, len := 0, status := 0, flags := 0, data := [] } : Pkt).tag })
    |> fun s => (s.put (F.LPn_PROTO_CFG_ROLES 5) 2))), by decide +kernel, by decide +kernel, rfl, by decide +kernel, by decide +kernel, by decide +kernel⟩,
   ⟨(stu
    |> fun s => (s.modPort 5 fun x => { x with rx := [({ op := 8, vc := 1, env := 0, tag := 0x3FFF, addr := 0, len := 0, status := 0, flags := 0, data := [] } : Pkt)] })
    |> fun s => (s.put (F.LPn_PROTO_CFG_ROLES 5) 2)), (5), (({ op := 8, vc := 1, env := 0, tag := 0x3FFF, addr := 0, len := 0, status := 0, flags := 0, data := [] } : Pkt)), (takeRx 5 ({ op := 8, vc := 1, env := 0, tag := 0x3FFF, addr := 0, len := 0, status := 0, flags := 0, data := [] } : Pkt) (stu
    |> fun s => (s.modPort 5 fun x => { x with rx := [({ op := 8, vc := 1, env := 0, tag := 0x3FFF, addr := 0, len := 0, status := 0, flags := 0, data := [] } : Pkt)] })
    |> fun s => (s.put (F.LPn_PROTO_CFG_ROLES 5) 2))), by decide +kernel, by decide +kernel, rfl, by decide +kernel, by decide +kernel, by decide +kernel, by decide +kernel⟩,
   ⟨(stu
    |> fun s => (s.modPort 5 fun x => { x with rx := [({ op := 8, vc := 1, env := 0, tag := 3, addr := 0, len := 0, status := 0, flags := 0, data := [] } : Pkt)] })
    |> fun s => (s.modPort 5 fun x => { x with np := [({ tag := 3, frame := { typ := .read, cls := 0, inp := 0, out := 9 } } : LinkNp)] })
    |> fun s => (s.put (F.LPn_PROTO_CFG_ROLES 5) 2)), (5), (({ op := 8, vc := 1, env := 0, tag := 3, addr := 0, len := 0, status := 0, flags := 0, data := [] } : Pkt)), (takeRx 5 ({ op := 8, vc := 1, env := 0, tag := 3, addr := 0, len := 0, status := 0, flags := 0, data := [] } : Pkt) (stu
    |> fun s => (s.modPort 5 fun x => { x with rx := [({ op := 8, vc := 1, env := 0, tag := 3, addr := 0, len := 0, status := 0, flags := 0, data := [] } : Pkt)] })
    |> fun s => (s.modPort 5 fun x => { x with np := [({ tag := 3, frame := { typ := .read, cls := 0, inp := 0, out := 9 } } : LinkNp)] })
    |> fun s => (s.put (F.LPn_PROTO_CFG_ROLES 5) 2))), (({ tag := 3, frame := { typ := .read, cls := 0, inp := 0, out := 9 } } : LinkNp)), by decide +kernel, by decide +kernel, rfl, by decide +kernel, by decide +kernel, by decide +kernel, by decide +kernel⟩,
   ⟨(stu
    |> fun s => (s.modPort 5 fun x => { x with rx := [({ op := 6, vc := 0, env := 0, tag := 0, addr := 0, len := 0, status := 0, flags := 0, data := [] } : Pkt)] })), (5), (({ op := 6, vc := 0, env := 0, tag := 0, addr := 0, len := 0, status := 0, flags := 0, data := [] } : Pkt)), by decide +kernel, by decide +kernel, by decide +kernel, by decide +kernel⟩,
   ⟨({ stu with icu := { stu.icu with msgs := [{ port := 5, vc := 0, vector := 127, action := 0, env := 3 }] } }.put (F.ICU_SRC_CFG_TARGETS 1023) 256).put (F.ICU_SRC_CFG_HOST_FN 1023) 1, { port := 5, vc := 0, vector := 127, action := 0, env := 3 }, by decide +kernel⟩,
   ⟨{ stu with icu := { stu.icu with msgs := [{ port := 5, vc := 0, vector := 127, action := 0, env := 3 }] } }, { port := 5, vc := 0, vector := 127, action := 0, env := 3 }, by decide +kernel⟩,
   ⟨{ stu with icu := { stu.icu with msgs := [{ port := 5, vc := 0, vector := 127, action := 1, env := 3 }] } }, { port := 5, vc := 0, vector := 127, action := 1, env := 3 }, by decide +kernel⟩,
   ⟨{ stu with icu := { stu.icu with msgs := [{ port := 5, vc := 0, vector := 127, action := 2, env := 3 }] } }, { port := 5, vc := 0, vector := 127, action := 2, env := 3 }, by decide +kernel⟩⟩

theorem wit_PacketResults_4 :
  (∃ (s : State) (p : _) (k : Pkt), (s.rxFirst p 7 k = true) ∧ (k.bad = false) ∧ (p < 6) ∧ ((takeRx p k s).isRsp p k.vc = false) ∧ ((takeRx p k s).vcWrong p k = false))
  ∧ (∃ (s : State) (p : _), (p < 6) ∧ (s.is (F.LPn_CFG_CMD_GO p) = true)) :=
  ⟨⟨(stu
    |> fun s => (s.modPort 5 fun x => { x with rx := [({ op := 7, vc := 0, env := 0, tag := 0, addr := 0, len := 0, status := 0, flags := 0, data := [] } : Pkt)] })), (5), (({ op := 7, vc := 0, env := 0, tag := 0, addr := 0, len := 0, status := 0, flags := 0, data := [] } : Pkt)), by decide +kernel, by decide +kernel, by decide +kernel, by decide +kernel, by decide +kernel⟩,
   ⟨(stu
    |> fun s => (s.put (F.LPn_CFG_CMD_GO 5) 1)), (5), by decide +kernel, by decide +kernel⟩⟩

theorem wit_InterruptResults_1 :
  (∃ (s : State) (c : _) (a : Agent) (v : _), (c < 8) ∧ ((ctlRead a (R.ICU_CLAIM c) 64 s).2 = some v))
  ∧ (∃ (s : State) (c : _) (a : Agent), (c < 8) ∧ ((ctlRead a (R.ICU_CLAIM c) 64 s).2 = none))
  ∧ (∃ (s : State), (s.hostRx = true))
  ∧ (∃ (s : State), (s.hostRx = true))
  ∧ (∃ (s : State) (e : HpEvent) (r : List HpEvent), (s.icu.hpq = e :: r) ∧ (s.recordAheadOf e.fn = false))
  ∧ (∃ (s : State) (e : HpEvent) (r : List HpEvent), (s.icu.hpq = e :: r) ∧ (s.recordAheadOf e.fn = true))
  ∧ (∃ (s : State) (f : _) (k : _) (e : HpEvent), ((s.icu.msixRead.find? fun e => e.fn == f && e.vec == k) = some e) ∧ (s.hbmPoison (s.msixOff (s.msixBase f + k)) = false))
  ∧ (∃ (s : State) (f : _) (k : _), ((s.msixE (s.msixBase f + k)).masked = true)) :=
  ⟨⟨(stu), (7), (.pf0), (((ctlRead .pf0 (R.ICU_CLAIM 7) 64 stu).2).getD 0), by decide +kernel, by decide +kernel⟩,
   ⟨(stu
    |> fun s => ({ s with dev := { s.dev with up := false } })), (7), (.pf0), by decide +kernel, by decide +kernel⟩,
   ⟨(stu
    |> fun s => (s.put F.HEP_LINK_STS_UP 1)), by decide +kernel⟩,
   ⟨(stu
    |> fun s => (s.put F.HEP_LINK_STS_UP 1)), by decide +kernel⟩,
   ⟨(stu
    |> fun s => ({ s with icu := { s.icu with hpq := ({ fn := 1, vec := 0 } : HpEvent) :: ([] : List HpEvent) } })), (({ fn := 1, vec := 0 } : HpEvent)), (([] : List HpEvent)), by decide +kernel, by decide +kernel⟩,
   ⟨(stu
    |> fun s => ({ s with icu := { s.icu with hpq := ({ fn := 1, vec := 0 } : HpEvent) :: ([] : List HpEvent) } })
    |> fun s => ({ s with swc := { s.swc with queued := [{ typ := .write, cls := 0, inp := 1, out := 0, fn := 1, origin := .record 0 }] } })), (({ fn := 1, vec := 0 } : HpEvent)), (([] : List HpEvent)), by decide +kernel, by decide +kernel⟩,
   ⟨(stu
    |> fun s => ({ s with icu := { s.icu with msixRead := [({ fn := 1, vec := 0 } : HpEvent)] } })), (1), (0), (({ fn := 1, vec := 0 } : HpEvent)), by decide +kernel, by decide +kernel⟩,
   ⟨(stu), (0), (0), by decide +kernel⟩⟩

theorem wit_InterruptResults_2 :
  ∃ (s : State) (f : _) (k : _), ((s.msixE (s.msixBase f + k)).masked = false) ∧ ((s.fnOf f).msixMask = false) ∧ ((s.fnOf f).msixEn = true) ∧ (s.mayMsg f = true) :=
  ⟨(stu
    |> fun s => (s.setFn 1 { s.fnOf 1 with msixMask := false })
    |> fun s => (s.setFn 1 { s.fnOf 1 with msixEn := true })
    |> fun s => ({ s with fns := [(1, { bme := true, msixEn := true })], msix := [(s.msixBase 1, { masked := false })] })), (1), (0), by decide +kernel, by decide +kernel, by decide +kernel, by decide +kernel⟩

theorem wit_DevResults_1 :
  (∃ (s : State) (a : _) (v : _) (r : _), (s.Takes a .dev R.DEV_CTL r (withField v 4 1 1)) ∧ (s.dev.mode ≠ .safe))
  ∧ (∃ (s : State) (a : _) (v : _) (r : _), (s.Takes a .dev R.DEV_CTL r v) ∧ (s.dev.mode.running = true) ∧ (fieldOf v 1 1 = 1) ∧ (fieldOf (s.reg R.DEV_CTL) 1 1 = 0) ∧ (fieldOf v 2 1 = 0) ∧ (fieldOf v 4 1 = 0))
  ∧ (∃ (s : State) (a : _) (v : _) (r : _), (s.Takes a .dev R.DEV_CTL r (withField v 2 1 1)) ∧ (s.dev.mode = .quiesce) ∧ (s.is F.DEV_STS_DRAINED = true) ∧ (fieldOf v 4 1 = 0)) :=
  ⟨⟨(stu), (.pf0), (0), (regAt (stu) R.DEV_CTL), takes_of (by decide +kernel), by decide +kernel⟩,
   ⟨(stu), (.pf0), (0x2), (regAt (stu) R.DEV_CTL), takes_of (by decide +kernel), by decide +kernel, by decide +kernel, by decide +kernel, by decide +kernel, by decide +kernel⟩,
   ⟨(stu
    |> fun s => ({ s with dev := { s.dev with mode := .quiesce } })
    |> fun s => (s.put F.DEV_STS_DRAINED 1)), (.pf0), (0x0), (regAt (stu
    |> fun s => ({ s with dev := { s.dev with mode := .quiesce } })
    |> fun s => (s.put F.DEV_STS_DRAINED 1)) R.DEV_CTL), takes_of (by decide +kernel), by decide +kernel, by decide +kernel, by decide +kernel⟩⟩

theorem wit_DevResults_2 :
  (∃ (s : State) (a : _) (v : _) (r : _), (s.Takes a .dev R.DEV_CTL r (withField v 0 1 1)) ∧ (s.dev.mode = .config) ∧ (fieldOf (s.reg R.DEV_CTL) 0 1 = 0) ∧ (fieldOf v 1 1 = 0) ∧ (fieldOf (s.reg R.DEV_CTL) 1 1 = 0) ∧ (fieldOf v 2 1 = 0) ∧ (fieldOf v 4 1 = 0))
  ∧ (∃ (s : State) (a : _), (s.mayControl a = true))
  ∧ (∃ (s : State), (s.hostRx = true)) :=
  ⟨⟨(stu
    |> fun s => ({ s with dev := { s.dev with mode := .config } })), (.pf0), (0x0), (regAt (stu
    |> fun s => ({ s with dev := { s.dev with mode := .config } })) R.DEV_CTL), takes_of (by decide +kernel), by decide +kernel, by decide +kernel, by decide +kernel, by decide +kernel, by decide +kernel, by decide +kernel⟩,
   ⟨(stu), (.pf0), by decide +kernel⟩,
   ⟨(stu
    |> fun s => (s.put F.HEP_LINK_STS_UP 1)), by decide +kernel⟩⟩

theorem wit_DevResults_3 :
  (∃ (s : State) (a : _) (off : _) (v : _) (b : Blk) (r : _) (w : _), (s.Takes a b off r v) ∧ (w ≠ 64))
  ∧ (∃ (s : State) (a : _) (off : _) (v : _) (b : Blk) (r : RegDef), (s.mayControl a = true) ∧ (blockAt off = some b) ∧ (s.reaches a b = true) ∧ (s.hasBlk b = true) ∧ (off < 0x1600000) ∧ (off % 8 = 0) ∧ (s.regDef off = some r) ∧ (s.ctlRefused s.dev.mode off v = true)) :=
  ⟨⟨(stu), (.pf0), (R.SPL_CTL), (0), (Blk.spl), (regAt (stu) R.SPL_CTL), (32), takes_of (by decide +kernel), by decide +kernel⟩,
   ⟨(stu), (.pf0), (0x120000), (1), (Blk.wxl), ((regAt stu (R.WXL_OWIN_CTL 0))), by decide +kernel, by decide +kernel, by decide +kernel, by decide +kernel, by decide +kernel, by decide +kernel, by decide +kernel, by decide +kernel⟩⟩

theorem wit_CoreResults_1 :
  (∃ (s : State) (c : _) (x : Core), (c < 8) ∧ (s.coreOnline c = true) ∧ (s.coreOf c = x) ∧ (x.fastActive = false) ∧ (x.fastEn = true) ∧ (s.fastRequest c = true))
  ∧ (∃ (s : State) (c : _) (x : Core), (c < 8) ∧ (s.coreOnline c = true) ∧ (s.coreOf c = x) ∧ (x.fastActive = true) ∧ (x.machine = true))
  ∧ (∃ (s : State) (c : _), (c < 8) ∧ (s.coreOnline c = true) ∧ ((s.coreOf c).fastActive = true) ∧ (faulted c s (coreLeave c 3 1 s) = false))
  ∧ (∃ (s : State) (c : _), (c < 8) ∧ (s.coreOnline c = true) ∧ ((s.coreOf c).fastActive = false) ∧ ((s.coreOf c).machine = true))
  ∧ (∃ (s : State) (c : _) (n : _), (c < 8) ∧ (s.coreOnline c = true) ∧ ((s.coreOf c).fastActive = false) ∧ ((s.coreOf c).machine = true) ∧ (n < 2048))
  ∧ (∃ (s : State) (c : _) (h : _), (c < 8) ∧ (s.coreOnline c = true) ∧ ((s.coreOf c).fastActive = false) ∧ ((s.coreOf c).machine = true) ∧ (h < 16))
  ∧ (∃ (s : State) (c : _), ((s.coreOf c).head = 0) ∧ ((s.mbox c 0).st = 1) ∧ ((∀ k < 16, k ≠ 0 → (s.mbox c k).st ≠ 1)))
  ∧ (∃ (s : State) (c : _), (c < 8) ∧ (s.coreOnline c = true) ∧ ((s.coreOf c).fastActive = false) ∧ ((s.coreOf c).machine = true)) :=
  ⟨⟨(stu
    |> fun s => (s.put (F.GDC_CORE_STS_STATE 7) 1)
    |> fun s => (({ (s.setCore 7 { fastEn := true }) with icu := { s.icu with offer := [(1023, 128)] } }.put (F.ICU_SRC_CFG_FAST 1023) 1).put (F.ICU_SRC_STS_OFFERED 1023) 1)), (7), (({ fastEn := true } : Core)), by decide +kernel, by decide +kernel, by decide +kernel, by decide +kernel, by decide +kernel, by decide +kernel⟩,
   ⟨(stu
    |> fun s => (s.put (F.GDC_CORE_STS_STATE 7) 1)
    |> fun s => (s.setCore 7 { fastActive := true })), (7), (({ fastActive := true } : Core)), by decide +kernel, by decide +kernel, by decide +kernel, by decide +kernel, by decide +kernel⟩,
   ⟨(stu
    |> fun s => (s.put (F.GDC_CORE_STS_STATE 7) 1)
    |> fun s => (s.setCore 7 { s.coreOf 7 with fastActive := true })), (7), by decide +kernel, by decide +kernel, by decide +kernel, by decide +kernel⟩,
   ⟨(stu
    |> fun s => (s.put (F.GDC_CORE_STS_STATE 7) 1)
    |> fun s => (s.setCore 7 { s.coreOf 7 with fastActive := false })
    |> fun s => (s.setCore 7 { s.coreOf 7 with machine := true })), (7), by decide +kernel, by decide +kernel, by decide +kernel, by decide +kernel⟩,
   ⟨(stu
    |> fun s => (s.put (F.GDC_CORE_STS_STATE 7) 1)
    |> fun s => (s.setCore 7 { s.coreOf 7 with fastActive := false })
    |> fun s => (s.setCore 7 { s.coreOf 7 with machine := true })), (7), (2047), by decide +kernel, by decide +kernel, by decide +kernel, by decide +kernel, by decide +kernel⟩,
   ⟨(stu
    |> fun s => (s.put (F.GDC_CORE_STS_STATE 7) 1)
    |> fun s => (s.setCore 7 { s.coreOf 7 with fastActive := false })
    |> fun s => (s.setCore 7 { s.coreOf 7 with machine := true })), (7), (15), by decide +kernel, by decide +kernel, by decide +kernel, by decide +kernel, by decide +kernel⟩,
   ⟨(stu
    |> fun s => (s.setCore 7 { s.coreOf 7 with head := 0 })
    |> fun s => (s.setMbox 7 0 { st := 1 })), (7), by decide +kernel, by decide +kernel, by decide +kernel⟩,
   ⟨(stu
    |> fun s => (s.put (F.GDC_CORE_STS_STATE 7) 1)
    |> fun s => (s.setCore 7 { s.coreOf 7 with fastActive := false })
    |> fun s => (s.setCore 7 { s.coreOf 7 with machine := true })), (7), by decide +kernel, by decide +kernel, by decide +kernel, by decide +kernel⟩⟩

theorem wit_CoreResults_2 :
  (∃ (s : State) (c : _) (k : _) (w : _), ((s.mbox c k).st = 2) ∧ (wordAt (s.mbox c k).area 0 = w) ∧ (fieldOf w 0 8 ≤ 0x0D))
  ∧ (∃ (s : State) (c : _), (c < 8) ∧ (s.coreOnline c = true) ∧ ((s.coreOf c).fastActive = false) ∧ ((s.coreOf c).machine = true))
  ∧ (∃ (s : State) (c : _), (c < 8) ∧ (s.coreOnline c = true) ∧ ((s.coreOf c).fastActive = false) ∧ ((s.coreOf c).machine = true))
  ∧ (∃ (s : State) (c : _) (v : _) (q : _) (e : _), (s.dev.mode ≠ .safe) ∧ (fieldOf v 0 22 = q) ∧ (s.get (F.GDC_CORE_CTL_ENV c) = e) ∧ (s.coreDev c = true ∨ (s.qblkEnv q = some e ∧ s.owns e = true)))
  ∧ (∃ (s : State) (c : _) (v : _) (q : _) (e : _), (s.dev.mode ≠ .safe) ∧ (fieldOf v 0 22 = q) ∧ (s.get (F.GDC_CORE_CTL_ENV c) = e) ∧ (s.coreDev c = false) ∧ (s.qblkEnv q ≠ some e ∨ s.owns e = false))
  ∧ (∃ (s : State) (c : _), (c < 8) ∧ (s.coreOnline c = true) ∧ ((s.coreOf c).fastActive = false) ∧ ((s.coreOf c).machine = true))
  ∧ (∃ (s : State) (c : _), (c < 8) ∧ (s.coreOnline c = true) ∧ ((s.coreOf c).fastActive = false) ∧ ((s.coreOf c).machine = false)) :=
  ⟨⟨(stu
    |> fun s => (s.setMbox 7 15 { st := 2 })), (7), (15), (0), by decide +kernel, by decide +kernel, by decide +kernel⟩,
   ⟨(stu
    |> fun s => (s.put (F.GDC_CORE_STS_STATE 7) 1)
    |> fun s => (s.setCore 7 { s.coreOf 7 with fastActive := false })
    |> fun s => (s.setCore 7 { s.coreOf 7 with machine := true })), (7), by decide +kernel, by decide +kernel, by decide +kernel, by decide +kernel⟩,
   ⟨(stu
    |> fun s => (s.put (F.GDC_CORE_STS_STATE 7) 1)
    |> fun s => (s.setCore 7 { s.coreOf 7 with fastActive := false })
    |> fun s => (s.setCore 7 { s.coreOf 7 with machine := true })), (7), by decide +kernel, by decide +kernel, by decide +kernel, by decide +kernel⟩,
   ⟨(stu
    |> fun s => (s.put (F.GDC_CORE_CTL_ENV 7) 0)
    |> fun s => (s.put (F.GDC_CORE_CTL_BIND_DEV 7) 1)), (7), (0x0), (0), (0), by decide +kernel, by decide +kernel, by decide +kernel, by decide +kernel⟩,
   ⟨(stu
    |> fun s => (s.put (F.GDC_CORE_CTL_ENV 0) 0)), (0), (0x0), (0), (0), by decide +kernel, by decide +kernel, by decide +kernel, by decide +kernel, by decide +kernel⟩,
   ⟨(stu
    |> fun s => (s.put (F.GDC_CORE_STS_STATE 7) 1)
    |> fun s => (s.setCore 7 { s.coreOf 7 with fastActive := false })
    |> fun s => (s.setCore 7 { s.coreOf 7 with machine := true })), (7), by decide +kernel, by decide +kernel, by decide +kernel, by decide +kernel⟩,
   ⟨(stu
    |> fun s => (s.put (F.GDC_CORE_STS_STATE 7) 1)
    |> fun s => (s.setCore 7 { s.coreOf 7 with fastActive := false })
    |> fun s => (s.setCore 7 { s.coreOf 7 with machine := false })), (7), by decide +kernel, by decide +kernel, by decide +kernel, by decide +kernel⟩⟩

theorem wit_CoreMemoryResults_1 :
  (∃ (s : State) (r : CoreReq), r.core < 8 ∧ s.coreOnline r.core = true ∧ (s.coreOf r.core).fastActive = false ∧ (s.coreOf r.core).load = none ∧ (s.coreOf r.core).yield = none ∧ 1 ≤ r.len ∧ r.len ≤ 8 ∧ r.kind ≤ 3 ∧ (r.kind = 1 → r.len ≤ r.data.length))
  ∧ (∃ (r : CoreReq), (r.addr + r.len ≤ 0x40000))
  ∧ (∃ (r : CoreReq), (0x100000 ≤ r.addr) ∧ (r.addr + r.len ≤ 0x100800) ∧ (r.kind ≤ 1))
  ∧ (∃ (r : CoreReq), (0x101000 ≤ r.addr) ∧ (r.addr + r.len ≤ 0x101008) ∧ (1 ≤ r.len) ∧ (r.kind ≤ 1))
  ∧ (∃ (u : State) (r : CoreReq), (2 ^ 32 ≤ r.addr) ∧ (r.addr + r.len ≤ 2 ^ 32 + (u.gdcMem r.core).2) ∧ (1 ≤ r.len))
  ∧ (∃ (u : State) (r : CoreReq), ((u.gdcMem r.core).2 ≤ 2 ^ 32) ∧ (2 ^ 33 ≤ r.addr) ∧ (r.addr + r.len ≤ 2 ^ 33 + 0x4000000) ∧ (1 ≤ r.len) ∧ (r.kind ≤ 1))
  ∧ (∃ (u : State) (r : CoreReq), ((u.gdcMem r.core).2 ≤ 2 ^ 32) ∧ (2 ^ 55 ≤ r.addr) ∧ (r.addr + r.len ≤ 2 ^ 55 + 2 ^ 48) ∧ (1 ≤ r.len) ∧ (r.kind ≤ 1))
  ∧ (∃ (r : CoreReq), (0x40000 ≤ r.addr) ∧ (r.addr + r.len ≤ 0x100000) ∧ (1 ≤ r.len)) :=
  ⟨⟨stu.put (F.GDC_CORE_STS_STATE 7) 1, { core := 7, kind := 1, addr := 0x3FFF8, len := 8, data := [1, 2, 3, 4, 5, 6, 7, 8], machine := true }, by decide +kernel⟩,
   ⟨(({ core := 7, kind := 0, addr := 0, len := 8, data := [1, 2, 3, 4, 5, 6, 7, 8], machine := true } : CoreReq)), by decide +kernel⟩,
   ⟨(({ core := 7, kind := 0, addr := 0x100000, len := 8, data := [1, 2, 3, 4, 5, 6, 7, 8], machine := true } : CoreReq)), by decide +kernel, by decide +kernel, by decide +kernel⟩,
   ⟨(({ core := 7, kind := 0, addr := 0x101000, len := 1, data := [1, 2, 3, 4, 5, 6, 7, 8], machine := true } : CoreReq)), by decide +kernel, by decide +kernel, by decide +kernel, by decide +kernel⟩,
   ⟨((stu.put (F.HBM_PART_PRESENT 5) 1).put (F.HBM_PART_SIZE_MIB 5) 8), (({ core := 7, kind := 0, addr := 2 ^ 32 + 2 ^ 20 - 8, len := 8, data := [], machine := true } : CoreReq)), by decide +kernel, by decide +kernel, by decide +kernel⟩,
   ⟨(stu), (({ core := 7, kind := 0, addr := 2 ^ 33 + 0x4000000 - 8, len := 8, data := [], machine := true } : CoreReq)), by decide +kernel, by decide +kernel, by decide +kernel, by decide +kernel, by decide +kernel⟩,
   ⟨(stu), (({ core := 7, kind := 0, addr := 2 ^ 55 + 2 ^ 48 - 8, len := 8, data := [], machine := true } : CoreReq)), by decide +kernel, by decide +kernel, by decide +kernel, by decide +kernel, by decide +kernel⟩,
   ⟨(({ core := 7, kind := 0, addr := 0x40000, len := 1, data := [1, 2, 3, 4, 5, 6, 7, 8], machine := true } : CoreReq)), by decide +kernel, by decide +kernel, by decide +kernel⟩⟩

theorem wit_CoreMemoryResults_2 :
  (∃ (r : CoreReq), (r.kind = 1))
  ∧ (∃ (r : CoreReq), (r.kind = 0))
  ∧ (∃ (s : State), s.coreOnline 7 = true ∧ (s.coreOf 7).fastActive = false ∧ (s.coreOf 7).load = some (8, 8) ∧ (s.coreOf 7).loadAns = some (Ans.ok, []))
  ∧ (∃ (s : State), s.coreOnline 7 = true ∧ (s.coreOf 7).fastActive = false ∧ (s.coreOf 7).load = some (8, 8) ∧ (s.coreOf 7).loadAns = some (Ans.xlate, []) ∧ ansGood .xlate = false)
  ∧ (∃ (s : State), s.ctlWaits 0x0E 0 = true ∧ s.callEntry 0 = none ∧ s.callCheck 0 = none ∧ s.df 0 0 8 3 = 7 ∧ (((List.range 16).map fun j => ((s.coreOf 7).tail + j) % 16).find? fun j => (s.mbox 7 j).st == 0) = some 0)
  ∧ (∃ (s : State) (q : _) (st : _), (s.ctlWaits 0x0E q = true) ∧ (s.callEntry q = none) ∧ (s.callCheck q = some st))
  ∧ (∃ (s : State) (c : _), (c < 8) ∧ (s.get (F.GDC_CORE_STS_STATE c) = 2)) :=
  ⟨⟨(({ core := 7, kind := 1, addr := 0, len := 8, data := [1, 2, 3, 4, 5, 6, 7, 8], machine := true } : CoreReq)), by decide +kernel⟩,
   ⟨(({ core := 7, kind := 0, addr := 0, len := 8, data := [1, 2, 3, 4, 5, 6, 7, 8], machine := true } : CoreReq)), by decide +kernel⟩,
   ⟨(stu.put (F.GDC_CORE_STS_STATE 7) 1).setCore 7 { load := some (8, 8), loadAns := some (.ok, []) }, by decide +kernel, by decide +kernel, by decide +kernel, by decide +kernel⟩,
   ⟨(stu.put (F.GDC_CORE_STS_STATE 7) 1).setCore 7 { load := some (8, 8), loadAns := some (.xlate, []) }, by decide +kernel, by decide +kernel, by decide +kernel, by decide +kernel, by decide +kernel⟩,
   ⟨((((stu.setCtxW 0 8 0x70E).cput 0 C.OP_ACTIVE 1).cput 0 C.STATE 1).setQa 0 { phase := .ctl }).put (F.GDC_CORE_STS_STATE 7) 1, by decide +kernel, by decide +kernel, by decide +kernel, by decide +kernel, by decide +kernel⟩,
   ⟨(stu
    |> fun s => (((s.setCtxW 0 8 0x0E).cput 0 C.OP_ACTIVE 1).cput 0 C.STATE 1)
    |> fun s => (s.setQa 0 { s.qa 0 with phase := .ctl })), (0), (2), by decide +kernel, by decide +kernel, by decide +kernel⟩,
   ⟨(stu
    |> fun s => (s.put (F.GDC_CORE_STS_STATE 7) 2)), (7), by decide +kernel, by decide +kernel⟩⟩

theorem wit_FaultResults_1 :
  (∃ (s : State) (n : _) (id : _) (b : _), ((Blk.all.find? fun x => x.bit == n) = some b) ∧ (s.dev.up = true) ∧ (s.hasBlk b = true) ∧ (srcLevel b id ≠ 0))
  ∧ (∃ (s : State) (n : _) (id : _) (b : _), ((Blk.all.find? fun x => x.bit == n) = some b) ∧ (s.dev.up = true) ∧ (s.hasBlk b = true) ∧ (srcLevel b id ≠ 0) ∧ (id < 64) ∧ (s.is (F.FLT_SRC_CNT_GRACE b.base id) = true) ∧ (s.get (F.FLT_SRC_CNT_LEVEL b.base id) = 5) ∧ (s.dev.mode ≠ .safe))
  ∧ (∃ (s : State) (n : _) (id : _) (b : _), ((Blk.all.find? fun x => x.bit == n) = some b) ∧ (s.dev.up = true) ∧ (s.hasBlk b = true) ∧ (srcLevel b id ≠ 0) ∧ (id < 64) ∧ (s.is (F.FLT_SRC_CNT_GRACE b.base id) = true) ∧ (s.get (F.FLT_SRC_CNT_LEVEL b.base id) < 3) ∧ (s.dev.mode ≠ .boot))
  ∧ (∃ (s : State) (n : _) (id : _) (b : _), ((Blk.all.find? fun x => x.bit == n) = some b) ∧ (s.dev.up = true) ∧ (s.hasBlk b = true) ∧ (srcLevel b id ≠ 0) ∧ (id < 64) ∧ (s.is (F.FLT_SRC_CNT_GRACE b.base id) = true) ∧ (s.get (F.FLT_SRC_CNT_LEVEL b.base id) = 4) ∧ (s.dev.mode = .run))
  ∧ (∃ (s : State) (n : _) (id : _) (b : _), ((Blk.all.find? fun x => x.bit == n) = some b) ∧ (s.dev.up = true) ∧ (s.hasBlk b = true) ∧ (srcLevel b id ≠ 0) ∧ (id < 64) ∧ (s.is (F.FLT_SRC_CNT_ACTIVE b.base id) = true) ∧ (s.get (F.FLT_SRC_CNT_LEVEL b.base id) ≠ 5) ∧ (s.is (F.FLT_SRC_CNT_GRACE b.base id) = false) ∧ (s.is (F.FLT_SRC_CNT_TESTING b.base id) = false))
  ∧ (∃ (s : State), s.dev.up = true ∧ s.hasBlk .swc = true ∧ srcLevel .swc 1 ≠ 0 ∧ s.is (F.FLT_SRC_CNT_TESTING Blk.swc.base 1) = true ∧ (s.fltOf .swc 1).more = [])
  ∧ (∃ (s : State), s.dev.up = true ∧ s.hasBlk .swc = true ∧ srcLevel .swc 1 ≠ 0 ∧ s.is (F.FLT_SRC_CNT_TESTING Blk.swc.base 1) = true ∧ (s.fltOf .swc 1).more = [])
  ∧ (∃ (s : State) (a : _) (n : _) (id : _) (b : _) (r : _), ((Blk.all.find? fun x => x.bit == n) = some b) ∧ (id < 64) ∧ (s.Takes a b (b.base + (0xF000 + 0x28)) r (BitVec.ofNat 64 id))) :=
  ⟨⟨(stu), (7), (1), (Blk.swc), by decide +kernel, by decide +kernel, by decide +kernel, by decide +kernel⟩,
   ⟨(stu
    |> fun s => (s.put (F.FLT_SRC_CNT_GRACE Blk.swc.base 1) 1)
    |> fun s => (s.put (F.FLT_SRC_CNT_LEVEL Blk.swc.base 1) 5)), (7), (1), (Blk.swc), by decide +kernel, by decide +kernel, by decide +kernel, by decide +kernel, by decide +kernel, by decide +kernel, by decide +kernel, by decide +kernel⟩,
   ⟨(stu
    |> fun s => (s.put (F.FLT_SRC_CNT_GRACE Blk.swc.base 1) 1)), (7), (1), (Blk.swc), by decide +kernel, by decide +kernel, by decide +kernel, by decide +kernel, by decide +kernel, by decide +kernel, by decide +kernel, by decide +kernel⟩,
   ⟨(stu
    |> fun s => (s.put (F.FLT_SRC_CNT_GRACE Blk.swc.base 1) 1)
    |> fun s => (s.put (F.FLT_SRC_CNT_LEVEL Blk.swc.base 1) 4)
    |> fun s => ({ s with dev := { s.dev with mode := .run } })), (7), (1), (Blk.swc), by decide +kernel, by decide +kernel, by decide +kernel, by decide +kernel, by decide +kernel, by decide +kernel, by decide +kernel, by decide +kernel⟩,
   ⟨(stu
    |> fun s => (s.put (F.FLT_SRC_CNT_ACTIVE Blk.swc.base 1) 1)
    |> fun s => (s.put (F.FLT_SRC_CNT_LEVEL Blk.swc.base 1) 0)
    |> fun s => (s.put (F.FLT_SRC_CNT_GRACE Blk.swc.base 1) 0)
    |> fun s => (s.put (F.FLT_SRC_CNT_TESTING Blk.swc.base 1) 0)), (7), (1), (Blk.swc), by decide +kernel, by decide +kernel, by decide +kernel, by decide +kernel, by decide +kernel, by decide +kernel, by decide +kernel, by decide +kernel, by decide +kernel⟩,
   ⟨stu.put (F.FLT_SRC_CNT_TESTING Blk.swc.base 1) 1, by decide +kernel, by decide +kernel, by decide +kernel, by decide +kernel, by decide +kernel⟩,
   ⟨stu.put (F.FLT_SRC_CNT_TESTING Blk.swc.base 1) 1, by decide +kernel⟩,
   ⟨(stu), (.pf0), (7), (1), (Blk.swc), (regAt (stu) (Blk.swc.base + (0xF000 + 0x28))), by decide +kernel, by decide +kernel, takes_of (by decide +kernel)⟩⟩

theorem wit_FaultResults_2 :
  (∃ (s : State) (a : _) (n : _) (b : _) (r : _), ((Blk.all.find? fun x => x.bit == n) = some b) ∧ (s.Takes a b (b.base + (0xF000 + 0x28)) r 0x100))
  ∧ (∃ (s : State) (a : _) (n : _) (b : _) (r : _), ((Blk.all.find? fun x => x.bit == n) = some b) ∧ (s.Takes a b (b.base + (0xF000 + 0x28)) r 0x200))
  ∧ (∃ (s : State) (a : _) (n : _) (id : _) (b : _) (r : _), ((Blk.all.find? fun x => x.bit == n) = some b) ∧ (id < 64) ∧ (s.Takes a b (b.base + (0xF000 + 0x50)) r (BitVec.ofNat 64 (4 + id * 256))))
  ∧ (∃ (s : State) (a : _) (n : _) (id : _) (v : _) (b : _) (r : _), ((Blk.all.find? fun x => x.bit == n) = some b) ∧ (id < 64) ∧ (s.Takes a b (b.base + (0xF000 + (0x100 + 8 * id))) r v) ∧ (fieldOf (s.reg (b.base + (0xF000 + (0x100 + 8 * id)))) 0 1 = 1) ∧ (fieldOf v 0 1 = 1) ∧ (fltSame (s.reg (b.base + (0xF000 + (0x100 + 8 * id)))) v = false))
  ∧ (∃ (s : State) (a : _) (n : _) (v : _) (b : _) (r : _), ((Blk.all.find? fun x => x.bit == n) = some b) ∧ (s.Takes a b (b.base + (0xF000 + 0x30)) r v)) :=
  ⟨⟨(stu), (.pf0), (7), (Blk.swc), (regAt (stu) (Blk.swc.base + (0xF000 + 0x28))), by decide +kernel, takes_of (by decide +kernel)⟩,
   ⟨(stu), (.pf0), (7), (Blk.swc), (regAt (stu) (Blk.swc.base + (0xF000 + 0x28))), by decide +kernel, takes_of (by decide +kernel)⟩,
   ⟨(stu
    |> fun s => (s.put (F.FLT_SRC_CNT_GRACE Blk.swc.base 1) 1)), (.pf0), (7), (1), (Blk.swc), (regAt (stu
    |> fun s => (s.put (F.FLT_SRC_CNT_GRACE Blk.swc.base 1) 1)) (Blk.swc.base + (0xF000 + 0x50))), by decide +kernel, by decide +kernel, takes_of (by decide +kernel)⟩,
   ⟨(stu), (.pf0), (7), (1), (0x3E800050543), (Blk.swc), (regAt (stu) (Blk.swc.base + (0xF000 + (0x100 + 8 * 1)))), by decide +kernel, by decide +kernel, takes_of (by decide +kernel), by decide +kernel, by decide +kernel, by decide +kernel⟩,
   ⟨(stu), (.pf0), (7), (0), (Blk.swc), (regAt (stu) (Blk.swc.base + (0xF000 + 0x30))), by decide +kernel, takes_of (by decide +kernel)⟩⟩

theorem wit_PairResults_1 :
  (∃ (s : State), (s.dev.up = true) ∧ (s.hasBlk .prl = true) ∧ (s.prl.giving ≠ []) ∧ (s.paired = true) ∧ (s.is F.DEV_STS_DRAINED = true) ∧ (s.prl.unmirrored = []))
  ∧ (∃ (s : State), (s.dev.up = true) ∧ (s.hasBlk .prl = true) ∧ (s.flits 6 = true))
  ∧ (∃ (s : State), (s.dev.up = true) ∧ (s.hasBlk .prl = true) ∧ (s.flits 6 = true))
  ∧ (∃ (s : State), (s.dev.up = true) ∧ (s.hasBlk .prl = true) ∧ (s.flits 6 = true))
  ∧ (∃ (s : State), (s.dev.up = true) ∧ (s.hasBlk .prl = true) ∧ (s.flits 6 = true))
  ∧ (∃ (s : State), (s.dev.up = true) ∧ (s.hasBlk .prl = true) ∧ (s.flits 6 = true))
  ∧ (∃ (s : State), (s.dev.up = true) ∧ (s.hasBlk .prl = true) ∧ (s.flits 6 = true))
  ∧ (∃ (s : State), (s.dev.up = true) ∧ (s.hasBlk .prl = true) ∧ (s.flits 6 = true)) :=
  ⟨⟨(stu
    |> fun s => (s.put F.DEV_STS_DRAINED 1)
    |> fun s => ({ s with prl := { s.prl with unmirrored := [] } })
    |> fun s => ({ s.put F.PRL_PAIR_STS_STATE 2 with prl := { s.prl with giving := [1] } })), by decide +kernel, by decide +kernel, by decide +kernel, by decide +kernel, by decide +kernel, by decide +kernel⟩,
   ⟨(stu
    |> fun s => (s.put (F.LPn_LINK_STS_STATE 6) 3)), by decide +kernel, by decide +kernel, by decide +kernel⟩,
   ⟨(stu
    |> fun s => (s.put (F.LPn_LINK_STS_STATE 6) 3)), by decide +kernel, by decide +kernel, by decide +kernel⟩,
   ⟨(stu
    |> fun s => (s.put (F.LPn_LINK_STS_STATE 6) 3)), by decide +kernel, by decide +kernel, by decide +kernel⟩,
   ⟨(stu
    |> fun s => (s.put (F.LPn_LINK_STS_STATE 6) 3)), by decide +kernel, by decide +kernel, by decide +kernel⟩,
   ⟨(stu
    |> fun s => (s.put (F.LPn_LINK_STS_STATE 6) 3)), by decide +kernel, by decide +kernel, by decide +kernel⟩,
   ⟨(stu
    |> fun s => (s.put (F.LPn_LINK_STS_STATE 6) 3)), by decide +kernel, by decide +kernel, by decide +kernel⟩,
   ⟨(stu
    |> fun s => (s.put (F.LPn_LINK_STS_STATE 6) 3)), by decide +kernel, by decide +kernel, by decide +kernel⟩⟩

theorem wit_PairResults_2 :
  (∃ (s : State), (s.dev.up = true) ∧ (s.hasBlk .prl = true) ∧ (s.flits 6 = true))
  ∧ (∃ (s : State), (s.dev.up = true) ∧ (s.hasBlk .prl = true) ∧ (s.flits 6 = true) ∧ (s.get F.PRL_PAIR_STS_STATE = 1))
  ∧ (∃ (s : State) (x : MirItem) (l : List MirItem), (s.dev.up = true) ∧ (s.hasBlk .prl = true) ∧ (s.flits 6 = true) ∧ (s.prl.unmirrored = x :: l))
  ∧ (∃ (s : State), (s.dev.up = true) ∧ (s.hasBlk .prl = true) ∧ (s.get F.PRL_PAIR_STS_STATE = 1))
  ∧ (∃ (s : State), (s.dev.up = true) ∧ (s.hasBlk .prl = true) ∧ (s.get F.PRL_PAIR_STS_STATE = 1) ∧ (s.prl.sentSync = true) ∧ (s.prl.gotSync = true) ∧ (s.claimed = []))
  ∧ (∃ (s : State) (level : Bool), (s.dev.up = true) ∧ (s.hasBlk .prl = true) ∧ (s.pins.hbIn ≠ level))
  ∧ (∃ (s : State), (s.dev.up = true) ∧ (s.hasBlk .prl = true) ∧ (s.prl.hbSilent = false) ∧ (s.paired = false))
  ∧ (∃ (s : State), (s.dev.up = true) ∧ (s.hasBlk .prl = true) ∧ (s.prl.probing = true) ∧ (s.pins.pairId = 0)) :=
  ⟨⟨(stu
    |> fun s => (s.put (F.LPn_LINK_STS_STATE 6) 3)), by decide +kernel, by decide +kernel, by decide +kernel⟩,
   ⟨(stu
    |> fun s => (s.put (F.LPn_LINK_STS_STATE 6) 3)
    |> fun s => (s.put F.PRL_PAIR_STS_STATE 1)), by decide +kernel, by decide +kernel, by decide +kernel, by decide +kernel⟩,
   ⟨(stu
    |> fun s => (s.put (F.LPn_LINK_STS_STATE 6) 3)
    |> fun s => ({ s with prl := { s.prl with unmirrored := ({ q := 0, boundary := false } : MirItem) :: ([] : List MirItem) } })), (({ q := 0, boundary := false } : MirItem)), (([] : List MirItem)), by decide +kernel, by decide +kernel, by decide +kernel, by decide +kernel⟩,
   ⟨(stu
    |> fun s => (s.put F.PRL_PAIR_STS_STATE 1)), by decide +kernel, by decide +kernel, by decide +kernel⟩,
   ⟨(stu
    |> fun s => (s.put F.PRL_PAIR_STS_STATE 1)
    |> fun s => ({ s with prl := { s.prl with sentSync := true } })
    |> fun s => ({ s with prl := { s.prl with gotSync := true } })), by decide +kernel, by decide +kernel, by decide +kernel, by decide +kernel, by decide +kernel, by decide +kernel⟩,
   ⟨(stu), (true), by decide +kernel, by decide +kernel, by decide +kernel⟩,
   ⟨(stu
    |> fun s => ({ s with prl := { s.prl with hbSilent := false } })), by decide +kernel, by decide +kernel, by decide +kernel, by decide +kernel⟩,
   ⟨(stu
    |> fun s => ({ s with prl := { s.prl with probing := true } })
    |> fun s => ({ s with pins := { s.pins with pairId := 0 } })), by decide +kernel, by decide +kernel, by decide +kernel, by decide +kernel⟩⟩

theorem wit_PairResults_3 :
  (∃ (s : State), (s.dev.up = true) ∧ (s.hasBlk .prl = true) ∧ (s.prl.probing = true) ∧ (s.pins.pairId = 1))
  ∧ (∃ (s : State), (s.dev.up = true) ∧ (s.hasBlk .prl = true) ∧ (s.prl.confirm = true)) :=
  ⟨⟨(stu
    |> fun s => ({ s with prl := { s.prl with probing := true } })
    |> fun s => ({ s with pins := { s.pins with pairId := 1 } })), by decide +kernel, by decide +kernel, by decide +kernel, by decide +kernel⟩,
   ⟨(stu
    |> fun s => ({ s with prl := { s.prl with confirm := true } })), by decide +kernel, by decide +kernel, by decide +kernel⟩⟩

end Sys2Proof.Tests
end

section
/-! PROOFS. The scope rules of spec/00: register writes that are ignored as a whole (R8). -/
namespace Sys2Proof.Machine

open Sys2Proof

/-! ### Register writes by the agents that the device answers -/

/-- A write by an agent whose control-space writes the device answers arrives as that agent's access (R11, R340). -/
theorem ctlWriteBy_of_mayControl {s : State} {a : Agent} (h : s.mayControl a = true) (off : Nat) (v : Word) (width : Nat) :
    ctlWriteBy a off v width s = ctlWriteAs a off v width s := by
  cases a with
  | pf0 => rfl
  | smbus => rfl
  | core c =>
    simp only [State.mayControl, Bool.and_eq_true, decide_eq_true_eq] at h
    obtain ⟨⟨hc, hOnline⟩, hDev⟩ := h
    simp [ctlWriteBy, Nat.not_le.2 hc, hOnline, hDev]
  | img => simp [State.mayControl] at h
  | fn f => simp [State.mayControl] at h

/-- REGISTER_WRITE by such an agent is a control-space write. -/
theorem exec_registerWrite_of_mayControl {s : State} {a : Agent} (h : s.mayControl a = true) (off : Nat) (v : Word) (width : Nat) :
    exec (.registerWrite a off v width) s = .next (ctlWriteAs a off v width s) := by
  rw [← ctlWriteBy_of_mayControl h]
  cases a with
  | fn f => simp [State.mayControl] at h
  | _ => rfl

/-! ### Refused writes -/

/-- A reserved encoding refuses a write of a writable register, in whatever mode, in a fault page and outside one (R8). -/
theorem State.ctlRefused_of_reserved {s : State} {b : Blk} {off : Nat} {r : RegDef} {v : Word} (hb : blockAt off = some b)
    (hr : s.regDef off = some r) (hw : r.writable = true) (hv : r.reserved v = true) (m : Mode) :
    s.ctlRefused m off v = true := by
  simp [State.ctlRefused, hb, hr, hw, hv]

/-- An aligned 64-bit write that is refused is recorded as a NOTICE of the register's block, and does nothing else (R6, R8). -/
theorem ctlWriteAs_of_refused {s : State} {a : Agent} {b : Blk} {off : Nat} {r : RegDef} {v : Word} (hb : blockAt off = some b)
    (hReach : s.reaches a b = true) (hBlk : s.hasBlk b = true) (hBelow : off < 0x1600000) (hAlign : off % 8 = 0)
    (hr : s.regDef off = some r) (hRefused : s.ctlRefused s.dev.mode off v = true) :
    ctlWriteAs a off v 64 s = notice b off s := by
  have hOff : off / 8 * 8 = off := by omega
  have hTcm : ¬ 0x1600000 ≤ off := by omega
  simp [ctlWriteAs, hb, hReach, hBlk, hTcm, hOff, hAlign, hr, hRefused]

/-! ### The register of an ignored write -/

/-- A port block that holds an offset is one of LP0 to LP5 (Table 18.1). -/
theorem lp_lt_of_blockAt {off n : Nat} (h : blockAt off = some (.lp n)) : n < 6 := by
  simp only [blockAt, ite_eq_iff, Option.some.injEq, Blk.lp.injEq, reduceCtorEq, and_false, false_or, or_false] at h
  omega

/-- A NOTICE leaves every register outside its block's fault page, the interrupt controller and the Tether as it is. -/
theorem reg_notice_of_blockAt {s : State} {b : Blk} {off o : Nat} (hb : blockAt off = some b)
    (hPage : o - b.base < 0xF000 ∨ 0x10000 ≤ o - b.base) (hIrq : offIrq o) : (notice b off s).reg o = s.reg o := by
  have hOffPage : offPage b o := by omega
  have hBit : b.bit < 1024 := b.bit_lt fun n hn => by
    have := lp_lt_of_blockAt (hn ▸ hb)
    omega
  exact notice_reg hBit hOffPage hIrq

/-- Settles O14: the reserved encoding refuses the write, a refused write is a NOTICE, and a NOTICE writes no register outside
its own fault page, the interrupt controller and the Tether. -/
theorem reservedEncodingIgnored : Obligations.ReservedEncodingIgnored := by
  intro s a b off r v hAgent hb hReach hBlk hBelow hAlign hr hw hv hPage
  have hRefused := s.ctlRefused_of_reserved hb hr hw hv s.dev.mode
  constructor
  · rw [exec_registerWrite_of_mayControl hAgent, ctlWriteAs_of_refused hb hReach hBlk hBelow hAlign hr hRefused]
  · exact reg_notice_of_blockAt hb hPage

end Sys2Proof.Machine
end

section
/-! PROOFS. What every command may change: the laws of change of Sys2Proof/Laws, read through the dispatch. -/
namespace Sys2Proof.Machine

open Sys2Proof

/-! ### From a law of change to a command -/

/-- A command whose next state its law of change describes. -/
theorem Change.of_next {T : List Part} {s t u : State}
    (law : ∀ {U : List Part} {r0 : State}, T ⊆ U → Change U r0 s → Change U r0 u)
    (h : (Host.Outcome.next u : Host.Outcome State Fault Refusal) = .next t) : Change T s t := by
  obtain rfl : u = t := Host.Outcome.next.inj h
  exact law (List.Subset.refl _) (.refl _ _)

/-- HBM_ACCESS answers a next state only within the capacity, and then as the controller serves the access. -/
theorem doHbmAccess_of_exec {r : HbmReq} {s t : State} (h : exec (.hbmAccess r) s = .next t) :
    (Host.Outcome.next (doHbmAccess r s) : Host.Outcome State Fault Refusal) = .next t := by
  obtain ⟨_, hFault⟩ | ⟨_, hNext⟩ := ite_eq_iff.1 h
  · cases hFault
  · exact hNext

/-- Every command changes no part of the state but those of `touches`. -/
theorem exec_change : ∀ (c : Instr) {s t : State}, exec c s = .next t → Change (touches c) s t
  | .tetherResetRelease, _, _, h => .of_next doTetherResetRelease_change h
  | .vddTtLoss, _, _, h => .of_next doVddTtLoss_change h
  | .ttPgoodMainAssert, _, _, h => .of_next doTtPgoodMainAssert_change h
  | .mainPowerLoss, _, _, h => .of_next doMainPowerLoss_change h
  | .mainPowerDownDone, _, _, h => .of_next doMainPowerDownDone_change h
  | .mainOffTimeExpiry, _, _, h => .of_next doMainOffTimeExpiry_change h
  | .wakeCause .., _, _, h => .of_next doWakeCause_change h
  | .ttWakeDebounced .., _, _, h => .of_next doTtWakeDebounced_change h
  | .perstNAssert, _, _, h => .of_next doPerstNAssert_change h
  | .perstNDeassert .., _, _, h => .of_next doPerstNDeassert_change h
  | .rootPllLock, _, _, h => .of_next doRootPllLock_change h
  | .pllUnlock .., _, _, h => .of_next doPllUnlock_change h
  | .refclkLoss .., _, _, h => .of_next doRefclkLoss_change h
  | .droopThresholdCrossing .., _, _, h => .of_next doDroopThresholdCrossing_change h
  | .droopCauseEnd .., _, _, h => .of_next doDroopCauseEnd_change h
  | .stretchReturnIncrement, _, _, h => .of_next doStretchReturnIncrement_change h
  | .lswRecognised, _, _, h => .of_next doLswRecognised_change h
  | .lswNRelease, _, _, h => .of_next doLswNRelease_change h
  | .lswHoldExpiry, _, _, h => .of_next doLswHoldExpiry_change h
  | .lswStuck, _, _, h => .of_next doLswStuck_change h
  | .rampGrant .., _, _, h => .of_next doRampGrant_change h
  | .temperatureReading .., _, _, h => .of_next doTemperatureReading_change h
  | .heartbeatToggle, _, _, h => .of_next doHeartbeatToggle_change h
  | .pwrEnable .., _, _, h => .of_next doPwrEnable_change h
  | .flashReadDone .., _, _, h => .of_next doFlashReadDone_change h
  | .enterConfig, _, _, h => .of_next doEnterConfig_change h
  | .lateSectionLoaded .., _, _, h => .of_next doLateSectionLoaded_change h
  | .erase .., _, _, h => .of_next doErase_change h
  | .program .., _, _, h => .of_next doProgram_change h
  | .verify .., _, _, h => .of_next doVerify_change h
  | .flashOpDone .., _, _, h => .of_next doFlashOpDone_change h
  | .flashOpTimeout, _, _, h => .of_next doFlashOpTimeout_change h
  | .status, _, _, h => .of_next doStatus_change h
  | .ctlRead .., _, _, h => .of_next doCtlRead_change h
  | .ctlWrite .., _, _, h => .of_next doCtlWrite_change h
  | .restart .., _, _, h => .of_next doRestart_change h
  | .keyProgram .., _, _, h => .of_next doKeyProgram_change h
  | .keyRevoke .., _, _, h => .of_next doKeyRevoke_change h
  | .devEnable .., _, _, h => .of_next doDevEnable_change h
  | .consistencyCheckEnd, _, _, h => .of_next doConsistencyCheckEnd_change h
  | .devQuiesce .., _, _, h => .of_next doDevQuiesce_change h
  | .sleep .., _, _, h => .of_next doSleep_change h
  | .forceSafe .., _, _, h => .of_next doForceSafe_change h
  | .quiesceDrained, _, _, h => .of_next doQuiesceDrained_change h
  | .configRequest .., _, _, h => .of_next doConfigRequest_change h
  | .vfEnableWrite .., _, _, h => .of_next doVfEnableWrite_change h
  | .initiateFlr .., _, _, h => .of_next doInitiateFlr_change h
  | .flrEnd .., _, _, h => .of_next doFlrEnd_change h
  | .busMasterEnableClear .., _, _, h => .of_next doBusMasterEnableClear_change h
  | .busMasterEnableSet .., _, _, h => .of_next doBusMasterEnableSet_change h
  | .powerStateWrite .., _, _, h => .of_next doPowerStateWrite_change h
  | .msixUnmask .., _, _, h => .of_next doMsixUnmask_change h
  | .pmeTurnOff, _, _, h => .of_next doPmeTurnOff_change h
  | .hostMemoryRequest .., _, _, h => .of_next doHostMemoryRequest_change h
  | .windowAccess .., _, _, h => .of_next doWindowAccess_change h
  | .doorbell .., _, _, h => .of_next doDoorbell_change h
  | .dlDown, _, _, h => .of_next doDlDown_change h
  | .dlUp .., _, _, h => .of_next doDlUp_change h
  | .hostLinkRecovery .., _, _, h => .of_next doHostLinkRecovery_change h
  | .hostLinkRetrain .., _, _, h => .of_next doHostLinkRetrain_change h
  | .l1Request, _, _, h => .of_next doL1Request_change h
  | .l0pNarrow, _, _, h => .of_next doL0pNarrow_change h
  | .l0pWiden, _, _, h => .of_next doL0pWiden_change h
  | .tagIssue .., _, _, h => .of_next doTagIssue_change h
  | .hostCompletion .., _, _, h => .of_next doHostCompletion_change h
  | .completionTimeout .., _, _, h => .of_next doCompletionTimeout_change h
  | .quarantineExpiry .., _, _, h => .of_next doQuarantineExpiry_change h
  | .getVersion .., _, _, h => .of_next doGetVersion_change h
  | .getCapabilities .., _, _, h => .of_next doGetCapabilities_change h
  | .negotiateAlgorithms .., _, _, h => .of_next doNegotiateAlgorithms_change h
  | .getDigests .., _, _, h => .of_next doGetDigests_change h
  | .getCertificate .., _, _, h => .of_next doGetCertificate_change h
  | .challenge .., _, _, h => .of_next doChallenge_change h
  | .getMeasurements .., _, _, h => .of_next doGetMeasurements_change h
  | .doeDiscovery .., _, _, h => .of_next doDoeDiscovery_change h
  | .hepEnable .., _, _, h => .of_next doHepEnable_change h
  | .wxlEnable .., _, _, h => .of_next doWxlEnable_change h
  | .inboundWindowEnable .., _, _, h => .of_next doInboundWindowEnable_change h
  | .outboundWindowEnable .., _, _, h => .of_next doOutboundWindowEnable_change h
  | .envelopeRangeEnable .., _, _, h => .of_next doEnvelopeRangeEnable_change h
  | .tableWalkDone .., _, _, h => .of_next doTableWalkDone_change h
  | .tcInv .., _, _, h => .of_next doTcInv_change h
  | .tcInvDone, _, _, h => .of_next doTcInvDone_change h
  | .writeBack .., _, _, h => .of_next doWriteBack_change h
  | .writeBackInvalidate .., _, _, h => .of_next doWriteBackInvalidate_change h
  | .pcFlushDone, _, _, h => .of_next doPcFlushDone_change h
  | .sediscardClear .., _, _, h => .of_next doSediscardClear_change h
  | .pfCfgWrite .., _, _, h => .of_next doPfCfgWrite_change h
  | .prefetchLifeExpiry .., _, _, h => .of_next doPrefetchLifeExpiry_change h
  | .translationCompletion .., _, _, h => .of_next doTranslationCompletion_change h
  | .invalidationRequest .., _, _, h => .of_next doInvalidationRequest_change h
  | .invalidationCompletion .., _, _, h => .of_next doInvalidationCompletion_change h
  | .migratePassEnd .., _, _, h => .of_next doMigratePassEnd_change h
  | .migrateRelease .., _, _, h => .of_next doMigrateRelease_change h
  | .xlateUpdateDone .., _, _, h => .of_next doXlateUpdateDone_change h
  | .contextLoaded .., _, _, h => .of_next doContextLoaded_change h
  | .descriptorFetched .., _, _, h => .of_next doDescriptorFetched_change h
  | .operationStart .., _, _, h => .of_next doOperationStart_change h
  | .completionRecordWrite .., _, _, h => .of_next doCompletionRecordWrite_change h
  | .cqModerationExpiry .., _, _, h => .of_next doCqModerationExpiry_change h
  | .queueRead .., _, _, h => .of_next doQueueRead_change h
  | .queueWrite .., _, _, h => .of_next doQueueWrite_change h
  | .queueEnable .., _, _, h => .of_next doQueueEnable_change h
  | .queueModify .., _, _, h => .of_next doQueueModify_change h
  | .queueStop .., _, _, h => .of_next doQueueStop_change h
  | .queueStart .., _, _, h => .of_next doQueueStart_change h
  | .queueDrain .., _, _, h => .of_next doQueueDrain_change h
  | .queueDisable .., _, _, h => .of_next doQueueDisable_change h
  | .queuePrefetch .., _, _, h => .of_next doQueuePrefetch_change h
  | .qenEnable .., _, _, h => .of_next doQenEnable_change h
  | .stepRelease .., _, _, h => .of_next doStepRelease_change h
  | .stepBoundary .., _, _, h => .of_next doStepBoundary_change h
  | .moverPipeError .., _, _, h => .of_next doMoverPipeError_change h
  | .copy .., _, _, h => .of_next doCopy_change h
  | .fill .., _, _, h => .of_next doFill_change h
  | .check .., _, _, h => .of_next doCheck_change h
  | .copyCheck .., _, _, h => .of_next doCopyCheck_change h
  | .scrub .., _, _, h => .of_next doScrub_change h
  | .migrate .., _, _, h => .of_next doMigrate_change h
  | .multicastWrite .., _, _, h => .of_next doMulticastWrite_change h
  | .atomic .., _, _, h => .of_next doAtomic_change h
  | .fence .., _, _, h => .of_next doFence_change h
  | .fenceComplete .., _, _, h => .of_next doFenceComplete_change h
  | .notify .., _, _, h => .of_next doNotify_change h
  | .xlateUpdate .., _, _, h => .of_next doXlateUpdate_change h
  | .abort .., _, _, h => .of_next doAbort_change h
  | .ctxPrefetch .., _, _, h => .of_next doCtxPrefetch_change h
  | .serviceCall .., _, _, h => .of_next doServiceCall_change h
  | .nop .., _, _, h => .of_next doNop_change h
  | .creditTick, _, _, h => .of_next doCreditTick_change h
  | .reconciliationInterval .., _, _, h => .of_next doReconciliationInterval_change h
  | .calibrationWindowEnd, _, _, h => .of_next doCalibrationWindowEnd_change h
  | .envelopeDefine .., _, _, h => .of_next doEnvelopeDefine_change h
  | .envelopeUndefine .., _, _, h => .of_next doEnvelopeUndefine_change h
  | .envCfgWrite .., _, _, h => .of_next doEnvCfgWrite_change h
  | .envQblkWrite .., _, _, h => .of_next doEnvQblkWrite_change h
  | .splEnable .., _, _, h => .of_next doSplEnable_change h
  | .splStepWrite .., _, _, h => .of_next doSplStepWrite_change h
  | .calFreeze .., _, _, h => .of_next doCalFreeze_change h
  | .calRestart .., _, _, h => .of_next doCalRestart_change h
  | .frameAdmit .., _, _, h => .of_next doFrameAdmit_change h
  | .evictionRetry, _, _, h => .of_next doEvictionRetry_change h
  | .outputGrant .., _, _, h => .of_next doOutputGrant_change h
  | .multicastGhlExpiry .., _, _, h => .of_next doMulticastGhlExpiry_change h
  | .tailBatchWrite, _, _, h => .of_next doTailBatchWrite_change h
  | .tailEn .., _, _, h => .of_next doTailEn_change h
  | .tailSelWrite .., _, _, h => .of_next doTailSelWrite_change h
  | .swcEnable .., _, _, h => .of_next doSwcEnable_change h
  | .bankCellsReleased .., _, _, h => .of_next doBankCellsReleased_change h
  | .receiverDetection .., _, _, h => .of_next doReceiverDetection_change h
  | .gtsReceived .., _, _, h => .of_next doGtsReceived_change h
  | .trainingPhaseComplete .., _, _, h => .of_next doTrainingPhaseComplete_change h
  | .linkActiveEntry .., _, _, h => .of_next doLinkActiveEntry_change h
  | .trainingLimitExpiry .., _, _, h => .of_next doTrainingLimitExpiry_change h
  | .retrainLimitExpiry .., _, _, h => .of_next doRetrainLimitExpiry_change h
  | .blockAlignmentLoss .., _, _, h => .of_next doBlockAlignmentLoss_change h
  | .retrain .., _, _, h => .of_next doRetrain_change h
  | .resize .., _, _, h => .of_next doResize_change h
  | .restore .., _, _, h => .of_next doRestore_change h
  | .resizeSwitch .., _, _, h => .of_next doResizeSwitch_change h
  | .laneTestEnd .., _, _, h => .of_next doLaneTestEnd_change h
  | .portEnable .., _, _, h => .of_next doPortEnable_change h
  | .holdDisable .., _, _, h => .of_next doHoldDisable_change h
  | .graceExpiry .., _, _, h => .of_next doGraceExpiry_change h
  | .requestDeadline .., _, _, h => .of_next doRequestDeadline_change h
  | .portTagQuarantineExpiry .., _, _, h => .of_next doPortTagQuarantineExpiry_change h
  | .presenceChange .., _, _, h => .of_next doPresenceChange_change h
  | .attentionPress .., _, _, h => .of_next doAttentionPress_change h
  | .slotPowerFault .., _, _, h => .of_next doSlotPowerFault_change h
  | .pwrOnWrite .., _, _, h => .of_next doPwrOnWrite_change h
  | .pwrDone .., _, _, h => .of_next doPwrDone_change h
  | .cancelWindowExpiry .., _, _, h => .of_next doCancelWindowExpiry_change h
  | .slotQuiesceEnd .., _, _, h => .of_next doSlotQuiesceEnd_change h
  | .flitReceived .., _, _, h => .of_next doFlitReceived_change h
  | .nakRepeatTimeout .., _, _, h => .of_next doNakRepeatTimeout_change h
  | .replayTimeout .., _, _, h => .of_next doReplayTimeout_change h
  | .probeTick .., _, _, h => .of_next doProbeTick_change h
  | .probeSampleTimeout .., _, _, h => .of_next doProbeSampleTimeout_change h
  | .mrd .., _, _, h => .of_next doMrd_change h
  | .mwr .., _, _, h => .of_next doMwr_change h
  | .cpl .., _, _, h => .of_next doCpl_change h
  | .cpld .., _, _, h => .of_next doCpld_change h
  | .atom .., _, _, h => .of_next doAtom_change h
  | .msgInt .., _, _, h => .of_next doMsgInt_change h
  | .msgIntEffect .., _, _, h => .of_next doMsgIntEffect_change h
  | .msgSb .., _, _, h => .of_next doMsgSb_change h
  | .err .., _, _, h => .of_next doErr_change h
  | .cfg .., _, _, h => .of_next doCfg_change h
  | .epoch .., _, _, h => .of_next doEpoch_change h
  | .sleepReq .., _, _, h => .of_next doSleepReq_change h
  | .sleepAck .., _, _, h => .of_next doSleepAck_change h
  | .sleepNak .., _, _, h => .of_next doSleepNak_change h
  | .sleepIdleExpiry .., _, _, h => .of_next doSleepIdleExpiry_change h
  | .sleepHandshakeTimeout .., _, _, h => .of_next doSleepHandshakeTimeout_change h
  | .sleepEntry .., _, _, h => .of_next doSleepEntry_change h
  | .sleepExit .., _, _, h => .of_next doSleepExit_change h
  | .portRearm .., _, _, h => .of_next doPortRearm_change h
  | .cfgCmd .., _, _, h => .of_next doCfgCmd_change h
  | .cfgAnswerTimeout .., _, _, h => .of_next doCfgAnswerTimeout_change h
  | .sidebandOut .., _, _, h => .of_next doSidebandOut_change h
  | .icuEnable .., _, _, h => .of_next doIcuEnable_change h
  | .sourceEnable .., _, _, h => .of_next doSourceEnable_change h
  | .sourceMask .., _, _, h => .of_next doSourceMask_change h
  | .icuSwi .., _, _, h => .of_next doIcuSwi_change h
  | .claim .., _, _, h => .of_next doClaim_change h
  | .complete .., _, _, h => .of_next doComplete_change h
  | .hostClaim .., _, _, h => .of_next doHostClaim_change h
  | .hostComplete .., _, _, h => .of_next doHostComplete_change h
  | .hostProxyEvent, _, _, h => .of_next doHostProxyEvent_change h
  | .msixEntryReadDone .., _, _, h => .of_next doMsixEntryReadDone_change h
  | .fastEntry .., _, _, h => .of_next doFastEntry_change h
  | .fastReturn .., _, _, h => .of_next doFastReturn_change h
  | .gclaim .., _, _, h => .of_next doGclaim_change h
  | .gcomplete .., _, _, h => .of_next doGcomplete_change h
  | .gmbhead .., _, _, h => .of_next doGmbhead_change h
  | .gmbdone .., _, _, h => .of_next doGmbdone_change h
  | .gyield .., _, _, h => .of_next doGyield_change h
  | .gdoorbell .., _, _, h => .of_next doGdoorbell_change h
  | .gmbstatRead .., _, _, h => .of_next doGmbstatRead_change h
  | .mailboxPlace .., _, _, h => .of_next doMailboxPlace_change h
  | .envelopeViewAnswer .., _, _, h => .of_next doEnvelopeViewAnswer_change h
  | .loadBegin .., _, _, h => .of_next doLoadBegin_change h
  | .loadData .., _, _, h => .of_next doLoadData_change h
  | .loadEnd .., _, _, h => .of_next doLoadEnd_change h
  | .loadCancel .., _, _, h => .of_next doLoadCancel_change h
  | .gdcEnable .., _, _, h => .of_next doGdcEnable_change h
  | .coreEnable .., _, _, h => .of_next doCoreEnable_change h
  | .coreQuiesce .., _, _, h => .of_next doCoreQuiesce_change h
  | .coreQuiesceEnd .., _, _, h => .of_next doCoreQuiesceEnd_change h
  | .hbmTrainingEnd .., _, _, h => .of_next doHbmTrainingEnd_change h
  | .hbmFillEnd, _, _, h => .of_next doHbmFillEnd_change h
  | .hbmEnable .., _, _, h => .of_next doHbmEnable_change h
  | .hbmAccess .., _, _, h => .of_next doHbmAccess_change (doHbmAccess_of_exec h)
  | .refreshInterval, _, _, h => .of_next doRefreshInterval_change h
  | .hbmTempReading .., _, _, h => .of_next doHbmTempReading_change h
  | .rowTestEnd .., _, _, h => .of_next doRowTestEnd_change h
  | .pcTestEnd .., _, _, h => .of_next doPcTestEnd_change h
  | .patrolScrub .., _, _, h => .of_next doPatrolScrub_change h
  | .selfRefreshEntry, _, _, h => .of_next doSelfRefreshEntry_change h
  | .selfRefreshExit, _, _, h => .of_next doSelfRefreshExit_change h
  | .selfRefreshPairExit .., _, _, h => .of_next doSelfRefreshPairExit_change h
  | .faultWindowClose .., _, _, h => .of_next doFaultWindowClose_change h
  | .faultGraceExpiry .., _, _, h => .of_next doFaultGraceExpiry_change h
  | .faultQuietExpiry .., _, _, h => .of_next doFaultQuietExpiry_change h
  | .selfTestEnd .., _, _, h => .of_next doSelfTestEnd_change h
  | .acknowledge .., _, _, h => .of_next doAcknowledge_change h
  | .acknowledgeAll .., _, _, h => .of_next doAcknowledgeAll_change h
  | .latchRearm .., _, _, h => .of_next doLatchRearm_change h
  | .selftestGo .., _, _, h => .of_next doSelftestGo_change h
  | .sourceConfigWrite .., _, _, h => .of_next doSourceConfigWrite_change h
  | .graceWrite .., _, _, h => .of_next doGraceWrite_change h
  | .prlEnable .., _, _, h => .of_next doPrlEnable_change h
  | .pairEn .., _, _, h => .of_next doPairEn_change h
  | .handover .., _, _, h => .of_next doHandover_change h
  | .handback .., _, _, h => .of_next doHandback_change h
  | .handoverGive, _, _, h => .of_next doHandoverGive_change h
  | .pairControlPacket .., _, _, h => .of_next doPairControlPacket_change h
  | .syncComplete, _, _, h => .of_next doSyncComplete_change h
  | .syncTimeout, _, _, h => .of_next doSyncTimeout_change h
  | .heartbeatEdge .., _, _, h => .of_next doHeartbeatEdge_change h
  | .heartbeatSilence, _, _, h => .of_next doHeartbeatSilence_change h
  | .pairProbeTimeout, _, _, h => .of_next doPairProbeTimeout_change h
  | .failoverConfirmDelay, _, _, h => .of_next doFailoverConfirmDelay_change h
  | .registerWrite .., _, _, h => .of_next doRegisterWrite_change h
  | .coreMemoryAccess .., _, _, h => .of_next doCoreMemoryAccess_change h
  | .fastTrap .., _, _, h => .of_next doFastTrap_change h
  | .trainingPhaseLimitExpiry .., _, _, h => .of_next doTrainingPhaseLimitExpiry_change h
  | .dqRecalibrationEnd .., _, _, h => .of_next doDqRecalibrationEnd_change h

end Sys2Proof.Machine
end

section
/-! PROOFS. The device address of spec/01: its target and offset (R14), its valid ranges (R15, Table 1.3). -/
namespace Sys2Proof.Machine

open Sys2Proof

/-! ### How a device address is read (R14, R15) -/

theorem daT_pack {t o : Nat} (ht : t < 16) (ho : o < 2 ^ 44) : daT (t * 2 ^ 44 + o) = t := by
  unfold daT
  omega

theorem daOff_pack {t o : Nat} (ho : o < 2 ^ 44) : daOff (t * 2 ^ 44 + o) = o := by
  unfold daOff
  omega

/-- A range of at least one byte is valid where it ends within its target's offsets. -/
theorem daValid_pack_iff {t o n : Nat} (ht : t < 16) (ho : o < 2 ^ 44) (hn : 1 ≤ n) :
    daValid (t * 2 ^ 44 + o) n = true ↔ o + n ≤ targetSize t := by
  have hDa : t * 2 ^ 44 + o < 2 ^ 48 := by omega
  simp only [daValid, daT_pack ht ho, daOff_pack ho, hDa, decide_true, Bool.true_and, Bool.and_eq_true, decide_eq_true_eq]
  omega

/-- A range ends within its target where it ends within one of the sizes that Table 1.3 lists; targets 0x9 to 0xE hold none. -/
theorem le_targetSize_iff {t k : Nat} (ht : t < 16) (hk : 1 ≤ k) :
    k ≤ targetSize t ↔
      (t ≤ 6 ∧ k ≤ 2 ^ 44) ∨ (t = 7 ∧ k ≤ 0x400000000) ∨ (t = 8 ∧ k ≤ 0x4000000) ∨ (t = 15 ∧ k ≤ 2 ^ 44) := by
  unfold targetSize
  split_ifs <;> omega

/-- Settles O22: the fields of a packed address, the sizes of Table 1.3 and the switch ports of Table 1.1. -/
theorem daFields : Obligations.DaFields :=
  ⟨fun _ _ ht ho => ⟨daT_pack ht ho, daOff_pack ho⟩,
    fun _ _ _ ht ho hn => (daValid_pack_iff ht ho hn).trans (le_targetSize_iff ht (by omega)), fun _ _ => rfl⟩

end Sys2Proof.Machine
end

section
/-! PROOFS. The configuration of spec/01 is fixed from the end of BOOT until a reset (R19). Only a reset and the reads of an image
write it; every other command, a write of control space with all that it starts among them, keeps it. -/
namespace Sys2Proof.Machine

open Sys2Proof

/-! ### Operations that keep the configuration -/

/-- The configuration lies in the image record: what writes no part of that keeps it. -/
theorem Change.cfg_eq {T : List Part} {s t : State} (h : Change T s t) (hImg : Part.img ∉ T) : t.cfg = s.cfg :=
  congrArg Img.cfg (h.keep .img hImg)

/-- An operation whose law of change leaves out the image record keeps the configuration. -/
theorem cfg_of_law {T : List Part} {s u : State} (law : ∀ {U : List Part} {r0 : State}, T ⊆ U → Change U r0 s → Change U r0 u)
    (hImg : Part.img ∉ T := by decide) : u.cfg = s.cfg :=
  (law (List.Subset.refl _) (.refl _ s)).cfg_eq hImg

@[simp] theorem State.put_cfg (s : State) (f : Field) (v : Nat) : (s.put f v).cfg = s.cfg := rfl
@[simp] theorem State.setReg_cfg (s : State) (off : Nat) (v : Word) : (s.setReg off v).cfg = s.cfg := rfl
@[simp] theorem State.bump_cfg (s : State) (f : Field) : (s.bump f).cfg = s.cfg := rfl
@[simp] theorem State.emit_cfg (s : State) (o : Out) : (s.emit o).cfg = s.cfg := rfl
@[simp] theorem State.setCore_cfg (s : State) (c : Nat) (x : Core) : (s.setCore c x).cfg = s.cfg := rfl

theorem cfg_ite {p : Prop} [Decidable p] {x y s : State} (hx : x.cfg = s.cfg) (hy : y.cfg = s.cfg) :
    (if p then x else y).cfg = s.cfg := by
  split
  · exact hx
  · exact hy

/-- A flash operation notes itself in the image record beside the configuration. -/
theorem imgOp_cfg (op : Nat) (s : State) : (imgOp op s).cfg = s.cfg :=
  cfg_ite rfl (cfg_ite (cfg_of_law imgFail_change) (cfg_ite (cfg_of_law imgFail_change) (cfg_ite rfl rfl)))

/-- What the write of a register does beside storing: only IMG's flash operations reach the image record. -/
theorem regActs_cfg (b : Blk) (d off : Nat) (old v : Word) (s : State) : (regActs b d off old v s).cfg = s.cfg := by
  unfold regActs
  cases b with
  | img => exact cfg_ite (imgOp_cfg ..) rfl
  | hep => exact cfg_ite (cfg_of_law hostRetrain_change) rfl
  | wxl =>
    exact cfg_ite (cfg_of_law retrainAll_change) (cfg_ite (cfg_ite (cfg_of_law flushStart_change) rfl)
      (cfg_ite (cfg_ite (cfg_of_law sediscardClr_change) rfl) rfl))
  | qen => exact cfg_ite ((cfg_of_law qArrive_change).trans (State.put_cfg ..)) rfl
  | spl => exact cfg_ite (cfg_of_law splCtl_change) rfl
  | lp p =>
    exact cfg_ite (cfg_ite (cfg_of_law holdDisable_change) rfl) (cfg_ite (cfg_of_law rttSync_change)
      (cfg_ite (cfg_of_law linkCmd_change) (cfg_ite ((cfg_of_law portTry1_change).trans (cfg_of_law slotSync_change))
        (cfg_ite (cfg_ite (cfg_of_law portRearmed_change) rfl) (cfg_ite (cfg_ite (cfg_of_law cfgGo_change) rfl)
          (cfg_ite (cfg_of_law perrSync_change) rfl))))))
  | prl =>
    have hPrl : (prlCtl off old v s).cfg = s.cfg := cfg_of_law prlCtl_change
    exact cfg_ite (cfg_ite ((cfg_of_law pairPkt_change).trans hPrl) hPrl)
      (cfg_ite (cfg_of_law rttSync_change) (cfg_ite (cfg_of_law linkCmd_change) rfl))
  | icu =>
    exact cfg_ite (cfg_of_law icuSwiAct_change) (cfg_ite (cfg_of_law icuDone_change) (cfg_ite (cfg_of_law icuCfg_change) rfl))
  | gdc =>
    exact cfg_ite (cfg_of_law loadOp_change) (cfg_ite (cfg_of_law loadMeas_change) (cfg_ite (cfg_of_law loadWord_change)
      (cfg_ite (cfg_ite (State.put_cfg ..) (State.put_cfg ..)) rfl)))
  | _ => rfl

theorem ctlTake_cfg (b : Blk) (off : Nat) (r : RegDef) (v : Word) (s : State) : (ctlTake b off r v s).cfg = s.cfg := by
  have hActs (d : Nat) (old w x : Word) : (enableActs b d off old w (regActs b d off old w (s.setReg off x))).cfg = s.cfg :=
    (cfg_of_law enableActs_change).trans ((regActs_cfg ..).trans (State.setReg_cfg ..))
  unfold ctlTake
  refine cfg_ite (cfg_of_law pageWrite_change) (cfg_ite (cfg_of_law devCtl_change) (cfg_ite (cfg_of_law pushCheck_change) ?_))
  cases b with
  | lp p =>
    exact cfg_ite (cfg_of_law slotCtl_change) (cfg_ite ((cfg_of_law sbOut_change).trans (State.setReg_cfg ..)) (hActs ..))
  | _ => exact hActs ..

theorem ctlWriteAs_cfg (a : Agent) (off : Nat) (v : Word) (width : Nat) (s : State) : (ctlWriteAs a off v width s).cfg = s.cfg := by
  unfold ctlWriteAs
  cases blockAt off with
  | none => rfl
  | some b =>
    refine cfg_ite rfl (cfg_ite (cfg_of_law absentEnable_change) (cfg_ite (cfg_of_law tcmCtl_change) ?_))
    cases s.regDef (off / 8 * 8) with
    | none => rfl
    | some r => exact cfg_ite (cfg_of_law notice_change) (cfg_ite (cfg_of_law notice_change) (ctlTake_cfg ..))

/-- No write of control space, whoever makes it and whatever it starts, changes the configuration (R19). -/
theorem ctlWriteBy_cfg (a : Agent) (off : Nat) (v : Word) (width : Nat) (s : State) : (ctlWriteBy a off v width s).cfg = s.cfg := by
  cases a with
  | core c => exact cfg_ite rfl (cfg_ite (ctlWriteAs_cfg ..) (cfg_of_law coreFault_change))
  | pf0 => exact ctlWriteAs_cfg ..
  | smbus => exact ctlWriteAs_cfg ..
  | img => rfl
  | fn f => rfl

theorem pageWriteBy_cfg (a : Agent) (b e : Nat) (v : Word) (s : State) : (pageWriteBy a b e v s).cfg = s.cfg := by
  unfold pageWriteBy
  split
  · exact ctlWriteBy_cfg ..
  · rfl

/-! ### Memory requests of the host and of cores -/

theorem hostControl_cfg (r : HostReq) (s : State) : (hostControl r s).cfg = s.cfg := by
  have hRead : (ctlRead .pf0 r.off (8 * r.len) s).1.cfg = s.cfg := cfg_of_law ctlRead_change
  unfold hostControl
  refine cfg_ite (cfg_of_law hostUr_change) (cfg_ite (cfg_ite (cfg_of_law hostUr_change) ?_)
    (cfg_ite (cfg_of_law hostPoisoned_change) (ctlWriteBy_cfg ..)))
  dsimp only
  split
  · exact (cfg_of_law hostDone_change).trans hRead
  · exact (cfg_of_law hostUr_change).trans hRead

theorem hostMem_cfg (r : HostReq) (s : State) : (hostMem r s).cfg = s.cfg := by
  refine Eq.trans ?_ (cfg_of_law l1Exit_change : (l1Exit s).cfg = s.cfg)
  unfold hostMem
  refine cfg_ite (cfg_ite (cfg_of_law hostUr_change) (cfg_of_law hostUr_change)) ?_
  cases (l1Exit s).barKind r.fn r.bar with
  | none => exact cfg_of_law hostUr_change
  | some k =>
    refine cfg_ite ((cfg_of_law hostUr_change).trans (cfg_ite (State.bump_cfg ..) rfl))
      (cfg_ite (cfg_ite (cfg_of_law hostCa_change) (cfg_of_law hostUr_change)) (cfg_ite (cfg_of_law hostUr_change) ?_))
    cases k with
    | control => exact hostControl_cfg ..
    | page => exact cfg_of_law hostPage_change
    | window b => exact cfg_of_law hostWindow_change

theorem coreControl_cfg (r : CoreReq) (s : State) : (coreControl r s).cfg = s.cfg := by
  have hRead : (ctlRead (.core r.core) (r.addr - 0x200000000) (8 * r.len) s).1.cfg = s.cfg := cfg_of_law ctlRead_change
  unfold coreControl
  refine cfg_ite (cfg_of_law coreFault_change) (cfg_ite (cfg_ite ?_ (cfg_of_law coreFault_change)) (ctlWriteBy_cfg ..))
  dsimp only
  split
  · exact (State.emit_cfg ..).trans hRead
  · exact (cfg_of_law coreFault_change).trans hRead

theorem coreMem_cfg (r : CoreReq) (s : State) : (coreMem r s).cfg = s.cfg := by
  have hOdd {p : Prop} [Decidable p] {x : State} (hx : x.cfg = s.cfg) :
      (if p then x else coreFault r.core 9 (faultCause r.kind) r.addr s).cfg = s.cfg := cfg_ite hx (cfg_of_law coreFault_change)
  unfold coreMem
  exact cfg_ite (cfg_of_law tcmAccess_change) (cfg_ite (hOdd (cfg_of_law mboxAccess_change))
    (cfg_ite (hOdd (cfg_of_law timeCmpAccess_change)) (cfg_ite (cfg_of_law gdcMemAccess_change)
      (cfg_ite (hOdd (coreControl_cfg ..)) (cfg_ite (hOdd (cfg_of_law coreView_change)) (cfg_of_law coreFault_change))))))

/-- A core's access keeps the configuration where what it does keeps it; the halt of a core in its FAST handler adds nothing. -/
theorem coreAct_cfg {c : Nat} {f : State → State} (hf : ∀ t, (f t).cfg = t.cfg) (s : State) : (coreAct c f s).cfg = s.cfg :=
  cfg_ite rfl (cfg_ite ((cfg_of_law coreLeave_change).trans (hf s)) (hf s))

theorem doCoreMemoryAccess_cfg (r : CoreReq) (s : State) : (doCoreMemoryAccess r s).cfg = s.cfg :=
  cfg_ite rfl (coreAct_cfg (fun t => .trans (cfg_ite (coreMem_cfg ..)
    (cfg_ite (State.emit_cfg ..) (cfg_ite (cfg_of_law csrRead_change) (cfg_of_law csrWrite_change)))) (State.setCore_cfg ..)) s)

theorem doRegisterWrite_cfg (a : Agent) (off : Nat) (v : Word) (width : Nat) (s : State) :
    (doRegisterWrite a off v width s).cfg = s.cfg := by
  cases a with
  | fn f => exact cfg_ite (hostMem_cfg ..) rfl
  | _ => exact ctlWriteBy_cfg ..

theorem doWindowAccess_cfg (r : HostReq) (s : State) : (doWindowAccess r s).cfg = s.cfg := by
  unfold doWindowAccess
  split
  · exact cfg_ite (hostMem_cfg ..) rfl
  · rfl

/-! ### Late sections and flash operations -/

theorem doLateSectionLoaded_cfg (i : Nat) (body : List Byte) (s : State) : (doLateSectionLoaded i body s).cfg = s.cfg := by
  have hLoad (l : List Nat) : (l.foldl (fun t c => fwLoad body c t) s).cfg = s.cfg :=
    cfg_of_law fun hT h => Change.foldl (fun _ _ => fwLoad_change hT) h
  have hLate (t : State) (l : List Nat) : ({ t with img := { t.img with late := l } } : State).cfg = t.cfg := rfl
  unfold doLateSectionLoaded
  cases s.img.secs[i]? with
  | none => rfl
  | some x =>
    exact cfg_ite rfl ((State.put_cfg ..).trans ((hLate ..).trans
      (cfg_ite ((cfg_of_law faultEvent_change).trans (State.put_cfg ..)) (cfg_ite (hLoad _) rfl))))

theorem flashEnd_cfg (s : State) : (flashEnd s).cfg = s.cfg := (State.put_cfg ..).trans rfl

theorem imgFail_flashEnd_cfg (reason : Nat) (s : State) : (imgFail reason (flashEnd s)).cfg = s.cfg :=
  (cfg_of_law imgFail_change).trans (flashEnd_cfg s)

theorem doFlashOpDone_cfg (failed : Bool) (header : List Byte) (bodies : List (List Byte)) (s : State) :
    (doFlashOpDone failed header bodies s).cfg = s.cfg := by
  have hOther (v : Bool) : (otherOk v (flashEnd s)).cfg = s.cfg := (cfg_of_law otherOk_change).trans (flashEnd_cfg s)
  unfold doFlashOpDone
  refine cfg_ite rfl (cfg_ite (imgFail_flashEnd_cfg ..) (cfg_ite ?_
    ((cfg_of_law icuEvent_change).trans ((State.put_cfg ..).trans (flashEnd_cfg s)))))
  cases s.verifyFails header bodies with
  | some r => exact (cfg_of_law imgFail_change).trans (hOther false)
  | none => exact (cfg_of_law icuEvent_change).trans ((State.put_cfg ..).trans (hOther true))

theorem doFlashOpTimeout_cfg (s : State) : (doFlashOpTimeout s).cfg = s.cfg := cfg_ite rfl (imgFail_flashEnd_cfg ..)

/-! ### Resets lead into OFF, TETHER or BOOT -/

/-- Every part of the state but the device's mode and what belongs to it. -/
def partsButDev : List Part :=
  [.regs, .tt, .pins, .pwr, .img, .checks, .flt, .icu, .pf, .vf, .fns, .msix, .hep, .wxl, .xt, .qen, .ctx, .qaux, .spl, .swc, .ports,
    .hbm, .mem, .gdc, .cores, .sram, .tcm, .prl, .out, .free]

theorem Change.dev_eq {s t : State} (h : Change partsButDev s t) : t.dev = s.dev := h.keep .dev (by decide)

theorem quiesceSet_dev_of_boot {i : Nat} {s : State} (h : s.dev.mode = .boot) : (quiesceSet i s).dev = s.dev := by
  simp [quiesceSet, h, Mode.running]

theorem quiesceClear_dev_of_boot {i : Nat} {s : State} (h : s.dev.mode = .boot) : (quiesceClear i s).dev = s.dev := by
  simp [quiesceClear, h]

theorem giveBegin_dev_of_boot {es : List Nat} {s : State} (h : s.dev.mode = .boot) : (giveBegin es s).dev = s.dev := by
  unfold giveBegin
  split
  · exact quiesceSet_dev_of_boot h
  · rfl

/-- The resets of the functions touch the mode only through the quiesce cause of D3hot, which has no effect in BOOT. -/
theorem dlFunctions_dev_of_boot {s : State} (h : s.dev.mode = .boot) : (dlFunctions s).dev = s.dev := by
  unfold dlFunctions
  extract_lets fs s1 d3 s2 s3
  have h1 : Change partsButDev s s1 := .ite (fun _ => .refl ..) fun _ =>
    .foldl (fun _ _ hc => flrFinish_change (by decide) (flrBegin_change (by decide) hc)) (.refl ..)
  have h3 : Change partsButDev s s3 := .foldl (fun _ _ hc => icuTargetOff_change (by decide) hc) (dlConfig_change (by decide) h1)
  split
  · exact (quiesceClear_dev_of_boot (h3.dev_eq ▸ h)).trans h3.dev_eq
  · exact h3.dev_eq

theorem hostLinkDown_dev_of_boot {s : State} (h : s.dev.mode = .boot) : (hostLinkDown s).dev = s.dev := by
  unfold hostLinkDown
  split
  · rfl
  extract_lets paired s1 icu hep s2 s3
  have h1 : Change partsButDev s s1 := State.bump_change (by decide) (linkClear_change (by decide) (.refl ..))
  have h2 : Change partsButDev s s2 := .set_icu_hep (by decide) h1
  have hFlush : Change partsButDev s (dlFlush paired (dlTags paired (hostForget (faultEvent .hep 1 0 s2)))) :=
    dlFlush_change (by decide) (dlTags_change (by decide) (hostForget_change (by decide) (faultEvent_change (by decide) h2)))
  have h3 : s3.dev = s.dev := (dlFunctions_dev_of_boot (hFlush.dev_eq ▸ h)).trans hFlush.dev_eq
  split
  · exact (giveBegin_dev_of_boot (h3 ▸ h)).trans h3
  · exact h3

/-- The recovery hold and the choice of the next copy stay in BOOT. -/
theorem nextCopy_dev_of_boot {s : State} (h : s.dev.mode = .boot) : (nextCopy s).dev = s.dev := by
  unfold nextCopy
  split
  · exact hostLinkDown_dev_of_boot h
  · rfl

theorem bootBegin_mode {src : Nat} {s : State} (h : s.dev.mode = .boot) : (bootBegin src s).dev.mode = .boot := by
  unfold bootBegin bootFrom
  extract_lets tt s1
  have h1 : Change partsButDev s (hbmBegin (epochsNew s1)) :=
    hbmBegin_change (by decide) (epochsNew_change (by decide) (.set_tt (by decide) (.refl ..)))
  have hBoot : (hbmBegin (epochsNew s1)).dev.mode = .boot := h1.dev_eq ▸ h
  rw [nextCopy_dev_of_boot]
  · exact hBoot
  · exact hBoot

/-- From `s` to `t` the configuration stays, or `t` is off, asleep or booting (R19). -/
def KeepsCfgOrResets (s t : State) : Prop := t.cfg = s.cfg ∨ t.dev.mode ∈ [Mode.off, .tether, .boot]

theorem KeepsCfgOrResets.of_mode {s t : State} {m : Mode} (h : t.dev.mode = m) (hm : m ∈ [Mode.off, .tether, .boot] := by decide) :
    KeepsCfgOrResets s t := .inr (h ▸ hm)

theorem doMainPowerLoss_keeps (s : State) : KeepsCfgOrResets s (doMainPowerLoss s) := by
  unfold doMainPowerLoss
  split
  · exact .inl rfl
  · exact .of_mode (m := .tether) rfl

theorem doMainPowerDownDone_keeps (s : State) : KeepsCfgOrResets s (doMainPowerDownDone s) := by
  unfold doMainPowerDownDone
  split
  · exact .inl rfl
  · exact .of_mode (m := .tether) rfl

/-- PERST_N puts a running device to sleep or into the main-domain reset, and changes only its own pin otherwise. -/
theorem doPerstNAssert_keeps (s : State) : KeepsCfgOrResets s (doPerstNAssert s) := by
  unfold doPerstNAssert
  split
  · exact .inl rfl
  extract_lets pins s1 s2
  split
  · exact .inl (cfg_of_law enterTether_change : (enterTether s1).cfg = s1.cfg)
  split
  · exact .inl rfl
  split
  · exact .of_mode (m := .boot) rfl
  · exact .inl rfl

theorem doRootPllLock_keeps (s : State) : KeepsCfgOrResets s (doRootPllLock s) := by
  unfold doRootPllLock
  split
  · exact .inl (cfg_ite rfl rfl)
  split
  · exact .inl rfl
  extract_lets
  split
  · exact .of_mode (m := .boot) (by rw [faultEvent_dev]; exact bootBegin_mode rfl)
  · exact .of_mode (bootBegin_mode rfl)

theorem doRestart_keeps (src : Nat) (s : State) : KeepsCfgOrResets s (doRestart src s) := by
  unfold doRestart
  split
  · exact .inl rfl
  · exact .of_mode (bootBegin_mode rfl)

/-! ### Only BOOT reads an image -/

theorem doFlashReadDone_of_not_boot {rd : FlashRead} {s : State} (h : s.dev.mode ≠ .boot) : doFlashReadDone rd s = s := by
  simp [doFlashReadDone, h]

theorem doEnterConfig_of_not_boot {s : State} (h : s.dev.mode ≠ .boot) : doEnterConfig s = s := by
  simp [doEnterConfig, h]

theorem doHbmFillEnd_of_not_boot {s : State} (h : s.dev.mode ≠ .boot) : doHbmFillEnd s = s := by
  simp [doHbmFillEnd, h]

/-! ### Every command -/

theorem KeepsCfgOrResets.of_next {s t u : State} (hu : KeepsCfgOrResets s u)
    (h : (Host.Outcome.next u : Host.Outcome State Fault Refusal) = .next t) : KeepsCfgOrResets s t :=
  Host.Outcome.next.inj h ▸ hu

/-- The commands that write the image record: resets lead into OFF, TETHER or BOOT; the reads of an image and the entry to CONFIG act in
BOOT alone; what a write of control space starts, late sections and flash operations keep the configuration. -/
theorem exec_keeps_of_img {c : Instr} {s t : State} (h : exec c s = .next t) (hBoot : s.dev.mode ≠ .boot)
    (hImg : .img ∈ touches c) : KeepsCfgOrResets s t := by
  cases c with
  | pwrEnable | erase | program | verify | devEnable | devQuiesce | sleep | forceSafe | hostLinkRetrain | hepEnable | wxlEnable
  | tcInv | writeBack | writeBackInvalidate | sediscardClear | pfCfgWrite | qenEnable | splEnable | splStepWrite | calFreeze
  | calRestart | tailEn | swcEnable | icuEnable | icuSwi | loadBegin | loadData | loadEnd | loadCancel | gdcEnable | hbmEnable
  | prlEnable | pairEn | handover | handback =>
    exact .of_next (.inl (ctlWriteBy_cfg ..)) h
  | inboundWindowEnable | outboundWindowEnable | envelopeRangeEnable | queueRead | queueWrite | queueEnable | queueModify
  | queueStop | queueStart | queueDrain | queueDisable | queuePrefetch | envelopeDefine | envelopeUndefine | envCfgWrite
  | envQblkWrite | tailSelWrite | retrain | resize | restore | portEnable | holdDisable | pwrOnWrite | portRearm | cfgCmd
  | sidebandOut | sourceEnable | sourceMask | complete | coreEnable | coreQuiesce =>
    exact .of_next (.inl (cfg_ite (ctlWriteBy_cfg ..) rfl)) h
  | acknowledge | acknowledgeAll | latchRearm | selftestGo | graceWrite =>
    exact .of_next (.inl (pageWriteBy_cfg ..)) h
  | sourceConfigWrite => exact .of_next (.inl (cfg_ite (pageWriteBy_cfg ..) rfl)) h
  | ctlWrite => exact .of_next (.inl (cfg_ite (State.emit_cfg ..) (ctlWriteBy_cfg ..))) h
  | hostMemoryRequest | doorbell | hostClaim | hostComplete => exact .of_next (.inl (cfg_ite (hostMem_cfg ..) rfl)) h
  | windowAccess => exact .of_next (.inl (doWindowAccess_cfg ..)) h
  | registerWrite => exact .of_next (.inl (doRegisterWrite_cfg ..)) h
  | coreMemoryAccess => exact .of_next (.inl (doCoreMemoryAccess_cfg ..)) h
  | lateSectionLoaded => exact .of_next (.inl (doLateSectionLoaded_cfg ..)) h
  | flashOpDone => exact .of_next (.inl (doFlashOpDone_cfg ..)) h
  | flashOpTimeout => exact .of_next (.inl (doFlashOpTimeout_cfg _)) h
  | flashReadDone => exact .of_next (.inl (congrArg State.cfg (doFlashReadDone_of_not_boot hBoot))) h
  | enterConfig => exact .of_next (.inl (congrArg State.cfg (doEnterConfig_of_not_boot hBoot))) h
  | hbmFillEnd => exact .of_next (.inl (congrArg State.cfg (doHbmFillEnd_of_not_boot hBoot))) h
  | vddTtLoss => exact .of_next (.of_mode (m := .off) rfl) h
  | mainPowerLoss => exact .of_next (doMainPowerLoss_keeps s) h
  | mainPowerDownDone => exact .of_next (doMainPowerDownDone_keeps s) h
  | perstNAssert => exact .of_next (doPerstNAssert_keeps s) h
  | rootPllLock => exact .of_next (doRootPllLock_keeps s) h
  | restart src => exact .of_next (doRestart_keeps src s) h
  | _ => simp [touches] at hImg

/-- Settles O8: a command that leaves the image record alone keeps the configuration in it, and the others are judged one by one. -/
theorem configurationFixed : Obligations.ConfigurationFixed := by
  intro c s t h hMode
  by_cases hImg : .img ∈ touches c
  · exact exec_keeps_of_img h (fun hBoot => hMode (by simp [hBoot])) hImg
  · exact .inl ((exec_change c h).cfg_eq hImg)

end Sys2Proof.Machine
end

section
/-! PROOFS. The recovery hold of spec/03 (R75): what `DEV_MODE` reads and what holds `ERR_N`. -/
namespace Sys2Proof.Machine

open Sys2Proof

/-- The lowest field of a word built from a number holds the number's low bits. -/
theorem fieldOf_ofNat_zero (n : Nat) {w : Nat} (h : w ≤ 64) : fieldOf (BitVec.ofNat 64 n) 0 w = n % 2 ^ w := by
  rw [fieldOf, BitVec.toNat_ofNat, Nat.shiftRight_zero, Nat.mod_mod_of_dvd _ (Nat.pow_dvd_pow 2 h)]

theorem Mode.code_lt (m : Mode) : m.code < 8 := by
  cases m <;> decide

/-- `DEV_MODE` packs PREV, CAUSE and ENTRY_TIME above bit 3, so that MODE reads the mode's code whatever they hold. -/
theorem State.devMode_mode (s : State) : fieldOf s.devMode 0 4 = s.dev.mode.code := by
  have hCode := s.dev.mode.code_lt
  rw [State.devMode, fieldOf_ofNat_zero _ (by decide)]
  omega

/-- A write of a field leaves the flags of other registers alone. -/
theorem State.is_put_other (s : State) {f g : Field} (v : Nat) (h : g.off ≠ f.off) : (s.put f v).is g = s.is g := by
  rw [State.is, State.get_put_other s v h, State.is]

/-- RECOVERY asserts the pin by itself, whatever the fault pages and the pin's level hold (R393). -/
theorem State.errN_of_recovery {s : State} (h : s.is F.IMG_STS_RECOVERY = true) : s.errN = true := by
  rw [State.errN, h, Bool.true_or]

/-- Settles O21: MODE reads the code of BOOT, and a write of the pin's level leaves `IMG_STS` and with it RECOVERY. The name
stands under `State` because the operation that enters the hold is `recoveryHold`. -/
theorem State.recoveryHold : Obligations.RecoveryHold := by
  intro s l hMode _ _ hRecovery
  have hKept : (s.put F.DEV_ERRPIN_LEVEL_LEVEL l).is F.IMG_STS_RECOVERY = true :=
    (s.is_put_other l (by decide)).trans hRecovery
  exact ⟨s.devMode_mode.trans (congrArg Mode.code hMode), State.errN_of_recovery hKept⟩

end Sys2Proof.Machine
end

section
/-! PROOFS. Bandwidth tokens and the modes of SPL of spec/09: BW_TOK at the tick, at DEFINE and at a release (R202), and what
QUIESCE, SAFE and CONFIG leave alone (R213). -/
namespace Sys2Proof.Machine

open Sys2Proof

/-! ### Signed fields -/

/-- A signed field depends on the field's bits only. -/
theorem State.sget_congr {s t : State} {f : Field} (h : t.get f = s.get f) : t.sget f = s.sget f := by
  rw [State.sget, State.sget, h]

/-- Two's complement: a signed field reads the number written to it, if the number is within the field's range. -/
theorem State.sget_sput_same (s : State) {f : Field} {v : Int} (hw : 0 < f.w) (h64 : f.lo + f.w ≤ 64)
    (hLo : -2 ^ (f.w - 1) ≤ v) (hHi : v < 2 ^ (f.w - 1)) : (s.sput f v).sget f = v := by
  have hTop : (2 : Int) ^ f.w = 2 * 2 ^ (f.w - 1) := by
    rw [← pow_succ', Nat.sub_add_cancel hw]
  have hModLt : v % 2 ^ f.w < 2 ^ f.w := Int.emod_lt_of_pos v (by positivity)
  have hModNonneg : 0 ≤ v % 2 ^ f.w := Int.emod_nonneg v (by positivity)
  have hRead : (((s.sput f v).get f : Nat) : Int) = v % 2 ^ f.w := by
    rw [State.sput, State.get_put_same s _ h64, Nat.mod_eq_of_lt (by zify; omega), Int.toNat_of_nonneg hModNonneg]
  have hHalf : (s.sput f v).get f < 2 ^ (f.w - 1) ↔ v % 2 ^ f.w < 2 ^ (f.w - 1) := by
    rw [← hRead]
    norm_cast
  rw [State.sget, hRead]
  simp only [hHalf]
  rcases Int.lt_or_le v 0 with hNeg | hPos
  · have hWrap : v % 2 ^ f.w = v + 2 ^ f.w := by
      rw [← Int.add_emod_right, Int.emod_eq_of_lt (by omega) (by omega)]
    rw [if_neg (by omega)]
    omega
  · have hSame : v % 2 ^ f.w = v := Int.emod_eq_of_lt hPos (by omega)
    rw [if_pos (by omega), hSame]

/-! ### BW_TOK (R202) -/

/-- BW_TOK holds every number between its limits. -/
theorem State.sget_sput_bwTok (s : State) (e : Nat) {v : Int} (hLo : -tokMax ≤ v) (hHi : v ≤ tokMax) :
    (s.sput (F.ENV_CREDIT_BW_TOK e) v).sget (F.ENV_CREDIT_BW_TOK e) = v := by
  simp only [tokMax] at hLo hHi
  refine s.sget_sput_same (by simp [F.ENV_CREDIT_BW_TOK]) (by simp [F.ENV_CREDIT_BW_TOK]) ?_ ?_ <;>
    simp only [F.ENV_CREDIT_BW_TOK] <;> omega

/-- The tokens of a defined envelope change by `d`, held between the limits. -/
theorem tokAdd_bwTok {s : State} {e : Nat} (h : s.envDefined e = true) (d : Int) :
    (tokAdd e d s).sget (F.ENV_CREDIT_BW_TOK e)
      = clampInt (-tokMax) tokMax (s.sget (F.ENV_CREDIT_BW_TOK e) + d) := by
  rw [tokAdd, if_pos h]
  exact s.sget_sput_bwTok e (by simp only [clampInt, tokMax]; omega) (by simp only [clampInt, tokMax]; omega)

/-- CREDIT and BW_TOK are the two halves of `ENV_CREDIT`: a change of CREDIT leaves the tokens alone. -/
theorem creditAdd_bwTok (s : State) (e : Nat) (d : Int) :
    (creditAdd e d s).sget (F.ENV_CREDIT_BW_TOK e) = s.sget (F.ENV_CREDIT_BW_TOK e) := by
  rw [creditAdd]
  split
  · exact State.sget_congr (s.get_put_disjoint _ rfl (.inl (Nat.le_refl 32)))
  · rfl

/-- A change of CREDIT defines and ends no envelope. -/
theorem creditAdd_envDefined (s : State) (e : Nat) (d : Int) : (creditAdd e d s).envDefined e = s.envDefined e := by
  rw [creditAdd]
  split
  · have hOff : (F.ENV_CFG_DEFINE e).off ≠ (F.ENV_CREDIT_CREDIT e).off := by
      simp [F.ENV_CFG_DEFINE, F.ENV_CREDIT_CREDIT, R.ENV_CFG, R.ENV_CREDIT]
    rw [State.envDefined, State.sput, s.is_put_other _ hOff, State.envDefined]
  · rfl

/-- The tick of a defined envelope adds BW_CAP × 100 B to its tokens, within the limits. -/
theorem envTick_bwTok {s : State} {e : Nat} (h : s.envDefined e = true) :
    (envTick e s).sget (F.ENV_CREDIT_BW_TOK e)
      = clampInt (-tokMax) tokMax (s.sget (F.ENV_CREDIT_BW_TOK e) + (s.get (F.ENV_CFG_BW_CAP e) * 100 : Nat)) := by
  unfold envTick
  extract_lets t spl s1
  have hDefined : (creditAdd e ((t / 1000 : Nat) : Int) s1).envDefined e = true := (creditAdd_envDefined s1 e _).trans h
  rw [tokAdd_bwTok hDefined, creditAdd_bwTok, show s1.sget (F.ENV_CREDIT_BW_TOK e) = s.sget (F.ENV_CREDIT_BW_TOK e) from rfl]

/-- `ENV_ENERGY` is a register of its own: a write of it leaves the tokens alone. -/
theorem State.get_setReg_energy_bwTok (s : State) (e : Nat) (v : Word) :
    (s.setReg (R.ENV_ENERGY e) v).get (F.ENV_CREDIT_BW_TOK e) = s.get (F.ENV_CREDIT_BW_TOK e) := by
  have hOff : (F.ENV_CREDIT_BW_TOK e).off ≠ R.ENV_ENERGY e := by
    simp [F.ENV_CREDIT_BW_TOK, R.ENV_CREDIT, R.ENV_ENERGY]
  rw [State.get, s.reg_setReg_other v hOff, State.get]

/-- The start of an envelope writes its credit, its tokens and its energy counter, in this order. -/
theorem envBegin_regs (s : State) (e : Nat) :
    (envBegin e s).regs = (((s.sput (F.ENV_CREDIT_CREDIT e) (if s.get (F.ENV_CFG_SHARE e) = 0 then 0 else s.creditMax e)).sput
      (F.ENV_CREDIT_BW_TOK e) tokMax).setReg (R.ENV_ENERGY e) 0).regs := rfl

/-- An envelope starts with its tokens at the maximum. -/
theorem envBegin_bwTok (s : State) (e : Nat) : (envBegin e s).sget (F.ENV_CREDIT_BW_TOK e) = tokMax := by
  have hKept := (State.get_congr (envBegin_regs s e) (F.ENV_CREDIT_BW_TOK e)).trans (State.get_setReg_energy_bwTok _ e 0)
  exact (State.sget_congr hKept).trans (State.sget_sput_bwTok _ e (by simp [tokMax]) le_rfl)

/-- Every row of Table 9.2 asks for tokens before it releases a data operation. -/
theorem State.rowTakes_eq_false_of_bwTok {s : State} {q : Nat} (row : Nat) (hData : isData (s.opc q) = true)
    (h : s.sget (F.ENV_CREDIT_BW_TOK (s.cget q C.ENV)) ≤ 0) : s.rowTakes row q = false := by
  unfold State.rowTakes
  extract_lets e tok cr
  have hTok : tok = false := by
    simp only [tok, hData, Bool.not_true, Bool.or_false, decide_eq_false_iff_not]
    exact Int.not_lt.2 h
  simp only [hTok, Bool.and_false, Bool.false_and, ite_self]

/-- With SPL enabled, CREDIT_TICK takes the defined envelopes one by one, in every mode in which the main domain is up. -/
theorem exec_creditTick_of_enabled {s : State} (hUp : s.dev.up = true) (hEnable : s.is F.SPL_CTL_ENABLE = true) :
    exec .creditTick s = .next (s.envs.foldl (fun t e => envTick e t) s) := by
  have hRuns : ¬ ((!s.dev.up || !s.is F.SPL_CTL_ENABLE) = true) := by rw [hUp, hEnable]; decide
  calc exec .creditTick s = .next (doCreditTick s) := rfl
    _ = .next (s.envs.foldl (fun t e => envTick e t) s) := by rw [doCreditTick, if_neg hRuns]

/-- Settles O15: the tick of the defined envelopes, the clamped sum of one of them, the start at the limit, and the test for
tokens that every row makes. -/
theorem bandwidthTokens : Obligations.BandwidthTokens := by
  exact ⟨fun _ => exec_creditTick_of_enabled, fun _ _ => envTick_bwTok, envBegin_bwTok,
    fun _ row _ => State.rowTakes_eq_false_of_bwTok row⟩

/-! ### QUIESCE, SAFE and CONFIG (R213) -/

/-- Outside RUN and DEGRADED a release does nothing (Table 3.12). -/
theorem exec_stepRelease_of_not_running {s : State} (h : s.dev.mode.running = false) (p : Nat) :
    exec (.stepRelease p) s = .next s := by
  calc exec (.stepRelease p) s = .next (doStepRelease p s) := rfl
    _ = .next s := by rw [doStepRelease, h, Bool.not_false, Bool.true_or, Bool.true_or, if_pos rfl]

/-- Outside RUN and DEGRADED QEN starts no operation. -/
theorem exec_operationStart_of_not_running {s : State} (h : s.dev.mode.running = false) (q : Nat) :
    exec (.operationStart q) s = .next s := by
  have hStart : s.mayStart q = false := by
    simp [State.mayStart, State.qenRuns, h]
  calc exec (.operationStart q) s = .next (doOperationStart q s) := rfl
    _ = .next s := by rw [doOperationStart, hStart, Bool.not_false, if_pos rfl]

/-- The end of a quiesce cause writes `DEV_STS` and what a change of mode writes: the interrupt controller and the Tether. -/
theorem quiesceClear_reg {i o : Nat} {s : State} (hSts : o ≠ R.DEV_STS) (hIrq : offIrq o) :
    (quiesceClear i s).reg o = s.reg o := by
  unfold quiesceClear
  extract_lets q s1 s2
  have h1 : s1.reg o = s.reg o := s.reg_put_other _ hSts
  have h2 : s2.reg o = s.reg o := (s1.reg_put_other _ hSts).trans h1
  have hMode (m : Mode) (n : Nat) : (setMode m n s2).reg o = s.reg o := (setMode_reg hIrq).trans h2
  refine State.reg_ite (fun _ => State.reg_ite (fun _ => ?_) (fun _ => h2)) (fun _ => h1)
  exact State.reg_ite (fun _ => hMode .run 7) (fun _ => hMode .degraded 8)

/-- Settles O16: none of the three modes is RUN or DEGRADED, the tick does not ask for the mode, and `ENV_CREDIT` lies outside
what the end of a quiesce cause writes. -/
theorem noReleaseInQuiesceOrSafe : Obligations.NoReleaseInQuiesceOrSafe := by
  refine ⟨fun s p hMode => exec_stepRelease_of_not_running ?_ p, fun _ _ => exec_creditTick_of_enabled,
    fun s cause e he => quiesceClear_reg ?_ (.inl ?_), fun s q hMode => exec_operationStart_of_not_running ?_ q⟩
  · rcases hMode with h | h | h <;> rw [h] <;> rfl
  · simp only [R.ENV_CREDIT, R.DEV_STS]
    omega
  · simp only [R.ENV_CREDIT]
    omega
  · rw [hMode]
    rfl

end Sys2Proof.Machine
end

section
/-! PROOFS. Acceptance of flits of spec/12: which flits are accepted, which are duplicates and which are errors (R276), and the
one NAK of an error (R277). -/
namespace Sys2Proof.Machine

open Sys2Proof

/-! ### An error (R276, R277) -/

/-- The first error sends a NAK and begins to discard. -/
theorem flitError_of_not_discarding {p : Nat} {s : State} (h : (s.port p).discarding = false) :
    flitError p s = sendNak p (s.setPort p { s.port p with discarding := true }) := by
  rw [flitError, h, if_neg Bool.false_ne_true, State.modPort]

/-- While the receiver discards, an error sends nothing. -/
theorem flitError_of_discarding {p : Nat} {s : State} (h : (s.port p).discarding = true) : flitError p s = s := by
  rw [flitError, if_pos h]

/-! ### An accepted flit (R276) -/

/-- With the framing intact every packet of the flit is taken. -/
theorem State.flitPkts_of_framed {s : State} {p : Nat} (f : FlitIn) (h : (s.port p).framing = false) :
    s.flitPkts p f = f.pkts := by
  rw [State.flitPkts, h, Bool.false_and, if_neg Bool.false_ne_true]

/-- A flit that fits, with the framing intact before and in it, puts its packets into the receive buffers and moves E by 1. -/
theorem flitAccept_of_fits {p : Nat} {f : FlitIn} {s : State} (hFits : s.overfull p (s.flitPkts p f) = false)
    (hFramed : (s.port p).framing = false) (hFlit : f.framing = false) (hQueued : f.pkts.all pktQueued = true) :
    flitAccept p f s = xoffSync p (s.setPort p { s.port p with
      rxSeq := ((s.port p).rxSeq + 1) % 4096, rxAny := true, discarding := false, framing := false, part := f.part
      rx := (s.port p).rx ++ f.pkts }) := by
  have hTaken : (s.flitPkts p f).filter pktQueued = f.pkts := by
    rw [s.flitPkts_of_framed f hFramed, List.filter_eq_self]
    exact List.all_eq_true.1 hQueued
  simp [flitAccept, hFits, hTaken, State.modPort, hFramed, hFlit]

/-! ### SEQ against E (R276) -/

/-- The test of `flitSeq` for a duplicate, as a distance: the flit lies at most 2,048 values before E. -/
theorem flitSeq_of_before {p d : Nat} {f : FlitIn} {s : State} (hLow : 1 ≤ d) (hHigh : d ≤ 2048)
    (hSeq : f.seq = ((s.port p).rxSeq + 4096 - d) % 4096) : flitSeq p f s = s := by
  have hDup : ((s.port p).rxSeq + 4095 - f.seq % 4096) % 4096 < 2048 := by omega
  rw [flitSeq, if_pos hDup]

/-- A DATA or DATA_CONT flit with SEQ = E goes to acceptance. -/
theorem flitSeq_of_expected {p : Nat} {f : FlitIn} {s : State} (hTyp : f.typ ≠ 3) (hSeq : f.seq = (s.port p).rxSeq)
    (hE : (s.port p).rxSeq < 4096) : flitSeq p f s = flitAccept p f s := by
  have hDup : ¬ ((s.port p).rxSeq + 4095 - f.seq % 4096) % 4096 < 2048 := by omega
  have hExpected : (f.typ != 3 && f.seq == (s.port p).rxSeq) = true := by simp [hTyp, hSeq]
  rw [flitSeq, if_neg hDup, if_pos hExpected]

/-- A flit of any TYPE that lies 1 to 2,047 values ahead of E is an error; for an IDLE flit this is log entry 80. -/
theorem flitSeq_of_ahead {p d : Nat} {f : FlitIn} {s : State} (hLow : 1 ≤ d) (hHigh : d ≤ 2047)
    (hSeq : f.seq = ((s.port p).rxSeq + d) % 4096) (hE : (s.port p).rxSeq < 4096) : flitSeq p f s = flitError p s := by
  have hDup : ¬ ((s.port p).rxSeq + 4095 - f.seq % 4096) % 4096 < 2048 := by omega
  have hOther : f.seq ≠ (s.port p).rxSeq := by omega
  have hExpected : ¬ (f.typ != 3 && f.seq == (s.port p).rxSeq) = true := by simp [hOther]
  rw [flitSeq, if_neg hDup, if_neg hExpected]

/-! ### FLIT_RECEIVED -/

/-- FLIT_RECEIVED reads the bytes as a flit and lets it act. -/
theorem exec_flitReceived (p : Nat) (b : List Byte) (s : State) :
    exec (.flitReceived p b) s = .next (doFlitReceived p (s.flitIn p b) s) := rfl

/-- On a port that exchanges flits, a flit that fails its CRC is charged to its lane and is an error. -/
theorem doFlitReceived_of_crcBad {p : Nat} {f : FlitIn} {s : State} (hp : p < 7) (hOn : s.flits p = true)
    (hCrc : f.crcOk = false) : doFlitReceived p f s = flitError p (laneCharge p f.errLanes s) := by
  simp [doFlitReceived, hOn, hCrc, hp.not_ge]

/-- On a port that exchanges flits, a passing flit of TYPE 1 to 3 with a valid ACK acts by its link-control word and then by
its SEQ. -/
theorem doFlitReceived_of_passing {p : Nat} {f : FlitIn} {s u : State} (hp : p < 7) (hOn : s.flits p = true)
    (hCrc : f.crcOk = true) (hAck : ackNote p f s = some u) (hLow : 1 ≤ f.typ) (hHigh : f.typ ≤ 3) :
    doFlitReceived p f s = flitSeq p f (lcwNote p f u) := by
  have hTyp : ¬ (f.typ = 0 ∨ 3 < f.typ) := by omega
  simp [doFlitReceived, hOn, hCrc, hAck, hp.not_ge, hTyp]

/-- Settles O17: what FLIT_RECEIVED does with a failing and with a passing flit, and the three outcomes of SEQ against E. -/
theorem flitAcceptance : Obligations.FlitAcceptance := by
  intro s p b f hp hf _ hE hOn
  have hPort : p < 7 := by omega
  have hExec : exec (.flitReceived p b) s = .next (doFlitReceived p f s) := by rw [exec_flitReceived, hf]
  refine ⟨fun u hCrc hAck hLow hHigh => ?_, fun hCrc => ?_, fun hTyp hSeq hFits hFramed hFlit hQueued => ?_,
    fun d hLow hHigh hSeq => flitSeq_of_before hLow hHigh hSeq, fun d hLow hHigh hSeq => flitSeq_of_ahead hLow hHigh hSeq hE,
    flitError_of_not_discarding, flitError_of_discarding⟩
  · rw [hExec, doFlitReceived_of_passing hPort hOn hCrc hAck hLow hHigh]
  · rw [hExec, doFlitReceived_of_crcBad hPort hOn hCrc]
  · rw [flitSeq_of_expected hTyp hSeq hE, flitAccept_of_fits hFits hFramed hFlit hQueued]

end Sys2Proof.Machine
end

section
/-! PROOFS. The sources of the interrupt controller (spec/13): when a source is pending, and what moves its LEVEL. -/
namespace Sys2Proof.Machine

open Sys2Proof

/-! ### One-bit fields -/

/-- A one-bit field reads 1 while its flag is set and 0 otherwise. -/
theorem State.get_eq_b2n_is (s : State) {f : Field} (hw : f.w = 1) : s.get f = b2n (s.is f) := by
  have hBit : s.get f < 2 ^ 1 := hw ▸ s.get_lt f
  obtain h | h : s.get f = 0 ∨ s.get f = 1 := by omega
  · rw [State.is, h]
    rfl
  · rw [State.is, h]
    rfl

/-- The flag of a one-bit field is set exactly while the field reads 1. -/
theorem State.is_iff_eq_one (s : State) {f : Field} (hw : f.w = 1) : s.is f = true ↔ s.get f = 1 := by
  rw [s.get_eq_b2n_is hw]
  cases s.is f <;> simp

/-! ### Pending (R316) -/

/-- Pending, in the values of COUNT, of the configured LEVEL and of the LEVEL that follows the input. -/
theorem State.icuPending_iff (s : State) (n : Nat) : s.icuPending n = true ↔
    0 < s.get (F.ICU_SRC_STS_COUNT n) ∨ (s.get (F.ICU_SRC_CFG_LEVEL n) = 1 ∧ s.get (F.ICU_SRC_STS_LEVEL n) = 1) := by
  rw [State.icuPending, Bool.or_eq_true, Bool.and_eq_true, bne_iff_ne, s.is_iff_eq_one rfl, s.is_iff_eq_one rfl,
    Nat.pos_iff_ne_zero]

/-- On an edge source LEVEL makes nothing pending. -/
theorem State.icuPending_iff_of_edge {s : State} {n : Nat} (hEdge : s.get (F.ICU_SRC_CFG_LEVEL n) = 0) :
    s.icuPending n = true ↔ 0 < s.get (F.ICU_SRC_STS_COUNT n) := by
  rw [s.icuPending_iff, hEdge]
  simp

/-! ### What leaves the LEVEL of a source alone -/

/-- A write of a field that does not cover bit 8 of `ICU_SRC_STS[m]` leaves the LEVEL of source `m` alone. -/
theorem State.srcLevel_put (s : State) {f : Field} {m : Nat} (v : Nat)
    (h : f.off = R.ICU_SRC_STS m → f.lo + f.w ≤ 8 ∨ 9 ≤ f.lo) :
    (s.put f v).get (F.ICU_SRC_STS_LEVEL m) = s.get (F.ICU_SRC_STS_LEVEL m) := by
  by_cases hSts : R.ICU_SRC_STS m = f.off
  · exact s.get_put_disjoint v hSts (h hSts.symm)
  · exact s.get_put_other v hSts

/-- A write of the LEVEL of another source leaves that of source `m` alone. -/
theorem State.srcLevel_put_level (s : State) {n m : Nat} (v : Nat) (h : m ≠ n) :
    (s.put (F.ICU_SRC_STS_LEVEL n) v).get (F.ICU_SRC_STS_LEVEL m) = s.get (F.ICU_SRC_STS_LEVEL m) := by
  have hSts : R.ICU_SRC_STS m ≠ R.ICU_SRC_STS n := by simp only [R.ICU_SRC_STS]; omega
  exact s.get_put_other v hSts

/-- An offer writes OFFERED alone. -/
theorem icuOffer_srcLevel (n m : Nat) (s : State) :
    (icuOffer n s).get (F.ICU_SRC_STS_LEVEL m) = s.get (F.ICU_SRC_STS_LEVEL m) := by
  have hOffered := s.srcLevel_put (f := F.ICU_SRC_STS_OFFERED n) (m := m) 1 fun _ => .inr (Nat.le_refl 9)
  unfold icuOffer
  split
  · dsimp only
    split
    · exact hOffered
    · exact hOffered
  · rfl

/-- A wake report writes the Tether's wake status. -/
theorem icuWake_srcLevel {n m : Nat} {s : State} (hm : m < 1024) :
    (icuWake n s).get (F.ICU_SRC_STS_LEVEL m) = s.get (F.ICU_SRC_STS_LEVEL m) := by
  have hTth : R.TTH_WAKE_STS ≠ R.ICU_SRC_STS m := by simp only [R.TTH_WAKE_STS, R.ICU_SRC_STS]; omega
  have hReport := s.srcLevel_put (f := F.TTH_WAKE_STS_ICU) (m := m) 1 fun h => absurd h hTth
  unfold icuWake
  split
  · dsimp only
    split
    · exact (congrArg (fieldOf · 8 1) wakeNLow_reg).trans hReport
    · exact hReport
  · rfl

/-- Counting an event of any source, with its wake report and offer, leaves every LEVEL alone. -/
theorem icuCount_srcLevel {n m : Nat} {s : State} (hm : m < 1024) :
    (icuCount n s).1.get (F.ICU_SRC_STS_LEVEL m) = s.get (F.ICU_SRC_STS_LEVEL m) := by
  unfold icuCount
  split
  · calc (icuOffer n (icuWake n (s.bump (F.ICU_SRC_STS_COUNT n)))).get (F.ICU_SRC_STS_LEVEL m)
      _ = (icuWake n (s.bump (F.ICU_SRC_STS_COUNT n))).get (F.ICU_SRC_STS_LEVEL m) := icuOffer_srcLevel n m _
      _ = (s.bump (F.ICU_SRC_STS_COUNT n)).get (F.ICU_SRC_STS_LEVEL m) := icuWake_srcLevel hm
      _ = s.get (F.ICU_SRC_STS_LEVEL m) := s.srcLevel_put _ fun _ => .inl (Nat.le_refl 8)
  · rfl

/-- An event on a source of a fault page reaches no status register of the interrupt controller. -/
theorem faultCore_icu_srcLevel {id info m : Nat} {s : State} (hid : id < 64) :
    (faultCore .icu id info s).get (F.ICU_SRC_STS_LEVEL m) = s.get (F.ICU_SRC_STS_LEVEL m) := by
  have hPage : offPage .icu (R.ICU_SRC_STS m) := .inr (by simp only [Blk.base, R.ICU_SRC_STS]; omega)
  exact congrArg (fieldOf · 8 1) (faultCore_reg hid hPage)

/-! ### LEVEL follows the input (R315) -/

/-- The input of a source sets its LEVEL. -/
theorem icuInput_srcLevel {n : Nat} {lvl : Bool} {s : State} (hn : n < 1024) :
    (icuInput n lvl s).1.get (F.ICU_SRC_STS_LEVEL n) = b2n lvl := by
  have hSet : (s.put (F.ICU_SRC_STS_LEVEL n) (b2n lvl)).get (F.ICU_SRC_STS_LEVEL n) = b2n lvl := by
    rw [State.get_put_same s (f := F.ICU_SRC_STS_LEVEL n) _ (show 8 + 1 ≤ 64 by decide)]
    cases lvl <;> rfl
  unfold icuInput
  split
  next hSame => rw [s.get_eq_b2n_is rfl, eq_of_beq hSame]
  next =>
    dsimp only
    split
    · exact (icuCount_srcLevel hn).trans hSet
    · exact hSet

/-- The input of another source leaves the LEVEL of source `m` alone. -/
theorem icuInput_srcLevel_other {n m : Nat} {lvl : Bool} {s : State} (hm : m < 1024) (h : m ≠ n) :
    (icuInput n lvl s).1.get (F.ICU_SRC_STS_LEVEL m) = s.get (F.ICU_SRC_STS_LEVEL m) := by
  have hPut := s.srcLevel_put_level (b2n lvl) h
  unfold icuInput
  split
  · rfl
  · dsimp only
    split
    · exact (icuCount_srcLevel hm).trans hPut
    · exact hPut

/-- The interrupt request of the controller's own page moves the LEVEL of the controller's source alone (R392). -/
theorem irqSync_icu_srcLevel {k m : Nat} {s : State} (hm : m < 1024) (h : m ≠ Blk.icu.bit) :
    (irqSync k .icu s).get (F.ICU_SRC_STS_LEVEL m) = s.get (F.ICU_SRC_STS_LEVEL m) := by
  induction k generalizing s with
  | zero => rfl
  | succ k ih =>
    have hInput := icuInput_srcLevel_other (lvl := s.fltIrq .icu) (s := s) hm h
    rw [irqSync]
    split
    · exact ih.trans ((faultCore_icu_srcLevel (by decide)).trans hInput)
    · exact hInput

/-- A fault event of the controller leaves the LEVEL of every other source alone. -/
theorem faultEvent_icu_srcLevel {id info m : Nat} {s : State} (hid : id < 64) (hm : m < 1024) (h : m ≠ Blk.icu.bit) :
    (faultEvent .icu id info s).get (F.ICU_SRC_STS_LEVEL m) = s.get (F.ICU_SRC_STS_LEVEL m) :=
  (irqSync_icu_srcLevel hm h).trans (faultCore_icu_srcLevel hid)

/-- An internal source reads the LEVEL its condition gives it, also where its count finds HOST_UNBOUND (R318). The
controller's own source is left out: that event may move its LEVEL after the input has. -/
theorem icuLevel_srcLevel {n : Nat} {lvl : Bool} {s : State} (hn : n < 1024) (h : n ≠ Blk.icu.bit) :
    (icuLevel n lvl s).get (F.ICU_SRC_STS_LEVEL n) = b2n lvl := by
  unfold icuLevel
  dsimp only
  split
  · exact (faultEvent_icu_srcLevel (by decide) hn h).trans (icuInput_srcLevel hn)
  · exact icuInput_srcLevel hn

/-- Settles O18: the two grounds of R316, the one that an edge source keeps, and the LEVEL that is read back. -/
theorem sourcePending : Obligations.SourcePending :=
  ⟨State.icuPending_iff, fun _ _ => State.icuPending_iff_of_edge, fun _ _ _ => icuLevel_srcLevel⟩

end Sys2Proof.Machine
end

section
/-! PROOFS. The mailbox of a Gondola core of spec/14: what a write of `gmbhead` takes (R346), and where a call is placed. -/
namespace Sys2Proof.Machine

open Sys2Proof

/-! ### Core records and mailbox entries -/

/-- The record of a core depends on the core records alone. -/
theorem State.coreOf_congr {s t : State} (h : t.cores = s.cores) (c : Nat) : t.coreOf c = s.coreOf c := by
  rw [State.coreOf, h, State.coreOf]

/-- A mailbox entry depends on the record of its core alone. -/
theorem State.mbox_congr {s t : State} {c : Nat} (h : t.coreOf c = s.coreOf c) (i : Nat) : t.mbox c i = s.mbox c i := by
  rw [State.mbox, h, State.mbox]

@[simp] theorem State.mbox_setCore_same (s : State) (c : Nat) (x : Core) (i : Nat) :
    (s.setCore c x).mbox c i = KMap.get x.mbox {} i := by
  rw [State.mbox, State.coreOf_setCore_same]

@[simp] theorem State.mbox_setMbox_same (s : State) (c i : Nat) (e : MboxEnt) : (s.setMbox c i e).mbox c i = e := by
  rw [State.setMbox, State.mbox_setCore_same, KMap.get_set_same]

/-- A write of a mailbox entry leaves the core's other entries alone. -/
theorem State.mbox_setMbox_other (s : State) {c i j : Nat} (e : MboxEnt) (h : j ≠ i) :
    (s.setMbox c i e).mbox c j = s.mbox c j := by
  rw [State.setMbox, State.mbox_setCore_same, KMap.get_set_other _ _ _ _ h, State.mbox]

/-- MBOX and the core's interrupt source follow the mailbox; the core records stay. -/
@[simp] theorem mboxSync_coreOf (c d : Nat) (s : State) : (mboxSync c s).coreOf d = s.coreOf d :=
  State.coreOf_congr ((mboxSync_change (List.Subset.refl _) (.refl _ s)).frame .cores (by decide)) d

@[simp] theorem mboxSync_mbox (c d i : Nat) (s : State) : (mboxSync c s).mbox d i = s.mbox d i :=
  State.mbox_congr (mboxSync_coreOf c d s) i

/-- `s` with the head of the mailbox ring of core `c`. -/
def State.setHead (s : State) (c h : Nat) : State := s.setCore c { s.coreOf c with head := h }

@[simp] theorem State.setHead_head (s : State) (c h : Nat) : ((s.setHead c h).coreOf c).head = h := by
  rw [State.setHead, State.coreOf_setCore_same]

@[simp] theorem State.setHead_mbox (s : State) (c h i : Nat) : (s.setHead c h).mbox c i = s.mbox c i := by
  rw [State.setHead, State.mbox_setCore_same, State.mbox]

/-- `s` with the tail of the mailbox ring of core `c`. -/
def State.setTail (s : State) (c k : Nat) : State := s.setCore c { s.coreOf c with tail := k }

@[simp] theorem State.setTail_tail (s : State) (c k : Nat) : ((s.setTail c k).coreOf c).tail = k := by
  rw [State.setTail, State.coreOf_setCore_same]

@[simp] theorem State.setTail_mbox (s : State) (c k i : Nat) : (s.setTail c k).mbox c i = s.mbox c i := by
  rw [State.setTail, State.mbox_setCore_same, State.mbox]

/-! ### What a write of `gmbhead` takes (R346) -/

/-- `s` with the entries `l` of the mailbox of core `c` taken. -/
def markTaken (c : Nat) (l : List Nat) (s : State) : State :=
  l.foldl (fun t i => t.setMbox c i { t.mbox c i with st := 2 }) s

/-- The entries of the list are taken, and the others keep their state. -/
theorem markTaken_mbox_st (c i : Nat) (l : List Nat) (s : State) :
    ((markTaken c l s).mbox c i).st = if i ∈ l then 2 else (s.mbox c i).st := by
  induction l generalizing s with
  | nil => rfl
  | cons k l ih =>
    have hTail : ((markTaken c (k :: l) s).mbox c i).st
        = if i ∈ l then 2 else ((s.setMbox c k { s.mbox c k with st := 2 }).mbox c i).st := ih _
    by_cases hk : i = k
    · rw [hTail, hk, State.mbox_setMbox_same]
      simp
    · rw [hTail, State.mbox_setMbox_other _ _ hk]
      simp [hk]

/-- The entry `k` places after the head of the ring of core `c`. -/
def State.ringAt (s : State) (c k : Nat) : Nat := ((s.coreOf c).head + k) % 16

/-- The placed entries among the first `n` from the head on. -/
def State.placedWithin (s : State) (c n : Nat) : List Nat :=
  (((List.range 16).filter fun k => (s.mbox c (s.ringAt c k)).st == 1).filter fun k => k < n).map (s.ringAt c)

/-- Sixteen places in a row of the ring are sixteen entries. -/
theorem State.ringAt_inj {s : State} {c j k : Nat} (hj : j < 16) (hk : k < 16) (h : s.ringAt c j = s.ringAt c k) : j = k := by
  simp only [State.ringAt] at h
  omega

theorem State.mem_placedWithin {s : State} {c n j : Nat} (hj : j < 16) :
    s.ringAt c j ∈ s.placedWithin c n ↔ j < n ∧ (s.mbox c (s.ringAt c j)).st = 1 := by
  simp only [State.placedWithin, List.mem_map, List.mem_filter, List.mem_range, beq_iff_eq, decide_eq_true_eq]
  constructor
  · rintro ⟨k, ⟨⟨hk, hPlaced⟩, hn⟩, hAt⟩
    obtain rfl := State.ringAt_inj hk hj hAt
    exact ⟨hn, hPlaced⟩
  · rintro ⟨hn, hPlaced⟩
    exact ⟨j, ⟨⟨hj, hPlaced⟩, hn⟩, rfl⟩

section
variable {s : State} {c h n : Nat}

/-- A write that reaches no further than a placed entry takes the placed entries before it and moves the head. -/
theorem mbHead_of_within {k : Nat} (hn : n = (h + 16 - (s.coreOf c).head) % 16) (hMove : n ≠ 0) (hk : k < 16)
    (hReach : n ≤ k + 1) (hPlaced : (s.mbox c (s.ringAt c k)).st = 1) :
    mbHead c h s = mboxSync c ((markTaken c (s.placedWithin c n) s).setHead c (h % 16)) := by
  subst hn
  rw [markTaken, State.placedWithin, List.foldl_map]
  unfold mbHead
  extract_lets x n at_ placed s1
  have hAny : (placed.any fun k => n ≤ k + 1) = true := by
    rw [List.any_eq_true]
    exact ⟨k, List.mem_filter.2 ⟨List.mem_range.2 hk, beq_iff_eq.2 hPlaced⟩, decide_eq_true hReach⟩
  rw [if_neg hMove, if_pos hAny]
  rfl

/-- A write that would move the head past the last placed entry is ignored and recorded. -/
theorem mbHead_of_past (hn : n = (h + 16 - (s.coreOf c).head) % 16) (hMove : n ≠ 0)
    (hPast : ∀ k, k < 16 → (s.mbox c (s.ringAt c k)).st = 1 → k + 1 < n) : mbHead c h s = gdcNotice s := by
  subst hn
  unfold mbHead
  extract_lets x n at_ placed s1
  have hNone : ¬ (placed.any fun k => n ≤ k + 1) = true := by
    rw [List.any_eq_true]
    rintro ⟨k, hMem, hReach⟩
    obtain ⟨hk, hPlaced⟩ := List.mem_filter.1 hMem
    exact Nat.not_le.2 (hPast k (List.mem_range.1 hk) (beq_iff_eq.1 hPlaced)) (of_decide_eq_true hReach)
  rw [if_neg hMove, if_neg hNone]

end

/-! ### GMBHEAD and MAILBOX_PLACE -/

/-- Machine code of an online core outside a FAST handler accesses a CSR. -/
theorem csrAct_of_machine {c csr : Nat} {f : State → State} {s : State} (hc : c < 8) (hOnline : s.coreOnline c = true)
    (hFast : (s.coreOf c).fastActive = false) (hMachine : (s.coreOf c).machine = true) : csrAct c csr f s = f s := by
  simp [csrAct, coreAct, hc.not_ge, hOnline, hFast, hMachine]

/-- What an entry holds once the SERVICE_CALL of SQ `q` is placed in it (Table 14.4); `old` is what it held. -/
def State.callMbox (s : State) (q : Nat) (old : MboxEnt) : MboxEnt :=
  { st := 1, desc := (List.range 8).flatMap (fun j => toBytes 8 (s.ctxW q (8 + j)).toNat), sq := q, opSeq := s.cget q C.CK_SEQ
    env := s.cget q C.ENV, abort := false, time := s.dev.time % 2 ^ 48, area := old.area }

/-- A waiting call is placed in the first free entry from the tail on, and the tail moves behind that entry. -/
theorem doMailboxPlace_of_free {q c k : Nat} {s : State} (hWaits : s.ctlWaits 0x0E q = true) (hNew : s.callEntry q = none)
    (hCheck : s.callCheck q = none) (hCore : c = s.df q 0 8 3)
    (hFree : (((List.range 16).map fun j => ((s.coreOf c).tail + j) % 16).find? fun j => (s.mbox c j).st == 0) = some k) :
    doMailboxPlace q s = mboxSync c ((s.setMbox c k (s.callMbox q (s.mbox c k))).setTail c ((k + 1) % 16)) := by
  subst hCore
  have hStart : ¬ ((!s.ctlWaits 0x0E q || (s.callEntry q).isSome) = true) := by simp [hWaits, hNew]
  unfold doMailboxPlace
  simp only [if_neg hStart, hCheck, hFree]
  rfl

/-- Settles O19: a write within the placed entries, one past them, the CSR access of the running core, and the placement of a
call. -/
theorem mailboxTaken : Obligations.MailboxTaken := by
  intro s c h n hc hh hn hMove _
  refine ⟨fun k hk hReach hPlaced => ?_, mbHead_of_past hn hMove, fun hOnline hFast hMachine => ?_,
    fun q k u hWaits hNew hCheck hCore hFree hExec => ?_⟩
  · rw [mbHead_of_within hn hMove hk hReach hPlaced]
    refine ⟨?_, fun j hj => ?_⟩
    · rw [mboxSync_coreOf, State.setHead_head, Nat.mod_eq_of_lt hh]
    · rw [mboxSync_mbox, State.setHead_mbox]
      exact (markTaken_mbox_st ..).trans (if_congr (State.mem_placedWithin hj) rfl rfl)
  · calc exec (.gmbhead c h) s = .next (csrAct c 0x7C4 (mbHead c (h % 16)) s) := rfl
      _ = .next (mbHead c h s) := by rw [csrAct_of_machine hc hOnline hFast hMachine, Nat.mod_eq_of_lt hh]
  · have hPlace : u = mboxSync c ((s.setMbox c k (s.callMbox q (s.mbox c k))).setTail c ((k + 1) % 16)) :=
      (Host.Outcome.next.inj hExec).symm.trans (doMailboxPlace_of_free hWaits hNew hCheck hCore hFree)
    refine ⟨?_, ?_⟩
    · rw [hPlace, mboxSync_coreOf, State.setTail_tail]
    · rw [hPlace, mboxSync_mbox, State.setTail_mbox, State.mbox_setMbox_same, State.callMbox]

end Sys2Proof.Machine
end

section
/-! PROOFS. What a step does with the queue, the state at reset, and what every command keeps: the consequences of the law of
change of every command. -/
namespace Sys2Proof.Machine

open Sys2Proof

set_option Elab.async false

/-! ### Steps and the queue -/

/-- Settles O1: a step is defined by the front of the queue. -/
theorem stepRunsFront : Obligations.StepRunsFront := by
  intro s c rest h
  simp only [step, h]

/-- Settles O2: the idle step is one tick of the device clock. -/
theorem stepIdles : Obligations.StepIdles := by
  intro s h
  refine ⟨s.idle, by simp only [step, h], ?_⟩
  unfold State.idle
  split
  · exact ⟨rfl, rfl, rfl⟩
  · exact ⟨rfl, rfl, rfl⟩

/-- Settles O3: the table's lookup answers none for every word. -/
theorem noWordSpellsACommand : Obligations.NoWordSpellsACommand :=
  fun _ _ _ => ⟨rfl, rfl⟩

/-! ### Reset -/

/-- Settles O4: the state at reset lists no register, so every register reads its Reset column. -/
theorem resetState : Obligations.ResetState :=
  ⟨rfl, rfl, rfl, rfl, rfl, fun _ => rfl, by decide, by decide, by decide⟩

/-- Settles O5: nothing is listed at reset. -/
theorem resetCanonical : Obligations.ResetCanonical := by
  constructor <;> rfl

/-! ### Every command -/

/-- The idle step changes the clock alone, so no map of the state. -/
theorem State.idle_canonical {s : State} (h : s.Canonical) : s.idle.Canonical := by
  unfold State.idle
  split
  · exact ⟨h.regs, h.mem, h.tcm, h.xt, h.ctx, h.msix, h.fns, h.pf, h.vf, h.flt, h.qaux, h.ports, h.cores, h.sram⟩
  · exact h

/-- The maps of the state do not depend on the queue. -/
theorem State.Canonical.withPending {s : State} (h : s.Canonical) (l : List Instr) : ({ s with pending := l } : State).Canonical :=
  ⟨h.regs, h.mem, h.tcm, h.xt, h.ctx, h.msix, h.fns, h.pf, h.vf, h.flt, h.qaux, h.ports, h.cores, h.sram⟩

/-- Settles O6: an empty queue leaves the maps alone, and a command keeps them canonical by its law of change. -/
theorem stepKeepsCanonical : Obligations.StepKeepsCanonical := by
  intro s t hs h
  cases hQueue : s.pending with
  | nil =>
    simp only [step, hQueue] at h
    cases h
    exact State.idle_canonical hs
  | cons c rest =>
    simp only [step, hQueue] at h
    exact (exec_change c h).canonical (hs.withPending rest)

/-- Settles O7: the frame is the law of change of the command. -/
theorem everyCommandFrame : Obligations.EveryCommandFrame := by
  intro c s t h
  obtain ⟨hQueue, _, hOut, hFree, hFrame⟩ := exec_change c h
  exact ⟨hQueue, hOut, hFree, hFrame⟩

/-- Settles O10: every other command is dispatched to an arm that answers a next state, and HBM_ACCESS asks for the capacity. -/
theorem onlyHbmAccessStops : Obligations.OnlyHbmAccessStops := by
  refine ⟨fun c s hc => ?_, fun s r => ?_⟩
  · cases c
    case hbmAccess r => exact absurd rfl (hc r)
    all_goals exact ⟨_, rfl⟩
  · change execHbmAccess r s = _ ↔ _
    unfold execHbmAccess
    split <;> simp_all

end Sys2Proof.Machine
end

section
/-! PROOFS. The commands that are writes of control space (R6, R11). -/
namespace Sys2Proof.Machine

open Sys2Proof

set_option Elab.async false

/-- A command that acts within its range of indices answers there what it does. -/
theorem next_ite {p : Prop} [Decidable p] {t s : State} (h : p) :
    (Host.Outcome.next (if p then t else s) : Host.Outcome State Fault Refusal) = .next t := congrArg _ (if_pos h)

/-- A queue command within the slots and queue numbers writes its code and the queue to the slot's `QEN_QCMD` (R162). -/
theorem queueCmd_eq {k q : Nat} (hk : k < 9) (hq : q < 2 ^ 22) (op : Nat) (a : Agent) (s : State) :
    queueCmd op k q a s = ctlWriteBy a (R.QEN_QCMD k) (BitVec.ofNat 64 (op * 2 ^ 32 + q)) 64 s := by
  exact if_pos (Bool.and_eq_true_iff.2 ⟨decide_eq_true hk, decide_eq_true hq⟩)

/-- Settles O13: each command is dispatched to the write of its register, within its range of indices where it has one. -/
theorem controlWriteCommands : Obligations.ControlWriteCommands := by
  unfold Obligations.ControlWriteCommands
  refine ⟨fun _ _ _ => rfl, fun _ _ _ => rfl, fun _ _ _ => rfl, fun _ _ _ => rfl, fun _ _ _ => rfl, fun _ _ _ => rfl, fun _ _ _ => rfl,
    fun _ _ _ => rfl, fun _ _ _ => rfl, fun _ _ _ => rfl, fun _ _ _ => rfl, fun _ _ _ => rfl, fun _ _ _ => rfl, fun _ _ _ => rfl,
    fun _ _ _ => rfl, fun _ _ _ => rfl, fun _ _ _ _ h => next_ite h, fun _ _ _ _ h => next_ite h, fun _ _ _ _ h => next_ite h,
    fun _ _ _ _ h => next_ite h, fun _ _ _ _ h => next_ite h, fun _ _ _ _ h => next_ite h, fun _ _ _ _ h => next_ite h,
    fun _ _ _ _ h => next_ite h, fun _ _ _ _ h => next_ite h, fun _ _ _ _ h => next_ite h, fun _ _ _ _ h => next_ite h,
    fun _ _ _ => rfl, fun _ _ _ => rfl, fun _ _ _ => rfl, fun _ _ _ => rfl, fun _ _ _ => rfl, fun _ _ _ => rfl, fun _ _ _ => rfl,
    fun _ _ _ => rfl, fun _ _ _ _ h => next_ite h, fun _ _ _ => rfl, fun _ _ _ => rfl, fun _ _ _ => rfl, fun _ _ _ => rfl,
    fun _ _ _ => rfl, fun _ _ _ => rfl, fun _ _ _ => rfl, fun _ _ _ => rfl, fun _ _ _ _ h => next_ite h,
    fun _ _ _ _ h => next_ite h, fun _ _ _ _ h => next_ite h, fun _ _ _ _ h => next_ite h, fun _ _ _ _ h => next_ite h,
    fun _ _ _ _ h => next_ite h, fun _ _ _ _ h => next_ite h, fun _ _ _ => rfl, fun _ _ _ => rfl,
    fun s k q a hk hq => ?_⟩
  refine ⟨?_, ?_, ?_, ?_, ?_, ?_, ?_, ?_, ?_⟩ <;> exact congrArg _ (queueCmd_eq hk hq _ a s)

end Sys2Proof.Machine
end

section
/-! PROOFS. SAFE of spec/03 is left only by a reset or a power event (R67): whatever else a command does there, the mode stays. -/
namespace Sys2Proof.Machine

open Sys2Proof

set_option Elab.async false

/-! ### Operations that stay in SAFE -/

/-- The device is in SAFE. -/
def InSafe (s : State) : Prop := s.dev.mode = .safe

theorem InSafe.of_dev {s u : State} (h : InSafe s) (hDev : u.dev = s.dev) : InSafe u := (congrArg Dev.mode hDev).trans h

theorem InSafe.put {s : State} (h : InSafe s) (f : Field) (v : Nat) : InSafe (s.put f v) := h

theorem InSafe.setReg {s : State} (h : InSafe s) (off : Nat) (v : Word) : InSafe (s.setReg off v) := h

theorem InSafe.bump {s : State} (h : InSafe s) (f : Field) : InSafe (s.bump f) := h

theorem InSafe.emit {s : State} (h : InSafe s) (o : Out) : InSafe (s.emit o) := h

/-- An operation whose law of change leaves out the device's mode stays in SAFE. -/
theorem safe_of_law {T : List Part} {s u : State} (law : ∀ {U : List Part} {r0 : State}, T ⊆ U → Change U r0 s → Change U r0 u)
    (h : InSafe s) (hDev : Part.dev ∉ T := by decide) : InSafe u :=
  h.of_dev ((law (List.Subset.refl _) (.refl _ s)).keep .dev hDev)

theorem safe_ite {p : Prop} [Decidable p] {x y : State} (hx : InSafe x) (hy : InSafe y) :
    InSafe (if p then x else y) := by
  split
  · exact hx
  · exact hy

theorem safe_foldl {α : Type} {f : State → α → State} (hf : ∀ t x, InSafe t → InSafe (f t x)) {l : List α} {s : State}
    (h : InSafe s) : InSafe (l.foldl f s) := by
  induction l generalizing s with
  | nil => exact h
  | cons x l ih => exact ih (hf s x h)

/-- No transition of Table 3.11 on a retirement leads out of SAFE. -/
theorem reduceService_safe {s : State} (h : InSafe s) : InSafe (reduceService s) := by
  simp [InSafe, reduceService, show s.dev.mode = .safe from h]

/-- A quiesce cause that sets in SAFE is noted, and the mode stays (R69). -/
theorem quiesceSet_safe {i : Nat} {s : State} (h : InSafe s) : InSafe (quiesceSet i s) := by
  simp [InSafe, quiesceSet, show s.dev.mode = .safe from h, Mode.running]

/-- A quiesce cause that clears leads out of QUIESCE only (R69). -/
theorem quiesceClear_safe {i : Nat} {s : State} (h : InSafe s) : InSafe (quiesceClear i s) := by
  simp [InSafe, quiesceClear, show s.dev.mode = .safe from h]

theorem enterSafe_safe (src : Nat) (s : State) : InSafe (enterSafe src s) := by
  simp [InSafe]

/-! ### Retirements, self-tests and grace -/

theorem sramRetire_safe {b : Blk} {bank : Nat} {s : State} (h : InSafe s) : InSafe (sramRetire b bank s) :=
  safe_ite h (safe_ite (reduceService_safe h) h)

theorem swcRetire_safe {k : Nat} {s : State} (h : InSafe s) : InSafe (swcRetire k s) :=
  safe_ite h (safe_ite h (safe_ite (safe_of_law faultEvent_change (reduceService_safe h)) (reduceService_safe h)))

theorem tcRetire_safe {k : Nat} {s : State} (h : InSafe s) : InSafe (tcRetire k s) :=
  safe_ite h (reduceService_safe h)

theorem ccRetire_safe {k : Nat} {s : State} (h : InSafe s) : InSafe (ccRetire k s) :=
  safe_ite h (reduceService_safe (safe_foldl (fun _ _ ht => safe_of_law dropFetched_change ht) h))

theorem pipeRetire_safe {k : Nat} {s : State} (h : InSafe s) : InSafe (pipeRetire k s) :=
  safe_ite h (safe_ite (safe_of_law faultRaise_change (reduceService_safe h)) (reduceService_safe h))

theorem coreRetire_safe {c : Nat} {s : State} (h : InSafe s) : InSafe (coreRetire c s) :=
  safe_ite h (reduceService_safe (safe_of_law faultEvent_change
    (safe_of_law coreLeave_change (h.of_dev (u := (s.put (F.GDC_CORE_CTL_ENABLE c) 0)) rfl))))

theorem tcmRetire_safe {info : Nat} {s : State} (h : InSafe s) : InSafe (tcmRetire info s) :=
  safe_ite h (safe_ite h (coreRetire_safe h))

theorem l2Retire_safe {bank : Nat} {s : State} (h : InSafe s) : InSafe (l2Retire bank s) :=
  safe_ite h (safe_ite h (reduceService_safe h))

theorem hbmRetire_safe {p : Nat} {s : State} (h : InSafe s) : InSafe (hbmRetire p s) := by
  unfold hbmRetire
  extract_lets hbm s1 gone s2 wxl s3
  have h2 : InSafe s2 := safe_of_law pcDrop_change (h.of_dev (u := s1) rfl)
  exact safe_ite h (reduceService_safe (safe_of_law faultEvent_change (h2.of_dev (u := s3) rfl)))

/-- A retirement reduces service, which in SAFE it does not count (R388). -/
theorem retireRes_safe {b : Blk} {id res : Nat} {s : State} (h : InSafe s) : InSafe (retireRes b id res s) := by
  unfold retireRes
  split
  · exact swcRetire_safe h
  · exact sramRetire_safe h
  · exact sramRetire_safe h
  · exact sramRetire_safe h
  · exact tcRetire_safe h
  · exact ccRetire_safe h
  · exact pipeRetire_safe h
  · exact tcmRetire_safe h
  · exact l2Retire_safe h
  · exact hbmRetire_safe h
  · exact h

theorem selfTested_safe {b : Blk} {id : Nat} {pass : Bool} {s : State} (h : InSafe s) :
    InSafe (selfTested b id pass s) := by
  unfold selfTested
  extract_lets own x res s0 s1 qen s2
  have h0 : InSafe s0 := safe_of_law testDone_change (safe_of_law State.setFlt_change h)
  have h1 : InSafe s1 := by
    unfold s1
    split
    · exact safe_of_law startTest_change h0
    · exact h0
  have h2 : InSafe s2 := safe_ite h1 h1
  exact safe_ite h (safe_ite h2 (retireRes_safe h2))

/-- In SAFE the end of a grace time clears the timer alone (R384). -/
theorem graceEnd_safe {b : Blk} {id : Nat} {s : State} (h : InSafe s) : InSafe (graceEnd b id s) := by
  simp only [graceEnd, show s.dev.mode = .safe from h, beq_self_eq_true, if_true]
  exact safe_ite h h

theorem laneTested_safe {p : Nat} {pass : Bool} {s : State} (h : InSafe s) : InSafe (laneTested p pass s) := by
  unfold laneTested
  split
  · exact h
  next k =>
    extract_lets s1 s2 s3 narrower
    have h1 : InSafe s1 := ((h.put _ _).bump _).put _ _
    have h2 : InSafe s2 := safe_of_law State.modPort_change (safe_of_law testDone_change h1)
    have h3 : InSafe s3 := h2.put _ _
    exact safe_ite (safe_of_law propose_change h2) (safe_ite (safe_of_law propose_change (safe_ite (reduceService_safe h3) h3))
      (reduceService_safe (safe_of_law portOff_change (safe_of_law faultEvent_change h3))))

/-! ### The pair -/

theorem syncAgreed_safe {s : State} (h : InSafe s) : InSafe (syncAgreed s) := by
  have hFault {l : List Nat} : InSafe (l.foldl (fun t e => faultEvent .prl 52 e t) s) :=
    safe_foldl (fun _ _ ht => safe_of_law faultEvent_change ht) h
  have hDrop {l : List Nat} : InSafe (l.foldl (fun t e => discardClaim e t) s) :=
    safe_foldl (fun _ _ ht => safe_of_law discardClaim_change ht) h
  have hBoth {l : List Nat} : InSafe (l.foldl (fun t e => discardClaim e (faultEvent .prl 52 e t)) s) :=
    safe_foldl (fun _ _ ht => safe_of_law discardClaim_change (safe_of_law faultEvent_change ht)) h
  unfold syncAgreed
  extract_lets both
  exact safe_ite h (safe_ite (safe_of_law pairFormed_change h) (safe_ite (safe_of_law pairFormed_change hFault)
    (safe_ite (safe_ite (safe_of_law pairFormed_change (quiesceClear_safe hDrop)) h)
      (safe_ite (quiesceSet_safe hFault) (safe_of_law pairFormed_change hBoth)))))

theorem giveBegin_safe {es : List Nat} {s : State} (h : InSafe s) : InSafe (giveBegin es s) :=
  safe_ite (quiesceSet_safe h) h

theorem giveEnd_safe {s : State} (h : InSafe s) : InSafe (giveEnd s) := by
  unfold giveEnd
  extract_lets s1 prl s2
  have h1 : InSafe s1 :=
    safe_of_law sbPair_change (safe_foldl (fun _ _ ht => safe_of_law setOwn_change ht) h)
  have h2 : InSafe s2 := safe_of_law pairReply_change h1
  exact safe_ite h (safe_of_law icuEvent_change (quiesceClear_safe h2))

/-! ### Checks -/

/-- A check that passes starts its block; DEV's leads to RUN from CONFIG alone (transition 4). -/
theorem passBlock_safe {b : Blk} {c : Check} {s : State} (h : InSafe s) : InSafe (passBlock b c s) := by
  have hEmpty : InSafe (fltEmpty b s) := safe_of_law fltEmpty_change h
  unfold passBlock
  extract_lets d
  cases b with
  | dev =>
    have hMode : ¬ (s.dev.mode == .config) = true := by rw [show s.dev.mode = .safe from h]; decide
    rw [if_neg hMode]
    exact h
  | hep => exact safe_of_law icuOfferAll_change hEmpty
  | wxl => exact safe_ite hEmpty (safe_ite (safe_of_law retrain_change h) h)
  | qen =>
    exact safe_ite hEmpty (safe_of_law qResume_change (safe_of_law cmdFree_change (safe_of_law enableQueue_change h)))
  | spl => exact safe_ite hEmpty (safe_ite h (safe_ite (safe_of_law envBegin_change h) h))
  | swc => exact safe_ite (safe_of_law tailBegin_change h) hEmpty
  | lp n => exact safe_of_law portTry1_change hEmpty
  | prl => exact safe_ite (safe_of_law pairReady_change h) (safe_of_law portTry1_change hEmpty)
  | icu => exact safe_ite (safe_of_law icuOfferAll_change hEmpty) (safe_of_law icuOffer_change h)
  | gdc =>
    exact safe_ite (safe_foldl (fun t i ht =>
      safe_of_law coreStart_change (ht.of_dev (u := (t.put (F.GDC_CORE_CTL_ENABLE i) 1)) rfl)) hEmpty)
      (safe_of_law coreStart_change h)
  | _ => exact hEmpty

theorem checkPass_safe {c : Check} {s : State} (h : InSafe s) : InSafe (checkPass c s) := by
  unfold checkPass
  split
  · refine safe_ite (h.setReg _ _) (safe_of_law irqSync_change ?_)
    cases c.bit with
    | some i => exact (h.setReg _ _).put _ _
    | none => exact safe_ite (h.setReg _ _) ((h.setReg _ _).put _ _)
  · split
    · exact h
    · refine safe_ite (passBlock_safe h) (passBlock_safe ?_)
      cases c.bit with
      | some i => exact h.setReg _ _
      | none => exact h.setReg _ _

theorem checkEnd_safe {s : State} (h : InSafe s) : InSafe (checkEnd s) := by
  unfold checkEnd
  split
  · exact h
  · extract_lets s1 r obj s2
    have h1 : InSafe s1 := h
    have h2 : InSafe s2 := by
      unfold s2
      split
      · exact h1
      · exact h1.setReg _ _
    cases r with
    | some p => exact safe_of_law checkRefuse_change h2
    | none => exact checkPass_safe h2

/-! ### Writes of control space -/

theorem noticeIf_safe {c : Bool} {b : Blk} {off : Nat} {s : State} (h : InSafe s) : InSafe (noticeIf c b off s) :=
  safe_of_law noticeIf_change h

/-- In SAFE a write of DEV_CTL neither puts the device to sleep, which needs a drained QUIESCE, nor starts it (R68). -/
theorem devCtl_safe {off : Nat} {old v : Word} {s : State} (h : InSafe s) : InSafe (devCtl off old v s) := by
  unfold devCtl
  extract_lets m one s1 s2 badQ s3 badS s4 s5 s6
  have hm : m = .safe := h
  have hs : badS = one v 2 := by simp [badS, hm]
  have h1 : InSafe s1 := h
  have h2 : InSafe s2 :=
    safe_ite (safe_ite (safe_of_law pushOnce_change h1) (safe_of_law notice_change h1)) (noticeIf_safe h1)
  have h5 : InSafe s5 := noticeIf_safe (noticeIf_safe (noticeIf_safe h2))
  have h6 : InSafe s6 := safe_ite h5 h5
  rw [if_neg (by simp [hm]), if_neg (by simp [hs])]
  exact safe_ite (quiesceSet_safe h6) (safe_ite (quiesceClear_safe h6) h6)

theorem prlCtl_safe {off : Nat} {old v : Word} {s : State} (h : InSafe s) : InSafe (prlCtl off old v s) := by
  unfold prlCtl
  extract_lets bad s1 s2 es
  have h1 : InSafe s1 := noticeIf_safe h
  have h2 : InSafe s2 := safe_ite (safe_of_law holdDisable_change h1) h1
  exact safe_ite h2 (giveBegin_safe h2)

theorem pageWrite_safe {b : Blk} {off e : Nat} {r : RegDef} {old v : Word} {s : State} (h : InSafe s) :
    InSafe (pageWrite b off e r old v s) := by
  unfold pageWrite
  refine safe_ite (safe_of_law faultAck_change h) (safe_ite (safe_of_law pushCheck_change h)
    (safe_ite (safe_ite (graceEnd_safe (h.put _ _)) (h.put _ _)) (safe_ite ?_ (h.setReg _ _))))
  extract_lets n on same s1 s2 s3 s4
  have h1 : InSafe s1 := h.setReg _ _
  have h2 : InSafe s2 := safe_ite h1 (h1.put _ _)
  have h4 : InSafe s4 := safe_of_law irqSync_change (safe_ite (safe_of_law faultClear_change h2) h2)
  exact safe_ite (safe_of_law pushCheck_change h) (safe_ite (safe_of_law pushOnce_change h4) h4)

/-- What the write of a register does beside storing: only PRL's hand-over reaches the quiesce causes. -/
theorem regActs_safe {b : Blk} {d off : Nat} {old v : Word} {s : State} (h : InSafe s) :
    InSafe (regActs b d off old v s) := by
  unfold regActs
  cases b with
  | img => exact safe_ite (safe_of_law imgOp_change h) h
  | hep => exact safe_ite (safe_of_law hostRetrain_change h) h
  | wxl =>
    exact safe_ite (safe_of_law retrainAll_change h) (safe_ite (safe_ite (safe_of_law flushStart_change h) h)
      (safe_ite (safe_ite (safe_of_law sediscardClr_change h) h) h))
  | qen =>
    exact safe_ite (safe_of_law qArrive_change (h.put _ _)) h
  | spl => exact safe_ite (safe_of_law splCtl_change h) h
  | lp p =>
    exact safe_ite (safe_ite (safe_of_law holdDisable_change h) h) (safe_ite (safe_of_law rttSync_change h)
      (safe_ite (safe_of_law linkCmd_change h) (safe_ite (safe_of_law portTry1_change (safe_of_law slotSync_change h))
        (safe_ite (safe_ite (safe_of_law portRearmed_change h) h) (safe_ite (safe_ite (safe_of_law cfgGo_change h) h)
          (safe_ite (safe_of_law perrSync_change h) h))))))
  | prl =>
    have hPrl : InSafe (prlCtl off old v s) := prlCtl_safe h
    exact safe_ite (safe_ite (safe_of_law pairPkt_change hPrl) hPrl)
      (safe_ite (safe_of_law rttSync_change h) (safe_ite (safe_of_law linkCmd_change h) h))
  | icu =>
    exact safe_ite (safe_of_law icuSwiAct_change h) (safe_ite (safe_of_law icuDone_change h) (safe_ite (safe_of_law icuCfg_change h) h))
  | gdc =>
    exact safe_ite (safe_of_law loadOp_change h) (safe_ite (safe_of_law loadMeas_change h) (safe_ite (safe_of_law loadWord_change h)
      (safe_ite (safe_ite (h.put _ _) (h.put _ _)) h)))
  | _ => exact h

theorem ctlTake_safe {b : Blk} {off : Nat} {r : RegDef} {v : Word} {s : State} (h : InSafe s) :
    InSafe (ctlTake b off r v s) := by
  have hActs (d : Nat) (old w x : Word) : InSafe (enableActs b d off old w (regActs b d off old w (s.setReg off x))) :=
    safe_of_law enableActs_change (regActs_safe (h.of_dev (u := (s.setReg off x)) rfl))
  unfold ctlTake
  refine safe_ite (pageWrite_safe h) (safe_ite (devCtl_safe h) (safe_ite (safe_of_law pushCheck_change h) ?_))
  cases b with
  | lp p =>
    exact safe_ite (safe_of_law slotCtl_change h) (safe_ite (safe_of_law sbOut_change
      (h.of_dev (u := (s.setReg off _)) rfl)) (hActs ..))
  | _ => exact hActs ..

theorem ctlWriteAs_safe {a : Agent} {off : Nat} {v : Word} {width : Nat} {s : State} (h : InSafe s) :
    InSafe (ctlWriteAs a off v width s) := by
  unfold ctlWriteAs
  cases blockAt off with
  | none => exact h
  | some b =>
    refine safe_ite h (safe_ite (safe_of_law absentEnable_change h) (safe_ite (safe_of_law tcmCtl_change h) ?_))
    cases s.regDef (off / 8 * 8) with
    | none => exact h
    | some r => exact safe_ite (safe_of_law notice_change h) (safe_ite (safe_of_law notice_change h) (ctlTake_safe h))

/-- No write of control space, whoever makes it, leaves SAFE. -/
theorem ctlWriteBy_safe {a : Agent} {off : Nat} {v : Word} {width : Nat} {s : State} (h : InSafe s) :
    InSafe (ctlWriteBy a off v width s) := by
  cases a with
  | core c => exact safe_ite h (safe_ite (ctlWriteAs_safe h) (safe_of_law coreFault_change h))
  | pf0 => exact ctlWriteAs_safe h
  | smbus => exact ctlWriteAs_safe h
  | img => exact h
  | fn f => exact h

theorem pageWriteBy_safe {a : Agent} {b e : Nat} {v : Word} {s : State} (h : InSafe s) :
    InSafe (pageWriteBy a b e v s) := by
  unfold pageWriteBy
  split
  · exact ctlWriteBy_safe h
  · exact h

/-! ### The host's link, functions and requests -/

theorem dlFunctions_safe {s : State} (h : InSafe s) : InSafe (dlFunctions s) := by
  unfold dlFunctions
  extract_lets fs s1 d3 s2 s3
  have h1 : InSafe s1 := safe_ite h (safe_foldl (fun _ _ ht => safe_of_law flrFinish_change (safe_of_law flrBegin_change ht)) h)
  have h3 : InSafe s3 := safe_foldl (fun _ _ ht => safe_of_law icuTargetOff_change ht) (safe_of_law dlConfig_change h1)
  exact safe_ite (quiesceClear_safe h3) h3

theorem hostLinkDown_safe {s : State} (h : InSafe s) : InSafe (hostLinkDown s) := by
  unfold hostLinkDown
  extract_lets paired s1 icu hep s2 s3
  have h1 : InSafe s1 := (safe_of_law linkClear_change h : InSafe (linkClear s)).bump _
  have h2 : InSafe s2 := h1.of_dev rfl
  have h3 : InSafe s3 := dlFunctions_safe (safe_of_law dlFlush_change (safe_of_law dlTags_change
    (safe_of_law hostForget_change (safe_of_law faultEvent_change h2))))
  exact safe_ite h (safe_ite (giveBegin_safe h3) h3)

theorem flrEnd_safe {f : Nat} {s : State} (h : InSafe s) : InSafe (flrEnd f s) := by
  unfold flrEnd
  extract_lets d3 s1
  have h1 : InSafe s1 := safe_of_law flrFinish_change h
  exact safe_ite h (safe_of_law icuOfferAll_change (safe_ite (quiesceClear_safe h1) h1))

/-- D3hot is a quiesce cause, which in SAFE leaves the mode (R69). -/
theorem powerState_safe {f : Nat} {d3 : Bool} {s : State} (h : InSafe s) : InSafe (powerState f d3 s) := by
  unfold powerState
  extract_lets x s1 fs q s2 s3
  have h1 : InSafe s1 := safe_of_law State.setFn_change h
  have h2 : InSafe s2 := safe_foldl (fun _ _ ht => safe_of_law fnStop_change ht) h1
  have h3 : InSafe s3 := safe_foldl (fun _ _ ht => safe_of_law fnGo_change ht) h1
  exact safe_ite h (safe_ite (safe_ite (quiesceSet_safe h2) h2) (safe_ite (quiesceClear_safe h3) h3))

theorem pmcsrWrite_safe {f : Nat} {d3 pmeEn : Bool} {s : State} (h : InSafe s) : InSafe (pmcsrWrite f d3 pmeEn s) :=
  safe_ite h (powerState_safe (safe_of_law pmeEnWrite_change h))

theorem cfgWrite_safe {f off be data : Nat} {s : State} (h : InSafe s) : InSafe (cfgWrite f off be data s) := by
  have hFn {x : Fn} : InSafe (s.setFn f x) := safe_of_law State.setFn_change h
  have hPm {v one : Nat} : InSafe (pmWrite f v one s) := pmcsrWrite_safe (safe_ite h h)
  unfold cfgWrite
  exact safe_ite (safe_of_law cmdWrite_change h) (safe_ite (safe_of_law barCfg_change h) (safe_ite hPm
    (safe_ite (safe_ite (safe_of_law msiCtl_change h) (safe_ite hFn (safe_ite hFn (safe_ite hFn
      (safe_ite (safe_of_law msiPendGo_change hFn) h)))))
      (safe_ite (safe_of_law msixCtl_change h) (safe_ite (safe_of_law pcieWrite_change h) (safe_of_law extWrite_change h))))))

theorem hostConfig_safe {r : CfgReq} {s : State} (h : InSafe s) : InSafe (hostConfig r s) := by
  unfold hostConfig
  extract_lets s1 off hep s2
  have h1 : InSafe s1 := safe_of_law l1Exit_change h
  have h2 : InSafe s2 := safe_ite h1 h1
  exact safe_ite (safe_of_law hepTlp_change h1) (safe_ite (safe_of_law hepTlp_change h1)
    (safe_ite (safe_of_law hepTlp_change (cfgWrite_safe h2)) (safe_of_law hepTlp_change (safe_of_law cfgReadDone_change h1))))

theorem hostControl_safe {r : HostReq} {s : State} (h : InSafe s) : InSafe (hostControl r s) := by
  unfold hostControl
  refine safe_ite (safe_of_law hostUr_change h) (safe_ite (safe_ite (safe_of_law hostUr_change h) ?_)
    (safe_ite (safe_of_law hostPoisoned_change h) (ctlWriteBy_safe h)))
  extract_lets a
  have hRead : InSafe a.1 := safe_of_law ctlRead_change h
  split
  · exact safe_of_law hostDone_change hRead
  · exact safe_of_law hostUr_change hRead

theorem hostMem_safe {r : HostReq} {s : State} (hs : InSafe s) : InSafe (hostMem r s) := by
  unfold hostMem
  extract_lets t
  have h : InSafe t := safe_of_law l1Exit_change hs
  refine safe_ite (safe_ite (safe_of_law hostUr_change h) (safe_of_law hostUr_change h)) ?_
  cases t.barKind r.fn r.bar with
  | none => exact safe_of_law hostUr_change h
  | some k =>
    refine safe_ite (safe_of_law hostUr_change (safe_ite (h.bump _) h))
      (safe_ite (safe_ite (safe_of_law hostCa_change h) (safe_of_law hostUr_change h)) (safe_ite (safe_of_law hostUr_change h) ?_))
    cases k with
    | control => exact hostControl_safe h
    | page => exact safe_of_law hostPage_change h
    | window b => exact safe_of_law hostWindow_change h

theorem doWindowAccess_safe {r : HostReq} {s : State} (h : InSafe s) : InSafe (doWindowAccess r s) := by
  unfold doWindowAccess
  split
  · exact safe_ite (hostMem_safe h) h
  · exact h

theorem doRegisterWrite_safe {a : Agent} {off : Nat} {v : Word} {width : Nat} {s : State} (h : InSafe s) :
    InSafe (doRegisterWrite a off v width s) := by
  cases a with
  | fn f => exact safe_ite (hostMem_safe h) h
  | _ => exact ctlWriteBy_safe h

/-! ### Accesses of cores -/

theorem coreControl_safe {r : CoreReq} {s : State} (h : InSafe s) : InSafe (coreControl r s) := by
  have hRead : InSafe (ctlRead (.core r.core) (r.addr - 0x200000000) (8 * r.len) s).1 := safe_of_law ctlRead_change h
  unfold coreControl
  refine safe_ite (safe_of_law coreFault_change h) (safe_ite (safe_ite ?_ (safe_of_law coreFault_change h)) (ctlWriteBy_safe h))
  dsimp only
  split
  · exact hRead.emit _
  · exact safe_of_law coreFault_change hRead

theorem coreMem_safe {r : CoreReq} {s : State} (h : InSafe s) : InSafe (coreMem r s) := by
  have hOdd {p : Prop} [Decidable p] {x : State} (hx : InSafe x) :
      InSafe (if p then x else coreFault r.core 9 (faultCause r.kind) r.addr s) := safe_ite hx (safe_of_law coreFault_change h)
  unfold coreMem
  exact safe_ite (safe_of_law tcmAccess_change h) (safe_ite (hOdd (safe_of_law mboxAccess_change h))
    (safe_ite (hOdd (safe_of_law timeCmpAccess_change h)) (safe_ite (safe_of_law gdcMemAccess_change h)
      (safe_ite (hOdd (coreControl_safe h)) (safe_ite (hOdd (safe_of_law coreView_change h)) (safe_of_law coreFault_change h))))))

theorem coreAct_safe {c : Nat} {f : State → State} (hf : ∀ t, InSafe t → InSafe (f t)) {s : State} (h : InSafe s) :
    InSafe (coreAct c f s) :=
  safe_ite h (safe_ite (safe_of_law coreLeave_change (hf s h)) (hf s h))

theorem doCoreMemoryAccess_safe {r : CoreReq} {s : State} (h : InSafe s) : InSafe (doCoreMemoryAccess r s) := by
  unfold doCoreMemoryAccess
  refine safe_ite h (coreAct_safe (fun t ht => ?_) h)
  extract_lets y t1
  have h1 : InSafe t1 := safe_of_law State.setCore_change ht
  exact safe_ite (coreMem_safe h1) (safe_ite (h1.emit _) (safe_ite (safe_of_law csrRead_change h1) (safe_of_law csrWrite_change h1)))

/-! ### Ends of tests and flash operations -/

theorem withBlk_safe {b : Nat} {k : Blk → State → State} (hk : ∀ x t, InSafe t → InSafe (k x t)) {s : State} (h : InSafe s) :
    InSafe (withBlk b k s) := by
  unfold withBlk
  split
  · exact safe_ite (hk _ s h) h
  · exact h

theorem withSource_safe {b id : Nat} {k : Blk → State → State} (hk : ∀ x t, InSafe t → InSafe (k x t)) {s : State} (h : InSafe s) :
    InSafe (withSource b id k s) :=
  withBlk_safe (fun x t ht => safe_ite ht (hk x t ht)) h

theorem doRowTestEnd_safe {pc bank row : Nat} {pass : Bool} {s : State} (h : InSafe s) : InSafe (doRowTestEnd pc bank row pass s) := by
  unfold doRowTestEnd
  split
  · exact h
  next u _ =>
    extract_lets src hbm s1 s2 used hbm3 s3
    have h1 : InSafe s1 := safe_of_law testDone_change h
    have h2 : InSafe s2 := safe_ite (safe_of_law startTest_change h1) h1
    have h3 : InSafe s3 := h2
    exact safe_ite (safe_of_law untrackRow_change h2) (safe_ite (safe_of_law untrackRow_change (safe_of_law faultEvent_change
      (safe_of_law repairLog_change (h3.bump _)))) (hbmRetire_safe (safe_of_law untrackRow_change h2)))

theorem doPcTestEnd_safe {pc : Nat} {pass : Bool} {s : State} (h : InSafe s) : InSafe (doPcTestEnd pc pass s) := by
  unfold doPcTestEnd
  extract_lets hbm s1 s2
  have h1 : InSafe s1 := safe_of_law testDone_change h
  have h2 : InSafe s2 := by
    unfold s2
    split
    · exact h1
    · exact safe_of_law startTest_change h1
  exact safe_ite (safe_ite h2 (hbmRetire_safe h2)) h

theorem doFlashOpDone_safe {failed : Bool} {header : List Byte} {bodies : List (List Byte)} {s : State} (h : InSafe s) :
    InSafe (doFlashOpDone failed header bodies s) := by
  have hEnd : InSafe (flashEnd s) := safe_of_law flashEnd_change h
  have hOther (v : Bool) : InSafe (otherOk v (flashEnd s)) := safe_of_law otherOk_change hEnd
  unfold doFlashOpDone
  refine safe_ite h (safe_ite (safe_of_law imgFail_change hEnd) (safe_ite ?_ (safe_of_law icuEvent_change (hEnd.put _ _))))
  cases s.verifyFails header bodies with
  | some r => exact safe_of_law imgFail_change (hOther false)
  | none => exact safe_of_law icuEvent_change ((hOther true).put _ _)

theorem doRefclkLoss_safe {host : Bool} {s : State} (h : InSafe s) : InSafe (doRefclkLoss host s) :=
  safe_ite h (safe_ite (hostLinkDown_safe (h.put _ _)) (safe_foldl (fun _ _ ht => safe_of_law portClockLoss_change ht) (h.put _ _)))

/-! ### Every command -/

/-- From SAFE the command stays there or resets the main domain: `t` is in SAFE, booting, asleep or off. -/
def StaysOrResets (t : State) : Prop := t.dev.mode ∈ [Mode.safe, .boot, .tether, .off]

theorem StaysOrResets.of_mode {t : State} {m : Mode} (h : t.dev.mode = m) (hm : m ∈ [Mode.safe, .boot, .tether, .off] := by decide) :
    StaysOrResets t := by rwa [StaysOrResets, h]

theorem InSafe.stays {t : State} (h : InSafe t) : StaysOrResets t := .of_mode h

theorem staysOrResets_ite {p : Prop} [Decidable p] {x y : State} (hx : StaysOrResets x) (hy : StaysOrResets y) :
    StaysOrResets (if p then x else y) := by
  split
  · exact hx
  · exact hy

theorem doTtPgoodMainAssert_stays {s : State} (h : InSafe s) : StaysOrResets (doTtPgoodMainAssert s) := by
  unfold doTtPgoodMainAssert
  refine staysOrResets_ite h.stays ?_
  cases hPin : s.pins.perstN with
  | true => exact .of_mode (m := .boot) (if_pos hPin)
  | false => exact .of_mode (m := .safe) ((if_neg (by simp [hPin])).trans h)

theorem doPerstNAssert_stays {s : State} (h : InSafe s) : StaysOrResets (doPerstNAssert s) := by
  unfold doPerstNAssert
  refine staysOrResets_ite h.stays (staysOrResets_ite ?_ (staysOrResets_ite h.stays
    (staysOrResets_ite (.of_mode (m := .boot) rfl) h.stays)))
  exact .of_mode (m := .tether) (by simp [enterTether])

theorem doPerstNDeassert_stays {strap pairId : Nat} {s : State} (h : InSafe s) : StaysOrResets (doPerstNDeassert strap pairId s) := by
  have hWake {x : State} (hx : InSafe x) : InSafe (doWakeCause .perst x) := safe_of_law doWakeCause_change hx
  unfold doPerstNDeassert
  extract_lets pins s1
  have h1 : InSafe s1 := h
  exact staysOrResets_ite h.stays (staysOrResets_ite h1.stays (staysOrResets_ite (hWake h1).stays
    (staysOrResets_ite (.of_mode (m := .boot) rfl) h1.stays)))

theorem doRootPllLock_stays {s : State} (h : InSafe s) : StaysOrResets (doRootPllLock s) := by
  unfold doRootPllLock
  refine staysOrResets_ite (staysOrResets_ite h.stays h.stays) (staysOrResets_ite h.stays ?_)
  extract_lets dev s1 s2 s3
  have h3 : s3.dev.mode = .boot := bootBegin_mode rfl
  exact staysOrResets_ite (.of_mode (m := .boot) (by rw [faultEvent_dev]; exact h3)) (.of_mode h3)

theorem doRestart_stays {src : Nat} {s : State} (h : InSafe s) : StaysOrResets (doRestart src s) :=
  staysOrResets_ite (h.emit _).stays (.of_mode (bootBegin_mode rfl))

theorem StaysOrResets.of_next {t u : State} (hu : StaysOrResets u)
    (h : (Host.Outcome.next u : Host.Outcome State Fault Refusal) = .next t) : StaysOrResets t :=
  Host.Outcome.next.inj h ▸ hu

theorem InSafe.of_next {t u : State} (hu : InSafe u) (h : (Host.Outcome.next u : Host.Outcome State Fault Refusal) = .next t) :
    StaysOrResets t := .of_next hu.stays h

/-- The commands that write the device's mode: writes of control space and memory requests, tests, checks and the quiesce causes
stay in SAFE; BOOT's own commands do nothing there; resets and power events lead into BOOT, TETHER or OFF. -/
theorem exec_stays_of_dev {c : Instr} {s t : State} (h : exec c s = .next t) (hs : InSafe s) (hDev : .dev ∈ touches c) :
    StaysOrResets t := by
  have hBoot : s.dev.mode ≠ .boot := fun hb => by rw [show s.dev.mode = .safe from hs] at hb; cases hb
  cases c with
  | pwrEnable | erase | program | verify | devEnable | devQuiesce | sleep | forceSafe | hostLinkRetrain | hepEnable | wxlEnable
  | tcInv | writeBack | writeBackInvalidate | sediscardClear | pfCfgWrite | qenEnable | splEnable | splStepWrite | calFreeze
  | calRestart | tailEn | swcEnable | icuEnable | icuSwi | loadBegin | loadData | loadEnd | loadCancel | gdcEnable | hbmEnable
  | prlEnable | pairEn | handover | handback =>
    exact InSafe.of_next (ctlWriteBy_safe hs) h
  | inboundWindowEnable | outboundWindowEnable | envelopeRangeEnable | queueRead | queueWrite | queueEnable | queueModify
  | queueStop | queueStart | queueDrain | queueDisable | queuePrefetch | envelopeDefine | envelopeUndefine | envCfgWrite
  | envQblkWrite | tailSelWrite | retrain | resize | restore | portEnable | holdDisable | pwrOnWrite | portRearm | cfgCmd
  | sidebandOut | sourceEnable | sourceMask | complete | coreEnable | coreQuiesce =>
    exact InSafe.of_next (safe_ite (ctlWriteBy_safe hs) hs) h
  | acknowledge | acknowledgeAll | latchRearm | selftestGo | graceWrite =>
    exact InSafe.of_next (pageWriteBy_safe hs) h
  | sourceConfigWrite => exact InSafe.of_next (safe_ite (pageWriteBy_safe hs) hs) h
  | ctlWrite => exact InSafe.of_next (safe_ite (hs.emit _) (ctlWriteBy_safe hs)) h
  | hostMemoryRequest | doorbell | hostClaim | hostComplete => exact InSafe.of_next (safe_ite (hostMem_safe hs) hs) h
  | windowAccess => exact InSafe.of_next (doWindowAccess_safe hs) h
  | registerWrite => exact InSafe.of_next (doRegisterWrite_safe hs) h
  | coreMemoryAccess => exact InSafe.of_next (doCoreMemoryAccess_safe hs) h
  | configRequest => exact InSafe.of_next (safe_ite (hostConfig_safe hs) hs) h
  | flrEnd => exact InSafe.of_next (flrEnd_safe hs) h
  | powerStateWrite => exact InSafe.of_next (safe_ite (pmcsrWrite_safe hs) hs) h
  | dlDown => exact InSafe.of_next (hostLinkDown_safe hs) h
  | refclkLoss => exact InSafe.of_next (doRefclkLoss_safe hs) h
  | rowTestEnd => exact InSafe.of_next (doRowTestEnd_safe hs) h
  | pcTestEnd => exact InSafe.of_next (doPcTestEnd_safe hs) h
  | consistencyCheckEnd => exact InSafe.of_next (safe_ite (checkEnd_safe hs) hs) h
  | laneTestEnd => exact InSafe.of_next (safe_ite (laneTested_safe hs) hs) h
  | faultGraceExpiry => exact InSafe.of_next (withSource_safe (fun _ _ ht => graceEnd_safe ht) hs) h
  | selfTestEnd => exact InSafe.of_next (withSource_safe (fun _ _ ht => selfTested_safe ht) hs) h
  | handoverGive => exact InSafe.of_next (safe_ite (giveEnd_safe hs) hs) h
  | syncComplete => exact InSafe.of_next (safe_ite (syncAgreed_safe hs) hs) h
  | flashReadDone => exact InSafe.of_next (hs.of_dev (congrArg State.dev (doFlashReadDone_of_not_boot hBoot))) h
  | enterConfig => exact InSafe.of_next (hs.of_dev (congrArg State.dev (doEnterConfig_of_not_boot hBoot))) h
  | hbmFillEnd => exact InSafe.of_next (hs.of_dev (congrArg State.dev (doHbmFillEnd_of_not_boot hBoot))) h
  | tetherResetRelease => exact InSafe.of_next (u := doTetherResetRelease s) (by simpa [doTetherResetRelease, show s.dev.mode = .safe from hs] using hs) h
  | flashOpDone => exact InSafe.of_next (doFlashOpDone_safe hs) h
  | vddTtLoss => exact .of_next (.of_mode (m := .off) rfl) h
  | mainPowerLoss => exact .of_next (staysOrResets_ite hs.stays (.of_mode (m := .tether) rfl)) h
  | mainPowerDownDone => exact .of_next (staysOrResets_ite hs.stays (.of_mode (m := .tether) rfl)) h
  | ttPgoodMainAssert => exact .of_next (doTtPgoodMainAssert_stays hs) h
  | perstNAssert => exact .of_next (doPerstNAssert_stays hs) h
  | perstNDeassert => exact .of_next (doPerstNDeassert_stays hs) h
  | rootPllLock => exact .of_next (doRootPllLock_stays hs) h
  | restart => exact .of_next (doRestart_stays hs) h
  | _ => simp [touches] at hDev

/-- Settles O9: a command that leaves the device's mode alone stays in SAFE, and the others are judged one by one. -/
theorem safeLeavesOnlyByReset : Obligations.SafeLeavesOnlyByReset := by
  intro c s t h hs
  by_cases hDev : .dev ∈ touches c
  · exact exec_stays_of_dev h hs hDev
  · exact InSafe.stays (InSafe.of_dev hs ((exec_change c h).keep .dev hDev))

end Sys2Proof.Machine
end

section
/-! PROOFS. Numbers in bytes (R3) and the bytes of HBM. -/
namespace Sys2Proof.Machine

open Sys2Proof

set_option Elab.async false

/-- Byte `j` of a number laid out in bytes (R3). -/
theorem toBytes_getElem? (k n : Nat) {j : Nat} (h : j < k) : (toBytes k n)[j]? = some (BitVec.ofNat 8 (n / 256 ^ j)) := by
  induction k generalizing n j with
  | zero => omega
  | succ k ih =>
    cases j with
    | zero => simp [toBytes]
    | succ j =>
      rw [toBytes, List.getElem?_cons_succ, ih _ (by omega), Nat.div_div_eq_div_mul, Nat.pow_succ, Nat.mul_comm]

/-- Settles O12: the bytes written read back inside their range, the others outside it; the layout is little-endian. -/
theorem hbmBytes : Obligations.HbmBytes := by
  refine ⟨fun s o l a => ?_, ofBytes_toBytes, fun k n j h => toBytes_getElem? k n h⟩
  split
  next h =>
    obtain ⟨hLow, hHigh⟩ := h
    have hIn : a - o < l.length := by omega
    have hRead := State.hbmByte_hbmWrite_inside s o l hIn
    rw [Nat.add_sub_cancel' hLow] at hRead
    rw [hRead, List.getD_eq_getElem _ _ hIn]
  next h => exact State.hbmByte_hbmWrite_outside s o l (by omega)

end Sys2Proof.Machine
end

section
/-! PROOFS. What the bytes on a GLL link say (spec/11, spec/12): flits, packet headers and training sets are read back from the
bytes that form them. -/
namespace Sys2Proof.Machine

open Sys2Proof

set_option Elab.async false

/-! ### Numbers inside a byte string -/

/-- A number laid out at the end of `a` is read back from that offset. -/
theorem bytesAt_append_toBytes (a r : List Byte) {off : Nat} (k n : Nat) (h : a.length = off) :
    bytesAt (a ++ (toBytes k n ++ r)) off k = n % 256 ^ k := by
  rw [bytesAt, ← h, List.drop_left, List.take_left' (toBytes_length k n), ofBytes_toBytes]

/-- A byte laid out at the end of `a` is read back from that place. -/
theorem byteAt_append_toBytes (a r : List Byte) {off : Nat} (n : Nat) (h : a.length = off) :
    byteAt (a ++ (toBytes 1 n ++ r)) off = n % 256 := by
  subst h
  simp [byteAt, toBytes]

/-! ### Flits (Tables 12.1 to 12.3) -/

/-- A register that each step keeps below a bound stays below it. -/
theorem foldl_lt {α : Type} {f : Nat → α → Nat} {n : Nat} (hf : ∀ r x, r < n → f r x < n) (l : List α) {r : Nat} (hr : r < n) :
    l.foldl f r < n := by
  induction l generalizing r with
  | nil => exact hr
  | cons x l ih => exact ih (hf r x hr)

/-- A byte keeps the register of a flit's CRC within 64 bits, as its polynomial is. -/
theorem crcByte_flit_lt {r : Nat} (b : Byte) (hr : r < 2 ^ 64) : crcByte (crcPoly 1) r b < 2 ^ 64 := by
  refine foldl_lt (fun r _ h => ?_) _ (Nat.xor_lt_two_pow hr (by have := b.isLt; omega))
  have hHalf : r / 2 < 2 ^ 64 := by omega
  split
  · exact Nat.xor_lt_two_pow hHalf (by decide)
  · exact hHalf

/-- The CRC of a flit fits its eight bytes (R271). -/
theorem crcOf_flit_lt (l : List Byte) : crcOf 1 l < 256 ^ 8 :=
  Nat.xor_lt_two_pow (n := 64) (foldl_lt (fun _ b h => crcByte_flit_lt b h) l (by decide)) (by decide)

/-- The parts of a flit's bytes lie at the offsets of Table 12.1. -/
theorem flitBytes_parts (h c par : Nat) {slots : List Byte} (hSlots : slots.length = 224) :
    bytesAt (flitBytes h c par slots) 0 8 = h % 256 ^ 8 ∧ bytesAt (flitBytes h c par slots) 232 8 = c % 256 ^ 8
      ∧ bytesAt (flitBytes h c par slots) 248 8 = crcOf 1 ((flitBytes h c par slots).take 248) := by
  have hAll : (toBytes 8 h ++ slots ++ toBytes 8 c ++ toBytes 8 par).length = 248 := by simp [toBytes_length, hSlots]
  refine ⟨?_, ?_, ?_⟩
  · have hForm : flitBytes h c par slots
        = [] ++ (toBytes 8 h ++ (slots ++ toBytes 8 c ++ toBytes 8 par ++ toBytes 8 (crcOf 1 (toBytes 8 h ++ slots ++ toBytes 8 c ++ toBytes 8 par)))) := by
      simp [flitBytes]
    rw [hForm]
    exact bytesAt_append_toBytes _ _ 8 h rfl
  · have hForm : flitBytes h c par slots
        = (toBytes 8 h ++ slots) ++ (toBytes 8 c ++ (toBytes 8 par ++ toBytes 8 (crcOf 1 (toBytes 8 h ++ slots ++ toBytes 8 c ++ toBytes 8 par)))) := by
      simp [flitBytes]
    rw [hForm]
    exact bytesAt_append_toBytes _ _ 8 c (by simp [toBytes_length, hSlots])
  · have hTake : (flitBytes h c par slots).take 248 = toBytes 8 h ++ slots ++ toBytes 8 c ++ toBytes 8 par :=
      List.take_left' hAll
    have hLast := bytesAt_append_toBytes _ [] 8 (crcOf 1 (toBytes 8 h ++ slots ++ toBytes 8 c ++ toBytes 8 par)) hAll
    rw [List.append_nil, Nat.mod_eq_of_lt (crcOf_flit_lt _)] at hLast
    rw [hTake]
    exact hLast

/-- A bit of a number that its low bytes hold. -/
theorem bitOf_mod {n i k : Nat} (h : i < 8 * k) : bitOf (n % 256 ^ k) i = bitOf n i := by
  rw [show (256 : Nat) ^ k = 2 ^ (8 * k) by rw [Nat.pow_mul], bitOf, Nat.testBit_mod_two_pow, decide_eq_true h, Bool.true_and, bitOf]

/-- A flit passes its CRC and reads back its header and link-control fields. -/
theorem flitRead_flitBytes (p vcs w h c par : Nat) (part : List Byte) {slots : List Byte} {f : FlitIn} (hSlots : slots.length = 224)
    (hf : f = flitRead p vcs w part (flitBytes h c par slots)) :
    f.crcOk = true ∧ f.seq = h % 4096 ∧ f.ack = h / 4096 % 4096 ∧ f.typ = h / 2 ^ 24 % 16 ∧ f.ackV = bitOf h 28 ∧ f.nak = bitOf h 29
      ∧ f.hold = bitOf h 30 ∧ f.xoff = c % 256 ∧ f.req = c / 2 ^ 8 % 4 ∧ f.probe = c / 2 ^ 24 % 65536 ∧ f.echo = c / 2 ^ 40 % 65536 := by
  obtain ⟨hHead, hLcw, hCrc⟩ := flitBytes_parts h c par hSlots
  subst hf
  simp only [flitRead, hHead, hLcw, hCrc, bitsOf, beq_self_eq_true, true_and]
  refine ⟨?_, ?_, ?_, bitOf_mod (by decide), bitOf_mod (by decide), bitOf_mod (by decide), ?_, ?_, ?_, ?_⟩ <;> omega

/-! ### Packet headers (Table 12.4) -/

/-- The fields of a packet's header lie at the offsets of Table 12.4. -/
theorem packetHeader_parts (k : Pkt) :
    byteAt (packetHeader k) 0 = k.op % 256 ∧ byteAt (packetHeader k) 1 = (k.vc + k.flags * 8) % 256
      ∧ bytesAt (packetHeader k) 2 2 = (k.len + k.status * 512) % 256 ^ 2 ∧ bytesAt (packetHeader k) 4 2 = k.tag % 256 ^ 2
      ∧ bytesAt (packetHeader k) 6 2 = k.env % 256 ^ 2 ∧ bytesAt (packetHeader k) 8 8 = k.addr % 256 ^ 8 := by
  unfold packetHeader
  simp only [List.append_assoc]
  refine ⟨byteAt_append_toBytes [] _ _ rfl, byteAt_append_toBytes (toBytes 1 k.op) _ _ rfl, ?_, ?_, ?_, ?_⟩
  · exact bytesAt_append_toBytes (toBytes 1 k.op ++ toBytes 1 (k.vc + k.flags * 8)) _ 2 _ rfl
  · exact bytesAt_append_toBytes (toBytes 1 k.op ++ toBytes 1 (k.vc + k.flags * 8) ++ toBytes 2 (k.len + k.status * 512)) _ 2 _ rfl
  · exact bytesAt_append_toBytes
      (toBytes 1 k.op ++ toBytes 1 (k.vc + k.flags * 8) ++ toBytes 2 (k.len + k.status * 512) ++ toBytes 2 k.tag) _ 2 _ rfl
  · rw [← List.append_nil (toBytes 8 k.addr)]
    exact bytesAt_append_toBytes
      (toBytes 1 k.op ++ toBytes 1 (k.vc + k.flags * 8) ++ toBytes 2 (k.len + k.status * 512) ++ toBytes 2 k.tag ++ toBytes 2 k.env) _ 8 _ rfl

/-! ### Training sets (Tables 11.1 and 11.2) -/

/-- A byte keeps the register of a training set's CRC within 16 bits. -/
theorem gtsCrcByte_lt {r : Nat} (b : Byte) (hr : r < 2 ^ 16) : gtsCrcByte r b < 2 ^ 16 := by
  refine foldl_lt (fun r _ h => ?_) _ (Nat.xor_lt_two_pow hr (by have := b.isLt; omega))
  split
  · exact Nat.xor_lt_two_pow (Nat.mod_lt _ (by decide)) (by decide)
  · omega

/-- The CRC of a training set fits its two symbols. -/
theorem gtsCrc_lt (l : List Byte) : gtsCrc l < 256 ^ 2 :=
  foldl_lt (n := 2 ^ 16) (fun _ b h => gtsCrcByte_lt b h) l (by decide)

/-- Symbols 0 to 13 of a GTS2 of lane `lane` (Table 11.2). -/
def gtsBody2 (g : Gts) (lane : Nat) : List Byte :=
  toBytes 1 0xB7 ++ toBytes 1 (2 + b2n g.eq * 8 + b2n g.test * 16) ++ toBytes 1 lane ++ toBytes 1 g.width
    ++ toBytes 1 (g.txp + g.reqp * 16) ++ toBytes 1 (g.testLane + g.index * 16)
    ++ (toBytes 2 g.linkId ++ toBytes 4 g.epoch ++ toBytes 1 g.vcs ++ toBytes 1 g.roles)

/-- A GTS2 is its symbols 0 to 13 and their CRC. -/
theorem gtsBytes_kind2 {g : Gts} (h : g.kind = 2) (lane : Nat) :
    gtsBytes g lane = gtsBody2 g lane ++ toBytes 2 (gtsCrc (gtsBody2 g lane)) := by
  simp [gtsBytes, gtsBody2, h]

theorem gtsBody2_length (g : Gts) (lane : Nat) : (gtsBody2 g lane).length = 14 := by
  simp [gtsBody2, toBytes_length]

/-- What symbols 0 to 13 of a GTS2 spell. -/
theorem gtsBytes_symbols {g : Gts} (h : g.kind = 2) (lane : Nat) :
    byteAt (gtsBytes g lane) 0 = 0xB7 ∧ byteAt (gtsBytes g lane) 1 = (2 + b2n g.eq * 8 + b2n g.test * 16) % 256
      ∧ byteAt (gtsBytes g lane) 2 = lane % 256 ∧ byteAt (gtsBytes g lane) 3 = g.width % 256
      ∧ byteAt (gtsBytes g lane) 4 = (g.txp + g.reqp * 16) % 256 ∧ byteAt (gtsBytes g lane) 5 = (g.testLane + g.index * 16) % 256
      ∧ byteAt (gtsBytes g lane) 12 = g.vcs % 256 ∧ byteAt (gtsBytes g lane) 13 = g.roles % 256 := by
  rw [gtsBytes_kind2 h]
  simp [byteAt, gtsBody2, toBytes]

/-- The link identifier and the epoch of a GTS2. -/
theorem gtsBytes_numbers {g : Gts} (h : g.kind = 2) (lane : Nat) :
    bytesAt (gtsBytes g lane) 6 2 = g.linkId % 256 ^ 2 ∧ bytesAt (gtsBytes g lane) 8 4 = g.epoch % 256 ^ 4 := by
  rw [gtsBytes_kind2 h]
  constructor
  · rw [← ofBytes_toBytes]
    simp [bytesAt, gtsBody2, toBytes]
  · rw [← ofBytes_toBytes]
    simp [bytesAt, gtsBody2, toBytes]

/-- The CRC that a GTS2 carries is that of its symbols 0 to 13. -/
theorem gtsBytes_crc {g : Gts} (h : g.kind = 2) (lane : Nat) :
    bytesAt (gtsBytes g lane) 14 2 = gtsCrc ((gtsBytes g lane).take 14) := by
  have hLast := bytesAt_append_toBytes _ [] 2 (gtsCrc (gtsBody2 g lane)) (gtsBody2_length g lane)
  rw [List.append_nil, Nat.mod_eq_of_lt (gtsCrc_lt _)] at hLast
  rw [gtsBytes_kind2 h, List.take_left' (gtsBody2_length g lane), hLast]

/-- GTS2 sets of one group differ in LANE and the CRC alone. -/
theorem gtsSame_gtsBytes {g : Gts} (h : g.kind = 2) (i j : Nat) : gtsSame (gtsBytes g i) (gtsBytes g j) = true := by
  simp [gtsSame, gtsBytes_kind2 h, gtsBody2, toBytes]

section

variable {g : Gts} (hKind : g.kind = 2) (hWidth : g.width ≤ 4) (hTxp : g.txp ≤ 10) (hReqp : g.reqp ≤ 10 ∨ g.reqp = 15)
  (hTest : g.testLane < 16) (hIndex : g.index = 0) (hVcs : 1 ≤ g.vcs) (hVcs7 : g.vcs ≤ 7) (hRoles : g.roles < 2 ^ (g.vcs + 1))
include hKind hWidth hTxp hReqp hTest hIndex hVcs hVcs7 hRoles

/-- A GTS2 with legal fields is not discarded (R246). -/
theorem gtsOk_gtsBytes {lane : Nat} (hLane : lane < 16) : gtsOk (gtsBytes g lane) = true := by
  obtain ⟨h0, h1, h2, h3, h4, h5, h12, h13⟩ := gtsBytes_symbols hKind lane
  have hLength : (gtsBytes g lane).length = 16 := by
    rw [gtsBytes_kind2 hKind, List.length_append, gtsBody2_length, toBytes_length]
  have hRoles8 : 2 ^ (g.vcs + 1) ≤ 256 := Nat.pow_le_pow_right (by decide) (show g.vcs + 1 ≤ 8 by omega)
  have hEq : b2n g.eq ≤ 1 := by cases g.eq <;> decide
  have hTst : b2n g.test ≤ 1 := by cases g.test <;> decide
  have hKindRead : bitsOf (byteAt (gtsBytes g lane) 1) 0 3 = 2 := by rw [h1, bitsOf]; omega
  have hIndexRead : bitsOf (byteAt (gtsBytes g lane) 5) 4 4 = 0 := by rw [h5, bitsOf, hIndex]; omega
  have hReqRead : bitsOf (byteAt (gtsBytes g lane) 4) 4 4 = g.reqp := by rw [h4, bitsOf]; omega
  have hTxpRead : bitsOf (byteAt (gtsBytes g lane) 4) 0 4 = g.txp := by rw [h4, bitsOf]; omega
  have hVcsRead : g.vcs % 256 = g.vcs := by omega
  have hRolesRead : g.roles % 256 = g.roles := by omega
  have hMark : byteAt (gtsBytes g lane) 1 < 32 := by rw [h1]; omega
  simp [gtsOk, gtsPayloadOk, hLength, h0, gtsBytes_crc hKind, hKindRead, hIndexRead, hReqRead, hTxpRead, h2, h3, h12, h13, hVcsRead,
    hRolesRead, hMark, hTxp, hReqp, hVcs, hVcs7, hRoles]
  omega

end

/-- The LANE symbols of a group's sets are its lanes in order. -/
theorem lanes_gtsBytes {g : Gts} (h : g.kind = 2) {n : Nat} (hn : n ≤ 16) :
    ((List.range n).map (gtsBytes g)).map (fun x => byteAt x 2) = List.range n := by
  rw [List.map_map]
  refine (List.map_congr_left fun i hi => ?_).trans (List.map_id _)
  have hi : i < n := List.mem_range.1 hi
  obtain ⟨-, -, hLane, -⟩ := gtsBytes_symbols h i
  exact hLane.trans (Nat.mod_eq_of_lt (by omega))

/-- Each bit and field of the symbols of a GTS2 is that of the set (Tables 11.1 and 11.2). -/
theorem gts_fields {g : Gts} (hWidth : g.width ≤ 4) (hTxp : g.txp ≤ 10) (hReqp : g.reqp ≤ 10 ∨ g.reqp = 15)
    (hTest : g.testLane < 16) (hIndex : g.index = 0) (hVcs7 : g.vcs ≤ 7) (hRoles : g.roles < 2 ^ (g.vcs + 1)) :
    bitOf ((2 + b2n g.eq * 8 + b2n g.test * 16) % 256) 3 = g.eq ∧ bitOf ((2 + b2n g.eq * 8 + b2n g.test * 16) % 256) 4 = g.test
      ∧ bitsOf ((2 + b2n g.eq * 8 + b2n g.test * 16) % 256) 0 3 = 2 ∧ g.width % 256 = g.width
      ∧ bitsOf ((g.txp + g.reqp * 16) % 256) 0 4 = g.txp ∧ bitsOf ((g.txp + g.reqp * 16) % 256) 4 4 = g.reqp
      ∧ bitsOf ((g.testLane + g.index * 16) % 256) 0 4 = g.testLane ∧ bitsOf ((g.testLane + g.index * 16) % 256) 4 4 = 0
      ∧ bitsOf (g.vcs % 256) 0 3 = g.vcs ∧ g.roles % 256 = g.roles := by
  have hRoles8 : 2 ^ (g.vcs + 1) ≤ 256 := Nat.pow_le_pow_right (by decide) (show g.vcs + 1 ≤ 8 by omega)
  simp only [bitsOf, hIndex]
  refine ⟨by cases g.eq <;> cases g.test <;> rfl, by cases g.eq <;> cases g.test <;> rfl,
    by cases g.eq <;> cases g.test <;> rfl, ?_⟩
  omega

/-- A block of GTS2 sets formed for the lanes of a group is read back whole. -/
theorem gtsRead_gtsBytes {g : Gts} {n : Nat} (hn1 : 1 ≤ n) (hn : n ≤ 16) (hKind : g.kind = 2) (hLane : g.lane = 0) (hWidth : g.width ≤ 4)
    (hTxp : g.txp ≤ 10) (hReqp : g.reqp ≤ 10 ∨ g.reqp = 15) (hTest : g.testLane < 16) (hIndex : g.index = 0)
    (hLink : g.linkId < 65536) (hEpoch : g.epoch < 2 ^ 32) (hVcs : 1 ≤ g.vcs) (hVcs7 : g.vcs ≤ 7) (hRoles : g.roles < 2 ^ (g.vcs + 1))
    (hRxbuf : g.rxbuf = 0) (hProbe : g.probe = 0) (hEcho : g.echo = 0) (hOk : g.ok = true) :
    gtsRead ((List.range n).map (gtsBytes g)) = g := by
  have hLength : ((List.range n).map (gtsBytes g)).length = n := by simp
  have hHead : ((List.range n).map (gtsBytes g)).headD [] = gtsBytes g 0 := by
    obtain ⟨m, rfl⟩ : ∃ m, n = m + 1 := ⟨n - 1, by omega⟩
    simp [List.range_succ_eq_map]
  have hSome : ((List.range n).map (gtsBytes g)).isEmpty = false := by
    rw [List.isEmpty_eq_false_iff, ← List.length_pos_iff_ne_nil, hLength]
    exact hn1
  have hAllOk : ((List.range n).map (gtsBytes g)).all gtsOk = true := by
    simp only [List.all_map, List.all_eq_true, Function.comp_apply, List.mem_range]
    exact fun i hi => gtsOk_gtsBytes hKind hWidth hTxp hReqp hTest hIndex hVcs hVcs7 hRoles (by omega)
  have hAllSame : ((List.range n).map (gtsBytes g)).all (gtsSame (gtsBytes g 0)) = true := by
    simp only [List.all_map, List.all_eq_true, Function.comp_apply]
    exact fun i _ => gtsSame_gtsBytes hKind 0 i
  obtain ⟨-, h1, -, h3, h4, h5, h12, h13⟩ := gtsBytes_symbols hKind 0
  obtain ⟨h6, h8⟩ := gtsBytes_numbers hKind 0
  obtain ⟨hEq, hTst, hKindRead, hWidthRead, hTxpRead, hReqRead, hLaneRead, hIndexRead, hVcsRead, hRolesRead⟩ :=
    gts_fields hWidth hTxp hReqp hTest hIndex hVcs7 hRoles
  have hLinkRead : g.linkId % 256 ^ 2 = g.linkId := Nat.mod_eq_of_lt hLink
  have hEpochRead : g.epoch % 256 ^ 4 = g.epoch := Nat.mod_eq_of_lt hEpoch
  unfold gtsRead
  simp only [hHead, hLength, lanes_gtsBytes hKind hn, hSome, hAllOk, hAllSame, h1, h3, h4, h5, h6, h8, h12, h13, hEq, hTst, hKindRead,
    hWidthRead, hTxpRead, hReqRead, hLaneRead, hIndexRead, hVcsRead, hRolesRead, hLinkRead, hEpochRead]
  cases g
  simp_all

/-- Settles O20: flits, packet headers and GTS2 blocks are read back from the bytes that form them. -/
theorem wireFormat : Obligations.WireFormat := by
  refine ⟨fun p vcs w h c par part slots f => flitRead_flitBytes p vcs w h c par part, ?_, ?_⟩
  · rintro k j payload hOp hVc hFlags hLen hStatus hTag hEnv hAddr rfl
    obtain ⟨h0, h1, h2, h4, h6, h8⟩ := packetHeader_parts k
    simp only [pktRead, h0, h1, h2, h4, h6, h8, bitsOf]
    omega
  · intro g n hn1 hn hKind hLane hWidth hTxp hReqp hTest hIndex hLink hEpoch hVcs hVcs7 hRoles hRxbuf hProbe hEcho hOk
    exact gtsRead_gtsBytes hn1 hn hKind hLane hWidth hTxp hReqp hTest hIndex hLink hEpoch hVcs hVcs7 hRoles hRxbuf hProbe hEcho hOk

end Sys2Proof.Machine
end

section
/-! PROOFS. The HBM of spec/15: the bytes that HBM_ACCESS stores, and what each of the commands of HBM does. -/
namespace Sys2Proof.Machine

open Sys2Proof

set_option Elab.async false

/-! ### Bytes of HBM that an operation leaves -/

/-- A command answers the next state that its operation gives. -/
theorem next_congr {u t : State} (h : u = t) : (Host.Outcome.next u : Host.Outcome State Fault Refusal) = .next t :=
  congrArg _ h

/-- An operation whose law of change leaves out the memory leaves every byte of HBM. -/
theorem mem_of_law {T : List Part} {s u : State} (law : ∀ {U : List Part} {r0 : State}, T ⊆ U → Change U r0 s → Change U r0 u)
    (hMem : Part.mem ∉ T := by decide) : u.mem = s.mem :=
  (law (List.Subset.refl _) (.refl _ s)).keep .mem hMem

theorem State.hbmByte_congr {s t : State} (h : t.mem = s.mem) (a : Nat) : t.hbmByte a = s.hbmByte a := by
  rw [State.hbmByte, h, State.hbmByte]

/-- A read of a range stores nothing. -/
theorem hbmServeRead_mem (o len : Nat) (e : Ecc) (s : State) : (hbmServeRead o len e s).1.mem = s.mem :=
  mem_of_law hbmServeRead_change

/-- What a write does before it stores: the decoder's finding at a word in part, and the poison of whole words. -/
def beforeStore (o len : Nat) (e : Ecc) (s : State) : State :=
  let ws := wordsOf o len
  let s1 := match ws.filter fun w => !wholeWord o len w with
    | [] => s
    | w :: _ => eccFound w e s
  (ws.filter fun w => wholeWord o len w).foldl (fun t w => setPoison w false t) s1

/-- A write to a pseudo-channel that is not retired stores its bytes (R368). -/
theorem hbmServeWrite_of_live {o : Nat} {data : List Byte} {e : Ecc} {s : State} (h : s.hbm.out.contains (s.pcAt o) = false) :
    hbmServeWrite o data e s = (beforeStore o data.length e s).hbmWrite o data :=
  if_neg (by rw [h]; exact Bool.false_ne_true)

theorem foldl_mem {α : Type} {f : State → α → State} (hf : ∀ t x, (f t x).mem = t.mem) (l : List α) (s : State) :
    (l.foldl f s).mem = s.mem := by
  induction l generalizing s with
  | nil => rfl
  | cons x l ih => exact (ih (f s x)).trans (hf s x)

theorem beforeStore_mem (o len : Nat) (e : Ecc) (s : State) : (beforeStore o len e s).mem = s.mem := by
  unfold beforeStore
  extract_lets ws s1
  have h1 : s1.mem = s.mem := by
    unfold s1
    split
    · rfl
    · exact mem_of_law eccFound_change
  exact (foldl_mem (f := fun t w => setPoison w false t) (fun _ _ => rfl) _ s1).trans h1

/-- A write leaves every byte outside its range. -/
theorem hbmServeWrite_outside {o a : Nat} {data : List Byte} {e : Ecc} {s : State} (h : a < o ∨ o + data.length ≤ a) :
    (hbmServeWrite o data e s).hbmByte a = s.hbmByte a := by
  cases hOut : s.hbm.out.contains (s.pcAt o) with
  | true => simp only [hbmServeWrite, hOut, if_true]; rfl
  | false =>
    rw [hbmServeWrite_of_live hOut, State.hbmByte_hbmWrite_outside _ _ _ h]
    exact State.hbmByte_congr (beforeStore_mem ..) a

/-- A write to a pseudo-channel that is not retired is read back. -/
theorem hbmServeWrite_inside {o k : Nat} {data : List Byte} {e : Ecc} {s : State} (h : s.hbm.out.contains (s.pcAt o) = false)
    (hk : k < data.length) : (hbmServeWrite o data e s).hbmByte (o + k) = data.getD k 0 := by
  rw [hbmServeWrite_of_live h, State.hbmByte_hbmWrite_inside _ _ _ hk, List.getD_eq_getElem _ _ hk]

/-- The bytes that serving a waiting frame stores: those of a write or a Tail batch, 8 for an ATOM, none for a read. -/
def Frame.stores (f : Frame) : Nat :=
  if f.typ = .write ∨ f.typ = .tailBatch then f.data.length else if f.typ = .atomic then 8 else 0

/-- Serving a frame leaves every byte outside those it stores. -/
theorem hbmServe_outside {f : Frame} {a : Nat} {e : Ecc} {s : State} (h : a < daOff f.addr ∨ daOff f.addr + f.stores ≤ a) :
    (hbmServe f e s).hbmByte a = s.hbmByte a := by
  have hRead (len : Nat) : (hbmServeRead (daOff f.addr) len e s).1.hbmByte a = s.hbmByte a :=
    State.hbmByte_congr (hbmServeRead_mem ..) a
  unfold hbmServe
  extract_lets o r x old s1
  split
  next hTyp => exact hbmServeWrite_outside (by simpa [Frame.stores, hTyp] using h)
  next hTyp => exact hbmServeWrite_outside (by simpa [Frame.stores, hTyp] using h)
  next hTyp =>
    split
    · exact hRead 8
    · exact (hbmServeWrite_outside (by simpa [Frame.stores, hTyp, toBytes_length] using h)).trans (hRead 8)
  · exact hRead f.len

/-- A frame that waits at an offset carries it in its address. -/
theorem State.hbmPick_off {s : State} {w : Bool} {off : Nat} {f : Frame} (h : s.hbmPick w off = some f) : daOff f.addr = off := by
  have := List.find?_some h
  simp only [Bool.and_eq_true, beq_iff_eq] at this
  exact this.1

/-- Settles O11: a served frame stores its bytes alone, and without one a write its own, a read none. -/
theorem memoryFrame : Obligations.MemoryFrame := by
  intro s t r n h hn a ha
  obtain rfl : doHbmAccess r s = t := Host.Outcome.next.inj (doHbmAccess_of_exec h)
  unfold doHbmAccess
  cases hPick : s.hbmPick r.write r.off with
  | some f =>
    rw [hPick] at hn
    subst hn
    rw [← State.hbmPick_off hPick] at ha
    dsimp only
    split
    · exact (hbmServe_outside ha).trans rfl
    · rfl
  | none =>
    rw [hPick] at hn
    dsimp only at hn ⊢
    split
    · rfl
    · split
      next hWrite => exact hbmServeWrite_outside (by simpa [hn, hWrite] using ha)
      · exact State.hbmByte_congr (hbmServeRead_mem ..) a

end Sys2Proof.Machine
end

section
namespace Sys2Proof.Machine

open Sys2Proof

set_option Elab.async false

/-! ### What each command of HBM does -/

theorem doHbmAccess_of_waiting {r : HbmReq} {s : State} {f : Frame} (hPick : s.hbmPick r.write r.off = some f)
    (hReady : s.hbmReady r.off = true) :
    doHbmAccess r s = hbmServe f r.ecc { s with hbm := { s.hbm with wait := s.hbm.wait.erase f } } := by
  simp only [doHbmAccess, hPick, hReady, if_true]

theorem doHbmAccess_of_none {r : HbmReq} {s : State} (hPick : s.hbmPick r.write r.off = none) (hReady : s.hbmReady r.off = true) :
    doHbmAccess r s = if r.write then hbmServeWrite r.off r.data r.ecc s else (hbmServeRead r.off r.len r.ecc s).1 := by
  simp only [doHbmAccess, hPick, hReady, Bool.not_true, Bool.false_eq_true, if_false]

/-- HBM_ACCESS within the capacity is served (R358). -/
theorem exec_hbmAccess_of_le {r : HbmReq} {s : State} (h : r.off + (if r.write then r.data.length else r.len) ≤ s.hbmCap) :
    exec (.hbmAccess r) s = .next (doHbmAccess r s) := if_neg (Nat.not_lt.2 h)

@[simp] theorem testDone_hbm {b : Blk} {id : Nat} {pass : Bool} {s : State} : (testDone b id pass s).hbm = s.hbm :=
  (testDone_change (List.Subset.refl _) (.refl _ s)).keep .hbm (by decide)

theorem srDone_of_done {s : State} (hExit : s.hbm.exiting = true) (hSr : s.hbm.sr = []) (hRecal : s.hbm.recal = []) :
    srDone s = (({ s with hbm := { s.hbm with exiting := false } } : State).put F.HBM_STS_SR 0).peak F.HBM_PM_STS_EXIT_NS_MAX
      ((s.dev.time - s.hbm.exitStart) * 5 / 6) := by
  simp [srDone, hExit, hSr, hRecal]

@[simp] theorem State.peak_hbm (s : State) (f : Field) (v : Nat) : (s.peak f v).hbm = s.hbm := by
  unfold State.peak
  split
  · rfl
  · rfl

/-- A maximum that is kept in one register leaves the fields of the others. -/
theorem State.rget_peak_other (s : State) {f g : Field} (v : Nat) (h : g.off ≠ f.off) : rget (s.peak f v).regs g = rget s.regs g := by
  unfold State.peak
  split
  · exact rget_rput_other _ _ h
  · rfl

/-- The reading, and the interval's hysteresis between 82 and 85 °C (R367). -/
def tempRead (c : Nat) (s : State) : State :=
  ({ s with hbm := { s.hbm with
      read := true
      hotRefresh := decide (85 < c) || (s.hbm.read && s.hbm.hotRefresh && decide (82 < c))
      calTemp := if s.hbm.read then s.hbm.calTemp else c } } : State).put F.HBM_STS_TEMP c

/-- A reading of 95 °C or above is STACK_HOT besides. -/
theorem doHbmTempReading_of_up {c : Nat} {s : State} (hUp : s.dev.up = true) :
    doHbmTempReading c s = if 95 ≤ c then faultEvent .hbm 5 0 (tempRead c s) else tempRead c s := by
  simp only [doHbmTempReading, hUp, Bool.not_true, Bool.false_eq_true, if_false]
  rfl

theorem tempRead_get (c : Nat) (s : State) : (tempRead c s).get F.HBM_STS_TEMP = c % 256 := State.get_put_same _ _ (by decide)

/-- Settles O31, command by command. -/
theorem hbmResults : Obligations.HbmResults := by
  refine ⟨?_, ?_, ?_, ?_, ?_, ?_, ?_, ?_, ?_, ?_, ?_, ?_, ?_, ?_, ?_, ?_, ?_⟩
  · intro s m hBoot hTraining
    refine ⟨_, rfl, ?_⟩
    simp only [doHbmTrainingEnd, hBoot, hTraining, beq_self_eq_true, Bool.and_self, if_true]
    refine ⟨rfl, ?_, fun hLen => ?_, rfl⟩
    · refine (State.get_put_disjoint (f := F.HBM_STS_SET_N) (g := F.HBM_STS_TRAINED) _ _ rfl (by decide)).trans ?_
      exact State.get_put_same { s with hbm := { s.hbm with training := false } } _ (by decide)
    · exact (State.get_put_same _ _ (by decide)).trans (Nat.mod_eq_of_lt hLen)
  · intro s hBoot hTraining hFilled
    refine next_congr ?_
    simp [doHbmFillEnd, hBoot, hTraining, hFilled]
  · intro s r hWrite hCap hPick hReady hLive
    refine ⟨doHbmAccess r s, exec_hbmAccess_of_le (by simpa [hWrite] using hCap), ?_⟩
    rw [doHbmAccess_of_none (by rw [hWrite, hPick]) hReady, if_pos hWrite]
    exact ⟨fun k hk => hbmServeWrite_inside hLive hk, fun a ha => hbmServeWrite_outside ha⟩
  · intro s r hRead hCap hPick hReady
    refine ⟨doHbmAccess r s, exec_hbmAccess_of_le (by simpa [hRead] using hCap), ?_⟩
    rw [doHbmAccess_of_none (by rw [hRead, hPick]) hReady, if_neg (by simp [hRead])]
    exact hbmServeRead_mem ..
  · intro s r f hPick hReady hCap
    rw [exec_hbmAccess_of_le hCap, doHbmAccess_of_waiting hPick hReady]
  · intro s hTraining hSet hSr
    refine next_congr ?_
    simp [doRefreshInterval, hTraining, hSet, show s.inSr = false from hSr]
  · intro s c hUp hc
    refine ⟨_, rfl, ?_⟩
    rw [doHbmTempReading_of_up hUp, if_neg (Nat.not_le.2 hc)]
    refine ⟨(tempRead_get c s).trans (Nat.mod_eq_of_lt (by omega)), fun h => ?_, fun h => ?_, fun h1 h2 => ?_⟩
    · simp [tempRead, h]
    · simp [tempRead, Nat.not_lt.2 h, show ¬ 85 < c by omega]
    · simp [tempRead, h1, Nat.not_lt.2 h2]
  · intro s c hUp hc
    exact ⟨tempRead c s, next_congr ((doHbmTempReading_of_up hUp).trans (if_pos hc)), tempRead_get c s⟩
  · intro s p b r c hTests
    refine next_congr ?_
    simp [doRowTestEnd, hTests]
  · intro s p hTests
    refine next_congr ?_
    simp [doPcTestEnd, hTests]
  · intro s o hPeriod hSr hFilled hPos hCap
    refine next_congr ?_
    simp [doPatrolScrub, hPeriod, hSr, hFilled, Nat.not_lt.2 hPos, Nat.not_le.2 hCap, -State.get_eq]
  · intro s hCfg hIdle hServing hSr hWait hQueue hRow hPc hSet
    refine ⟨_, rfl, ?_⟩
    simp only [doSelfRefreshEntry, hServing, hSr, hWait, hQueue, hRow, hPc]
    rw [if_pos (by simp [hCfg, hIdle, hSet, -State.get_eq])]
    refine ⟨?_, rfl, rfl, ?_⟩
    · rw [State.inSr, State.is, State.get, State.reg_bump_other _ (by decide), ← State.get, State.get_put_same _ _ (by decide)]
      rfl
    · rw [State.get_bump _ (by decide), State.get_put_other _ _ (by decide)]
      rfl
  · intro s hSr hExit hWait hDue
    refine ⟨_, rfl, ?_⟩
    simp only [doSelfRefreshExit, hSr, hExit, hDue]
    rw [if_pos (by simp [hWait])]
    exact ⟨rfl, rfl, rfl, State.get_bump _ (by decide)⟩
  · intro s hSr hExit hWait hDue
    refine ⟨_, rfl, ?_⟩
    simp [doSelfRefreshExit, hSr, hExit, hWait, hDue]
  · intro s k p hAt hExit hFirst hEven
    refine next_congr ?_
    simp [doSelfRefreshPairExit, hAt, hExit, hFirst, hEven]
  · intro s p hExit hRecal hSr
    constructor
    · refine next_congr ?_
      simp only [doDqRecalibrationEnd, hExit, hRecal, hSr]
      rfl
    · refine next_congr ?_
      simp only [doDqRecalibrationEnd, hExit, hRecal, hSr]
      rfl
  · intro s hExit hSr hRecal
    rw [srDone_of_done hExit hSr hRecal]
    refine ⟨by rw [State.peak_hbm]; rfl, ?_⟩
    simp [State.inSr, State.rget_peak_other _ _ (show F.HBM_STS_SR.off ≠ F.HBM_PM_STS_EXIT_NS_MAX.off by decide),
      rget_rput_same _ _ (show F.HBM_STS_SR.lo + F.HBM_STS_SR.w ≤ 64 by decide)]

end Sys2Proof.Machine
end

section
/-! PROOFS. What the commands of spec/02 do: the Tether and the main rails, clocks, stretching, temperature and heartbeat. -/
namespace Sys2Proof.Machine

open Sys2Proof

set_option Elab.async false

/-! ### The Tether and the main rails (R38 to R42) -/

@[simp] theorem railsOn_regs (c : Nat) (s : State) :
    (railsOn c s).regs = rput (rput s.regs F.TTH_STS_MAIN_ON 1) F.TTH_STS_LAST_CAUSE c := rfl

@[simp] theorem railsOn_dev (c : Nat) (s : State) : (railsOn c s).dev = s.dev := rfl

/-- The pin of the host's wake is the Tether's alone. -/
theorem wakeNLow_cases (s : State) : wakeNLow s = s ∨ wakeNLow s = { s with tt := { s.tt with wakeN := true } } := by
  unfold wakeNLow
  split
  · exact .inr rfl
  · exact .inl rfl

@[simp] theorem wakeNLow_regs (s : State) : (wakeNLow s).regs = s.regs := by
  obtain h | h := wakeNLow_cases s <;> rw [h]

@[simp] theorem wakeNLow_downReq (s : State) : (wakeNLow s).tt.downReq = s.tt.downReq := by
  obtain h | h := wakeNLow_cases s <;> rw [h]

@[simp] theorem wakeNLow_offTime (s : State) : (wakeNLow s).tt.offTime = s.tt.offTime := by
  obtain h | h := wakeNLow_cases s <;> rw [h]

@[simp] theorem wakeNLow_wake (s : State) : (wakeNLow s).tt.wake = s.tt.wake := by
  obtain h | h := wakeNLow_cases s <;> rw [h]

/-- A cause that is enabled wakes the device: its bit is latched, and the main rails follow (R39). -/
theorem wakeBit_of_enabled {sts en : Field} {i cause : Nat} {s : State} (hOff : en.off ≠ sts.off) (h : bitOf (s.get en) i = true) :
    wakeBit sts en i cause s = wakeUp cause (s.put sts (bitSet (s.get sts) i)) := by
  simp only [wakeBit, State.get_put_other _ _ hOff, h, if_true]

/-- With the rails off and no power-down in progress, a wake turns them on at once (R39). -/
theorem wakeUp_of_off {cause : Nat} {s : State} (hMain : s.is F.TTH_STS_MAIN_ON = false) (hReq : s.tt.downReq = false)
    (hTime : s.tt.offTime = false) : wakeUp cause s = railsOn cause (wakeNLow s) := by
  simp only [wakeUp, hMain, wakeNLow_downReq, wakeNLow_offTime, hReq, hTime, Bool.or_self, Bool.false_eq_true, if_false]

/-- During a power-down a wake is remembered: the first cause keeps its place (R40). -/
theorem wakeUp_of_down {cause : Nat} {s : State} (hMain : s.is F.TTH_STS_MAIN_ON = false) (hReq : s.tt.downReq = true) :
    wakeUp cause s = { wakeNLow s with tt := { (wakeNLow s).tt with wake := some (s.tt.wake.getD cause) } } := by
  simp only [wakeUp, hMain, wakeNLow_downReq, wakeNLow_wake, hReq, Bool.true_or, Bool.false_eq_true, if_false, if_true]

/-- A reset of the main domain leaves the Tether's registers (R42). -/
theorem reg_mainReset {s : State} {o : Nat} (h : tetherReg o = true) : (mainReset s).reg o = s.reg o := by
  rw [State.reg, KMap.get, mainReset, KMap.find_filter _ _ h, State.reg, KMap.get]

/-- `PERST_N` asserts where the device runs and does not go to sleep: the main domain is reset (R38). -/
theorem doPerstNAssert_of_up {s : State} (hPin : s.pins.perstN = true) (hUp : s.dev.up = true) (hReq : s.tt.downReq = false)
    (hMode : s.dev.mode ≠ .quiesce) :
    doPerstNAssert s = { mainReset { s with pins := { s.pins with perstN := false } } with
      dev := { (mainReset { s with pins := { s.pins with perstN := false } }).dev with mode := .boot } } := by
  have hNot : ¬ (decide (2 ≤ s.cfg) && s.dev.mode == .quiesce && (s.fnOf 0).d3 && s.is F.DEV_CTL_D3COLD_SLEEP) = true := by
    simp [hMode]
  simp only [doPerstNAssert, hPin, hUp, hReq, Bool.not_true, Bool.false_eq_true, if_false, if_neg hNot, Bool.true_or, if_true]

theorem doPerstNDeassert_of_good {strap id : Nat} {s : State} (hPin : s.pins.perstN = false) (hOn : s.dev.mode ≠ .off)
    (hMain : s.is F.TTH_STS_MAIN_ON = true) (hGood : s.is F.TTH_STS_PGOOD = true) :
    doPerstNDeassert strap id s = { s with
      pins := { s.pins with perstN := true, strapBoot := strap % 4, pairId := id % 2 }
      dev := { s.dev with stage1 := true, mode := .boot } } := by
  have hOn' : (s.dev.mode != .off) = true := bne_iff_ne.2 hOn
  simp only [State.is, State.get, State.reg] at hMain hGood
  simp only [doPerstNDeassert, hPin, State.tetherOn, hOn', State.is, State.get, State.reg, hMain, hGood, Bool.not_true,
    Bool.false_eq_true, if_false, if_true]

theorem doTtPgoodMainAssert_of_on {s : State} (hMain : s.is F.TTH_STS_MAIN_ON = true) (hGood : s.is F.TTH_STS_PGOOD = false) :
    doTtPgoodMainAssert s = { (s.put F.TTH_STS_PGOOD 1).bump F.TTH_STS_CYCLES with
      tt := { s.tt with railsUp := true }
      dev := { s.dev with stage1 := s.pins.perstN, mode := if s.pins.perstN then .boot else s.dev.mode } } := by
  simp only [doTtPgoodMainAssert, hMain, hGood, Bool.not_true, Bool.or_false, Bool.false_eq_true, if_false]
  rfl

theorem doMainPowerLoss_of_on {s : State} (hMain : s.is F.TTH_STS_MAIN_ON = true) (hGood : s.is F.TTH_STS_PGOOD = true) :
    doMainPowerLoss s =
      let u := mainReset (((s.put F.TTH_STS_POWER_LOSS 1).put F.TTH_STS_MAIN_ON 0).put F.TTH_STS_PGOOD 0)
      { u with dev := { u.dev with mode := .tether, cause := 12 }, tt := { u.tt with offTime := true, wake := none } } := by
  simp only [doMainPowerLoss, hMain, hGood, Bool.not_true, Bool.or_false, Bool.false_eq_true, if_false]

/-- The Tether's registers after a reset of the main domain, field by field. -/
theorem rget_mainReset {s : State} {f : Field} (h : tetherReg f.off = true) : rget (mainReset s).regs f = rget s.regs f :=
  rget_tether s.regs h

/-- Settles O23, command by command. -/
theorem tetherResults : Obligations.TetherResults := by
  refine ⟨?_, ?_, ?_, ?_, ?_, ?_, ?_, ?_, ?_, ?_⟩
  · intro s hOff
    refine ⟨_, rfl, ?_⟩
    rw [doTetherResetRelease, if_neg (by simp [hOff])]
    extract_lets dev tt s1 s2
    have hOsc : s2.is F.TTH_STS_OSC_OK = true := by simp (disch := decide) [s2]
    have hAuto : s2.is F.TTH_CTL_AUTO_ON = s.is F.TTH_CTL_AUTO_ON := State.is_put_other _ _ (by decide)
    split
    next =>
      refine ⟨rfl, rfl, ?_, fun _ => by simp (disch := decide)⟩
      rw [State.is_eq] at hOsc ⊢
      simpa (disch := decide) using hOsc
    next h => exact ⟨rfl, rfl, hOsc, fun hOn => absurd (hAuto.trans hOn) h⟩
  · exact fun s => ⟨_, rfl, rfl, rfl, rfl, rfl, rfl, rfl, rfl, rfl⟩
  · intro s hMain hGood
    refine ⟨_, next_congr (doTtPgoodMainAssert_of_on hMain hGood), ?_, ?_, fun h => ⟨if_pos h, h⟩, fun h => ⟨?_, h⟩, fun o ho => ?_⟩
    · simp (disch := decide)
    · simp (disch := decide)
      rfl
    · exact if_neg (by simp [h])
    · simp only [State.reg, State.bump_regs, State.put_regs]
      rw [get_rput_other _ _ _ (show o ≠ F.TTH_STS_CYCLES.off from ho), get_rput_other _ _ _ (show o ≠ F.TTH_STS_PGOOD.off from ho)]
  · intro s hMain hGood
    refine ⟨_, next_congr (doMainPowerLoss_of_on hMain hGood), rfl, rfl, rfl, rfl, rfl, ?_, ?_, ?_⟩
    · rw [State.is_eq, rget_mainReset (by decide)]
      simp (disch := decide)
    · rw [State.is_eq, rget_mainReset (by decide)]
      simp (disch := decide)
    · rw [State.is_eq, rget_mainReset (by decide)]
      simp (disch := decide)
  · intro s hReq
    refine ⟨_, next_congr (if_neg (by simp [hReq])), rfl, rfl, rfl, rfl, rfl, rfl, ?_⟩
    rw [State.is_eq, rget_mainReset (by decide)]
    simp (disch := decide)
  · intro s hTime
    refine ⟨_, rfl, ?_⟩
    rw [doMainOffTimeExpiry, if_neg (by simp [hTime])]
    cases hWake : s.tt.wake with
    | none => exact ⟨rfl, fun _ => rfl, nofun⟩
    | some d =>
      refine ⟨rfl, nofun, fun c hc => ?_⟩
      cases Option.some.inj hc
      simp (disch := decide)
      rfl
  · intro s n hn hOn hMain hReq hTime hEn
    have hSts : (s.put F.TTH_WAKE_STS_PRSNT (bitSet (s.get F.TTH_WAKE_STS_PRSNT) n)).is F.TTH_STS_MAIN_ON = false :=
      (State.is_put_other _ _ (by decide)).trans hMain
    have hWake : doWakeCause (.prsnt n) s
        = railsOn 3 (wakeNLow (s.put F.TTH_WAKE_STS_PRSNT (bitSet (s.get F.TTH_WAKE_STS_PRSNT) n))) := by
      rw [← wakeUp_of_off hSts hReq hTime, ← wakeBit_of_enabled (by decide) hEn]
      simp [doWakeCause, State.tetherOn, hOn, Nat.not_le.2 hn]
    refine ⟨_, next_congr hWake, ?_, ?_, ?_⟩
    · simp (disch := decide)
    · simp (disch := decide)
      rfl
    · simp (disch := decide)
      exact bitOf_bitSet_same _ hn
  · intro s k hk hOn hMain hReq hNone hEn
    have hSts : (s.put F.TTH_WAKE_STS_TT_WAKE (bitSet (s.get F.TTH_WAKE_STS_TT_WAKE) k)).is F.TTH_STS_MAIN_ON = false :=
      (State.is_put_other _ _ (by decide)).trans hMain
    have hWake := wakeUp_of_down (cause := 2) hSts hReq
    rw [← wakeBit_of_enabled (by decide) hEn] at hWake
    refine ⟨_, next_congr (.trans ?_ hWake), ?_, ?_, ?_⟩
    · simp [doTtWakeDebounced, doWakeCause, State.tetherOn, hOn, Nat.not_le.2 hk]
    · simp (disch := decide)
      simpa using hMain
    · simp [hNone]
    · simp (disch := decide)
      exact bitOf_bitSet_same _ hk
  · intro s hPin hUp hReq hMode
    exact ⟨_, next_congr (doPerstNAssert_of_up hPin hUp hReq hMode), rfl, rfl, rfl, rfl, rfl, fun o ho => reg_mainReset ho⟩
  · intro s strap id hPin hOn hMain hGood
    exact ⟨_, next_congr (doPerstNDeassert_of_good hPin hOn hMain hGood), rfl, rfl, rfl, rfl, rfl, rfl⟩

end Sys2Proof.Machine
end

section
/-! PROOFS. What the clock, stretch, temperature and heartbeat events of spec/02 do. -/
namespace Sys2Proof.Machine

open Sys2Proof

set_option Elab.async false

/-! ### The beginning of BOOT -/

/-- The epochs of a new BOOT are written in the LPs' identity registers and nowhere else. -/
theorem epochsNew_reg {o : Nat} {s : State} (h : ∀ p, p < 7 → o ≠ (F.LPn_IDENT_LOCAL_EPOCH p).off) : (epochsNew s).reg o = s.reg o := by
  have hFold : ∀ (l : List Nat) (t : State), (∀ p ∈ l, p < 7) →
      (l.foldl (fun t p => t.put (F.LPn_IDENT_LOCAL_EPOCH p) (t.tt.boots * 65536 + 1)) t).reg o = t.reg o := by
    intro l
    induction l with
    | nil => exact fun _ _ => rfl
    | cons p l ih =>
      intro t hl
      exact (ih _ fun q hq => hl q (by simp [hq])).trans (State.reg_put_other _ _ (h p (hl p (by simp))))
  exact hFold _ s fun p hp => List.mem_range.1 hp

theorem rget_epochsNew {f : Field} {s : State} (h : ∀ p, p < 7 → f.off ≠ (F.LPn_IDENT_LOCAL_EPOCH p).off) :
    rget (epochsNew s).regs f = rget s.regs f := rget_congr (epochsNew_reg h)

theorem epochsNew_only (s : State) : Change [.regs] s (epochsNew s) := epochsNew_change (List.Subset.refl _) (.refl _ s)

theorem epochsNew_dev (s : State) : (epochsNew s).dev = s.dev := (epochsNew_only s).keep .dev (by decide)
theorem epochsNew_pins (s : State) : (epochsNew s).pins = s.pins := (epochsNew_only s).keep .pins (by decide)
theorem epochsNew_tt (s : State) : (epochsNew s).tt = s.tt := (epochsNew_only s).keep .tt (by decide)
theorem hbmBegin_dev (s : State) : (hbmBegin s).dev = s.dev := rfl
theorem hbmBegin_pins (s : State) : (hbmBegin s).pins = s.pins := rfl
theorem hbmBegin_tt (s : State) : (hbmBegin s).tt = s.tt := rfl

/-- The next copy of the list is read from its SFDP table on (R54). -/
theorem nextCopy_of_cons {c : Nat} {r : List Nat} {s : State} (h : s.img.next = c :: r) :
    nextCopy s = { s with img := { s.img with stage := .sfdp, copy := c, next := r, header := [], secs := [], bodies := [] } } := by
  unfold nextCopy
  rw [h]

/-- A strap that names a copy starts from it, and BOTH from copy A (R54). -/
theorem bootCopies_of_lt {src : Nat} (h : src < 3) : ∃ r, bootCopies src = src % 2 :: r :=
  match src, h with
  | 0, _ => ⟨_, rfl⟩
  | 1, _ => ⟨_, rfl⟩
  | 2, _ => ⟨_, rfl⟩

/-- The registers at the beginning of BOOT: no result of an earlier boot stands in IMG_STS. -/
def bootRegs (s : State) : State :=
  let s1 := hbmBegin (epochsNew { s with tt := { s.tt with boots := (s.tt.boots + 1) % 65536 } })
  s1.setReg R.IMG_STS (s1.reg R.IMG_STS &&& ~~~ 0xFFFFF3)

theorem bootBegin_of_strap {src : Nat} (s : State) (h : src < 3) : ∃ img : Img, img.stage = .sfdp ∧ img.copy = src % 2 ∧
    bootBegin src s = { bootRegs s with img := img } := by
  obtain ⟨r, hCopies⟩ := bootCopies_of_lt h
  rw [bootBegin, bootFrom, nextCopy_of_cons hCopies]
  exact ⟨_, rfl, rfl, rfl⟩

theorem bootRegs_dev (s : State) : (bootRegs s).dev = s.dev := by
  simp only [bootRegs, State.setReg_dev, hbmBegin_dev, epochsNew_dev]

theorem bootRegs_pins (s : State) : (bootRegs s).pins = s.pins := by
  simp only [bootRegs, State.setReg_pins, hbmBegin_pins, epochsNew_pins]

theorem bootRegs_boots (s : State) : (bootRegs s).tt.boots = (s.tt.boots + 1) % 65536 := by
  simp only [bootRegs, State.setReg_tt, hbmBegin_tt, epochsNew_tt]

theorem bootRegs_mem (s : State) : (bootRegs s).mem = [] := rfl
theorem bootRegs_training (s : State) : (bootRegs s).hbm.training = true := rfl

/-- Only the registers of the LPs' identity, of HBM and of IMG are written. -/
theorem rget_bootRegs {f : Field} {s : State} (hEpoch : ∀ p, p < 7 → f.off ≠ (F.LPn_IDENT_LOCAL_EPOCH p).off)
    (hHbm : f.off ≠ R.HBM_STS) (hImg : f.off ≠ R.IMG_STS) : rget (bootRegs s).regs f = rget s.regs f := by
  simp only [bootRegs, State.setReg_regs]
  rw [rget_rset_other _ _ hImg]
  simp only [hbmBegin, State.setReg_regs]
  rw [rget_rset_other _ _ hHbm, rget_epochsNew hEpoch]

theorem bootBegin_dev {src : Nat} (s : State) (h : src < 3) : (bootBegin src s).dev = s.dev := by
  obtain ⟨img, -, -, hBoot⟩ := bootBegin_of_strap s h
  rw [hBoot]
  exact bootRegs_dev s

/-- The state in which the root PLL's first lock starts BOOT. -/
def lockedState (s : State) : State :=
  let s1 : State := { s with
    dev := { mode := .boot, up := true, stage1 := true, cause := if s.tt.railsUp then 2 else 11 }
    tt := { s.tt with railsUp := false, wakeN := false } }
  s1.setReg R.CLK_STS (s1.reg R.CLK_STS ||| 0x1F)

theorem doRootPllLock_of_down {s : State} (hUp : s.dev.up = false) (hStage : s.dev.stage1 = true)
    (hLoss : s.is F.TTH_STS_POWER_LOSS = false) (hStrap : s.pins.strapBoot < 3) :
    doRootPllLock s = bootBegin s.pins.strapBoot (lockedState s) := by
  obtain ⟨img, -, -, hBoot⟩ := bootBegin_of_strap (lockedState s) hStrap
  have hKeep : (bootBegin s.pins.strapBoot (lockedState s)).is F.TTH_STS_POWER_LOSS = false := by
    rw [hBoot, State.is_eq]
    dsimp only
    rw [rget_bootRegs (by decide) (by decide) (by decide)]
    simp only [lockedState, State.setReg_regs]
    rwa [rget_rset_other _ _ (by decide)]
  simp only [doRootPllLock, hUp, hStage, Bool.not_true, Bool.false_eq_true, if_false]
  exact if_neg fun h => Bool.noConfusion (hKeep.symm.trans h)

/-! ### Stretching (R46 to R49) -/

/-- The code of a ratio fits the two bits of RATIO. -/
theorem stretchCode_lt (r want : Nat) : (if r < want then 3 else ratioCode r) < 4 := by
  unfold ratioCode
  split_ifs <;> decide

@[simp] theorem stretchSync_regs (s : State) : (stretchSync s).regs =
    rput (rput s.regs F.PWR_STRETCH_STS_RATIO (if min s.pwr.ratio s.ratioWanted < s.ratioWanted then 3
      else ratioCode (min s.pwr.ratio s.ratioWanted))) F.PWR_STRETCH_STS_DROOP (b2n (s.pwr.droop1 || s.pwr.droop2)) := rfl
@[simp] theorem stretchSync_pwr (s : State) : (stretchSync s).pwr = { s.pwr with ratio := min s.pwr.ratio s.ratioWanted } := rfl
@[simp] theorem stretchSync_pins (s : State) : (stretchSync s).pins = s.pins := rfl

theorem stretchSync_reg {o : Nat} {s : State} (h : o ≠ R.PWR_STRETCH_STS) : (stretchSync s).reg o = s.reg o :=
  (State.reg_put_other _ _ h).trans (State.reg_put_other _ _ h)

theorem rget_droop_stretchSync (s : State) :
    rget (stretchSync s).regs F.PWR_STRETCH_STS_DROOP = b2n (s.pwr.droop1 || s.pwr.droop2) := by
  simp (disch := decide)
  cases s.pwr.droop1 <;> cases s.pwr.droop2 <;> rfl

/-- The end of the stretch cause writes the stretch status alone. -/
theorem lswCauseEnd_reg {o : Nat} {s : State} (h : o ≠ R.PWR_STRETCH_STS) : (lswCauseEnd s).reg o = s.reg o := by
  unfold lswCauseEnd
  split
  · exact (stretchSync_reg h).trans (State.reg_put_other _ _ h)
  · rfl

@[simp] theorem lswCauseEnd_lswHold (s : State) : (lswCauseEnd s).pwr.lswHold = s.pwr.lswHold := by
  unfold lswCauseEnd
  split <;> rfl

theorem lswCauseEnd_freeze (s : State) : (lswCauseEnd s).is F.PWR_STRETCH_STS_FREEZE = s.is F.PWR_STRETCH_STS_FREEZE := by
  unfold lswCauseEnd
  split
  · simp (disch := decide)
  · rfl

/-- With the pin high and the hold expired the cause ends. -/
theorem lswCauseEnd_of_high {s : State} (hPin : s.pins.lswN = true) (hHold : s.pwr.lswHold = false) :
    (lswCauseEnd s).is F.PWR_STRETCH_STS_LSW = false := by
  rw [lswCauseEnd, if_pos (by rw [hPin, hHold]; rfl)]
  simp (disch := decide)

/-- A fold over ports that changes none of them. -/
theorem foldl_eq_of_forall {σ α : Type} {f : σ → α → σ} {s : σ} {l : List α} (h : ∀ a ∈ l, f s a = s) : l.foldl f s = s := by
  induction l with
  | nil => rfl
  | cons a l ih => rw [List.foldl_cons, h a (by simp), ih fun b hb => h b (by simp [hb])]

/-- A port without flits that does not train is not touched by the loss of its reference clock. -/
theorem portClockLoss_of_idle {p : Nat} {s : State} (hFlits : s.flits p = false) (hTrain : s.lst p ≠ 2) : portClockLoss p s = s := by
  simp only [portClockLoss, hFlits, Bool.false_eq_true, if_false, if_neg hTrain]

theorem State.lst_put_other {p : Nat} (s : State) (f : Field) (v : Nat) (h : (F.LPn_LINK_STS_STATE p).off ≠ f.off) :
    (s.put f v).lst p = s.lst p := State.get_put_other s v h

/-- The state after a detector has found `mv`, before the fault of a deep droop. -/
theorem doDroopThresholdCrossing_of_first {mv : Nat} {s : State} (hUp : s.dev.up = true) (hMv : 650 ≤ mv)
    (h1 : s.pwr.droop1 = false) (h2 : s.pwr.droop2 = false) (hLo : mv < 600 + 5 * s.get F.PWR_DROOP_CFG_TH1)
    (hHi : 600 + 5 * s.get F.PWR_DROOP_CFG_TH2 ≤ mv) :
    doDroopThresholdCrossing mv s = stretchSync { s.bump F.PWR_STRETCH_STS_DROOP_CNT with
      pwr := { s.pwr with droop1 := true, droop2 := false } } := by
  have hd1 : decide (mv < droopMv (s.get F.PWR_DROOP_CFG_TH1)) = true := decide_eq_true hLo
  have hd2 : decide (mv < droopMv (s.get F.PWR_DROOP_CFG_TH2)) = false := decide_eq_false (Nat.not_lt.2 hHi)
  simp only [doDroopThresholdCrossing, hUp, hd1, hd2, h1, h2, Bool.not_true, Bool.not_false, Bool.or_false, Bool.true_and, Bool.or_true,
    Bool.false_eq_true, if_false, if_true, if_neg (Nat.not_lt.2 hMv)]
  simp only [show (s.bump F.PWR_STRETCH_STS_DROOP_CNT).pwr = s.pwr from rfl, h2]

theorem doLswRecognised_of_enabled {s : State} (hUp : s.dev.up = true) (hEn : s.is F.PWR_CTL_ENABLE = true) :
    doLswRecognised s = stretchSync { ((({ s with pins := { s.pins with lswN := false } } : State).bump F.PWR_STRETCH_STS_LSW_CNT).put
        F.PWR_STRETCH_STS_LSW 1).put F.PWR_STRETCH_STS_FREEZE 1 with
      pwr := { s.pwr with lswHold := true, lswRatio := lswRatioOf (s.get F.PWR_CTL_LSW_RATIO) }
      spl := { s.spl with deferred := s.is F.PWR_STRETCH_STS_FREEZE && s.spl.deferred } } :=
  if_neg (by rw [hUp, hEn]; simp)

/-- Whether a reading throttles: at the limit, or within the hysteresis while it throttles already (R51). -/
def throttles (tj : Nat) (s : State) : Bool :=
  decide (s.get F.PWR_THERM_LIMIT ≤ tj) || (s.is F.PWR_THERM_THERM && decide (s.get F.PWR_THERM_LIMIT < tj + 3))

theorem throttles_of_hot {tj : Nat} {s : State} (h : s.get F.PWR_THERM_LIMIT ≤ tj) : throttles tj s = true := by
  rw [throttles, decide_eq_true h, Bool.true_or]

theorem throttles_of_cold {tj : Nat} {s : State} (h : tj + 3 ≤ s.get F.PWR_THERM_LIMIT) : throttles tj s = false := by
  rw [throttles, decide_eq_false (by omega), decide_eq_false (by omega), Bool.and_false, Bool.or_false]

/-- A reading below the trip point stores the temperature and drives the throttle bit, its pin and source 58 (R51). -/
theorem doTemperatureReading_of_low {tj : Nat} {s : State} (hUp : s.dev.up = true) (hTj : tj < 120) :
    doTemperatureReading tj s = icuLevel 58 (throttles tj s)
      { (s.put F.PWR_THERM_TJ tj).put F.PWR_THERM_THERM (b2n (throttles tj s)) with
        pwr := { s.pwr with read := true }, pins := { s.pins with thermN := !throttles tj s } } := by
  have hMin : min tj 255 = tj := by omega
  have hTrip : decide (120 ≤ tj) = false := decide_eq_false (by omega)
  simp only [doTemperatureReading, hUp, hMin, hTrip, Bool.not_true, Bool.false_and, Bool.false_eq_true, if_false]
  rfl

/-- The first crossing of TH1 alone is a droop: it is counted, and the ratio falls to 56/64 (R46, R48). -/
theorem exec_droopThresholdCrossing_of_first {mv : Nat} {s : State} (hUp : s.dev.up = true) (hMv : 650 ≤ mv)
    (h1 : s.pwr.droop1 = false) (h2 : s.pwr.droop2 = false) (hLo : mv < 600 + 5 * s.get F.PWR_DROOP_CFG_TH1)
    (hHi : 600 + 5 * s.get F.PWR_DROOP_CFG_TH2 ≤ mv) :
    ∃ t, exec (.droopThresholdCrossing mv) s = .next t ∧ t.pwr.droop1 = true ∧ t.pwr.droop2 = false
      ∧ t.pwr.ratio = min s.pwr.ratio (min 56 (if s.is F.PWR_STRETCH_STS_LSW then s.pwr.lswRatio else 64))
      ∧ t.is F.PWR_STRETCH_STS_DROOP = true
      ∧ t.get F.PWR_STRETCH_STS_DROOP_CNT = satAdd 16 (s.get F.PWR_STRETCH_STS_DROOP_CNT) 1 := by
  refine ⟨_, next_congr (doDroopThresholdCrossing_of_first hUp hMv h1 h2 hLo hHi), rfl, rfl, ?_, ?_, ?_⟩
  · simp (disch := decide) [State.ratioWanted]
  · rw [State.is_eq, rget_droop_stretchSync]
    rfl
  · simp (disch := decide)
    rfl

/-- A recognised `LSW_N` freezes, counts and lowers the ratio (R49). -/
theorem exec_lswRecognised_of_enabled {s : State} (hUp : s.dev.up = true) (hEn : s.is F.PWR_CTL_ENABLE = true) :
    ∃ t, exec .lswRecognised s = .next t ∧ t.is F.PWR_STRETCH_STS_LSW = true ∧ t.is F.PWR_STRETCH_STS_FREEZE = true
      ∧ t.get F.PWR_STRETCH_STS_LSW_CNT = satAdd 16 (s.get F.PWR_STRETCH_STS_LSW_CNT) 1 ∧ t.pwr.lswHold = true
      ∧ (s.get F.PWR_CTL_LSW_RATIO = 2 → t.pwr.ratio ≤ 48) ∧ t.pins.lswN = false := by
  refine ⟨_, next_congr (doLswRecognised_of_enabled hUp hEn), ?_, ?_, ?_, rfl, fun hTwo => ?_, rfl⟩
  · simp (disch := decide)
  · simp (disch := decide)
  · simp (disch := decide)
    rfl
  · simp (disch := decide) [State.ratioWanted, -State.get_eq, hTwo, lswRatioOf]

/-- A reading below the trip point is kept and decides the throttling (R51). -/
theorem exec_temperatureReading_of_low {s : State} {tj : Nat} (hUp : s.dev.up = true) (hTj : tj < 120) :
    ∃ t, exec (.temperatureReading tj) s = .next t ∧ t.get F.PWR_THERM_TJ = tj
      ∧ (s.get F.PWR_THERM_LIMIT ≤ tj → t.is F.PWR_THERM_THERM = true ∧ t.pins.thermN = false)
      ∧ (tj + 3 ≤ s.get F.PWR_THERM_LIMIT → t.is F.PWR_THERM_THERM = false ∧ t.pins.thermN = true) := by
  refine ⟨_, next_congr (doTemperatureReading_of_low hUp hTj), ?_, fun hHot => ⟨?_, ?_⟩, fun hCold => ⟨?_, ?_⟩⟩
  · simp (disch := decide)
    exact Nat.mod_eq_of_lt (show tj < 256 by omega)
  · simp (disch := decide) [throttles_of_hot hHot]
  · simp [throttles_of_hot hHot]
  · simp (disch := decide) [throttles_of_cold hCold]
  · simp [throttles_of_cold hCold]

/-- Settles O24, command by command. -/
theorem clockPowerResults : Obligations.ClockPowerResults := by
  refine ⟨?_, ?_, ?_, ?_, ?_, ?_, ?_, ?_, ?_, ?_, ?_, ?_, ?_, ?_, ?_⟩
  · intro s hUp hStage hLoss hStrap
    obtain ⟨img, -, -, hBoot⟩ := bootBegin_of_strap (lockedState s) hStrap
    refine ⟨_, next_congr ((doRootPllLock_of_down hUp hStage hLoss hStrap).trans hBoot), ?_, ?_, ?_, ?_, rfl, ?_⟩
    · simp only [bootRegs_dev, lockedState, State.setReg_dev]
    · simp only [bootRegs_dev, lockedState, State.setReg_dev]
    · simp only [bootRegs_dev, lockedState, State.setReg_dev]
    · simp only [bootRegs_boots, lockedState, State.setReg_tt]
    · simp only [bootRegs_pins, lockedState, State.setReg_pins]
  · intro s hUp hLock
    refine ⟨(s.put F.CLK_STS_ROOT_LOCK 1).put F.CLK_STS_SYS_CLK_OK 1, next_congr ?_, ?_, ?_, rfl⟩
    · simp only [doRootPllLock, hUp, hLock, if_true, Bool.false_eq_true, if_false]
    · simp (disch := decide)
    · simp (disch := decide)
  · intro s b hUp
    refine ⟨_, next_congr (if_neg (by simp [hUp])), ?_, ?_, ?_⟩
    · cases b <;> simp (disch := decide)
    · cases b <;> simp (disch := decide) <;> rfl
    · rintro rfl
      simp (disch := decide)
  · intro s hUp
    exact next_congr (by simp only [doRefclkLoss, hUp, Bool.not_true, Bool.false_eq_true, if_false, if_true])
  · intro s hUp hPorts
    refine next_congr ?_
    simp only [doRefclkLoss, hUp, Bool.not_true, Bool.false_eq_true, if_false]
    refine foldl_eq_of_forall fun p hp => ?_
    have hp7 := List.mem_range.1 hp
    have hLst : (s.put F.CLK_STS_LP_REFCLK_OK 0).lst p = s.lst p :=
      State.lst_put_other _ _ _ ((by decide : ∀ q, q < 7 → (F.LPn_LINK_STS_STATE q).off ≠ F.CLK_STS_LP_REFCLK_OK.off) p hp7)
    obtain ⟨hFlits, hTrain⟩ := hPorts p hp7
    exact portClockLoss_of_idle (by rw [State.flits, hLst]; exact hFlits) (hLst ▸ hTrain)
  · intro s mv hUp hMv h1 h2 hLo hHi
    exact exec_droopThresholdCrossing_of_first hUp hMv h1 h2 hLo hHi
  · intro s b hUp
    refine ⟨_, next_congr (if_neg (by simp [hUp])), rfl, rfl, ?_, fun o ho => stretchSync_reg ho⟩
    rw [State.is_eq, rget_droop_stretchSync]
    cases s.pwr.droop1 <;> cases b <;> rfl
  · intro s hUp hRatio
    have hWanted : ({ s with pwr := { s.pwr with ratio := s.pwr.ratio + 1 } } : State).ratioWanted = s.ratioWanted := rfl
    have hMin : min (s.pwr.ratio + 1) s.ratioWanted = s.pwr.ratio + 1 := by omega
    refine ⟨_, next_congr (if_pos (by simp [hUp, hRatio])), ?_, ?_, fun o ho => stretchSync_reg ho⟩
    · rw [stretchSync_pwr, hWanted]
      exact hMin
    · simp (disch := decide) [hWanted, hMin]
      exact Nat.mod_eq_of_lt (stretchCode_lt _ _)
  · intro s hUp hEn
    exact exec_lswRecognised_of_enabled hUp hEn
  · intro s hHold
    exact ⟨_, rfl, by unfold doLswNRelease lswCauseEnd; split <;> rfl, lswCauseEnd_of_high rfl hHold⟩
  · intro s hHold
    refine ⟨_, next_congr (if_neg (by simp [hHold])), ?_, ?_, ?_, fun hPin => ?_⟩
    · rw [lswCauseEnd_lswHold]
    · rw [lswCauseEnd_freeze]
      simp (disch := decide)
    · rw [State.get_eq, rget_congr (lswCauseEnd_reg (by decide))]
      split <;> simp (disch := decide)
      rfl
    · refine lswCauseEnd_of_high ?_ rfl
      split <;> exact hPin
  · intro s hUp hEn hPin
    exact next_congr (if_pos (by rw [hUp, hEn, hPin]; rfl))
  · intro s k hUp
    refine ⟨_, next_congr (if_pos hUp), ?_, rfl, fun o ho => ?_⟩
    · simp (disch := decide)
      rfl
    · exact (State.reg_congr (State.emit_regs _ _) o).trans (State.reg_bump_other _ ho)
  · intro s tj hUp hTj
    exact exec_temperatureReading_of_low hUp hTj
  · intro s hCfg hMode
    exact next_congr (if_pos (by simp [hCfg, hMode]))

end Sys2Proof.Machine
end

section
/-! PROOFS. What the boot, flash, key and SMBus commands of spec/03 do. -/
namespace Sys2Proof.Machine

open Sys2Proof

set_option Elab.async false

/-! ### Boot, flash and keys (R34, R54 to R64) -/

/-- In BOOT, what was read from flash goes to the stage that waits for it. -/
theorem exec_flashReadDone_of_boot {rd : FlashRead} {s : State} (hUp : s.dev.up = true) (hMode : s.dev.mode = .boot) :
    exec (.flashReadDone rd) s = .next (flashRead rd s) := by
  refine next_congr ?_
  rw [doFlashReadDone, if_pos (by simp [hUp, hMode])]

theorem flashRead_of_sfdp {s : State} (hStage : s.img.stage = .sfdp) :
    flashRead (.sfdp true) s = { s with img := { s.img with stage := .header } } := by
  unfold flashRead
  rw [hStage]

theorem flashRead_of_sfdp_fails {s : State} (hStage : s.img.stage = .sfdp) : flashRead (.sfdp false) s = copyFail 9 none s := by
  unfold flashRead
  rw [hStage]

/-- A header that fails no check ends the header stage. -/
theorem flashRead_of_header {h : List Byte} {s : State} (hStage : s.img.stage = .header) (hOk : s.headerFails h = none) :
    flashRead (.header h) s = { s with img := { s.img with stage := .early, header := h, secs := secsOf h } } := by
  unfold flashRead
  rw [hStage]
  dsimp only
  rw [hOk]

theorem flashRead_of_header_fails {h : List Byte} {r : Nat} {s : State} (hStage : s.img.stage = .header)
    (hBad : s.headerFails h = some r) : flashRead (.header h) s = copyFail r none s := by
  unfold flashRead
  rw [hStage]
  dsimp only
  rw [hBad]

theorem enterConfigMode_dev (s : State) : (enterConfigMode s).dev.mode = .config ∧ (enterConfigMode s).dev.cause = 3 := by
  unfold enterConfigMode
  extract_lets s1 s2 s3 s4 s5 s6 late s7 wide
  rw [(sbPair_change (List.Subset.refl _) (.refl _ _)).keep .dev (by decide), setMode_dev]
  exact ⟨rfl, rfl⟩

@[simp] theorem imgFail_img (r : Nat) (s : State) : (imgFail r s).img = s.img :=
  (imgFail_change (List.Subset.refl _) (.refl _ s)).keep .img (by decide)

@[simp] theorem flashEnd_regs (s : State) : (flashEnd s).regs = rput s.regs F.IMG_STS_BUSY 0 := rfl

/-- The register the failed operation leaves: not busy, failed, with its reason (R62). -/
theorem imgFail_flashEnd {r : Nat} {s : State} :
    (imgFail r (flashEnd s)).img.op = 0 ∧ (imgFail r (flashEnd s)).is F.IMG_STS_BUSY = false
      ∧ (imgFail r (flashEnd s)).is F.IMG_STS_OP_FAIL = true ∧ (imgFail r (flashEnd s)).get F.IMG_STS_OP_REASON = r % 256 := by
  refine ⟨by rw [imgFail_img]; rfl, ?_, ?_, ?_⟩
  all_goals
    unfold imgFail
    simp (disch := decide)
  rfl

theorem copyFail_of_none (reason : Nat) (s : State) :
    copyFail reason none s = nextCopy (s.put (if s.img.copy = 0 then F.IMG_STS_REASON_A else F.IMG_STS_REASON_B) reason) := rfl

/-- The state in which RESTART begins BOOT anew (transition 13). -/
def restarted (s : State) : State :=
  { s with dev := { s.dev with mode := .boot, prev := 2, cause := 13, entry := s.dev.time % 2 ^ 48 } }

/-- Settles O25, command by command. -/
theorem bootResults : Obligations.BootResults := by
  refine ⟨?_, ?_, ?_, ?_, ?_, ?_, ?_, ?_, ?_, ?_, ?_, ?_, ?_⟩
  · intro s hUp hMode hStage
    exact (exec_flashReadDone_of_boot hUp hMode).trans (next_congr (flashRead_of_sfdp hStage))
  · intro s hUp hMode hStage hCopy hNext
    have hRead := flashRead_of_sfdp_fails hStage
    rw [copyFail_of_none, if_pos hCopy, nextCopy_of_cons (s := s.put _ _) hNext] at hRead
    refine ⟨_, (exec_flashReadDone_of_boot hUp hMode).trans (next_congr hRead), ?_, rfl, rfl, rfl⟩
    simp (disch := decide)
    rfl
  · intro s h r hUp hMode hStage hBad
    exact (exec_flashReadDone_of_boot hUp hMode).trans (next_congr (flashRead_of_header_fails hStage hBad))
  · intro s h hUp hMode hStage
    refine ⟨_, exec_flashReadDone_of_boot hUp hMode, fun hOk => ?_⟩
    rw [flashRead_of_header hStage hOk]
    exact ⟨rfl, rfl, rfl, rfl, rfl⟩
  · intro s hUp hMode hStage hTrain
    obtain ⟨hM, hC⟩ := enterConfigMode_dev s
    exact ⟨_, next_congr (if_pos (by simp [hUp, hMode, hStage, hTrain])), hM, hC, mem_of_law enterConfigMode_change⟩
  · intro s i b x hSec hMode hLate hLen
    have hBad : (b.length != x.length || Config.sha384 b != x.hash || (x.typ == 0x10 && !s.fwOk x b)) = true := by
      simp [bne_iff_ne.2 hLen]
    have hGate : ¬ (!s.dev.mode.configured || !s.img.late.contains i) = true := by simp [hMode, hLate]
    refine ⟨_, rfl, ?_⟩
    simp only [doLateSectionLoaded, hSec, if_neg hGate, hBad, if_true]
    refine ⟨?_, ?_, ?_⟩
    · simp (disch := decide)
    · simp
    · simp (disch := decide)
      cases (s.img.late.filter fun j => j != i).isEmpty <;> rfl
  · intro s h bs hOp
    refine ⟨icuEvent 56 ((flashEnd s).put F.IMG_STS_OP_FAIL 0), next_congr ?_, ?_, ?_, ?_⟩
    · rw [doFlashOpDone, if_neg (by omega), if_neg Bool.false_ne_true, if_neg (by omega)]
    · rw [icuEvent_img]
      rfl
    · simp (disch := decide)
    · simp (disch := decide)
  · intro s h bs hOp
    refine ⟨imgFail 0x0C (flashEnd s), next_congr ?_, imgFail_flashEnd⟩
    simp only [doFlashOpDone, if_neg hOp, if_true]
  · intro s hOp
    exact ⟨imgFail 0x0C (flashEnd s), next_congr (if_neg hOp), imgFail_flashEnd⟩
  · intro s src hSrc hHold
    obtain ⟨img, hStage, hCopy, hBoot⟩ := bootBegin_of_strap (restarted s) hSrc
    have hGo : ¬ (!s.inHold || decide (3 ≤ src)) = true := by simp [hHold, hSrc]
    refine ⟨_, next_congr ((if_neg hGo).trans hBoot), ?_, ?_, hStage, hCopy, ?_, ?_⟩
    · simp only [bootRegs_dev, restarted]
    · simp only [bootRegs_dev, restarted]
    · simp only [bootRegs_mem]
    · simp only [bootRegs_training]
  · intro s slot h h1 h3 hOpen hNone
    exact next_congr (if_pos (by simp [h1, h3, hOpen, hNone]))
  · intro s slot h3 hOpen hAny
    exact next_congr (if_pos (by rw [hOpen, hAny, decide_eq_true h3]; rfl))
  · intro s slot h3 hOpen hAny
    exact next_congr (if_neg (by rw [hAny, Bool.and_false]; exact Bool.false_ne_true))

/-- The check at the head of the list is judged: what fails is refused, what passes takes effect (R71). -/
theorem checkEnd_of_refused {c : Check} {rest : List Check} {s : State} {x o : Nat} (hChecks : s.checks = c :: rest)
    (hRes : checkResult c { s with checks := rest } = some (x, o)) : ∃ u, checkEnd s = checkRefuse c x u ∧ u.checks = rest := by
  unfold checkEnd
  rw [hChecks]
  dsimp only
  rw [hRes]
  exact ⟨_, rfl, by split <;> rfl⟩

theorem checkEnd_of_passed {c : Check} {rest : List Check} {s : State} (hChecks : s.checks = c :: rest)
    (hRes : checkResult c { s with checks := rest } = none) : ∃ u, checkEnd s = checkPass c u ∧ u.checks = rest := by
  unfold checkEnd
  rw [hChecks]
  dsimp only
  rw [hRes]
  exact ⟨_, rfl, by split <;> rfl⟩

/-- Settles O26, command by command. -/
theorem smbusResults : Obligations.SmbusResults := by
  refine ⟨?_, ?_, ?_, ?_, ?_, ?_, ?_, ?_, ?_⟩
  · exact fun s hOn => next_congr (if_pos hOn)
  · exact fun s hOn => next_congr (if_neg (by rw [hOn]; exact Bool.false_ne_true))
  · intro s off hOn hAlign
    refine ⟨_, next_congr (if_neg (by simp [hOn, hAlign])), fun v hv => ?_, fun hv => ?_⟩ 
    · simp only [hv, State.emit_out]
    · simp only [hv, State.emit_out]
  · intro s off h
    exact next_congr (if_pos (by simpa using h))
  · intro s off v hOn hReach
    exact next_congr (if_neg (by simp [hOn, hReach]))
  · intro s off v h
    exact next_congr (if_pos (by simpa using h))
  · intro s c rest x o hUp hChecks hRes
    obtain ⟨u, hEnd, hRest⟩ := checkEnd_of_refused hChecks hRes
    exact ⟨u, next_congr ((if_pos hUp).trans hEnd), hRest⟩
  · intro s c rest hUp hChecks hRes
    obtain ⟨u, hEnd, hRest⟩ := checkEnd_of_passed hChecks hRes
    exact ⟨u, next_congr ((if_pos hUp).trans hEnd), hRest⟩
  · intro s hMode hDrained
    exact next_congr (if_pos (by simp [hMode, hDrained]))

end Sys2Proof.Machine
end

section
/-! PROOFS. What the host's commands on configuration space, functions and BARs do (spec/04, spec/05). -/
namespace Sys2Proof.Machine

open Sys2Proof

set_option Elab.async false

/-- Outside L1 a request wakes nothing. -/
theorem l1Exit_of_awake {s : State} (h : s.get F.HEP_LINK_STS_PSTATE ≠ 2) : l1Exit s = s := if_neg h

@[simp] theorem l1Exit_out (s : State) : (l1Exit s).out = s.out := by
  unfold l1Exit
  split <;> rfl

@[simp] theorem l1Exit_dev (s : State) : (l1Exit s).dev = s.dev :=
  (l1Exit_change (List.Subset.refl _) (.refl _ s)).keep .dev (by decide)

@[simp] theorem l1Exit_fns (s : State) : (l1Exit s).fns = s.fns :=
  (l1Exit_change (List.Subset.refl _) (.refl _ s)).keep .fns (by decide)

@[simp] theorem hepTlp_out (t : Tlp) (s : State) : (hepTlp t s).out = s.out ++ [.tlp t] := by rw [hepTlp, State.emit_out, l1Exit_out]

@[simp] theorem hepTlp_fns (t : Tlp) (s : State) : (hepTlp t s).fns = s.fns := l1Exit_fns s

/-- Outside L1 a packet leaves as it is. -/
theorem hepTlp_of_awake {t : Tlp} {s : State} (h : s.get F.HEP_LINK_STS_PSTATE ≠ 2) : hepTlp t s = s.emit (.tlp t) := by
  rw [hepTlp, l1Exit_of_awake h]

/-- A configuration request in BOOT is answered with a retry (R88). -/
theorem hostConfig_of_boot {r : CfgReq} {s : State} (h : s.dev.mode = .boot) :
    hostConfig r s = hepTlp (.configCompletion r.fn r.tag true false 0) (l1Exit s) :=
  if_pos (by simp [h])

/-- A configuration request outside BOOT and outside L1, by the function and the direction. -/
theorem hostConfig_of_awake {r : CfgReq} {s : State} (hMode : s.dev.mode ≠ .boot) (hL1 : s.get F.HEP_LINK_STS_PSTATE ≠ 2) :
    hostConfig r s =
      if !s.fnExists r.fn then hepTlp (.configCompletion r.fn r.tag false true 0) s
      else if r.write then hepTlp (.configCompletion r.fn r.tag false false 0) (cfgWrite r.fn (r.off / 4 * 4 % 4096) r.be r.data
        (if r.fn = 0 then { s with hep := { s.hep with bus := r.bus } } else s))
      else hepTlp (.configCompletion r.fn r.tag false false (s.cfgRead r.fn (r.off / 4 * 4 % 4096)))
        (cfgReadDone r.fn (r.off / 4 * 4 % 4096) s) := by
  rw [hostConfig, l1Exit_of_awake hL1]
  exact if_neg (by simp [hMode])

theorem vfEnable_of_change {p : Nat} {on : Bool} {s : State} (h1 : 1 ≤ p) (h8 : p < 8) (hFn : s.fnExists p = true)
    (hVfe : (s.fnOf p).vfe = !on) :
    vfEnable p on s = if on then icuOfferAll (s.setFn p { s.fnOf p with vfe := true }) else vfsRemove p s :=
  if_neg (by cases on <;> simp [hVfe, hFn, Nat.not_le.2 h8, Nat.ne_of_gt h1])

theorem flrStart_of_fn {f : Nat} {s : State} (hFn : s.fnExists f = true) :
    flrStart f s = if f < 8 then vfsRemove f (flrBegin f s) else flrBegin f s := if_neg (by simp [hFn])

theorem bmeWrite_of_change {f : Nat} {on : Bool} {s : State} (hFn : s.fnExists f = true) (hBme : (s.fnOf f).bme = !on) :
    bmeWrite f on s = if on then fnGo f (s.setFn f { s.fnOf f with bme := on }) else fnStop f (s.setFn f { s.fnOf f with bme := on }) :=
  if_neg (by cases on <;> simp [hBme, hFn])

/-- A finished FLR leaves the function in its reset state, and says whose it was (R93). -/
theorem fnOf_flrFinish (f : Nat) (s : State) : (flrFinish f s).fnOf f = {} := by
  unfold flrFinish
  extract_lets x qs lost s1 s2 w s3
  exact State.fnOf_setFn_same (flrMsix f s1) f {}

theorem get_flrFinish (f : Nat) (s : State) : (flrFinish f s).get F.HEP_FLR_LOG_LAST_FN = f % 2 ^ 11 := by
  unfold flrFinish
  simp (disch := decide)
  rfl

theorem flrEnd_of_other {f : Nat} {s : State} (hFlr : (s.fnOf f).flr = true) (h0 : f ≠ 0) : flrEnd f s = icuOfferAll (flrFinish f s) := by
  simp only [flrEnd, hFlr, h0, decide_false, Bool.not_true, Bool.false_and, Bool.false_eq_true, if_false]

theorem pmcsrWrite_of_fn {f : Nat} {d3 e : Bool} {s : State} (hFn : s.fnExists f = true) :
    pmcsrWrite f d3 e s = powerState f d3 (pmeEnWrite f e s) := if_neg (by simp [hFn])

theorem unmask_entry {f k : Nat} {s : State} (hFn : s.fnExists f = true) (hk : k ≤ s.fnMsix f) :
    unmask f (.entry k) s = msixPendGo f (s.setMsixE (s.msixBase f + k) { s.msixE (s.msixBase f + k) with masked := false }) := by
  simp only [unmask, hFn, Bool.not_true, Bool.false_eq_true, if_false, hk, if_true]

theorem unmask_function {f : Nat} {s : State} (hFn : s.fnExists f = true) :
    unmask f .function s = msixPendGo f (s.setFn f { s.fnOf f with msixMask := false }) := by
  simp only [unmask, hFn, Bool.not_true, Bool.false_eq_true, if_false]

/-- A memory request to a BAR that the function does not have is unsupported (R96). -/
theorem hostMem_of_noBar {r : HostReq} {s : State} (hL1 : s.get F.HEP_LINK_STS_PSTATE ≠ 2) (hFn : s.fnExists r.fn = true)
    (hBar : s.barKind r.fn r.bar = none) : hostMem r s = hostUr r s := by
  simp only [hostMem, l1Exit_of_awake hL1, hFn, hBar, Bool.not_true, Bool.false_eq_true, if_false]

/-- A memory request that nothing refuses, and the part of the device that serves it. -/
def Served (r : HostReq) (k : BarKind) (s : State) : Prop :=
  s.get F.HEP_LINK_STS_PSTATE ≠ 2 ∧ s.fnExists r.fn = true ∧ s.barKind r.fn r.bar = some k ∧ s.fnD3 r.fn = false ∧ s.fnMse r.fn = true
    ∧ (s.fnOf r.fn).flr = false ∧ s.modeServes r k = true ∧ r.kind < 2

/-- The part of the device behind a BAR. -/
def serveBar (k : BarKind) (r : HostReq) (s : State) : State :=
  match k with
  | .control => hostControl r s
  | .page => hostPage r s
  | .window b => hostWindow r b s

theorem hostMem_of_served {r : HostReq} {k : BarKind} {s : State} (h : Served r k s) : hostMem r s = serveBar k r s := by
  obtain ⟨hL1, hFn, hBar, hD3, hMse, hFlr, hServe, hKind⟩ := h
  have hUse : ¬ (s.fnD3 r.fn || !s.fnMse r.fn || (s.fnOf r.fn).flr) = true := by simp [hD3, hMse, hFlr]
  have hMode : ¬ (!s.modeServes r k) = true := by simp [hServe]
  rw [hostMem, l1Exit_of_awake hL1, if_neg (by simp [hFn]), hBar]
  dsimp only
  rw [if_neg hUse, if_neg hMode, if_neg (Nat.not_le.2 hKind)]
  cases k <;> exact rfl

/-- Settles O27, command by command. -/
theorem hostFunctionResults : Obligations.HostFunctionResults := by
  refine ⟨?_, ?_, ?_, ?_, ?_, ?_, ?_, ?_, ?_, ?_, ?_, ?_, ?_, ?_, ?_, ?_, ?_, ?_⟩
  · intro s r hRx hMode
    refine ⟨_, next_congr ((if_pos hRx).trans (hostConfig_of_boot hMode)), ?_, ?_⟩
    · rw [hepTlp_out, l1Exit_out]
    · rw [hepTlp_fns, l1Exit_fns]
  · intro s r hRx hMode hFn hL1
    refine next_congr ((if_pos hRx).trans ((hostConfig_of_awake hMode hL1).trans ?_))
    rw [hFn, if_pos (by decide), hepTlp_of_awake hL1]
  · intro s r hRx hMode hFn hL1 hWrite
    refine next_congr ((if_pos hRx).trans ((hostConfig_of_awake hMode hL1).trans ?_))
    rw [hFn, hWrite, if_neg (by decide), if_neg (by decide)]
  · intro s r hRx hMode hFn hL1 hWrite h0
    refine next_congr ((if_pos hRx).trans ((hostConfig_of_awake hMode hL1).trans ?_))
    rw [hFn, hWrite, if_neg (by decide), if_pos rfl, if_neg h0]
  · intro s p hRx h1 h8 hFn hVfe
    refine ⟨_, next_congr ((if_pos hRx).trans (vfEnable_of_change (on := true) h1 h8 hFn hVfe)), ?_, ?_⟩
    · rw [if_pos rfl, State.fnOf, icuOfferAll_fns]
      exact congrArg Fn.vfe (State.fnOf_setFn_same _ _ _)
    · rw [if_pos rfl, icuOfferAll_mem]
      rfl
  · intro s p hRx h1 h8 hFn hVfe
    exact next_congr ((if_pos hRx).trans (vfEnable_of_change (on := false) h1 h8 hFn hVfe))
  · intro s f hRx hFn h8
    exact next_congr ((if_pos hRx).trans ((flrStart_of_fn hFn).trans (if_neg (Nat.not_lt.2 h8))))
  · intro s f hRx hFn h8
    exact next_congr ((if_pos hRx).trans ((flrStart_of_fn hFn).trans (if_pos h8)))
  · intro s f hFlr h0
    exact ⟨next_congr (flrEnd_of_other hFlr h0), fnOf_flrFinish f s, get_flrFinish f s⟩
  · intro s f hRx hFn hBme
    exact next_congr ((if_pos hRx).trans (bmeWrite_of_change (on := false) hFn hBme))
  · intro s f hRx hFn hBme
    exact next_congr ((if_pos hRx).trans (bmeWrite_of_change (on := true) hFn hBme))
  · intro s f d3 e hRx hFn
    exact next_congr ((if_pos hRx).trans (pmcsrWrite_of_fn hFn))
  · intro s f k hRx hFn hk
    exact next_congr ((if_pos hRx).trans (unmask_entry hFn hk))
  · intro s f hRx hFn
    exact next_congr ((if_pos hRx).trans (unmask_function hFn))
  · intro s r hRx hL1 hFn hBar
    exact next_congr ((if_pos hRx).trans (hostMem_of_noBar hL1 hFn hBar))
  · intro s r k hRx hL1 hFn hBar hD3 hMse hFlr hServe hKind
    have hServed : Served r k s := ⟨hL1, hFn, hBar, hD3, hMse, hFlr, hServe, hKind⟩
    refine next_congr ((if_pos hRx).trans ?_)
    refine (hostMem_of_served hServed).trans ?_
    cases k <;> exact rfl
  · intro s r b hRx hL1 hFn hBar hD3 hMse hFlr hServe hKind
    refine next_congr (.trans ?_ (hostMem_of_served ⟨hL1, hFn, hBar, hD3, hMse, hFlr, hServe, hKind⟩))
    rw [doWindowAccess, hBar]
    exact if_pos hRx
  · intro s f v hRx
    exact next_congr (if_pos hRx)

end Sys2Proof.Machine
end

section
/-! PROOFS. What the host link's commands do, and what tags and completions do (spec/04, spec/05). -/
namespace Sys2Proof.Machine

open Sys2Proof

set_option Elab.async false

/-- A wake from L1 writes the link status alone. -/
theorem l1Exit_reg {o : Nat} {s : State} (h : o ≠ R.HEP_LINK_STS) : (l1Exit s).reg o = s.reg o := by
  unfold l1Exit
  split
  · exact State.reg_put_other _ _ h
  · rfl

/-- The state in which the loss of a link that was up finds the functions (R107). -/
def linkLost (s : State) : State :=
  let s1 := (linkClear s).bump F.HEP_LINK_STS_DOWN_CNT
  { s1 with
    hep := { s1.hep with recovery := false, training := true, l0pWidth := 0, idle := false }
    icu := { s1.icu with inta := false } }

theorem hostLinkDown_of_single {s : State} (hUp : s.is F.HEP_LINK_STS_UP = true) (hPair : s.paired = false) :
    hostLinkDown s = dlFunctions (dlFlush false (dlTags false (hostForget (faultEvent .hep 1 0 (linkLost s))))) := by
  rw [hostLinkDown, if_neg (by rw [hUp]; decide), hPair]
  exact if_neg Bool.false_ne_true

@[simp] theorem linkTrained_regs (sp w : Nat) (s : State) : (linkTrained sp w s).regs =
    rput (rput (rput s.regs F.HEP_LINK_STS_SPEED sp) F.HEP_LINK_STS_WIDTH w) F.HEP_CTL_RETRAIN 0 := rfl

/-- The state in which a link that has trained is up. -/
def linkFound (sp w : Nat) (fl : Bool) (s : State) : State :=
  let s1 := (((linkTrained sp w s).put F.HEP_LINK_STS_FLIT (b2n fl)).put F.HEP_LINK_STS_UP 1).put F.CLK_STS_H_REFCLK_OK 1
  { s1 with hep := { s1.hep with
    training := false
    tags := s1.hep.tags.filter fun e => !e.heldDl } }

theorem hostLinkUp_of_training {sp w : Nat} {fl : Bool} {s : State} (hUp : s.is F.HEP_LINK_STS_UP = false)
    (hTrain : s.hep.training = true) (hFit : s.hostTrains sp w = true) :
    hostLinkUp sp w fl s = pmeSend (intaSync ((linkFound sp w fl s).setOut 0 0)) :=
  if_neg (by rw [hUp, hTrain, hFit]; decide)

theorem doTagIssue_of_next {k : Nat} {g : Frame} {s : State} (hUp : s.hostUp = true) (hNext : s.tagNext k = some g) :
    doTagIssue k s = hepRequest (.memRead g.fn k g.addr g.len g.pasid) (tagPeak { s with hep := { s.hep with
      wait := s.hep.wait.erase g
      tags := s.hep.tags ++ [{ fn := g.fn, tag := k, sent := s.dev.time, timeout := s.ctoTicks g.fn, f := g }] } }) := by
  unfold doTagIssue
  rw [if_pos hUp, hNext]

/-- The state in which a read that timed out fails: its tag is quarantined, and the timeout is logged (R116). -/
def timedOut (f k : Nat) (e : TagEnt) (s : State) : State :=
  let s1 := setTag { e with st := .quarantined, deadline := s.dev.time + 2 * e.timeout, got := [] } s
  ((s1.bump F.HEP_CTO_LOG_COUNT).put F.HEP_CTO_LOG_LAST_FN f).put F.HEP_CTO_LOG_LAST_TAG k

theorem doCompletionTimeout_of_use {f k : Nat} {e : TagEnt} {s : State} (hTag : s.tagOf f k = some e) (hUse : e.st = .inUse) :
    doCompletionTimeout f k s
      = failRead e.f.origin .timeout ((faultEvent .hep 0 (f + k * 2 ^ 16) (timedOut f k e s)).emit (.aer f false "Completion Timeout")) := by
  unfold doCompletionTimeout
  rw [hTag]
  exact if_neg (by rw [hUse]; decide)

theorem doQuarantineExpiry_of_free {f k : Nat} {e : TagEnt} {s : State} (hTag : s.tagOf f k = some e) (hUse : e.st ≠ .inUse)
    (hHeld : e.heldDl = false) : doQuarantineExpiry f k s = dropTag e s := by
  unfold doQuarantineExpiry
  rw [hTag]
  exact if_neg (by rw [hHeld, Bool.or_false, beq_iff_eq]; exact hUse)

theorem doHostCompletion_of_none {f k o : Nat} {d : List Byte} {a : Ans} {s : State} (hRx : s.hostRx = true)
    (hTag : s.tagOf f k = none) : doHostCompletion f k o d a s = unexpected f s := by
  unfold doHostCompletion
  rw [if_neg (by rw [hRx]; decide), hTag]

theorem doHostCompletion_of_use {f k o : Nat} {d : List Byte} {a : Ans} {e : TagEnt} {s : State} (hRx : s.hostRx = true)
    (hTag : s.tagOf f k = some e) (hUse : e.st = .inUse) : doHostCompletion f k o d a s = onTime e o d a s := by
  unfold doHostCompletion
  rw [if_neg (by rw [hRx]; decide), hTag]
  dsimp only
  rw [hUse]

/-- The last completion for a quarantined tag frees it (R117). -/
theorem doHostCompletion_of_late {f k o : Nat} {d : List Byte} {e : TagEnt} {s : State} (hRx : s.hostRx = true)
    (hTag : s.tagOf f k = some e) (hSt : e.st = .quarantined) (hHeld : e.heldDl = false) (hLast : e.f.len ≤ o + d.length) :
    doHostCompletion f k o d .ok s = dropTag e ((s.bump F.HEP_LATE_CPL_LATE).put F.HEP_LATE_CPL_LAST_FN f) := by
  unfold doHostCompletion
  rw [if_neg (by rw [hRx]; decide), hTag]
  dsimp only
  rw [hSt]
  exact if_pos (by rw [hHeld, decide_eq_true hLast]; rfl)

/-- Settles O28, command by command. -/
theorem hostLinkResults : Obligations.HostLinkResults := by
  refine ⟨?_, ?_, ?_, ?_, ?_, ?_, ?_, ?_, ?_, ?_, ?_, ?_, ?_, ?_, ?_⟩
  · intro s hRx
    refine ⟨_, next_congr (if_pos hRx), ?_, ?_, fun o ho => ?_⟩
    · rw [State.put_out, hepTlp_out]
    · exact State.get_put_same _ _ (by decide)
    · rw [State.reg_put_other _ _ ho, hepTlp, State.reg_congr (State.emit_regs _ _), l1Exit_reg ho]
  · intro s hUp
    exact next_congr (if_pos (by rw [hUp]; rfl))
  · intro s hUp hPair
    refine ⟨_, next_congr (hostLinkDown_of_single hUp hPair), ?_, ?_, rfl, rfl, rfl⟩
    all_goals
      unfold linkLost linkClear
      simp (disch := decide)
    rfl
  · intro s sp w fl hUp hTrain hFit
    refine ⟨_, next_congr (hostLinkUp_of_training hUp hTrain hFit), ?_, ?_, ?_, ?_, rfl, ?_⟩
    all_goals
      unfold linkFound
      simp (disch := decide)
    · rfl
    · rfl
    · cases fl <;> rfl
  · intro s sp w hUp
    refine next_congr ?_
    rw [doHostLinkRecovery, if_neg (by rw [hUp]; decide), if_pos (by decide)]
  · intro s sp w hUp hRec hFit
    refine ⟨{ linkTrained sp w s with hep := { (linkTrained sp w s).hep with recovery := false } }, next_congr ?_, rfl, ?_, ?_, ?_⟩
    · rw [doHostLinkRecovery, if_neg (by rw [hUp]; decide), if_neg (by decide), if_pos (by rw [hRec, hFit]; rfl)]
    all_goals simp (disch := decide)
    all_goals rfl
  · intro s hCfg hUp hL1 hIdle hLtr
    have hGo : (decide (s.cfg ≤ 1) && s.hostUp && decide (s.get F.HEP_LINK_STS_PSTATE ≤ 1) && s.hostIdle) = true := by
      rw [decide_eq_true hCfg, hUp, decide_eq_true hL1, hIdle]; rfl
    have hNo : ¬ ((s.fnOf 0).ltrEn && !s.hep.idle) = true := by rw [hLtr]; exact Bool.false_ne_true
    refine ⟨({ s with hep := { s.hep with idle := true, l0pWidth := 0 } } : State).put F.HEP_LINK_STS_PSTATE 2, next_congr ?_, ?_, rfl, rfl,
      fun o ho => ?_⟩
    · rw [doL1Request, if_pos hGo, if_neg hNo]
    · exact State.get_put_same _ _ (by decide)
    · rw [State.reg_put_other _ _ ho]
      rfl
  · intro s hCfg hUp hFlit hSpeed hEn hL1 h1 hMin
    exact next_congr (if_pos (by simp only [hCfg, hUp, hFlit, hSpeed, hEn, hL1, h1, hMin]; rfl))
  · intro s hUp hW hL1
    refine ⟨_, next_congr (if_pos (by simp only [hUp, bne_iff_ne.2 hW, hL1]; rfl)), rfl, ?_, rfl⟩
    simp (disch := decide)
  · intro s k g hUp hNext
    exact ⟨_, next_congr (doTagIssue_of_next hUp hNext), rfl, rfl, rfl⟩
  · exact fun s f k o d a hRx hTag => next_congr (doHostCompletion_of_none hRx hTag)
  · exact fun s f k o d a e hRx hTag hUse => next_congr (doHostCompletion_of_use hRx hTag hUse)
  · exact fun s f k o d e hRx hTag hSt hHeld hLast => next_congr (doHostCompletion_of_late hRx hTag hSt hHeld hLast)
  · intro s f k e hTag hUse
    refine ⟨_, next_congr (doCompletionTimeout_of_use hTag hUse), ?_, ?_⟩
    all_goals
      unfold timedOut
      simp (disch := decide)
      rfl
  · exact fun s f k e hTag hUse hHeld => next_congr (doQuarantineExpiry_of_free hTag hUse hHeld)

end Sys2Proof.Machine
end

section
/-! PROOFS. What the attestation responder answers over DOE (spec/04, R94). -/
namespace Sys2Proof.Machine

open Sys2Proof

set_option Elab.async false

/-- While the responder answers and the link is awake, an answer is said and nothing else happens. -/
theorem spdmSend_of_on {code : Nat} {data : List Byte} {s : State} (hOn : s.doeOn = true) (hL1 : s.get F.HEP_LINK_STS_PSTATE ≠ 2) :
    spdmSend code data s = s.emit (.spdm code data) := by
  rw [spdmSend, if_pos hOn, l1Exit_of_awake hL1]

theorem spdmSend_of_off {code : Nat} {data : List Byte} {s : State} (hOff : s.doeOn = false) : spdmSend code data s = s :=
  if_neg (by rw [hOff]; exact Bool.false_ne_true)

theorem spdmError_of_on {s : State} (hOn : s.doeOn = true) (hL1 : s.get F.HEP_LINK_STS_PSTATE ≠ 2) :
    spdmError s = s.emit (.spdm 0x7F [1]) := spdmSend_of_on hOn hL1

/-- Settles O29: each request is one answer of `spdmSend` or of `spdmError`. -/
theorem attestationResults : Obligations.AttestationResults := by
  refine ⟨?_, ?_, ?_, ?_, ?_⟩
  · intro s req hOn hL1
    exact ⟨next_congr (spdmSend_of_on hOn hL1), next_congr (spdmSend_of_on hOn hL1), next_congr (spdmSend_of_on hOn hL1),
      next_congr (spdmSend_of_on hOn hL1), next_congr (spdmSend_of_on hOn hL1)⟩
  · intro s off len hOn hL1
    refine next_congr ?_
    unfold doGetCertificate
    dsimp only
    by_cases hEnd : Config.spdmChain.length ≤ off
    · rw [if_pos hEnd, if_pos hEnd, spdmError_of_on hOn hL1]
    · rw [if_neg hEnd, if_neg hEnd, spdmSend_of_on hOn hL1]
  · intro s i req hOn hL1
    refine ⟨next_congr (spdmSend_of_on hOn hL1), fun h1 h6 => next_congr ?_, fun h6 hAll => next_congr ?_⟩
    · rw [doGetMeasurements, if_neg (by omega), if_neg (by omega), if_pos h6, spdmSend_of_on hOn hL1]
    · rw [doGetMeasurements, if_neg (by omega), if_neg hAll, if_neg (by omega), spdmError_of_on hOn hL1]
  · intro s i hOn hL1
    refine ⟨next_congr (spdmSend_of_on hOn hL1), next_congr (spdmSend_of_on hOn hL1), fun h2 => next_congr ?_⟩
    rw [doDoeDiscovery, if_neg (by omega), if_neg (by omega), spdmSend_of_on hOn hL1]
  · intro s req hOff
    exact ⟨next_congr (spdmSend_of_off hOff), next_congr (spdmSend_of_off hOff), next_congr (spdmSend_of_off hOff)⟩

end Sys2Proof.Machine
end

section
/-! PROOFS. What the ends of walks, invalidations, flushes, prefetches, translations and migrations do (spec/06). -/
namespace Sys2Proof.Machine

open Sys2Proof

set_option Elab.async false

/-! ### Walks and invalidations (R131 to R137) -/

/-- A walk that finds its entry keeps it and answers its one access. -/
theorem doTableWalkDone_of_ok {k : Nat} {a : Access} {s : State}
    (hWalk : s.wxl.walks.find? (fun e => e.1 == k) = some (k, [a])) (hPoison : s.hbmPoison (s.xtOff k) = false) (hWait : s.wxl.walkWait = []) :
    doTableWalkDone k .ok s = windowEntry a (a.win.getD 0) (some (s.xtE k)) (tcUse k (s.xtE k)
      { s with wxl := { s.wxl with walks := s.wxl.walks.filter (fun x => x.1 != k), walkWait := [] } }) := by
  unfold doTableWalkDone
  rw [hWalk, hWait]
  dsimp only
  rw [hPoison]
  rfl

/-- A walk whose entry is lost says so and answers its one access without one. -/
theorem doTableWalkDone_of_ue {k : Nat} {a : Access} {s : State}
    (hWalk : s.wxl.walks.find? (fun e => e.1 == k) = some (k, [a])) (hWait : s.wxl.walkWait = []) :
    doTableWalkDone k .ue s = windowEntry a (a.win.getD 0) none (faultEvent .wxl 1 0 (eccUe (s.xtOff k)
      { s with wxl := { s.wxl with walks := s.wxl.walks.filter (fun x => x.1 != k), walkWait := [] } })) := by
  unfold doTableWalkDone
  rw [hWalk, hWait]
  rfl

/-- Whether TC_INV drops the cached entry `i`. -/
def tcGone (s : State) (i : Nat) : Bool :=
  s.get F.WXL_TC_INV_COUNT == 0
    || (decide (s.get F.WXL_TC_INV_FIRST ≤ i) && decide (i < s.get F.WXL_TC_INV_FIRST + s.get F.WXL_TC_INV_COUNT))

theorem tcGone_of_all {s : State} (h : s.get F.WXL_TC_INV_COUNT = 0) (i : Nat) : tcGone s i = true := by
  rw [tcGone, h]
  rfl

theorem tcGone_of_within {s : State} {i : Nat} (hLo : s.get F.WXL_TC_INV_FIRST ≤ i)
    (hHi : i < s.get F.WXL_TC_INV_FIRST + s.get F.WXL_TC_INV_COUNT) : tcGone s i = true := by
  rw [tcGone, decide_eq_true hLo, decide_eq_true hHi, Bool.and_self, Bool.or_true]

theorem doTcInvDone_of_go {s : State} (hGo : s.is F.WXL_TC_INV_GO = true) :
    doTcInvDone s = ({ s with wxl := { s.wxl with tc := s.wxl.tc.filter fun e => !tcGone s e.1 } } : State).put F.WXL_TC_INV_GO 0 :=
  if_pos hGo

/-- A translation that one access waits for. -/
theorem doTranslationCompletion_of_one {f p g ad : Nat} {r w : Bool} {a : Access} {s : State} (hUp : s.is F.HEP_LINK_STS_UP = true)
    (hMine : s.wxl.atsWait.filter (fun e => e.1 == { fn := f, pasid := p, page := g, addr := 0, r := false, w := false })
      = [({ fn := f, pasid := p, page := g, addr := 0, r := false, w := false }, a)]) :
    doTranslationCompletion f p g ad r w true s
      = atsGo { fn := f, pasid := p, page := g, addr := ad, r := r, w := w } true a
        (atcKeep { fn := f, pasid := p, page := g, addr := ad, r := r, w := w } { s with wxl := { s.wxl with
          atsWait := s.wxl.atsWait.filter fun e => e.1 != { fn := f, pasid := p, page := g, addr := 0, r := false, w := false } } }) := by
  unfold doTranslationCompletion
  dsimp only
  rw [hMine, if_neg (by rw [hUp]; simp)]
  rfl

theorem doInvalidationRequest_of_room {f p g n k : Nat} {s : State} (hUp : s.is F.HEP_LINK_STS_UP = true) (hFn : s.fnExists f = true)
    (hRoom : s.wxl.invals.length < 32) :
    doInvalidationRequest f p g n k s = { s with wxl := { s.wxl with
      atc := s.wxl.atc.filter fun a => !(a.fn == f && a.pasid == p && decide (g ≤ a.page) && decide (a.page < g + n))
      invals := s.wxl.invals ++ [{ fn := f, itag := k, wait := s.fnRequests f }] } } :=
  if_neg (by rw [hUp, hFn]; simpa using hRoom)

theorem doInvalidationCompletion_of_ended {f k : Nat} {x : Inval} {s : State}
    (hFind : s.wxl.invals.find? (fun i => i.fn == f && i.itag == k) = some x) (hUp : s.hostUp = true)
    (hEnd : x.wait.any (fun r => (s.fnRequests f).contains r) = false) :
    doInvalidationCompletion f k s
      = hepTlp (.invalidationCompletion f k) { s with wxl := { s.wxl with invals := s.wxl.invals.erase x } } := by
  unfold doInvalidationCompletion
  rw [hFind]
  exact if_pos (by rw [hUp, hEnd]; rfl)

/-! ### Migrations and updates (R139 to R142) -/

/-- What the end of a pass makes of a migration: another pass over what was written meanwhile, or the hold. -/
def nextPass (m : Mig) (s : State) : Mig :=
  let m1 : Mig := { m with copy := m.dirty, dirty := [], pass := m.pass + 1 }
  if decide (16 < m.dirty.length) && decide (m.further < 3) then { m1 with further := m.further + 1 }
  else { m1 with hold := true, holdStart := s.dev.time }

theorem nextPass_of_more {m : Mig} {s : State} (hLong : 16 < m.dirty.length) (hFew : m.further < 3) :
    nextPass m s = { m with copy := m.dirty, dirty := [], pass := m.pass + 1, further := m.further + 1 } := by
  rw [nextPass, if_pos (by rw [decide_eq_true hLong, decide_eq_true hFew]; rfl)]

theorem nextPass_of_hold {m : Mig} {s : State} (h : m.dirty.length ≤ 16 ∨ 3 ≤ m.further) :
    nextPass m s = { m with copy := m.dirty, dirty := [], pass := m.pass + 1, hold := true, holdStart := s.dev.time } := by
  rw [nextPass, if_neg (by simp only [Bool.and_eq_true, decide_eq_true_eq]; omega)]

theorem nextPass_pass (m : Mig) (s : State) :
    (nextPass m s).copy = m.dirty ∧ (nextPass m s).dirty = [] ∧ (nextPass m s).pass = m.pass + 1 := by
  unfold nextPass
  split <;> exact ⟨rfl, rfl, rfl⟩

theorem doMigratePassEnd_of_over {q : Nat} {m : Mig} {s : State} (hMig : s.migOf q = some m) (hHold : m.hold = false)
    (hOver : s.passOver q = true) :
    doMigratePassEnd q s = (setMig (nextPass m s) s).setQa q { s.qa q with relOff := 0, phase := .waiting } := by
  unfold doMigratePassEnd
  rw [hMig]
  exact if_neg (by rw [hHold, hOver]; decide)

theorem doMigrateRelease_of_single {q : Nat} {m : Mig} {s : State} (hMig : s.migOf q = some m) (hHold : m.hold = true)
    (hOver : s.passOver q = true) (hDone : m.done = false) (hPair : s.paired = false) :
    doMigrateRelease q s = migFinish q m (migRetarget m s) := by
  unfold doMigrateRelease
  rw [hMig]
  dsimp only
  rw [if_neg (by rw [hHold, hOver]; decide), if_neg (by rw [hDone]; decide), if_neg (by rw [hPair]; decide)]

theorem doXlateUpdateDone_of_active {q : Nat} {x : XlWait} {s : State} (hFind : s.wxl.xlWaits.find? (fun x => x.q == q) = some x)
    (hBusy : s.pageBusy x.das = false) (hMirror : s.prl.unmirrored.any (fun i => i.q == q) = false) (hAct : s.cget q C.OP_ACTIVE = 1)
    (hOp : s.opc q = 0x0B) :
    doXlateUpdateDone q s = qResume q (stopSettle q (finishOp q 0 0
      { s with wxl := { s.wxl with xlWaits := s.wxl.xlWaits.filter fun y => y.q != q } })) := by
  unfold doXlateUpdateDone
  rw [hFind]
  dsimp only
  rw [if_neg (by rw [hBusy, hMirror]; decide), if_pos (by rw [hAct, hOp]; rfl)]

/-- Settles O30, command by command. -/
theorem windowResults : Obligations.WindowResults := by
  refine ⟨?_, ?_, ?_, ?_, ?_, ?_, ?_, ?_, ?_, ?_, ?_, ?_⟩
  · exact fun s k a hWalk hPoison hWait => ⟨_, next_congr (doTableWalkDone_of_ok hWalk hPoison hWait), rfl, rfl, rfl⟩
  · exact fun s k a hWalk hWait => ⟨_, next_congr (doTableWalkDone_of_ue hWalk hWait)⟩
  · intro s hGo
    refine ⟨_, next_congr (doTcInvDone_of_go hGo), ?_, fun hAll => ?_, fun e he => ?_, fun o ho => State.reg_put_other _ _ ho⟩
    · simp (disch := decide)
    · exact List.filter_eq_nil_iff.2 fun e _ => by rw [tcGone_of_all hAll]; decide
    · obtain ⟨hMem, hKeep⟩ := List.mem_filter.1 he
      exact ⟨hMem, fun ⟨hLo, hHi⟩ => by rw [tcGone_of_within hLo hHi] at hKeep; exact absurd hKeep (by decide)⟩
  · exact fun s hGo hNone => next_congr (by rw [doPcFlushDone, if_neg (by rw [hGo]; decide), if_pos (by rw [hNone]; rfl)])
  · exact fun s hGo hSome => next_congr (by rw [doPcFlushDone, if_neg (by rw [hGo]; decide), if_neg (by simpa using hSome)])
  · exact fun s da => rfl
  · exact fun s f p g ad r w a hUp hMine => ⟨_, next_congr (doTranslationCompletion_of_one hUp hMine), rfl, rfl⟩
  · intro s f p g n k hUp hFn hRoom
    refine ⟨_, next_congr (doInvalidationRequest_of_room hUp hFn hRoom), rfl, rfl, fun a ha => ?_⟩
    obtain ⟨hMem, hKeep⟩ := List.mem_filter.1 ha
    exact ⟨hMem, by rintro ⟨rfl, rfl, hLo, hHi⟩; simp [hLo, hHi] at hKeep⟩
  · exact fun s f k x hFind hUp hEnd => next_congr (doInvalidationCompletion_of_ended hFind hUp hEnd)
  · intro s q m hMig hHold hOver
    obtain ⟨hCopy, hDirty, hPass⟩ := nextPass_pass m s
    refine ⟨_, next_congr (doMigratePassEnd_of_over hMig hHold hOver), hCopy, hDirty, hPass, fun hLong hFew => ?_, fun h => ?_⟩
    · rw [nextPass_of_more hLong hFew]
      exact ⟨hHold, rfl⟩
    · rw [nextPass_of_hold h]
      exact ⟨rfl, rfl⟩
  · exact fun s q m hMig hHold hOver hDone hPair => next_congr (doMigrateRelease_of_single hMig hHold hOver hDone hPair)
  · exact fun s q x hFind hBusy hMirror hAct hOp => next_congr (doXlateUpdateDone_of_active hFind hBusy hMirror hAct hOp)

end Sys2Proof.Machine
end

section
/-! PROOFS. What the queue engine's own commands do (spec/07). -/
namespace Sys2Proof.Machine

open Sys2Proof

set_option Elab.async false

/-- A context that is cached needs nothing. -/
theorem ctxNeed_of_cached {q : Nat} {s : State} (h : s.cached q = true) : ctxNeed q s = (s, true) := if_pos h

/-- A loaded context without a lost word serves the one action that asked for it (R152). -/
theorem doContextLoaded_of_ok {q : Nat} {a : QAct} {s t : State}
    (hLoad : (s.qen.loads.take 1024).find? (fun e => e.1 == q) = some (q, [a])) (hRoom : ctxRoom q a.pre s = some t)
    (hPoison : (List.range 16).any (fun j => s.hbmPoison (s.ctxOff q + 8 * j)) = false) :
    doContextLoaded q .ok s = fetchTry q (qResume q (qRun q a (ctxTouch q { t with qen := { t.qen with
      loads := t.qen.loads.filter (fun x => x.1 != q)
      pinWait := t.qen.pinWait.filter (fun x => x != q) } }))) := by
  unfold doContextLoaded
  rw [hLoad]
  dsimp only
  rw [List.all_cons, List.all_nil, Bool.and_true, hRoom]
  dsimp only
  rw [hPoison]
  rfl

theorem doDescriptorFetched_of_answer {q : Nat} {ans : Ans} {d : List Byte} {s : State} (hAns : (s.qa q).fetchAns = some (ans, d))
    (hDrop : (s.qa q).fetchDrop = false) :
    doDescriptorFetched q s =
      let s1 := s.setQa q { s.qa q with fetchOut := 0, fetchAns := none, fetchDrop := false }
      if ansGood ans then fetchTry q (s1.setQa q { s1.qa q with fetched := (s.qa q).fetched ++ descs (s.qa q).fetchOut d })
      else qEnd q (queueFail q (ansStatus ans) s1) := by
  unfold doDescriptorFetched
  dsimp only
  rw [hAns]
  exact if_neg (by rw [hDrop]; exact Bool.false_ne_true)

/-- An operation that nothing keeps from starting. -/
theorem doOperationStart_of_free {q : Nat} {d : List Byte} {r : List (List Byte)} {s : State} (hMay : s.mayStart q = true)
    (hQ : s.cached q = true) (hC : s.cached (s.cget q C.CQ) = true) (hFetched : (s.qa q).fetched = d :: r)
    (hCq : s.isCq (s.cget q C.CQ) = true) (hRuns : s.qst (s.cget q C.CQ) = 1) (hFree : s.cqFree (s.cget q C.CQ) ≠ 0)
    (hPin : s.pinFull q = false) :
    doOperationStart q s = fetchTry q (qEnd q (opStart q d (ctxTouch q (ctxTouch (s.cget q C.CQ)
      { s with qen := { s.qen with pinWait := s.qen.pinWait.filter fun x => x != q } })))) := by
  unfold doOperationStart
  simp only [ctxNeed_of_cached hQ, ctxNeed_of_cached hC]
  rw [if_neg (by rw [hMay]; decide), if_neg (by decide), if_neg (by rw [hFetched]; simp), if_neg (by decide),
    if_neg (by rw [hCq, hRuns]; decide), if_neg hFree, if_neg (by rw [hPin]; decide), hFetched]

/-- A full completion queue keeps an operation waiting, which is counted once. -/
theorem doOperationStart_of_full {q : Nat} {d : List Byte} {r : List (List Byte)} {s : State} (hMay : s.mayStart q = true)
    (hQ : s.cached q = true) (hC : s.cached (s.cget q C.CQ) = true) (hFetched : (s.qa q).fetched = d :: r)
    (hCq : s.isCq (s.cget q C.CQ) = true) (hRuns : s.qst (s.cget q C.CQ) = 1) (hFree : s.cqFree (s.cget q C.CQ) = 0)
    (hWait : (s.qa q).slotWait = false) :
    doOperationStart q s = (s.setQa q { s.qa q with slotWait := true }).bump F.QEN_STS_CQ_FULL_WAIT := by
  unfold doOperationStart
  simp only [ctxNeed_of_cached hQ, ctxNeed_of_cached hC]
  rw [if_neg (by rw [hMay]; decide), if_neg (by decide), if_neg (by rw [hFetched]; simp), if_neg (by decide),
    if_neg (by rw [hCq, hRuns]; decide), if_pos hFree, if_neg (by rw [hWait]; decide)]

theorem foldl_setCtxW_regs (q : Nat) (g : Nat → Word) (l : List Nat) (s : State) :
    (l.foldl (fun t j => t.setCtxW q (8 + j) (g j)) s).regs = s.regs := by
  induction l generalizing s with
  | nil => rfl
  | cons j l ih => exact ih _

/-- The state in which an operation begins: its descriptor and its counters stand in the context (R160). -/
def opStarted (q : Nat) (d : List Byte) (s : State) : State :=
  let c := s.cget q C.CQ
  let x := s.qa q
  let s1 := (List.range 8).foldl (fun t j => t.setCtxW q (8 + j) (BitVec.ofNat 64 (bytesAt d (8 * j) 8))) s
  let s2 := (((s1.cput q C.CK_SEQ (s.cget q C.HEAD)).cput q C.OP_ACTIVE 1).cput q C.HEAD (s.cget q C.HEAD + 1)).cput c C.RESERVED
    (s.cget c C.RESERVED + 1)
  let s3 := (((s2.cput q C.CK_STEPS 0).cput q C.CK_BYTES 0).cput q C.CK_ACC 0).cput q C.CK_ENERGY 0
  s3.setQa q { x with
    fetched := x.fetched.drop 1, phase := .idle, relOff := 0, opCharge := 0, opReleased := false, list := [], listOut := false,
    listAns := none, firstBad := 0, lastBad := 0, scrubNew := false, drops := [], atomSent := false, atomMark := false, resumed := false,
    slotWait := false, lagWait := false, loads := [], asked := false, fence := [], fenceLines := [] }

theorem opStart_eq (q : Nat) (d : List Byte) (s : State) :
    opStart q d s = opBegin q (mirror (s.cget q C.CQ) false (mirror q false (opStarted q d s))) := rfl

theorem opStarted_regs (q : Nat) (d : List Byte) (s : State) : (opStarted q d s).regs = s.regs := by
  unfold opStarted
  simp only [State.setQa_regs, State.cput_regs, foldl_setCtxW_regs]

theorem opStarted_qa (q : Nat) (d : List Byte) (s : State) :
    ((opStarted q d s).qa q).phase = .idle ∧ ((opStarted q d s).qa q).fetched = (s.qa q).fetched.drop 1 := by
  unfold opStarted
  simp only [State.qa_setQa_same, and_self]

/-- The head of a completion record's write: who waits, and for which completion queue. -/
structure RecordReady (q : Nat) (r : Record) (s : State) : Prop where
  held : (s.qa q).held = some r
  serving : s.dev.mode.serving = true
  owns : s.owns (s.cget q C.ENV) = true
  lag : s.lagOf q = 0
  cached : s.cached q = true
  cachedCq : s.cached (s.cget q C.CQ) = true

theorem doCompletionRecordWrite_of_ok {q : Nat} {r : Record} {v : Route} {s : State} (h : RecordReady q r s)
    (hCq : s.isCq (s.cget q C.CQ) = true) (hGen : s.cget (s.cget q C.CQ) C.GEN = s.cget q C.CQ_GEN)
    (hRuns : s.qst (s.cget q C.CQ) = 1) (hAhead : s.recordAhead (s.cget q C.CQ) r = false)
    (hDa : s.daCheck false (s.cget q C.ENV) true
      (s.ringDa (s.cget q C.CQ) + 32 * (s.cget (s.cget q C.CQ) C.TAIL % s.ringN (s.cget q C.CQ))) 32 = .ok v) :
    doCompletionRecordWrite q s = fetchTry q (qEnd q (recordPut q (s.cget q C.CQ) r (cqLookup q (s.cget q C.CQ) s))) := by
  obtain ⟨hHeld, hMode, hOwn, hLag, hQ, hC⟩ := h
  unfold doCompletionRecordWrite
  rw [hHeld]
  simp only [ctxNeed_of_cached hQ, ctxNeed_of_cached hC]
  rw [if_neg (by rw [hMode, hOwn, hLag]; decide), if_neg (by decide), if_neg (by decide), if_neg (by rw [hCq, hGen]; simp),
    if_neg (by rw [hRuns]; decide), if_neg (by rw [hAhead]; decide), hDa]

theorem doCompletionRecordWrite_of_gone {q : Nat} {r : Record} {s : State} (h : RecordReady q r s)
    (hGen : s.cget (s.cget q C.CQ) C.GEN ≠ s.cget q C.CQ_GEN) :
    doCompletionRecordWrite q s = qEnd q (queueFail q 0x0D s) := by
  obtain ⟨hHeld, hMode, hOwn, hLag, hQ, hC⟩ := h
  unfold doCompletionRecordWrite
  rw [hHeld]
  simp only [ctxNeed_of_cached hQ, ctxNeed_of_cached hC]
  rw [if_neg (by rw [hMode, hOwn, hLag]; decide), if_neg (by decide), if_neg (by decide),
    if_pos (by rw [bne_iff_ne.2 hGen, Bool.or_true])]

/-- Settles O32, command by command. -/
theorem queueResults : Obligations.QueueResults := by
  refine ⟨?_, ?_, ?_, ?_, ?_, ?_, ?_, ?_, ?_⟩
  · exact fun s q a t hLoad hRoom hPoison => ⟨_, next_congr (doContextLoaded_of_ok hLoad hRoom hPoison), rfl, rfl, rfl⟩
  · intro s q d hAns hDrop
    refine ⟨_, next_congr ((doDescriptorFetched_of_answer hAns hDrop).trans (if_pos rfl)), ?_, ?_, ?_, rfl, rfl⟩
    all_goals simp only [State.qa_setQa_same]
  · intro s q d hAns hDrop
    refine ⟨_, next_congr ((doDescriptorFetched_of_answer hAns hDrop).trans (if_neg (by decide))), ?_, rfl⟩
    simp only [State.qa_setQa_same]
  · exact fun s q d r hMay hQ hC hFetched hCq hRuns hFree hPin =>
      ⟨_, next_congr (doOperationStart_of_free hMay hQ hC hFetched hCq hRuns hFree hPin), rfl, rfl, rfl⟩
  · exact fun s q d r hMay hQ hC hFetched hCq hRuns hFree hWait =>
      next_congr (doOperationStart_of_full hMay hQ hC hFetched hCq hRuns hFree hWait)
  · intro s q d hCq
    obtain ⟨hPhase, hFetched⟩ := opStarted_qa q d s
    exact ⟨_, opStart_eq q d s, hPhase, hFetched, opStarted_regs q d s⟩
  · exact fun s q r v hHeld hMode hOwn hLag hQ hC hCq hGen hRuns hAhead hDa =>
      next_congr (doCompletionRecordWrite_of_ok ⟨hHeld, hMode, hOwn, hLag, hQ, hC⟩ hCq hGen hRuns hAhead hDa)
  · exact fun s q r hHeld hMode hOwn hLag hQ hC hGen =>
      next_congr (doCompletionRecordWrite_of_gone ⟨hHeld, hMode, hOwn, hLag, hQ, hC⟩ hGen)
  · intro s q hTimer hCq hMode hPend hIrq
    refine ⟨s.setQa q { s.qa q with modTimer := false }, next_congr ?_, ?_, rfl⟩
    · rw [doCqModerationExpiry, if_neg (by rw [hTimer, hCq, hMode]; decide), if_pos (by rw [decide_eq_true hPend, hIrq]; rfl)]
    · simp only [State.qa_setQa_same]

end Sys2Proof.Machine
end

section
/-! PROOFS. What releases, boundaries and the data operations' steps do (spec/08, spec/09). -/
namespace Sys2Proof.Machine

open Sys2Proof

set_option Elab.async false

theorem doStepRelease_of_pick {p row q : Nat} {s : State} (hMode : s.dev.mode.running = true) (hEn : s.is F.SPL_CTL_ENABLE = true)
    (hOpen : s.pathOpen p = true) (hPick : s.pickRelease p (s.waiters p) = some (row, q)) (hOp : s.opc q ≠ 0x0E) :
    doStepRelease p s = doRelease p row q (passNote (s.cget q C.ENV) (s.waiters p) (lagNote p s)) := by
  unfold doStepRelease
  rw [if_neg (by rw [hMode, hEn, hOpen]; decide)]
  dsimp only
  rw [hPick]
  exact if_neg hOp

theorem doStepRelease_of_none {p : Nat} {s : State} (hMode : s.dev.mode.running = true) (hEn : s.is F.SPL_CTL_ENABLE = true)
    (hOpen : s.pathOpen p = true) (hPick : s.pickRelease p (s.waiters p) = none) (hFreeze : s.is F.PWR_STRETCH_STS_FREEZE = false) :
    doStepRelease p s = lagNote p s := by
  unfold doStepRelease
  rw [if_neg (by rw [hMode, hEn, hOpen]; decide)]
  dsimp only
  rw [hPick]
  exact if_neg (by rw [hFreeze]; exact Bool.false_ne_true)

theorem doStepBoundary_of_serving {q : Nat} {s : State} (hMode : s.dev.mode.serving = true) (hOp : s.opc q ≠ 0x08) :
    doStepBoundary q s = qEnd q (boundary q s) := by
  simp only [doStepBoundary, hMode, Bool.not_true, Bool.false_eq_true, if_false, if_neg hOp]

/-- A pipeline's error, before the step in flight is discarded: the fault, and the pipeline's test is due (R180). -/
def pipeFailed (p : Nat) (s : State) : State :=
  let s1 := faultEvent .qen 4 p s
  { s1 with qen := { s1.qen with ptest := if s1.qen.ptest.contains p then s1.qen.ptest else s1.qen.ptest ++ [p] } }

theorem pipeFailed_qen (p : Nat) (s : State) : (pipeFailed p s).qen.pipes = s.qen.pipes := by
  rw [← faultEvent_qen (b := .qen) (id := 4) (info := p) (s := s)]
  rfl

theorem pipeFailed_qaux (p : Nat) (s : State) : (pipeFailed p s).qaux = s.qaux := faultEvent_qaux

theorem mem_pipeFailed (p : Nat) (s : State) : p ∈ (pipeFailed p s).qen.ptest := by
  unfold pipeFailed
  dsimp only
  split
  next h => exact List.contains_iff_mem.1 h
  next => exact List.mem_append_right _ (List.mem_singleton.2 rfl)

theorem doMoverPipeError_of_idle {p : Nat} {s : State} (hPipe : s.qen.pipes.contains p = true) (hMode : testModes s.dev.mode = true)
    (hIdle : s.qaux = []) : doMoverPipeError p s = pipeFailed p s := by
  unfold doMoverPipeError
  rw [if_neg (by rw [hPipe, hMode]; decide), hIdle]
  rfl

/-- A released step that may begin does what its operation says. -/
theorem stepGo_of_beginable {op q p : Nat} {act : State → State} {r : Rel} {s : State} (hOp : s.opc q = op)
    (hAct : s.cget q C.OP_ACTIVE = 1) (hMode : s.dev.mode.serving = true) (hBegin : s.beginable q = some (r, p)) :
    stepGo op q act s = act (beginStep r p s) := by
  unfold stepGo
  rw [if_neg (by rw [hOp, hAct, hMode]; simp), hBegin]

theorem doMigrate_of_step {q : Nat} {s : State} (hPhase : (s.qa q).phase ≠ .ctl) : doMigrate q s = stepGo 0x06 q (migReads q) s :=
  if_neg (by simp [hPhase])

theorem doMulticastWrite_of_step {q : Nat} {s : State} (hPhase : (s.qa q).phase ≠ .ctl) :
    doMulticastWrite q s = stepGo 0x07 q (fun t => srcReads q ((t.mcAlive q).map (mcDst (t.qa q).list)) t) s :=
  if_neg (by simp [hPhase])

theorem doAtomic_of_step {q : Nat} {s : State} (hStep : (s.qa q).step.on = false) : doAtomic q s = stepGo 0x08 q (atomBegin q) s :=
  if_neg (by simp [hStep])

/-- A multicast whose list of destinations is being settled. -/
structure McCtl (q : Nat) (s : State) : Prop where
  op : s.opc q = 0x07
  active : s.cget q C.OP_ACTIVE = 1
  phase : (s.qa q).phase = .ctl
  runs : s.sqRuns q = true
  qen : s.qenRuns = true

theorem McCtl.guard {q : Nat} {s : State} (h : McCtl q s) :
    (decide (s.opc q = 0x07) && decide (s.cget q C.OP_ACTIVE = 1) && (s.qa q).phase == .ctl && s.sqRuns q && s.qenRuns) = true := by
  rw [h.op, h.active, h.phase, h.runs, h.qen]
  rfl

theorem doMulticastWrite_of_ask {q : Nat} {s : State} (h : McCtl q s) (hList : s.listSt q = .ask) :
    doMulticastWrite q s = listRead q (8 * s.df q 0 8 4) s := by
  unfold doMulticastWrite
  dsimp only
  rw [if_pos h.guard, hList]

theorem doMulticastWrite_of_bad {q st : Nat} {s : State} (h : McCtl q s) (hList : s.listSt q = .bad st) :
    doMulticastWrite q s = qEnd q (finishOp q st 0 s) := by
  unfold doMulticastWrite
  dsimp only
  rw [if_pos h.guard, hList]

theorem doMulticastWrite_of_here {q : Nat} {s : State} (h : McCtl q s) (hList : s.listSt q = .here) (hCheck : s.mcCheck q = none) :
    doMulticastWrite q s = s.setQa q { s.qa q with phase := .waiting, relOff := s.cget q C.CK_BYTES } := by
  unfold doMulticastWrite
  dsimp only
  rw [if_pos h.guard, hList]
  dsimp only
  rw [hCheck]

theorem doAtomic_of_marked {q : Nat} {s : State} (hOp : s.opc q = 0x08) (hStep : (s.qa q).step.on = true) (hMark : (s.qa q).atomMark = true)
    (hSent : (s.qa q).atomSent = false) (hMode : s.dev.mode.serving = true) (hMirror : s.prl.unmirrored.any (fun i => i.q == q) = false) :
    doAtomic q s = atomSend q s := by
  unfold doAtomic
  dsimp only
  rw [if_pos (by rw [hOp, hStep, hMark, hSent, hMode]; rfl), hMirror]
  exact if_neg Bool.false_ne_true

/-- Settles O33, command by command. -/
theorem stepResults : Obligations.StepResults := by
  refine ⟨?_, ?_, ?_, ?_, ?_, ?_, ?_⟩
  · exact fun s p row q hMode hEn hOpen hPick hOp => next_congr (doStepRelease_of_pick hMode hEn hOpen hPick hOp)
  · exact fun s p hMode hEn hOpen hPick hFreeze => next_congr (doStepRelease_of_none hMode hEn hOpen hPick hFreeze)
  · exact fun s q hMode hOp => next_congr (doStepBoundary_of_serving hMode hOp)
  · exact fun s p hPipe hMode hIdle => ⟨_, next_congr (doMoverPipeError_of_idle hPipe hMode hIdle), mem_pipeFailed p s,
      pipeFailed_qen p s, (pipeFailed_qaux p s).trans hIdle⟩
  · intro s q r p hAct hMode hBegin
    refine ⟨fun hOp => next_congr ?_, fun hOp => next_congr ?_, fun hOp => next_congr ?_, fun hOp => next_congr ?_,
      fun hOp => next_congr ?_, fun hOp hPhase => next_congr ?_, fun hOp hPhase => next_congr ?_, fun hOp hStep => next_congr ?_⟩
    · exact stepGo_of_beginable hOp hAct hMode hBegin
    · exact stepGo_of_beginable hOp hAct hMode hBegin
    · exact stepGo_of_beginable hOp hAct hMode hBegin
    · exact stepGo_of_beginable hOp hAct hMode hBegin
    · exact stepGo_of_beginable hOp hAct hMode hBegin
    · exact (doMigrate_of_step hPhase).trans (stepGo_of_beginable hOp hAct hMode hBegin)
    · exact (doMulticastWrite_of_step hPhase).trans (stepGo_of_beginable hOp hAct hMode hBegin)
    · exact (doAtomic_of_step hStep).trans (stepGo_of_beginable hOp hAct hMode hBegin)
  · intro s q hOp hAct hPhase hRuns hQen
    have hCtl : McCtl q s := ⟨hOp, hAct, hPhase, hRuns, hQen⟩
    exact ⟨fun hList => next_congr (doMulticastWrite_of_ask hCtl hList), fun st hList => next_congr (doMulticastWrite_of_bad hCtl hList),
      fun hList hCheck => next_congr (doMulticastWrite_of_here hCtl hList hCheck)⟩
  · exact fun s q hOp hStep hMark hSent hMode hMirror => next_congr (doAtomic_of_marked hOp hStep hMark hSent hMode hMirror)

end Sys2Proof.Machine
end

section
/-! PROOFS. What the control operations do (spec/08). -/
namespace Sys2Proof.Machine

open Sys2Proof

set_option Elab.async false

theorem doFence_of_status {q st : Nat} {s : State} (hReady : s.ctlReady 0x09 q = true) (hWait : s.wxlWaits (s.cget q C.ENV) = false)
    (hPort : s.fencePort q = some st) : doFence q s = opDone q st s := by
  unfold doFence
  rw [if_neg (by rw [hReady, hWait]; decide), hPort]

/-- A fence without lines to write back waits for the writes of its envelope that are out (R188). -/
theorem doFence_of_none {q : Nat} {s : State} (hReady : s.ctlReady 0x09 q = true) (hWait : s.wxlWaits (s.cget q C.ENV) = false)
    (hPort : s.fencePort q = none) (hLines : s.df q 0 16 1 = 0) :
    doFence q s = fenceFlush q (s.setQa q
      { s.qa q with phase := .ctl, fence := s.envWrites (s.cget q C.ENV) (s.fenceOuts q), fenceLines := [] }) := by
  unfold doFence
  rw [if_neg (by rw [hReady, hWait]; decide), hPort]
  dsimp only
  rw [if_neg (by rw [hLines]; decide)]

theorem doFenceComplete_of_clear {q : Nat} {s : State} (hWait : s.ctlWaits 0x09 q = true)
    (hLines : ((fenceFlush q s).qa q).fenceLines = []) (hFence : ((fenceFlush q s).qa q).fence = []) :
    doFenceComplete q s = opDone q 0 (fenceFlush q s) := by
  unfold doFenceComplete
  rw [if_neg (by rw [hWait]; decide)]
  dsimp only
  rw [if_pos (by rw [hLines, hFence]; rfl)]

theorem doNotify_of_status {q st : Nat} {s : State} (hReady : s.ctlReady 0x0A q = true) (hCheck : s.notifyCheck q = some st) :
    doNotify q s = opDone q st s := by
  unfold doNotify
  rw [if_neg (by rw [hReady]; decide), hCheck]

theorem doNotify_of_none {q : Nat} {s : State} (hReady : s.ctlReady 0x0A q = true) (hCheck : s.notifyCheck q = none) :
    doNotify q s = if s.df q 0 8 1 = 1 then notifyPartner q s
      else if s.ownWrites q then s else opDone q 0 (hpEvent (s.df q 1 0 11) (s.df q 1 16 11) s) := by
  unfold doNotify
  rw [if_neg (by rw [hReady]; decide), hCheck]

theorem doXlateUpdate_of_ready {q : Nat} {s : State} (hReady : s.ctlReady 0x0B q = true) :
    doXlateUpdate q s = listRead q (16 * s.df q 0 8 7) s := if_pos hReady

/-- An update whose list is here is checked again when it acts. -/
theorem doXlateUpdate_of_pass {q : Nat} {s : State} (hReady : s.ctlReady 0x0B q = false) (hWait : s.ctlWaits 0x0B q = true)
    (hNone : s.wxl.xlWaits = []) (hList : s.listSt q = .here) (hCheck : s.xlCheck q = none) : doXlateUpdate q s = xlApply q s := by
  unfold doXlateUpdate
  rw [if_neg (by rw [hReady]; decide), if_neg (by rw [hWait, hNone]; exact Bool.false_ne_true), hList]
  dsimp only
  rw [hCheck]

theorem doXlateUpdate_of_status {q st : Nat} {s : State} (hReady : s.ctlReady 0x0B q = false) (hWait : s.ctlWaits 0x0B q = true)
    (hNone : s.wxl.xlWaits = []) (hList : s.listSt q = .here) (hCheck : s.xlCheck q = some st) : doXlateUpdate q s = opDone q st s := by
  unfold doXlateUpdate
  rw [if_neg (by rw [hReady]; decide), if_neg (by rw [hWait, hNone]; exact Bool.false_ne_true), hList]
  dsimp only
  rw [hCheck]

theorem doAbort_of_none {q : Nat} {s : State} (hReady : s.ctlReady 0x0C q = true) (hCheck : s.abortCheck q = none) :
    doAbort q s = opDone q 0 (abortOp (s.df q 1 0 22) s) := by
  unfold doAbort
  rw [if_neg (by rw [hReady]; decide), hCheck]

theorem doAbort_of_status {q st : Nat} {s : State} (hReady : s.ctlReady 0x0C q = true) (hCheck : s.abortCheck q = some st) :
    doAbort q s = opDone q st s := by
  unfold doAbort
  rw [if_neg (by rw [hReady]; decide), hCheck]

theorem doCtxPrefetch_of_ready {q : Nat} {s : State} (hReady : s.ctlReady 0x0D q = true) :
    doCtxPrefetch q s = listRead q (4 * s.df q 0 16 11) s := if_pos hReady

/-- A list with a reserved bit set ends the prefetch. -/
theorem doCtxPrefetch_of_reserved {q : Nat} {s : State} (hReady : s.ctlReady 0x0D q = false) (hWait : s.ctlWaits 0x0D q = true)
    (hList : s.listSt q = .here) (hBad : (s.pfList q).any (fun e => e.2 != 0) = true) : doCtxPrefetch q s = opDone q 0x0B s := by
  unfold doCtxPrefetch
  dsimp only
  rw [if_neg (by rw [hReady]; decide), if_neg (by rw [hWait]; decide), hList]
  exact if_pos hBad

theorem doCtxPrefetch_of_loaded {q : Nat} {s : State} (hReady : s.ctlReady 0x0D q = false) (hWait : s.ctlWaits 0x0D q = true)
    (hList : s.listSt q = .here) (hNone : s.pfList q = []) (hAsked : (s.qa q).asked = true) (hLoads : (s.qa q).loads = []) :
    doCtxPrefetch q s = opDone q 0 s := by
  unfold doCtxPrefetch
  dsimp only
  rw [if_neg (by rw [hReady]; decide), if_neg (by rw [hWait]; decide), hList]
  dsimp only
  rw [hNone, if_neg (by simp), if_neg (by simp), if_neg (by rw [hAsked]; decide), if_pos (by rw [hLoads]; rfl)]

theorem doServiceCall_of_none {q : Nat} {s : State} (hReady : s.ctlReady 0x0E q = true) (hCheck : s.callCheck q = none) :
    doServiceCall q s = s.setQa q { s.qa q with phase := .ctl } := by
  unfold doServiceCall
  rw [if_neg (by rw [hReady]; decide), hCheck]

theorem doServiceCall_of_status {q st : Nat} {s : State} (hReady : s.ctlReady 0x0E q = true) (hCheck : s.callCheck q = some st) :
    doServiceCall q s = opDone q st s := by
  unfold doServiceCall
  rw [if_neg (by rw [hReady]; decide), hCheck]

/-- Settles O34, command by command. -/
theorem controlOpResults : Obligations.ControlOpResults := by
  refine ⟨?_, ?_, ?_, ?_, ?_, ?_, ?_, ?_, ?_⟩
  · exact fun s q hReady hWait => ⟨fun st hPort => next_congr (doFence_of_status hReady hWait hPort),
      fun hPort hLines => next_congr (doFence_of_none hReady hWait hPort hLines)⟩
  · exact fun s q hWait hLines hFence => next_congr (doFenceComplete_of_clear hWait hLines hFence)
  · intro s q hReady
    refine ⟨fun st hCheck => next_congr (doNotify_of_status hReady hCheck), fun hCheck hOne => ?_, fun hCheck hZero hOwn => ?_⟩
    · exact next_congr ((doNotify_of_none hReady hCheck).trans (if_pos hOne))
    · exact next_congr ((doNotify_of_none hReady hCheck).trans
        ((if_neg (by rw [hZero]; decide)).trans (if_neg (by rw [hOwn]; decide))))
  · exact fun s q => ⟨fun hReady => next_congr (doXlateUpdate_of_ready hReady), fun hReady hWait hNone hList =>
      ⟨fun hCheck => next_congr (doXlateUpdate_of_pass hReady hWait hNone hList hCheck),
        fun st hCheck => next_congr (doXlateUpdate_of_status hReady hWait hNone hList hCheck)⟩⟩
  · exact fun s q hReady => ⟨fun hCheck => next_congr (doAbort_of_none hReady hCheck),
      fun st hCheck => next_congr (doAbort_of_status hReady hCheck)⟩
  · exact fun s q => ⟨fun hReady => next_congr (doCtxPrefetch_of_ready hReady),
      fun hReady hWait hList hBad => next_congr (doCtxPrefetch_of_reserved hReady hWait hList hBad),
      fun hReady hWait hList hNone hAsked hLoads => next_congr (doCtxPrefetch_of_loaded hReady hWait hList hNone hAsked hLoads)⟩
  · exact fun s q hReady => ⟨fun hCheck => next_congr (doServiceCall_of_none hReady hCheck),
      fun st hCheck => next_congr (doServiceCall_of_status hReady hCheck)⟩
  · exact fun s q hReady => next_congr (if_pos hReady)
  · exact fun s q hReady => next_congr (if_neg (by rw [hReady]; decide))

end Sys2Proof.Machine
end

section
/-! PROOFS. Control-space writes that are taken: what a register does beside storing, and its enable bits (R8, R71). -/
namespace Sys2Proof.Machine

open Sys2Proof

set_option Elab.async false

/-! ### A taken write, part by part -/

/-- A taken write of a register that stores its value: the block's own acts, then the enable bits. -/
theorem ctlWriteBy_of_acts {s t u : State} {a : Agent} {b : Blk} {off d : Nat} {r : RegDef} {v w : Word} (h : s.Takes a b off r v)
    (hd : off - b.base = d) (hPage : d < 0xF000 ∨ 0x10000 ≤ d) (hDev : off ≠ R.DEV_CTL) (hShape : s.shaped b d v = w)
    (hCheck : s.valueChecked b d (s.reg off) w = false) (hSlot : ∀ p, b = .lp p → d ≠ 0x68 ∧ d ≠ 0x1070)
    (hActs : regActs b d off (s.reg off) w (s.stored b off r w) = t) (hEn : enableActs b d off (s.reg off) w t = u) :
    ctlWriteBy a off v 64 s = u := by
  subst hd hShape hActs hEn
  exact (ctlWriteBy_of_takes h).trans (ctlTake_plain hPage hDev hCheck hSlot)

/-- Only SPL checks whole values. -/
theorem valueChecked_of_ne {b : Blk} (s : State) (d : Nat) (old v : Word) (h : (b == .spl) = false) : s.valueChecked b d old v = false := by
  rw [State.valueChecked, h, Bool.false_and]

/-- A register without enable bits. -/
theorem enableActs_nil {b : Blk} {d off : Nat} {old v : Word} {t : State} (hb : enBits b d = []) : enableActs b d off old v t = t := by
  rw [enableActs, hb]
  rfl

/-- The one enable bit rises: its check is queued. -/
theorem enableActs_rise {b : Blk} {d off i : Nat} {old v : Word} {t : State} (hb : enBits b d = [i]) (hOld : fieldOf old i 1 = 0)
    (hNew : fieldOf v i 1 = 1) : enableActs b d off old v t = pushOnce off v (some i) t := by
  rw [enableActs, hb]
  exact if_pos (by rw [hOld, hNew]; rfl)

/-- The one enable bit stays as it is. -/
theorem enableActs_keep {b : Blk} {d off i : Nat} {old v : Word} {t : State} (hb : enBits b d = [i])
    (hKeep : fieldOf v i 1 = fieldOf old i 1) : enableActs b d off old v t = t := by
  rw [enableActs, hb]
  simp only [List.foldl_cons, List.foldl_nil, hKeep]
  rw [if_neg (by simp +contextual), if_neg (by simp +contextual)]

/-- Of two enable bits the first rises. -/
theorem enableActs_rise_first {b : Blk} {d off i j : Nat} {old v : Word} {t : State} (hb : enBits b d = [i, j])
    (hOld : fieldOf old i 1 = 0) (hNew : fieldOf v i 1 = 1) (hKeep : fieldOf v j 1 = fieldOf old j 1) :
    enableActs b d off old v t = pushOnce off v (some i) t := by
  rw [enableActs, hb]
  simp only [List.foldl_cons, List.foldl_nil, hKeep]
  rw [if_neg (by simp +contextual), if_neg (by simp +contextual), if_pos (by rw [hOld, hNew]; rfl)]

/-- Of two enable bits the second rises. -/
theorem enableActs_rise_second {b : Blk} {d off i j : Nat} {old v : Word} {t : State} (hb : enBits b d = [i, j])
    (hKeep : fieldOf v i 1 = fieldOf old i 1) (hOld : fieldOf old j 1 = 0) (hNew : fieldOf v j 1 = 1) :
    enableActs b d off old v t = pushOnce off v (some j) t := by
  rw [enableActs, hb]
  simp only [List.foldl_cons, List.foldl_nil, hKeep]
  rw [if_pos (by rw [hOld, hNew]; rfl), if_neg (by simp +contextual), if_neg (by simp +contextual)]

/-- A bit written into a value is in the value. -/
theorem fieldOf_setBit (v : Word) (i : Nat) (h : i + 1 ≤ 64) : fieldOf (withField v i 1 1) i 1 = 1 := fieldOf_withField_same v 1 h

/-! ### The blocks' enable registers -/

/-- The control register of a core block at offset 0, with one enable bit that rises and no other act. -/
theorem ctlWriteBy_enable {s : State} {a : Agent} {b : Blk} {off : Nat} {r : RegDef} {v : Word} (h : s.Takes a b off r v)
    (hd : off - b.base = 0) (hDev : off ≠ R.DEV_CTL) (hShape : s.shaped b 0 v = v) (hCheck : s.valueChecked b 0 (s.reg off) v = false)
    (hBits : enBits b 0 = [0]) (hActs : regActs b 0 off (s.reg off) v (s.stored b off r v) = s.stored b off r v)
    (hOld : fieldOf (s.reg off) 0 1 = 0) (hNew : fieldOf v 0 1 = 1) :
    ctlWriteBy a off v 64 s = pushOnce off v (some 0) (s.stored b off r v) :=
  ctlWriteBy_of_acts h hd (.inl (by decide)) hDev hShape hCheck (fun _ _ => by decide) hActs (enableActs_rise hBits hOld hNew)

/-- `SPL_CTL` written without CAL_FREEZE changing and without CAL_RESTART. -/
theorem splCtl_of_same {old v : Word} {s : State} (hFreeze : fieldOf v 2 1 = fieldOf old 2 1) (hRestart : fieldOf v 3 1 = 0) :
    splCtl old v s = s := by
  unfold splCtl
  simp only [hFreeze]
  rw [if_neg (by rw [hRestart]; decide), if_neg (by simp +contextual), if_neg (by simp +contextual)]

/-- Settles O35: the write is stored, and the bit's check waits. -/
theorem blockEnableResults : Obligations.BlockEnableResults := by
  refine ⟨?_, ?_, ?_, ?_, ?_, ?_, ?_, ?_, ?_, ?_⟩
  · exact fun s a v r h hOld => next_congr (ctlWriteBy_enable h rfl (by decide) rfl (valueChecked_of_ne _ _ _ _ rfl) rfl rfl hOld
      (fieldOf_setBit v 0 (by decide)))
  · exact fun s a v r h hOld => next_congr (ctlWriteBy_enable h rfl (by decide) rfl (valueChecked_of_ne _ _ _ _ rfl) rfl rfl hOld
      (fieldOf_setBit v 0 (by decide)))
  · exact fun s a v r h hOld => next_congr (ctlWriteBy_enable h rfl (by decide) rfl (valueChecked_of_ne _ _ _ _ rfl) rfl rfl hOld
      (fieldOf_setBit v 0 (by decide)))
  · exact fun s a v r h hOld => next_congr (ctlWriteBy_enable h rfl (by decide) rfl (valueChecked_of_ne _ _ _ _ rfl) rfl rfl hOld
      (fieldOf_setBit v 0 (by decide)))
  · exact fun s a v r h hOld => next_congr (ctlWriteBy_enable h rfl (by decide) rfl (valueChecked_of_ne _ _ _ _ rfl) rfl rfl hOld
      (fieldOf_setBit v 0 (by decide)))
  · exact fun s a v r h hOld hTrain => next_congr (ctlWriteBy_enable h rfl (by decide) rfl (valueChecked_of_ne _ _ _ _ rfl) rfl
      (if_neg (by rw [hTrain]; simp)) hOld (fieldOf_setBit v 0 (by decide)))
  · exact fun s a v r h hOld hNew => next_congr (ctlWriteBy_enable h rfl (by decide) rfl (valueChecked_of_ne _ _ _ _ rfl) rfl
      (by simp [regActs]) hOld hNew)
  · exact fun s a v r h hOld hFreeze hRestart => next_congr (ctlWriteBy_enable h rfl (by decide) rfl (by simp [State.valueChecked]) rfl
      (splCtl_of_same hFreeze hRestart) hOld (fieldOf_setBit v 0 (by decide)))
  · exact fun s a v r h hOld hTail => next_congr (ctlWriteBy_of_acts h (d := 0) rfl (.inl (by decide)) (by decide) rfl
      (valueChecked_of_ne _ _ _ _ rfl) (fun _ _ => by decide) rfl
      (enableActs_rise_first rfl hOld (fieldOf_setBit v 0 (by decide)) hTail))
  · exact fun s a v r h hKeep hOld hNew => next_congr (ctlWriteBy_of_acts h (d := 0) rfl (.inl (by decide)) (by decide) rfl
      (valueChecked_of_ne _ _ _ _ rfl) (fun _ _ => by decide) rfl (enableActs_rise_second rfl hKeep hOld hNew))

/-! ### The enable bits of windows, ranges, sources, cores, ports and envelopes -/

theorem off_iwin (w : Nat) : R.WXL_IWIN_CTL w - Blk.wxl.base = 0x10000 + 16 * w := by simp only [R.WXL_IWIN_CTL, Blk.base]; omega
theorem off_owin (m : Nat) : R.WXL_OWIN_CTL m - Blk.wxl.base = 0x20000 + 32 * m := by simp only [R.WXL_OWIN_CTL, Blk.base]; omega
theorem off_erng (g : Nat) : R.WXL_ERNG_CTL g - Blk.wxl.base = 0x40000 + 16 * g := by simp only [R.WXL_ERNG_CTL, Blk.base]; omega
theorem off_srcCfg (n : Nat) : R.ICU_SRC_CFG n - Blk.icu.base = 0x10000 + 8 * n := by simp only [R.ICU_SRC_CFG, Blk.base]; omega
theorem off_coreCtl (c : Nat) : R.GDC_CORE_CTL c - Blk.gdc.base = 0x1000 + 0x40 * c := by simp only [R.GDC_CORE_CTL, Blk.base]; omega
theorem off_lpCtl (p : Nat) : R.LPn_CTL p - (Blk.lp p).base = 0 := by simp only [R.LPn_CTL, portBase, Blk.base]; omega
theorem off_envCfg (e : Nat) : R.ENV_CFG e - Blk.spl.base = 0x10000 + 0x100 * e := by simp only [R.ENV_CFG, Blk.base]; omega

/-- Outside a range of offsets. -/
theorem not_within {d lo hi : Nat} (h : d < lo ∨ hi ≤ d) : ¬ (decide (lo ≤ d) && decide (d < hi)) = true := by
  rw [Bool.and_eq_true, decide_eq_true_eq, decide_eq_true_eq]
  omega

theorem enBits_iwin {w : Nat} (h : w < 4096) : enBits .wxl (0x10000 + 16 * w) = [0] := by
  rw [enBits, if_neg (not_within (by omega)), if_neg (not_within (by omega))]
  rw [if_neg (by omega), if_neg (by omega), if_pos (by omega), if_pos (by omega)]

theorem enBits_owin {m : Nat} (h : m < 4096) : enBits .wxl (0x20000 + 32 * m) = [0] := by
  rw [enBits, if_neg (not_within (by omega)), if_neg (not_within (by omega))]
  rw [if_neg (by omega), if_neg (by omega), if_neg (by omega), if_pos (by omega), if_pos (by omega)]

theorem enBits_erng (g : Nat) : enBits .wxl (0x40000 + 16 * g) = [0] := by
  rw [enBits, if_neg (not_within (by omega)), if_neg (not_within (by omega))]
  rw [if_neg (by omega), if_neg (by omega), if_neg (by omega), if_neg (by omega), if_pos (by omega)]

theorem enBits_srcCfg {n : Nat} (h : n < 1024) : enBits .icu (0x10000 + 8 * n) = [0] := by
  rw [enBits, if_neg (not_within (by omega)), if_neg (not_within (by omega))]
  rw [if_pos (by rw [Bool.or_eq_true, Bool.and_eq_true]; simp only [decide_eq_true_eq]; omega)]

theorem enBits_coreCtl {c : Nat} (h : c < 8) : enBits .gdc (0x1000 + 0x40 * c) = [0] := by
  rw [enBits, if_neg (not_within (by omega)), if_neg (not_within (by omega))]
  rw [if_pos (by rw [Bool.or_eq_true, Bool.and_eq_true, Bool.and_eq_true]; simp only [decide_eq_true_eq]; omega)]

theorem enBits_envCfg (e : Nat) : enBits .spl (0x10000 + 0x100 * e) = [0] := by
  rw [enBits, if_neg (not_within (by omega)), if_neg (not_within (by omega))]
  rw [if_pos (by rw [Bool.or_eq_true, Bool.and_eq_true]; simp only [decide_eq_true_eq]; omega)]

/-- The values written to a window's control, to an outbound window and to a range are stored as they come. -/
theorem shaped_wxl_ctl {s : State} {d : Nat} (v : Word) (h : d % 16 = 0) : s.shaped .wxl d v = v := by
  unfold State.shaped
  dsimp only
  rw [if_neg (by omega), if_neg (by simp only [Bool.and_eq_true, decide_eq_true_eq]; omega)]

theorem regActs_wxl_high {d off : Nat} {old v : Word} {s : State} (h : 0x1000 ≤ d) : regActs .wxl d off old v s = s := by
  unfold regActs
  dsimp only
  rw [if_neg (by omega), if_neg (by omega), if_neg (by omega)]

/-- An enable bit of WXL beyond its block registers rises. -/
theorem ctlWriteBy_wxl_rise {s : State} {a : Agent} {off d : Nat} {r : RegDef} {v : Word} (h : s.Takes a .wxl off r v)
    (hd : off - Blk.wxl.base = d) (hHigh : 0x10000 ≤ d) (hAlign : d % 16 = 0) (hBits : enBits .wxl d = [0])
    (hOld : fieldOf (s.reg off) 0 1 = 0) (hNew : fieldOf v 0 1 = 1) :
    ctlWriteBy a off v 64 s = pushOnce off v (some 0) (s.stored .wxl off r v) := by
  have hDev : off ≠ R.DEV_CTL := by
    rintro rfl
    subst hd
    exact absurd hHigh (by decide)
  exact ctlWriteBy_of_acts h hd (.inr hHigh) hDev (shaped_wxl_ctl v hAlign) (valueChecked_of_ne _ _ _ _ rfl) nofun
    (regActs_wxl_high (by omega)) (enableActs_rise hBits hOld hNew)

/-- What is shaped of a source's configuration is its TYPE alone. -/
theorem fieldOf_shaped_srcCfg (s : State) (n : Nat) (v : Word) : fieldOf (s.shaped .icu (0x10000 + 8 * n) v) 0 1 = fieldOf v 0 1 := by
  unfold State.shaped
  dsimp only
  split
  · exact fieldOf_withField_disjoint _ _ (.inr (by decide))
  · rfl

theorem regActs_srcCfg {n off : Nat} {old v : Word} {s : State} (h : n < 1024) :
    regActs .icu (0x10000 + 8 * n) off old v s = icuCfg n old s := by
  unfold regActs
  dsimp only
  rw [if_neg (by omega), if_neg (by simp only [Bool.and_eq_true, decide_eq_true_eq]; omega),
    if_pos (by simp only [Bool.and_eq_true, decide_eq_true_eq]; omega), idx]
  congr 1
  omega

/-- A core's control register without QUIESCE only stores. -/
theorem regActs_coreCtl {c off : Nat} {old v : Word} {s : State} (hQuiesce : fieldOf v 1 1 = 0) :
    regActs .gdc (0x1000 + 0x40 * c) off old v s = s := by
  unfold regActs
  dsimp only
  rw [if_neg (by omega), if_neg (by omega), if_neg (by omega), if_neg (by rw [hQuiesce]; simp)]

theorem regActs_lpCtl {p off : Nat} {old v : Word} {s : State} (hHold : fieldOf v 1 1 = fieldOf old 1 1) :
    regActs (.lp p) 0 off old v s = s := by
  unfold regActs
  dsimp only
  rw [if_pos rfl, hHold, if_neg (by simp +contextual)]

theorem regActs_envCfg {e off : Nat} {old v : Word} {s : State} : regActs .spl (0x10000 + 0x100 * e) off old v s = s := by
  unfold regActs
  dsimp only
  rw [if_neg (by omega)]

/-- An envelope that is not defined takes its configuration unchecked. -/
theorem valueChecked_envCfg {e : Nat} {old v : Word} (s : State) (hOld : fieldOf old 0 1 = 0) :
    s.valueChecked .spl (0x10000 + 0x100 * e) old v = false := by
  unfold State.valueChecked
  rw [hOld]
  simp
  omega

/-- `PRL_CTL` without HOLD_DISABLE, HANDOVER and HANDBACK. -/
theorem prlCtl_of_none {off : Nat} {old v : Word} {s : State} (hHold : fieldOf v 1 1 = 0) (hOver : fieldOf v 3 1 = 0)
    (hBack : fieldOf v 4 1 = 0) : prlCtl off old v s = s := by
  unfold prlCtl
  simp [hHold, hOver, hBack, noticeIf]

theorem regActs_prlCtl {old v : Word} {s : State} (hHold : fieldOf v 1 1 = 0) (hOver : fieldOf v 3 1 = 0)
    (hBack : fieldOf v 4 1 = 0) (hPair : fieldOf v 2 1 = fieldOf old 2 1 ∨ s.flits 6 = false) :
    regActs .prl 0 R.PRL_CTL old v s = s := by
  unfold regActs
  dsimp only
  rw [if_pos rfl, prlCtl_of_none hHold hOver hBack]
  refine if_neg ?_
  obtain h | h := hPair
  · rw [h]
    simp +contextual
  · rw [h]
    simp

/-- Settles O36: the write is stored, and the bit's check waits. -/
theorem indexedEnableResults : Obligations.IndexedEnableResults := by
  refine ⟨?_, ?_, ?_, ?_, ?_, ?_, ?_, ?_, ?_, ?_⟩
  · exact fun s a v r h hOld hHold hOver hBack hPair => next_congr (ctlWriteBy_of_acts h (d := 0) rfl (.inl (by decide)) (by decide) rfl
      (valueChecked_of_ne _ _ _ _ rfl) nofun (regActs_prlCtl hHold hOver hBack (.inl hPair))
      (enableActs_rise_first rfl hOld (fieldOf_setBit v 0 (by decide)) hPair))
  · exact fun s a v r h hHold hOver hBack hKeep hOld hNew hFlits => next_congr (ctlWriteBy_of_acts h (d := 0) rfl (.inl (by decide))
      (by decide) rfl (valueChecked_of_ne _ _ _ _ rfl) nofun (regActs_prlCtl hHold hOver hBack (.inr hFlits))
      (enableActs_rise_second rfl hKeep hOld hNew))
  · exact fun s a w v r hw h hOld hNew => (next_ite hw).trans (next_congr
      (ctlWriteBy_wxl_rise h (off_iwin w) (by omega) (by omega) (enBits_iwin hw) hOld hNew))
  · exact fun s a m v r hm h hOld hNew => (next_ite hm).trans (next_congr
      (ctlWriteBy_wxl_rise h (off_owin m) (by omega) (by omega) (enBits_owin hm) hOld hNew))
  · exact fun s a g v r hg h hOld hNew => (next_ite hg).trans (next_congr
      (ctlWriteBy_wxl_rise h (off_erng g) (by omega) (by omega) (enBits_erng g) hOld hNew))
  · exact fun s a n v r hn h hOld hNew => (next_ite hn).trans (next_congr (ctlWriteBy_of_acts h (off_srcCfg n) (.inr (by omega))
      (by unfold R.ICU_SRC_CFG R.DEV_CTL; omega) rfl (valueChecked_of_ne _ _ _ _ rfl) nofun (regActs_srcCfg hn)
      (enableActs_rise (enBits_srcCfg hn) hOld ((fieldOf_shaped_srcCfg s n v).trans hNew))))
  · exact fun s a c v r hc h hOld hNew hQuiesce => (next_ite hc).trans (next_congr (ctlWriteBy_of_acts h (off_coreCtl c) (.inl (by omega))
      (by unfold R.GDC_CORE_CTL R.DEV_CTL; omega) rfl (valueChecked_of_ne _ _ _ _ rfl) nofun (regActs_coreCtl hQuiesce)
      (enableActs_rise (enBits_coreCtl hc) hOld hNew)))
  · exact fun s a p v r hp h hOld hNew hHold => (next_ite (Nat.lt_succ_of_lt hp)).trans (next_congr (ctlWriteBy_of_acts h (off_lpCtl p)
      (.inl (by decide)) (by unfold R.LPn_CTL R.DEV_CTL portBase; omega) rfl (valueChecked_of_ne _ _ _ _ rfl) (fun _ _ => by decide)
      (regActs_lpCtl hHold) (enableActs_rise rfl hOld hNew)))
  · exact fun s a e v r he h hOld => (next_ite he).trans (next_congr (ctlWriteBy_of_acts h (off_envCfg e) (.inr (by omega))
      (by unfold R.ENV_CFG R.DEV_CTL; omega) rfl (valueChecked_envCfg s hOld) nofun regActs_envCfg
      (enableActs_rise (enBits_envCfg e) hOld (fieldOf_setBit v 0 (by decide)))))
  · exact fun s a v => rfl

end Sys2Proof.Machine
end

section
/-! PROOFS. What taken writes of the flash, link, window, Tail, SPL, envelope, interrupt, core and queue command registers do. -/
namespace Sys2Proof.Machine

open Sys2Proof

set_option Elab.async false

/-- A taken write of a register without enable bits: it is stored, and the block acts. -/
theorem ctlWriteBy_of_command {s t : State} {a : Agent} {b : Blk} {off d : Nat} {r : RegDef} {v : Word} (h : s.Takes a b off r v)
    (hd : off - b.base = d) (hPage : d < 0xF000 ∨ 0x10000 ≤ d) (hDev : off ≠ R.DEV_CTL) (hShape : s.shaped b d v = v)
    (hCheck : s.valueChecked b d (s.reg off) v = false) (hSlot : ∀ p, b = .lp p → d ≠ 0x68 ∧ d ≠ 0x1070) (hBits : enBits b d = [])
    (hActs : regActs b d off (s.reg off) v (s.stored b off r v) = t) : ctlWriteBy a off v 64 s = t :=
  ctlWriteBy_of_acts h hd hPage hDev hShape hCheck hSlot hActs (enableActs_nil hBits)

/-- The value of a field that was written into a word. -/
theorem fieldOf_setField (v : Word) (lo w n : Nat) (h : lo + w ≤ 64) (hn : n < 2 ^ w) : fieldOf (withField v lo w n) lo w = n := by
  rw [fieldOf_withField_same _ _ h, Nat.mod_eq_of_lt hn]

theorem fieldOf_orBit (v : Word) {i : Nat} (h : i < 64) : fieldOf (v ||| BitVec.ofNat 64 (2 ^ i)) i 1 = 1 := by
  refine Nat.eq_of_testBit_eq fun j => ?_
  rw [fieldOf_testBit]
  cases j with
  | zero => rw [Nat.add_zero, BitVec.getLsbD_or, BitVec.getLsbD_ofNat, Nat.testBit_two_pow_self, decide_eq_true h]; simp
  | succ j => simp [Nat.testBit_succ]

/-! ### Flash, link, windows, Tail, SPL -/

/-- `IMG_CTL` written with an operation. -/
theorem flashCtl_of_takes {s : State} {a : Agent} {op : Nat} {v : Word} {r : RegDef} (hOp : op < 4)
    (h : s.Takes a .img R.IMG_CTL r (withField v 8 2 op)) :
    flashCtl op a v s = imgOp op (s.stored .img R.IMG_CTL r (withField v 8 2 op)) := by
  refine ctlWriteBy_of_command h (d := 0) rfl (.inl (by decide)) (by decide) rfl (valueChecked_of_ne _ _ _ _ rfl) nofun rfl ?_
  exact congrArg (fun n => imgOp n (s.stored .img R.IMG_CTL r (withField v 8 2 op))) (fieldOf_setField v 8 2 op (by decide) hOp)

theorem regActs_retrain {off : Nat} {old v : Word} {s : State} (hOld : fieldOf old 1 1 = 0) (hNew : fieldOf v 1 1 = 1) :
    regActs .hep 0 off old v s = hostRetrain s := if_pos (by rw [hOld, hNew]; rfl)

/-- A register of WXL below the windows: only stored, or with the act of its offset. -/
theorem ctlWriteBy_wxl_command {s t : State} {a : Agent} {off d : Nat} {r : RegDef} {v : Word} (h : s.Takes a .wxl off r v)
    (hd : off - Blk.wxl.base = d) (hLow : d < 0x1000) (h0 : d ≠ 0) (h18 : d ≠ 0x18)
    (hActs : regActs .wxl d off (s.reg off) v (s.stored .wxl off r v) = t) : ctlWriteBy a off v 64 s = t := by
  have hShape : s.shaped .wxl d v = v := by
    unfold State.shaped
    dsimp only
    rw [if_neg h18, if_neg (by simp only [Bool.and_eq_true, decide_eq_true_eq]; omega)]
  have hBits : enBits .wxl d = [] := by
    rw [enBits, if_neg (not_within (by omega)), if_neg (not_within (by omega)), if_neg h0, if_pos (by omega)]
  have hDev : off ≠ R.DEV_CTL := by
    rintro rfl
    exact h0 (hd.symm.trans rfl)
  exact ctlWriteBy_of_command h hd (.inl (by omega)) hDev hShape (valueChecked_of_ne _ _ _ _ rfl) nofun hBits hActs

theorem enBits_tailSel {p : Nat} (h : p < 11) : enBits .swc (R.SWC_TAIL_SEL p - Blk.swc.base) = [] := by
  have hd : R.SWC_TAIL_SEL p - Blk.swc.base < 0xF000 ∧ R.SWC_TAIL_SEL p - Blk.swc.base ≠ 0 := by
    simp only [R.SWC_TAIL_SEL, Blk.base]
    omega
  obtain ⟨hLow, h0⟩ := hd
  rw [enBits, if_neg (not_within (by omega)), if_neg (not_within (by omega)), if_neg h0]

theorem splCtl_of_freeze {old v : Word} {s : State} (hOld : fieldOf old 2 1 = 0) (hNew : fieldOf v 2 1 = 1) (hRestart : fieldOf v 3 1 = 0) :
    splCtl old v s = s.put F.SPL_CAL_STATE_STATE 2 := by
  unfold splCtl
  simp only [hOld, hNew]
  rw [if_neg (by rw [hRestart]; decide), if_pos (by decide)]

theorem splCtl_of_restart {old v : Word} {s : State} (hFreeze : fieldOf v 2 1 = fieldOf old 2 1) (hRestart : fieldOf v 3 1 = 1) :
    splCtl old v s = calReload s := by
  unfold splCtl
  simp only [hFreeze]
  rw [if_pos hRestart, if_neg (by simp +contextual), if_neg (by simp +contextual)]

/-- `SPL_CTL` written without a change of its enable bit. -/
theorem ctlWriteBy_splCtl {s t : State} {a : Agent} {r : RegDef} {v : Word} (h : s.Takes a .spl R.SPL_CTL r v)
    (hKeep : fieldOf v 0 1 = fieldOf (s.reg R.SPL_CTL) 0 1) (hActs : splCtl (s.reg R.SPL_CTL) v (s.stored .spl R.SPL_CTL r v) = t) :
    ctlWriteBy a R.SPL_CTL v 64 s = t :=
  ctlWriteBy_of_acts h (d := 0) rfl (.inl (by decide)) (by decide) rfl (by simp [State.valueChecked]) nofun hActs
    (enableActs_keep rfl hKeep)

/-- Where SPL works, a new step size is checked before it acts (R217). -/
theorem ctlWriteBy_splStep_enabled {s : State} {a : Agent} {r : RegDef} {v : Word} (h : s.Takes a .spl R.SPL_STEP r v)
    (hEn : s.is F.SPL_CTL_ENABLE = true) : ctlWriteBy a R.SPL_STEP v 64 s = pushCheck R.SPL_STEP (v &&& r.known) none s := by
  rw [ctlWriteBy_of_takes h]
  unfold ctlTake
  dsimp only
  rw [if_neg (by decide), if_neg (by decide)]
  exact if_pos (by unfold State.valueChecked; rw [hEn]; rfl)

/-- Settles O37, command by command. -/
theorem commandRegisterResults : Obligations.CommandRegisterResults := by
  refine ⟨?_, ?_, ?_, ?_, ?_, ?_, ?_, ?_, ?_, ?_, ?_, ?_, ?_, ?_⟩
  · exact fun s a v r h => next_congr (flashCtl_of_takes (by decide) h)
  · exact fun s a v r h => next_congr (flashCtl_of_takes (by decide) h)
  · exact fun s a v r h => next_congr (flashCtl_of_takes (by decide) h)
  · exact fun s a v r h hOld hKeep => next_congr (ctlWriteBy_of_acts h (d := 0) rfl (.inl (by decide)) (by decide) rfl
      (valueChecked_of_ne _ _ _ _ rfl) nofun (regActs_retrain hOld (fieldOf_setBit v 1 (by decide))) (enableActs_keep rfl hKeep))
  · exact fun s a v r h => next_congr (ctlWriteBy_wxl_command h rfl (by decide) (by decide) (by decide) rfl)
  · exact fun s a v r h => next_congr (ctlWriteBy_wxl_command h rfl (by decide) (by decide) (by decide)
      (if_pos (fieldOf_setBit _ 63 (by decide))))
  · exact fun s a v r h => next_congr (ctlWriteBy_wxl_command h rfl (by decide) (by decide) (by decide)
      (if_pos (fieldOf_setBit _ 63 (by decide))))
  · exact fun s a v r h => next_congr (ctlWriteBy_wxl_command h rfl (by decide) (by decide) (by decide)
      (if_pos (fieldOf_orBit v (by decide))))
  · exact fun s a v r h => next_congr (ctlWriteBy_wxl_command h rfl (by decide) (by decide) (by decide) rfl)
  · exact fun s a p v r hp h => (next_ite hp).trans (next_congr (ctlWriteBy_of_command h rfl
      (.inl (by simp only [R.SWC_TAIL_SEL, Blk.base]; omega)) (by unfold R.SWC_TAIL_SEL R.DEV_CTL; omega) rfl
      (valueChecked_of_ne _ _ _ _ rfl) nofun (enBits_tailSel hp) rfl))
  · exact fun s a v r h hEn => next_congr (ctlWriteBy_of_command h (d := 0x10) rfl (.inl (by decide)) (by decide) rfl
      (by unfold State.valueChecked; rw [hEn]; simp) nofun rfl rfl)
  · exact fun s a v r h hEn => next_congr (ctlWriteBy_splStep_enabled h hEn)
  · exact fun s a v r h hKeep hOld hNew hRestart => next_congr (ctlWriteBy_splCtl h hKeep (splCtl_of_freeze hOld hNew hRestart))
  · exact fun s a v r h hKeep hFreeze => next_congr (ctlWriteBy_splCtl h hKeep (splCtl_of_restart hFreeze (fieldOf_setBit v 3 (by decide))))

/-! ### Envelopes, sources, cores -/

theorem enBits_envQblk {i : Nat} (h : i < 1024) : enBits .spl (0x8000 + 8 * i) = [] := by
  rw [enBits, if_neg (not_within (by omega)), if_neg (not_within (by omega)),
    if_neg (by rw [Bool.or_eq_true, Bool.and_eq_true]; simp only [decide_eq_true_eq]; omega)]

theorem off_envQblk (i : Nat) : R.ENV_QBLK i - Blk.spl.base = 0x8000 + 8 * i := by simp only [R.ENV_QBLK, Blk.base]; omega

theorem off_complete (c : Nat) : R.ICU_COMPLETE c - Blk.icu.base = 0x108 + 0x10 * c := by simp only [R.ICU_COMPLETE, Blk.base]; omega

theorem regActs_spl_high {d off : Nat} {old v : Word} {s : State} (h : d ≠ 0) : regActs .spl d off old v s = s := if_neg h

/-- A value that clears the enable bit is not checked as a whole. -/
theorem valueChecked_of_clear {d : Nat} {old v : Word} (s : State) (hStep : d ≠ 0x10) (hNew : fieldOf v 0 1 = 0) :
    s.valueChecked .spl d old v = false := by
  unfold State.valueChecked
  rw [hNew]
  simp [hStep]

theorem valueChecked_of_low {d : Nat} {old v : Word} (s : State) (hStep : d ≠ 0x10) (hLow : d < 0x10000) :
    s.valueChecked .spl d old v = false := by
  unfold State.valueChecked
  simp [hStep, Nat.not_le.2 hLow]

/-- The enable bit of an envelope falls: the envelope ends (R201). -/
theorem enableActs_envEnd {e off : Nat} {old v : Word} {t : State} (hOld : fieldOf old 0 1 = 1) (hNew : fieldOf v 0 1 = 0) :
    enableActs .spl (0x10000 + 0x100 * e) off old v t = envEnd e t := by
  have hIdx : idx (0x10000 + 0x100 * e) 0x10000 0x100 = e := by
    unfold idx
    omega
  rw [enableActs, enBits_envCfg]
  simp only [List.foldl_cons, List.foldl_nil]
  rw [if_neg (by rw [hOld]; simp), if_pos (by rw [hOld, hNew]; rfl), fallAct, if_neg (by omega), hIdx]

theorem fieldOf_ofNat_mod (n w : Nat) (h : w ≤ 64) : fieldOf (BitVec.ofNat 64 (n % 2 ^ w)) 0 w = n % 2 ^ w := by
  have hLt : n % 2 ^ w < 2 ^ 64 := lt_of_lt_of_le (Nat.mod_lt _ (Nat.two_pow_pos w)) (Nat.pow_le_pow_right (by decide) h)
  rw [fieldOf, BitVec.toNat_ofNat, Nat.mod_eq_of_lt hLt, Nat.shiftRight_zero, Nat.mod_mod]

theorem regActs_complete {c off n : Nat} {old : Word} {s : State} (h : c < 8) :
    regActs .icu (0x108 + 0x10 * c) off old (BitVec.ofNat 64 (n % 2 ^ 11)) s = icuDone c (n % 2 ^ 11) s := by
  have hIdx : idx (0x108 + 0x10 * c) 0x108 16 = c := by
    unfold idx
    omega
  unfold regActs
  dsimp only
  rw [if_neg (by omega), if_pos (by simp only [Bool.and_eq_true, decide_eq_true_eq]; omega), hIdx, fieldOf_ofNat_mod n 11 (by decide)]

/-- The first bits of ICU below the sources enable nothing. -/
theorem enBits_icu_low {d : Nat} (h0 : d ≠ 0) (h : d < 0x1000) : enBits .icu d = [] := by
  rw [enBits, if_neg (not_within (by omega)), if_neg (not_within (by omega)),
    if_neg (by rw [Bool.or_eq_true, Bool.and_eq_true]; simp only [decide_eq_true_eq]; omega)]

theorem shaped_icu_low {s : State} {d : Nat} (v : Word) (h : d < 0x1000) : s.shaped .icu d v = v :=
  if_neg (by simp only [Bool.and_eq_true, decide_eq_true_eq]; omega)

/-- A running core that is asked to quiesce begins to (R352). -/
theorem regActs_coreQuiesce {c off : Nat} {old v : Word} {s : State} (hc : c < 8) (hQuiesce : fieldOf v 1 1 = 1)
    (hRuns : s.get (F.GDC_CORE_STS_STATE c) = 1) :
    regActs .gdc (0x1000 + 0x40 * c) off old v s = s.put (F.GDC_CORE_STS_STATE c) 2 := by
  have hIdx : idx (0x1000 + 0x40 * c) 0x1000 0x40 = c := by
    unfold idx
    omega
  unfold regActs
  dsimp only
  rw [if_neg (by omega), if_neg (by omega), if_neg (by omega),
    if_pos (by simp only [Bool.and_eq_true, decide_eq_true_eq]; omega), hIdx, if_pos hRuns]

/-- `GDC_LOAD_CTL` written with an operation on the core that the value names. -/
theorem loadCtl_of_takes {s : State} {a : Agent} {op : Nat} {v : Word} {r : RegDef} (hOp : op < 4)
    (h : s.Takes a .gdc R.GDC_LOAD_CTL r (withField v 4 2 op)) :
    loadCtl a op v s = loadOp op (fieldOf v 0 3) (s.stored .gdc R.GDC_LOAD_CTL r (withField v 4 2 op)) := by
  refine ctlWriteBy_of_command h (d := 0x20) rfl (.inl (by decide)) (by decide) rfl (valueChecked_of_ne _ _ _ _ rfl) nofun rfl ?_
  unfold regActs
  dsimp only
  rw [if_pos rfl, fieldOf_setField v 4 2 op (by decide) hOp, fieldOf_withField_disjoint _ _ (.inr (by decide))]

/-- Settles O38, command by command. -/
theorem envelopeSourceCoreResults : Obligations.EnvelopeSourceCoreResults := by
  refine ⟨?_, ?_, ?_, ?_, ?_, ?_, ?_, ?_, ?_, ?_, ?_⟩
  · intro s a e v r he h hOld
    have hNew : fieldOf (withField v 0 1 0) 0 1 = 0 := fieldOf_setField v 0 1 0 (by decide) (by decide)
    exact (next_ite he).trans (next_congr (ctlWriteBy_of_acts h (off_envCfg e) (.inr (by omega))
      (by unfold R.ENV_CFG R.DEV_CTL; omega) rfl (valueChecked_of_clear s (by omega) hNew) nofun regActs_envCfg
      (enableActs_envEnd hOld hNew)))
  · exact fun s a e v r he h hOld hNew => (next_ite he).trans (next_congr (ctlWriteBy_of_acts h (off_envCfg e) (.inr (by omega))
      (by unfold R.ENV_CFG R.DEV_CTL; omega) rfl (valueChecked_envCfg s hOld) nofun regActs_envCfg
      (enableActs_keep (enBits_envCfg e) (hNew.trans hOld.symm))))
  · exact fun s a i v r hi h => (next_ite hi).trans (next_congr (ctlWriteBy_of_command h (off_envQblk i) (.inl (by omega))
      (by unfold R.ENV_QBLK R.DEV_CTL; omega) rfl (valueChecked_of_low s (by omega) (by omega)) nofun (enBits_envQblk hi)
      (regActs_spl_high (by omega))))
  · exact fun s a v r h => next_congr (ctlWriteBy_of_command h (d := 0x20) rfl (.inl (by decide)) (by decide) rfl
      (valueChecked_of_ne _ _ _ _ rfl) nofun rfl rfl)
  · exact fun s a n v r hn h hKeep => (next_ite hn).trans (next_congr (ctlWriteBy_of_acts h (off_srcCfg n) (.inr (by omega))
      (by unfold R.ICU_SRC_CFG R.DEV_CTL; omega) rfl (valueChecked_of_ne _ _ _ _ rfl) nofun (regActs_srcCfg hn)
      (enableActs_keep (enBits_srcCfg hn) ((fieldOf_shaped_srcCfg s n v).trans hKeep))))
  · exact fun s a c n r hc h => (next_ite hc).trans (next_congr (ctlWriteBy_of_command h (off_complete c) (.inl (by omega))
      (by unfold R.ICU_COMPLETE R.DEV_CTL; omega) (shaped_icu_low _ (by omega)) (valueChecked_of_ne _ _ _ _ rfl) nofun
      (enBits_icu_low (by omega) (by omega)) (regActs_complete hc)))
  · exact fun s a c v r hc h hKeep hRuns => (next_ite hc).trans (next_congr (ctlWriteBy_of_acts h (off_coreCtl c) (.inl (by omega))
      (by unfold R.GDC_CORE_CTL R.DEV_CTL; omega) rfl (valueChecked_of_ne _ _ _ _ rfl) nofun
      (regActs_coreQuiesce hc (fieldOf_setBit v 1 (by decide)) hRuns) (enableActs_keep (enBits_coreCtl hc) hKeep)))
  · exact fun s a v r h => next_congr (loadCtl_of_takes (by decide) h)
  · exact fun s a v r h => next_congr (loadCtl_of_takes (by decide) h)
  · exact fun s a v r h => next_congr (loadCtl_of_takes (by decide) h)
  · exact fun s a v r h => next_congr (ctlWriteBy_of_command h (d := 0x30) rfl (.inl (by decide)) (by decide) rfl
      (valueChecked_of_ne _ _ _ _ rfl) nofun rfl rfl)

/-! ### Queue commands -/

theorem off_qcmd (k : Nat) : R.QEN_QCMD k - Blk.qen.base = 0x1000 + 0x100 * k := by simp only [R.QEN_QCMD, Blk.base]; omega

theorem fieldOf_queueCmd {op q : Nat} (hOp : op < 16) (hq : q < 2 ^ 22) :
    fieldOf (BitVec.ofNat 64 (op * 2 ^ 32 + q)) 0 22 = q ∧ fieldOf (BitVec.ofNat 64 (op * 2 ^ 32 + q)) 32 4 = op := by
  have hLt : op * 2 ^ 32 + q < 2 ^ 64 := by omega
  simp only [fieldOf, BitVec.toNat_ofNat, Nat.mod_eq_of_lt hLt, Nat.shiftRight_eq_div_pow]
  omega

theorem regActs_qcmd {k q op off : Nat} {old : Word} {s : State} (hOp : op < 16) (hq : q < 2 ^ 22) :
    regActs .qen (0x1000 + 0x100 * k) off old (BitVec.ofNat 64 (op * 2 ^ 32 + q)) s
      = qArrive q (.command k op) (s.put (F.QEN_QCMD_STS_BUSY k) 1) := by
  have hIdx : idx (0x1000 + 0x100 * k) 0x1000 0x100 = k := by
    unfold idx
    omega
  obtain ⟨hQueue, hCode⟩ := fieldOf_queueCmd hOp hq
  unfold regActs
  dsimp only
  rw [if_pos (by simp only [Bool.and_eq_true, decide_eq_true_eq]; omega), hIdx, hQueue, hCode]

/-- A taken write of a queue command's slot hands the command to the queue (R162). -/
theorem queueCmd_of_takes {s : State} {a : Agent} {op k q : Nat} {r : RegDef} (hOp : op < 16) (hkq : k < 9 ∧ q < 2 ^ 22)
    (h : s.Takes a .qen (R.QEN_QCMD k) r (BitVec.ofNat 64 (op * 2 ^ 32 + q))) :
    queueCmd op k q a s = qArrive q (.command k op)
      ((s.stored .qen (R.QEN_QCMD k) r (BitVec.ofNat 64 (op * 2 ^ 32 + q))).put (F.QEN_QCMD_STS_BUSY k) 1) := by
  obtain ⟨hk, hq⟩ := hkq
  have hBits : enBits .qen (0x1000 + 0x100 * k) = [] := by
    unfold enBits
    rw [if_neg (not_within (by omega)), if_neg (not_within (by omega))]
    exact if_neg (by omega)
  rw [queueCmd_eq hk hq]
  exact ctlWriteBy_of_command h (off_qcmd k) (.inl (by omega)) (by unfold R.QEN_QCMD R.DEV_CTL; omega) rfl
    (valueChecked_of_ne _ _ _ _ rfl) nofun hBits (regActs_qcmd hOp hq)

/-- Settles O39: nine codes, one write. -/
theorem queueCommandResults : Obligations.QueueCommandResults :=
  ⟨fun _ _ _ _ _ hkq h => next_congr (queueCmd_of_takes (by decide) hkq h),
    fun _ _ _ _ _ hkq h => next_congr (queueCmd_of_takes (by decide) hkq h),
    fun _ _ _ _ _ hkq h => next_congr (queueCmd_of_takes (by decide) hkq h),
    fun _ _ _ _ _ hkq h => next_congr (queueCmd_of_takes (by decide) hkq h),
    fun _ _ _ _ _ hkq h => next_congr (queueCmd_of_takes (by decide) hkq h),
    fun _ _ _ _ _ hkq h => next_congr (queueCmd_of_takes (by decide) hkq h),
    fun _ _ _ _ _ hkq h => next_congr (queueCmd_of_takes (by decide) hkq h),
    fun _ _ _ _ _ hkq h => next_congr (queueCmd_of_takes (by decide) hkq h),
    fun _ _ _ _ _ hkq h => next_congr (queueCmd_of_takes (by decide) hkq h)⟩

end Sys2Proof.Machine
end

section
/-! PROOFS. The write of `PRL_CTL` that HOLD_DISABLE of port 6 is carries the bit. -/
namespace Sys2Proof.Machine

open Sys2Proof

set_option Elab.async false

/-- In RUN of configuration PAIR, HOLD_DISABLE of port 6 with the value 0 sets the bit, and a write of 0 to `PRL_CTL` does not. -/
theorem holdDisable_six_sets : 
    (doHoldDisable .pf0 6 0 { dev := { mode := .run, up := true }, img := { cfg := 3 } }).reg R.PRL_CTL
      ≠ (ctlWriteBy .pf0 R.PRL_CTL 0 64 { dev := { mode := .run, up := true }, img := { cfg := 3 } }).reg R.PRL_CTL := by
  decide +kernel

/-- Refutes O40: for port 6 the statement writes `v` itself to `PRL_CTL`, while HOLD_DISABLE writes `v` with bit 1 set; from RUN in
configuration PAIR with `v` 0 the register differs. -/
theorem not_portCommandResults : ¬ Obligations.PortCommandResults := by
  rintro ⟨-, -, -, -, -, -, -, -, -, -, hSix⟩
  have hSame := hSix { dev := { mode := .run, up := true }, img := { cfg := 3 } } .pf0 0
  exact holdDisable_six_sets (congrArg (fun t : State => t.reg R.PRL_CTL) (Host.Outcome.next.inj hSame))

end Sys2Proof.Machine
end

section
/-! PROOFS. What the spool's own ticks and windows do (spec/09). -/
namespace Sys2Proof.Machine

open Sys2Proof

set_option Elab.async false

/-! ### Reconciliation (R208, R209) -/

/-- What a monitor takes is written in its own register. -/
theorem monTake_reg {n mw uj o : Nat} {s : State} (h : o ≠ R.PWR_MON n) : (monTake n mw uj s).reg o = s.reg o :=
  (State.reg_put_other _ _ h).trans (State.reg_put_other _ _ h)

theorem monTake_spl (n mw uj : Nat) (s : State) : (monTake n mw uj s).spl = s.spl := rfl

/-- The state after the eight monitors have taken an interval's readings. -/
def monitored (mw uj : List Nat) (s : State) : State :=
  monTake 7 (sumList (mw.take 7)) (sumList (uj.take 7))
    ((List.range 7).foldl (fun t n => monTake n (mw.getD n 0) (uj.getD n 0) t) s)

theorem foldl_monTake_reg {mw uj l : List Nat} {o : Nat} {s : State} (h : ∀ n ∈ l, o ≠ R.PWR_MON n) :
    (l.foldl (fun t n => monTake n (mw.getD n 0) (uj.getD n 0) t) s).reg o = s.reg o := by
  induction l generalizing s with
  | nil => rfl
  | cons n l ih => exact (ih fun m hm => h m (by simp [hm])).trans (monTake_reg (h n (by simp)))

theorem foldl_monTake_spl (mw uj l : List Nat) (s : State) :
    (l.foldl (fun t n => monTake n (mw.getD n 0) (uj.getD n 0) t) s).spl = s.spl := by
  induction l generalizing s with
  | nil => rfl
  | cons n l ih => exact (ih _).trans (monTake_spl _ _ _ s)

theorem monitored_reg {mw uj : List Nat} {o : Nat} {s : State} (h : ∀ n, n < 8 → o ≠ R.PWR_MON n) : (monitored mw uj s).reg o = s.reg o :=
  (monTake_reg (h 7 (by decide))).trans (foldl_monTake_reg fun n hn => h n (Nat.lt_succ_of_lt (List.mem_range.1 hn)))

theorem monitored_spl (mw uj : List Nat) (s : State) : (monitored mw uj s).spl = s.spl :=
  (monTake_spl _ _ _ _).trans (foldl_monTake_spl mw uj _ s)

/-- The state in which an interval's charge starts anew. -/
def reconciled (mw uj : List Nat) (s : State) : State :=
  { monitored mw uj s with spl := { (monitored mw uj s).spl with charged := 0, intervalOk := s.dev.mode.running } }

/-- The residual has moved by the difference of what was measured and what was charged. -/
def residualMoved (m c : Nat) (s : State) : State :=
  let s1 := s.setReg R.SPL_RESIDUAL (s.reg R.SPL_RESIDUAL + BitVec.ofNat 64 m - BitVec.ofNat 64 c)
  if m < c then s1.bump F.SPL_STS_NEG_RESID else s1

/-- The interval's sample is kept for the calibration. -/
def sampled (m c : Nat) (s : State) : State :=
  let s1 : State := { s with spl := { s.spl with samples := s.spl.samples ++ [(m, c)] } }
  s1.put F.SPL_CAL_STATE_INTERVALS (min 999 s1.spl.samples.length)

theorem doReconciliationInterval_of_off {mw uj : List Nat} {s : State} (hLock : s.is F.CLK_STS_ROOT_LOCK = true)
    (hEn : s.is F.PWR_CTL_ENABLE = false) : doReconciliationInterval mw uj s = reconciled mw uj s := by
  unfold doReconciliationInterval
  rw [if_neg (by rw [hLock]; decide)]
  exact if_pos (by rw [hEn]; rfl)

theorem doReconciliationInterval_of_on {mw uj : List Nat} {s : State} (hLock : s.is F.CLK_STS_ROOT_LOCK = true)
    (hEn : s.is F.PWR_CTL_ENABLE = true) :
    doReconciliationInterval mw uj s =
      let t := residualMoved (sumList (uj.take 7) * 1000) s.spl.charged (reconciled mw uj s)
      if s.spl.intervalOk && s.spl.samples.length < 1000 then sampled (sumList (uj.take 7) * 1000) s.spl.charged t else t := by
  unfold doReconciliationInterval
  rw [if_neg (by rw [hLock]; decide)]
  exact if_neg (by rw [hEn]; decide)

theorem reconciled_regs (mw uj : List Nat) (s : State) (o : Nat) : (reconciled mw uj s).reg o = (monitored mw uj s).reg o := by
  unfold reconciled
  rfl

theorem reconciled_reg {mw uj : List Nat} {o : Nat} {s : State} (h : ∀ n, n < 8 → o ≠ R.PWR_MON n) :
    (reconciled mw uj s).reg o = s.reg o := by
  rw [reconciled_regs, monitored_reg h]

theorem reconciled_spl (mw uj : List Nat) (s : State) :
    (reconciled mw uj s).spl = { s.spl with charged := 0, intervalOk := s.dev.mode.running } := by
  rw [← monitored_spl mw uj s]
  rfl

theorem residualMoved_spl (m c : Nat) (s : State) : (residualMoved m c s).spl = s.spl := by
  unfold residualMoved
  dsimp only
  split <;> rfl

theorem residualMoved_residual (m c : Nat) (s : State) :
    (residualMoved m c s).reg R.SPL_RESIDUAL = s.reg R.SPL_RESIDUAL + BitVec.ofNat 64 m - BitVec.ofNat 64 c := by
  unfold residualMoved
  dsimp only
  split
  · rw [State.reg_bump_other _ (by decide), State.reg_setReg_same]
  · rw [State.reg_setReg_same]

theorem sampled_reg {m c o : Nat} {s : State} (h : o ≠ R.SPL_CAL_STATE) : (sampled m c s).reg o = s.reg o :=
  (State.reg_put_other _ _ h).trans rfl

theorem sampled_spl (m c : Nat) (s : State) : (sampled m c s).spl = { s.spl with samples := s.spl.samples ++ [(m, c)] } := rfl

/-- Charge, residual and the count of negative residuals after an interval's balance. -/
theorem residualMoved_reconciled (mw uj : List Nat) (m : Nat) (s : State) :
    (residualMoved m s.spl.charged (reconciled mw uj s)).spl = { s.spl with charged := 0, intervalOk := s.dev.mode.running }
      ∧ (residualMoved m s.spl.charged (reconciled mw uj s)).reg R.SPL_RESIDUAL
        = s.reg R.SPL_RESIDUAL + BitVec.ofNat 64 m - BitVec.ofNat 64 s.spl.charged
      ∧ (m < s.spl.charged → (residualMoved m s.spl.charged (reconciled mw uj s)).get F.SPL_STS_NEG_RESID
        = satAdd 16 (s.get F.SPL_STS_NEG_RESID) 1)
      ∧ (s.spl.charged ≤ m → (residualMoved m s.spl.charged (reconciled mw uj s)).get F.SPL_STS_NEG_RESID
        = s.get F.SPL_STS_NEG_RESID) := by
  have hSts : (reconciled mw uj s).get F.SPL_STS_NEG_RESID = s.get F.SPL_STS_NEG_RESID := by
    rw [State.get, reconciled_reg (by decide), State.get]
  refine ⟨by rw [residualMoved_spl, reconciled_spl], by rw [residualMoved_residual, reconciled_reg (by decide)], fun h => ?_, fun h => ?_⟩
  · rw [residualMoved, if_pos h, State.get_bump _ (by decide), State.get, State.reg_setReg_other _ _ (by decide)]
    exact congrArg (fun n => min (n + 1) (2 ^ 16 - 1)) hSts
  · rw [residualMoved, if_neg (Nat.not_lt.2 h), State.get, State.reg_setReg_other _ _ (by decide)]
    exact hSts

/-- What an interval under management leaves: charge, residual, samples and the count of negative residuals (R209). -/
theorem exec_reconciliationInterval_of_on {mw uj : List Nat} {s : State} (hLock : s.is F.CLK_STS_ROOT_LOCK = true)
    (hEn : s.is F.PWR_CTL_ENABLE = true) :
    ∃ t, exec (.reconciliationInterval mw uj) s = .next t ∧ t.spl.charged = 0 ∧ t.spl.intervalOk = s.dev.mode.running
      ∧ t.reg R.SPL_RESIDUAL = s.reg R.SPL_RESIDUAL + BitVec.ofNat 64 (sumList (uj.take 7) * 1000) - BitVec.ofNat 64 s.spl.charged
      ∧ t.spl.samples = (if s.spl.intervalOk && s.spl.samples.length < 1000 then
          s.spl.samples ++ [(sumList (uj.take 7) * 1000, s.spl.charged)] else s.spl.samples)
      ∧ (sumList (uj.take 7) * 1000 < s.spl.charged → t.get F.SPL_STS_NEG_RESID = satAdd 16 (s.get F.SPL_STS_NEG_RESID) 1)
      ∧ (s.spl.charged ≤ sumList (uj.take 7) * 1000 → t.get F.SPL_STS_NEG_RESID = s.get F.SPL_STS_NEG_RESID) := by
  generalize hm : sumList (uj.take 7) * 1000 = m
  have hNext := doReconciliationInterval_of_on (mw := mw) (uj := uj) hLock hEn
  rw [hm] at hNext
  obtain ⟨hSpl, hRes, hLess, hMore⟩ := residualMoved_reconciled mw uj m s
  dsimp only at hNext
  cases hOk : (s.spl.intervalOk && decide (s.spl.samples.length < 1000)) with
  | false =>
    rw [hOk, if_neg Bool.false_ne_true] at hNext
    exact ⟨_, next_congr hNext, by rw [hSpl], by rw [hSpl], hRes, by rw [hSpl]; rfl, hLess, hMore⟩
  | true =>
    rw [hOk, if_pos rfl] at hNext
    refine ⟨_, next_congr hNext, ?_, ?_, ?_, ?_, fun h => ?_, fun h => ?_⟩
    · rw [sampled_spl, hSpl]
    · rw [sampled_spl, hSpl]
    · rw [sampled_reg (by decide), hRes]
    · rw [sampled_spl, hSpl]
      rfl
    · rw [State.get, sampled_reg (by decide)]
      exact hLess h
    · rw [State.get, sampled_reg (by decide)]
      exact hMore h

/-! ### Calibration (R210) -/

theorem calWindow_reg {o : Nat} {s : State} (h : o ≠ R.SPL_CAL_STATE) : (calWindow s).reg o = s.reg o :=
  (State.reg_put_other (f := F.SPL_CAL_STATE_INTERVALS) s 0 h).symm ▸ rfl

theorem doCalibrationWindowEnd_of_fit {s : State} {kn kd bn bd : Int} (hFull : 1000 ≤ s.spl.samples.length)
    (hState : s.get F.SPL_CAL_STATE_STATE ≠ 2) (hWide : calNarrow s.spl.samples = false) (hFit : calFit s = (kn, kd, bn, bd)) :
    doCalibrationWindowEnd s =
      if s.get F.SPL_CAL_STATE_STATE = 1 then
        (if 20 * kn < 19 * kd then calAccept 19 20 bn bd s
         else if 21 * kd < 20 * kn then calAccept 21 20 bn bd s
         else calAccept kn kd bn bd s)
      else if 2 * kn < kd || 2 * kd < kn then
        calWindow (faultEvent .spl 2 (BitVec.ofInt 64 (nearest (4096 * kn) kd)).toNat s)
      else calAccept kn kd bn bd s := by
  unfold doCalibrationWindowEnd
  rw [if_neg (Nat.not_lt.2 hFull), if_neg hState, if_neg (by rw [hWide]; exact Bool.false_ne_true), hFit]

/-- Settles O41, command by command. -/
theorem spoolResults : Obligations.SpoolResults := by
  refine ⟨?_, ?_, ?_, ?_, ?_, ?_, ?_, ?_⟩
  · exact fun s hUp hEn => next_congr (if_neg (by rw [hUp, hEn]; decide))
  · intro s mw uj hLock hEn
    refine ⟨_, next_congr (doReconciliationInterval_of_off hLock hEn), reconciled_reg (by decide), ?_, ?_, ?_⟩
    all_goals rw [reconciled_spl]
  · exact fun s mw uj hLock hEn => exec_reconciliationInterval_of_on hLock hEn
  · intro s hFull hState
    refine next_congr ?_
    rw [doCalibrationWindowEnd, if_neg (Nat.not_lt.2 hFull), if_pos hState]
  · intro s hFull hState hNarrow
    refine next_congr ?_
    rw [doCalibrationWindowEnd, if_neg (Nat.not_lt.2 hFull), if_neg hState, if_pos hNarrow]
  · intro s kn kd bn bd hFull hState hWide hFit hFar
    have hNext := doCalibrationWindowEnd_of_fit hFull (by rw [hState]; decide) hWide hFit
    rw [if_neg (by rw [hState]; decide), if_pos (by simpa using hFar)] at hNext
    refine ⟨_, next_congr hNext, fun j hj => ?_, ?_⟩
    · rw [calWindow_reg (by unfold R.SPL_COEF R.SPL_CAL_STATE; omega)]
      exact faultEvent_reg (by decide) (by decide) (.inl (by unfold R.SPL_COEF; simp only [Blk.base]; omega))
        (.inl (by unfold R.SPL_COEF; omega))
    · rw [calWindow_reg (by decide)]
      exact faultEvent_reg (by decide) (by decide) (by decide) (by decide)
  · intro s kn kd bn bd hFull hState hWide hFit hLo hHi
    have hNext := doCalibrationWindowEnd_of_fit hFull (by rw [hState]; decide) hWide hFit
    rw [if_neg (by rw [hState]; decide), if_neg (by simp only [Bool.or_eq_true, decide_eq_true_eq]; omega)] at hNext
    exact next_congr hNext
  · intro s kn kd bn bd hFull hState hWide hFit
    exact next_congr ((doCalibrationWindowEnd_of_fit hFull (by rw [hState]; decide) hWide hFit).trans (if_pos hState))

end Sys2Proof.Machine
end

section
/-! PROOFS. What the switch core does at an input, at an output and at the Tail (spec/10). -/
namespace Sys2Proof.Machine

open Sys2Proof

set_option Elab.async false

/-! ### Inputs and outputs -/

/-- The frame that waits at an input, where both its ends work. -/
theorem doFrameAdmit_of_frame {i : Nat} {f : Frame} {s : State} (hFind : (s.swc.inject.find? fun x => x.inp == i) = some f)
    (hEnds : s.endsEnabled f = true) : doFrameAdmit i s = inputSync i (if f.mcast then admitMc f s else admitOne f s) := by
  unfold doFrameAdmit
  rw [hFind]
  exact if_neg (by rw [hEnds]; decide)

theorem doFrameAdmit_of_single {i : Nat} {f : Frame} {s : State} (hFind : (s.swc.inject.find? fun x => x.inp == i) = some f)
    (hEnds : s.endsEnabled f = true) (hMc : f.mcast = false) : doFrameAdmit i s = inputSync i (admitOne f s) := by
  rw [doFrameAdmit_of_frame hFind hEnds, if_neg (by rw [hMc]; exact Bool.false_ne_true)]

theorem doFrameAdmit_of_closed {i : Nat} {f : Frame} {s : State} (hFind : (s.swc.inject.find? fun x => x.inp == i) = some f)
    (hEnds : s.endsEnabled f = false) : doFrameAdmit i s = s := by
  unfold doFrameAdmit
  rw [hFind]
  exact if_pos (by rw [hEnds]; rfl)

/-- What becomes of a frame for one output, by the outcome of Table 10.4. -/
theorem admitOne_of_into {f : Frame} {p : Pool} {s : State} (h : s.admission f = .into p) : admitOne f s = enqueue f p (uninject f s) := by
  unfold admitOne
  rw [h]

theorem admitOne_of_wait {f : Frame} {s : State} (h : s.admission f = .wait) : admitOne f s = s := by
  unfold admitOne
  rw [h]

theorem admitOne_of_evict {f : Frame} {vs : List Frame} {s : State} (h : s.admission f = .evict vs) :
    admitOne f s = enqueue f .shared (vs.foldl (fun t v => evictOne v t) (uninject f s)) := by
  unfold admitOne
  rw [h]

theorem admitOne_of_flushed {f : Frame} {s : State} (h : s.admission f = .flushed) : admitOne f s = answerFlushed f (uninject f s) := by
  unfold admitOne
  rw [h]

theorem admitOne_of_fallback {f : Frame} {s : State} (h : s.admission f = .fallback) :
    admitOne f s = answerFlushed f (portDrop (f.out - 4) (uninject f s)) := by
  unfold admitOne
  rw [h]

theorem doEvictionRetry_of_cons {f : Frame} {l : List Frame} {s : State} (hRetry : s.swc.retry = f :: l) (hTyp : f.typ ≠ .prefData) :
    doEvictionRetry s = ({ s with swc := { s.swc with retry := l } } : State).inject f := by
  unfold doEvictionRetry
  rw [hRetry]
  exact if_neg (by rw [beq_iff_eq]; exact hTyp)

theorem doOutputGrant_of_pick {p : Nat} {f : Frame} {s : State} (hPort : s.switchPorts.contains p = true)
    (hPick : s.grantPick p ((orderedAt p [] (s.swc.queued.filter fun x => x.typ != .prefData)).filter (s.canTake p)) = some f) :
    doOutputGrant p s = leave p f (depart p f s) := by
  unfold doOutputGrant
  rw [if_neg (by rw [hPort]; decide)]
  dsimp only
  rw [hPick]

theorem doMulticastGhlExpiry_of_found {p : Nat} {f : Frame} {s : State} (hFind : (s.swc.queued.find? fun x => x.mcast && x.owes p) = some f) :
    doMulticastGhlExpiry p s = mcOver [f] { mcDropOne p .portDown f s with
      swc := { (mcDropOne p .portDown f s).swc with
        queued := (mcDropOne p .portDown f s).swc.queued.filterMap fun g => if g = f then f.without p else some g } } := by
  unfold doMulticastGhlExpiry
  rw [hFind]

/-! ### The Tail (R229, R230) -/

theorem swcPeaks_swc (p : Nat) (s : State) : (swcPeaks p s).swc = s.swc := by
  unfold swcPeaks State.peak
  dsimp only
  split <;> split <;> rfl

/-- An admitted frame is the last of the queued ones, and the switch core keeps the rest. -/
theorem enqueue_swc (f : Frame) (pl : Pool) (s : State) :
    (enqueue f pl s).swc = { s.swc with queued := s.swc.queued ++ [{ f with pool := pl, admTime := s.dev.time }] } := swcPeaks_swc _ _

theorem enqueue_out (f : Frame) (pl : Pool) (s : State) : (enqueue f pl s).out = s.out :=
  (enqueue_change (List.Subset.refl _) (.refl _ s)).keep .out (by decide)

theorem enqueue_mem (f : Frame) (pl : Pool) (s : State) : (enqueue f pl s).mem = s.mem := mem_of_law enqueue_change

/-- One record with room is taken whole. -/
theorem tailTake_one {room : Nat → Bool} {rec : List Byte} {wr k : Nat} (hRoom : room wr = true) (hk : k ≠ 0) :
    tailTake room [rec] wr k = ([rec], [], 0) := by
  rw [tailTake, if_neg hk, if_pos hRoom]
  rfl

/-- The batch of one record at the write index. -/
def oneBatch (rec : List Byte) (s : State) : Frame :=
  { typ := .tailBatch, cls := 7, inp := 2, out := 2, addr := 7 * 2 ^ 44 + s.get F.SWC_TAIL_BASE_BASE * 4096 + 64 * s.get F.SWC_TAIL_WR_INDEX,
    len := 64, data := tailSet rec (s.swc.tailSeq + 1) 0, noEvict := true, origin := .tail }

/-- One more record has its number. -/
def numbered (s : State) : State := { s with swc := { s.swc with tailSeq := (s.swc.tailSeq + 1) % 2 ^ 32 } }

theorem numbered_swc (s : State) : (numbered s).swc = { s.swc with tailSeq := (s.swc.tailSeq + 1) % 2 ^ 32 } := rfl
theorem numbered_out (s : State) : (numbered s).out = s.out := rfl
theorem numbered_mem (s : State) : (numbered s).mem = s.mem := rfl

/-- One staged record with room in the ring is written, and numbered. -/
theorem doTailBatchWrite_of_one {rec : List Byte} {p : Pool} {s : State} (hStaged : s.swc.staged = [rec]) (hRun : s.swc.tailRun = true)
    (hMode : s.dev.mode.serving = true) (hLost : s.swc.tailLost = 0) (hFly : s.tailFlying = 0)
    (hRoom : (s.get F.SWC_TAIL_WR_INDEX + 1) % 2 ^ s.get F.SWC_TAIL_SIZE_LOG2 ≠ s.get F.SWC_TAIL_RD_INDEX)
    (hIndex : s.get F.SWC_TAIL_WR_INDEX < 2 ^ s.get F.SWC_TAIL_SIZE_LOG2)
    (hAdm : ({ s with swc := { s.swc with staged := [] } } : State).admission (oneBatch rec s) = .into p) :
    doTailBatchWrite s =
      numbered (enqueue (oneBatch rec s) p { s with swc := { s.swc with staged := [] } }) := by
  have hWr : (s.get F.SWC_TAIL_WR_INDEX + s.tailFlying) % 2 ^ s.get F.SWC_TAIL_SIZE_LOG2 = s.get F.SWC_TAIL_WR_INDEX := by
    rw [hFly, Nat.add_zero, Nat.mod_eq_of_lt hIndex]
  have hFree : min 4 (2 ^ s.get F.SWC_TAIL_SIZE_LOG2 - s.get F.SWC_TAIL_WR_INDEX) ≠ 0 := by omega
  have hTake := tailTake_one (rec := rec) (wr := s.get F.SWC_TAIL_WR_INDEX)
    (room := fun k => s.is F.SWC_TAIL_SIZE_WRAP || (k + 1) % 2 ^ s.get F.SWC_TAIL_SIZE_LOG2 != s.get F.SWC_TAIL_RD_INDEX)
    (by rw [bne_iff_ne.2 hRoom, Bool.or_true]) hFree
  have hPre : decide (0 < s.swc.tailLost) = false := by rw [hLost]; decide
  have hData : (List.range 1).flatMap (fun i => tailSet ([rec].getD i []) (s.swc.tailSeq + i + 1) 0) = tailSet rec (s.swc.tailSeq + 1) 0 :=
    List.append_nil _
  unfold doTailBatchWrite
  rw [if_neg (by rw [hStaged, hRun, hMode]; simp)]
  unfold oneBatch at hAdm ⊢
  simp only [hWr, hPre, hStaged, Bool.false_and, Bool.false_eq_true, if_false, if_true, hTake, List.nil_append, List.length_singleton, hData,
    Nat.mul_one, List.isEmpty_cons, hAdm]
  rfl

/-- Settles O42, command by command. -/
theorem switchResults : Obligations.SwitchResults := by
  refine ⟨?_, ?_, ?_, ?_, ?_, ?_, ?_, ?_, ?_, ?_, ?_, ?_, ?_⟩
  · exact fun s i f p hFind hEnds hMc hAdm =>
      next_congr ((doFrameAdmit_of_single hFind hEnds hMc).trans (congrArg (inputSync i) (admitOne_of_into hAdm)))
  · exact fun s i f hFind hEnds hMc hAdm =>
      next_congr ((doFrameAdmit_of_single hFind hEnds hMc).trans (congrArg (inputSync i) (admitOne_of_wait hAdm)))
  · exact fun s i f vs hFind hEnds hMc hAdm =>
      next_congr ((doFrameAdmit_of_single hFind hEnds hMc).trans (congrArg (inputSync i) (admitOne_of_evict hAdm)))
  · exact fun s i f hFind hEnds hMc hAdm =>
      next_congr ((doFrameAdmit_of_single hFind hEnds hMc).trans (congrArg (inputSync i) (admitOne_of_flushed hAdm)))
  · exact fun s i f hFind hEnds hMc hAdm =>
      next_congr ((doFrameAdmit_of_single hFind hEnds hMc).trans (congrArg (inputSync i) (admitOne_of_fallback hAdm)))
  · exact fun s i f hFind hEnds hMc =>
      next_congr ((doFrameAdmit_of_frame hFind hEnds).trans (congrArg (inputSync i) (if_pos hMc)))
  · exact fun s i f hFind hEnds => next_congr (doFrameAdmit_of_closed hFind hEnds)
  · exact fun s f l hRetry hTyp => next_congr (doEvictionRetry_of_cons hRetry hTyp)
  · exact fun s p f hPort hPick => next_congr (doOutputGrant_of_pick hPort hPick)
  · exact fun s p f hFind => next_congr (doMulticastGhlExpiry_of_found hFind)
  · exact fun s hRun => next_congr (if_pos (by rw [hRun]; simp))
  · intro s rec p hStaged hRun hMode hLost hFly hRoom hIndex hAdm
    refine ⟨_, next_congr (doTailBatchWrite_of_one hStaged hRun hMode hLost hFly hRoom hIndex hAdm), ?_, ?_, ?_, ?_⟩
    · rw [numbered_swc, enqueue_swc]
    · rw [numbered_swc, enqueue_swc]
    · rw [numbered_out, enqueue_out]
    · rw [numbered_mem, enqueue_mem]
  · intro s b hOut
    refine ⟨_, next_congr (if_pos hOut), rfl, ?_, fun o ho => State.reg_put_other _ _ ho⟩
    rw [State.get_put_same _ _ (by decide)]
    exact Nat.mod_eq_of_lt (lt_of_le_of_lt (Nat.sub_le _ _) (fieldOf_lt _ _ _))

end Sys2Proof.Machine
end

section
/-! PROOFS. What training, requests on the link and the lane test do (spec/11). -/
namespace Sys2Proof.Machine

open Sys2Proof

set_option Elab.async false

/-! ### The link state of a port -/

@[simp] theorem State.port_modPort_same (s : State) (p : Nat) (f : Port → Port) : (s.modPort p f).port p = f (s.port p) :=
  State.port_setPort_same _ _ _

@[simp] theorem State.modPort_regs (s : State) (p : Nat) (f : Port → Port) : (s.modPort p f).regs = s.regs := rfl

@[simp] theorem State.modPort_mem (s : State) (p : Nat) (f : Port → Port) : (s.modPort p f).mem = s.mem := rfl

theorem State.lst_modPort (s : State) (p r : Nat) (f : Port → Port) : (s.modPort p f).lst r = s.lst r := rfl

theorem State.get_modPort (s : State) (p : Nat) (f : Port → Port) (g : Field) : (s.modPort p f).get g = s.get g := rfl

/-- A transition of a port other than the pair port writes its state and its number. -/
theorem linkTo_of_lt {p st n : Nat} {s : State} (hp : p < 6) :
    linkTo p st n s = (s.put (F.LPn_LINK_STS_STATE p) st).put (F.LPn_LINK_STS_LAST_CAUSE p) n :=
  if_neg (by simp [Nat.ne_of_lt hp])

theorem linkTo_lst {p st n : Nat} {s : State} (hp : p < 6) (hst : st < 16) : (linkTo p st n s).lst p = st := by
  rw [linkTo_of_lt hp, State.lst, State.get_put_disjoint (f := F.LPn_LINK_STS_LAST_CAUSE p) (g := F.LPn_LINK_STS_STATE p) _ _ rfl (.inr (Nat.le_of_ble_eq_true rfl)),
    State.get_put_same _ _ (Nat.le_of_ble_eq_true rfl)]
  exact Nat.mod_eq_of_lt hst

theorem linkTo_cause {p st n : Nat} {s : State} (hp : p < 6) (hn : n < 256) : (linkTo p st n s).get (F.LPn_LINK_STS_LAST_CAUSE p) = n := by
  rw [linkTo_of_lt hp, State.get_put_same _ _ (Nat.le_of_ble_eq_true rfl)]
  exact Nat.mod_eq_of_lt hn

/-- What a transition of a port writes is its link status alone. -/
theorem linkTo_get {p st n : Nat} {f : Field} {s : State} (hp : p < 6) (h : f.off ≠ R.LPn_LINK_STS p) : (linkTo p st n s).get f = s.get f := by
  rw [linkTo_of_lt hp, State.get_put_other _ _ h, State.get_put_other _ _ h]

/-! ### Detection and the sets (R241 to R247) -/

/-- What the detector finds, and whether a lane of it can be used. -/
def detected (p lanes : Nat) (s : State) : State := s.put (F.LPn_LANE_STS_DETECTED p) (lanes % 2 ^ portLanes p)

theorem detection_of_none {p lanes : Nat} {s : State} (h : ((laneList p).any fun k => (detected p lanes s).laneOk p k) = false) :
    detection p lanes s = detected p lanes s :=
  if_pos (by rw [show (laneList p).any ((s.put (F.LPn_LANE_STS_DETECTED p) (lanes % 2 ^ portLanes p)).laneOk p) = false from h]; rfl)

theorem detection_of_some {p lanes : Nat} {s : State} (h : ((laneList p).any fun k => (detected p lanes s).laneOk p k) = true) :
    detection p lanes s = if s.lst p = 1 then trainBegin p (linkTo p 2 2 (detected p lanes s)) else trainBegin p (detected p lanes s) :=
  if_neg (by rw [show (laneList p).any ((s.put (F.LPn_LANE_STS_DETECTED p) (lanes % 2 ^ portLanes p)).laneOk p) = true from h]; decide)

theorem doReceiverDetection_of_idle {p lanes : Nat} {s : State} (hp : p < 7) (h : s.lst p = 1 ∨ (s.lst p = 6 ∧ (s.port p).phase = 0)) :
    doReceiverDetection p lanes s = detection p lanes s := by
  refine if_pos ?_
  obtain h | ⟨h6, h0⟩ := h
  · rw [decide_eq_true hp, h]
    rfl
  · rw [decide_eq_true hp, h6, h0]
    rfl

theorem detected_lt (p lanes : Nat) : lanes % 2 ^ portLanes p < 2 ^ 16 := by
  refine lt_of_lt_of_le (Nat.mod_lt _ (Nat.two_pow_pos _)) (Nat.pow_le_pow_right (by decide) ?_)
  unfold portLanes
  split <;> decide

theorem gtsNote_of_invalid {p : Nat} {g : Gts} {s : State} (h5 : s.lst p ≠ 5) (hTrain : s.trains p = true) (hBad : gtsValid g = false) :
    gtsNote p g s = s.setPort p { s.port p with gtsLast := none, gtsCount := 0 } := by
  rw [gtsNote, if_neg h5, if_neg (by rw [hTrain]; decide), if_pos (by rw [hBad]; rfl), State.modPort]

theorem gtsNote_of_three {p : Nat} {g : Gts} {s : State} (h5 : s.lst p ≠ 5) (hTrain : s.trains p = true) (hGood : gtsValid g = true)
    (hKind : g.kind = 3) :
    gtsNote p g s = s.setPort p { s.port p with req := none, gts3 := KMap.insert (KMap.erase (s.port p).gts3 g.index) g.index g.rxbuf } := by
  unfold gtsNote
  rw [if_neg h5, if_neg (by rw [hTrain]; decide), if_neg (by rw [hGood]; decide), State.modPort]
  dsimp only
  rw [if_pos hKind]

/-- A GTS2 set equal to the last one is counted; the eighth in a row is what the peer says (R246). -/
theorem gtsNote_of_repeat {p n : Nat} {g : Gts} {s : State} (h5 : s.lst p ≠ 5) (hTrain : s.trains p = true) (hGood : gtsValid g = true)
    (hKind : g.kind = 2) (hLast : (s.port p).gtsLast = some g) (hCount : (s.port p).gtsCount = n) :
    gtsNote p g s = s.setPort p
      { s.port p with req := none, gtsLast := some g, gtsCount := n + 1, gts2 := if 8 ≤ n + 1 then some g else (s.port p).gts2 } := by
  unfold gtsNote
  rw [if_neg h5, if_neg (by rw [hTrain]; decide), if_neg (by rw [hGood]; decide), State.modPort]
  dsimp only
  rw [if_neg (by rw [hKind]; decide), hLast]
  simp only [beq_self_eq_true, Bool.and_self, if_true, hCount, hKind, decide_true, Bool.true_and, decide_eq_true_eq]

/-! ### The phases (R244 to R250) -/

/-- A phase's end on the sets that were counted last: the gate of every case. -/
theorem doTrainingPhaseComplete_of_lt {p rtt : Nat} {s : State} (hp : p < 7) : doTrainingPhaseComplete p rtt s = phaseDone p rtt s := if_pos hp

theorem phaseDone_one {p rtt : Nat} {g : Gts} {s : State} (hTrain : s.trains p = true) (hPhase : (s.port p).phase = 1)
    (hLast : (s.port p).gtsLast = some g) (hKind : g.kind = 1) (hCount : 8 ≤ (s.port p).gtsCount) (hLane : (s.port p).testLane = none) :
    phaseDone p rtt s = propose p s := by
  unfold phaseDone
  rw [if_neg (by rw [hTrain]; decide), hPhase, hLast]
  refine (if_pos (by rw [hKind, decide_eq_true hCount]; rfl)).trans ?_
  rw [hLane]

theorem phaseDone_test {p rtt k : Nat} {g : Gts} {s : State} (hTrain : s.trains p = true) (hPhase : (s.port p).phase = 1)
    (hLast : (s.port p).gtsLast = some g) (hKind : g.kind = 1) (hCount : 8 ≤ (s.port p).gtsCount) (hLane : (s.port p).testLane = some k)
    (hTest : s.is (F.LPn_LANE_STS_TESTING p) = false) :
    phaseDone p rtt s = startTest (portBlk p) k k ((s.put (F.LPn_LANE_STS_TEST_LANE p) k).put (F.LPn_LANE_STS_TESTING p) 1) := by
  unfold phaseDone
  rw [if_neg (by rw [hTrain]; decide), hPhase, hLast]
  refine (if_pos (by rw [hKind, decide_eq_true hCount]; rfl)).trans ?_
  rw [hLane]
  exact if_neg (by rw [hTest]; exact Bool.false_ne_true)

theorem phaseDone_two {p rtt : Nat} {g : Gts} {s : State} (hTrain : s.trains p = true) (hPhase : (s.port p).phase = 2)
    (hLast : (s.port p).gtsLast = some g) (hKind : g.kind = 1) (hCount : 8 ≤ (s.port p).gtsCount) (hLane : g.lane ≤ 15)
    (hWidth : 2 ^ g.width ≤ (s.port p).width) :
    phaseDone p rtt s = toPhase p (if s.eqWanted p then 3 else 4) (s.setPort p { s.port p with width := 2 ^ g.width }) := by
  unfold phaseDone
  rw [if_neg (by rw [hTrain]; decide)]
  dsimp only
  rw [hPhase, hLast]
  exact if_pos (by rw [hKind, decide_eq_true hCount, decide_eq_true hLane, decide_eq_true hWidth]; rfl)

theorem phaseDone_three {p rtt : Nat} {g : Gts} {s : State} (hTrain : s.trains p = true) (hPhase : (s.port p).phase = 3)
    (hLast : (s.port p).gtsLast = some g) (hKind : g.kind = 1) (hEq : g.eq = false) :
    phaseDone p rtt s = toPhase p 4 (s.setPort p { s.port p with eqDone := true, eqNow := false }) := by
  unfold phaseDone
  rw [if_neg (by rw [hTrain]; decide)]
  dsimp only
  rw [hPhase, hLast]
  exact if_pos (by rw [hKind, hEq]; rfl)

/-- With what the peer says read whole, the last phase compares the two sides (R248). -/
theorem phaseDone_four {p rtt : Nat} {g : Gts} {s : State} (hTrain : s.trains p = true) (hPhase : (s.port p).phase = 4)
    (hGts : (s.port p).gts2 = some g) (hAll : (List.range 9).all (fun j => (KMap.find (s.port p).gts3 j).isSome) = true) :
    phaseDone p rtt s = if !s.pairsWith p g (s.port p).gts3 || s.peerSwapped p g (s.port p).gts3 then trainFail p s
      else (s.put (F.LPn_LINK_STS_TRAIN_RTT_NS p) (min rtt 65535)).setPort p { s.port p with phase := 5 } := by
  unfold phaseDone
  rw [if_neg (by rw [hTrain]; decide)]
  dsimp only
  rw [hPhase]
  rw [hGts]
  exact if_pos hAll

/-! ### The entry into ACTIVE (R249, R250) -/

theorem portReg_lt {p : Nat} (hp : p < 6) : portBase p + 0x10000 ≤ 0xF00000 := by
  unfold portBase
  omega

/-- A register of a port is none of the interrupt controller's. -/
theorem foldl_icuLevels_reg {p o : Nat} {l : List Nat} {s : State} (h : o < 0xF00000) :
    (l.foldl (fun t n => if 256 + 128 * p ≤ n && n < 384 + 128 * p then t.put (F.ICU_SRC_STS_LEVEL n) 0 else t) s).reg o = s.reg o := by
  induction l generalizing s with
  | nil => rfl
  | cons n l ih =>
    refine ih.trans ?_
    dsimp only
    split
    · exact State.reg_put_other _ _ (by simp only [F.ICU_SRC_STS_LEVEL, R.ICU_SRC_STS]; omega)
    · rfl

/-- The link layer of a port begins anew: flow control and the side band's input are cleared, and no other register of a port. -/
theorem freshLl_get {p : Nat} {f : Field} {s : State} (hp : p < 6) (h : f.off < 0xF00000) (hFc : f.off ≠ R.LPn_FC_STS p)
    (hSb : f.off ≠ R.LPn_SB p) : (freshLl p s).get f = s.get f := by
  unfold freshLl
  dsimp only
  rw [if_neg (Nat.ne_of_lt hp), State.get, foldl_icuLevels_reg h, State.reg]
  simp only [State.put_regs, State.modPort_regs]
  rw [get_rput_other _ _ _ hSb, get_rput_other _ _ _ hFc, get_rput_other _ _ _ hFc, State.get, State.reg]

/-- The state of a port without an earlier link at its entry into ACTIVE, before the link opens. -/
def entered (p : Nat) (g : Gts) (s : State) : State :=
  (freshLl p ((peerNote p g (s.port p).gts3 s).put (F.LPn_LINK_STS_EPOCH_CHANGED p) 0)).modPort p fun y => { y with
    phase := 0, epochRec := some g.epoch, epochLost := false, paired := some g, pairedBuf := (s.port p).gts3, peerReq := none, req := none
    eqNow := false, lockFails := 0, replays := 0, sleep := 0, peerHold := false, samples := []
    ackTime := s.dev.time }

theorem foldl_rxbuf_get {p : Nat} {buf : KMap Nat} {l : List Nat} {f : Field} {s : State}
    (h : ∀ v ∈ l, f.off ≠ (F.LPn_PEER_BUF_RXBUF p (v / 4) (v % 4)).off) :
    (l.foldl (fun t v => t.put (F.LPn_PEER_BUF_RXBUF p (v / 4) (v % 4)) (bufOf buf v)) s).get f = s.get f := by
  induction l generalizing s with
  | nil => rfl
  | cons v l ih => exact (ih fun x hx => h x (by simp [hx])).trans (State.get_put_other _ _ (h v (by simp)))

/-- What the peer says of itself is noted: its link identifier. -/
theorem peerNote_linkId (p : Nat) (g : Gts) (buf : KMap Nat) (s : State) :
    (peerNote p g buf s).get (F.LPn_PEER_LINK_ID p) = g.linkId % 2 ^ 16 := by
  have hBuf : ∀ v ∈ List.range 8, (F.LPn_PEER_LINK_ID p).off ≠ (F.LPn_PEER_BUF_RXBUF p (v / 4) (v % 4)).off := by
    intro v _
    simp only [F.LPn_PEER_LINK_ID, F.LPn_PEER_BUF_RXBUF, R.LPn_PEER, R.LPn_PEER_BUF]
    omega
  rw [peerNote, foldl_rxbuf_get hBuf,
    State.get_put_disjoint (f := F.LPn_PEER_EPOCH p) (g := F.LPn_PEER_LINK_ID p) _ _ rfl (.inr (Nat.le_of_ble_eq_true rfl)),
    State.get_put_disjoint (f := F.LPn_PEER_ROLES p) (g := F.LPn_PEER_LINK_ID p) _ _ rfl (.inr (Nat.le_of_ble_eq_true rfl)),
    State.get_put_disjoint (f := F.LPn_PEER_VCS p) (g := F.LPn_PEER_LINK_ID p) _ _ rfl (.inr (Nat.le_of_ble_eq_true rfl)),
    State.get_put_same _ _ (Nat.le_of_ble_eq_true rfl)]
  rfl

theorem entered_linkId {p : Nat} {g : Gts} {s : State} (hp : p < 6) :
    (entered p g s).get (F.LPn_PEER_LINK_ID p) = g.linkId % 2 ^ 16 := by
  have hOff : (F.LPn_PEER_LINK_ID p).off < 0xF00000 := by
    simp only [F.LPn_PEER_LINK_ID, R.LPn_PEER, portBase]
    omega
  have hFc : (F.LPn_PEER_LINK_ID p).off ≠ R.LPn_FC_STS p := by
    simp only [F.LPn_PEER_LINK_ID, R.LPn_PEER, R.LPn_FC_STS]
    omega
  have hSb : (F.LPn_PEER_LINK_ID p).off ≠ R.LPn_SB p := by
    simp only [F.LPn_PEER_LINK_ID, R.LPn_PEER, R.LPn_SB]
    omega
  have hSts : (F.LPn_PEER_LINK_ID p).off ≠ (F.LPn_LINK_STS_EPOCH_CHANGED p).off := by
    simp only [F.LPn_PEER_LINK_ID, R.LPn_PEER, F.LPn_LINK_STS_EPOCH_CHANGED, R.LPn_LINK_STS]
    omega
  rw [entered, State.get_modPort, freshLl_get hp hOff hFc hSb, State.get_put_other _ _ hSts, peerNote_linkId]

theorem entered_epochChanged {p : Nat} {g : Gts} {s : State} (hp : p < 6) :
    (entered p g s).get (F.LPn_LINK_STS_EPOCH_CHANGED p) = 0 := by
  have hOff : (F.LPn_LINK_STS_EPOCH_CHANGED p).off < 0xF00000 := by
    simp only [F.LPn_LINK_STS_EPOCH_CHANGED, R.LPn_LINK_STS, portBase]
    omega
  have hFc : (F.LPn_LINK_STS_EPOCH_CHANGED p).off ≠ R.LPn_FC_STS p := by
    simp only [F.LPn_LINK_STS_EPOCH_CHANGED, R.LPn_LINK_STS, R.LPn_FC_STS]
    omega
  have hSb : (F.LPn_LINK_STS_EPOCH_CHANGED p).off ≠ R.LPn_SB p := by
    simp only [F.LPn_LINK_STS_EPOCH_CHANGED, R.LPn_LINK_STS, R.LPn_SB]
    omega
  rw [entered, State.get_modPort, freshLl_get hp hOff hFc hSb, State.get_put_same _ _ (Nat.le_of_ble_eq_true rfl), Nat.zero_mod]

theorem activeEntry_of_first {p : Nat} {g : Gts} {s : State} (hp : p < 6) (hLst : s.lst p = 2) (hPhase : (s.port p).phase = 5)
    (hGts : (s.port p).gts2 = some g) (hEpoch : (s.port p).epochRec = none) (hLl : (s.port p).hasLl = false) :
    activeEntry p s = txDrain p (linkPend p (sbAnnounce p (setWidth p (s.port p).width (s.port p).group
      (linkTo p 3 3 (openOut p false (entered p g s)))))) := by
  have hTrain : s.trains p = true := by
    rw [State.trains, hLst, hPhase]
    rfl
  have hChanged : s.epochDiffers p g.epoch = false := by
    unfold State.epochDiffers
    rw [hEpoch]
  unfold activeEntry
  dsimp only
  rw [hGts]
  dsimp only
  rw [if_neg (by rw [hPhase, hTrain]; decide), if_neg (Nat.ne_of_lt hp), hChanged, hLl, hLst]
  rfl

/-! ### Failures and tests -/

/-- A first training that fails goes back to detection (Table 11.4, transition 4). -/
theorem trainFail_of_first {p : Nat} {s : State} (h : s.lst p = 2) :
    trainFail p s = (linkTo p 1 4 (faultEvent (portBlk p) 17 0 (s.bump (F.LPn_LINK_CNT_TRAIN_FAIL p)))).modPort p
      fun x => { x with phase := 0 } := if_pos h

/-- The state in which a lane's test has ended. -/
def laneDone (p k : Nat) (pass : Bool) (s : State) : State :=
  (testDone (portBlk p) k pass (((s.put (F.LPn_LANE_STS_TESTING p) 0).bump (F.LPn_LANE_CNT_TESTS p k)).put
    (F.LPn_LANE_CNT_LAST_FAIL p k) (b2n (!pass)))).modPort p fun x => { x with testLane := none }

theorem laneTested_of_pass {p k : Nat} {s : State} (h : (s.port p).testLane = some k) :
    laneTested p true s = propose p (laneDone p k true s) := by
  unfold laneTested laneDone
  rw [h]
  exact if_pos rfl

/-- A lane that fails its test is retired; without another that can be used the port goes off (R253). -/
theorem laneTested_of_last {p k : Nat} {s : State} (h : (s.port p).testLane = some k)
    (hNone : (laneList p).any (((laneDone p k false s).put (F.LPn_LANE_STS_RETIRED p)
      (bitSet ((laneDone p k false s).get (F.LPn_LANE_STS_RETIRED p)) k)).laneIn p) = false) :
    laneTested p false s = reduceService (portOff p (faultEvent (portBlk p) 16 0 ((laneDone p k false s).put (F.LPn_LANE_STS_RETIRED p)
      (bitSet ((laneDone p k false s).get (F.LPn_LANE_STS_RETIRED p)) k)))) := by
  unfold laneTested
  rw [h]
  unfold laneDone at hNone ⊢
  dsimp only
  rw [if_neg Bool.false_ne_true, hNone, if_neg Bool.false_ne_true]

theorem doLaneTestEnd_of_testing {p : Nat} {pass : Bool} {s : State} (hp : p < 7) (hTest : s.is (F.LPn_LANE_STS_TESTING p) = true) :
    doLaneTestEnd p pass s = laneTested p pass s := if_pos (by rw [decide_eq_true hp, hTest]; rfl)

theorem doRetrainLimitExpiry_of_retrain {p : Nat} {s : State} (hp : p < 7) (h : s.lst p = 4 ∨ s.lst p = 5) :
    doRetrainLimitExpiry p s = if s.holdOk p then enterHold p s else portLost p 1 13 s :=
  if_pos (by obtain h | h := h <;> rw [decide_eq_true hp, h] <;> rfl)

theorem phaseLimit_of_lock {p : Nat} {s : State} (h6 : s.lst p = 6) (h1 : (s.port p).phase = 1) :
    phaseLimit p s = s.setPort p { s.port p with
      phase := 0, lockFails := (s.port p).lockFails + 1, eqDone := (s.port p).eqDone && decide ((s.port p).lockFails + 1 < 2) } := by
  rw [phaseLimit, if_pos (by rw [State.trains, h6, h1]; rfl), State.modPort, if_pos h1]

theorem doBlockAlignmentLoss_of_lane {p lane : Nat} {s : State} (hp : p < 7) (hLo : s.get (F.LPn_LINK_STS_GROUP_LANE p) ≤ lane)
    (hHi : lane < s.get (F.LPn_LINK_STS_GROUP_LANE p) + s.width p) :
    doBlockAlignmentLoss p lane s = if s.lst p = 3 then toRetrain p 5 s else if s.lst p = 5 then toRetrain p 9 s else s :=
  if_pos (by rw [decide_eq_true hp, decide_eq_true hLo, decide_eq_true hHi]; rfl)

/-- A detector's find on a port that detects: training begins (Table 11.4, transition 2). -/
theorem exec_receiverDetection_of_detect {p lanes : Nat} {s : State} (hp : p < 6) (hLst : s.lst p = 1)
    (hAny : ((laneList p).any fun k => (s.put (F.LPn_LANE_STS_DETECTED p) (lanes % 2 ^ portLanes p)).laneOk p k) = true) :
    ∃ t, exec (.receiverDetection p lanes) s = .next t ∧ t.lst p = 2 ∧ t.get (F.LPn_LINK_STS_LAST_CAUSE p) = 2
      ∧ t.get (F.LPn_LANE_STS_DETECTED p) = lanes % 2 ^ portLanes p ∧ (t.port p).phase = 1 ∧ (t.port p).gts2 = none := by
  have hNext : doReceiverDetection p lanes s = trainBegin p (linkTo p 2 2 (detected p lanes s)) :=
    (doReceiverDetection_of_idle (Nat.lt_succ_of_lt hp) (.inl hLst)).trans ((detection_of_some hAny).trans (if_pos hLst))
  have hOff : (F.LPn_LANE_STS_DETECTED p).off ≠ R.LPn_LINK_STS p := by
    simp only [F.LPn_LANE_STS_DETECTED, R.LPn_LANE_STS, R.LPn_LINK_STS]
    omega
  refine ⟨_, next_congr hNext, ?_, ?_, ?_, ?_, ?_⟩
  · exact (State.lst_modPort _ _ _ _).trans (linkTo_lst hp (by decide))
  · exact (State.get_modPort _ _ _ _).trans (linkTo_cause hp (by decide))
  · refine (State.get_modPort _ _ _ _).trans ((linkTo_get hp hOff).trans ?_)
    rw [detected, State.get_put_same _ _ (Nat.le_of_ble_eq_true rfl)]
    exact Nat.mod_eq_of_lt (detected_lt p lanes)
  · rw [trainBegin, State.port_modPort_same]
  · rw [trainBegin, State.port_modPort_same]

/-- Settles O43, command by command. -/
theorem trainingResults : Obligations.TrainingResults := by
  refine ⟨?_, ?_, ?_, ?_, ?_, ?_, ?_, ?_, ?_, ?_, ?_, ?_, ?_, ?_, ?_, ?_, ?_, ?_, ?_⟩
  · exact fun s p lanes hp hLst hAny => exec_receiverDetection_of_detect hp hLst hAny
  · exact fun s p lanes hp hLst hNone => next_congr ((doReceiverDetection_of_idle hp (.inl hLst)).trans (detection_of_none hNone))
  · exact fun s p lanes hp hLst hPhase hAny => next_congr ((doReceiverDetection_of_idle hp (.inr ⟨hLst, hPhase⟩)).trans
      ((detection_of_some hAny).trans (if_neg (by rw [hLst]; decide))))
  · rintro s p b g hp rfl h5 hTrain hGood hKind
    exact next_congr ((if_pos hp).trans (gtsNote_of_three h5 hTrain hGood hKind))
  · rintro s p b g n hp rfl h5 hTrain hGood hKind hLast hCount
    exact next_congr ((if_pos hp).trans (gtsNote_of_repeat h5 hTrain hGood hKind hLast hCount))
  · rintro s p b g hp rfl h5 hTrain hBad
    exact next_congr ((if_pos hp).trans (gtsNote_of_invalid h5 hTrain hBad))
  · exact fun s p rtt g hp hTrain hPhase hLast hKind hCount hLane => next_congr ((doTrainingPhaseComplete_of_lt hp).trans
      (phaseDone_one hTrain hPhase hLast hKind hCount hLane))
  · exact fun s p rtt g k hp hTrain hPhase hLast hKind hCount hLane hTest => next_congr ((doTrainingPhaseComplete_of_lt hp).trans
      (phaseDone_test hTrain hPhase hLast hKind hCount hLane hTest))
  · exact fun s p rtt g hp hTrain hPhase hLast hKind hCount hLane hWidth => next_congr ((doTrainingPhaseComplete_of_lt hp).trans
      (phaseDone_two hTrain hPhase hLast hKind hCount hLane hWidth))
  · exact fun s p rtt g hp hTrain hPhase hLast hKind hEq => next_congr ((doTrainingPhaseComplete_of_lt hp).trans
      (phaseDone_three hTrain hPhase hLast hKind hEq))
  · intro s p rtt g hp hTrain hPhase hGts hAll
    have hNext := (doTrainingPhaseComplete_of_lt (rtt := rtt) hp).trans (phaseDone_four (rtt := rtt) hTrain hPhase hGts hAll)
    refine ⟨fun hPair hSwap => next_congr (hNext.trans (if_neg ?_)), fun hPair => next_congr (hNext.trans (if_pos ?_)),
      fun hSwap => next_congr (hNext.trans (if_pos ?_))⟩
    · rw [hPair, hSwap]
      decide
    · rw [hPair]
      rfl
    · rw [hSwap, Bool.or_true]
  · exact fun s p g hp hLst hPhase hGts hEpoch hLl => ⟨_, _, next_congr ((if_pos (Nat.lt_succ_of_lt hp)).trans
      (activeEntry_of_first hp hLst hPhase hGts hEpoch hLl)), entered_linkId hp, entered_epochChanged hp, rfl⟩
  · intro s p hp hLst
    have hGo : (decide (p < 7) && s.lst p == 2) = true := by
      rw [decide_eq_true (Nat.lt_succ_of_lt hp), hLst]
      rfl
    refine ⟨_, next_congr ((if_pos hGo).trans (trainFail_of_first hLst)), ?_, ?_, ?_, ?_⟩
    · exact (State.lst_modPort _ _ _ _).trans (linkTo_lst hp (by decide))
    · exact (State.get_modPort _ _ _ _).trans (linkTo_cause hp (by decide))
    · rw [State.port_modPort_same]
    · rw [State.modPort_mem, linkTo_of_lt hp, State.put_mem, State.put_mem, faultEvent_mem, State.bump_mem]
  · intro s p hp hLst
    have hNext := doRetrainLimitExpiry_of_retrain hp hLst
    exact ⟨fun hHold => next_congr (hNext.trans (if_pos hHold)),
      fun hHold => next_congr (hNext.trans (if_neg (by rw [hHold]; exact Bool.false_ne_true)))⟩
  · exact fun s p hp h6 h1 => next_congr ((if_pos hp).trans (phaseLimit_of_lock h6 h1))
  · intro s p lane hp hLo hHi
    have hNext := doBlockAlignmentLoss_of_lane hp hLo hHi
    exact ⟨fun h3 => next_congr (hNext.trans (if_pos h3)),
      fun h5 => next_congr (hNext.trans ((if_neg (by rw [h5]; decide)).trans (if_pos h5)))⟩
  · exact fun s p ok hp h5 => next_congr (if_pos (by rw [decide_eq_true hp, h5]; rfl))
  · exact fun s p k hp hTest hLane => next_congr ((doLaneTestEnd_of_testing hp hTest).trans (laneTested_of_pass hLane))
  · exact fun s p k hp hTest hLane => ⟨_, _, rfl, rfl, fun hNone =>
      (doLaneTestEnd_of_testing hp hTest).trans (laneTested_of_last hLane hNone)⟩

end Sys2Proof.Machine
end

section
/-! PROOFS. What ends a hold, a request or a tag, and what the slot controller does (spec/11, spec/12). -/
namespace Sys2Proof.Machine

open Sys2Proof

set_option Elab.async false

/-- A request that still waits in the switch core is numbered from 4,096 on (Table 10.4). -/
theorem doRequestDeadline_of_queued {p k : Nat} {f : Frame} {s : State} (hp : p < 7) (hQueued : (s.npQueued p)[k]? = some f) :
    doRequestDeadline p (4096 + k) s = deadlineAnswer p f { s with swc := { s.swc with queued := s.swc.queued.erase f } } := by
  rw [doRequestDeadline, if_neg (Nat.not_le.2 hp), if_pos (Nat.le_add_right _ _), Nat.add_sub_cancel_left, hQueued]

theorem doRequestDeadline_of_sent {p tag : Nat} {n : LinkNp} {s : State} (hp : p < 7) (hTag : tag < 4096)
    (hFind : ((s.port p).np.find? fun m => m.tag == tag && !m.quarantined) = some n) :
    doRequestDeadline p tag s = deadlineAnswer p n.frame (s.setPort p { s.port p with np := (s.port p).np.map fun m =>
      if m.tag = tag then { m with quarantined := true, deadline := s.dev.time + 2 * s.npLimit p } else m }) := by
  rw [doRequestDeadline, if_neg (Nat.not_le.2 hp), if_neg (Nat.not_le.2 hTag), hFind]
  rfl

/-- What a change of presence does for every port: the pin follows, and the Tether is woken (R39). -/
def presenceNoted (p : Nat) (now : Bool) (s : State) : State :=
  doWakeCause (.prsnt p) { s with pins := { s.pins with prsnt := s.pins.prsnt.set p now } }

theorem doPresenceChange_of_change {p : Nat} {now : Bool} {s : State} (hp : p < 6) (hPin : s.pins.prsnt.getD p false ≠ now) :
    doPresenceChange p now s = if s.slotRuns p && (presenceNoted p now s).is (F.LPn_SLOT_CAP_PRSNT_PIN p)
      then presence p now (presenceNoted p now s) else presenceNoted p now s :=
  if_neg (by rw [decide_eq_false (Nat.not_le.2 hp), beq_false_of_ne hPin]; decide)

theorem doAttentionPress_of_lt {p : Nat} {s : State} (hp : p < 6) :
    doAttentionPress p s = if s.slotRuns p && (doWakeCause (.attn p) s).is (F.LPn_SLOT_CAP_ATTN_BTN p) then
        slotSync p (if ((doWakeCause (.attn p) s).put (F.LPn_SLOT_STS_ATTN p) 1).is (F.LPn_SLOT_CTL_AUTO p)
          then buttonPress p ((doWakeCause (.attn p) s).put (F.LPn_SLOT_STS_ATTN p) 1) else (doWakeCause (.attn p) s).put (F.LPn_SLOT_STS_ATTN p) 1)
      else doWakeCause (.attn p) s := if_neg (Nat.not_le.2 hp)

theorem doPwrDone_of_first {p : Nat} {s : State} (hRuns : s.slotRuns p = true) (hOn : s.is (F.LPn_SLOT_CTL_PWR_ON p) = true)
    (hPowered : (s.port p).powered = false) (hInd : (s.port p).indDue = false) :
    doPwrDone p s = portTry1 p (slotSync p ((s.put (F.LPn_SLOT_STS_PWR_DONE p) 1).setPort p
      { s.port p with powered := true, indDue := false })) := by
  unfold doPwrDone
  rw [if_pos (by rw [hRuns, hOn, hPowered, Bool.and_false]; rfl), hInd]
  rfl

theorem doSlotQuiesceEnd_of_idle {p : Nat} {s : State} (hRuns : s.slotRuns p = true) (hSeq : s.get (F.LPn_SLOT_STS_SEQ p) = 3)
    (hIdle : (s.portBusy p && !s.is (F.LPn_SLOT_CAP_PWR_CTRL p)) = false) :
    doSlotQuiesceEnd p s = seqEnd p ((slotOff p s).put (F.LPn_SLOT_CTL_IND_PWR p) 0) := by
  rw [doSlotQuiesceEnd, if_pos (by rw [hRuns, hSeq]; rfl), if_neg (by rw [hIdle]; exact Bool.false_ne_true)]

/-- Settles O44, command by command. -/
theorem portResults : Obligations.PortResults := by
  refine ⟨?_, ?_, ?_, ?_, ?_, ?_, ?_, ?_, ?_, ?_, ?_, ?_, ?_⟩
  · exact fun s p hp h6 => next_congr (if_pos (by rw [decide_eq_true hp, h6]; rfl))
  · exact fun s p k f hp hQueued => next_congr (doRequestDeadline_of_queued hp hQueued)
  · exact fun s p tag n hp hTag hFind => next_congr (doRequestDeadline_of_sent hp hTag hFind)
  · exact fun s p tag hp => next_congr (if_pos hp)
  · exact fun s p now hp hPin hRuns => next_congr ((doPresenceChange_of_change hp hPin).trans (if_neg (by rw [hRuns]; exact Bool.false_ne_true)))
  · exact fun s p now hp hPin hRuns hCap => next_congr ((doPresenceChange_of_change hp hPin).trans
      (if_pos (by rw [hRuns, Bool.true_and]; exact hCap)))
  · intro s p hp hRuns hBtn
    have hNext := (doAttentionPress_of_lt hp).trans (if_pos (by rw [hRuns, hBtn]; rfl))
    exact ⟨fun hAuto => next_congr (hNext.trans (congrArg _ (if_neg (by rw [hAuto]; exact Bool.false_ne_true)))),
      fun hAuto => next_congr (hNext.trans (congrArg _ (if_pos hAuto)))⟩
  · exact fun s p hp hRuns => next_congr ((doAttentionPress_of_lt hp).trans (if_neg (by rw [hRuns]; exact Bool.false_ne_true)))
  · exact fun s p hRuns hOn => next_congr (if_pos (by rw [hRuns, hOn]; rfl))
  · exact fun s p hRuns hOn hPowered hInd => next_congr (doPwrDone_of_first hRuns hOn hPowered hInd)
  · exact fun s p hRuns hSeq => next_congr ((if_neg (by rw [hRuns]; decide)).trans (if_pos hSeq))
  · exact fun s p hRuns hSeq => next_congr ((if_neg (by rw [hRuns]; decide)).trans ((if_neg (by rw [hSeq]; decide)).trans (if_pos hSeq)))
  · exact fun s p hRuns hSeq hIdle => next_congr (doSlotQuiesceEnd_of_idle hRuns hSeq hIdle)

end Sys2Proof.Machine
end

section
/-! PROOFS. What flits, acknowledgements, probes and the sleep handshake do (spec/12). -/
namespace Sys2Proof.Machine

open Sys2Proof

set_option Elab.async false

/-- A passing flit whose ACK names nothing that is out is a fault of the link. -/
theorem doFlitReceived_of_badAck {p : Nat} {f : FlitIn} {s : State} (hp : p < 7) (hOn : s.flits p = true) (hCrc : f.crcOk = true)
    (hAck : ackNote p f s = none) : doFlitReceived p f s = linkFault p s := by
  simp [doFlitReceived, hOn, hCrc, hAck, hp.not_ge]

theorem doFlitReceived_of_badType {p : Nat} {f : FlitIn} {s u : State} (hp : p < 7) (hOn : s.flits p = true) (hCrc : f.crcOk = true)
    (hAck : ackNote p f s = some u) (hTyp : f.typ = 0 ∨ 3 < f.typ) : doFlitReceived p f s = linkFault p (lcwNote p f u) := by
  simp [doFlitReceived, hOn, hCrc, hAck, hp.not_ge, hTyp]

/-- An IDLE flit ahead of E is an error as every other (R276). -/
theorem flitSeq_of_idle {p : Nat} {f : FlitIn} {s : State} (hTyp : f.typ = 3) (hSeq : f.seq = (s.port p).rxSeq)
    (hE : (s.port p).rxSeq < 4096) : flitSeq p f s = flitError p s := by
  have hDup : ¬ ((s.port p).rxSeq + 4095 - f.seq % 4096) % 4096 < 2048 := by omega
  rw [flitSeq, if_neg hDup, if_neg (by rw [hTyp]; exact Bool.false_ne_true)]

/-- The retransmissions of a port that have begun once more. -/
def replayNoted (p : Nat) (s : State) : State :=
  (s.setPort p { s.port p with replays := (s.port p).replays + 1, ackTime := s.dev.time }).bump (F.LPn_REPLAY_STS_REPLAYS p)

theorem replay_of_some {p : Nat} {s : State} (h : (s.port p).unacked ≠ []) :
    replay p s = if 4 ≤ (s.port p).replays + 1 then linkFault p (faultEvent (portBlk p) 32 0 ((replayNoted p s).bump (F.LPn_REPLAY_STS_LIMIT p)))
      else resend p (replayNoted p s) := if_neg (by simpa using h)

theorem doReplayTimeout_of_flits {p : Nat} {s : State} (hp : p < 7) (hOn : s.flits p = true) : doReplayTimeout p s = replay p s :=
  if_pos (by rw [decide_eq_true hp, hOn]; rfl)

/-- A good packet out of the receive buffers acts, and the buffers' state is said. -/
theorem act_of_good {p : Nat} {k : Pkt} {f : State → State} {s : State} (h : k.bad = false) : act p k f s = xoffSync p (f (takeRx p k s)) := by
  rw [act, if_neg (by rw [h]; exact Bool.false_ne_true)]

/-- What a request for sleep is answered with (R293). -/
theorem doSleepReq_of_first {p : Nat} {k : Pkt} {s : State} (hFirst : s.pmFirst p 0 = some k) (hGood : k.bad = false) :
    doSleepReq p s = xoffSync p (if (takeRx p k s).lst p != 3 then takeRx p k s
      else if !s.portIdle p then sendPm p 2 (takeRx p k s)
      else if ((takeRx p k s).port p).sleep = 1 then setSleep p 2 (takeRx p k s)
      else setSleep p 2 (sendPm p 1 (takeRx p k s))) := by
  unfold doSleepReq
  rw [hFirst]
  exact act_of_good hGood

theorem doSleepAck_of_first {p : Nat} {k : Pkt} {s : State} (hFirst : s.pmFirst p 1 = some k) (hGood : k.bad = false)
    (hAsked : ((takeRx p k s).port p).sleep = 1) : doSleepAck p s = xoffSync p (setSleep p 2 (takeRx p k s)) := by
  unfold doSleepAck
  rw [hFirst]
  exact (act_of_good hGood).trans (congrArg _ (if_pos hAsked))

theorem doSleepNak_of_first {p : Nat} {k : Pkt} {s : State} (hFirst : s.pmFirst p 2 = some k) (hGood : k.bad = false)
    (hAsked : ((takeRx p k s).port p).sleep = 1) : doSleepNak p s = xoffSync p (setSleep p 0 (takeRx p k s)) := by
  unfold doSleepNak
  rw [hFirst]
  exact (act_of_good hGood).trans (congrArg _ (if_pos hAsked))

/-- Settles O45, command by command. -/
theorem flitResults : Obligations.FlitResults := by
  refine ⟨?_, ?_, ?_, ?_, ?_, ?_, ?_, ?_, ?_, ?_, ?_, ?_, ?_, ?_, ?_, ?_, ?_, ?_⟩
  · rintro s p b f hp rfl hOn hCrc
    exact next_congr (doFlitReceived_of_crcBad hp hOn hCrc)
  · rintro s p b f hp rfl hOn hCrc hAck
    exact next_congr (doFlitReceived_of_badAck hp hOn hCrc hAck)
  · rintro s p b f u hp rfl hOn hCrc hAck hLow hHigh
    exact next_congr (doFlitReceived_of_passing hp hOn hCrc hAck hLow hHigh)
  · rintro s p b f u hp rfl hOn hCrc hAck hTyp
    exact next_congr (doFlitReceived_of_badType hp hOn hCrc hAck hTyp)
  · exact fun s p f _ hE => ⟨fun hTyp hSeq => flitSeq_of_expected hTyp hSeq hE, fun hTyp hSeq => flitSeq_of_idle hTyp hSeq hE,
      fun hSeq => flitSeq_of_before (d := 1) (by decide) (by decide) hSeq,
      fun hSeq => flitSeq_of_ahead (d := 1) (by decide) (by decide) hSeq hE⟩
  · exact fun s p hp hOn hDiscard => next_congr (if_pos (by rw [decide_eq_true hp, hOn, hDiscard]; rfl))
  · exact fun s p hp hOn hSome hFew => next_congr ((doReplayTimeout_of_flits hp hOn).trans
      ((replay_of_some hSome).trans (if_neg (by omega))))
  · exact fun s p hp hOn hSome hMany => next_congr ((doReplayTimeout_of_flits hp hOn).trans
      ((replay_of_some hSome).trans (if_pos (by omega))))
  · exact fun s p hp hOn => next_congr (if_pos (by rw [decide_eq_true hp, hOn]; rfl))
  · exact fun s p hp => next_congr (if_pos hp)
  · exact fun s p k hFirst hGood => next_congr ((if_pos hFirst).trans (act_of_good hGood))
  · rintro s p k u hFirst hGood rfl
    have hNext := doSleepReq_of_first hFirst hGood
    refine ⟨fun hLst => next_congr (hNext.trans (congrArg _ (if_pos (bne_iff_ne.2 hLst)))), fun hLst hBusy => next_congr (hNext.trans (congrArg _ ?_)),
      fun hLst hIdle hSleep => next_congr (hNext.trans (congrArg _ ?_)), fun hLst hIdle hSleep => next_congr (hNext.trans (congrArg _ ?_))⟩
    · rw [if_neg (by rw [hLst]; decide), if_pos (by rw [hBusy]; rfl)]
    · rw [if_neg (by rw [hLst]; decide), if_neg (by rw [hIdle]; decide), if_neg hSleep]
    · rw [if_neg (by rw [hLst]; decide), if_neg (by rw [hIdle]; decide), if_pos hSleep]
  · exact fun s p k hFirst hGood hAsked => next_congr (doSleepAck_of_first hFirst hGood hAsked)
  · exact fun s p k hFirst hGood hAsked => next_congr (doSleepNak_of_first hFirst hGood hAsked)
  · exact fun s p hp hLst hOn hSleep hIdle => next_congr (if_pos (by rw [decide_eq_true hp, hLst, hOn, hSleep, hIdle]; rfl))
  · exact fun s p hp hLst hSleep => next_congr (if_pos (by rw [decide_eq_true hp, hLst, bne_iff_ne.2 hSleep]; rfl))
  · intro s p hp hLst hSleep hHold hNone
    have hGo : (decide (p < 7) && s.lst p == 3 && (s.port p).sleep == 2 && (s.port p).peerHold && (s.port p).unacked.isEmpty) = true := by
      rw [decide_eq_true (Nat.lt_succ_of_lt hp), hLst, hSleep, hHold, hNone]
      rfl
    refine ⟨_, next_congr (if_pos hGo), linkTo_lst hp (by decide), linkTo_cause hp (by decide), ?_, ?_⟩
    · rw [linkTo_of_lt hp]
      rfl
    · rw [linkTo_of_lt hp]
      rfl
  · exact fun s p hp hLst => next_congr (if_pos (by rw [decide_eq_true hp, hLst]; rfl))

end Sys2Proof.Machine
end

section
/-! PROOFS. What each packet out of the receive buffers does (spec/12). -/
namespace Sys2Proof.Machine

open Sys2Proof

set_option Elab.async false

theorem vcWrong_of_other {p : Nat} {k : Pkt} {s : State} (h : ∃ e, s.vcBound p k.vc = some e ∧ k.env ≠ e) : s.vcWrong p k = true := by
  obtain ⟨e, hBound, hNe⟩ := h
  unfold State.vcWrong
  rw [hBound]
  exact bne_iff_ne.2 hNe

theorem vcWrong_of_own {p : Nat} {k : Pkt} {s : State} (h : ∀ e, s.vcBound p k.vc = some e → k.env = e) : s.vcWrong p k = false := by
  unfold State.vcWrong
  cases hBound : s.vcBound p k.vc with
  | none => rfl
  | some e => exact bne_eq_false_iff_eq.2 (h e hBound)

section request
variable {p : Nat} {k : Pkt} {bad : Bool} {f : State → State} {u : State}

theorem request_of_bad (hBad : bad = true) : request p k bad f u = malformedReq p k u := if_pos (by rw [hBad]; rfl)

theorem request_of_idle (hBad : bad = false) (hReq : u.isRsp p k.vc = false) (hMode : u.dev.mode.serving = false) :
    request p k bad f u = errPkt p k.tag false k.env (pktDa k) 7 u :=
  (if_neg (by rw [hBad, hReq]; decide)).trans (if_pos (by rw [hMode]; rfl))

theorem request_of_serving (hBad : bad = false) (hReq : u.isRsp p k.vc = false) (hMode : u.dev.mode.serving = true) :
    request p k bad f u = if u.vcWrong p k then errPkt p k.tag false k.env (pktDa k) 1 (faultEvent (portBlk p) 35 0 u) else f u :=
  (if_neg (by rw [hBad, hReq]; decide)).trans (if_neg (by rw [hMode]; decide))
end request

theorem act_of_bad {p : Nat} {k : Pkt} {f : State → State} {s : State} (h : k.bad = true) : act p k f s = xoffSync p (badPkt p k (takeRx p k s)) := by
  rw [act, if_pos h]

theorem badPkt_of_request {p : Nat} {k : Pkt} {u : State} (h : [1, 2, 5, 0x0A].contains k.op = true) : badPkt p k u = malformedReq p k u := by
  simp only [List.contains_eq_mem, decide_eq_true_eq, List.mem_cons, List.not_mem_nil, or_false] at h
  rw [badPkt]
  rcases h with h | h | h | h <;> rw [h] <;> exact if_pos (by rw [Bool.and_eq_true]; exact ⟨rfl, by simp⟩)

theorem badPkt_of_response {p : Nat} {k : Pkt} {u : State} (h : [3, 4, 8, 0x0B, 0x0C].contains k.op = true) : badPkt p k u = malformed p u := by
  simp only [List.contains_eq_mem, decide_eq_true_eq, List.mem_cons, List.not_mem_nil, or_false] at h
  rw [badPkt]
  rcases h with h | h | h | h | h <;> rw [h] <;> exact if_neg Bool.false_ne_true

section response
variable {p : Nat} {k : Pkt} {last : Bool} {toNp : LinkNp → State → State} {toCfg : State → State} {u : State}

theorem response_of_open {n : LinkNp} (hRsp : u.isRsp p k.vc = true) (hFind : ((u.port p).np.find? fun m => m.tag == k.tag) = some n)
    (hOpen : n.quarantined = false) : response p k last toNp toCfg u = toNp n u := by
  rw [response, if_neg (by rw [hRsp]; decide), hFind]
  exact if_neg (by rw [hOpen]; decide)

theorem response_of_late {n : LinkNp} (hRsp : u.isRsp p k.vc = true) (hFind : ((u.port p).np.find? fun m => m.tag == k.tag) = some n)
    (hLate : n.quarantined = true) (hLast : last = true) :
    response p k last toNp toCfg u = npFree p k.tag (u.bump (F.LPn_OUTAGE_STS_LATE p)) := by
  rw [response, if_neg (by rw [hRsp]; decide), hFind]
  exact (if_pos hLate).trans (by rw [if_pos hLast])

theorem response_of_config (hRsp : u.isRsp p k.vc = true) (hFind : ((u.port p).np.find? fun m => m.tag == k.tag) = none)
    (hTag : (u.port p).cfgTag = some k.tag) : response p k last toNp toCfg u = toCfg u := by
  rw [response, if_neg (by rw [hRsp]; decide), hFind]
  exact if_pos hTag

theorem response_of_unknown (hRsp : u.isRsp p k.vc = true) (hFind : ((u.port p).np.find? fun m => m.tag == k.tag) = none)
    (hTag : (u.port p).cfgTag ≠ some k.tag) : response p k last toNp toCfg u = malformed p u := by
  rw [response, if_neg (by rw [hRsp]; decide), hFind]
  exact if_neg hTag
end response

section packet
variable {p : Nat} {k : Pkt} {s : State}

/-- A command on a packet acts only on the first of its VC. -/
theorem first_acts {op : Nat} {t : State} (hFirst : s.rxFirst p op k = true) : (if !s.rxFirst p op k then s else t) = t :=
  if_neg (by rw [hFirst]; decide)

theorem first_and_room {op n m : Nat} {t : State} (hFirst : s.rxFirst p op k = true) (hRoom : n < m) :
    (if !s.rxFirst p op k || m ≤ n then s else t) = t := if_neg (by rw [hFirst, decide_eq_false (Nat.not_le.2 hRoom)]; decide)

theorem doCfg_of_first (hFirst : s.rxFirst p 0x0A k = true) (hGood : k.bad = false) (hReq : (takeRx p k s).isRsp p k.vc = false)
    (hTag : ((takeRx p k s).port p).npIn.contains k.tag = false) :
    doCfg p k s = xoffSync p (errPkt p k.tag false k.env (pktDa k) 6 (takeRx p k s)) :=
  (first_acts hFirst).trans ((act_of_good hGood).trans (congrArg _ (if_neg (by rw [hReq, hTag]; decide))))

theorem doCpld_of_first (hFirst : s.rxFirst p 4 k = true) (hGood : k.bad = false) :
    doCpld p k s = xoffSync p (response p k (bitOf k.flags 2) (cpldNp p k) (fun t =>
      if t.is (F.LPn_CFG_CMD_WRITE p) || k.data.length < 8 then malformed p t
      else cfgDone p (b2n ((pktPoison k) || decide (2 ≤ k.status))) (t.put (F.LPn_CFG_DATA_DATA p) (bytesAt k.data 0 8))) (takeRx p k s)) :=
  (first_acts hFirst).trans (act_of_good hGood)

theorem doCpl_of_first (hFirst : s.rxFirst p 3 k = true) (hGood : k.bad = false) :
    doCpl p k s = xoffSync p (response p k true (fun n t => npPoison p n (npFree p k.tag t)) (fun t =>
      cfgDone p (b2n ((pktPoison k) || k.status != 0 || !t.is (F.LPn_CFG_CMD_WRITE p))) t) (takeRx p k s)) :=
  (first_acts hFirst).trans (act_of_good hGood)

theorem doErr_of_first (hFirst : s.rxFirst p 8 k = true) (hGood : k.bad = false) :
    doErr p k s = xoffSync p (if (takeRx p k s).isRsp p k.vc && 0x1000 ≤ k.tag && k.tag ≤ 0x3FFF then
        (if p = 6 then takeRx p k s else postedErr p k (takeRx p k s))
      else response p k true (fun n u => npPoison p n (npFree p k.tag u)) (cfgDone p 1) (takeRx p k s)) :=
  (first_acts hFirst).trans (act_of_good hGood)

theorem doMsgInt_of_first (hFirst : s.rxFirst p 6 k = true) (hGood : k.bad = false) (hp : p < 6)
    (hRoom : (s.icu.msgs.filter fun m => m.port == p).length < 256) :
    doMsgInt p k s = xoffSync p (request p k false (fun t => { t with icu := { t.icu with msgs := t.icu.msgs ++
      [{ port := p, vc := k.vc, vector := k.addr % 128, action := k.addr / 256 % 4, env := k.env, ser := KMap.get (t.port p).ser 0 k.vc }] } })
      (takeRx p k s)) :=
  (first_and_room hFirst hRoom).trans ((act_of_good hGood).trans (congrArg _ (if_neg (Nat.ne_of_lt hp))))

theorem doMsgSb_of_first (hFirst : s.rxFirst p 7 k = true) (hGood : k.bad = false) (hp : p < 6) (hReq : (takeRx p k s).isRsp p k.vc = false)
    (hOwn : (takeRx p k s).vcWrong p k = false) : doMsgSb p k s = xoffSync p (sbIn p k (takeRx p k s)) :=
  (first_acts hFirst).trans ((act_of_good hGood).trans (congrArg _ ((if_neg (Nat.ne_of_lt hp)).trans
    ((if_neg (by rw [hReq]; decide)).trans (if_neg (by rw [hOwn]; decide))))))
end packet

/-- The state from which a message of a partner has been taken. -/
def msgTaken (m : MsgInt) (s : State) : State := { s with icu := { s.icu with msgs := s.icu.msgs.erase m } }

theorem get_msgTaken (m : MsgInt) (s : State) (f : Field) : (msgTaken m s).get f = s.get f := rfl

theorem fnEnv_msgTaken (m : MsgInt) (s : State) (f : Nat) : (msgTaken m s).fnEnv f = s.fnEnv f := rfl

theorem doMsgIntEffect_of_ready {p : Nat} {m : MsgInt} {s : State} (h : s.msgReady p = some m) :
    doMsgIntEffect p s = partnerSource m (msgTaken m s) := by
  rw [doMsgIntEffect, h]
  rfl

/-- A partner's source that names no host function of another envelope takes the action of its message. -/
theorem partnerSource_of_core {m : MsgInt} {s : State} (h : bitOf (s.get (F.ICU_SRC_CFG_TARGETS (256 + 128 * m.port + m.vector))) 8 = false) :
    partnerSource m s = (if m.action = 0 then icuEvent (256 + 128 * m.port + m.vector) else if m.action = 1 then icuLevel (256 + 128 * m.port + m.vector) true
      else if m.action = 2 then icuLevel (256 + 128 * m.port + m.vector) false else id) (s.put (F.ICU_SRC_STS_ENV (256 + 128 * m.port + m.vector)) m.env) := by
  refine (if_neg (by rw [h, Bool.false_and, Bool.false_and]; decide)).trans ?_
  split
  · rfl
  split
  · rfl
  split <;> rfl

theorem partnerSource_of_other {m : MsgInt} {s : State} (hHost : bitOf (s.get (F.ICU_SRC_CFG_TARGETS (256 + 128 * m.port + m.vector))) 8 = true)
    (hFn : s.get (F.ICU_SRC_CFG_HOST_FN (256 + 128 * m.port + m.vector)) ≠ 0)
    (hEnv : s.fnEnv (s.get (F.ICU_SRC_CFG_HOST_FN (256 + 128 * m.port + m.vector))) ≠ some m.env) :
    partnerSource m s = faultEvent .icu 1 ((256 + 128 * m.port + m.vector) % 1024 + m.env % 1024 * 2 ^ 16) (s.bump F.ICU_STS_ENV_DROP) :=
  if_pos (by rw [hHost, bne_iff_ne.2 hFn, bne_iff_ne.2 hEnv]; rfl)

theorem port_put (s : State) (f : Field) (v p : Nat) : (s.put f v).port p = s.port p := rfl

theorem reg_modPort (s : State) (p o : Nat) (f : Port → Port) : (s.modPort p f).reg o = s.reg o := rfl

theorem cfgDone_spec {p r : Nat} (s : State) (hr : r < 4) : (cfgDone p r s).is (F.LPn_CFG_CMD_GO p) = false
    ∧ (cfgDone p r s).get (F.LPn_CFG_CMD_RESULT p) = r ∧ ((cfgDone p r s).port p).cfgTag = none
    ∧ ∀ o, o ≠ R.LPn_CFG_CMD p → (cfgDone p r s).reg o = s.reg o := by
  refine ⟨?_, ?_, ?_, fun o ho => ?_⟩
  · refine Bool.eq_false_iff.2 fun h => (State.is_iff _ _).1 h ?_
    exact (State.get_put_disjoint (f := F.LPn_CFG_CMD_RESULT p) (g := F.LPn_CFG_CMD_GO p) _ _ rfl (.inr (Nat.le_of_ble_eq_true rfl))).trans
      (State.get_put_same _ _ (Nat.le_of_ble_eq_true rfl))
  · exact (State.get_put_same _ _ (Nat.le_of_ble_eq_true rfl)).trans (Nat.mod_eq_of_lt hr)
  · rw [cfgDone, port_put, port_put, State.port_modPort_same]
  · exact (State.reg_put_other _ _ ho).trans ((State.reg_put_other _ _ ho).trans (reg_modPort s p o _))

/-- Settles O46, packet by packet. -/
theorem packetResults : Obligations.PacketResults := by
  refine ⟨?_, ?_, ?_, ?_, ?_, ?_, ?_, ?_, ?_, ?_, ?_, ?_, ?_⟩
  · exact fun u p k bad f => ⟨request_of_bad, request_of_idle,
      fun hBad hReq hMode hOther => (request_of_serving hBad hReq hMode).trans (if_pos (vcWrong_of_other hOther)),
      fun hBad hReq hMode hOwn => (request_of_serving hBad hReq hMode).trans (if_neg (by rw [vcWrong_of_own hOwn]; decide))⟩
  · exact fun u p k f hBad => ⟨act_of_bad hBad, badPkt_of_request, badPkt_of_response⟩
  · exact fun s p k hFirst hGood hRoom => next_congr ((first_and_room hFirst hRoom).trans (act_of_good hGood))
  · exact fun s p k hFirst hGood => next_congr ((first_acts hFirst).trans (act_of_good hGood))
  · exact fun s p k hFirst hGood hRoom => next_congr ((first_and_room hFirst hRoom).trans (act_of_good hGood))
  · exact fun s p k hFirst hGood hReq hTag => next_congr (doCfg_of_first hFirst hGood hReq hTag)
  · rintro s p k u hFirst hGood rfl hRsp
    have hNext := doCpld_of_first hFirst hGood
    exact ⟨fun n hFind hOpen => next_congr (hNext.trans (congrArg _ (response_of_open hRsp hFind hOpen))),
      fun n hFind hLate hLast => next_congr (hNext.trans (congrArg _ (response_of_late hRsp hFind hLate hLast))),
      fun hFind hTag => next_congr (hNext.trans (congrArg _ (response_of_unknown hRsp hFind hTag))),
      fun hFind hTag hRead hLen => next_congr (hNext.trans (congrArg _ ((response_of_config hRsp hFind hTag).trans
        (if_neg (by rw [hRead, decide_eq_false (Nat.not_lt.2 hLen)]; decide)))))⟩
  · rintro s p k u hFirst hGood rfl hRsp
    have hNext := doCpl_of_first hFirst hGood
    exact ⟨fun n hFind hOpen => next_congr (hNext.trans (congrArg _ (response_of_open hRsp hFind hOpen))),
      fun hFind hTag => next_congr (hNext.trans (congrArg _ (response_of_config hRsp hFind hTag)))⟩
  · rintro s p k u hFirst hGood rfl hRsp
    have hNext := doErr_of_first hFirst hGood
    exact ⟨fun hp hLow hHigh => next_congr (hNext.trans (congrArg _ ((if_pos (by rw [hRsp, decide_eq_true hLow, decide_eq_true hHigh]; rfl)).trans
        (if_neg (Nat.ne_of_lt hp))))),
      fun n hTag hFind hOpen => next_congr (hNext.trans (congrArg _ ((if_neg (by rw [decide_eq_false (Nat.not_le.2 hTag), Bool.and_false]; exact Bool.false_ne_true)).trans
        (response_of_open hRsp hFind hOpen))))⟩
  · exact fun s p k hFirst hGood hp hRoom => ⟨_, rfl, next_congr (doMsgInt_of_first hFirst hGood hp hRoom)⟩
  · rintro s p m n u hReady rfl rfl
    have hNext := doMsgIntEffect_of_ready hReady
    have hCoreNext := fun hCore => hNext.trans (partnerSource_of_core ((congrArg (bitOf · 8) (get_msgTaken m s _)).trans hCore))
    refine ⟨fun hHost hFn hEnv => next_congr (hNext.trans (partnerSource_of_other ?_ ?_ ?_)), fun hCore hAct => next_congr ((hCoreNext hCore).trans ?_),
      fun hCore hAct => next_congr ((hCoreNext hCore).trans ?_), fun hCore hAct => next_congr ((hCoreNext hCore).trans ?_)⟩
    · rwa [get_msgTaken]
    · rwa [get_msgTaken]
    · rwa [get_msgTaken, fnEnv_msgTaken]
    · rw [if_pos hAct]; rfl
    · rw [if_neg (by rw [hAct]; decide), if_pos hAct]; rfl
    · rw [if_neg (by rw [hAct]; decide), if_neg (by rw [hAct]; decide), if_pos hAct]; rfl
  · exact fun s p k hFirst hGood hp hReq hOwn => next_congr (doMsgSb_of_first hFirst hGood hp hReq hOwn)
  · exact fun s p hp hGo => ⟨cfgDone p 2 s, next_congr (if_pos (by rw [decide_eq_true hp, hGo]; rfl)), cfgDone_spec s (by decide)⟩

end Sys2Proof.Machine
end

section
/-! PROOFS. What the interrupt commands of the host, the cores and HEP do (spec/13). -/
namespace Sys2Proof.Machine

open Sys2Proof

set_option Elab.async false

theorem doClaim_of_data {c : Nat} {a : Agent} {v : Word} {s : State} (hc : c < 8) (h : (ctlRead a (R.ICU_CLAIM c) 64 s).2 = some v) :
    doClaim c a s = (ctlRead a (R.ICU_CLAIM c) 64 s).1.emit (.ctlData a v.toNat) := by
  unfold doClaim
  dsimp only
  rw [if_pos hc, h]

theorem doClaim_of_none {c : Nat} {a : Agent} {s : State} (hc : c < 8) (h : (ctlRead a (R.ICU_CLAIM c) 64 s).2 = none) :
    doClaim c a s = (ctlRead a (R.ICU_CLAIM c) 64 s).1 := by
  unfold doClaim
  dsimp only
  rw [if_pos hc, h]

theorem doHostProxyEvent_of_first {e : HpEvent} {l : List HpEvent} {s : State} (h : s.icu.hpq = e :: l) :
    doHostProxyEvent s = if s.recordAheadOf e.fn then s else hpDeliver e { s with icu := { s.icu with hpq := l } } := by
  rw [doHostProxyEvent, h]

theorem doMsixEntryReadDone_of_read {f k : Nat} {e : HpEvent} {s : State}
    (h : (s.icu.msixRead.find? fun e => e.fn == f && e.vec == k) = some e) (hGood : s.hbmPoison (s.msixOff (s.msixBase f + k)) = false) :
    doMsixEntryReadDone f k .ok s = msixDeliver f k false { s with icu := { s.icu with msixRead := s.icu.msixRead.erase e } } := by
  unfold doMsixEntryReadDone
  rw [h]
  dsimp only
  rw [hGood]
  rfl

theorem msixDeliver_of_bad {f k : Nat} {s : State} : msixDeliver f k true s = faultEvent .icu 3 (s.msixBase f + k)
    (s.setMsixE (s.msixBase f + k) { s.msixE (s.msixBase f + k) with pending := true }) := by
  unfold msixDeliver
  dsimp only
  rw [if_pos rfl]

theorem msixDeliver_of_masked {f k : Nat} {s : State} (h : (s.msixE (s.msixBase f + k)).masked = true) :
    msixDeliver f k false s = s.setMsixE (s.msixBase f + k) { s.msixE (s.msixBase f + k) with pending := true } := by
  unfold msixDeliver
  dsimp only
  rw [if_neg Bool.false_ne_true, if_pos (by rw [h]; rfl)]

theorem msixDeliver_of_open {f k : Nat} {s : State} (hEntry : (s.msixE (s.msixBase f + k)).masked = false) (hMask : (s.fnOf f).msixMask = false)
    (hEn : (s.fnOf f).msixEn = true) (hMay : s.mayMsg f = true) :
    msixDeliver f k false s = msgFrame f k (s.msixE (s.msixBase f + k)).addr (s.msixE (s.msixBase f + k)).data
      false (s.setMsixE (s.msixBase f + k) { s.msixE (s.msixBase f + k) with pending := false }) := by
  unfold msixDeliver
  dsimp only
  rw [if_neg Bool.false_ne_true, if_neg (by rw [hEntry, hMask]; decide), if_neg (by rw [hMay, hEn]; decide)]

/-- Settles O47, command by command. -/
theorem interruptResults : Obligations.InterruptResults := by
  refine ⟨?_, ?_, ?_, ?_, ?_, ?_, ?_, ?_, ?_, ?_⟩
  · exact fun s c a v hc hRead => next_congr (doClaim_of_data hc hRead)
  · exact fun s c a hc hRead => next_congr (doClaim_of_none hc hRead)
  · exact fun s f tag hRx => next_congr (if_pos hRx)
  · exact fun s f v hRx => next_congr (if_pos hRx)
  · exact fun s e r hFirst hAhead => next_congr ((doHostProxyEvent_of_first hFirst).trans (if_neg (by rw [hAhead]; decide)))
  · exact fun s e r hFirst hAhead => next_congr ((doHostProxyEvent_of_first hFirst).trans (if_pos hAhead))
  · exact fun s f k e hFind hGood => next_congr (doMsixEntryReadDone_of_read hFind hGood)
  · exact fun s f k hMasked => msixDeliver_of_masked hMasked
  · exact fun s f k hEntry hMask hEn hMay => msixDeliver_of_open hEntry hMask hEn hMay
  · exact fun s f k => msixDeliver_of_bad

end Sys2Proof.Machine
end

section
/-! PROOFS. What a taken write of `DEV_CTL` and a register write do (spec/03). -/
namespace Sys2Proof.Machine

open Sys2Proof

set_option Elab.async false

theorem ctlTake_devCtl (r : RegDef) (v : Word) (s : State) : ctlTake .dev R.DEV_CTL r v s = devCtl R.DEV_CTL (s.reg R.DEV_CTL) v s := rfl

theorem noticeIf_dev (c : Bool) (b : Blk) (off : Nat) (s : State) : (noticeIf c b off s).dev = s.dev := by
  cases c with
  | false => rfl
  | true => exact notice_dev

theorem pushOnce_dev (off : Nat) (v : Word) (bit : Option Nat) (s : State) : (pushOnce off v bit s).dev = s.dev :=
  (pushOnce_change (List.Subset.refl _) (.refl _ s)).keep .dev (by decide)

/-- The transition that a write of `DEV_CTL` takes, after what it stores and reports: FORCE_SAFE, SLEEP, QUIESCE set, QUIESCE cleared. -/
theorem devCtl_transition (off : Nat) (old v : Word) (s : State) : ∃ u : State, u.dev = s.dev ∧ devCtl off old v s =
    if fieldOf v 4 1 == 1 && s.dev.mode != .safe then enterSafe 0 u
    else if fieldOf v 2 1 == 1 && !(fieldOf v 2 1 == 1 && !(s.dev.mode == .quiesce && s.is F.DEV_STS_DRAINED)) then enterTether u
    else if fieldOf v 1 1 == 1 && !(fieldOf old 1 1 == 1) && !(fieldOf v 1 1 == 1 && (s.dev.mode == .config || s.dev.mode == .safe)) then quiesceSet 0 u
    else if !(fieldOf v 1 1 == 1) && fieldOf old 1 1 == 1 then quiesceClear 0 u else u := by
  unfold devCtl
  extract_lets m one s1 s2 badQ s3 badS s4 s5 s6
  refine ⟨s6, ?_, rfl⟩
  have h2 : s2.dev = s.dev := by
    simp only [s2]
    split
    · split
      · exact pushOnce_dev ..
      · exact notice_dev
    · exact noticeIf_dev ..
  have h5 : s5.dev = s.dev := (noticeIf_dev ..).trans ((noticeIf_dev ..).trans ((noticeIf_dev ..).trans h2))
  simp only [s6]
  split <;> exact h5

section
variable {old v : Word} {s : State}

/-- FORCE_SAFE enters SAFE from every other mode (transition 10). -/
theorem devCtl_of_force (off : Nat) (hForce : fieldOf v 4 1 = 1) (hMode : s.dev.mode ≠ .safe) :
    (devCtl off old v s).dev.mode = .safe ∧ (devCtl off old v s).dev.cause = 10 := by
  obtain ⟨u, -, hu⟩ := devCtl_transition off old v s
  rw [hu, if_pos (by rw [hForce, bne_iff_ne.2 hMode]; rfl), enterSafe_dev]
  exact ⟨rfl, rfl⟩

theorem quiesceSet_dev {i : Nat} {u : State} (h : u.dev.mode.running = true) : (quiesceSet i u).dev.mode = .quiesce ∧ (quiesceSet i u).dev.cause = 6 := by
  rw [quiesceSet, if_pos h, setMode_dev]
  exact ⟨rfl, rfl⟩

theorem running_not_config_safe {m : Mode} : m.running = true → (m == .config || m == .safe) = false := by
  cases m <;> decide

/-- QUIESCE set in RUN or DEGRADED enters QUIESCE (transition 6). -/
theorem devCtl_of_quiesce (off : Nat) (hMode : s.dev.mode.running = true) (hNew : fieldOf v 1 1 = 1) (hOld : fieldOf old 1 1 = 0)
    (hSleep : fieldOf v 2 1 = 0) (hForce : fieldOf v 4 1 = 0) :
    (devCtl off old v s).dev.mode = .quiesce ∧ (devCtl off old v s).dev.cause = 6 := by
  obtain ⟨u, hDev, hu⟩ := devCtl_transition off old v s
  rw [hu, if_neg (by rw [hForce]; exact Bool.false_ne_true), if_neg (by rw [hSleep]; exact Bool.false_ne_true),
    if_pos (by rw [hNew, hOld, running_not_config_safe hMode]; rfl)]
  exact quiesceSet_dev (hDev ▸ hMode)

/-- SLEEP in a drained QUIESCE enters TETHER (transition 9). -/
theorem devCtl_of_sleep (off : Nat) (hSleep : fieldOf v 2 1 = 1) (hMode : s.dev.mode = .quiesce) (hDrained : s.is F.DEV_STS_DRAINED = true)
    (hForce : fieldOf v 4 1 = 0) : (devCtl off old v s).dev.mode = .tether ∧ (devCtl off old v s).dev.cause = 9 := by
  obtain ⟨u, -, hu⟩ := devCtl_transition off old v s
  rw [hu, if_neg (by rw [hForce]; exact Bool.false_ne_true), if_pos (by rw [hSleep, hMode, hDrained]; rfl), enterTether, powerDown_dev, setMode_dev]
  exact ⟨rfl, rfl⟩

/-- ENABLE set in CONFIG queues the check of transition 4. -/
theorem devCtl_of_enable (off : Nat) (hMode : s.dev.mode = .config) (hEn : fieldOf v 0 1 = 1) (hOldEn : fieldOf old 0 1 = 0)
    (hQuiesce : fieldOf v 1 1 = 0) (hOldQuiesce : fieldOf old 1 1 = 0) (hSleep : fieldOf v 2 1 = 0) (hForce : fieldOf v 4 1 = 0) :
    devCtl off old v s = (pushOnce off v (some 0) (s.put F.DEV_CTL_D3COLD_SLEEP (fieldOf v 3 1))).put F.DEV_CTL_QUIESCE (fieldOf v 1 1) := by
  unfold devCtl
  simp only [hMode, hEn, hOldEn, hQuiesce, hOldQuiesce, hSleep, hForce]
  rfl
end

section
variable {s : State} {a : Agent} {b : Blk} {off : Nat} {v : Word} {r : RegDef}

theorem devCtl_of_takes (h : s.Takes a .dev R.DEV_CTL r v) : ctlWriteBy a R.DEV_CTL v 64 s = devCtl R.DEV_CTL (s.reg R.DEV_CTL) v s :=
  (ctlWriteBy_of_takes h).trans (ctlTake_devCtl r v s)

/-- A write of another width than 64 bits is reported and ignored (R8). -/
theorem ctlWriteAs_of_width {w : Nat} (hBlk : blockAt off = some b) (hReach : s.reaches a b = true) (hHas : s.hasBlk b = true)
    (hLow : off < 0x1600000) (hAl : off % 8 = 0) (hReg : s.regDef off = some r) (hw : w ≠ 64) : ctlWriteAs a off v w s = notice b off s := by
  have hOff : off / 8 * 8 = off := by omega
  simp [ctlWriteAs, hBlk, hReach, hHas, hLow.not_ge, hOff, hReg, hw]

end

/-- A bit of a value is the same after another bit was written. -/
theorem fieldOf_setOther (v : Word) {i j : Nat} (h : i ≠ j) : fieldOf (withField v i 1 1) j 1 = fieldOf v j 1 :=
  fieldOf_withField_disjoint _ _ (by omega)

/-- Settles O48, command by command. -/
theorem devResults : Obligations.DevResults := by
  refine ⟨?_, ?_, ?_, ?_, ?_, ?_, ?_, ?_⟩
  · exact fun s a v r h hMode => ⟨_, next_congr (devCtl_of_takes h), devCtl_of_force _ (fieldOf_setBit v 4 (by decide)) hMode⟩
  · exact fun s a v r h hMode hNew hOld hSleep hForce => ⟨_, next_congr (devCtl_of_takes h), devCtl_of_quiesce _ hMode hNew hOld hSleep hForce⟩
  · exact fun s a v r h hMode hDrained hForce => ⟨_, next_congr (devCtl_of_takes h), devCtl_of_sleep _ (fieldOf_setBit v 2 (by decide)) hMode hDrained
      ((fieldOf_setOther v (by decide)).trans hForce)⟩
  · exact fun s a v r h hMode hOldEn hQuiesce hOldQuiesce hSleep hForce => next_congr ((devCtl_of_takes h).trans
      (devCtl_of_enable _ hMode (fieldOf_setBit v 0 (by decide)) hOldEn ((fieldOf_setOther v (by decide)).trans hQuiesce) hOldQuiesce
        ((fieldOf_setOther v (by decide)).trans hSleep) ((fieldOf_setOther v (by decide)).trans hForce)))
  · exact fun s a off v hMay => (exec_registerWrite_of_mayControl hMay off v 64).trans (next_congr (ctlWriteBy_of_mayControl hMay off v 64).symm)
  · exact fun s f off v hRx => next_congr (if_pos hRx)
  · intro s a off v b r w h hw
    obtain ⟨hMay, hBlk, hReach, hHas, hLow, hAl, hReg, -⟩ := h
    exact (exec_registerWrite_of_mayControl hMay off v w).trans (next_congr (ctlWriteAs_of_width hBlk hReach hHas hLow hAl hReg hw))
  · exact fun s a off v b r hMay hBlk hReach hHas hLow hAl hReg hBad =>
      (exec_registerWrite_of_mayControl hMay off v 64).trans (next_congr (ctlWriteAs_of_refused hBlk hReach hHas hLow hAl hReg hBad))

end Sys2Proof.Machine
end

section
/-! PROOFS. What the custom CSRs of a running core do (spec/14). -/
namespace Sys2Proof.Machine

open Sys2Proof

set_option Elab.async false

section act
variable {c : Nat} {f : State → State} {s : State}

/-- What an online core does outside a FAST handler stands as it is. -/
theorem coreAct_of_slow (hc : c < 8) (hOnline : s.coreOnline c = true) (hSlow : (s.coreOf c).fastActive = false) : coreAct c f s = f s := by
  unfold coreAct
  dsimp only
  rw [if_neg (by rw [decide_eq_false hc.not_ge, hOnline]; decide), if_neg (by rw [hSlow]; exact Bool.false_ne_true)]

/-- So does what an online core does without raising an exception. -/
theorem coreAct_of_quiet (hc : c < 8) (hOnline : s.coreOnline c = true) (hQuiet : faulted c s (f s) = false) : coreAct c f s = f s := by
  unfold coreAct
  dsimp only
  rw [if_neg (by rw [decide_eq_false hc.not_ge, hOnline]; decide), if_neg (by rw [hQuiet, Bool.and_false]; exact Bool.false_ne_true)]

/-- A CSR access of user mode raises the illegal-instruction exception. -/
theorem csrAct_of_user {csr : Nat} (hc : c < 8) (hOnline : s.coreOnline c = true) (hSlow : (s.coreOf c).fastActive = false)
    (hUser : (s.coreOf c).machine = false) : csrAct c csr f s = s.emit (.core c 2 csr) :=
  (coreAct_of_slow hc hOnline hSlow).trans (if_neg (by rw [hUser]; exact Bool.false_ne_true))

/-- What says nothing raises no exception. -/
theorem faulted_of_out {t : State} (h : t.out = s.out) : faulted c s t = false := by rw [faulted, h, List.drop_length]; rfl

/-- A core that enters its FAST handler. -/
def fastEntered (x : Core) : Core :=
  { bankSwap x with fastEpc := BitVec.ofNat 64 x.pc, fastFrom := x.machine, fastActive := true, machine := true, pc := x.fastVec.toNat }

/-- A core that leaves its FAST handler, with ENABLE as given. -/
def fastLeft (enable : Bool) (x : Core) : Core :=
  { bankSwap x with fastEn := enable, pc := x.fastEpc.toNat, machine := x.fastFrom, fastActive := false }

theorem doFastEntry_of_request (hc : c < 8) (hOnline : s.coreOnline c = true) (hSlow : (s.coreOf c).fastActive = false)
    (hEn : (s.coreOf c).fastEn = true) (hRequest : s.fastRequest c = true) :
    doFastEntry c s = s.setCore c (fastEntered (s.coreOf c)) :=
  (coreAct_of_slow hc hOnline hSlow).trans (if_pos (by rw [hRequest, hEn, hSlow]; rfl))

/-- The return of a FAST handler swaps the banks back and leaves ENABLE as written. -/
theorem fastCtl_of_return {v : Word} (hFast : (s.coreOf c).fastActive = true) :
    fastCtl c (withField v 2 1 1) s = s.setCore c (fastLeft (fieldOf v 0 1 == 1) (s.coreOf c)) := by
  unfold fastCtl
  dsimp only
  rw [if_pos (by rw [fieldOf_setBit v 2 (by decide), hFast]; rfl), fieldOf_setOther v (by decide)]
  rfl

theorem setCore_out (x : Core) : (s.setCore c x).out = s.out := rfl

theorem doFastReturn_of_fast {v : Word} (hc : c < 8) (hOnline : s.coreOnline c = true) (hFast : (s.coreOf c).fastActive = true)
    (hMachine : (s.coreOf c).machine = true) : doFastReturn c v s = fastCtl c (withField v 2 1 1) s := by
  have hBody : (if (s.coreOf c).machine then fastCtl c (withField v 2 1 1) s else s.emit (.core c 2 0x7C1)) = fastCtl c (withField v 2 1 1) s :=
    if_pos hMachine
  have hOut : (fastCtl c (withField v 2 1 1) s).out = s.out := by rw [fastCtl_of_return hFast, setCore_out]
  unfold doFastReturn csrAct
  exact (coreAct_of_quiet hc hOnline ((congrArg (faulted c s) hBody).trans (faulted_of_out hOut))).trans hBody

theorem doFastTrap_of_fast (hc : c < 8) (hOnline : s.coreOnline c = true) (hFast : (s.coreOf c).fastActive = true)
    (hQuiet : faulted c s (coreLeave c 3 1 s) = false) : doFastTrap c s = coreLeave c 3 1 s := by
  have hBody : (if (s.coreOf c).fastActive then coreLeave c 3 1 s else s) = coreLeave c 3 1 s := if_pos hFast
  unfold doFastTrap
  exact (coreAct_of_quiet hc hOnline ((congrArg (faulted c s) hBody).trans hQuiet)).trans hBody

/-- A head that moves past the one entry placed at it takes that entry. -/
theorem mbHead_of_one (hHead : (s.coreOf c).head = 0) (hPlaced : (s.mbox c 0).st = 1) (hOther : ∀ k < 16, k ≠ 0 → (s.mbox c k).st ≠ 1) :
    mbHead c 1 s = mboxSync c ((s.setMbox c 0 { s.mbox c 0 with st := 2 }).setCore c
      { (s.setMbox c 0 { s.mbox c 0 with st := 2 }).coreOf c with head := 1 }) := by
  have hFilter : ((List.range 16).filter fun k => (s.mbox c ((0 + k) % 16)).st == 1) = [0] := by
    have hRange : List.range 16 = 0 :: (List.range 15).map (· + 1) := rfl
    rw [hRange, List.filter_cons_of_pos (by simp [hPlaced]), List.filter_eq_nil_iff.2]
    intro k hk
    obtain ⟨j, hj, rfl⟩ := List.mem_map.1 hk
    have hj16 := List.mem_range.1 hj
    rw [beq_iff_eq, Nat.zero_add, Nat.mod_eq_of_lt (by omega)]
    exact hOther _ (by omega) (by omega)
  unfold mbHead
  simp only [hHead, hFilter]
  rfl

theorem mbDone_of_taken {k : Nat} {w : Word} (hTaken : (s.mbox c k).st = 2) (hWord : wordAt (s.mbox c k).area 0 = w) (hSt : fieldOf w 0 8 ≤ 0x0D) :
    mbDone c k s = qResume (s.mbox c k).sq (stopSettle (s.mbox c k).sq
      (mboxDone c k (fieldOf w 0 8) (fieldOf w 32 32) (fieldOf (wordAt (s.mbox c k).area 8) 0 41) s)) := by
  unfold mbDone
  dsimp only
  rw [if_neg (by rw [hTaken]; decide), hWord, if_neg hSt.not_gt, if_neg hSt.not_gt]

theorem coreDoorbell_of_may {v : Word} (hMode : s.dev.mode ≠ .safe)
    (hMay : s.coreDev c = true ∨ (s.qblkEnv (fieldOf v 0 22) = some (s.get (F.GDC_CORE_CTL_ENV c)) ∧ s.owns (s.get (F.GDC_CORE_CTL_ENV c)) = true)) :
    coreDoorbell c v s = qArrive (fieldOf v 0 22) (.doorbell (4096 + c) (fieldOf v 48 16)) s := by
  unfold coreDoorbell
  dsimp only
  rw [if_neg (by rw [beq_false_of_ne hMode]; exact Bool.false_ne_true),
    if_pos (by rwa [Bool.or_eq_true, Bool.and_eq_true, beq_iff_eq])]

theorem coreDoorbell_of_other {v : Word} (hMode : s.dev.mode ≠ .safe) (hDev : s.coreDev c = false)
    (hOther : s.qblkEnv (fieldOf v 0 22) ≠ some (s.get (F.GDC_CORE_CTL_ENV c)) ∨ s.owns (s.get (F.GDC_CORE_CTL_ENV c)) = false) :
    coreDoorbell c v s = dbDrop (fieldOf v 0 22) (4096 + c) F.QEN_DB_DROP_ENV s := by
  unfold coreDoorbell
  dsimp only
  rw [if_neg (by rw [beq_false_of_ne hMode]; exact Bool.false_ne_true), hDev, Bool.false_or]
  rw [if_neg]
  rw [Bool.and_eq_true, beq_iff_eq]
  rintro ⟨hSame, hOwn⟩
  exact hOther.elim (· hSame) (fun h => Bool.false_ne_true (h.symm.trans hOwn))
end act

/-- Settles O49, CSR by CSR. -/
theorem coreResults : Obligations.CoreResults := by
  refine ⟨?_, ?_, ?_, ?_, ?_, ?_, ?_, ?_, ?_, ?_, ?_, ?_, ?_, ?_⟩
  · rintro s c x hc hOnline rfl hSlow hEn hRequest
    exact next_congr (doFastEntry_of_request hc hOnline hSlow hEn hRequest)
  · rintro s c v x hc hOnline rfl hFast hMachine
    exact next_congr ((doFastReturn_of_fast hc hOnline hFast hMachine).trans (fastCtl_of_return hFast))
  · exact fun s c hc hOnline hFast hQuiet => next_congr (doFastTrap_of_fast hc hOnline hFast hQuiet)
  · exact fun s c hc hOnline hSlow hMachine => next_congr (csrAct_of_machine hc hOnline hSlow hMachine)
  · exact fun s c n hc hOnline hSlow hMachine hn => next_congr ((csrAct_of_machine hc hOnline hSlow hMachine).trans
      (by rw [Nat.mod_eq_of_lt (show n < 2 ^ 11 from hn)]))
  · exact fun s c h hc hOnline hSlow hMachine hh => next_congr ((csrAct_of_machine hc hOnline hSlow hMachine).trans (by rw [Nat.mod_eq_of_lt hh]))
  · exact fun s c hHead hPlaced hOther => ⟨_, mbHead_of_one hHead hPlaced hOther, rfl⟩
  · exact fun s c v hc hOnline hSlow hMachine => next_congr (csrAct_of_machine hc hOnline hSlow hMachine)
  · exact fun s c k w hTaken hWord hSt => mbDone_of_taken hTaken hWord hSt
  · exact fun s c v hc hOnline hSlow hMachine => next_congr (csrAct_of_machine hc hOnline hSlow hMachine)
  · exact fun s c v hc hOnline hSlow hMachine => next_congr (csrAct_of_machine hc hOnline hSlow hMachine)
  · rintro s c v q e hMode rfl rfl
    exact ⟨coreDoorbell_of_may hMode, coreDoorbell_of_other hMode⟩
  · exact fun s c hc hOnline hSlow hMachine => next_congr (csrAct_of_machine hc hOnline hSlow hMachine)
  · intro s c v n hc hOnline hSlow hUser
    have hExc (csr : Nat) (f : State → State) : csrAct c csr f s = s.emit (.core c 2 csr) := csrAct_of_user hc hOnline hSlow hUser
    exact ⟨next_congr (hExc ..), next_congr (hExc ..), next_congr (hExc ..), next_congr (hExc ..), next_congr (hExc ..), next_congr (hExc ..),
      next_congr (hExc ..), next_congr (hExc ..)⟩

end Sys2Proof.Machine
end

section
/-! PROOFS. What a core's memory accesses, a mailbox placement and the ends of a load and a quiesce do (spec/14). -/
namespace Sys2Proof.Machine

open Sys2Proof

set_option Elab.async false

theorem doCoreMemoryAccess_of_free {r : CoreReq} {s : State} (hc : r.core < 8) (hOnline : s.coreOnline r.core = true)
    (hSlow : (s.coreOf r.core).fastActive = false) (hLoad : (s.coreOf r.core).load = none) (hYield : (s.coreOf r.core).yield = none)
    (hLow : 1 ≤ r.len) (hHigh : r.len ≤ 8) (hKind : r.kind ≤ 3) (hData : r.kind = 1 → r.len ≤ r.data.length) :
    doCoreMemoryAccess r s = coreMem r (s.setCore r.core
      { s.coreOf r.core with machine := r.machine, pc := if r.kind = 3 then r.addr else (s.coreOf r.core).pc }) := by
  have hGo : ¬ ((s.coreOf r.core).load.isSome || (s.coreOf r.core).yield.isSome || r.len = 0 || 8 < r.len
      || (r.kind = 1 && r.data.length < r.len)) = true := by
    simp only [hLoad, hYield, Option.isSome_none, Bool.or_eq_true, Bool.and_eq_true, decide_eq_true_eq, Bool.false_eq_true, false_or]
    rintro ((hEmpty | hLong) | ⟨hWrite, hShort⟩)
    · exact absurd hEmpty (Nat.ne_of_gt hLow)
    · exact absurd hLong hHigh.not_gt
    · exact absurd hShort (hData hWrite).not_gt
  unfold doCoreMemoryAccess
  dsimp only
  rw [if_neg hGo, coreAct_of_slow hc hOnline hSlow, if_pos hKind]

/-! ### The regions of Table 14.1 -/

section
variable {r : CoreReq} {u : State}

theorem plain_of_le (h : r.kind ≤ 1) : (r.kind == 0 || r.kind == 1) = true := by
  rw [Bool.or_eq_true, beq_iff_eq, beq_iff_eq]
  omega

theorem coreMem_of_tcm (h : r.addr + r.len ≤ 0x40000) : coreMem r u = tcmAccess r u := by
  unfold coreMem
  simp only [Bool.and_eq_true, decide_eq_true_eq]
  rw [if_pos (by omega)]

theorem coreMem_of_mbox (hLow : 0x100000 ≤ r.addr) (hHigh : r.addr + r.len ≤ 0x100800) (hKind : r.kind ≤ 1) : coreMem r u = mboxAccess r u := by
  unfold coreMem
  simp only [Bool.and_eq_true, decide_eq_true_eq]
  rw [if_neg (by omega), if_pos (by omega), if_pos (plain_of_le hKind)]

theorem coreMem_of_timeCmp (hLow : 0x101000 ≤ r.addr) (hHigh : r.addr + r.len ≤ 0x101008) (hLen : 1 ≤ r.len) (hKind : r.kind ≤ 1) :
    coreMem r u = timeCmpAccess r u := by
  unfold coreMem
  simp only [Bool.and_eq_true, decide_eq_true_eq]
  rw [if_neg (by omega), if_neg (by omega), if_pos (by omega), if_pos (plain_of_le hKind)]

theorem coreMem_of_hbm (hLow : 2 ^ 32 ≤ r.addr) (hHigh : r.addr + r.len ≤ 2 ^ 32 + (u.gdcMem r.core).2) (hLen : 1 ≤ r.len) :
    coreMem r u = gdcMemAccess r u := by
  unfold coreMem
  simp only [Bool.and_eq_true, decide_eq_true_eq]
  rw [if_neg (by omega), if_neg (by omega), if_neg (by omega), if_pos (by omega)]

theorem coreMem_of_control (hSlice : (u.gdcMem r.core).2 ≤ 2 ^ 32) (hLow : 2 ^ 33 ≤ r.addr) (hHigh : r.addr + r.len ≤ 2 ^ 33 + 0x4000000)
    (hLen : 1 ≤ r.len) (hKind : r.kind ≤ 1) : coreMem r u = coreControl r u := by
  unfold coreMem
  simp only [Bool.and_eq_true, decide_eq_true_eq]
  rw [if_neg (by omega), if_neg (by omega), if_neg (by omega), if_neg (by omega), if_pos (by omega), if_pos (plain_of_le hKind)]

theorem coreMem_of_view (hSlice : (u.gdcMem r.core).2 ≤ 2 ^ 32) (hLow : 2 ^ 55 ≤ r.addr) (hHigh : r.addr + r.len ≤ 2 ^ 55 + 2 ^ 48)
    (hLen : 1 ≤ r.len) (hKind : r.kind ≤ 1) : coreMem r u = coreView r u := by
  unfold coreMem
  simp only [Bool.and_eq_true, decide_eq_true_eq]
  rw [if_neg (by omega), if_neg (by omega), if_neg (by omega), if_neg (by omega), if_neg (by omega), if_pos (by omega), if_pos (plain_of_le hKind)]

/-- Between TCM and the mailbox lies nothing. -/
theorem coreMem_of_gap (hLow : 0x40000 ≤ r.addr) (hHigh : r.addr + r.len ≤ 0x100000) (hLen : 1 ≤ r.len) :
    coreMem r u = coreFault r.core 1 (faultCause r.kind) r.addr u := by
  unfold coreMem
  simp only [Bool.and_eq_true, decide_eq_true_eq]
  rw [if_neg (by omega), if_neg (by omega), if_neg (by omega), if_neg (by omega), if_neg (by omega), if_neg (by omega)]

theorem tcmAccess_of_read (h : r.kind = 0) : tcmAccess r u =
    u.emit (.core r.core 0 (ofBytes ((List.range r.len).map fun j => KMap.get u.tcm 0 (0x40000 * r.core + r.addr + j)))) :=
  (if_neg (by rw [h]; decide)).trans (if_neg (by rw [h]; decide))
end

section
variable {c addr n : Nat} {ans : Ans} {data : List Byte} {s : State}

theorem coreAnswer_of_good (hLoad : (s.coreOf c).load = some (addr, n)) (hAns : (s.coreOf c).loadAns = some (ans, data)) (hGood : ansGood ans = true) :
    coreAnswer c s = (s.setCore c { s.coreOf c with load := none, loadAns := none }).emit (.core c 0 (ofBytes data)) := by
  unfold coreAnswer
  dsimp only
  rw [hLoad, hAns]
  exact if_pos hGood

theorem coreAnswer_of_bad (hLoad : (s.coreOf c).load = some (addr, n)) (hAns : (s.coreOf c).loadAns = some (ans, data)) (hBad : ansGood ans = false) :
    coreAnswer c s = coreFault c (coreReason ans) 5 addr s := by
  unfold coreAnswer
  dsimp only
  rw [hLoad, hAns]
  exact if_neg (by rw [hBad]; exact Bool.false_ne_true)
end

theorem doMailboxPlace_of_refused {q st : Nat} {s : State} (hWaits : s.ctlWaits 0x0E q = true) (hNew : s.callEntry q = none)
    (hCheck : s.callCheck q = some st) : doMailboxPlace q s = opDone q st s := by
  unfold doMailboxPlace
  rw [if_neg (by rw [hWaits, hNew]; decide), hCheck]

/-- Settles O50, region by region and command by command. -/
theorem coreMemoryResults : Obligations.CoreMemoryResults := by
  refine ⟨?_, ?_, ?_, ?_, ?_, ?_, ?_, ?_⟩
  · rintro s r u hc hOnline hSlow hLoad hYield hLow hHigh hKind hData rfl
    exact next_congr (doCoreMemoryAccess_of_free hc hOnline hSlow hLoad hYield hLow hHigh hKind hData)
  · exact fun u r => ⟨coreMem_of_tcm, coreMem_of_mbox, coreMem_of_timeCmp, coreMem_of_hbm, coreMem_of_control, coreMem_of_view, coreMem_of_gap⟩
  · exact fun u r hKind => if_pos hKind
  · exact fun u r hKind => tcmAccess_of_read hKind
  · exact fun s c addr n ans data hc hOnline hSlow hLoad hAns =>
      ⟨fun hGood => next_congr ((coreAct_of_slow hc hOnline hSlow).trans (coreAnswer_of_good hLoad hAns hGood)),
        fun hBad => next_congr ((coreAct_of_slow hc hOnline hSlow).trans (coreAnswer_of_bad hLoad hAns hBad))⟩
  · rintro s q c k u hWaits hNew hCheck hCore hFree rfl
    exact next_congr (doMailboxPlace_of_free hWaits hNew hCheck hCore hFree)
  · exact fun s q st hWaits hNew hCheck => next_congr (doMailboxPlace_of_refused hWaits hNew hCheck)
  · exact fun s c hc hQuiesce => next_congr (if_pos (by rw [decide_eq_true hc, hQuiesce]; rfl))

end Sys2Proof.Machine
end

section
/-! PROOFS. What the commands on fault sources do (spec/16). -/
namespace Sys2Proof.Machine

open Sys2Proof

set_option Elab.async false

section source
variable {n id : Nat} {b : Blk} {s : State}

/-- A command on a source that the configuration's block lists reaches it. -/
theorem withSource_of_listed {k : Blk → State → State} (hFind : (Blk.all.find? fun x => x.bit == n) = some b) (hUp : s.dev.up = true)
    (hBlk : s.hasBlk b = true) (hSrc : srcLevel b id ≠ 0) : withSource n id k s = k b s := by
  unfold withSource withBlk
  rw [hFind]
  exact (if_pos (by rw [hUp, hBlk]; rfl)).trans (if_neg hSrc)

/-- The grace timer of a source ends outside the wait of BOOT: what its level asks for is done (Table 16.2, R384). -/
theorem graceEnd_of_grace (hId : id < 64) (hGrace : s.is (F.FLT_SRC_CNT_GRACE b.base id) = true)
    (hBoot : (s.dev.mode == .boot && s.get (F.FLT_SRC_CNT_LEVEL b.base id) != 5) = false) :
    graceEnd b id s = if s.dev.mode == .safe then s.put (F.FLT_SRC_CNT_GRACE b.base id) 0
      else if s.get (F.FLT_SRC_CNT_LEVEL b.base id) = 5 then enterSafe b.id (s.put (F.FLT_SRC_CNT_GRACE b.base id) 0)
      else if s.get (F.FLT_SRC_CNT_LEVEL b.base id) = 4 then
        (reduceService (fenceUnit b id (s.fltOf b id).info (s.put (F.FLT_SRC_CNT_GRACE b.base id) 0))).setFlt b id
          { (reduceService (fenceUnit b id (s.fltOf b id).info (s.put (F.FLT_SRC_CNT_GRACE b.base id) 0))).fltOf b id with last := s.dev.time }
      else if s.get (F.FLT_SRC_CNT_LEVEL b.base id) = 3 then degradedTest b id (s.fltOf b id).info (s.put (F.FLT_SRC_CNT_GRACE b.base id) 0)
      else s.put (F.FLT_SRC_CNT_GRACE b.base id) 0 := by
  unfold graceEnd
  dsimp only
  rw [if_neg (by rw [hGrace, hBoot, decide_eq_false hId.not_ge]; decide)]

theorem graceEnd_of_safe (hId : id < 64) (hGrace : s.is (F.FLT_SRC_CNT_GRACE b.base id) = true) (hLevel : s.get (F.FLT_SRC_CNT_LEVEL b.base id) = 5)
    (hMode : s.dev.mode ≠ .safe) : graceEnd b id s = enterSafe b.id (s.put (F.FLT_SRC_CNT_GRACE b.base id) 0) := by
  rw [graceEnd_of_grace hId hGrace (by rw [hLevel, Bool.and_eq_false_iff]; exact .inr rfl), if_neg (by rwa [beq_iff_eq]), if_pos hLevel]

theorem graceEnd_of_low (hId : id < 64) (hGrace : s.is (F.FLT_SRC_CNT_GRACE b.base id) = true) (hLevel : s.get (F.FLT_SRC_CNT_LEVEL b.base id) < 3)
    (hMode : s.dev.mode ≠ .boot) : graceEnd b id s = s.put (F.FLT_SRC_CNT_GRACE b.base id) 0 := by
  rw [graceEnd_of_grace hId hGrace (by rw [beq_false_of_ne hMode, Bool.false_and])]
  refine ite_eq_left_iff.2 fun _ => ?_
  rw [if_neg (by omega), if_neg (by omega), if_neg (by omega)]

theorem graceEnd_of_fence (hId : id < 64) (hGrace : s.is (F.FLT_SRC_CNT_GRACE b.base id) = true) (hLevel : s.get (F.FLT_SRC_CNT_LEVEL b.base id) = 4)
    (hMode : s.dev.mode = .run) : graceEnd b id s =
      (reduceService (fenceUnit b id (s.fltOf b id).info (s.put (F.FLT_SRC_CNT_GRACE b.base id) 0))).setFlt b id
        { (reduceService (fenceUnit b id (s.fltOf b id).info (s.put (F.FLT_SRC_CNT_GRACE b.base id) 0))).fltOf b id with last := s.dev.time } := by
  rw [graceEnd_of_grace hId hGrace (by rw [hMode]; rfl), if_neg (by rw [hMode]; decide), if_neg (by omega), if_pos hLevel]

theorem quietEnd_of_active (hId : id < 64) (hActive : s.is (F.FLT_SRC_CNT_ACTIVE b.base id) = true)
    (hLevel : s.get (F.FLT_SRC_CNT_LEVEL b.base id) ≠ 5) (hGrace : s.is (F.FLT_SRC_CNT_GRACE b.base id) = false)
    (hTest : s.is (F.FLT_SRC_CNT_TESTING b.base id) = false) : quietEnd b id s = (faultClear b id s).bump (F.FLT_RECOV_COUNT b.base) :=
  if_neg (by rw [hActive, hGrace, hTest, decide_eq_false hId.not_ge, decide_eq_false hLevel]; decide)

/-- The self-test of a unit that DEV, a link, QEN and HBM do not run themselves ends, with no further unit to test. -/
theorem selfTested_of_last {pass : Bool} (hBlk : b = .swc ∨ b = .wxl ∨ b = .gdc ∨ b = .hep ∨ b = .icu ∨ b = .spl) (hId : id < 64)
    (hTest : s.is (F.FLT_SRC_CNT_TESTING b.base id) = true) (hMore : (s.fltOf b id).more = []) :
    selfTested b id pass s = if pass then testDone b id pass (s.setFlt b id { s.fltOf b id with more := [] })
      else retireRes b id (s.fltOf b id).test (testDone b id pass (s.setFlt b id { s.fltOf b id with more := [] })) := by
  have hGo : ¬ (false || 64 ≤ id || !s.is (F.FLT_SRC_CNT_TESTING b.base id)) = true := by rw [hTest, decide_eq_false hId.not_ge]; decide
  unfold selfTested
  rcases hBlk with rfl | rfl | rfl | rfl | rfl | rfl <;>
  · dsimp only
    rw [if_neg hGo, hMore]
    rfl
end source

/-! ### Writes of the fault pages -/

section page
variable {n e : Nat} {b : Blk} {a : Agent} {r : RegDef} {v : Word} {s : State}

theorem pageWriteBy_of_takes (hFind : (Blk.all.find? fun x => x.bit == n) = some b) (he : e < 0x1000)
    (h : s.Takes a b (b.base + (0xF000 + e)) r v) :
    pageWriteBy a n e v s = pageWrite b (b.base + (0xF000 + e)) e r (s.reg (b.base + (0xF000 + e))) v s := by
  unfold pageWriteBy
  rw [hFind]
  dsimp only
  rw [Nat.add_assoc]
  exact (ctlWriteBy_of_takes h).trans (ctlTake_page he)

variable {off id : Nat} {old : Word}

theorem pageWrite_ack : pageWrite b off 0x28 r old v s = faultAck b v s := if_pos rfl

theorem faultAck_of_one (hId : id < 64) : faultAck b (BitVec.ofNat 64 (id % 64)) s = irqSync 3 b (s.put (F.FLT_SRC_CNT_ACK_PEND b.base id) 0) := by
  have hVal : (BitVec.ofNat 64 (id % 64)).toNat = id := by rw [BitVec.toNat_ofNat]; omega
  have hBit (i : Nat) (h : 6 ≤ i) : fieldOf (BitVec.ofNat 64 (id % 64)) i 1 = 0 := by
    have hPow : 2 ^ 6 ≤ 2 ^ i := Nat.pow_le_pow_right (by decide) h
    have hShift : (BitVec.ofNat 64 (id % 64)).toNat >>> i = 0 := by
      rw [hVal, Nat.shiftRight_eq_div_pow]
      exact Nat.div_eq_of_lt (Nat.lt_of_lt_of_le hId hPow)
    exact (congrArg (· % 2 ^ 1) hShift).trans (Nat.zero_mod _)
  have hField : fieldOf (BitVec.ofNat 64 (id % 64)) 0 6 = id := by
    rw [fieldOf, hVal, Nat.shiftRight_zero]
    exact Nat.mod_eq_of_lt hId
  rw [faultAck, if_neg (by rw [hBit 9 (by decide)]; decide), if_neg (by rw [hBit 8 (by decide)]; decide), hField]

theorem faultAck_of_all : faultAck b 0x100 s = irqSync 3 b ((List.range 64).foldl (fun t i => t.put (F.FLT_SRC_CNT_ACK_PEND b.base i) 0) s) :=
  (if_neg (by decide)).trans (if_pos (by decide))

theorem faultAck_of_rearm : faultAck b 0x200 s = ((s.put (F.FLT_FIRST_VALID b.base) 0).put (F.FLT_OVF_OVF b.base) 0).put (F.FLT_OVF_COUNT b.base) 0 :=
  if_pos (by decide)

theorem pageWrite_grace : pageWrite b off 0x30 r old v s = pushCheck off (v &&& r.known) none s :=
  (if_neg (by decide)).trans (if_pos rfl)

theorem pageWrite_selftestGo (hId : id < 64) : pageWrite b off 0x50 r old (BitVec.ofNat 64 (4 + id % 64 * 256)) s
    = graceEnd b id (s.put (F.FLT_SELFTEST_ID b.base) id) := by
  have hVal : (BitVec.ofNat 64 (4 + id % 64 * 256)).toNat = 4 + id * 256 := by rw [BitVec.toNat_ofNat]; omega
  have hField : fieldOf (BitVec.ofNat 64 (4 + id % 64 * 256)) 8 6 = id := by
    rw [fieldOf, hVal, Nat.shiftRight_eq_div_pow]
    omega
  have hGo : fieldOf (BitVec.ofNat 64 (4 + id % 64 * 256)) 2 1 = 1 := by
    rw [fieldOf, hVal, Nat.shiftRight_eq_div_pow]
    omega
  unfold pageWrite
  rw [if_neg (by decide), if_neg (by decide), if_pos rfl, hField, hGo, if_pos rfl]

/-- A changed configuration of an enabled source waits for its check. -/
theorem pageWrite_source (hId : id < 64) (hOld : fieldOf old 0 1 = 1) (hNew : fieldOf v 0 1 = 1) (hOther : fltSame old v = false) :
    pageWrite b off (0x100 + 8 * id) r old v s = pushCheck off (v &&& r.known) none s := by
  unfold pageWrite
  dsimp only
  rw [if_neg (by omega), if_neg (by omega), if_neg (by omega),
    if_pos (by rw [Bool.and_eq_true, decide_eq_true_eq, decide_eq_true_eq]; omega), if_pos (by rw [hOld, hNew, hOther]; rfl)]
end page

/-- Settles O51, command by command. -/
theorem faultResults : Obligations.FaultResults := by
  refine ⟨?_, ?_, ?_, ?_, ?_, ?_, ?_, ?_, ?_, ?_, ?_, ?_, ?_⟩
  · exact fun s n id b hFind hUp hBlk hSrc => next_congr (withSource_of_listed hFind hUp hBlk hSrc)
  · intro s n id b hFind hUp hBlk hSrc hId hGrace hLevel hMode
    refine ⟨_, next_congr ((withSource_of_listed hFind hUp hBlk hSrc).trans (graceEnd_of_safe hId hGrace hLevel hMode)), ?_⟩
    rw [enterSafe_dev]
    exact ⟨rfl, rfl, rfl⟩
  · exact fun s n id b hFind hUp hBlk hSrc hId hGrace hLevel hMode =>
      next_congr ((withSource_of_listed hFind hUp hBlk hSrc).trans (graceEnd_of_low hId hGrace hLevel hMode))
  · exact fun s n id b hFind hUp hBlk hSrc hId hGrace hLevel hMode =>
      ⟨_, next_congr ((withSource_of_listed hFind hUp hBlk hSrc).trans (graceEnd_of_fence hId hGrace hLevel hMode)), rfl⟩
  · exact fun s n id b hFind hUp hBlk hSrc hId hActive hLevel hGrace hTest =>
      next_congr ((withSource_of_listed hFind hUp hBlk hSrc).trans (quietEnd_of_active hId hActive hLevel hGrace hTest))
  · exact fun s n id b hFind hUp hHas hSrc hId hTest hBlk hMore =>
      next_congr ((withSource_of_listed hFind hUp hHas hSrc).trans (selfTested_of_last hBlk hId hTest hMore))
  · exact fun s n id b hFind hUp hHas hSrc hId hTest hBlk hMore =>
      next_congr ((withSource_of_listed hFind hUp hHas hSrc).trans (selfTested_of_last hBlk hId hTest hMore))
  · exact fun s a n id b r hFind hId h => next_congr ((pageWriteBy_of_takes hFind (by decide) (by rwa [Nat.mod_eq_of_lt hId])).trans
      (pageWrite_ack.trans (faultAck_of_one hId)))
  · exact fun s a n b r hFind h => next_congr ((pageWriteBy_of_takes hFind (by decide) h).trans (pageWrite_ack.trans faultAck_of_all))
  · exact fun s a n b r hFind h => next_congr ((pageWriteBy_of_takes hFind (by decide) h).trans (pageWrite_ack.trans faultAck_of_rearm))
  · exact fun s a n id b r hFind hId h => next_congr ((pageWriteBy_of_takes hFind (by decide) (by rwa [Nat.mod_eq_of_lt hId])).trans (pageWrite_selftestGo hId))
  · exact fun s a n id v b r hFind hId h hOld hNew hOther => next_congr ((if_pos hId).trans
      ((pageWriteBy_of_takes hFind (by omega) h).trans (pageWrite_source hId hOld hNew hOther)))
  · exact fun s a n v b r hFind h => next_congr ((pageWriteBy_of_takes hFind (by decide) h).trans pageWrite_grace)

end Sys2Proof.Machine
end

section
/-! PROOFS. What the pair's events and control packets do (spec/17). -/
namespace Sys2Proof.Machine

open Sys2Proof

set_option Elab.async false

section
variable {s : State}

theorem withPair_of_up {k : State → State} (hUp : s.dev.up = true) (hBlk : s.hasBlk .prl = true) : withPair k s = k s :=
  if_pos (by rw [hUp, hBlk]; rfl)

/-- A control packet of the partner is taken while port 6 carries flits. -/
theorem doPairControlPacket_of_flits {m : PairMsg} (hUp : s.dev.up = true) (hBlk : s.hasBlk .prl = true) (hFlits : s.flits 6 = true) :
    doPairControlPacket m s = pairMsg m s := (withPair_of_up hUp hBlk).trans (if_pos hFlits)

theorem giveEnd_of_drained (hGiving : s.prl.giving ≠ []) (hPaired : s.paired = true) (hDrained : s.is F.DEV_STS_DRAINED = true)
    (hMirror : s.prl.unmirrored = []) : giveEnd s = icuEvent 61 (quiesceClear 2 (pairReply
      { sbPair (s.prl.giving.foldl (fun t e => setOwn e false t) s) with
        prl := { (sbPair (s.prl.giving.foldl (fun t e => setOwn e false t) s)).prl with giving := [] } })) :=
  if_neg (by rw [hPaired, hDrained, hMirror, List.isEmpty_eq_false_iff.2 hGiving]; decide)

theorem pairMsg_syncDone {w : List Word} (h : s.get F.PRL_PAIR_STS_STATE = 1) :
    pairMsg (.syncDone w) s = { s with prl := { s.prl with gotSync := true, peerOwn := w } } := if_pos h

/-- The partner's answer to the oldest item that it has not mirrored yet. -/
def mirrored (s : State) : State :=
  { s.bump F.PRL_MIRROR_SENT with prl := { (s.bump F.PRL_MIRROR_SENT).prl with unmirrored := (s.bump F.PRL_MIRROR_SENT).prl.unmirrored.drop 1 } }

theorem pairMsg_ack (h : s.prl.unmirrored ≠ []) : pairMsg .ack s = mirrored s :=
  if_neg (by rw [List.isEmpty_eq_false_iff.2 h]; exact Bool.false_ne_true)

theorem mirrored_unmirrored : (mirrored s).prl.unmirrored = s.prl.unmirrored.drop 1 := rfl

theorem mirrored_reg (o : Nat) : (mirrored s).reg o = (s.bump F.PRL_MIRROR_SENT).reg o := rfl

theorem syncAgreed_of_agreed (hState : s.get F.PRL_PAIR_STS_STATE = 1) (hSent : s.prl.sentSync = true) (hGot : s.prl.gotSync = true)
    (hNone : s.claimed = []) : syncAgreed s = pairFormed s := by
  unfold syncAgreed
  dsimp only
  rw [if_neg (by rw [hState, hSent, hGot]; decide), hNone]
  rfl

/-- The partner's heartbeat has been heard. -/
def heard (level : Bool) (s : State) : State :=
  { s.put F.PRL_PAIR_STS_HB_OK 1 with
    pins := { s.pins with hbIn := level }
    prl := { s.prl with hbSilent := false, probing := false, confirm := false } }

theorem doHeartbeatEdge_of_change {level : Bool} (hUp : s.dev.up = true) (hBlk : s.hasBlk .prl = true) (h : s.pins.hbIn ≠ level) :
    doHeartbeatEdge level s = hbSource false (heard level s) :=
  (withPair_of_up hUp hBlk).trans (if_neg (by rwa [beq_iff_eq]))

theorem heard_ok {level : Bool} : (heard level s).is F.PRL_PAIR_STS_HB_OK = true := by
  have hGet : (heard level s).get F.PRL_PAIR_STS_HB_OK = 1 := State.get_put_same s 1 (by decide)
  exact (State.is_iff _ _).2 (by rw [hGet]; decide)

/-- The partner's heartbeat is missing. -/
def unheard (s : State) : State :=
  { (s.put F.PRL_PAIR_STS_HB_OK 0).bump F.PRL_HB_MISSED with prl := { s.prl with hbSilent := true } }

theorem unheard_get (f : Field) : (unheard s).get f = ((s.put F.PRL_PAIR_STS_HB_OK 0).bump F.PRL_HB_MISSED).get f := rfl

theorem unheard_prl : (unheard s).prl = { s.prl with hbSilent := true } := rfl

theorem unheard_state : (unheard s).get F.PRL_PAIR_STS_STATE = s.get F.PRL_PAIR_STS_STATE :=
  (unheard_get _).trans ((State.get_put_other _ _ (by decide)).trans (State.get_put_disjoint _ _ rfl (by decide)))

theorem unheard_ok : (unheard s).is F.PRL_PAIR_STS_HB_OK = false := by
  have hGet : (unheard s).get F.PRL_PAIR_STS_HB_OK = 0 :=
    (unheard_get _).trans ((State.get_put_other _ _ (by decide)).trans (State.get_put_same s 0 (by decide)))
  exact Bool.eq_false_iff.2 fun h => (State.is_iff _ _).1 h hGet

theorem unheard_missed : (unheard s).get F.PRL_HB_MISSED = satAdd 16 (s.get F.PRL_HB_MISSED) 1 := by
  rw [unheard_get, State.get_bump _ (by decide), State.get_put_other _ _ (by decide)]
  rfl

theorem unheard_cfg : (unheard s).cfg = s.cfg := rfl

theorem unheard_paired : (unheard s).paired = s.paired := by rw [State.paired, unheard_state, unheard_cfg, State.paired]

theorem doHeartbeatSilence_of_alone (hUp : s.dev.up = true) (hBlk : s.hasBlk .prl = true) (hHeard : s.prl.hbSilent = false)
    (hAlone : s.paired = false) : doHeartbeatSilence s = unheard s := by
  have hNot : ¬ (unheard s).paired = true := by rw [unheard_paired, hAlone]; exact Bool.false_ne_true
  exact (withPair_of_up hUp hBlk).trans ((if_neg (by rw [hHeard]; exact Bool.false_ne_true)).trans (if_neg hNot))

theorem probeSilent_of_even (hProbing : s.prl.probing = true) (hId : s.pins.pairId = 0) : probeSilent s = failover 2 s :=
  (if_neg (by rw [hProbing]; decide)).trans (if_pos (by rw [hId]))

theorem probeSilent_of_odd (hProbing : s.prl.probing = true) (hId : s.pins.pairId = 1) :
    probeSilent s = { s with prl := { s.prl with probing := false, confirm := true } } :=
  (if_neg (by rw [hProbing]; decide)).trans (if_neg (by rw [hId]; decide))
end

/-- Settles O52, packet by packet and event by event. -/
theorem pairResults : Obligations.PairResults := by
  refine ⟨?_, ?_, ?_, ?_, ?_, ?_, ?_, ?_, ?_, ?_, ?_, ?_, ?_, ?_, ?_, ?_, ?_, ?_⟩
  · exact fun s hUp hBlk hGiving hPaired hDrained hMirror =>
      next_congr ((withPair_of_up hUp hBlk).trans (giveEnd_of_drained hGiving hPaired hDrained hMirror))
  · exact fun s q w hUp hBlk hFlits => next_congr (doPairControlPacket_of_flits hUp hBlk hFlits)
  · exact fun s q w hUp hBlk hFlits => next_congr (doPairControlPacket_of_flits hUp hBlk hFlits)
  · exact fun s q hUp hBlk hFlits => next_congr (doPairControlPacket_of_flits hUp hBlk hFlits)
  · exact fun s l hUp hBlk hFlits => next_congr (doPairControlPacket_of_flits hUp hBlk hFlits)
  · exact fun s hUp hBlk hFlits => next_congr (doPairControlPacket_of_flits hUp hBlk hFlits)
  · exact fun s es hUp hBlk hFlits => next_congr (doPairControlPacket_of_flits hUp hBlk hFlits)
  · exact fun s hUp hBlk hFlits => next_congr (doPairControlPacket_of_flits hUp hBlk hFlits)
  · exact fun s hUp hBlk hFlits => next_congr (doPairControlPacket_of_flits hUp hBlk hFlits)
  · exact fun s w hUp hBlk hFlits hState => next_congr ((doPairControlPacket_of_flits hUp hBlk hFlits).trans (pairMsg_syncDone hState))
  · intro s x l hUp hBlk hFlits hOpen
    refine ⟨mirrored s, next_congr ((doPairControlPacket_of_flits hUp hBlk hFlits).trans (pairMsg_ack (by rw [hOpen]; exact List.cons_ne_nil x l))), ?_,
      congrArg BitVec.toNat (mirrored_reg R.PRL_MIRROR)⟩
    rw [mirrored_unmirrored, hOpen]
    rfl
  · exact fun s hUp hBlk hState => next_congr ((withPair_of_up hUp hBlk).trans (if_pos hState))
  · exact fun s hUp hBlk hState hSent hGot hNone =>
      next_congr ((withPair_of_up hUp hBlk).trans (syncAgreed_of_agreed hState hSent hGot hNone))
  · exact fun s level hUp hBlk hEdge => ⟨heard level s, next_congr (doHeartbeatEdge_of_change hUp hBlk hEdge), heard_ok, rfl, rfl, rfl, rfl⟩
  · exact fun s hUp hBlk hHeard hAlone => ⟨unheard s, next_congr (doHeartbeatSilence_of_alone hUp hBlk hHeard hAlone), unheard_ok, unheard_missed, rfl⟩
  · exact fun s hUp hBlk hProbing hId => next_congr ((withPair_of_up hUp hBlk).trans (probeSilent_of_even hProbing hId))
  · exact fun s hUp hBlk hProbing hId => next_congr ((withPair_of_up hUp hBlk).trans (probeSilent_of_odd hProbing hId))
  · exact fun s hUp hBlk hConfirm => next_congr ((withPair_of_up hUp hBlk).trans (if_pos hConfirm))

end Sys2Proof.Machine
end
